-- ==== Sys2Proof/Word.lean ====
section
/-! DEFINITION. The word of the OZ5120 and its plainest arithmetic. -/

namespace Sys2Proof

/-- A word is 36 bits (chapter 00, Notation). -/
abbrev Word := BitVec 36

/-- A byte. -/
abbrev Byte := BitVec 8

/-- The value of a register: 72-bit registers take all of it (R82), 36-bit registers its low word. -/
abbrev RegVal := BitVec 72

end Sys2Proof
end

