-- ==== Sys2Proof/Syntax.lean ====
section
/-! DEFINITION. The commands of the OZ5120, one constructor per row of the table of operations and events. -/

namespace Sys2Proof

/-- Who reaches the register space (R75): the physical function, a virtual function, or the console. -/
inductive Func where
  | pf
  | vf (n : Nat)
  | console
  deriving DecidableEq, Repr

/-- The function's own copy of a per-function register: 0–15 the virtual functions, 16 the PF, 17 the console. -/
def Func.idx : Func → Nat
  | .vf n => n
  | .pf => 16
  | .console => 17

/-- The function's partition (R75): T*n* for VF *n*, H (16) for the PF and the console. -/
def Func.part : Func → Nat
  | .vf n => n
  | _ => 16

/-- What the read of a matched search entry finds (R253): all good, its action word corrected, a row that fails parity, counted from its first,
or an action word that cannot be corrected. -/
inductive MatchRead where
  | good
  | corrected
  | row (i : Nat)
  | action
  deriving DecidableEq, Repr

/-- A command: one row of the table of operations and events. Each constructor carries its row's operands. -/
inductive Instr where
  /-- R79. A 64-bit write to a whole slot writes the 36-bit word in one step. -/
  | wordWrite (fn : Func) (bar be addr value : Nat)
  /-- R80. A 32-bit write to the low half of a slot is held in the function's half stage; it discards and counts any uncommitted stage for another slot. -/
  | lowHalfWrite (fn : Func) (bar addr value : Nat)
  /-- R80. A 32-bit write to the high half commits the word from the half stage or the current value. -/
  | highHalfWrite (fn : Func) (bar addr value : Nat)
  /-- R81. A 32-bit read of the low half returns bits [31:0] and latches bits [35:32]. -/
  | lowHalfRead (fn : Func) (bar addr : Nat)
  /-- R81. A 32-bit read of the high half returns the latched bits or the current bits [35:32]. -/
  | highHalfRead (fn : Func) (bar addr : Nat)
  /-- R83. A read that returns bits [31:0] of a read-clear register's low word clears it once. -/
  | readClearAccess (fn : Func) (bar be addr : Nat)
  /-- R90. A write of a select register stores the index and sets or clears sel_err. -/
  | selWrite (fn : Func) (block value : Nat)
  /-- R97. A read of GLB_FENCE returns once the function's earlier posted writes have taken effect, or returns 1 after 100 µs. -/
  | glbFenceRead (fn : Func) (late : Bool)
  /-- R98. A write to GLB_BRESET starts a block reset of each selected block. -/
  | glbBresetWrite (fn : Func) (blocks : Nat)
  /-- R632. A block reset ends within 10 µs, leaving its block's registers and counters as the reset table states. -/
  | blockResetEnd (block : Nat)
  /-- R41. A write to a register that has no row of its own takes effect as its chapter states. -/
  | registerWrite (fn : Func) (addr value : Nat)
  /-- R40. A write to an RWL register goes to the SHADOW copy or is refused as locked, depending on the scope state. -/
  | rwlWrite (fn : Func) (addr value : Nat)
  /-- R434. A function-level reset of a VF stops its channels, disables its rings, releases their buffers and resets its access state. -/
  | functionLevelReset (fn : Func)
  /-- R631. A low level on PERST_N resets only the PCI Express endpoint and the functions' channel state. -/
  | perstAssert
  /-- R623. The rise of PERST_N after step 2 starts Detect of the endpoint. -/
  | perstRelease
  /-- R623. The PCI Express link reaches L0 within 100 ms of Detect. -/
  | linkL0 (speed width : Nat)
  /-- R53. IMG_CMD LOAD_HOST starts an image load from host memory under the function's requester ID. -/
  | loadHost (fn : Func) (head : List Byte)
  /-- R54. IMG_CMD LOAD_FLASH starts an image load from flash slot A or B. -/
  | loadFlash (fn : Func) (slot : Nat) (head : List Byte)
  /-- R57. IMG_CMD DISCARD restores a scope's SHADOW bank from ACTIVE, or refuses by state. -/
  | discard (fn : Func) (scope : Nat)
  /-- R58. IMG_CMD APPROVE compares the countersignature with the loader's CMAC and stages or invalidates the tenant scope. -/
  | approve (fn : Func) (scope : Nat)
  /-- R63. IMG_CMD CASTLE requests a castling of the masked scopes at IMG_CASTLE_AT. -/
  | castle (fn : Func)
  /-- R69. IMG_CMD CANCEL cancels a pending castling if it arrives at least 100 µs before the castling time. -/
  | cancel (fn : Func)
  /-- R74. An IMG_CMD op of 0x7-0xF completes with result BAD_HEADER. -/
  | imgCmdInvalidOp (fn : Func) (op : Nat)
  /-- R55. When an image has been read, the remaining checks are made and the scopes go to STAGED, AWAITING or INVALID. -/
  | imgLoadComplete (image : List Byte)
  /-- R55. A bus or flash error during an image read ends the load at once with BUS_ERR or FLASH_ERR. -/
  | imgBusError (read : List Byte)
  /-- R68. A restore of a SHADOW bank from ACTIVE completes within 2 ms and the scope becomes SYNCED. -/
  | shadowRestoreDone (scope : Nat)
  /-- R65. The consistency checks of a castling request complete within 100 µs and the request is accepted or refused. -/
  | castleCheckDone
  /-- R67. At the castling time the generation increments and every masked scope swaps its ACTIVE and SHADOW banks. -/
  | castlingTime
  /-- R47. A write to IMG_FKEY stores the next 32 key bits, up to eight words. -/
  | imgFkeyWrite (fn : Func) (value : Nat)
  /-- R47. A write of 0x0F05 to IMG_FUSE fuses the eight key words, or is refused and counted. -/
  | imgFuseWrite (fn : Func) (value : Nat)
  /-- R47. Key fusing completes within 50 ms and sets IMG_KEY.fused. -/
  | fuseComplete
  /-- R118. A MAC_CTL write of the admin bits begins or ends administrative enable and moves the port state. -/
  | macAdminWrite (fn : Func) (owner tenant : Bool)
  /-- R118. MAC_CTL.restart returns a PRESENT, TRAINING or UP port to PRESENT. -/
  | macRestart (fn : Func) (owner tenant : Bool)
  /-- R118. MAC_CTL.clr_fault takes a FAULT port with no lane in the safe state to ABSENT or PRESENT. -/
  | macClrFault (fn : Func) (owner tenant : Bool)
  /-- R124. Every poll ms the I²C master polls module presence and, in UP, the module flags. -/
  | presencePoll (port : Nat) (ack modFault : Bool)
  /-- R125. Each completed module bring-up step advances bring-up, ending with PRESENT or FAULT. -/
  | moduleBringupStep (port : Nat) (reply : Nat × List (Nat × Nat × Nat))
  /-- R125. A bring-up step exceeding mod_to fails bring-up with cause MOD_FAULT. -/
  | moduleBringupTimeout (port : Nat)
  /-- R118. A valid AN page received in PRESENT starts TRAINING and the train_to timer. -/
  | anPageRx (port : Nat)
  /-- R118. Signal detect on every lane of a PRESENT port without AN starts TRAINING; in REST it can wake the device. -/
  | signalDetect (port : Nat)
  /-- R118. AN, training, PCS, FEC and alignment locks met take the port to UP. -/
  | linkConditionsMet (port : Nat) (eee : Bool)
  /-- R118. Expiry of train_to returns the port to PRESENT or, at retry_max, to FAULT. -/
  | trainToExpiry (port : Nat)
  /-- R120. The first link-loss condition on a lane starts the down_hold timer and truncates a frame being received. -/
  | linkLossBegin (port lane kind : Nat)
  /-- R120. When no link-loss condition holds, the down_hold timer is cleared. -/
  | linkLossEnd (port : Nat)
  /-- R120. Link loss lasting down_hold takes an UP port to PRESENT and counts LINK_DOWN. -/
  | downHoldExpiry (port : Nat)
  /-- R120. A received remote-fault sequence sets rem_fault and stops the scheduler serving the port while it persists. -/
  | remoteFaultRx (port : Nat)
  /-- R126. MAC_I2C_CMD.go starts a software module transaction, or completes with BUSY or DENIED. -/
  | i2cTransactionGo (fn : Func) (value : Nat)
  /-- R126. A module transaction completes and sets its result. -/
  | i2cTransactionDone (port result : Nat) (data : List Byte)
  /-- R531. An I²C line held low for 35 ms raises a FENCING fault against the master. -/
  | i2cBusStuck (master : Nat)
  /-- R130. A partner slot silent for partner_age seconds is freed with PARTNER_GONE. -/
  | partnerAgeExpiry (port slot : Nat)
  /-- R130. Writing 1 to MAC_PARTNER valid frees the slot with PARTNER_GONE. -/
  | partnerSlotFree (fn : Func) (slot : Nat)
  /-- R136. A checked PAUSE frame holds classes 0-6 of the port and loads their timers. -/
  | pauseFrameRx (port time : Nat)
  /-- R136. A checked PFC frame holds or releases the mapped classes and loads their timers. -/
  | pfcFrameRx (port enables : Nat) (times : List Nat)
  /-- R134. A MAC control frame not acted on in the port's mode is consumed and counted. -/
  | rxCtlDiscard (port : Nat)
  /-- R136. A held class's pause timer expires and the class is released. -/
  | pauseTimerExpiry (port cls : Nat)
  /-- R140. Every refresh quanta the MAC repeats the PFC frame for pre-classes still in XOFF. -/
  | pfcRefresh (port : Nat)
  /-- R143. Every verify_time ms a verify mPacket is sent, failing after three unanswered. -/
  | mmVerifyTimer (port : Nat)
  /-- R143. A respond mPacket makes verification SUCCEEDED and writes MM_VERIFY. -/
  | mmRespondRx (port : Nat)
  /-- R147. A continuation fragment of a preemptable frame resumes its reassembly. -/
  | fragmentRx (port : Nat) (first : Bool) (count : Nat) (bytes : List Byte) (crcOk final : Bool)
  /-- R149. After idle µs with no queued frame the transmitter enters low-power idle. -/
  | lpiIdleExpiry (port : Nat)
  /-- R17. The pre-parser sees a frame start, tags its plane, pre-class and sequence. -/
  | frameStart (port : Nat) (pmac : Bool) (bytes : List Byte)
  /-- R263. When the first 256 bytes are held, the BPM allocates a buffer or refuses the frame as NO_BUFFER. -/
  | bufferAllocRx (frame : Nat) (bytes : List Byte)
  /-- R283. A frame ends and its frame check is made; failing frames are dropped and their copies withdrawn. -/
  | frameEnd (port : Nat) (pmac : Bool) (bytes : List Byte) (check : Bool × Nat × Nat)
  /-- R161. The job is handed to the sprayer and takes a reorder store entry or is refused as NO_BUFFER. -/
  | jobHandover (frame : Nat)
  /-- R153. The sprayer dispatches waiting jobs to slices with credits, express first. -/
  | jobDispatch (group : Nat)
  /-- R158. 250 ns later another slice is woken if credits are still below the mark. -/
  | wakeMarkRetry (group : Nat)
  /-- R152. A slice's pipeline takes a job from its FIFO and returns the credit. -/
  | sliceTake (group slice : Nat)
  /-- R176. A slice forms a job's result and returns it to the reorder stage. -/
  | sliceResult (group slice : Nat) (bad : List Nat) (rd : MatchRead)
  /-- R221. A sent learn notification reaches its sink within 2 µs, or is counted LEARN_LOST. -/
  | learnDeliver
  /-- R164. A job's release limit expires, its frame is dropped as LATE and its slice's slowness count may rise. -/
  | jobLate (frame : Nat)
  /-- R162. The reorder stage releases results whose predecessors are released or late. -/
  | reorderRelease (group : Nat)
  /-- R279. The switch core takes a released result, moves the charge and makes its copies. -/
  | switchResult (group : Nat)
  /-- R284. The group's copy engine makes the multicast copies of a result from its FIFO. -/
  | copyEngineResult (group : Nat)
  /-- R157. Once per µs each sprayer computes a target and wakes ASLEEP slices. -/
  | sprayerTarget (group : Nat)
  /-- R155. A WAKING slice becomes ACTIVE and joins the rotation. -/
  | sliceReady (group slice : Nat)
  /-- R155. A DRAINING slice whose FIFO and pipeline are empty goes to ASLEEP or BENCH. -/
  | sliceDrained (group slice : Nat)
  /-- R166. At the end of each window the slowness count restarts and slow may clear. -/
  | slownessWindowEnd (group slice : Nat)
  /-- R296. The HBM controller writes the front pending copy of a DEEP queue to its staging line. -/
  | deepWrite
  /-- R296. A staging line idle for 1 µs is written with padding. -/
  | stagingFlush (queue : Nat)
  /-- R295. A DEEP queue's head below refill starts read-back, bypass or return to ON_CHIP. -/
  | headRefill (queue : Nat)
  /-- R298. A returned record gets a buffer and is appended to its queue's head. -/
  | deepRecordReturn
  /-- R311. A bank row idle for open_max cycles is closed. -/
  | hbmRowClose (unit bank : Nat)
  /-- R312. The controller issues the refresh a stack requires. -/
  | hbmRefresh (unit bank : Nat)
  /-- R313. A pseudo-channel idle for pd_idle ns enters power-down. -/
  | hbmPowerDown (unit : Nat)
  /-- R314. Every retrain minutes a retraining visit of the next pseudo-channel starts. -/
  | hbmRetrainTimer (stack : Nat)
  /-- R314. A pseudo-channel copy completes and the logical pseudo-channel is remapped with HBM_REMAP. -/
  | hbmCopyDone (stack : Nat)
  /-- R314. A trained pseudo-channel goes to BENCH. -/
  | hbmTrainDone (stack : Nat)
  /-- R316. An uncorrectable HBM read fences the row, loses overlapping copies and starts row repair. -/
  | hbmReadError (block line : Nat) (uncorr : Bool)
  /-- R316. Post-package repair of an HBM row completes and the row is written back. -/
  | hbmRowRepairDone (unit : Nat)
  /-- R318. A DRAINING pseudo-channel whose blocks are read back goes to FENCED. -/
  | hbmPcDrained (unit : Nat)
  /-- R319. HBC_CTL CLOSE stops block allocation in the selected stack. -/
  | hbcClose (fn : Func)
  /-- R319. HBC_CTL OPEN resumes block allocation in the stack. -/
  | hbcOpen (fn : Func)
  /-- R314. HBC_CTL RETRAIN starts a visit to the named pseudo-channel. -/
  | hbcRetrain (fn : Func) (pc : Nat)
  /-- R308. A bank mask write applies only while the stack holds no block in use, else sets mask_err. -/
  | hbcBmaskWrite (fn : Func) (word value : Nat)
  /-- R329. The scheduler selects one copy for a port that can be served. -/
  | schedSelect (port : Nat)
  /-- R335. Every 20 ns each shaper adds rate credit up to its burst. -/
  | shaperRefillTick
  /-- R340. A gate control list moves to its next entry, setting gate states and the hold. -/
  | gateEntryChange (port : Nat)
  /-- R354. A selected copy is dispatched to a rewrite engine with a credit. -/
  | rewriteDispatch (cluster : Nat)
  /-- R355. A class-7 copy waiting behind a stalled copy moves to another engine. -/
  | class7Redispatch (cluster engine : Nat)
  /-- R363. An engine starts a copy, latching its banks and reading the program. -/
  | rewriteStart (cluster engine : Nat)
  /-- R361. END ends the edit program. -/
  | editEnd (cluster engine : Nat)
  /-- R361. INSERT inserts n bytes at the offset. -/
  | editInsert (cluster engine : Nat)
  /-- R361. DELETE removes n bytes at the offset. -/
  | editDelete (cluster engine : Nat)
  /-- R361. REPLACE overwrites n bytes from the offset. -/
  | editReplace (cluster engine : Nat)
  /-- R361. SET writes a field from meta, a data word, class or colour. -/
  | editSet (cluster engine : Nat)
  /-- R361. COPY copies n bytes within the head. -/
  | editCopy (cluster engine : Nat)
  /-- R361. CSUM writes an IPv4 header checksum or zero. -/
  | editCsum (cluster engine : Nat)
  /-- R361. TTL decrements the IPv4 TTL or IPv6 hop limit. -/
  | editTtl (cluster engine : Nat)
  /-- R361. PUSH_TAG inserts a 4-byte tag. -/
  | editPushTag (cluster engine : Nat)
  /-- R361. POP_TAG removes a recognised tag. -/
  | editPopTag (cluster engine : Nat)
  /-- R361. SET_PCP sets a tag's PCP and DEI. -/
  | editSetPcp (cluster engine : Nat)
  /-- R361. SET_DSCP sets the DSCP of an IP header. -/
  | editSetDscp (cluster engine : Nat)
  /-- R361. PTP_CF commands the MAC to add residence time to the correctionField. -/
  | editPtpCf (cluster engine : Nat)
  /-- R361. PTP_TS commands the MAC to write or report the egress timestamp. -/
  | editPtpTs (cluster engine : Nat)
  /-- R361. NOP does nothing. -/
  | editNop (cluster engine : Nat)
  /-- R362. An owner opcode runs the owner's microcode routine. -/
  | ownerOpcode (cluster engine : Nat)
  /-- R365. A stalled engine resumes when its output FIFO has room. -/
  | moverStallEnd (cluster engine : Nat)
  /-- R379. A stall of stall_max µs with a pending fault or drain counts as a boundary. -/
  | stallMaxExpiry (cluster engine : Nat)
  /-- R380. An engine logic failure fences the engine at its boundary and promotes the bench engine. -/
  | engineLogicFault (cluster engine : Nat)
  /-- R381. A fenced control-store word is copied from another cluster within 2 µs. -/
  | controlStoreRepairDone (cluster space bank scope word : Nat)
  /-- R377. A write through RWE_IND_DATA goes to all clusters unless a latched bank refuses it. -/
  | rweIndWrite (fn : Func) (value : Nat)
  /-- R357. A slow engine raises an ADVISORY once per minute. -/
  | engineSlowAdvisory (cluster engine : Nat)
  /-- R356. The MAC starts a copy once its FIFO part holds the whole edited head. -/
  | txStart (port : Nat)
  /-- R275. A copy's last byte leaves; the switch core presents LEAVE. -/
  | txFrameEnd (port : Nat)
  /-- R393. An integer register operation writes rd. -/
  | integerOp (thread : Nat)
  /-- R393. An immediate operation writes rd. -/
  | immediateOp (thread : Nat)
  /-- R391. LUI sets bits [35:11] of rd. -/
  | lui (thread : Nat)
  /-- R393. EXT or INS extracts or inserts a bit field. -/
  | bitFieldOp (thread : Nat)
  /-- R393. A pair instruction operates on 72-bit pairs. -/
  | pairOp (thread : Nat)
  /-- R393. MUL, MULHU or MULP multiplies. -/
  | multiply (thread : Nat)
  /-- R392. DIV, DIVU, REM or REMU divides, with fixed results on zero. -/
  | divide (thread : Nat)
  /-- R395. LW loads a word from a reachable region. -/
  | lw (thread : Nat)
  /-- R395. SW stores a word. -/
  | sw (thread : Nat)
  /-- R395. LP loads a pair from an even address. -/
  | lp (thread : Nat)
  /-- R395. SP stores a pair to an even address. -/
  | sp (thread : Nat)
  /-- R393. AMOADD adds atomically to a CMEM word. -/
  | amoadd (thread : Nat)
  /-- R393. AMOSWAP swaps a CMEM word atomically. -/
  | amoswap (thread : Nat)
  /-- R393. CAS compares and stores a CMEM word atomically. -/
  | cas (thread : Nat)
  /-- R393. A conditional branch compares and may jump. -/
  | branch (thread : Nat)
  /-- R393. JAL jumps and links. -/
  | jal (thread : Nat)
  /-- R393. JALR jumps to a register and links. -/
  | jalr (thread : Nat)
  /-- R402. FORK takes a thread for the partition and starts it. -/
  | fork (thread : Nat)
  /-- R403. JOIN waits for a child to end and takes its exit value. -/
  | join (thread : Nat)
  /-- R403. EXIT ends the thread with an exit value. -/
  | exit (thread : Nat)
  /-- R404. WFE returns pending masked events or waits for one. -/
  | wfe (thread : Nat)
  /-- R405. SEV schedules event bits in a target thread. -/
  | sev (thread : Nat)
  /-- R405. SEV bits are set in the target 8 cycles later. -/
  | sevDelivery
  /-- R405. YIELD gives the next issue slot away. -/
  | yield (thread : Nat)
  /-- R404. A thread's timer CSR expires and sets event bit 8. -/
  | threadTimerExpiry (thread : Nat)
  /-- R406. QPOP moves an entry from a punt, event, mailbox or fault queue to CMEM. -/
  | qpop (thread : Nat)
  /-- R409. QPUSH sends a mailbox message, an egress copy or an injection job. -/
  | qpush (thread : Nat)
  /-- R412. BGET presents ALLOC to the BPM. -/
  | bget (thread : Nat)
  /-- R412. BPUT presents FREE. -/
  | bput (thread : Nat)
  /-- R412. BREL presents RELEASE. -/
  | brel (thread : Nat)
  /-- R412. BRET presents RETAIN. -/
  | bret (thread : Nat)
  /-- R412. BGIVE presents GIVE. -/
  | bgive (thread : Nat)
  /-- R412. BRCL presents RECLAIM. -/
  | brcl (thread : Nat)
  /-- R398. BWIN opens a buffer window on a handle. -/
  | bwin (thread : Nat)
  /-- R412. BINFO returns a buffer's state word. -/
  | binfo (thread : Nat)
  /-- R413. TLOOK looks a key up in the partition's committed exact-match region. -/
  | tlook (thread : Nat)
  /-- R413. TINS issues a table-engine command and waits for completion. -/
  | tins (thread : Nat)
  /-- R413. TSRCH issues a search-bank command and waits for completion. -/
  | tsrch (thread : Nat)
  /-- R426. CSRR reads a CSR, latching high words where stated. -/
  | csrr (thread : Nat)
  /-- R426. CSRW writes a CSR, faulting on supervisor CSRs in user mode. -/
  | csrw (thread : Nat)
  /-- R399. TRAP enters supervisor mode at tvec. -/
  | trap (thread : Nat)
  /-- R399. RETS returns to user mode at tepc. -/
  | rets (thread : Nat)
  /-- R397. FENCE waits until every earlier operation has taken effect. -/
  | fence (thread : Nat)
  /-- R396. IFLUSH invalidates the core's cache lines of the thread's region. -/
  | iflush (thread : Nat)
  /-- R417. THR_KILL ends a thread. -/
  | thrKill (thread : Nat)
  /-- R417. THR_START starts an IDLE thread. -/
  | thrStart (thread : Nat)
  /-- R417. THR_RESUME resumes a HALTED thread. -/
  | thrResume (thread : Nat)
  /-- R417. THR_RDREG reads a register of a stopped thread. -/
  | thrRdreg (thread : Nat)
  /-- R417. THR_WRREG writes a register of a HALTED thread. -/
  | thrWrreg (thread : Nat)
  /-- R414. BREAK halts the thread with fault BREAK. -/
  | breakpoint (thread : Nat)
  /-- R401. CCX_T_CTL START starts an IDLE thread at pc in the given mode. -/
  | ccxStart (fn : Func) (mode pc : Nat)
  /-- R389. CCX_T_CTL KILL ends the thread. -/
  | ccxKill (fn : Func)
  /-- R389. CCX_T_CTL RESUME resumes a HALTED thread. -/
  | ccxResume (fn : Func) (mode pc : Nat)
  /-- R389. CCX_T_CTL CLEAR ends a HALTED or EXITED thread. -/
  | ccxClear (fn : Func)
  /-- R422. A CCX_MIG write requests promotion of a core position. -/
  | ccxMigWrite (fn : Func) (value : Nat)
  /-- R423. A thread stopped at its boundary is copied to the new core and resumes. -/
  | threadMigrate (thread : Nat)
  /-- R423. The position is served by the new core, writing CORE_STATE and notices. -/
  | migrationComplete (position : Nat)
  /-- R424. A core shared-logic fault halts the position's threads with CORE_LOST. -/
  | coreLogicFault (position : Nat)
  /-- R421. A slow core raises an ADVISORY once per minute. -/
  | coreSlowAdvisory (position : Nat)
  /-- R420. Setting CCX_TAG.en reseeds the LFSR and enables tagging. -/
  | ccxTagWrite (fn : Func) (value : Nat)
  /-- R437. DMA_CH_CTL go starts an IDLE channel at DMA_CH_HEAD. -/
  | dmaGo (fn : Func)
  /-- R437. DMA_CH_CTL bell makes a parked channel re-read next. -/
  | dmaBell (fn : Func) (next : Nat)
  /-- R436. DMA_CH_CTL stop takes the channel to IDLE after its current descriptor. -/
  | dmaStop (fn : Func)
  /-- R436. DMA_CH_CTL clear takes a HALTED channel to IDLE. -/
  | dmaClear (fn : Func)
  /-- R450. A failed descriptor fetch writes DMA_HALT or CPH_HALT and halts the channel or lane. -/
  | descriptorFetchFail (lane : Bool) (n code : Nat)
  /-- R443. A COPY descriptor moves bytes contiguously, gathered or scattered. -/
  | dmaCopy (ch : Nat) (fields : List Nat) (table data : List Byte) (err : Nat)
  /-- R445. A SEND descriptor builds a frame buffer and enqueues one copy on a port. -/
  | dmaSend (ch : Nat) (fields : List Nat) (data : List Byte) (err : Nat)
  /-- R445. An INJECT descriptor submits a frame as a job to a slice group. -/
  | dmaInject (ch : Nat) (fields : List Nat) (data : List Byte) (err : Nat)
  /-- R444. A RECV descriptor receives one punted frame or waits for one. -/
  | dmaRecv (ch : Nat) (fields : List Nat)
  /-- R444. A punt entry arrives for a WAITING channel and its RECV proceeds. -/
  | recvPuntReady (ch : Nat)
  /-- R451. A descriptor completes: status, record, write-back, vector and event bit in order. -/
  | descriptorComplete (ch : Nat)
  /-- R453. time µs after the oldest pending record the ring's vector is raised. -/
  | ringModerationTimer (ch : Nat)
  /-- R456. Advancing the consumer index frees slots and may release a RING_LOST record. -/
  | ringConsWrite (fn : Func) (index : Nat)
  /-- R453. A DMA_RING_CFG write enables the ring or, clearing en, zeroes its indices. -/
  | ringCfgWrite (fn : Func) (value : Nat)
  /-- R468. A CPH_LOCK req write grants a free lane to the partition if permitted. -/
  | cphLockReq (fn : Func)
  /-- R469. A CPH_LOCK rel write releases the lane, abandoning its job and zeroising it. -/
  | cphLockRel (fn : Func)
  /-- R470. Zeroisation of a released lane completes and the lane becomes free. -/
  | zeroiseDone (lane : Nat)
  /-- R472. CPH_KEY_CTL load loads the staged key or is refused. -/
  | cphKeyLoad (fn : Func) (alg klen : Nat)
  /-- R473. A key load completes within 200 ns and ready reads 1. -/
  | keyLoadDone (lane : Nat)
  /-- R475. CPH_CTL go starts an IDLE lane at CPH_HEAD. -/
  | cphGo (fn : Func)
  /-- R475. CPH_CTL bell makes a parked lane re-read next. -/
  | cphBell (fn : Func) (next : Nat)
  /-- R475. CPH_CTL stop takes the lane to IDLE after its current job. -/
  | cphStop (fn : Func)
  /-- R475. CPH_CTL clear takes a HALTED lane to IDLE. -/
  | cphClear (fn : Func)
  /-- R477. An ENCRYPT job encrypts a message, writing a tag for AEAD algorithms. -/
  | cphEncrypt (lane : Nat) (fields : List Nat) (input iv : List Byte) (err : Nat)
  /-- R477. A DECRYPT job decrypts and checks tag or padding. -/
  | cphDecrypt (lane : Nat) (fields : List Nat) (input iv tag : List Byte) (err : Nat)
  /-- R477. A GENERATE job computes a CMAC or HMAC tag. -/
  | cphGenerate (lane : Nat) (fields : List Nat) (input : List Byte) (err : Nat)
  /-- R477. A VERIFY job compares a computed tag with the given tag. -/
  | cphVerify (lane : Nat) (fields : List Nat) (input tag : List Byte) (err : Nat)
  /-- R479. A cipher job completes: outputs, zeroing, status, record, vector and event bit in order. -/
  | cphJobComplete (lane : Nat)
  /-- R482. A datapath mismatch or key parity error zeroes output, completes FAULT and fences the lane. -/
  | cipherFault (lane kind : Nat)
  /-- R492. TIM_STEP_CTL SET issues a step loading device time. -/
  | stepSet (fn : Func) (secHi : Nat)
  /-- R492. TIM_STEP_CTL ADD issues a forward step. -/
  | stepAdd (fn : Func) (secHi : Nat)
  /-- R492. TIM_STEP_CTL SUB issues a backward step. -/
  | stepSub (fn : Func) (secHi : Nat)
  /-- R492. An accepted step is applied in every unit at once, ending lock and writing TIME_STEP. -/
  | stepApply
  /-- R491. A TIM_RATE write changes the count's rate within 1 µs. -/
  | timRateWrite (fn : Func) (rate : Nat)
  /-- R504. TIM_LOCK renew sets lock and restarts the bound. -/
  | lockRenew (fn : Func) (bound : Nat)
  /-- R504. TIM_LOCK drop ends time lock. -/
  | lockDrop (fn : Func)
  /-- R504. Every millisecond err grows by drift and lock ends above max_err. -/
  | lockErrUpdate
  /-- R490. Loss of REF10M_IN switches to holdover and writes REF_CHANGE. -/
  | refLost
  /-- R490. A reference good for 1 s is relocked and REF_CHANGE written. -/
  | refRelock
  /-- R494. PPS_OUT rises when device time reaches a whole second plus offset. -/
  | ppsOutRise
  /-- R494. PPS_OUT falls width ms after it rose. -/
  | ppsOutFall
  /-- R495. A PPS_IN edge is captured or ignored if too soon. -/
  | ppsInEdge (falling : Bool)
  /-- R495. 1.5 s without an accepted edge clears pps_ok. -/
  | ppsInTimeout
  /-- R503. A squelched output is released hold ms after its conditions clear. -/
  | synceRelease (out : Nat)
  /-- R503. A write changing port, lane or div squelches, applies and later releases the output. -/
  | timSynceWrite (fn : Func) (out value : Nat)
  /-- R512. CNT_SNAP_CTL SNAP requests a snapshot at CNT_SNAP_AT. -/
  | snap (fn : Func)
  /-- R513. CNT_SNAP_CTL JOIN joins a pending snapshot. -/
  | snapJoin (fn : Func)
  /-- R514. At the snapshot time every bank copies itself into its shadow at one edge. -/
  | snapCapture
  /-- R518. A participant's gathering ends and its SNAP_DONE record is written. -/
  | gatherDone
  /-- R525. Setting CNT_TRACE.en reseeds the LFSR and starts tagging. -/
  | cntTraceWrite (fn : Func) (value : Nat)
  /-- R523. Every 1 µs each rail monitor adds energy and charge. -/
  | railSample (rail mv nj nc : Nat)
  /-- R531. A detected error is classified and its class's reaction starts. -/
  | faultDetected (cause unit d4 d5 : Nat) (corr : Bool) (shadow : Option Nat) (items : List Nat)
  /-- R546. FLT_CLEAR of a slot clears a FENCING fault and returns its unit. -/
  | fltClearSlot (fn : Func) (slot : Nat)
  /-- R546. FLT_CLEAR with overflow clears the overflow. -/
  | fltClearOverflow (fn : Func)
  /-- R553. FLT_BENCH_CMD go requests a promotion in place of a worn unit. -/
  | fltBenchCmd (fn : Func) (value : Nat)
  /-- R538. Rearm empties the tailings log and sets it ARMED. -/
  | tailRearm (fn : Func) (aon : Bool)
  /-- R543. SAFE_REQ_N low for 100 ns puts the global safe state in force without the latch. -/
  | safeReqAssert
  /-- R543. safe_req_hold ms after SAFE_REQ_N rises the requested safe state ends. -/
  | safeReqHoldExpiry
  /-- R547. grave_cycle seconds after a GRAVE latch the island starts CYCLE. -/
  | graveCycleTimer
  /-- R549. A wear monitor crossing its level writes an ADVISORY and, under AUTO, starts promotion or repair. -/
  | wearLevelCrossed (mon unit lane value row : Nat)
  /-- R549. Once per minute a crossed level writes its ADVISORY again. -/
  | wearAdvisoryRepeat (mon unit lane row : Nat)
  /-- R553. A deferred AUTO promotion starts when its cause is gone. -/
  | deferredPromotion (unit : Nat)
  /-- R226. A failing table row is copied to a repair row and remapped within 4 µs. -/
  | tableRowRepair (replica unit : Nat)
  /-- R254. A failing search row is copied to a repair row and remapped. -/
  | tcmRowRepair (replica bank row : Nat)
  /-- R256. A search-bank copy completes and the logical bank is remapped with TCM_REMAP. -/
  | tcmPromotionDone (unit : Nat)
  /-- R556. A buffer memory row with an uncorrectable line is remapped within 2 µs. -/
  | bufferRowRepair (mem row : Nat)
  /-- R557. A scheduler row is remapped or its port put in the safe state. -/
  | schedRowRepair (bank : Nat)
  /-- R558. A spare PLL locked, lanes switch at their next alignment-marker boundary. -/
  | pllPromoteLock (port : Nat)
  /-- R577. Every 1 ms the sensors are read and warning or critical faults raised. -/
  | tempSample (temps : List Nat)
  /-- R576. A rail outside its window for 10 µs raises GRAVE cause 37. -/
  | railOutOfWindow (rail mv : Nat)
  /-- R576. Loss of an enabled PGOOD raises GRAVE cause 37. -/
  | pgoodLost (pgood : Nat)
  /-- R581. The watchdog count reaching 0 sets the latch and the global safe state. -/
  | watchdogExpiry
  /-- R581. 0xC3 to AON_WDT_KICK reloads the watchdog; other values are counted. -/
  | wdtKick (fn : Func) (code : Nat)
  /-- R581. An AON_WDT_CFG write sets en, timeout and lock unless locked. -/
  | wdtCfgWrite (fn : Func) (value : Nat)
  /-- R563. PWR_CTL target SERVICE leaves DOZE or REST. -/
  | pwrTargetService (fn : Func)
  /-- R563. PWR_CTL target DOZE enters DOZE. -/
  | pwrTargetDoze (fn : Func)
  /-- R566. PWR_CTL target REST is accepted or refused, and on acceptance REST entry begins. -/
  | pwrTargetRest (fn : Func)
  /-- R565. Each ms load is computed and, under auto, DOZE is entered or left. -/
  | loadSample
  /-- R564. A lane's eye falling 10 mV in DOZE resumes adaptation for 1 ms. -/
  | eyeReadapt (port lane : Nat)
  /-- R564. The 1 ms re-adaptation ends. -/
  | eyeReadaptEnd (port lane : Nat)
  /-- R568. REST entry steps finish and pstate reads REST. -/
  | restEntryComplete
  /-- R580. A WAKEn_N low for 1 ms wakes REST or STANDBY. -/
  | wakePin (pin : Nat)
  /-- R580. The real-time counter reaching AON_ALARM wakes the device. -/
  | rtcAlarm
  /-- R569. REST exit completes: time reloaded, threads resume, pstate SERVICE. -/
  | restExitComplete
  /-- R582. AON_SEQ POWER_DOWN applies safe outputs and clears PWR_EN bits in order. -/
  | seqPowerDown (fn : Func) (off : Nat)
  /-- R582. AON_SEQ POWER_UP starts the power-up sequence from STANDBY. -/
  | seqPowerUp (fn : Func) (off : Nat)
  /-- R582. AON_SEQ CYCLE runs POWER_DOWN, off time and POWER_UP. -/
  | seqCycle (fn : Func) (off : Nat)
  /-- R582. AON_SEQ MAIN_RESET holds the main domains in reset for 100 µs. -/
  | seqMainReset (fn : Func) (off : Nat)
  /-- R582. The previous PGOOD falling or 5 ms plus 100 µs clears the next PWR_EN bit. -/
  | powerDownStep (fallen : Bool)
  /-- R582. The CYCLE off time ends and POWER_UP starts. -/
  | cycleOffExpiry
  /-- R621. 100 µs after a PGOOD rises the next PWR_EN bit is set. -/
  | pgoodRise (pgood : Nat)
  /-- R621. A PGOOD not risen 20 ms after its bit fails the power-up. -/
  | pgoodTimeout
  /-- R630. Main reset is released and state takes its main-reset values. -/
  | mainResetRelease
  /-- R579. VAON_MAIN below 1.62 V switches the island to VAON_BKUP. -/
  | supplySwitch
  /-- R579. VAON_MAIN above 1.68 V for 10 ms returns the island to it. -/
  | supplyReturn
  /-- R579. Both supplies failing reset the island, losing its retention. -/
  | islandPor
  /-- R620. POR_N low for 10 µs runs POWER_DOWN and resets the island. -/
  | porNAssert
  /-- R619. The island leaves power-on reset, samples PAIR_ID and starts POWER_UP. -/
  | islandRelease (pair : Nat) (mainOk bkupOk : Bool)
  /-- R619. The crystal becomes stable and the counter, watchdog and check line start. -/
  | crystalStable
  /-- R585. A console READ request reads a word and is answered. -/
  | consoleRead (req : List Byte) (late : Bool)
  /-- R585. A console WRITE request writes a word and is answered. -/
  | consoleWrite (req : List Byte) (late : Bool)
  /-- R585. A console ECHO request returns its address. -/
  | consoleEcho (req : List Byte)
  /-- R586. A gap longer than gap ms discards a partial request. -/
  | consoleGapTimeout
  /-- R583. The fast oscillator stops linger seconds after the last character. -/
  | consoleLingerExpiry
  /-- R622. Fuses are read, PLLs lock and the endpoint leaves reset. -/
  | bootFusesDone
  /-- R624. A PLL unlocked 5 ms into step 2 fails the boot. -/
  | pllLockTimeout
  /-- R624. Memory self-test ends, fencing or withdrawing unrepairable memory. -/
  | selftestDone (bsm other : Bool) (failed : List (Nat × Nat × Nat × Nat))
  /-- R625. Stack training ends and stacks go OPEN or OFF. -/
  | hbmTrainingDone (stack : Nat) (ok : Bool) (failed : List Nat)
  /-- R593. A cross lane completes training and identity exchange. -/
  | crossLaneUp (lane : Nat)
  /-- R594. A cell unacknowledged for 20 µs is resent; 16 in a row retrain the lane. -/
  | cellResendTimer (lane seq : Nat)
  /-- R594. A negative acknowledgement resends the cell. -/
  | cellNakRx (lane seq : Nat)
  /-- R596. At link UP the devices exchange serials and roles and settle ownership. -/
  | linkUpExchange (serial : Nat) (black : Bool) (states : List (Nat × Nat))
  /-- R595. Every 10 µs a keepalive is sent on every UP lane. -/
  | keepaliveTimer
  /-- R595. No cell for link_to makes the link LOST and fences PEER entries. -/
  | crossLinkLost (seq : Nat)
  /-- R597. A cross lane logic failure fences the lane. -/
  | crossLaneFault (lane : Nat)
  /-- R599. An edge on CHK_IN keeps the peer alive. -/
  | chkInEdge
  /-- R599. 4 ms without a CHK_IN edge makes the peer silent. -/
  | checkLineSilent
  /-- R600. A silent check line with the link UP raises decision 8 once per minute. -/
  | checkSilentAdvisory
  /-- R604. The settle timer ends and the stalemate rule applies. -/
  | settleExpiry
  /-- R604. After guard the white device takes every pair. -/
  | guardExpiry
  /-- R602. Every 1 ms ownership reports resolve pairs both show as OWN. -/
  | ownershipReport (states : List (Nat × Nat))
  /-- R605. A TWN_MOVE write hands a pair to or takes it from the peer. -/
  | twnMove (fn : Func) (port to_ : Nat)
  /-- R605. A received handover message makes the pair OWN. -/
  | handoverRx (port : Nat)
  /-- R603. A redirected copy from the peer is enqueued on its port or bounced. -/
  | redirectRx (port tenant set cls colour qclass edit md l3 l4 l5 : Nat) (rx : Option Nat) (bytes : List Byte)
  /-- R606. A learn record from the peer is delivered to the local sink. -/
  | peerLearnRx (part : Nat) (words : List Nat)
  /-- R607. A replayed command from the peer is issued against the local partition. -/
  | replayRx (part : Nat) (tcm : Bool) (op cmd arg : Nat) (keys val care : List Nat)
  /-- R609. A cross DMA read or write from the peer reaches local CMEM. -/
  | peerDmaAccess (part off : Nat) (write : Bool) (len : Nat) (bytes : List Byte)
  /-- R611. A peer's time-error report updates TWN_PEER_TIME. -/
  | peerTimeReport (locked : Bool) (err : Nat)
  /-- R602. Setting TWN_CFG.en fences every pair and starts the settle timer. -/
  | twnEnWrite (fn : Func) (value : Nat)
  /-- R602. A TWN_DH write is taken only while the port is DISABLED. -/
  | twnDhWrite (fn : Func) (port value : Nat)
  /-- R211. INSERT adds an exact-match entry. -/
  | tblInsert (fn : Func) (cmd : Nat)
  /-- R211. DELETE invalidates an exact-match entry. -/
  | tblDelete (fn : Func) (cmd : Nat)
  /-- R211. UPDATE replaces an entry's action and static. -/
  | tblUpdate (fn : Func) (cmd : Nat)
  /-- R211. READ returns an entry's control word and place. -/
  | tblRead (fn : Func) (cmd : Nat)
  /-- R211. PFX_INSERT adds a prefix. -/
  | pfxInsert (fn : Func) (cmd : Nat)
  /-- R211. PFX_DELETE removes a prefix. -/
  | pfxDelete (fn : Func) (cmd : Nat)
  /-- R211. PFX_READ returns a prefix's action. -/
  | pfxRead (fn : Func) (cmd : Nat)
  /-- R211. WRITE_UNIT writes a record unit. -/
  | writeUnit (fn : Func) (cmd : Nat)
  /-- R211. READ_UNIT returns a record unit. -/
  | readUnit (fn : Func) (cmd : Nat)
  /-- R213. The engine accepts a command when its plan is complete, or refuses it. -/
  | tblAccept
  /-- R217. At the commit time all replicas take the command's writes and it completes. -/
  | tblCommit
  /-- R223. Each period the ager ages entries without hits and clears hit bits. -/
  | agerVisit (part : Nat)
  /-- R228. The scrubber reads every unit and corrects errors. -/
  | tblScrub (replica unit err : Nat)
  /-- R229. A table bank unread for idle µs enters retention. -/
  | tblBankRetention (replica bank : Nat)
  /-- R247. INVALIDATE clears an entry's valid bit. -/
  | tcmInvalidate (fn : Func) (entry : Nat) (notify : Bool)
  /-- R247. WRITE writes an invalid entry's value, care and action. -/
  | tcmWrite (fn : Func) (entry : Nat) (notify : Bool)
  /-- R247. VALIDATE sets an entry's valid bit. -/
  | tcmValidate (fn : Func) (entry : Nat) (notify : Bool)
  /-- R247. SET_ACTION replaces an entry's action word. -/
  | tcmSetAction (fn : Func) (entry : Nat) (notify : Bool)
  /-- R247. READ returns an entry's value, care, action and valid bit. -/
  | tcmRead (fn : Func) (entry : Nat) (notify : Bool)
  /-- R247. HIT_READ returns an entry's hit count. -/
  | tcmHitRead (fn : Func) (entry : Nat) (notify : Bool)
  /-- R247. HIT_CLEAR zeroes an entry's hit counters. -/
  | tcmHitClear (fn : Func) (entry : Nat) (notify : Bool)
  /-- R250. A search-bank command takes effect in all replicas at its commit time. -/
  | tcmCommit
  /-- R253. The scrubber reads every search row. -/
  | tcmScrub (replica bank row err : Nat)
  /-- R258. A physical bank unsearched for idle µs enters retention. -/
  | tcmBankRetention (replica bank : Nat)
  /-- R272. ALLOC takes a free buffer of the named pool. -/
  | bpmAlloc (unit pool : Nat)
  /-- R272. RETAIN raises a buffer's owner count. -/
  | bpmRetain (unit handle n : Nat)
  /-- R272. RELEASE lowers a buffer's owner count. -/
  | bpmRelease (unit handle : Nat)
  /-- R272. FREE returns a buffer to its pool. -/
  | bpmFree (unit handle : Nat)
  /-- R272. GIVE names a new owner unit. -/
  | bpmGive (unit handle to_ : Nat)
  /-- R272. RECLAIM returns a quarantined buffer to its pool. -/
  | bpmReclaim (unit handle : Nat)
  /-- R275. LEAVE records that a copy has left the buffer. -/
  | bpmLeave (port handle : Nat)
  /-- R292. A BPM_INSPECT write reads a buffer's state into BPM_INSPECT_R. -/
  | bpmInspectWrite (fn : Func) (handle : Nat)
  /-- R276. A BPM_RECLAIM write presents RECLAIM for a buffer. -/
  | bpmReclaimWrite (fn : Func) (handle : Nat)
  /-- R288. SWC_WATCH_CMD go with write 0 reads a watch-list entry. -/
  | swcWatchRead (fn : Func) (index : Nat)
  /-- R288. SWC_WATCH_CMD go with write 1 writes a watch-list entry. -/
  | swcWatchWrite (fn : Func) (index : Nat)
  /-- R181. A PRS_ADMIT write sets the admission bucket full at the new burst. -/
  | prsAdmitWrite (fn : Func) (part group value : Nat)
  /-- R183. A PRS_PUNT write sets the punt bucket full at the new burst. -/
  | prsPuntWrite (fn : Func) (part reason value : Nat)
  /-- R178. A write to PRS_IND_DATA space 4 clears a blocked stream filter. -/
  | filterUnblock (fn : Func) (value : Nat)
  /-- R120. The received remote-fault sequence stops, rem_fault clears and the scheduler serves the port again. -/
  | remoteFaultEnd (port : Nat)
  /-- R150. The link partner enters or leaves low-power idle, changing MAC_STATUS.lpi_rx and counting LPI_RX_ENTRY. -/
  | partnerLowPowerIdle (port : Nat) (enter : Bool)
  /-- R543. SAFE_REQ_N rises, starting the safe_req_hold timer after which the requested safe state ends. -/
  | safeReqRelease
  /-- R579. VAON_BKUP falls below 1.62 V while selected with VAON_MAIN above 1.68 V, and the island returns to VAON_MAIN at once. -/
  | bkupSupplyLost
  /-- R586. A console character flagged FRAMING, or a wake character after the fast oscillator stopped, is discarded, counted and any partial request dropped. -/
  | consoleCharacterDiscard (line : List Bool)
  /-- R465. The PCI Express link leaves L0 and retrains, possibly at another speed or width, counted in DMA_LINK.retrains. -/
  | pcieLinkRetrain (speed width : Nat)
  /-- R617. A cross lane loses signal or lock and leaves UP, with cause 44 decision 1 while the link stays UP. -/
  | crossLaneLoss (lane : Nat)
  deriving DecidableEq, Repr

end Sys2Proof
end

