-- ==== Sys2Proof/Decode.lean ====
section
/-! DEFINITION. The commands that the table gives bits: none. The OZ5120's table of operations and events lists each row by name, rule and summary,
and gives no row a bit pattern; a command reaches the block as itself, not as a word. -/

namespace Sys2Proof

/-- The command that a word of `nbits` bits spells by the table's bits: no row of the table has bits. DESIGN CHOICE, log entry 2. -/
def decodeTableWord (nbits w : Nat) : Option Instr :=
  match nbits, w with
  | _, _ => none

end Sys2Proof
end

