-- ==== Sys2Proof/Config.lean ====
section
/-! DEFINITION. What one part fixes for good, and the values the spec leaves open. An opaque constant has no body: no proof can
see its value. -/

namespace Sys2Proof.Config

/-- A value the spec leaves open, one for each reading of the state's counter of free values. -/
opaque freeValue : Nat → BitVec 72

/-- Whether the carry flag of a rewrite engine's ALU after a subtraction is the borrow or its complement (R370), which the spec does not
say. DESIGN CHOICE, log entry 9. -/
opaque carryIsBorrow : Bool

/-- The 16-bit hash of the compared chassis ID bytes (R130), which the spec does not define. DESIGN CHOICE, log entry 9. -/
opaque chassisHash : List (BitVec 8) → BitVec 16

/-- Whether a signed division of these operands that is not exact rounds down or toward zero (R393), which the spec does not say.
DESIGN CHOICE, log entry 9. -/
opaque divFloors : BitVec 36 → BitVec 36 → Bool

/-- The CRC-32C values held in ROM as library identities (R378). -/
opaque libIdentity : Nat → Bool

/-- The release of the standard library with that CRC-32C, as ROM gives it (R383). -/
opaque libRelease : Nat → BitVec 4

/-- The temperature that an HBM stack reports at a core clock (R320), which no command gives, and the refresh rate that JESD238 requires at
it (R312). -/
opaque stackTemp : Nat → Nat → BitVec 7
opaque refreshRate : BitVec 7 → BitVec 2

/-- How many refreshes of a bank JESD238 lets a controller postpone, and the core clocks that one takes (R312): the spec gives neither.
DESIGN CHOICE, log entry 9. -/
opaque refreshPostpone : Nat
opaque refreshClocks : Nat

/-- The level of a pseudo-channel's corrected-error trend after that many corrected reads (R316), which the spec does not say.
DESIGN CHOICE, log entry 9. -/
opaque trendLevel : Nat → BitVec 3

/-- The fuses of the part: variant, die number and the core level that its characterisation calls for (R96, R588).
DESIGN CHOICE, log entry 6. -/
opaque variant : BitVec 4
opaque dieSerial : BitVec 64
opaque avsTarget : BitVec 10

/-- The maker's JEP106 identity in the IDCODE (R655), which the spec does not give as a number. DESIGN CHOICE, log entry 9. -/
opaque jep106 : BitVec 11

/-- The sequence field of an event record kept outside a ring, by its stamp: R457 defines the field for rings alone.
DESIGN CHOICE, log entry 9. -/
opaque noRingSeq : Nat → BitVec 12

end Sys2Proof.Config
end

