-- ==== Sys2Proof/Machine/Registers.lean ====
section
/-! DEFINITION. The register map: every register that the spec's chapters table, the fields of each with their access codes
and reset values (R9), and its place in BAR0 (R76). -/

namespace Sys2Proof.Machine

/-- The access codes of R9. A field that the spec marks AON as well has `aon` set in its `FieldDesc`. -/
inductive Acc where
  | rw | ro | wo | w1c | rc | rwl
  deriving DecidableEq, Repr

/-- One row of a register's field table: its bits, its access code, whether the always-on island retains it, and its
reset value. -/
structure FieldDesc where
  hi : Nat
  lo : Nat
  acc : Acc
  aon : Bool
  rst : Nat
  deriving DecidableEq, Repr

/-- Which copies a register has: one, one per function (R75), one per partition, or one per instance of what the
block's select register selects (R88). -/
inductive Home where
  | one | function | partition | macPort | sliceGroup | searchBank | hbmStack | schPort | schSet | gtePort | cluster
  | thread | position | channel | cipherLane | counterBank
  deriving DecidableEq, Repr

/-- The column "Open to" of the register tables: `all`, the PF and the console alone (`owner`), the partition holding
the lane (`holder`, R485), or `all` for reads with writes from the PF and the console (`readAll`, R506). -/
inductive Who where
  | all | owner | holder | readAll
  deriving DecidableEq, Repr

/-- Where a register stands: the BAR0 byte address of its first slot, the distance and number of its elements, whether it
takes two slots (72 bits, R82), its copies and who reaches it. -/
structure Place where
  addr : Nat
  stride : Nat
  count : Nat
  wide : Bool
  home : Home
  who : Who
  deriving DecidableEq, Repr

/-- The registers of the register maps, R74 to R635, named as the spec names them; a numbered family is one constructor. -/
inductive Reg where
  | IMG_STATUS | IMG_CMD | IMG_RESULT | IMG_LEN | IMG_SRC | IMG_CASTLE_MASK | IMG_CASTLE_AT | IMG_GEN
  | IMG_OLD_FRAMES | IMG_SCOPE_STATE0 | IMG_SCOPE_STATE1 | IMG_ACT_SERIAL | IMG_VIEW | IMG_CSIG | IMG_KEY | IMG_FKEY
  | IMG_FUSE | IMG_REFUSED | GLB_ID | GLB_SERIAL | GLB_FUNC | GLB_STRAP | GLB_STATUS | GLB_FENCE | GLB_BRESET
  | GLB_REFUSED | GLB_REFUSED_LAST | GLB_TREF | MAC_SEL | MAC_CTL | MAC_STATUS | MAC_MODE | MAC_TIMERS | MAC_MM
  | MAC_PAUSE | MAC_PFC_MAP | MAC_PAUSE_STATE | MAC_LPI | MAC_SA | MAC_MOD | MAC_I2C_CMD | MAC_I2C_DATA | MAC_PFC
  | MAC_PFC_OCC | MAC_PARTNER | MAC_CNT | MAC_I2C_BUS | SPR_SEL | SPR_CTL | SPR_SLOW | SPR_STATUS | SPR_REORDER
  | SPR_SLICE | SPR_CNT | SPR_LIMIT | PRS_IND_ADDR | PRS_IND_DATA | PRS_TEN | PRS_PUNT | PRS_ADMIT | PRS_CNT
  | TBL_CMD | TBL_ARG | TBL_RESULT | TBL_COMMIT_AT | TBL_KEY | TBL_RD | TBL_CFG | TBL_ECC | TBL_ECC_LAST | TBL_LEARN
  | TBL_AGE | TBL_STATUS | TBL_LPM_STATUS | TBL_EXTENT | TBL_INS_FAIL | TBL_CNT | TCM_SEL | TCM_CMD | TCM_RESULT
  | TCM_COMMIT_AT | TCM_ACT | TCM_HIT | TCM_VAL | TCM_CARE | TCM_BANK | TCM_BANK_CFG | TCM_IND_ADDR | TCM_IND_DATA
  | TCM_CFG | TCM_ERR | TCM_ERR_LAST | SWC_CFG | SWC_STATUS | SWC_WATCH_CMD | SWC_WATCH0 | SWC_WATCH1 | SWC_MIR_A
  | SWC_MIR_B | SWC_INFLIGHT | SWC_CNT | SWC_PMIR | BPM_ACCT | BPM_INSPECT | BPM_INSPECT_R | BPM_RECLAIM | BPM_OPRES
  | BPM_BADH_LAST | BPM_PFREE | BPM_PMIN | BPM_OCC | BPM_COCC | BPM_QUAR | BPM_CNT | BPM_PORT | BPM_PORTUSE | HBC_SEL
  | HBC_CTL | HBC_STACK | HBC_PAGE | HBC_REFRESH | HBC_BMASK | HBC_PC | HBC_SCNT | HBC_TEN | HBC_USE | HBC_INFLIGHT
  | HBC_CNT | HBC_CFG | HBC_FREE | SCH_SEL | SCH_SET | SCH_PORT | SCH_PORT_BURST | SCH_PORT_STATUS | SCH_PORT_CREDIT
  | SCH_VT_NOW | SCH_SET_CFG | SCH_SET_BURST | SCH_SET_VT | SCH_SET_CREDIT | SCH_QPROF_LO | SCH_QPROF_HI
  | SCH_CLS_CFG | SCH_CLS_BURST | SCH_Q | SCH_CREDIT | SCH_CNT | SCH_PROF_LIMIT | SCH_PROF_RED | SCH_PROF_DEEP
  | GTE_SEL | GTE_CTL | GTE_BASE | GTE_CYCLE | GTE_IND_ADDR | GTE_IND_DATA | GTE_STATE | GTE_WIN | RWE_SEL | RWE_CFG
  | RWE_LIB | RWE_STATUS | RWE_ERR | RWE_ERR_LAST | RWE_IND_ADDR | RWE_IND_DATA | RWE_ENG | RWE_CNT | RWE_PCNT
  | CCX_SEL | CCX_T_CTL | CCX_T_STATUS | CCX_T_PC | CCX_T_FAULT | CCX_T_QSHARE | CCX_T_BSHARE | CCX_T_REG | CCX_CORE
  | CCX_CYCLE | CCX_PMSEL | CCX_PMC | CCX_TAG | CCX_TAG_BOUNDS | CCX_SAMPLE | CCX_CFG | CCX_MIG | CCX_FREE
  | CCX_P_QSHARE | CCX_P_BSHARE | CCX_P_STATUS | CCX_PQ | CCX_CNT | DMA_SEL | DMA_CH_CTL | DMA_CH_STATUS
  | DMA_CH_HEAD | DMA_CH_CUR | DMA_CH_CFG | DMA_RING_BASE | DMA_RING_CFG | DMA_RING_PROD | DMA_RING_CONS
  | DMA_RING_WB | DMA_RING_IRQ | DMA_RING_STAT | DMA_CH_CNT | DMA_RBIND | DMA_UNBOUND | DMA_WATCH | DMA_LINK
  | CPH_SEL | CPH_LOCK | CPH_CTL | CPH_STATUS | CPH_HEAD | CPH_CUR | CPH_CFG | CPH_KEY_CTL | CPH_KEY | CPH_CNT
  | CPH_FREE | TIM_CFG | TIM_STATUS | TIM_NOW | TIM_SEC_HI | TIM_RATE | TIM_STEP | TIM_STEP_CTL | TIM_LAST_STEP
  | TIM_PPS_OUT | TIM_PPS_CAP | TIM_LOCK | TIM_LOCK_CFG | TIM_SYNC_ERR | TIM_SYNCE | TIM_CNT | TIM_PORT_LAT | CNT_SEL
  | CNT_BANK | CNT_VIEW | CNT_SNAP_CTL | CNT_SNAP_RES | CNT_SNAP_AT | CNT_SNAP_DST | CNT_SNAP_LEN | CNT_VIEW_SIZE
  | CNT_SNAP_TIME | CNT_CFG | CNT_TRACE | CNT_TRACE_BOUNDS | CNT_TRACE_PORT | CNT_TRACE_STAT | CNT_ENTRY | FLT_STATUS
  | FLT_CFG | FLT_SLOT_ADDR | FLT_SLOT_DATA | FLT_CLEAR | FLT_CLEAR_RES | FLT_BENCH_CMD | FLT_POLICY | FLT_WEAR_TH
  | FLT_WEAR_SEL | FLT_WEAR | FLT_TAIL_ADDR | FLT_TAIL_DATA | FLT_TAIL_STATUS | FLT_SPARE | FLT_CNT | PWR_CTL
  | PWR_STATUS | PWR_DOZE | PWR_AVS | PWR_THERM | PWR_CLK | PWR_RAIL | AON_STATUS | AON_RTC | AON_ALARM | AON_SUPPLY
  | AON_WDT_CFG | AON_WDT_KICK | AON_SEQ | AON_WAKE | AON_GRAVE | AON_CHK | AON_CON_CFG | AON_CON_STAT
  | AON_TAIL_ADDR | AON_TAIL_DATA | AON_TAIL_STATUS | AON_SAFE | AON_BOOT | AON_SCRATCH | TWN_CFG | TWN_STATUS
  | TWN_MOVE | TWN_SYNC | TWN_XDMA | TWN_PEER_TIME | TWN_PEER_ID | TWN_LANE | TWN_CNT | TWN_DH
  deriving DecidableEq, Repr

/-- Where each register stands in BAR0, as its block's register map gives it; the always-on registers stand at their
mirror (R107, R589). -/
def Reg.place : Reg → Place
  | .IMG_STATUS => ⟨0x0100000, 0, 1, false, .one, .all⟩
  | .IMG_CMD => ⟨0x0100008, 0, 1, false, .function, .all⟩
  | .IMG_RESULT => ⟨0x0100010, 0, 1, false, .function, .all⟩
  | .IMG_LEN => ⟨0x0100018, 0, 1, false, .function, .all⟩
  | .IMG_SRC => ⟨0x0100020, 0, 1, true, .function, .all⟩
  | .IMG_CASTLE_MASK => ⟨0x0100030, 0, 1, false, .function, .all⟩
  | .IMG_CASTLE_AT => ⟨0x0100038, 0, 1, true, .function, .all⟩
  | .IMG_GEN => ⟨0x0100048, 0, 1, false, .one, .all⟩
  | .IMG_OLD_FRAMES => ⟨0x0100050, 0, 1, false, .one, .owner⟩
  | .IMG_SCOPE_STATE0 => ⟨0x0100058, 0, 1, false, .one, .all⟩
  | .IMG_SCOPE_STATE1 => ⟨0x0100060, 0, 1, false, .one, .all⟩
  | .IMG_ACT_SERIAL => ⟨0x0100068, 0, 1, true, .function, .all⟩
  | .IMG_VIEW => ⟨0x0100078, 0, 1, false, .function, .owner⟩
  | .IMG_CSIG => ⟨0x0100080, 8, 4, false, .one, .owner⟩
  | .IMG_KEY => ⟨0x01000A0, 0, 1, false, .one, .owner⟩
  | .IMG_FKEY => ⟨0x01000A8, 0, 1, false, .one, .owner⟩
  | .IMG_FUSE => ⟨0x01000B0, 0, 1, false, .one, .owner⟩
  | .IMG_REFUSED => ⟨0x01000B8, 0, 1, false, .function, .all⟩
  | .GLB_ID => ⟨0x0000000, 0, 1, false, .one, .all⟩
  | .GLB_SERIAL => ⟨0x0000008, 0, 1, true, .one, .all⟩
  | .GLB_FUNC => ⟨0x0000018, 0, 1, false, .function, .all⟩
  | .GLB_STRAP => ⟨0x0000020, 0, 1, false, .one, .all⟩
  | .GLB_STATUS => ⟨0x0000028, 0, 1, false, .one, .all⟩
  | .GLB_FENCE => ⟨0x0000030, 0, 1, false, .function, .all⟩
  | .GLB_BRESET => ⟨0x0000038, 0, 1, false, .one, .owner⟩
  | .GLB_REFUSED => ⟨0x0000040, 0, 1, false, .function, .all⟩
  | .GLB_REFUSED_LAST => ⟨0x0000048, 0, 1, false, .function, .all⟩
  | .GLB_TREF => ⟨0x0000080, 8, 16, false, .one, .owner⟩
  | .MAC_SEL => ⟨0x0400000, 0, 1, false, .function, .all⟩
  | .MAC_CTL => ⟨0x0400008, 0, 1, false, .macPort, .all⟩
  | .MAC_STATUS => ⟨0x0400010, 0, 1, false, .macPort, .all⟩
  | .MAC_MODE => ⟨0x0400018, 0, 1, false, .macPort, .all⟩
  | .MAC_TIMERS => ⟨0x0400020, 0, 1, false, .macPort, .all⟩
  | .MAC_MM => ⟨0x0400028, 0, 1, false, .macPort, .all⟩
  | .MAC_PAUSE => ⟨0x0400030, 0, 1, false, .macPort, .all⟩
  | .MAC_PFC_MAP => ⟨0x0400038, 0, 1, false, .macPort, .all⟩
  | .MAC_PAUSE_STATE => ⟨0x0400040, 0, 1, false, .macPort, .all⟩
  | .MAC_LPI => ⟨0x0400048, 0, 1, false, .macPort, .all⟩
  | .MAC_SA => ⟨0x0400050, 0, 1, true, .macPort, .owner⟩
  | .MAC_MOD => ⟨0x0400060, 0, 1, false, .macPort, .all⟩
  | .MAC_I2C_CMD => ⟨0x0400068, 0, 1, false, .macPort, .all⟩
  | .MAC_I2C_DATA => ⟨0x0400070, 0, 1, true, .macPort, .all⟩
  | .MAC_PFC => ⟨0x0400080, 8, 8, false, .macPort, .all⟩
  | .MAC_PFC_OCC => ⟨0x04000C0, 8, 8, false, .macPort, .all⟩
  | .MAC_PARTNER => ⟨0x0400100, 8, 4, false, .macPort, .all⟩
  | .MAC_CNT => ⟨0x0400200, 16, 32, true, .macPort, .all⟩
  | .MAC_I2C_BUS => ⟨0x0400400, 0, 1, false, .one, .owner⟩
  | .SPR_SEL => ⟨0x0A00000, 0, 1, false, .function, .owner⟩
  | .SPR_CTL => ⟨0x0A00008, 0, 1, false, .sliceGroup, .owner⟩
  | .SPR_SLOW => ⟨0x0A00010, 0, 1, false, .sliceGroup, .owner⟩
  | .SPR_STATUS => ⟨0x0A00018, 0, 1, false, .sliceGroup, .owner⟩
  | .SPR_REORDER => ⟨0x0A00020, 0, 1, false, .sliceGroup, .owner⟩
  | .SPR_SLICE => ⟨0x0A00100, 8, 13, false, .sliceGroup, .owner⟩
  | .SPR_CNT => ⟨0x0A00200, 16, 16, true, .sliceGroup, .owner⟩
  | .SPR_LIMIT => ⟨0x0A00400, 8, 7, false, .one, .owner⟩
  | .PRS_IND_ADDR => ⟨0x0800000, 0, 1, false, .function, .all⟩
  | .PRS_IND_DATA => ⟨0x0800008, 0, 1, false, .one, .all⟩
  | .PRS_TEN => ⟨0x0800100, 0, 1, false, .partition, .owner⟩
  | .PRS_PUNT => ⟨0x0800108, 8, 6, false, .partition, .all⟩
  | .PRS_ADMIT => ⟨0x0800140, 8, 4, false, .partition, .owner⟩
  | .PRS_CNT => ⟨0x0800200, 16, 16, true, .partition, .owner⟩
  | .TBL_CMD => ⟨0x0C00000, 0, 1, false, .function, .all⟩
  | .TBL_ARG => ⟨0x0C00008, 0, 1, false, .function, .all⟩
  | .TBL_RESULT => ⟨0x0C00010, 0, 1, false, .function, .all⟩
  | .TBL_COMMIT_AT => ⟨0x0C00018, 0, 1, true, .function, .all⟩
  | .TBL_KEY => ⟨0x0C00040, 8, 15, false, .function, .all⟩
  | .TBL_RD => ⟨0x0C000C0, 8, 4, false, .function, .all⟩
  | .TBL_CFG => ⟨0x0C00100, 0, 1, false, .one, .owner⟩
  | .TBL_ECC => ⟨0x0C00108, 0, 1, false, .one, .owner⟩
  | .TBL_ECC_LAST => ⟨0x0C00110, 0, 1, false, .one, .owner⟩
  | .TBL_LEARN => ⟨0x0C00200, 0, 1, false, .partition, .all⟩
  | .TBL_AGE => ⟨0x0C00208, 0, 1, false, .partition, .all⟩
  | .TBL_STATUS => ⟨0x0C00210, 0, 1, false, .partition, .all⟩
  | .TBL_LPM_STATUS => ⟨0x0C00218, 0, 1, false, .partition, .all⟩
  | .TBL_EXTENT => ⟨0x0C00220, 0, 1, false, .partition, .all⟩
  | .TBL_INS_FAIL => ⟨0x0C00228, 0, 1, false, .partition, .all⟩
  | .TBL_CNT => ⟨0x0C00300, 16, 16, true, .partition, .all⟩
  | .TCM_SEL => ⟨0x1000000, 0, 1, false, .function, .all⟩
  | .TCM_CMD => ⟨0x1000008, 0, 1, false, .function, .all⟩
  | .TCM_RESULT => ⟨0x1000010, 0, 1, false, .function, .all⟩
  | .TCM_COMMIT_AT => ⟨0x1000018, 0, 1, true, .function, .all⟩
  | .TCM_ACT => ⟨0x1000028, 0, 1, false, .function, .all⟩
  | .TCM_HIT => ⟨0x1000030, 0, 1, true, .function, .all⟩
  | .TCM_VAL => ⟨0x1000040, 8, 16, false, .function, .all⟩
  | .TCM_CARE => ⟨0x10000C0, 8, 16, false, .function, .all⟩
  | .TCM_BANK => ⟨0x1000140, 0, 1, false, .searchBank, .all⟩
  | .TCM_BANK_CFG => ⟨0x1000148, 0, 1, false, .searchBank, .all⟩
  | .TCM_IND_ADDR => ⟨0x1000150, 0, 1, false, .function, .all⟩
  | .TCM_IND_DATA => ⟨0x1000158, 0, 1, false, .one, .all⟩
  | .TCM_CFG => ⟨0x1000200, 0, 1, false, .one, .owner⟩
  | .TCM_ERR => ⟨0x1000208, 0, 1, false, .one, .owner⟩
  | .TCM_ERR_LAST => ⟨0x1000210, 0, 1, false, .one, .owner⟩
  | .SWC_CFG => ⟨0x1400000, 0, 1, false, .one, .owner⟩
  | .SWC_STATUS => ⟨0x1400008, 0, 1, false, .one, .owner⟩
  | .SWC_WATCH_CMD => ⟨0x1400010, 0, 1, false, .function, .owner⟩
  | .SWC_WATCH0 => ⟨0x1400018, 0, 1, false, .function, .owner⟩
  | .SWC_WATCH1 => ⟨0x1400020, 0, 1, false, .function, .owner⟩
  | .SWC_MIR_A => ⟨0x1400100, 16, 16, false, .one, .owner⟩
  | .SWC_MIR_B => ⟨0x1400108, 16, 16, false, .one, .owner⟩
  | .SWC_INFLIGHT => ⟨0x1400200, 0, 1, true, .partition, .all⟩
  | .SWC_CNT => ⟨0x1400300, 16, 16, true, .partition, .all⟩
  | .SWC_PMIR => ⟨0x1402000, 8, 256, false, .one, .owner⟩
  | .BPM_ACCT => ⟨0x1500000, 8, 4, false, .one, .owner⟩
  | .BPM_INSPECT => ⟨0x1500020, 0, 1, false, .function, .all⟩
  | .BPM_INSPECT_R => ⟨0x1500028, 0, 1, false, .function, .all⟩
  | .BPM_RECLAIM => ⟨0x1500030, 0, 1, false, .function, .all⟩
  | .BPM_OPRES => ⟨0x1500038, 0, 1, false, .function, .all⟩
  | .BPM_BADH_LAST => ⟨0x1500040, 0, 1, false, .one, .owner⟩
  | .BPM_PFREE => ⟨0x1500100, 16, 16, false, .one, .all⟩
  | .BPM_PMIN => ⟨0x1500108, 16, 16, false, .one, .owner⟩
  | .BPM_OCC => ⟨0x1500200, 0, 1, false, .partition, .all⟩
  | .BPM_COCC => ⟨0x1500208, 0, 1, false, .partition, .all⟩
  | .BPM_QUAR => ⟨0x1500210, 0, 1, false, .partition, .all⟩
  | .BPM_CNT => ⟨0x1500300, 16, 16, true, .partition, .all⟩
  | .BPM_PORT => ⟨0x1502000, 8, 256, false, .one, .owner⟩
  | .BPM_PORTUSE => ⟨0x1502800, 8, 256, false, .one, .owner⟩
  | .HBC_SEL => ⟨0x1800000, 0, 1, false, .function, .owner⟩
  | .HBC_CTL => ⟨0x1800008, 0, 1, false, .hbmStack, .owner⟩
  | .HBC_STACK => ⟨0x1800010, 0, 1, false, .hbmStack, .owner⟩
  | .HBC_PAGE => ⟨0x1800018, 0, 1, false, .hbmStack, .owner⟩
  | .HBC_REFRESH => ⟨0x1800020, 0, 1, false, .hbmStack, .owner⟩
  | .HBC_BMASK => ⟨0x1800028, 8, 4, false, .hbmStack, .owner⟩
  | .HBC_PC => ⟨0x1800100, 8, 32, false, .hbmStack, .owner⟩
  | .HBC_SCNT => ⟨0x1800200, 16, 8, true, .hbmStack, .owner⟩
  | .HBC_TEN => ⟨0x1800300, 0, 1, false, .partition, .owner⟩
  | .HBC_USE => ⟨0x1800308, 0, 1, false, .partition, .owner⟩
  | .HBC_INFLIGHT => ⟨0x1800310, 0, 1, true, .partition, .owner⟩
  | .HBC_CNT => ⟨0x1800340, 16, 8, true, .partition, .owner⟩
  | .HBC_CFG => ⟨0x1800400, 0, 1, false, .one, .owner⟩
  | .HBC_FREE => ⟨0x1800408, 0, 1, false, .one, .owner⟩
  | .SCH_SEL => ⟨0x1C00000, 0, 1, false, .function, .all⟩
  | .SCH_SET => ⟨0x1C00008, 0, 1, false, .function, .all⟩
  | .SCH_PORT => ⟨0x1C00010, 0, 1, false, .schPort, .owner⟩
  | .SCH_PORT_BURST => ⟨0x1C00018, 0, 1, false, .schPort, .owner⟩
  | .SCH_PORT_STATUS => ⟨0x1C00020, 0, 1, false, .schPort, .all⟩
  | .SCH_PORT_CREDIT => ⟨0x1C00028, 0, 1, false, .schPort, .owner⟩
  | .SCH_VT_NOW => ⟨0x1C00030, 0, 1, false, .schPort, .owner⟩
  | .SCH_SET_CFG => ⟨0x1C00038, 0, 1, false, .schSet, .all⟩
  | .SCH_SET_BURST => ⟨0x1C00040, 0, 1, false, .schSet, .all⟩
  | .SCH_SET_VT => ⟨0x1C00048, 0, 1, false, .schSet, .all⟩
  | .SCH_SET_CREDIT => ⟨0x1C00050, 0, 1, false, .schSet, .all⟩
  | .SCH_QPROF_LO => ⟨0x1C00058, 0, 1, false, .schSet, .owner⟩
  | .SCH_QPROF_HI => ⟨0x1C00060, 0, 1, false, .schSet, .owner⟩
  | .SCH_CLS_CFG => ⟨0x1C00080, 16, 7, false, .schSet, .all⟩
  | .SCH_CLS_BURST => ⟨0x1C00088, 16, 7, false, .schSet, .all⟩
  | .SCH_Q => ⟨0x1C00100, 8, 8, false, .schSet, .all⟩
  | .SCH_CREDIT => ⟨0x1C00140, 8, 7, false, .schSet, .all⟩
  | .SCH_CNT => ⟨0x1C00200, 16, 8, true, .schSet, .all⟩
  | .SCH_PROF_LIMIT => ⟨0x1C00800, 32, 64, false, .one, .owner⟩
  | .SCH_PROF_RED => ⟨0x1C00808, 32, 64, false, .one, .owner⟩
  | .SCH_PROF_DEEP => ⟨0x1C00810, 32, 64, false, .one, .owner⟩
  | .GTE_SEL => ⟨0x2000000, 0, 1, false, .function, .all⟩
  | .GTE_CTL => ⟨0x2000008, 0, 1, false, .gtePort, .all⟩
  | .GTE_BASE => ⟨0x2000010, 0, 1, true, .gtePort, .all⟩
  | .GTE_CYCLE => ⟨0x2000020, 0, 1, false, .gtePort, .all⟩
  | .GTE_IND_ADDR => ⟨0x2000028, 0, 1, false, .function, .all⟩
  | .GTE_IND_DATA => ⟨0x2000030, 0, 1, false, .gtePort, .all⟩
  | .GTE_STATE => ⟨0x2000038, 0, 1, false, .gtePort, .all⟩
  | .GTE_WIN => ⟨0x2000040, 8, 8, false, .gtePort, .all⟩
  | .RWE_SEL => ⟨0x2200000, 0, 1, false, .function, .owner⟩
  | .RWE_CFG => ⟨0x2200008, 0, 1, false, .one, .owner⟩
  | .RWE_LIB => ⟨0x2200010, 0, 1, false, .one, .owner⟩
  | .RWE_STATUS => ⟨0x2200018, 0, 1, false, .cluster, .owner⟩
  | .RWE_ERR => ⟨0x2200020, 0, 1, false, .cluster, .owner⟩
  | .RWE_ERR_LAST => ⟨0x2200028, 0, 1, false, .cluster, .owner⟩
  | .RWE_IND_ADDR => ⟨0x2200030, 0, 1, false, .function, .owner⟩
  | .RWE_IND_DATA => ⟨0x2200038, 0, 1, false, .one, .owner⟩
  | .RWE_ENG => ⟨0x2200100, 8, 25, false, .cluster, .owner⟩
  | .RWE_CNT => ⟨0x2200200, 16, 8, true, .cluster, .owner⟩
  | .RWE_PCNT => ⟨0x2200300, 0, 1, true, .partition, .owner⟩
  | .CCX_SEL => ⟨0x2400000, 0, 1, false, .function, .all⟩
  | .CCX_T_CTL => ⟨0x2400008, 0, 1, false, .thread, .all⟩
  | .CCX_T_STATUS => ⟨0x2400010, 0, 1, false, .thread, .all⟩
  | .CCX_T_PC => ⟨0x2400018, 0, 1, false, .thread, .all⟩
  | .CCX_T_FAULT => ⟨0x2400020, 0, 1, false, .thread, .all⟩
  | .CCX_T_QSHARE => ⟨0x2400028, 0, 1, false, .thread, .all⟩
  | .CCX_T_BSHARE => ⟨0x2400030, 0, 1, false, .thread, .all⟩
  | .CCX_T_REG => ⟨0x2400038, 0, 1, false, .function, .all⟩
  | .CCX_CORE => ⟨0x2400100, 0, 1, false, .position, .owner⟩
  | .CCX_CYCLE => ⟨0x2400108, 0, 1, true, .position, .all⟩
  | .CCX_PMSEL => ⟨0x2400140, 8, 8, false, .position, .owner⟩
  | .CCX_PMC => ⟨0x2400180, 8, 8, false, .position, .owner⟩
  | .CCX_TAG => ⟨0x24001C0, 0, 1, false, .position, .owner⟩
  | .CCX_TAG_BOUNDS => ⟨0x24001C8, 0, 1, false, .position, .owner⟩
  | .CCX_SAMPLE => ⟨0x2400200, 8, 64, false, .position, .all⟩
  | .CCX_CFG => ⟨0x2400400, 0, 1, false, .one, .owner⟩
  | .CCX_MIG => ⟨0x2400408, 0, 1, false, .one, .owner⟩
  | .CCX_FREE => ⟨0x2400410, 0, 1, false, .one, .owner⟩
  | .CCX_P_QSHARE => ⟨0x2400500, 0, 1, false, .partition, .all⟩
  | .CCX_P_BSHARE => ⟨0x2400508, 0, 1, false, .partition, .all⟩
  | .CCX_P_STATUS => ⟨0x2400510, 0, 1, false, .partition, .all⟩
  | .CCX_PQ => ⟨0x2400540, 8, 16, false, .partition, .all⟩
  | .CCX_CNT => ⟨0x2400600, 16, 8, true, .partition, .all⟩
  | .DMA_SEL => ⟨0x2800000, 0, 1, false, .function, .all⟩
  | .DMA_CH_CTL => ⟨0x2800008, 0, 1, false, .channel, .all⟩
  | .DMA_CH_STATUS => ⟨0x2800010, 0, 1, false, .channel, .all⟩
  | .DMA_CH_HEAD => ⟨0x2800018, 0, 1, true, .channel, .all⟩
  | .DMA_CH_CUR => ⟨0x2800028, 0, 1, true, .channel, .all⟩
  | .DMA_CH_CFG => ⟨0x2800038, 0, 1, false, .channel, .all⟩
  | .DMA_RING_BASE => ⟨0x2800040, 0, 1, true, .channel, .all⟩
  | .DMA_RING_CFG => ⟨0x2800050, 0, 1, false, .channel, .all⟩
  | .DMA_RING_PROD => ⟨0x2800058, 0, 1, false, .channel, .all⟩
  | .DMA_RING_CONS => ⟨0x2800060, 0, 1, false, .channel, .all⟩
  | .DMA_RING_WB => ⟨0x2800068, 0, 1, true, .channel, .all⟩
  | .DMA_RING_IRQ => ⟨0x2800078, 0, 1, false, .channel, .all⟩
  | .DMA_RING_STAT => ⟨0x2800080, 0, 1, false, .channel, .all⟩
  | .DMA_CH_CNT => ⟨0x2800100, 16, 8, true, .channel, .all⟩
  | .DMA_RBIND => ⟨0x2800200, 0, 1, false, .partition, .all⟩
  | .DMA_UNBOUND => ⟨0x2800208, 0, 1, false, .partition, .all⟩
  | .DMA_WATCH => ⟨0x2800210, 0, 1, false, .one, .owner⟩
  | .DMA_LINK => ⟨0x2800218, 0, 1, false, .one, .owner⟩
  | .CPH_SEL => ⟨0x2A00000, 0, 1, false, .function, .all⟩
  | .CPH_LOCK => ⟨0x2A00008, 0, 1, false, .cipherLane, .all⟩
  | .CPH_CTL => ⟨0x2A00010, 0, 1, false, .cipherLane, .holder⟩
  | .CPH_STATUS => ⟨0x2A00018, 0, 1, false, .cipherLane, .holder⟩
  | .CPH_HEAD => ⟨0x2A00020, 0, 1, true, .cipherLane, .holder⟩
  | .CPH_CUR => ⟨0x2A00030, 0, 1, true, .cipherLane, .holder⟩
  | .CPH_CFG => ⟨0x2A00040, 0, 1, false, .cipherLane, .holder⟩
  | .CPH_KEY_CTL => ⟨0x2A00048, 0, 1, false, .cipherLane, .holder⟩
  | .CPH_KEY => ⟨0x2A00080, 8, 16, false, .cipherLane, .holder⟩
  | .CPH_CNT => ⟨0x2A00100, 16, 8, true, .cipherLane, .holder⟩
  | .CPH_FREE => ⟨0x2A00200, 0, 1, false, .one, .all⟩
  | .TIM_CFG => ⟨0x2B00000, 0, 1, false, .one, .readAll⟩
  | .TIM_STATUS => ⟨0x2B00008, 0, 1, false, .one, .all⟩
  | .TIM_NOW => ⟨0x2B00010, 0, 1, true, .one, .all⟩
  | .TIM_SEC_HI => ⟨0x2B00020, 0, 1, false, .function, .all⟩
  | .TIM_RATE => ⟨0x2B00028, 0, 1, false, .one, .readAll⟩
  | .TIM_STEP => ⟨0x2B00030, 0, 1, true, .one, .readAll⟩
  | .TIM_STEP_CTL => ⟨0x2B00040, 0, 1, false, .one, .readAll⟩
  | .TIM_LAST_STEP => ⟨0x2B00048, 0, 1, true, .one, .all⟩
  | .TIM_PPS_OUT => ⟨0x2B00058, 0, 1, false, .one, .readAll⟩
  | .TIM_PPS_CAP => ⟨0x2B00060, 0, 1, true, .one, .all⟩
  | .TIM_LOCK => ⟨0x2B00070, 0, 1, false, .one, .readAll⟩
  | .TIM_LOCK_CFG => ⟨0x2B00078, 0, 1, false, .one, .readAll⟩
  | .TIM_SYNC_ERR => ⟨0x2B00080, 0, 1, false, .one, .all⟩
  | .TIM_SYNCE => ⟨0x2B00100, 8, 4, false, .one, .readAll⟩
  | .TIM_CNT => ⟨0x2B00200, 16, 8, true, .one, .all⟩
  | .TIM_PORT_LAT => ⟨0x2B01000, 8, 256, false, .one, .readAll⟩
  | .CNT_SEL => ⟨0x2C00000, 0, 1, false, .function, .all⟩
  | .CNT_BANK => ⟨0x2C00008, 0, 1, false, .counterBank, .all⟩
  | .CNT_VIEW => ⟨0x2C00010, 0, 1, false, .function, .all⟩
  | .CNT_SNAP_CTL => ⟨0x2C00018, 0, 1, false, .function, .all⟩
  | .CNT_SNAP_RES => ⟨0x2C00020, 0, 1, false, .function, .all⟩
  | .CNT_SNAP_AT => ⟨0x2C00028, 0, 1, true, .function, .all⟩
  | .CNT_SNAP_DST => ⟨0x2C00038, 0, 1, true, .function, .all⟩
  | .CNT_SNAP_LEN => ⟨0x2C00048, 0, 1, false, .function, .all⟩
  | .CNT_VIEW_SIZE => ⟨0x2C00050, 0, 1, false, .function, .all⟩
  | .CNT_SNAP_TIME => ⟨0x2C00058, 0, 1, true, .one, .all⟩
  | .CNT_CFG => ⟨0x2C00068, 0, 1, false, .one, .owner⟩
  | .CNT_TRACE => ⟨0x2C00070, 0, 1, false, .one, .owner⟩
  | .CNT_TRACE_BOUNDS => ⟨0x2C00078, 0, 1, false, .one, .owner⟩
  | .CNT_TRACE_PORT => ⟨0x2C00080, 8, 8, false, .one, .owner⟩
  | .CNT_TRACE_STAT => ⟨0x2C000C0, 0, 1, false, .one, .owner⟩
  | .CNT_ENTRY => ⟨0x2C00100, 16, 128, true, .counterBank, .all⟩
  | .FLT_STATUS => ⟨0x2E00000, 0, 1, false, .one, .owner⟩
  | .FLT_CFG => ⟨0x2E00008, 0, 1, false, .one, .owner⟩
  | .FLT_SLOT_ADDR => ⟨0x2E00010, 0, 1, false, .function, .all⟩
  | .FLT_SLOT_DATA => ⟨0x2E00018, 8, 8, false, .one, .all⟩
  | .FLT_CLEAR => ⟨0x2E00058, 0, 1, false, .function, .all⟩
  | .FLT_CLEAR_RES => ⟨0x2E00060, 0, 1, false, .function, .all⟩
  | .FLT_BENCH_CMD => ⟨0x2E00068, 0, 1, false, .one, .owner⟩
  | .FLT_POLICY => ⟨0x2E00070, 0, 1, false, .one, .owner⟩
  | .FLT_WEAR_TH => ⟨0x2E00078, 8, 3, false, .one, .owner⟩
  | .FLT_WEAR_SEL => ⟨0x2E00090, 0, 1, false, .function, .owner⟩
  | .FLT_WEAR => ⟨0x2E00098, 0, 1, false, .one, .owner⟩
  | .FLT_TAIL_ADDR => ⟨0x2E000A0, 0, 1, false, .function, .owner⟩
  | .FLT_TAIL_DATA => ⟨0x2E000A8, 0, 1, false, .one, .owner⟩
  | .FLT_TAIL_STATUS => ⟨0x2E000B0, 0, 1, false, .one, .owner⟩
  | .FLT_SPARE => ⟨0x2E00100, 8, 8, false, .one, .owner⟩
  | .FLT_CNT => ⟨0x2E00200, 16, 8, true, .one, .owner⟩
  | .PWR_CTL => ⟨0x01C0000, 0, 1, false, .one, .owner⟩
  | .PWR_STATUS => ⟨0x01C0008, 0, 1, false, .one, .owner⟩
  | .PWR_DOZE => ⟨0x01C0010, 0, 1, false, .one, .owner⟩
  | .PWR_AVS => ⟨0x01C0018, 0, 1, false, .one, .owner⟩
  | .PWR_THERM => ⟨0x01C0020, 0, 1, false, .one, .owner⟩
  | .PWR_CLK => ⟨0x01C0028, 0, 1, false, .one, .owner⟩
  | .PWR_RAIL => ⟨0x01C0100, 8, 8, false, .one, .owner⟩
  | .AON_STATUS => ⟨0x0180000, 0, 1, false, .one, .owner⟩
  | .AON_RTC => ⟨0x0180008, 0, 1, true, .one, .owner⟩
  | .AON_ALARM => ⟨0x0180018, 0, 1, false, .one, .owner⟩
  | .AON_SUPPLY => ⟨0x0180020, 0, 1, false, .one, .owner⟩
  | .AON_WDT_CFG => ⟨0x0180028, 0, 1, false, .one, .owner⟩
  | .AON_WDT_KICK => ⟨0x0180030, 0, 1, false, .one, .owner⟩
  | .AON_SEQ => ⟨0x0180038, 0, 1, false, .one, .owner⟩
  | .AON_WAKE => ⟨0x0180040, 0, 1, false, .one, .owner⟩
  | .AON_GRAVE => ⟨0x0180048, 0, 1, false, .one, .owner⟩
  | .AON_CHK => ⟨0x0180050, 0, 1, false, .one, .owner⟩
  | .AON_CON_CFG => ⟨0x0180058, 0, 1, false, .one, .owner⟩
  | .AON_CON_STAT => ⟨0x0180060, 0, 1, false, .one, .owner⟩
  | .AON_TAIL_ADDR => ⟨0x0180068, 0, 1, false, .one, .owner⟩
  | .AON_TAIL_DATA => ⟨0x0180070, 0, 1, false, .one, .owner⟩
  | .AON_TAIL_STATUS => ⟨0x0180078, 0, 1, false, .one, .owner⟩
  | .AON_SAFE => ⟨0x0180080, 8, 2, false, .one, .owner⟩
  | .AON_BOOT => ⟨0x0180090, 0, 1, false, .one, .owner⟩
  | .AON_SCRATCH => ⟨0x01800C0, 8, 8, false, .one, .owner⟩
  | .TWN_CFG => ⟨0x2F00000, 0, 1, false, .one, .owner⟩
  | .TWN_STATUS => ⟨0x2F00008, 0, 1, false, .one, .owner⟩
  | .TWN_MOVE => ⟨0x2F00010, 0, 1, false, .one, .owner⟩
  | .TWN_SYNC => ⟨0x2F00018, 0, 1, false, .one, .owner⟩
  | .TWN_XDMA => ⟨0x2F00020, 0, 1, false, .one, .owner⟩
  | .TWN_PEER_TIME => ⟨0x2F00028, 0, 1, false, .one, .owner⟩
  | .TWN_PEER_ID => ⟨0x2F00030, 0, 1, true, .one, .owner⟩
  | .TWN_LANE => ⟨0x2F00040, 8, 4, false, .one, .owner⟩
  | .TWN_CNT => ⟨0x2F00100, 16, 16, true, .one, .owner⟩
  | .TWN_DH => ⟨0x2F00800, 8, 256, false, .one, .owner⟩

/-- The field table of each register, from the highest bits down. A field that the spec shows as a dash reads zero and takes no write (R10),
so it stands here as RO. -/
def Reg.fields : Reg → List FieldDesc
  | .IMG_STATUS => [⟨35, 4, .ro, false, 0⟩, ⟨3, 3, .ro, false, 0⟩, ⟨2, 2, .ro, false, 0⟩, ⟨1, 1, .ro, false, 1⟩, ⟨0, 0, .ro, false, 0⟩]
  | .IMG_CMD => [⟨35, 10, .ro, false, 0⟩, ⟨9, 9, .wo, false, 0⟩, ⟨8, 4, .wo, false, 0⟩, ⟨3, 0, .wo, false, 0⟩]
  | .IMG_RESULT =>
    [⟨35, 35, .ro, false, 0⟩, ⟨34, 24, .ro, false, 0⟩, ⟨23, 16, .ro, false, 0⟩, ⟨15, 14, .ro, false, 0⟩,
     ⟨13, 8, .ro, false, 0⟩, ⟨7, 6, .ro, false, 0⟩, ⟨5, 0, .ro, false, 0⟩]
  | .IMG_LEN => [⟨35, 26, .ro, false, 0⟩, ⟨25, 0, .rw, false, 0⟩]
  | .IMG_SRC => [⟨71, 64, .ro, false, 0⟩, ⟨63, 0, .rw, false, 0⟩]
  | .IMG_CASTLE_MASK => [⟨35, 17, .ro, false, 0⟩, ⟨16, 0, .rw, false, 0⟩]
  | .IMG_CASTLE_AT => [⟨71, 36, .rw, false, 0⟩, ⟨35, 6, .rw, false, 0⟩, ⟨5, 0, .rw, false, 0⟩]
  | .IMG_GEN => [⟨35, 17, .ro, false, 0⟩, ⟨16, 16, .ro, false, 0⟩, ⟨15, 0, .ro, false, 0⟩]
  | .IMG_OLD_FRAMES => [⟨35, 32, .ro, false, 0⟩, ⟨31, 0, .ro, false, 0⟩]
  | .IMG_SCOPE_STATE0 =>
    [⟨35, 33, .ro, false, 0⟩, ⟨32, 30, .ro, false, 0⟩, ⟨29, 27, .ro, false, 0⟩, ⟨26, 24, .ro, false, 0⟩,
     ⟨23, 21, .ro, false, 0⟩, ⟨20, 18, .ro, false, 0⟩, ⟨17, 15, .ro, false, 0⟩, ⟨14, 12, .ro, false, 0⟩,
     ⟨11, 9, .ro, false, 0⟩, ⟨8, 6, .ro, false, 0⟩, ⟨5, 3, .ro, false, 0⟩, ⟨2, 0, .ro, false, 0⟩]
  | .IMG_SCOPE_STATE1 =>
    [⟨35, 15, .ro, false, 0⟩, ⟨14, 12, .ro, false, 0⟩, ⟨11, 9, .ro, false, 0⟩, ⟨8, 6, .ro, false, 0⟩,
     ⟨5, 3, .ro, false, 0⟩, ⟨2, 0, .ro, false, 0⟩]
  | .IMG_ACT_SERIAL => [⟨71, 64, .ro, false, 0⟩, ⟨63, 0, .ro, false, 0⟩]
  | .IMG_VIEW => [⟨35, 1, .ro, false, 0⟩, ⟨0, 0, .rw, false, 0⟩]
  | .IMG_CSIG => [⟨35, 32, .ro, false, 0⟩, ⟨31, 0, .wo, false, 0⟩]
  | .IMG_KEY => [⟨35, 1, .ro, false, 0⟩, ⟨0, 0, .ro, false, 0⟩]
  | .IMG_FKEY => [⟨35, 32, .ro, false, 0⟩, ⟨31, 0, .wo, false, 0⟩]
  | .IMG_FUSE => [⟨35, 16, .ro, false, 0⟩, ⟨15, 0, .wo, false, 0⟩]
  | .IMG_REFUSED => [⟨35, 32, .ro, false, 0⟩, ⟨31, 0, .rc, false, 0⟩]
  | .GLB_ID => [⟨35, 20, .ro, false, 0x5120⟩, ⟨19, 16, .ro, false, 0⟩, ⟨15, 12, .ro, false, 0⟩, ⟨11, 8, .ro, false, 4⟩, ⟨7, 0, .ro, false, 0⟩]
  | .GLB_SERIAL => [⟨71, 64, .ro, false, 0⟩, ⟨63, 0, .ro, false, 0⟩]
  | .GLB_FUNC => [⟨35, 6, .ro, false, 0⟩, ⟨5, 5, .ro, false, 0⟩, ⟨4, 0, .ro, false, 0⟩]
  | .GLB_STRAP => [⟨35, 1, .ro, false, 0⟩, ⟨0, 0, .ro, false, 0⟩]
  | .GLB_STATUS =>
    [⟨35, 7, .ro, false, 0⟩, ⟨6, 6, .ro, false, 0⟩, ⟨5, 4, .ro, false, 0⟩, ⟨3, 3, .ro, false, 0⟩,
     ⟨2, 2, .ro, false, 0⟩, ⟨1, 1, .ro, false, 0⟩, ⟨0, 0, .ro, false, 0⟩]
  | .GLB_FENCE => [⟨35, 1, .ro, false, 0⟩, ⟨0, 0, .ro, false, 0⟩]
  | .GLB_BRESET => [⟨35, 20, .ro, false, 0⟩, ⟨19, 0, .wo, false, 0⟩]
  | .GLB_REFUSED => [⟨35, 32, .ro, false, 0⟩, ⟨31, 0, .rc, false, 0⟩]
  | .GLB_REFUSED_LAST => [⟨35, 32, .ro, false, 0⟩, ⟨31, 31, .ro, false, 0⟩, ⟨30, 26, .ro, false, 0⟩, ⟨25, 0, .ro, false, 0⟩]
  | .GLB_TREF => [⟨35, 32, .ro, false, 0⟩, ⟨31, 0, .rc, false, 0⟩]
  | .MAC_SEL => [⟨35, 13, .ro, false, 0⟩, ⟨12, 12, .ro, false, 0⟩, ⟨11, 0, .rw, false, 0⟩]
  | .MAC_CTL =>
    [⟨35, 5, .ro, false, 0⟩, ⟨4, 4, .wo, false, 0⟩, ⟨3, 3, .wo, false, 0⟩, ⟨2, 2, .ro, false, 0⟩,
     ⟨1, 1, .rw, false, 0⟩, ⟨0, 0, .rw, false, 1⟩]
  | .MAC_STATUS =>
    [⟨35, 24, .ro, false, 0⟩, ⟨23, 16, .ro, false, 0⟩, ⟨15, 12, .ro, false, 0⟩, ⟨11, 11, .ro, false, 0⟩,
     ⟨10, 10, .ro, false, 0⟩, ⟨9, 9, .ro, false, 0⟩, ⟨8, 8, .ro, false, 0⟩, ⟨7, 7, .ro, false, 0⟩,
     ⟨6, 4, .ro, false, 0⟩, ⟨3, 3, .ro, false, 0⟩, ⟨2, 0, .ro, false, 0⟩]
  | .MAC_MODE => [⟨35, 0, .ro, false, 0⟩]
  | .MAC_TIMERS => [⟨35, 26, .rw, false, 0x78⟩, ⟨25, 16, .rw, false, 0xa⟩, ⟨15, 12, .rw, false, 8⟩, ⟨11, 0, .rw, false, 0x3e8⟩]
  | .MAC_MM =>
    [⟨35, 16, .ro, false, 0⟩, ⟨15, 13, .ro, false, 0⟩, ⟨12, 12, .ro, false, 0⟩, ⟨11, 10, .rw, false, 0⟩,
     ⟨9, 3, .rw, false, 0xa⟩, ⟨2, 2, .rw, false, 0⟩, ⟨1, 1, .rw, false, 0⟩, ⟨0, 0, .rw, false, 0⟩]
  | .MAC_PAUSE => [⟨35, 34, .rw, false, 0⟩, ⟨33, 33, .rw, false, 0⟩, ⟨32, 32, .ro, false, 0⟩, ⟨31, 16, .rw, false, 0xffff⟩, ⟨15, 0, .rw, false, 0⟩]
  | .MAC_PFC_MAP => [⟨35, 32, .ro, false, 0⟩, ⟨31, 24, .rw, false, 0xff⟩, ⟨23, 0, .rw, false, 0xfac688⟩]
  | .MAC_PAUSE_STATE => [⟨35, 16, .ro, false, 0⟩, ⟨15, 8, .ro, false, 0⟩, ⟨7, 0, .ro, false, 0⟩]
  | .MAC_LPI => [⟨35, 17, .ro, false, 0⟩, ⟨16, 16, .rw, false, 0⟩, ⟨15, 0, .rw, false, 0x64⟩]
  | .MAC_SA => [⟨71, 48, .ro, false, 0⟩, ⟨47, 0, .rw, false, 0⟩]
  | .MAC_MOD =>
    [⟨35, 29, .ro, false, 0⟩, ⟨28, 28, .rw, false, 0⟩, ⟨27, 24, .ro, false, 0⟩, ⟨23, 23, .ro, false, 0⟩,
     ⟨22, 16, .rw, false, 0x32⟩, ⟨15, 8, .rw, false, 0x64⟩, ⟨7, 0, .ro, false, 0⟩]
  | .MAC_I2C_CMD =>
    [⟨35, 35, .wo, false, 0⟩, ⟨34, 34, .ro, false, 0⟩, ⟨33, 31, .ro, false, 0⟩, ⟨30, 30, .rw, false, 0⟩,
     ⟨29, 26, .rw, false, 1⟩, ⟨25, 18, .rw, false, 0⟩, ⟨17, 10, .rw, false, 0⟩, ⟨9, 8, .ro, false, 0⟩,
     ⟨7, 0, .rw, false, 0⟩]
  | .MAC_I2C_DATA => [⟨71, 68, .ro, false, 0⟩, ⟨67, 36, .rw, false, 0⟩, ⟨35, 32, .ro, false, 0⟩, ⟨31, 0, .rw, false, 0⟩]
  | .MAC_PFC => [⟨35, 24, .rw, false, 0⟩, ⟨23, 12, .rw, false, 0⟩, ⟨11, 0, .rw, false, 0⟩]
  | .MAC_PFC_OCC => [⟨35, 21, .ro, false, 0⟩, ⟨20, 20, .ro, false, 0⟩, ⟨19, 0, .ro, false, 0⟩]
  | .MAC_PARTNER => [⟨35, 35, .w1c, false, 0⟩, ⟨34, 30, .ro, false, 0⟩, ⟨29, 20, .ro, false, 0⟩, ⟨19, 16, .ro, false, 0⟩, ⟨15, 0, .ro, false, 0⟩]
  | .MAC_CNT => [⟨71, 0, .ro, false, 0⟩]
  | .MAC_I2C_BUS => [⟨35, 8, .ro, false, 0⟩, ⟨7, 0, .rw, false, 0x55⟩]
  | .SPR_SEL => [⟨35, 13, .ro, false, 0⟩, ⟨12, 12, .ro, false, 0⟩, ⟨11, 0, .rw, false, 0⟩]
  | .SPR_CTL => [⟨35, 32, .rw, false, 2⟩, ⟨31, 28, .rw, false, 1⟩, ⟨27, 21, .rw, false, 0x4b⟩, ⟨20, 12, .rw, false, 0x60⟩, ⟨11, 0, .rw, false, 0x64⟩]
  | .SPR_SLOW => [⟨35, 27, .rw, false, 0x168⟩, ⟨26, 16, .rw, false, 0x64⟩, ⟨15, 0, .rw, false, 0x3e8⟩]
  | .SPR_STATUS => [⟨35, 32, .ro, false, 0⟩, ⟨31, 18, .ro, false, 0⟩, ⟨17, 8, .ro, false, 0⟩, ⟨7, 4, .ro, false, 0⟩, ⟨3, 0, .ro, false, 0⟩]
  | .SPR_REORDER => [⟨35, 30, .ro, false, 0⟩, ⟨29, 15, .rc, false, 0⟩, ⟨14, 0, .ro, false, 0⟩]
  | .SPR_SLICE =>
    [⟨35, 33, .ro, false, 0⟩, ⟨32, 32, .ro, false, 0⟩, ⟨31, 25, .ro, false, 0⟩, ⟨24, 10, .ro, false, 0⟩,
     ⟨9, 5, .ro, false, 0x10⟩, ⟨4, 0, .ro, false, 0⟩]
  | .SPR_CNT => [⟨71, 0, .ro, false, 0⟩]
  | .SPR_LIMIT => [⟨35, 12, .ro, false, 0⟩, ⟨11, 0, .rwl, false, 0xc8⟩]
  | .PRS_IND_ADDR =>
    [⟨35, 33, .rw, false, 0⟩, ⟨32, 32, .ro, false, 0⟩, ⟨31, 31, .ro, false, 0⟩, ⟨30, 26, .rw, false, 0⟩,
     ⟨25, 16, .rw, false, 0⟩, ⟨15, 6, .ro, false, 0⟩, ⟨5, 0, .rw, false, 0⟩]
  | .PRS_IND_DATA => [⟨35, 0, .rwl, false, 0⟩]
  | .PRS_TEN => [⟨35, 1, .ro, false, 0⟩, ⟨0, 0, .rw, false, 1⟩]
  | .PRS_PUNT => [⟨35, 32, .rw, false, 0⟩, ⟨31, 24, .rw, false, 0x10⟩, ⟨23, 20, .ro, false, 0⟩, ⟨19, 0, .rw, false, 0x2710⟩]
  | .PRS_ADMIT => [⟨35, 20, .rw, false, 0⟩, ⟨19, 0, .rw, false, 0⟩]
  | .PRS_CNT => [⟨71, 0, .ro, false, 0⟩]
  | .TBL_CMD =>
    [⟨35, 32, .wo, false, 0⟩, ⟨31, 31, .wo, false, 0⟩, ⟨30, 30, .wo, false, 0⟩, ⟨29, 28, .wo, false, 0⟩,
     ⟨27, 26, .wo, false, 0⟩, ⟨25, 21, .wo, false, 0⟩, ⟨20, 13, .wo, false, 0⟩, ⟨12, 12, .wo, false, 0⟩,
     ⟨11, 0, .ro, false, 0⟩]
  | .TBL_ARG => [⟨35, 34, .ro, false, 0⟩, ⟨33, 22, .rw, false, 0⟩, ⟨21, 0, .rw, false, 0⟩]
  | .TBL_RESULT => [⟨35, 35, .ro, false, 0⟩, ⟨34, 23, .ro, false, 0⟩, ⟨22, 13, .ro, false, 0⟩, ⟨12, 6, .ro, false, 0⟩, ⟨5, 0, .ro, false, 0⟩]
  | .TBL_COMMIT_AT => [⟨71, 36, .ro, false, 0⟩, ⟨35, 6, .ro, false, 0⟩, ⟨5, 0, .ro, false, 0⟩]
  | .TBL_KEY => [⟨35, 0, .rw, false, 0⟩]
  | .TBL_RD => [⟨35, 0, .ro, false, 0⟩]
  | .TBL_CFG => [⟨35, 26, .rw, false, 0x80⟩, ⟨25, 18, .rw, false, 0xa⟩, ⟨17, 12, .rw, false, 4⟩, ⟨11, 0, .rw, false, 0x64⟩]
  | .TBL_ECC => [⟨35, 18, .rc, false, 0⟩, ⟨17, 0, .rc, false, 0⟩]
  | .TBL_ECC_LAST => [⟨35, 24, .ro, false, 0⟩, ⟨23, 22, .ro, false, 0⟩, ⟨21, 21, .ro, false, 0⟩, ⟨20, 0, .ro, false, 0⟩]
  | .TBL_LEARN => [⟨35, 34, .rw, false, 0⟩, ⟨33, 30, .rw, false, 0⟩, ⟨29, 26, .rw, false, 0⟩, ⟨25, 25, .rw, false, 1⟩, ⟨24, 0, .ro, false, 0⟩]
  | .TBL_AGE => [⟨35, 20, .rw, false, 0x12c⟩, ⟨19, 19, .rw, false, 0⟩, ⟨18, 18, .rw, false, 1⟩, ⟨17, 0, .ro, false, 0⟩]
  | .TBL_STATUS => [⟨35, 21, .ro, false, 0⟩, ⟨20, 0, .ro, false, 0⟩]
  | .TBL_LPM_STATUS => [⟨35, 31, .ro, false, 0⟩, ⟨30, 20, .ro, false, 0⟩, ⟨19, 0, .ro, false, 0⟩]
  | .TBL_EXTENT => [⟨35, 33, .ro, false, 0⟩, ⟨32, 22, .ro, false, 0⟩, ⟨21, 11, .ro, false, 0⟩, ⟨10, 0, .ro, false, 0⟩]
  | .TBL_INS_FAIL => [⟨35, 32, .ro, false, 0⟩, ⟨31, 0, .rc, false, 0⟩]
  | .TBL_CNT => [⟨71, 0, .ro, false, 0⟩]
  | .TCM_SEL => [⟨35, 13, .ro, false, 0⟩, ⟨12, 12, .ro, false, 0⟩, ⟨11, 0, .rw, false, 0⟩]
  | .TCM_CMD => [⟨35, 32, .wo, false, 0⟩, ⟨31, 31, .wo, false, 0⟩, ⟨30, 30, .ro, false, 0⟩, ⟨29, 20, .wo, false, 0⟩, ⟨19, 0, .ro, false, 0⟩]
  | .TCM_RESULT => [⟨35, 35, .ro, false, 0⟩, ⟨34, 23, .ro, false, 0⟩, ⟨22, 22, .ro, false, 0⟩, ⟨21, 6, .ro, false, 0⟩, ⟨5, 0, .ro, false, 0⟩]
  | .TCM_COMMIT_AT => [⟨71, 36, .ro, false, 0⟩, ⟨35, 6, .ro, false, 0⟩, ⟨5, 0, .ro, false, 0⟩]
  | .TCM_ACT => [⟨35, 0, .rw, false, 0⟩]
  | .TCM_HIT => [⟨71, 48, .ro, false, 0⟩, ⟨47, 0, .ro, false, 0⟩]
  | .TCM_VAL => [⟨35, 0, .rw, false, 0⟩]
  | .TCM_CARE => [⟨35, 0, .rw, false, 0⟩]
  | .TCM_BANK =>
    [⟨35, 33, .ro, false, 0⟩, ⟨32, 27, .ro, false, 0⟩, ⟨26, 22, .ro, false, 0x1f⟩, ⟨21, 17, .ro, false, 0x10⟩,
     ⟨16, 11, .ro, false, 0x3f⟩, ⟨10, 0, .ro, false, 0⟩]
  | .TCM_BANK_CFG => [⟨35, 0, .rwl, false, 0⟩]
  | .TCM_IND_ADDR =>
    [⟨35, 35, .rw, false, 0⟩, ⟨34, 34, .ro, false, 0⟩, ⟨33, 16, .ro, false, 0⟩, ⟨15, 8, .rw, false, 0⟩,
     ⟨7, 4, .rw, false, 0⟩, ⟨3, 0, .rw, false, 0⟩]
  | .TCM_IND_DATA => [⟨35, 0, .rwl, false, 0⟩]
  | .TCM_CFG => [⟨35, 20, .ro, false, 0⟩, ⟨19, 12, .rw, false, 1⟩, ⟨11, 0, .rw, false, 0x64⟩]
  | .TCM_ERR => [⟨35, 18, .rc, false, 0⟩, ⟨17, 0, .rc, false, 0⟩]
  | .TCM_ERR_LAST => [⟨35, 24, .ro, false, 0⟩, ⟨23, 11, .ro, false, 0⟩, ⟨10, 10, .ro, false, 0⟩, ⟨9, 0, .ro, false, 0⟩]
  | .SWC_CFG => [⟨35, 17, .ro, false, 0⟩, ⟨16, 1, .rw, false, 0x400⟩, ⟨0, 0, .rw, false, 1⟩]
  | .SWC_STATUS => [⟨35, 27, .ro, false, 0⟩, ⟨26, 18, .ro, false, 0⟩, ⟨17, 9, .ro, false, 0⟩, ⟨8, 0, .ro, false, 0⟩]
  | .SWC_WATCH_CMD => [⟨35, 35, .wo, false, 0⟩, ⟨34, 34, .rw, false, 0⟩, ⟨33, 32, .ro, false, 0⟩, ⟨31, 12, .ro, false, 0⟩, ⟨11, 0, .rw, false, 0⟩]
  | .SWC_WATCH0 => [⟨35, 35, .rw, false, 0⟩, ⟨34, 31, .rw, false, 0⟩, ⟨30, 26, .rw, false, 0⟩, ⟨25, 0, .ro, false, 0⟩]
  | .SWC_WATCH1 => [⟨35, 0, .rw, false, 0⟩]
  | .SWC_MIR_A =>
    [⟨35, 35, .rw, false, 0⟩, ⟨34, 33, .rw, false, 0⟩, ⟨32, 30, .rw, false, 0⟩, ⟨29, 26, .rw, false, 0⟩,
     ⟨25, 18, .rw, false, 0⟩, ⟨17, 17, .ro, false, 0⟩, ⟨16, 0, .rw, false, 0⟩]
  | .SWC_MIR_B => [⟨35, 16, .ro, false, 0⟩, ⟨15, 0, .rw, false, 0⟩]
  | .SWC_INFLIGHT => [⟨71, 36, .ro, false, 0⟩, ⟨35, 0, .ro, false, 0⟩]
  | .SWC_CNT => [⟨71, 0, .ro, false, 0⟩]
  | .SWC_PMIR => [⟨35, 10, .ro, false, 0⟩, ⟨9, 9, .rw, false, 0⟩, ⟨8, 5, .rw, false, 0⟩, ⟨4, 4, .rw, false, 0⟩, ⟨3, 0, .rw, false, 0⟩]
  | .BPM_ACCT => [⟨35, 20, .ro, false, 0⟩, ⟨19, 0, .ro, false, 0⟩]
  | .BPM_INSPECT => [⟨35, 0, .rw, false, 0⟩]
  | .BPM_INSPECT_R => [⟨35, 34, .ro, false, 0⟩, ⟨33, 20, .ro, false, 0⟩, ⟨19, 8, .ro, false, 0⟩, ⟨7, 5, .ro, false, 0⟩, ⟨4, 0, .ro, false, 0⟩]
  | .BPM_RECLAIM => [⟨35, 0, .wo, false, 0⟩]
  | .BPM_OPRES => [⟨35, 35, .ro, false, 0⟩, ⟨34, 6, .ro, false, 0⟩, ⟨5, 0, .ro, false, 0⟩]
  | .BPM_BADH_LAST => [⟨35, 24, .ro, false, 0⟩, ⟨23, 20, .ro, false, 0⟩, ⟨19, 16, .ro, false, 0⟩, ⟨15, 0, .ro, false, 0⟩]
  | .BPM_PFREE => [⟨35, 32, .ro, false, 0⟩, ⟨31, 0, .ro, false, 0⟩]
  | .BPM_PMIN => [⟨35, 32, .ro, false, 0⟩, ⟨31, 0, .rc, false, 0⟩]
  | .BPM_OCC => [⟨35, 20, .ro, false, 0⟩, ⟨19, 0, .ro, false, 0⟩]
  | .BPM_COCC => [⟨35, 20, .ro, false, 0⟩, ⟨19, 0, .ro, false, 0⟩]
  | .BPM_QUAR => [⟨35, 20, .ro, false, 0⟩, ⟨19, 0, .ro, false, 0⟩]
  | .BPM_CNT => [⟨71, 0, .ro, false, 0⟩]
  | .BPM_PORT => [⟨35, 20, .ro, false, 0⟩, ⟨19, 0, .rw, false, 0x200⟩]
  | .BPM_PORTUSE => [⟨35, 20, .ro, false, 0⟩, ⟨19, 0, .ro, false, 0⟩]
  | .HBC_SEL => [⟨35, 13, .ro, false, 0⟩, ⟨12, 12, .ro, false, 0⟩, ⟨11, 0, .rw, false, 0⟩]
  | .HBC_CTL => [⟨35, 7, .ro, false, 0⟩, ⟨6, 2, .wo, false, 0⟩, ⟨1, 0, .wo, false, 0⟩]
  | .HBC_STACK => [⟨35, 33, .ro, false, 0⟩, ⟨32, 27, .ro, false, 0x1f⟩, ⟨26, 20, .ro, false, 0⟩, ⟨19, 19, .w1c, false, 0⟩, ⟨18, 0, .ro, false, 0⟩]
  | .HBC_PAGE => [⟨35, 26, .ro, false, 0⟩, ⟨25, 16, .rw, false, 0x200⟩, ⟨15, 12, .rw, false, 3⟩, ⟨11, 0, .rw, false, 0x100⟩]
  | .HBC_REFRESH => [⟨35, 3, .ro, false, 0⟩, ⟨2, 1, .ro, false, 0⟩, ⟨0, 0, .rw, false, 0⟩]
  | .HBC_BMASK => [⟨35, 22, .ro, false, 0⟩, ⟨21, 0, .rw, false, 0⟩]
  | .HBC_PC =>
    [⟨35, 33, .ro, false, 0⟩, ⟨32, 28, .ro, false, 0⟩, ⟨27, 14, .ro, false, 0⟩, ⟨13, 7, .ro, false, 0x40⟩,
     ⟨6, 3, .ro, false, 0xf⟩, ⟨2, 0, .ro, false, 0⟩]
  | .HBC_SCNT => [⟨71, 0, .ro, false, 0⟩]
  | .HBC_TEN => [⟨35, 16, .ro, false, 0⟩, ⟨15, 8, .rw, false, 1⟩, ⟨7, 0, .rw, false, 1⟩]
  | .HBC_USE => [⟨35, 21, .ro, false, 0⟩, ⟨20, 0, .ro, false, 0⟩]
  | .HBC_INFLIGHT => [⟨71, 36, .ro, false, 0⟩, ⟨35, 0, .ro, false, 0⟩]
  | .HBC_CNT => [⟨71, 0, .ro, false, 0⟩]
  | .HBC_CFG => [⟨35, 32, .rw, false, 4⟩, ⟨31, 24, .rw, false, 0x3c⟩, ⟨23, 16, .rw, false, 0xa⟩, ⟨15, 0, .rw, false, 0x3e8⟩]
  | .HBC_FREE => [⟨35, 21, .ro, false, 0⟩, ⟨20, 0, .ro, false, 0⟩]
  | .SCH_SEL => [⟨35, 13, .ro, false, 0⟩, ⟨12, 12, .ro, false, 0⟩, ⟨11, 0, .rw, false, 0⟩]
  | .SCH_SET => [⟨35, 4, .ro, false, 0⟩, ⟨3, 0, .rw, false, 0⟩]
  | .SCH_PORT => [⟨35, 30, .rwl, false, 0x14⟩, ⟨29, 22, .rwl, false, 0⟩, ⟨21, 21, .ro, false, 0⟩, ⟨20, 0, .rwl, false, 0⟩]
  | .SCH_PORT_BURST => [⟨35, 20, .ro, false, 0⟩, ⟨19, 0, .rwl, false, 0xa0⟩]
  | .SCH_PORT_STATUS => [⟨35, 35, .ro, false, 0⟩, ⟨34, 34, .ro, false, 0⟩, ⟨33, 26, .ro, false, 0⟩, ⟨25, 0, .ro, false, 0⟩]
  | .SCH_PORT_CREDIT => [⟨35, 0, .ro, false, 0⟩]
  | .SCH_VT_NOW => [⟨35, 0, .ro, false, 0⟩]
  | .SCH_SET_CFG => [⟨35, 28, .rwl, false, 1⟩, ⟨27, 21, .ro, false, 0⟩, ⟨20, 0, .rwl, false, 0⟩]
  | .SCH_SET_BURST => [⟨35, 20, .ro, false, 0⟩, ⟨19, 0, .rwl, false, 0xa0⟩]
  | .SCH_SET_VT => [⟨35, 0, .ro, false, 0⟩]
  | .SCH_SET_CREDIT => [⟨35, 0, .ro, false, 0⟩]
  | .SCH_QPROF_LO =>
    [⟨35, 30, .rwl, false, 0⟩, ⟨29, 24, .rwl, false, 0⟩, ⟨23, 18, .rwl, false, 0⟩, ⟨17, 12, .rwl, false, 0⟩,
     ⟨11, 6, .rwl, false, 0⟩, ⟨5, 0, .rwl, false, 0⟩]
  | .SCH_QPROF_HI => [⟨35, 12, .ro, false, 0⟩, ⟨11, 6, .rwl, false, 0⟩, ⟨5, 0, .rwl, false, 0⟩]
  | .SCH_CLS_CFG => [⟨35, 28, .rwl, false, 1⟩, ⟨27, 21, .ro, false, 0⟩, ⟨20, 0, .rwl, false, 0⟩]
  | .SCH_CLS_BURST => [⟨35, 20, .ro, false, 0⟩, ⟨19, 0, .rwl, false, 0xa0⟩]
  | .SCH_Q => [⟨35, 35, .ro, false, 0⟩, ⟨34, 34, .ro, false, 0⟩, ⟨33, 32, .ro, false, 0⟩, ⟨31, 0, .ro, false, 0⟩]
  | .SCH_CREDIT => [⟨35, 0, .ro, false, 0⟩]
  | .SCH_CNT => [⟨71, 0, .ro, false, 0⟩]
  | .SCH_PROF_LIMIT => [⟨35, 32, .ro, false, 0⟩, ⟨31, 0, .rwl, false, 0x1000⟩]
  | .SCH_PROF_RED => [⟨35, 34, .rwl, false, 0⟩, ⟨33, 20, .ro, false, 0⟩, ⟨19, 0, .rwl, false, 0⟩]
  | .SCH_PROF_DEEP => [⟨35, 16, .rwl, false, 0⟩, ⟨15, 0, .rwl, false, 0⟩]
  | .GTE_SEL => [⟨35, 13, .ro, false, 0⟩, ⟨12, 12, .ro, false, 0⟩, ⟨11, 0, .rw, false, 0⟩]
  | .GTE_CTL => [⟨35, 35, .rwl, false, 0⟩, ⟨34, 9, .ro, false, 0⟩, ⟨8, 0, .rwl, false, 1⟩]
  | .GTE_BASE => [⟨71, 36, .rwl, false, 0⟩, ⟨35, 6, .rwl, false, 0⟩, ⟨5, 0, .rwl, false, 0⟩]
  | .GTE_CYCLE => [⟨35, 30, .ro, false, 0⟩, ⟨29, 0, .rwl, false, 0xf4240⟩]
  | .GTE_IND_ADDR => [⟨35, 35, .ro, false, 0⟩, ⟨34, 8, .ro, false, 0⟩, ⟨7, 0, .rw, false, 0⟩]
  | .GTE_IND_DATA => [⟨35, 0, .rwl, false, 0⟩]
  | .GTE_STATE => [⟨35, 28, .ro, false, 0xff⟩, ⟨27, 27, .ro, false, 0⟩, ⟨26, 26, .ro, false, 0⟩, ⟨25, 8, .ro, false, 0⟩, ⟨7, 0, .ro, false, 0⟩]
  | .GTE_WIN => [⟨35, 35, .ro, false, 1⟩, ⟨34, 30, .ro, false, 0⟩, ⟨29, 0, .ro, false, 0⟩]
  | .RWE_SEL => [⟨35, 13, .ro, false, 0⟩, ⟨12, 12, .ro, false, 0⟩, ⟨11, 0, .rw, false, 0⟩]
  | .RWE_CFG => [⟨35, 32, .ro, false, 0⟩, ⟨31, 24, .rw, false, 0x40⟩, ⟨23, 8, .rw, false, 0x64⟩, ⟨7, 4, .rw, false, 0xe⟩, ⟨3, 0, .ro, false, 0⟩]
  | .RWE_LIB => [⟨35, 32, .ro, false, 0⟩, ⟨31, 0, .ro, false, 0⟩]
  | .RWE_STATUS =>
    [⟨35, 31, .ro, false, 0⟩, ⟨30, 26, .ro, false, 0⟩, ⟨25, 21, .ro, false, 0⟩, ⟨20, 16, .ro, false, 0⟩,
     ⟨15, 11, .ro, false, 0⟩, ⟨10, 0, .ro, false, 0⟩]
  | .RWE_ERR => [⟨35, 35, .w1c, false, 0⟩, ⟨34, 34, .w1c, false, 0⟩, ⟨33, 33, .w1c, false, 0⟩, ⟨32, 32, .w1c, false, 0⟩, ⟨31, 0, .ro, false, 0⟩]
  | .RWE_ERR_LAST => [⟨35, 32, .ro, false, 0⟩, ⟨31, 20, .ro, false, 0⟩, ⟨19, 8, .ro, false, 0⟩, ⟨7, 4, .ro, false, 0⟩, ⟨3, 0, .ro, false, 0⟩]
  | .RWE_IND_ADDR =>
    [⟨35, 34, .rw, false, 0⟩, ⟨33, 33, .ro, false, 0⟩, ⟨32, 28, .ro, false, 0⟩, ⟨27, 14, .rw, false, 0⟩,
     ⟨13, 4, .ro, false, 0⟩, ⟨3, 0, .rw, false, 0⟩]
  | .RWE_IND_DATA => [⟨35, 0, .rwl, false, 0⟩]
  | .RWE_ENG =>
    [⟨35, 33, .ro, false, 0⟩, ⟨32, 32, .ro, false, 0⟩, ⟨31, 30, .ro, false, 2⟩, ⟨29, 25, .ro, false, 0x10⟩,
     ⟨24, 24, .ro, false, 0⟩, ⟨23, 23, .ro, false, 0⟩, ⟨22, 22, .ro, false, 0⟩, ⟨21, 10, .ro, false, 0⟩,
     ⟨9, 0, .ro, false, 0⟩]
  | .RWE_CNT => [⟨71, 0, .ro, false, 0⟩]
  | .RWE_PCNT => [⟨71, 0, .ro, false, 0⟩]
  | .CCX_SEL => [⟨35, 13, .ro, false, 0⟩, ⟨12, 12, .ro, false, 0⟩, ⟨11, 0, .rw, false, 0⟩]
  | .CCX_T_CTL => [⟨35, 25, .ro, false, 0⟩, ⟨24, 22, .wo, false, 0⟩, ⟨21, 21, .wo, false, 0⟩, ⟨20, 0, .wo, false, 0⟩]
  | .CCX_T_STATUS =>
    [⟨35, 32, .ro, false, 0⟩, ⟨31, 31, .ro, false, 0⟩, ⟨30, 26, .ro, false, 0x1f⟩, ⟨25, 25, .ro, false, 0⟩,
     ⟨24, 16, .ro, false, 0⟩, ⟨15, 0, .ro, false, 0⟩]
  | .CCX_T_PC => [⟨35, 0, .ro, false, 0⟩]
  | .CCX_T_FAULT => [⟨35, 28, .ro, false, 0⟩, ⟨27, 16, .rc, false, 0⟩, ⟨15, 0, .ro, false, 0⟩]
  | .CCX_T_QSHARE => [⟨35, 32, .ro, false, 0⟩, ⟨31, 0, .rwl, false, 0⟩]
  | .CCX_T_BSHARE => [⟨35, 32, .ro, false, 0⟩, ⟨31, 16, .ro, false, 0⟩, ⟨15, 0, .rwl, false, 0⟩]
  | .CCX_T_REG => [⟨35, 0, .rw, false, 0⟩]
  | .CCX_CORE =>
    [⟨35, 34, .ro, false, 0⟩, ⟨33, 29, .ro, false, 0⟩, ⟨28, 28, .ro, false, 0⟩, ⟨27, 23, .ro, false, 0x10⟩,
     ⟨22, 15, .ro, false, 0⟩, ⟨14, 0, .ro, false, 0⟩]
  | .CCX_CYCLE => [⟨71, 0, .ro, false, 0⟩]
  | .CCX_PMSEL =>
    [⟨35, 28, .rw, false, 0⟩, ⟨27, 27, .rw, false, 0⟩, ⟨26, 26, .rw, false, 0⟩, ⟨25, 25, .w1c, false, 0⟩,
     ⟨24, 20, .rw, false, 0x10⟩, ⟨19, 8, .ro, false, 0⟩, ⟨7, 0, .rw, false, 0⟩]
  | .CCX_PMC => [⟨35, 0, .rw, false, 0⟩]
  | .CCX_TAG => [⟨35, 35, .rw, false, 0⟩, ⟨34, 27, .rw, false, 0⟩, ⟨26, 4, .ro, false, 0⟩, ⟨3, 0, .ro, false, 0⟩]
  | .CCX_TAG_BOUNDS => [⟨35, 18, .rw, false, 0x2000⟩, ⟨17, 0, .rw, false, 0x400⟩]
  | .CCX_SAMPLE => [⟨35, 0, .ro, false, 0⟩]
  | .CCX_CFG => [⟨35, 32, .rw, false, 0xe⟩, ⟨31, 5, .ro, false, 0⟩, ⟨4, 0, .rw, false, 0⟩]
  | .CCX_MIG => [⟨35, 35, .wo, false, 0⟩, ⟨34, 34, .ro, false, 0⟩, ⟨33, 31, .ro, false, 0⟩, ⟨30, 26, .rw, false, 0⟩, ⟨25, 0, .ro, false, 0⟩]
  | .CCX_FREE => [⟨35, 8, .ro, false, 0⟩, ⟨7, 0, .ro, false, 0⟩]
  | .CCX_P_QSHARE => [⟨35, 32, .ro, false, 0⟩, ⟨31, 0, .rwl, false, 0xffffffff⟩]
  | .CCX_P_BSHARE => [⟨35, 20, .ro, false, 0⟩, ⟨19, 0, .rwl, false, 0x1000⟩]
  | .CCX_P_STATUS => [⟨35, 28, .ro, false, 0⟩, ⟨27, 20, .ro, false, 0⟩, ⟨19, 0, .ro, false, 0⟩]
  | .CCX_PQ => [⟨35, 35, .rw, false, 0⟩, ⟨34, 31, .rw, false, 0⟩, ⟨30, 0, .ro, false, 0⟩]
  | .CCX_CNT => [⟨71, 0, .ro, false, 0⟩]
  | .DMA_SEL => [⟨35, 13, .ro, false, 0⟩, ⟨12, 12, .ro, false, 0⟩, ⟨11, 0, .rw, false, 0⟩]
  | .DMA_CH_CTL => [⟨35, 4, .ro, false, 0⟩, ⟨3, 3, .wo, false, 0⟩, ⟨2, 2, .wo, false, 0⟩, ⟨1, 1, .wo, false, 0⟩, ⟨0, 0, .wo, false, 0⟩]
  | .DMA_CH_STATUS => [⟨35, 33, .ro, false, 1⟩, ⟨32, 27, .ro, false, 0⟩, ⟨26, 26, .ro, false, 0⟩, ⟨25, 16, .ro, false, 0⟩, ⟨15, 0, .ro, false, 0⟩]
  | .DMA_CH_HEAD => [⟨71, 64, .ro, false, 0⟩, ⟨63, 0, .rw, false, 0⟩]
  | .DMA_CH_CUR => [⟨71, 64, .ro, false, 0⟩, ⟨63, 0, .ro, false, 0⟩]
  | .DMA_CH_CFG => [⟨35, 28, .rw, false, 1⟩, ⟨27, 16, .rw, false, 0⟩, ⟨15, 12, .rw, false, 8⟩, ⟨11, 0, .ro, false, 0⟩]
  | .DMA_RING_BASE => [⟨71, 64, .ro, false, 0⟩, ⟨63, 0, .rw, false, 0⟩]
  | .DMA_RING_CFG => [⟨35, 35, .rw, false, 0⟩, ⟨34, 31, .rw, false, 0⟩, ⟨30, 20, .rw, false, 0⟩, ⟨19, 0, .ro, false, 0⟩]
  | .DMA_RING_PROD => [⟨35, 16, .ro, false, 0⟩, ⟨15, 0, .ro, false, 0⟩]
  | .DMA_RING_CONS => [⟨35, 16, .ro, false, 0⟩, ⟨15, 0, .rw, false, 0⟩]
  | .DMA_RING_WB => [⟨71, 64, .ro, false, 0⟩, ⟨63, 0, .rw, false, 0⟩]
  | .DMA_RING_IRQ => [⟨35, 20, .rw, false, 1⟩, ⟨19, 16, .ro, false, 0⟩, ⟨15, 0, .rw, false, 0⟩]
  | .DMA_RING_STAT => [⟨35, 32, .rc, false, 0⟩, ⟨31, 0, .rc, false, 0⟩]
  | .DMA_CH_CNT => [⟨71, 0, .ro, false, 0⟩]
  | .DMA_RBIND =>
    [⟨35, 30, .ro, false, 0⟩, ⟨29, 29, .rw, false, 0⟩, ⟨28, 25, .rw, false, 0⟩, ⟨24, 24, .rw, false, 0⟩,
     ⟨23, 20, .rw, false, 0⟩, ⟨19, 19, .rw, false, 0⟩, ⟨18, 15, .rw, false, 0⟩, ⟨14, 14, .rw, false, 0⟩,
     ⟨13, 10, .rw, false, 0⟩, ⟨9, 9, .rw, false, 0⟩, ⟨8, 5, .rw, false, 0⟩, ⟨4, 4, .rw, false, 0⟩,
     ⟨3, 0, .rw, false, 0⟩]
  | .DMA_UNBOUND => [⟨35, 32, .ro, false, 0⟩, ⟨31, 0, .rc, false, 0⟩]
  | .DMA_WATCH =>
    [⟨35, 30, .ro, false, 0⟩, ⟨29, 29, .rw, false, 0⟩, ⟨28, 25, .rw, false, 0⟩, ⟨24, 24, .rw, false, 0⟩,
     ⟨23, 20, .rw, false, 0⟩, ⟨19, 19, .rw, false, 0⟩, ⟨18, 15, .rw, false, 0⟩, ⟨14, 14, .rw, false, 0⟩,
     ⟨13, 10, .rw, false, 0⟩, ⟨9, 9, .rw, false, 0⟩, ⟨8, 5, .rw, false, 0⟩, ⟨4, 4, .rw, false, 0⟩,
     ⟨3, 0, .rw, false, 0⟩]
  | .DMA_LINK => [⟨35, 32, .ro, false, 0⟩, ⟨31, 28, .ro, false, 0⟩, ⟨27, 16, .rc, false, 0⟩, ⟨15, 0, .ro, false, 0⟩]
  | .CPH_SEL => [⟨35, 13, .ro, false, 0⟩, ⟨12, 12, .ro, false, 0⟩, ⟨11, 0, .rw, false, 0⟩]
  | .CPH_LOCK =>
    [⟨35, 35, .wo, false, 0⟩, ⟨34, 34, .wo, false, 0⟩, ⟨33, 7, .ro, false, 0⟩, ⟨6, 6, .ro, false, 0⟩,
     ⟨5, 5, .ro, false, 0⟩, ⟨4, 0, .ro, false, 0x1f⟩]
  | .CPH_CTL => [⟨35, 4, .ro, false, 0⟩, ⟨3, 3, .wo, false, 0⟩, ⟨2, 2, .wo, false, 0⟩, ⟨1, 1, .wo, false, 0⟩, ⟨0, 0, .wo, false, 0⟩]
  | .CPH_STATUS =>
    [⟨35, 33, .ro, false, 0⟩, ⟨32, 27, .ro, false, 0⟩, ⟨26, 23, .ro, false, 0⟩, ⟨22, 22, .ro, false, 0⟩,
     ⟨21, 16, .ro, false, 0⟩, ⟨15, 0, .ro, false, 0⟩]
  | .CPH_HEAD => [⟨71, 64, .ro, false, 0⟩, ⟨63, 0, .rw, false, 0⟩]
  | .CPH_CUR => [⟨71, 64, .ro, false, 0⟩, ⟨63, 0, .ro, false, 0⟩]
  | .CPH_CFG =>
    [⟨35, 28, .rw, false, 1⟩, ⟨27, 16, .rw, false, 0⟩, ⟨15, 12, .rw, false, 8⟩, ⟨11, 8, .rw, false, 0⟩,
     ⟨7, 7, .rw, false, 0⟩, ⟨6, 0, .ro, false, 0⟩]
  | .CPH_KEY_CTL =>
    [⟨35, 35, .wo, false, 0⟩, ⟨34, 34, .ro, false, 0⟩, ⟨33, 31, .ro, false, 0⟩, ⟨30, 30, .ro, false, 0⟩,
     ⟨29, 12, .ro, false, 0⟩, ⟨11, 8, .rw, false, 0⟩, ⟨7, 7, .ro, false, 0⟩, ⟨6, 0, .rw, false, 0⟩]
  | .CPH_KEY => [⟨35, 32, .ro, false, 0⟩, ⟨31, 0, .wo, false, 0⟩]
  | .CPH_CNT => [⟨71, 0, .ro, false, 0⟩]
  | .CPH_FREE => [⟨35, 20, .ro, false, 0⟩, ⟨19, 16, .ro, false, 0⟩, ⟨15, 8, .ro, false, 0⟩, ⟨7, 0, .ro, false, 0xff⟩]
  | .TIM_CFG => [⟨35, 35, .rw, false, 0⟩, ⟨34, 34, .rw, false, 0⟩, ⟨33, 33, .rw, false, 0⟩, ⟨32, 32, .rw, false, 0⟩, ⟨31, 0, .ro, false, 0⟩]
  | .TIM_STATUS =>
    [⟨35, 35, .ro, false, 0⟩, ⟨34, 34, .ro, false, 0⟩, ⟨33, 33, .ro, false, 0⟩, ⟨32, 32, .ro, false, 0⟩,
     ⟨31, 31, .ro, false, 0⟩, ⟨30, 16, .ro, false, 0⟩, ⟨15, 0, .ro, false, 0⟩]
  | .TIM_NOW => [⟨71, 36, .ro, false, 0⟩, ⟨35, 6, .ro, false, 0⟩, ⟨5, 0, .ro, false, 0⟩]
  | .TIM_SEC_HI => [⟨35, 12, .ro, false, 0⟩, ⟨11, 0, .ro, false, 0⟩]
  | .TIM_RATE => [⟨35, 0, .rw, false, 0⟩]
  | .TIM_STEP => [⟨71, 36, .rw, false, 0⟩, ⟨35, 6, .rw, false, 0⟩, ⟨5, 0, .rw, false, 0⟩]
  | .TIM_STEP_CTL => [⟨35, 34, .wo, false, 0⟩, ⟨33, 33, .ro, false, 0⟩, ⟨32, 31, .ro, false, 0⟩, ⟨30, 12, .ro, false, 0⟩, ⟨11, 0, .rw, false, 0⟩]
  | .TIM_LAST_STEP => [⟨71, 36, .ro, false, 0⟩, ⟨35, 6, .ro, false, 0⟩, ⟨5, 0, .ro, false, 0⟩]
  | .TIM_PPS_OUT => [⟨35, 35, .rw, false, 0⟩, ⟨34, 34, .rw, false, 1⟩, ⟨33, 24, .rw, false, 0x64⟩, ⟨23, 20, .ro, false, 0⟩, ⟨19, 0, .rw, false, 0⟩]
  | .TIM_PPS_CAP => [⟨71, 36, .ro, false, 0⟩, ⟨35, 6, .ro, false, 0⟩, ⟨5, 0, .ro, false, 0⟩]
  | .TIM_LOCK => [⟨35, 35, .wo, false, 0⟩, ⟨34, 34, .wo, false, 0⟩, ⟨33, 20, .ro, false, 0⟩, ⟨19, 0, .wo, false, 0⟩]
  | .TIM_LOCK_CFG => [⟨35, 24, .rw, false, 0x50⟩, ⟨23, 20, .ro, false, 0⟩, ⟨19, 0, .rw, false, 0x3e8⟩]
  | .TIM_SYNC_ERR => [⟨35, 35, .ro, false, 0⟩, ⟨34, 20, .ro, false, 0⟩, ⟨19, 0, .ro, false, 0xfffff⟩]
  | .TIM_SYNCE =>
    [⟨35, 35, .rw, false, 0⟩, ⟨34, 34, .ro, false, 1⟩, ⟨33, 26, .rw, false, 0⟩, ⟨25, 23, .rw, false, 0⟩,
     ⟨22, 13, .rw, false, 0⟩, ⟨12, 5, .rw, false, 0xa⟩, ⟨4, 0, .ro, false, 0⟩]
  | .TIM_CNT => [⟨71, 0, .ro, false, 0⟩]
  | .TIM_PORT_LAT => [⟨35, 18, .rw, false, 0⟩, ⟨17, 0, .rw, false, 0⟩]
  | .CNT_SEL => [⟨35, 13, .ro, false, 0⟩, ⟨12, 12, .ro, false, 0⟩, ⟨11, 0, .rw, false, 0⟩]
  | .CNT_BANK => [⟨35, 28, .ro, false, 0x20⟩, ⟨27, 20, .ro, false, 0⟩, ⟨19, 12, .ro, false, 0x20⟩, ⟨11, 11, .ro, false, 0⟩, ⟨10, 0, .ro, false, 0⟩]
  | .CNT_VIEW => [⟨35, 1, .ro, false, 0⟩, ⟨0, 0, .rw, false, 0⟩]
  | .CNT_SNAP_CTL => [⟨35, 2, .ro, false, 0⟩, ⟨1, 0, .wo, false, 0⟩]
  | .CNT_SNAP_RES => [⟨35, 35, .ro, false, 0⟩, ⟨34, 23, .ro, false, 0⟩, ⟨22, 22, .ro, false, 0⟩, ⟨21, 6, .ro, false, 0⟩, ⟨5, 0, .ro, false, 0⟩]
  | .CNT_SNAP_AT => [⟨71, 36, .rw, false, 0⟩, ⟨35, 6, .rw, false, 0⟩, ⟨5, 0, .rw, false, 0⟩]
  | .CNT_SNAP_DST => [⟨71, 64, .ro, false, 0⟩, ⟨63, 0, .rw, false, 0⟩]
  | .CNT_SNAP_LEN => [⟨35, 32, .ro, false, 0⟩, ⟨31, 0, .rw, false, 0⟩]
  | .CNT_VIEW_SIZE => [⟨35, 32, .ro, false, 0⟩, ⟨31, 0, .ro, false, 0⟩]
  | .CNT_SNAP_TIME => [⟨71, 36, .ro, false, 0⟩, ⟨35, 6, .ro, false, 0⟩, ⟨5, 0, .ro, false, 0⟩]
  | .CNT_CFG => [⟨35, 28, .rw, false, 1⟩, ⟨27, 24, .rw, false, 8⟩, ⟨23, 16, .ro, false, 0⟩, ⟨15, 0, .rw, false, 0⟩]
  | .CNT_TRACE => [⟨35, 35, .rw, false, 0⟩, ⟨34, 30, .rw, false, 4⟩, ⟨29, 0, .ro, false, 0⟩]
  | .CNT_TRACE_BOUNDS => [⟨35, 18, .rw, false, 0x10000⟩, ⟨17, 0, .rw, false, 0x4000⟩]
  | .CNT_TRACE_PORT => [⟨35, 32, .ro, false, 0⟩, ⟨31, 0, .rw, false, 0⟩]
  | .CNT_TRACE_STAT => [⟨35, 27, .ro, false, 0⟩, ⟨26, 16, .ro, false, 0⟩, ⟨15, 0, .ro, false, 0⟩]
  | .CNT_ENTRY => [⟨71, 0, .ro, false, 0⟩]
  | .FLT_STATUS =>
    [⟨35, 35, .ro, true, 0⟩, ⟨34, 34, .ro, false, 0⟩, ⟨33, 33, .ro, false, 0⟩, ⟨32, 32, .ro, false, 0⟩,
     ⟨31, 31, .ro, false, 0⟩, ⟨30, 7, .ro, false, 0⟩, ⟨6, 0, .ro, false, 0⟩]
  | .FLT_CFG => [⟨35, 28, .rw, false, 0xa⟩, ⟨27, 12, .rw, true, 0⟩, ⟨11, 11, .rw, false, 0⟩, ⟨10, 0, .rw, false, 0x3e8⟩]
  | .FLT_SLOT_ADDR => [⟨35, 6, .ro, false, 0⟩, ⟨5, 0, .rw, false, 0⟩]
  | .FLT_SLOT_DATA => [⟨35, 0, .ro, false, 0⟩]
  | .FLT_CLEAR => [⟨35, 35, .wo, false, 0⟩, ⟨34, 34, .wo, false, 0⟩, ⟨33, 6, .ro, false, 0⟩, ⟨5, 0, .wo, false, 0⟩]
  | .FLT_CLEAR_RES => [⟨35, 35, .ro, false, 0⟩, ⟨34, 3, .ro, false, 0⟩, ⟨2, 0, .ro, false, 0⟩]
  | .FLT_BENCH_CMD => [⟨35, 35, .wo, false, 0⟩, ⟨34, 34, .ro, false, 0⟩, ⟨33, 31, .ro, false, 0⟩, ⟨30, 12, .ro, false, 0⟩, ⟨11, 0, .rw, false, 0⟩]
  | .FLT_POLICY => [⟨35, 8, .ro, false, 0⟩, ⟨7, 0, .rwl, false, 0xff⟩]
  | .FLT_WEAR_TH => [⟨35, 0, .rwl, false, 0⟩]
  | .FLT_WEAR_SEL => [⟨35, 23, .ro, false, 0⟩, ⟨22, 20, .rw, false, 0⟩, ⟨19, 16, .rw, false, 0⟩, ⟨15, 12, .ro, false, 0⟩, ⟨11, 0, .rw, false, 0⟩]
  | .FLT_WEAR => [⟨35, 35, .ro, false, 0⟩, ⟨34, 34, .ro, false, 0⟩, ⟨33, 16, .ro, false, 0⟩, ⟨15, 0, .ro, false, 0⟩]
  | .FLT_TAIL_ADDR => [⟨35, 35, .wo, false, 0⟩, ⟨34, 9, .ro, false, 0⟩, ⟨8, 4, .rw, false, 0⟩, ⟨3, 0, .rw, false, 0⟩]
  | .FLT_TAIL_DATA => [⟨35, 0, .ro, true, 0⟩]
  | .FLT_TAIL_STATUS => [⟨35, 35, .ro, true, 0⟩, ⟨34, 22, .ro, false, 0⟩, ⟨21, 16, .ro, true, 0⟩, ⟨15, 0, .ro, true, 0⟩]
  | .FLT_SPARE => [⟨35, 18, .ro, false, 0⟩, ⟨17, 0, .ro, false, 0⟩]
  | .FLT_CNT => [⟨71, 0, .ro, false, 0⟩]
  | .PWR_CTL => [⟨35, 4, .ro, false, 0⟩, ⟨3, 3, .rw, false, 1⟩, ⟨2, 2, .ro, false, 0⟩, ⟨1, 0, .wo, false, 0⟩]
  | .PWR_STATUS =>
    [⟨35, 33, .ro, false, 0⟩, ⟨32, 32, .ro, false, 0⟩, ⟨31, 31, .ro, false, 0⟩, ⟨30, 28, .ro, false, 0⟩,
     ⟨27, 20, .ro, false, 0⟩, ⟨19, 0, .ro, false, 0⟩]
  | .PWR_DOZE => [⟨35, 20, .rw, false, 0x3e8⟩, ⟨19, 16, .ro, false, 0⟩, ⟨15, 8, .rw, false, 5⟩, ⟨7, 0, .rw, false, 2⟩]
  | .PWR_AVS => [⟨35, 26, .ro, false, 0⟩, ⟨25, 16, .rw, false, 0⟩, ⟨15, 10, .ro, false, 0⟩, ⟨9, 0, .ro, false, 0⟩]
  | .PWR_THERM => [⟨35, 28, .rw, false, 0x73⟩, ⟨27, 20, .rw, false, 0x64⟩, ⟨19, 12, .ro, false, 0⟩, ⟨11, 4, .ro, false, 0⟩, ⟨3, 0, .ro, false, 0⟩]
  | .PWR_CLK => [⟨35, 35, .ro, false, 0⟩, ⟨34, 34, .ro, false, 0⟩, ⟨33, 33, .ro, false, 0⟩, ⟨32, 32, .ro, false, 0⟩, ⟨31, 0, .ro, false, 0⟩]
  | .PWR_RAIL => [⟨35, 24, .ro, false, 0⟩, ⟨23, 0, .ro, false, 0⟩]
  | .AON_STATUS =>
    [⟨35, 35, .w1c, true, 1⟩, ⟨34, 34, .ro, true, 0⟩, ⟨33, 32, .ro, true, 3⟩, ⟨31, 31, .ro, true, 0⟩,
     ⟨30, 30, .ro, true, 0⟩, ⟨29, 29, .ro, true, 0⟩, ⟨28, 28, .ro, true, 0⟩, ⟨27, 27, .ro, true, 0⟩,
     ⟨26, 0, .ro, false, 0⟩]
  | .AON_RTC => [⟨71, 63, .ro, false, 0⟩, ⟨62, 15, .rw, true, 0⟩, ⟨14, 0, .rw, true, 0⟩]
  | .AON_ALARM => [⟨35, 0, .rw, true, 0⟩]
  | .AON_SUPPLY => [⟨35, 20, .ro, false, 0⟩, ⟨19, 8, .rc, true, 0⟩, ⟨7, 7, .ro, false, 0⟩, ⟨6, 6, .ro, false, 0⟩, ⟨5, 0, .ro, false, 0⟩]
  | .AON_WDT_CFG => [⟨35, 35, .rw, true, 0⟩, ⟨34, 34, .rw, true, 0⟩, ⟨33, 16, .ro, false, 0⟩, ⟨15, 0, .rw, true, 0x800⟩]
  | .AON_WDT_KICK => [⟨35, 32, .ro, false, 0⟩, ⟨31, 16, .ro, true, 0⟩, ⟨15, 8, .rc, true, 0⟩, ⟨7, 0, .wo, false, 0⟩]
  | .AON_SEQ =>
    [⟨35, 35, .wo, false, 0⟩, ⟨34, 34, .ro, true, 0⟩, ⟨33, 31, .wo, false, 0⟩, ⟨30, 28, .ro, true, 0⟩,
     ⟨27, 24, .ro, false, 0⟩, ⟨23, 8, .rw, true, 0xc8⟩, ⟨7, 0, .ro, false, 0⟩]
  | .AON_WAKE =>
    [⟨35, 26, .ro, false, 0⟩, ⟨25, 18, .ro, true, 0⟩, ⟨17, 17, .rw, true, 1⟩, ⟨16, 16, .rw, true, 0⟩,
     ⟨15, 12, .rw, true, 0⟩, ⟨11, 0, .ro, false, 0⟩]
  | .AON_GRAVE => [⟨35, 28, .ro, true, 0⟩, ⟨27, 12, .ro, true, 0⟩, ⟨11, 0, .ro, true, 0⟩]
  | .AON_CHK => [⟨35, 35, .rw, true, 0⟩, ⟨34, 34, .ro, false, 0⟩, ⟨33, 16, .ro, false, 0⟩, ⟨15, 0, .rc, true, 0⟩]
  | .AON_CON_CFG => [⟨35, 32, .ro, false, 0⟩, ⟨31, 24, .rw, true, 0x3c⟩, ⟨23, 16, .rw, true, 0xa⟩, ⟨15, 0, .rw, true, 0x1a1⟩]
  | .AON_CON_STAT => [⟨35, 24, .rc, true, 0⟩, ⟨23, 12, .rc, true, 0⟩, ⟨11, 0, .rc, true, 0⟩]
  | .AON_TAIL_ADDR => [⟨35, 35, .wo, false, 0⟩, ⟨34, 9, .ro, false, 0⟩, ⟨8, 4, .rw, false, 0⟩, ⟨3, 0, .rw, false, 0⟩]
  | .AON_TAIL_DATA => [⟨35, 0, .ro, true, 0⟩]
  | .AON_TAIL_STATUS => [⟨35, 35, .ro, true, 0⟩, ⟨34, 22, .ro, false, 0⟩, ⟨21, 16, .ro, true, 0⟩, ⟨15, 0, .ro, true, 0⟩]
  | .AON_SAFE => [⟨35, 32, .ro, false, 0⟩, ⟨31, 0, .ro, true, 0xffffffff⟩]
  | .AON_BOOT =>
    [⟨35, 32, .ro, true, 0⟩, ⟨31, 26, .ro, true, 0x3f⟩, ⟨25, 20, .ro, true, 0x3f⟩, ⟨19, 16, .ro, true, 0⟩,
     ⟨15, 12, .ro, true, 0⟩, ⟨11, 8, .ro, true, 0⟩, ⟨7, 0, .ro, true, 0⟩]
  | .AON_SCRATCH => [⟨35, 0, .rw, true, 0⟩]
  | .TWN_CFG =>
    [⟨35, 35, .rw, false, 0⟩, ⟨34, 34, .ro, false, 0⟩, ⟨33, 24, .rw, false, 5⟩, ⟨23, 16, .rw, false, 2⟩,
     ⟨15, 8, .rw, false, 0xa⟩, ⟨7, 4, .rw, false, 3⟩, ⟨3, 0, .rw, false, 1⟩]
  | .TWN_STATUS =>
    [⟨35, 35, .ro, false, 0⟩, ⟨34, 32, .ro, false, 0⟩, ⟨31, 28, .ro, false, 0⟩, ⟨27, 27, .ro, false, 0⟩,
     ⟨26, 24, .ro, false, 0⟩, ⟨23, 23, .w1c, false, 0⟩, ⟨22, 0, .ro, false, 0⟩]
  | .TWN_MOVE =>
    [⟨35, 35, .wo, false, 0⟩, ⟨34, 34, .ro, false, 0⟩, ⟨33, 31, .ro, false, 0⟩, ⟨30, 9, .ro, false, 0⟩,
     ⟨8, 8, .rw, false, 0⟩, ⟨7, 0, .rw, false, 0⟩]
  | .TWN_SYNC => [⟨35, 34, .ro, false, 0⟩, ⟨33, 17, .rw, false, 0⟩, ⟨16, 0, .rw, false, 0⟩]
  | .TWN_XDMA => [⟨35, 17, .ro, false, 0⟩, ⟨16, 0, .rw, false, 0⟩]
  | .TWN_PEER_TIME => [⟨35, 35, .ro, false, 0⟩, ⟨34, 34, .ro, false, 0⟩, ⟨33, 20, .ro, false, 0⟩, ⟨19, 0, .ro, false, 0xfffff⟩]
  | .TWN_PEER_ID => [⟨71, 64, .ro, false, 0⟩, ⟨63, 0, .ro, false, 0⟩]
  | .TWN_LANE => [⟨35, 33, .ro, false, 0⟩, ⟨32, 32, .rw, false, 1⟩, ⟨31, 16, .rc, false, 0⟩, ⟨15, 0, .ro, false, 0⟩]
  | .TWN_CNT => [⟨71, 0, .ro, false, 0⟩]
  | .TWN_DH => [⟨35, 35, .rw, false, 0⟩, ⟨34, 34, .rw, false, 0⟩, ⟨33, 32, .ro, false, 0⟩, ⟨31, 24, .rw, false, 0⟩, ⟨23, 0, .ro, false, 0⟩]

/-- The registers of `IMG`, in address order. -/
def Reg.listIMG : List Reg :=
  [.IMG_STATUS, .IMG_CMD, .IMG_RESULT, .IMG_LEN, .IMG_SRC, .IMG_CASTLE_MASK, .IMG_CASTLE_AT, .IMG_GEN,
   .IMG_OLD_FRAMES, .IMG_SCOPE_STATE0, .IMG_SCOPE_STATE1, .IMG_ACT_SERIAL, .IMG_VIEW, .IMG_CSIG, .IMG_KEY,
   .IMG_FKEY, .IMG_FUSE, .IMG_REFUSED]

/-- The registers of `GLB`, in address order. -/
def Reg.listGLB : List Reg :=
  [.GLB_ID, .GLB_SERIAL, .GLB_FUNC, .GLB_STRAP, .GLB_STATUS, .GLB_FENCE, .GLB_BRESET, .GLB_REFUSED,
   .GLB_REFUSED_LAST, .GLB_TREF]

/-- The registers of `MAC`, in address order. -/
def Reg.listMAC : List Reg :=
  [.MAC_SEL, .MAC_CTL, .MAC_STATUS, .MAC_MODE, .MAC_TIMERS, .MAC_MM, .MAC_PAUSE, .MAC_PFC_MAP, .MAC_PAUSE_STATE,
   .MAC_LPI, .MAC_SA, .MAC_MOD, .MAC_I2C_CMD, .MAC_I2C_DATA, .MAC_PFC, .MAC_PFC_OCC, .MAC_PARTNER, .MAC_CNT,
   .MAC_I2C_BUS]

/-- The registers of `SPR`, in address order. -/
def Reg.listSPR : List Reg :=
  [.SPR_SEL, .SPR_CTL, .SPR_SLOW, .SPR_STATUS, .SPR_REORDER, .SPR_SLICE, .SPR_CNT, .SPR_LIMIT]

/-- The registers of `PRS`, in address order. -/
def Reg.listPRS : List Reg :=
  [.PRS_IND_ADDR, .PRS_IND_DATA, .PRS_TEN, .PRS_PUNT, .PRS_ADMIT, .PRS_CNT]

/-- The registers of `TBL`, in address order. -/
def Reg.listTBL : List Reg :=
  [.TBL_CMD, .TBL_ARG, .TBL_RESULT, .TBL_COMMIT_AT, .TBL_KEY, .TBL_RD, .TBL_CFG, .TBL_ECC, .TBL_ECC_LAST,
   .TBL_LEARN, .TBL_AGE, .TBL_STATUS, .TBL_LPM_STATUS, .TBL_EXTENT, .TBL_INS_FAIL, .TBL_CNT]

/-- The registers of `TCM`, in address order. -/
def Reg.listTCM : List Reg :=
  [.TCM_SEL, .TCM_CMD, .TCM_RESULT, .TCM_COMMIT_AT, .TCM_ACT, .TCM_HIT, .TCM_VAL, .TCM_CARE, .TCM_BANK,
   .TCM_BANK_CFG, .TCM_IND_ADDR, .TCM_IND_DATA, .TCM_CFG, .TCM_ERR, .TCM_ERR_LAST]

/-- The registers of `SWC`, in address order. -/
def Reg.listSWC : List Reg :=
  [.SWC_CFG, .SWC_STATUS, .SWC_WATCH_CMD, .SWC_WATCH0, .SWC_WATCH1, .SWC_MIR_A, .SWC_MIR_B, .SWC_INFLIGHT, .SWC_CNT,
   .SWC_PMIR]

/-- The registers of `BPM`, in address order. -/
def Reg.listBPM : List Reg :=
  [.BPM_ACCT, .BPM_INSPECT, .BPM_INSPECT_R, .BPM_RECLAIM, .BPM_OPRES, .BPM_BADH_LAST, .BPM_PFREE, .BPM_PMIN,
   .BPM_OCC, .BPM_COCC, .BPM_QUAR, .BPM_CNT, .BPM_PORT, .BPM_PORTUSE]

/-- The registers of `HBC`, in address order. -/
def Reg.listHBC : List Reg :=
  [.HBC_SEL, .HBC_CTL, .HBC_STACK, .HBC_PAGE, .HBC_REFRESH, .HBC_BMASK, .HBC_PC, .HBC_SCNT, .HBC_TEN, .HBC_USE,
   .HBC_INFLIGHT, .HBC_CNT, .HBC_CFG, .HBC_FREE]

/-- The registers of `SCH`, in address order. -/
def Reg.listSCH : List Reg :=
  [.SCH_SEL, .SCH_SET, .SCH_PORT, .SCH_PORT_BURST, .SCH_PORT_STATUS, .SCH_PORT_CREDIT, .SCH_VT_NOW, .SCH_SET_CFG,
   .SCH_SET_BURST, .SCH_SET_VT, .SCH_SET_CREDIT, .SCH_QPROF_LO, .SCH_QPROF_HI, .SCH_CLS_CFG, .SCH_CLS_BURST, .SCH_Q,
   .SCH_CREDIT, .SCH_CNT, .SCH_PROF_LIMIT, .SCH_PROF_RED, .SCH_PROF_DEEP]

/-- The registers of `GTE`, in address order. -/
def Reg.listGTE : List Reg :=
  [.GTE_SEL, .GTE_CTL, .GTE_BASE, .GTE_CYCLE, .GTE_IND_ADDR, .GTE_IND_DATA, .GTE_STATE, .GTE_WIN]

/-- The registers of `RWE`, in address order. -/
def Reg.listRWE : List Reg :=
  [.RWE_SEL, .RWE_CFG, .RWE_LIB, .RWE_STATUS, .RWE_ERR, .RWE_ERR_LAST, .RWE_IND_ADDR, .RWE_IND_DATA, .RWE_ENG,
   .RWE_CNT, .RWE_PCNT]

/-- The registers of `CCX`, in address order. -/
def Reg.listCCX : List Reg :=
  [.CCX_SEL, .CCX_T_CTL, .CCX_T_STATUS, .CCX_T_PC, .CCX_T_FAULT, .CCX_T_QSHARE, .CCX_T_BSHARE, .CCX_T_REG,
   .CCX_CORE, .CCX_CYCLE, .CCX_PMSEL, .CCX_PMC, .CCX_TAG, .CCX_TAG_BOUNDS, .CCX_SAMPLE, .CCX_CFG, .CCX_MIG,
   .CCX_FREE, .CCX_P_QSHARE, .CCX_P_BSHARE, .CCX_P_STATUS, .CCX_PQ, .CCX_CNT]

/-- The registers of `DMA`, in address order. -/
def Reg.listDMA : List Reg :=
  [.DMA_SEL, .DMA_CH_CTL, .DMA_CH_STATUS, .DMA_CH_HEAD, .DMA_CH_CUR, .DMA_CH_CFG, .DMA_RING_BASE, .DMA_RING_CFG,
   .DMA_RING_PROD, .DMA_RING_CONS, .DMA_RING_WB, .DMA_RING_IRQ, .DMA_RING_STAT, .DMA_CH_CNT, .DMA_RBIND,
   .DMA_UNBOUND, .DMA_WATCH, .DMA_LINK]

/-- The registers of `CPH`, in address order. -/
def Reg.listCPH : List Reg :=
  [.CPH_SEL, .CPH_LOCK, .CPH_CTL, .CPH_STATUS, .CPH_HEAD, .CPH_CUR, .CPH_CFG, .CPH_KEY_CTL, .CPH_KEY, .CPH_CNT,
   .CPH_FREE]

/-- The registers of `TIM`, in address order. -/
def Reg.listTIM : List Reg :=
  [.TIM_CFG, .TIM_STATUS, .TIM_NOW, .TIM_SEC_HI, .TIM_RATE, .TIM_STEP, .TIM_STEP_CTL, .TIM_LAST_STEP, .TIM_PPS_OUT,
   .TIM_PPS_CAP, .TIM_LOCK, .TIM_LOCK_CFG, .TIM_SYNC_ERR, .TIM_SYNCE, .TIM_CNT, .TIM_PORT_LAT]

/-- The registers of `CNT`, in address order. -/
def Reg.listCNT : List Reg :=
  [.CNT_SEL, .CNT_BANK, .CNT_VIEW, .CNT_SNAP_CTL, .CNT_SNAP_RES, .CNT_SNAP_AT, .CNT_SNAP_DST, .CNT_SNAP_LEN,
   .CNT_VIEW_SIZE, .CNT_SNAP_TIME, .CNT_CFG, .CNT_TRACE, .CNT_TRACE_BOUNDS, .CNT_TRACE_PORT, .CNT_TRACE_STAT,
   .CNT_ENTRY]

/-- The registers of `FLT`, in address order. -/
def Reg.listFLT : List Reg :=
  [.FLT_STATUS, .FLT_CFG, .FLT_SLOT_ADDR, .FLT_SLOT_DATA, .FLT_CLEAR, .FLT_CLEAR_RES, .FLT_BENCH_CMD, .FLT_POLICY,
   .FLT_WEAR_TH, .FLT_WEAR_SEL, .FLT_WEAR, .FLT_TAIL_ADDR, .FLT_TAIL_DATA, .FLT_TAIL_STATUS, .FLT_SPARE, .FLT_CNT]

/-- The registers of `PWR`, in address order. -/
def Reg.listPWR : List Reg :=
  [.PWR_CTL, .PWR_STATUS, .PWR_DOZE, .PWR_AVS, .PWR_THERM, .PWR_CLK, .PWR_RAIL]

/-- The registers of `AON`, in address order. -/
def Reg.listAON : List Reg :=
  [.AON_STATUS, .AON_RTC, .AON_ALARM, .AON_SUPPLY, .AON_WDT_CFG, .AON_WDT_KICK, .AON_SEQ, .AON_WAKE, .AON_GRAVE,
   .AON_CHK, .AON_CON_CFG, .AON_CON_STAT, .AON_TAIL_ADDR, .AON_TAIL_DATA, .AON_TAIL_STATUS, .AON_SAFE, .AON_BOOT,
   .AON_SCRATCH]

/-- The registers of `TWN`, in address order. -/
def Reg.listTWN : List Reg :=
  [.TWN_CFG, .TWN_STATUS, .TWN_MOVE, .TWN_SYNC, .TWN_XDMA, .TWN_PEER_TIME, .TWN_PEER_ID, .TWN_LANE, .TWN_CNT,
   .TWN_DH]

/-- The registers, by block. -/
def Reg.blocks : List (List Reg) :=
  [Reg.listIMG, Reg.listGLB, Reg.listMAC, Reg.listSPR, Reg.listPRS, Reg.listTBL, Reg.listTCM, Reg.listSWC, Reg.listBPM, Reg.listHBC, Reg.listSCH, Reg.listGTE, Reg.listRWE, Reg.listCCX, Reg.listDMA, Reg.listCPH, Reg.listTIM, Reg.listCNT, Reg.listFLT, Reg.listPWR, Reg.listAON, Reg.listTWN]

/-- A field of a register: the register and the field's bits. -/
structure Fld where
  reg : Reg
  hi : Nat
  lo : Nat
  deriving DecidableEq, Repr

namespace F

def IMG_STATUS.loading : Fld := ⟨.IMG_STATUS, 3, 3⟩
def IMG_STATUS.castle_pending : Fld := ⟨.IMG_STATUS, 2, 2⟩
def IMG_STATUS.drained : Fld := ⟨.IMG_STATUS, 1, 1⟩
def IMG_STATUS.active_ok : Fld := ⟨.IMG_STATUS, 0, 0⟩
def IMG_CMD.slot : Fld := ⟨.IMG_CMD, 9, 9⟩
def IMG_CMD.scope : Fld := ⟨.IMG_CMD, 8, 4⟩
def IMG_CMD.op : Fld := ⟨.IMG_CMD, 3, 0⟩
def IMG_RESULT.done : Fld := ⟨.IMG_RESULT, 35, 35⟩
def IMG_RESULT.section_ : Fld := ⟨.IMG_RESULT, 23, 16⟩
def IMG_RESULT.detail : Fld := ⟨.IMG_RESULT, 13, 8⟩
def IMG_RESULT.code : Fld := ⟨.IMG_RESULT, 5, 0⟩
def IMG_LEN.bytes : Fld := ⟨.IMG_LEN, 25, 0⟩
def IMG_SRC.addr : Fld := ⟨.IMG_SRC, 63, 0⟩
def IMG_CASTLE_MASK.scopes : Fld := ⟨.IMG_CASTLE_MASK, 16, 0⟩
def IMG_CASTLE_AT.sec : Fld := ⟨.IMG_CASTLE_AT, 71, 36⟩
def IMG_CASTLE_AT.ns : Fld := ⟨.IMG_CASTLE_AT, 35, 6⟩
def IMG_CASTLE_AT.frac : Fld := ⟨.IMG_CASTLE_AT, 5, 0⟩
def IMG_GEN.tag : Fld := ⟨.IMG_GEN, 16, 16⟩
def IMG_GEN.gen : Fld := ⟨.IMG_GEN, 15, 0⟩
def IMG_OLD_FRAMES.count : Fld := ⟨.IMG_OLD_FRAMES, 31, 0⟩
def IMG_SCOPE_STATE0.s11 : Fld := ⟨.IMG_SCOPE_STATE0, 35, 33⟩
def IMG_SCOPE_STATE0.s10 : Fld := ⟨.IMG_SCOPE_STATE0, 32, 30⟩
def IMG_SCOPE_STATE0.s9 : Fld := ⟨.IMG_SCOPE_STATE0, 29, 27⟩
def IMG_SCOPE_STATE0.s8 : Fld := ⟨.IMG_SCOPE_STATE0, 26, 24⟩
def IMG_SCOPE_STATE0.s7 : Fld := ⟨.IMG_SCOPE_STATE0, 23, 21⟩
def IMG_SCOPE_STATE0.s6 : Fld := ⟨.IMG_SCOPE_STATE0, 20, 18⟩
def IMG_SCOPE_STATE0.s5 : Fld := ⟨.IMG_SCOPE_STATE0, 17, 15⟩
def IMG_SCOPE_STATE0.s4 : Fld := ⟨.IMG_SCOPE_STATE0, 14, 12⟩
def IMG_SCOPE_STATE0.s3 : Fld := ⟨.IMG_SCOPE_STATE0, 11, 9⟩
def IMG_SCOPE_STATE0.s2 : Fld := ⟨.IMG_SCOPE_STATE0, 8, 6⟩
def IMG_SCOPE_STATE0.s1 : Fld := ⟨.IMG_SCOPE_STATE0, 5, 3⟩
def IMG_SCOPE_STATE0.s0 : Fld := ⟨.IMG_SCOPE_STATE0, 2, 0⟩
def IMG_SCOPE_STATE1.s16 : Fld := ⟨.IMG_SCOPE_STATE1, 14, 12⟩
def IMG_SCOPE_STATE1.s15 : Fld := ⟨.IMG_SCOPE_STATE1, 11, 9⟩
def IMG_SCOPE_STATE1.s14 : Fld := ⟨.IMG_SCOPE_STATE1, 8, 6⟩
def IMG_SCOPE_STATE1.s13 : Fld := ⟨.IMG_SCOPE_STATE1, 5, 3⟩
def IMG_SCOPE_STATE1.s12 : Fld := ⟨.IMG_SCOPE_STATE1, 2, 0⟩
def IMG_ACT_SERIAL.serial : Fld := ⟨.IMG_ACT_SERIAL, 63, 0⟩
def IMG_VIEW.shadow : Fld := ⟨.IMG_VIEW, 0, 0⟩
def IMG_CSIG.bytes : Fld := ⟨.IMG_CSIG, 31, 0⟩
def IMG_KEY.fused : Fld := ⟨.IMG_KEY, 0, 0⟩
def IMG_FKEY.word : Fld := ⟨.IMG_FKEY, 31, 0⟩
def IMG_FUSE.code : Fld := ⟨.IMG_FUSE, 15, 0⟩
def IMG_REFUSED.count : Fld := ⟨.IMG_REFUSED, 31, 0⟩
def GLB_ID.device : Fld := ⟨.GLB_ID, 35, 20⟩
def GLB_ID.stepping : Fld := ⟨.GLB_ID, 19, 16⟩
def GLB_ID.variant : Fld := ⟨.GLB_ID, 15, 12⟩
def GLB_ID.stacks : Fld := ⟨.GLB_ID, 11, 8⟩
def GLB_SERIAL.die : Fld := ⟨.GLB_SERIAL, 63, 0⟩
def GLB_FUNC.console : Fld := ⟨.GLB_FUNC, 5, 5⟩
def GLB_FUNC.part : Fld := ⟨.GLB_FUNC, 4, 0⟩
def GLB_STRAP.pair_id : Fld := ⟨.GLB_STRAP, 0, 0⟩
def GLB_STATUS.breset : Fld := ⟨.GLB_STATUS, 6, 6⟩
def GLB_STATUS.pstate : Fld := ⟨.GLB_STATUS, 5, 4⟩
def GLB_STATUS.safe_global : Fld := ⟨.GLB_STATUS, 2, 2⟩
def GLB_STATUS.fault : Fld := ⟨.GLB_STATUS, 1, 1⟩
def GLB_STATUS.ready : Fld := ⟨.GLB_STATUS, 0, 0⟩
def GLB_FENCE.timeout : Fld := ⟨.GLB_FENCE, 0, 0⟩
def GLB_BRESET.blocks : Fld := ⟨.GLB_BRESET, 19, 0⟩
def GLB_REFUSED.count : Fld := ⟨.GLB_REFUSED, 31, 0⟩
def GLB_REFUSED_LAST.reason : Fld := ⟨.GLB_REFUSED_LAST, 35, 32⟩
def GLB_REFUSED_LAST.write : Fld := ⟨.GLB_REFUSED_LAST, 31, 31⟩
def GLB_REFUSED_LAST.addr : Fld := ⟨.GLB_REFUSED_LAST, 25, 0⟩
def GLB_TREF.count : Fld := ⟨.GLB_TREF, 31, 0⟩
def MAC_SEL.sel_err : Fld := ⟨.MAC_SEL, 12, 12⟩
def MAC_SEL.index : Fld := ⟨.MAC_SEL, 11, 0⟩
def MAC_CTL.clr_fault : Fld := ⟨.MAC_CTL, 4, 4⟩
def MAC_CTL.restart : Fld := ⟨.MAC_CTL, 3, 3⟩
def MAC_CTL.admin_owner : Fld := ⟨.MAC_CTL, 1, 1⟩
def MAC_CTL.admin_tenant : Fld := ⟨.MAC_CTL, 0, 0⟩
def MAC_STATUS.cause : Fld := ⟨.MAC_STATUS, 23, 16⟩
def MAC_STATUS.retries : Fld := ⟨.MAC_STATUS, 15, 12⟩
def MAC_STATUS.rem_fault : Fld := ⟨.MAC_STATUS, 11, 11⟩
def MAC_STATUS.lpi_rx : Fld := ⟨.MAC_STATUS, 10, 10⟩
def MAC_STATUS.lpi_tx : Fld := ⟨.MAC_STATUS, 9, 9⟩
def MAC_STATUS.an_done : Fld := ⟨.MAC_STATUS, 8, 8⟩
def MAC_STATUS.fec_lock : Fld := ⟨.MAC_STATUS, 7, 7⟩
def MAC_STATUS.safe : Fld := ⟨.MAC_STATUS, 3, 3⟩
def MAC_STATUS.state : Fld := ⟨.MAC_STATUS, 2, 0⟩
def MAC_MODE.record : Fld := ⟨.MAC_MODE, 35, 0⟩
def MAC_TIMERS.partner_age : Fld := ⟨.MAC_TIMERS, 35, 26⟩
def MAC_TIMERS.down_hold : Fld := ⟨.MAC_TIMERS, 25, 16⟩
def MAC_TIMERS.retry_max : Fld := ⟨.MAC_TIMERS, 15, 12⟩
def MAC_TIMERS.train_to : Fld := ⟨.MAC_TIMERS, 11, 0⟩
def MAC_MM.verify_st : Fld := ⟨.MAC_MM, 15, 13⟩
def MAC_MM.active : Fld := ⟨.MAC_MM, 12, 12⟩
def MAC_MM.tx_add_frag : Fld := ⟨.MAC_MM, 11, 10⟩
def MAC_MM.verify_time : Fld := ⟨.MAC_MM, 9, 3⟩
def MAC_MM.verify_dis : Fld := ⟨.MAC_MM, 2, 2⟩
def MAC_MM.tx_en : Fld := ⟨.MAC_MM, 1, 1⟩
def MAC_MM.en : Fld := ⟨.MAC_MM, 0, 0⟩
def MAC_PAUSE.mode : Fld := ⟨.MAC_PAUSE, 35, 34⟩
def MAC_PAUSE.express_pause : Fld := ⟨.MAC_PAUSE, 33, 33⟩
def MAC_PAUSE.quanta : Fld := ⟨.MAC_PAUSE, 31, 16⟩
def MAC_PAUSE.refresh : Fld := ⟨.MAC_PAUSE, 15, 0⟩
def MAC_PFC_MAP.rx_en : Fld := ⟨.MAC_PFC_MAP, 31, 24⟩
def MAC_PFC_MAP.map : Fld := ⟨.MAC_PFC_MAP, 23, 0⟩
def MAC_PAUSE_STATE.xoff : Fld := ⟨.MAC_PAUSE_STATE, 15, 8⟩
def MAC_PAUSE_STATE.held : Fld := ⟨.MAC_PAUSE_STATE, 7, 0⟩
def MAC_LPI.en : Fld := ⟨.MAC_LPI, 16, 16⟩
def MAC_LPI.idle : Fld := ⟨.MAC_LPI, 15, 0⟩
def MAC_SA.addr : Fld := ⟨.MAC_SA, 47, 0⟩
def MAC_MOD.present_sw : Fld := ⟨.MAC_MOD, 28, 28⟩
def MAC_MOD.cmis_st : Fld := ⟨.MAC_MOD, 27, 24⟩
def MAC_MOD.present : Fld := ⟨.MAC_MOD, 23, 23⟩
def MAC_MOD.mod_to : Fld := ⟨.MAC_MOD, 22, 16⟩
def MAC_MOD.poll : Fld := ⟨.MAC_MOD, 15, 8⟩
def MAC_MOD.app : Fld := ⟨.MAC_MOD, 7, 0⟩
def MAC_I2C_CMD.go : Fld := ⟨.MAC_I2C_CMD, 35, 35⟩
def MAC_I2C_CMD.busy : Fld := ⟨.MAC_I2C_CMD, 34, 34⟩
def MAC_I2C_CMD.result : Fld := ⟨.MAC_I2C_CMD, 33, 31⟩
def MAC_I2C_CMD.write : Fld := ⟨.MAC_I2C_CMD, 30, 30⟩
def MAC_I2C_CMD.len : Fld := ⟨.MAC_I2C_CMD, 29, 26⟩
def MAC_I2C_CMD.bank : Fld := ⟨.MAC_I2C_CMD, 25, 18⟩
def MAC_I2C_CMD.page : Fld := ⟨.MAC_I2C_CMD, 17, 10⟩
def MAC_I2C_CMD.offset : Fld := ⟨.MAC_I2C_CMD, 7, 0⟩
def MAC_I2C_DATA.hi : Fld := ⟨.MAC_I2C_DATA, 67, 36⟩
def MAC_I2C_DATA.lo : Fld := ⟨.MAC_I2C_DATA, 31, 0⟩
def MAC_PFC.xoff : Fld := ⟨.MAC_PFC, 35, 24⟩
def MAC_PFC.xon : Fld := ⟨.MAC_PFC, 23, 12⟩
def MAC_PFC.hdrm : Fld := ⟨.MAC_PFC, 11, 0⟩
def MAC_PFC_OCC.hdrm_ok : Fld := ⟨.MAC_PFC_OCC, 20, 20⟩
def MAC_PFC_OCC.count : Fld := ⟨.MAC_PFC_OCC, 19, 0⟩
def MAC_PARTNER.valid : Fld := ⟨.MAC_PARTNER, 35, 35⟩
def MAC_PARTNER.tenant : Fld := ⟨.MAC_PARTNER, 34, 30⟩
def MAC_PARTNER.age : Fld := ⟨.MAC_PARTNER, 29, 20⟩
def MAC_PARTNER.key : Fld := ⟨.MAC_PARTNER, 15, 0⟩
def MAC_CNT.count : Fld := ⟨.MAC_CNT, 71, 0⟩
def MAC_I2C_BUS.speed : Fld := ⟨.MAC_I2C_BUS, 7, 0⟩
def SPR_SEL.sel_err : Fld := ⟨.SPR_SEL, 12, 12⟩
def SPR_SEL.index : Fld := ⟨.SPR_SEL, 11, 0⟩
def SPR_CTL.min_awake : Fld := ⟨.SPR_CTL, 35, 32⟩
def SPR_CTL.headroom : Fld := ⟨.SPR_CTL, 31, 28⟩
def SPR_CTL.util : Fld := ⟨.SPR_CTL, 27, 21⟩
def SPR_CTL.wake_mark : Fld := ⟨.SPR_CTL, 20, 12⟩
def SPR_CTL.sleep_idle : Fld := ⟨.SPR_CTL, 11, 0⟩
def SPR_SLOW.mark : Fld := ⟨.SPR_SLOW, 35, 27⟩
def SPR_SLOW.thresh : Fld := ⟨.SPR_SLOW, 26, 16⟩
def SPR_SLOW.window : Fld := ⟨.SPR_SLOW, 15, 0⟩
def SPR_STATUS.awake : Fld := ⟨.SPR_STATUS, 35, 32⟩
def SPR_STATUS.wait_gen : Fld := ⟨.SPR_STATUS, 31, 18⟩
def SPR_STATUS.wait_exp : Fld := ⟨.SPR_STATUS, 17, 8⟩
def SPR_STATUS.target : Fld := ⟨.SPR_STATUS, 7, 4⟩
def SPR_REORDER.peak : Fld := ⟨.SPR_REORDER, 29, 15⟩
def SPR_REORDER.held : Fld := ⟨.SPR_REORDER, 14, 0⟩
def SPR_SLICE.state : Fld := ⟨.SPR_SLICE, 35, 33⟩
def SPR_SLICE.slow : Fld := ⟨.SPR_SLICE, 32, 32⟩
def SPR_SLICE.credits : Fld := ⟨.SPR_SLICE, 31, 25⟩
def SPR_SLICE.slowness : Fld := ⟨.SPR_SLICE, 24, 10⟩
def SPR_SLICE.freq : Fld := ⟨.SPR_SLICE, 9, 5⟩
def SPR_CNT.count : Fld := ⟨.SPR_CNT, 71, 0⟩
def SPR_LIMIT.limit : Fld := ⟨.SPR_LIMIT, 11, 0⟩
def PRS_IND_ADDR.space : Fld := ⟨.PRS_IND_ADDR, 35, 33⟩
def PRS_IND_ADDR.err : Fld := ⟨.PRS_IND_ADDR, 32, 32⟩
def PRS_IND_ADDR.part : Fld := ⟨.PRS_IND_ADDR, 30, 26⟩
def PRS_IND_ADDR.index : Fld := ⟨.PRS_IND_ADDR, 25, 16⟩
def PRS_IND_ADDR.word : Fld := ⟨.PRS_IND_ADDR, 5, 0⟩
def PRS_IND_DATA.data : Fld := ⟨.PRS_IND_DATA, 35, 0⟩
def PRS_TEN.nomatch_punt : Fld := ⟨.PRS_TEN, 0, 0⟩
def PRS_PUNT.queue : Fld := ⟨.PRS_PUNT, 35, 32⟩
def PRS_PUNT.burst : Fld := ⟨.PRS_PUNT, 31, 24⟩
def PRS_PUNT.rate : Fld := ⟨.PRS_PUNT, 19, 0⟩
def PRS_ADMIT.burst : Fld := ⟨.PRS_ADMIT, 35, 20⟩
def PRS_ADMIT.rate : Fld := ⟨.PRS_ADMIT, 19, 0⟩
def PRS_CNT.count : Fld := ⟨.PRS_CNT, 71, 0⟩
def TBL_CMD.op : Fld := ⟨.TBL_CMD, 35, 32⟩
def TBL_CMD.notify : Fld := ⟨.TBL_CMD, 31, 31⟩
def TBL_CMD.static : Fld := ⟨.TBL_CMD, 30, 30⟩
def TBL_CMD.width : Fld := ⟨.TBL_CMD, 29, 28⟩
def TBL_CMD.region : Fld := ⟨.TBL_CMD, 27, 26⟩
def TBL_CMD.part : Fld := ⟨.TBL_CMD, 25, 21⟩
def TBL_CMD.plen : Fld := ⟨.TBL_CMD, 20, 13⟩
def TBL_CMD.v6 : Fld := ⟨.TBL_CMD, 12, 12⟩
def TBL_ARG.vrf : Fld := ⟨.TBL_ARG, 33, 22⟩
def TBL_ARG.value : Fld := ⟨.TBL_ARG, 21, 0⟩
def TBL_RESULT.done : Fld := ⟨.TBL_RESULT, 35, 35⟩
def TBL_RESULT.seq : Fld := ⟨.TBL_RESULT, 34, 23⟩
def TBL_RESULT.moves : Fld := ⟨.TBL_RESULT, 22, 13⟩
def TBL_RESULT.status : Fld := ⟨.TBL_RESULT, 5, 0⟩
def TBL_COMMIT_AT.sec : Fld := ⟨.TBL_COMMIT_AT, 71, 36⟩
def TBL_COMMIT_AT.ns : Fld := ⟨.TBL_COMMIT_AT, 35, 6⟩
def TBL_COMMIT_AT.frac : Fld := ⟨.TBL_COMMIT_AT, 5, 0⟩
def TBL_KEY.word : Fld := ⟨.TBL_KEY, 35, 0⟩
def TBL_RD.word : Fld := ⟨.TBL_RD, 35, 0⟩
def TBL_CFG.displace : Fld := ⟨.TBL_CFG, 35, 26⟩
def TBL_CFG.scrub : Fld := ⟨.TBL_CFG, 25, 18⟩
def TBL_CFG.filter : Fld := ⟨.TBL_CFG, 17, 12⟩
def TBL_CFG.idle : Fld := ⟨.TBL_CFG, 11, 0⟩
def TBL_ECC.uncorr : Fld := ⟨.TBL_ECC, 35, 18⟩
def TBL_ECC.corr : Fld := ⟨.TBL_ECC, 17, 0⟩
def TBL_ECC_LAST.bank : Fld := ⟨.TBL_ECC_LAST, 35, 24⟩
def TBL_ECC_LAST.uncorr : Fld := ⟨.TBL_ECC_LAST, 21, 21⟩
def TBL_ECC_LAST.unit : Fld := ⟨.TBL_ECC_LAST, 20, 0⟩
def TBL_LEARN.sink : Fld := ⟨.TBL_LEARN, 35, 34⟩
def TBL_LEARN.queue : Fld := ⟨.TBL_LEARN, 33, 30⟩
def TBL_LEARN.chan : Fld := ⟨.TBL_LEARN, 29, 26⟩
def TBL_LEARN.move_en : Fld := ⟨.TBL_LEARN, 25, 25⟩
def TBL_AGE.period : Fld := ⟨.TBL_AGE, 35, 20⟩
def TBL_AGE.auto_del : Fld := ⟨.TBL_AGE, 19, 19⟩
def TBL_AGE.src_hit : Fld := ⟨.TBL_AGE, 18, 18⟩
def TBL_STATUS.em_used : Fld := ⟨.TBL_STATUS, 20, 0⟩
def TBL_LPM_STATUS.lpm_hi : Fld := ⟨.TBL_LPM_STATUS, 30, 20⟩
def TBL_LPM_STATUS.lpm_used : Fld := ⟨.TBL_LPM_STATUS, 19, 0⟩
def TBL_EXTENT.mcl_hi : Fld := ⟨.TBL_EXTENT, 32, 22⟩
def TBL_EXTENT.nh_hi : Fld := ⟨.TBL_EXTENT, 21, 11⟩
def TBL_EXTENT.act_hi : Fld := ⟨.TBL_EXTENT, 10, 0⟩
def TBL_INS_FAIL.count : Fld := ⟨.TBL_INS_FAIL, 31, 0⟩
def TBL_CNT.count : Fld := ⟨.TBL_CNT, 71, 0⟩
def TCM_SEL.sel_err : Fld := ⟨.TCM_SEL, 12, 12⟩
def TCM_SEL.index : Fld := ⟨.TCM_SEL, 11, 0⟩
def TCM_CMD.op : Fld := ⟨.TCM_CMD, 35, 32⟩
def TCM_CMD.notify : Fld := ⟨.TCM_CMD, 31, 31⟩
def TCM_CMD.entry : Fld := ⟨.TCM_CMD, 29, 20⟩
def TCM_RESULT.done : Fld := ⟨.TCM_RESULT, 35, 35⟩
def TCM_RESULT.seq : Fld := ⟨.TCM_RESULT, 34, 23⟩
def TCM_RESULT.valid : Fld := ⟨.TCM_RESULT, 22, 22⟩
def TCM_RESULT.status : Fld := ⟨.TCM_RESULT, 5, 0⟩
def TCM_COMMIT_AT.sec : Fld := ⟨.TCM_COMMIT_AT, 71, 36⟩
def TCM_COMMIT_AT.ns : Fld := ⟨.TCM_COMMIT_AT, 35, 6⟩
def TCM_COMMIT_AT.frac : Fld := ⟨.TCM_COMMIT_AT, 5, 0⟩
def TCM_ACT.action : Fld := ⟨.TCM_ACT, 35, 0⟩
def TCM_HIT.count : Fld := ⟨.TCM_HIT, 47, 0⟩
def TCM_VAL.word : Fld := ⟨.TCM_VAL, 35, 0⟩
def TCM_CARE.word : Fld := ⟨.TCM_CARE, 35, 0⟩
def TCM_BANK.state : Fld := ⟨.TCM_BANK, 35, 33⟩
def TCM_BANK.phys : Fld := ⟨.TCM_BANK, 32, 27⟩
def TCM_BANK.owner : Fld := ⟨.TCM_BANK, 26, 22⟩
def TCM_BANK.repair : Fld := ⟨.TCM_BANK, 21, 17⟩
def TCM_BANK.margin : Fld := ⟨.TCM_BANK, 16, 11⟩
def TCM_BANK.valid : Fld := ⟨.TCM_BANK, 10, 0⟩
def TCM_BANK_CFG.header : Fld := ⟨.TCM_BANK_CFG, 35, 0⟩
def TCM_IND_ADDR.space : Fld := ⟨.TCM_IND_ADDR, 35, 35⟩
def TCM_IND_ADDR.err : Fld := ⟨.TCM_IND_ADDR, 34, 34⟩
def TCM_IND_ADDR.profile : Fld := ⟨.TCM_IND_ADDR, 15, 8⟩
def TCM_IND_ADDR.mprof : Fld := ⟨.TCM_IND_ADDR, 7, 4⟩
def TCM_IND_ADDR.word : Fld := ⟨.TCM_IND_ADDR, 3, 0⟩
def TCM_IND_DATA.data : Fld := ⟨.TCM_IND_DATA, 35, 0⟩
def TCM_CFG.scrub : Fld := ⟨.TCM_CFG, 19, 12⟩
def TCM_CFG.idle : Fld := ⟨.TCM_CFG, 11, 0⟩
def TCM_ERR.rows : Fld := ⟨.TCM_ERR, 35, 18⟩
def TCM_ERR.corr : Fld := ⟨.TCM_ERR, 17, 0⟩
def TCM_ERR_LAST.bank : Fld := ⟨.TCM_ERR_LAST, 35, 24⟩
def TCM_ERR_LAST.action : Fld := ⟨.TCM_ERR_LAST, 10, 10⟩
def TCM_ERR_LAST.row : Fld := ⟨.TCM_ERR_LAST, 9, 0⟩
def SWC_CFG.punt_limit : Fld := ⟨.SWC_CFG, 16, 1⟩
def SWC_CFG.ct_en : Fld := ⟨.SWC_CFG, 0, 0⟩
def SWC_STATUS.cf3 : Fld := ⟨.SWC_STATUS, 35, 27⟩
def SWC_STATUS.cf2 : Fld := ⟨.SWC_STATUS, 26, 18⟩
def SWC_STATUS.cf1 : Fld := ⟨.SWC_STATUS, 17, 9⟩
def SWC_STATUS.cf0 : Fld := ⟨.SWC_STATUS, 8, 0⟩
def SWC_WATCH_CMD.go : Fld := ⟨.SWC_WATCH_CMD, 35, 35⟩
def SWC_WATCH_CMD.write : Fld := ⟨.SWC_WATCH_CMD, 34, 34⟩
def SWC_WATCH_CMD.result : Fld := ⟨.SWC_WATCH_CMD, 33, 32⟩
def SWC_WATCH_CMD.index : Fld := ⟨.SWC_WATCH_CMD, 11, 0⟩
def SWC_WATCH0.valid : Fld := ⟨.SWC_WATCH0, 35, 35⟩
def SWC_WATCH0.session : Fld := ⟨.SWC_WATCH0, 34, 31⟩
def SWC_WATCH0.part : Fld := ⟨.SWC_WATCH0, 30, 26⟩
def SWC_WATCH1.meta : Fld := ⟨.SWC_WATCH1, 35, 0⟩
def SWC_MIR_A.valid : Fld := ⟨.SWC_MIR_A, 35, 35⟩
def SWC_MIR_A.trunc : Fld := ⟨.SWC_MIR_A, 34, 33⟩
def SWC_MIR_A.class_ : Fld := ⟨.SWC_MIR_A, 32, 30⟩
def SWC_MIR_A.qset : Fld := ⟨.SWC_MIR_A, 29, 26⟩
def SWC_MIR_A.port : Fld := ⟨.SWC_MIR_A, 25, 18⟩
def SWC_MIR_A.part_mask : Fld := ⟨.SWC_MIR_A, 16, 0⟩
def SWC_MIR_B.sample : Fld := ⟨.SWC_MIR_B, 15, 0⟩
def SWC_INFLIGHT.bytes : Fld := ⟨.SWC_INFLIGHT, 71, 36⟩
def SWC_INFLIGHT.copies : Fld := ⟨.SWC_INFLIGHT, 35, 0⟩
def SWC_CNT.count : Fld := ⟨.SWC_CNT, 71, 0⟩
def SWC_PMIR.in_en : Fld := ⟨.SWC_PMIR, 9, 9⟩
def SWC_PMIR.in_sess : Fld := ⟨.SWC_PMIR, 8, 5⟩
def SWC_PMIR.eg_en : Fld := ⟨.SWC_PMIR, 4, 4⟩
def SWC_PMIR.eg_sess : Fld := ⟨.SWC_PMIR, 3, 0⟩
def BPM_ACCT.used : Fld := ⟨.BPM_ACCT, 19, 0⟩
def BPM_INSPECT.handle : Fld := ⟨.BPM_INSPECT, 35, 0⟩
def BPM_INSPECT_R.state : Fld := ⟨.BPM_INSPECT_R, 35, 34⟩
def BPM_INSPECT_R.count : Fld := ⟨.BPM_INSPECT_R, 33, 20⟩
def BPM_INSPECT_R.tag : Fld := ⟨.BPM_INSPECT_R, 19, 8⟩
def BPM_INSPECT_R.part : Fld := ⟨.BPM_INSPECT_R, 4, 0⟩
def BPM_RECLAIM.handle : Fld := ⟨.BPM_RECLAIM, 35, 0⟩
def BPM_OPRES.done : Fld := ⟨.BPM_OPRES, 35, 35⟩
def BPM_OPRES.status : Fld := ⟨.BPM_OPRES, 5, 0⟩
def BPM_BADH_LAST.unit : Fld := ⟨.BPM_BADH_LAST, 35, 24⟩
def BPM_BADH_LAST.pool : Fld := ⟨.BPM_BADH_LAST, 23, 20⟩
def BPM_BADH_LAST.op : Fld := ⟨.BPM_BADH_LAST, 19, 16⟩
def BPM_PFREE.free : Fld := ⟨.BPM_PFREE, 31, 0⟩
def BPM_PMIN.min : Fld := ⟨.BPM_PMIN, 31, 0⟩
def BPM_OCC.units : Fld := ⟨.BPM_OCC, 19, 0⟩
def BPM_COCC.units : Fld := ⟨.BPM_COCC, 19, 0⟩
def BPM_QUAR.buffers : Fld := ⟨.BPM_QUAR, 19, 0⟩
def BPM_CNT.count : Fld := ⟨.BPM_CNT, 71, 0⟩
def BPM_PORT.ing_limit : Fld := ⟨.BPM_PORT, 19, 0⟩
def BPM_PORTUSE.frames : Fld := ⟨.BPM_PORTUSE, 35, 20⟩
def BPM_PORTUSE.units : Fld := ⟨.BPM_PORTUSE, 19, 0⟩
def HBC_SEL.sel_err : Fld := ⟨.HBC_SEL, 12, 12⟩
def HBC_SEL.index : Fld := ⟨.HBC_SEL, 11, 0⟩
def HBC_CTL.pc : Fld := ⟨.HBC_CTL, 6, 2⟩
def HBC_CTL.op : Fld := ⟨.HBC_CTL, 1, 0⟩
def HBC_STACK.state : Fld := ⟨.HBC_STACK, 35, 33⟩
def HBC_STACK.bench : Fld := ⟨.HBC_STACK, 32, 27⟩
def HBC_STACK.temp : Fld := ⟨.HBC_STACK, 26, 20⟩
def HBC_STACK.mask_err : Fld := ⟨.HBC_STACK, 19, 19⟩
def HBC_STACK.free : Fld := ⟨.HBC_STACK, 18, 0⟩
def HBC_PAGE.age_max : Fld := ⟨.HBC_PAGE, 25, 16⟩
def HBC_PAGE.close_th : Fld := ⟨.HBC_PAGE, 15, 12⟩
def HBC_PAGE.open_max : Fld := ⟨.HBC_PAGE, 11, 0⟩
def HBC_REFRESH.rate : Fld := ⟨.HBC_REFRESH, 2, 1⟩
def HBC_REFRESH.all_bank : Fld := ⟨.HBC_REFRESH, 0, 0⟩
def HBC_BMASK.mask : Fld := ⟨.HBC_BMASK, 21, 0⟩
def HBC_PC.state : Fld := ⟨.HBC_PC, 35, 33⟩
def HBC_PC.logical : Fld := ⟨.HBC_PC, 32, 28⟩
def HBC_PC.used : Fld := ⟨.HBC_PC, 27, 14⟩
def HBC_PC.credits : Fld := ⟨.HBC_PC, 13, 7⟩
def HBC_PC.spare : Fld := ⟨.HBC_PC, 6, 3⟩
def HBC_PC.trend : Fld := ⟨.HBC_PC, 2, 0⟩
def HBC_SCNT.count : Fld := ⟨.HBC_SCNT, 71, 0⟩
def HBC_TEN.rd_weight : Fld := ⟨.HBC_TEN, 15, 8⟩
def HBC_TEN.wr_weight : Fld := ⟨.HBC_TEN, 7, 0⟩
def HBC_USE.blocks : Fld := ⟨.HBC_USE, 20, 0⟩
def HBC_INFLIGHT.bytes : Fld := ⟨.HBC_INFLIGHT, 71, 36⟩
def HBC_INFLIGHT.copies : Fld := ⟨.HBC_INFLIGHT, 35, 0⟩
def HBC_CNT.count : Fld := ⟨.HBC_CNT, 71, 0⟩
def HBC_CFG.ahead : Fld := ⟨.HBC_CFG, 35, 32⟩
def HBC_CFG.retrain : Fld := ⟨.HBC_CFG, 31, 24⟩
def HBC_CFG.copy_rate : Fld := ⟨.HBC_CFG, 23, 16⟩
def HBC_CFG.pd_idle : Fld := ⟨.HBC_CFG, 15, 0⟩
def HBC_FREE.free : Fld := ⟨.HBC_FREE, 20, 0⟩
def SCH_SEL.sel_err : Fld := ⟨.SCH_SEL, 12, 12⟩
def SCH_SEL.index : Fld := ⟨.SCH_SEL, 11, 0⟩
def SCH_SET.set_ : Fld := ⟨.SCH_SET, 3, 0⟩
def SCH_PORT.overhead : Fld := ⟨.SCH_PORT, 35, 30⟩
def SCH_PORT.grow : Fld := ⟨.SCH_PORT, 29, 22⟩
def SCH_PORT.rate : Fld := ⟨.SCH_PORT, 20, 0⟩
def SCH_PORT_BURST.burst : Fld := ⟨.SCH_PORT_BURST, 19, 0⟩
def SCH_PORT_STATUS.serving : Fld := ⟨.SCH_PORT_STATUS, 35, 35⟩
def SCH_PORT_STATUS.hold : Fld := ⟨.SCH_PORT_STATUS, 34, 34⟩
def SCH_PORT_STATUS.ready : Fld := ⟨.SCH_PORT_STATUS, 33, 26⟩
def SCH_PORT_CREDIT.credit : Fld := ⟨.SCH_PORT_CREDIT, 35, 0⟩
def SCH_VT_NOW.vt : Fld := ⟨.SCH_VT_NOW, 35, 0⟩
def SCH_SET_CFG.weight : Fld := ⟨.SCH_SET_CFG, 35, 28⟩
def SCH_SET_CFG.rate : Fld := ⟨.SCH_SET_CFG, 20, 0⟩
def SCH_SET_BURST.burst : Fld := ⟨.SCH_SET_BURST, 19, 0⟩
def SCH_SET_VT.vt : Fld := ⟨.SCH_SET_VT, 35, 0⟩
def SCH_SET_CREDIT.credit : Fld := ⟨.SCH_SET_CREDIT, 35, 0⟩
def SCH_QPROF_LO.prof5 : Fld := ⟨.SCH_QPROF_LO, 35, 30⟩
def SCH_QPROF_LO.prof4 : Fld := ⟨.SCH_QPROF_LO, 29, 24⟩
def SCH_QPROF_LO.prof3 : Fld := ⟨.SCH_QPROF_LO, 23, 18⟩
def SCH_QPROF_LO.prof2 : Fld := ⟨.SCH_QPROF_LO, 17, 12⟩
def SCH_QPROF_LO.prof1 : Fld := ⟨.SCH_QPROF_LO, 11, 6⟩
def SCH_QPROF_LO.prof0 : Fld := ⟨.SCH_QPROF_LO, 5, 0⟩
def SCH_QPROF_HI.prof7 : Fld := ⟨.SCH_QPROF_HI, 11, 6⟩
def SCH_QPROF_HI.prof6 : Fld := ⟨.SCH_QPROF_HI, 5, 0⟩
def SCH_CLS_CFG.weight : Fld := ⟨.SCH_CLS_CFG, 35, 28⟩
def SCH_CLS_CFG.rate : Fld := ⟨.SCH_CLS_CFG, 20, 0⟩
def SCH_CLS_BURST.burst : Fld := ⟨.SCH_CLS_BURST, 19, 0⟩
def SCH_Q.deep : Fld := ⟨.SCH_Q, 35, 35⟩
def SCH_Q.eligible : Fld := ⟨.SCH_Q, 34, 34⟩
def SCH_Q.occ : Fld := ⟨.SCH_Q, 31, 0⟩
def SCH_CREDIT.credit : Fld := ⟨.SCH_CREDIT, 35, 0⟩
def SCH_CNT.count : Fld := ⟨.SCH_CNT, 71, 0⟩
def SCH_PROF_LIMIT.limit : Fld := ⟨.SCH_PROF_LIMIT, 31, 0⟩
def SCH_PROF_RED.red_pol : Fld := ⟨.SCH_PROF_RED, 35, 34⟩
def SCH_PROF_RED.red_th : Fld := ⟨.SCH_PROF_RED, 19, 0⟩
def SCH_PROF_DEEP.deep_th : Fld := ⟨.SCH_PROF_DEEP, 35, 16⟩
def SCH_PROF_DEEP.refill : Fld := ⟨.SCH_PROF_DEEP, 15, 0⟩
def GTE_SEL.sel_err : Fld := ⟨.GTE_SEL, 12, 12⟩
def GTE_SEL.index : Fld := ⟨.GTE_SEL, 11, 0⟩
def GTE_CTL.en : Fld := ⟨.GTE_CTL, 35, 35⟩
def GTE_CTL.len : Fld := ⟨.GTE_CTL, 8, 0⟩
def GTE_BASE.sec : Fld := ⟨.GTE_BASE, 71, 36⟩
def GTE_BASE.ns : Fld := ⟨.GTE_BASE, 35, 6⟩
def GTE_BASE.frac : Fld := ⟨.GTE_BASE, 5, 0⟩
def GTE_CYCLE.cycle : Fld := ⟨.GTE_CYCLE, 29, 0⟩
def GTE_IND_ADDR.err : Fld := ⟨.GTE_IND_ADDR, 35, 35⟩
def GTE_IND_ADDR.entry : Fld := ⟨.GTE_IND_ADDR, 7, 0⟩
def GTE_IND_DATA.data : Fld := ⟨.GTE_IND_DATA, 35, 0⟩
def GTE_STATE.gates : Fld := ⟨.GTE_STATE, 35, 28⟩
def GTE_STATE.hold : Fld := ⟨.GTE_STATE, 27, 27⟩
def GTE_STATE.started : Fld := ⟨.GTE_STATE, 26, 26⟩
def GTE_STATE.entry : Fld := ⟨.GTE_STATE, 7, 0⟩
def GTE_WIN.always : Fld := ⟨.GTE_WIN, 35, 35⟩
def GTE_WIN.window : Fld := ⟨.GTE_WIN, 29, 0⟩
def RWE_SEL.sel_err : Fld := ⟨.RWE_SEL, 12, 12⟩
def RWE_SEL.index : Fld := ⟨.RWE_SEL, 11, 0⟩
def RWE_CFG.instr_max : Fld := ⟨.RWE_CFG, 31, 24⟩
def RWE_CFG.stall_max : Fld := ⟨.RWE_CFG, 23, 8⟩
def RWE_CFG.slow_freq : Fld := ⟨.RWE_CFG, 7, 4⟩
def RWE_LIB.release : Fld := ⟨.RWE_LIB, 35, 32⟩
def RWE_LIB.crc : Fld := ⟨.RWE_LIB, 31, 0⟩
def RWE_STATUS.active : Fld := ⟨.RWE_STATUS, 35, 31⟩
def RWE_STATUS.busy : Fld := ⟨.RWE_STATUS, 30, 26⟩
def RWE_STATUS.stalled : Fld := ⟨.RWE_STATUS, 25, 21⟩
def RWE_STATUS.lat_b0 : Fld := ⟨.RWE_STATUS, 20, 16⟩
def RWE_STATUS.lat_b1 : Fld := ⟨.RWE_STATUS, 15, 11⟩
def RWE_STATUS.waiting : Fld := ⟨.RWE_STATUS, 10, 0⟩
def RWE_ERR.active_write : Fld := ⟨.RWE_ERR, 35, 35⟩
def RWE_ERR.store_uncorr : Fld := ⟨.RWE_ERR, 34, 34⟩
def RWE_ERR.prog_err : Fld := ⟨.RWE_ERR, 33, 33⟩
def RWE_ERR.engine : Fld := ⟨.RWE_ERR, 32, 32⟩
def RWE_ERR_LAST.code : Fld := ⟨.RWE_ERR_LAST, 35, 32⟩
def RWE_ERR_LAST.unit : Fld := ⟨.RWE_ERR_LAST, 31, 20⟩
def RWE_ERR_LAST.edit : Fld := ⟨.RWE_ERR_LAST, 19, 8⟩
def RWE_ERR_LAST.word : Fld := ⟨.RWE_ERR_LAST, 7, 4⟩
def RWE_IND_ADDR.space : Fld := ⟨.RWE_IND_ADDR, 35, 34⟩
def RWE_IND_ADDR.err : Fld := ⟨.RWE_IND_ADDR, 33, 33⟩
def RWE_IND_ADDR.index : Fld := ⟨.RWE_IND_ADDR, 27, 14⟩
def RWE_IND_ADDR.word : Fld := ⟨.RWE_IND_ADDR, 3, 0⟩
def RWE_IND_DATA.data : Fld := ⟨.RWE_IND_DATA, 35, 0⟩
def RWE_ENG.state : Fld := ⟨.RWE_ENG, 35, 33⟩
def RWE_ENG.slow : Fld := ⟨.RWE_ENG, 32, 32⟩
def RWE_ENG.credits : Fld := ⟨.RWE_ENG, 31, 30⟩
def RWE_ENG.freq : Fld := ⟨.RWE_ENG, 29, 25⟩
def RWE_ENG.stalled : Fld := ⟨.RWE_ENG, 24, 24⟩
def RWE_ENG.bank : Fld := ⟨.RWE_ENG, 23, 23⟩
def RWE_ENG.busy : Fld := ⟨.RWE_ENG, 22, 22⟩
def RWE_ENG.edit : Fld := ⟨.RWE_ENG, 21, 10⟩
def RWE_CNT.count : Fld := ⟨.RWE_CNT, 71, 0⟩
def RWE_PCNT.count : Fld := ⟨.RWE_PCNT, 71, 0⟩
def CCX_SEL.sel_err : Fld := ⟨.CCX_SEL, 12, 12⟩
def CCX_SEL.index : Fld := ⟨.CCX_SEL, 11, 0⟩
def CCX_T_CTL.op : Fld := ⟨.CCX_T_CTL, 24, 22⟩
def CCX_T_CTL.mode : Fld := ⟨.CCX_T_CTL, 21, 21⟩
def CCX_T_CTL.pc : Fld := ⟨.CCX_T_CTL, 20, 0⟩
def CCX_T_STATUS.state : Fld := ⟨.CCX_T_STATUS, 35, 32⟩
def CCX_T_STATUS.mode : Fld := ⟨.CCX_T_STATUS, 31, 31⟩
def CCX_T_STATUS.part : Fld := ⟨.CCX_T_STATUS, 30, 26⟩
def CCX_T_STATUS.super : Fld := ⟨.CCX_T_STATUS, 25, 25⟩
def CCX_T_STATUS.evpend : Fld := ⟨.CCX_T_STATUS, 15, 0⟩
def CCX_T_PC.pc : Fld := ⟨.CCX_T_PC, 35, 0⟩
def CCX_T_FAULT.code : Fld := ⟨.CCX_T_FAULT, 35, 28⟩
def CCX_T_FAULT.count : Fld := ⟨.CCX_T_FAULT, 27, 16⟩
def CCX_T_QSHARE.qmask : Fld := ⟨.CCX_T_QSHARE, 31, 0⟩
def CCX_T_BSHARE.held : Fld := ⟨.CCX_T_BSHARE, 31, 16⟩
def CCX_T_BSHARE.bufmax : Fld := ⟨.CCX_T_BSHARE, 15, 0⟩
def CCX_T_REG.value : Fld := ⟨.CCX_T_REG, 35, 0⟩
def CCX_CORE.state : Fld := ⟨.CCX_CORE, 35, 34⟩
def CCX_CORE.phys : Fld := ⟨.CCX_CORE, 33, 29⟩
def CCX_CORE.slow : Fld := ⟨.CCX_CORE, 28, 28⟩
def CCX_CORE.freq : Fld := ⟨.CCX_CORE, 27, 23⟩
def CCX_CORE.busy : Fld := ⟨.CCX_CORE, 22, 15⟩
def CCX_CYCLE.cycles : Fld := ⟨.CCX_CYCLE, 71, 0⟩
def CCX_PMSEL.tmask : Fld := ⟨.CCX_PMSEL, 35, 28⟩
def CCX_PMSEL.user : Fld := ⟨.CCX_PMSEL, 27, 27⟩
def CCX_PMSEL.super : Fld := ⟨.CCX_PMSEL, 26, 26⟩
def CCX_PMSEL.ovf : Fld := ⟨.CCX_PMSEL, 25, 25⟩
def CCX_PMSEL.own : Fld := ⟨.CCX_PMSEL, 24, 20⟩
def CCX_PMSEL.event : Fld := ⟨.CCX_PMSEL, 7, 0⟩
def CCX_PMC.count : Fld := ⟨.CCX_PMC, 35, 0⟩
def CCX_TAG.en : Fld := ⟨.CCX_TAG, 35, 35⟩
def CCX_TAG.tmask : Fld := ⟨.CCX_TAG, 34, 27⟩
def CCX_TAG.head : Fld := ⟨.CCX_TAG, 3, 0⟩
def CCX_TAG_BOUNDS.max : Fld := ⟨.CCX_TAG_BOUNDS, 35, 18⟩
def CCX_TAG_BOUNDS.min : Fld := ⟨.CCX_TAG_BOUNDS, 17, 0⟩
def CCX_SAMPLE.word : Fld := ⟨.CCX_SAMPLE, 35, 0⟩
def CCX_CFG.slow_freq : Fld := ⟨.CCX_CFG, 35, 32⟩
def CCX_CFG.reg_sel : Fld := ⟨.CCX_CFG, 4, 0⟩
def CCX_MIG.go : Fld := ⟨.CCX_MIG, 35, 35⟩
def CCX_MIG.done : Fld := ⟨.CCX_MIG, 34, 34⟩
def CCX_MIG.result : Fld := ⟨.CCX_MIG, 33, 31⟩
def CCX_MIG.pos : Fld := ⟨.CCX_MIG, 30, 26⟩
def CCX_FREE.free : Fld := ⟨.CCX_FREE, 7, 0⟩
def CCX_P_QSHARE.dyn_q : Fld := ⟨.CCX_P_QSHARE, 31, 0⟩
def CCX_P_BSHARE.dyn_buf : Fld := ⟨.CCX_P_BSHARE, 19, 0⟩
def CCX_P_STATUS.static : Fld := ⟨.CCX_P_STATUS, 35, 28⟩
def CCX_P_STATUS.drawn : Fld := ⟨.CCX_P_STATUS, 27, 20⟩
def CCX_P_STATUS.dyn_used : Fld := ⟨.CCX_P_STATUS, 19, 0⟩
def CCX_PQ.sink : Fld := ⟨.CCX_PQ, 35, 35⟩
def CCX_PQ.chan : Fld := ⟨.CCX_PQ, 34, 31⟩
def CCX_CNT.count : Fld := ⟨.CCX_CNT, 71, 0⟩
def DMA_SEL.sel_err : Fld := ⟨.DMA_SEL, 12, 12⟩
def DMA_SEL.index : Fld := ⟨.DMA_SEL, 11, 0⟩
def DMA_CH_CTL.go : Fld := ⟨.DMA_CH_CTL, 3, 3⟩
def DMA_CH_CTL.bell : Fld := ⟨.DMA_CH_CTL, 2, 2⟩
def DMA_CH_CTL.stop : Fld := ⟨.DMA_CH_CTL, 1, 1⟩
def DMA_CH_CTL.clear : Fld := ⟨.DMA_CH_CTL, 0, 0⟩
def DMA_CH_STATUS.state : Fld := ⟨.DMA_CH_STATUS, 35, 33⟩
def DMA_CH_STATUS.code : Fld := ⟨.DMA_CH_STATUS, 32, 27⟩
def DMA_CH_STATUS.cmem : Fld := ⟨.DMA_CH_STATUS, 26, 26⟩
def DMA_CH_STATUS.done : Fld := ⟨.DMA_CH_STATUS, 15, 0⟩
def DMA_CH_HEAD.addr : Fld := ⟨.DMA_CH_HEAD, 63, 0⟩
def DMA_CH_CUR.addr : Fld := ⟨.DMA_CH_CUR, 63, 0⟩
def DMA_CH_CFG.weight : Fld := ⟨.DMA_CH_CFG, 35, 28⟩
def DMA_CH_CFG.thread : Fld := ⟨.DMA_CH_CFG, 27, 16⟩
def DMA_CH_CFG.outst : Fld := ⟨.DMA_CH_CFG, 15, 12⟩
def DMA_RING_BASE.addr : Fld := ⟨.DMA_RING_BASE, 63, 0⟩
def DMA_RING_CFG.en : Fld := ⟨.DMA_RING_CFG, 35, 35⟩
def DMA_RING_CFG.size : Fld := ⟨.DMA_RING_CFG, 34, 31⟩
def DMA_RING_CFG.vec : Fld := ⟨.DMA_RING_CFG, 30, 20⟩
def DMA_RING_PROD.index : Fld := ⟨.DMA_RING_PROD, 15, 0⟩
def DMA_RING_CONS.index : Fld := ⟨.DMA_RING_CONS, 15, 0⟩
def DMA_RING_WB.addr : Fld := ⟨.DMA_RING_WB, 63, 0⟩
def DMA_RING_IRQ.count : Fld := ⟨.DMA_RING_IRQ, 35, 20⟩
def DMA_RING_IRQ.time : Fld := ⟨.DMA_RING_IRQ, 15, 0⟩
def DMA_RING_STAT.novec : Fld := ⟨.DMA_RING_STAT, 35, 32⟩
def DMA_RING_STAT.lost : Fld := ⟨.DMA_RING_STAT, 31, 0⟩
def DMA_CH_CNT.count : Fld := ⟨.DMA_CH_CNT, 71, 0⟩
def DMA_RBIND.en5 : Fld := ⟨.DMA_RBIND, 29, 29⟩
def DMA_RBIND.chan5 : Fld := ⟨.DMA_RBIND, 28, 25⟩
def DMA_RBIND.en4 : Fld := ⟨.DMA_RBIND, 24, 24⟩
def DMA_RBIND.chan4 : Fld := ⟨.DMA_RBIND, 23, 20⟩
def DMA_RBIND.en3 : Fld := ⟨.DMA_RBIND, 19, 19⟩
def DMA_RBIND.chan3 : Fld := ⟨.DMA_RBIND, 18, 15⟩
def DMA_RBIND.en2 : Fld := ⟨.DMA_RBIND, 14, 14⟩
def DMA_RBIND.chan2 : Fld := ⟨.DMA_RBIND, 13, 10⟩
def DMA_RBIND.en1 : Fld := ⟨.DMA_RBIND, 9, 9⟩
def DMA_RBIND.chan1 : Fld := ⟨.DMA_RBIND, 8, 5⟩
def DMA_RBIND.en0 : Fld := ⟨.DMA_RBIND, 4, 4⟩
def DMA_RBIND.chan0 : Fld := ⟨.DMA_RBIND, 3, 0⟩
def DMA_UNBOUND.count : Fld := ⟨.DMA_UNBOUND, 31, 0⟩
def DMA_WATCH.en5 : Fld := ⟨.DMA_WATCH, 29, 29⟩
def DMA_WATCH.chan5 : Fld := ⟨.DMA_WATCH, 28, 25⟩
def DMA_WATCH.en4 : Fld := ⟨.DMA_WATCH, 24, 24⟩
def DMA_WATCH.chan4 : Fld := ⟨.DMA_WATCH, 23, 20⟩
def DMA_WATCH.en3 : Fld := ⟨.DMA_WATCH, 19, 19⟩
def DMA_WATCH.chan3 : Fld := ⟨.DMA_WATCH, 18, 15⟩
def DMA_WATCH.en2 : Fld := ⟨.DMA_WATCH, 14, 14⟩
def DMA_WATCH.chan2 : Fld := ⟨.DMA_WATCH, 13, 10⟩
def DMA_WATCH.en1 : Fld := ⟨.DMA_WATCH, 9, 9⟩
def DMA_WATCH.chan1 : Fld := ⟨.DMA_WATCH, 8, 5⟩
def DMA_WATCH.en0 : Fld := ⟨.DMA_WATCH, 4, 4⟩
def DMA_WATCH.chan0 : Fld := ⟨.DMA_WATCH, 3, 0⟩
def DMA_LINK.speed : Fld := ⟨.DMA_LINK, 35, 32⟩
def DMA_LINK.width : Fld := ⟨.DMA_LINK, 31, 28⟩
def DMA_LINK.retrains : Fld := ⟨.DMA_LINK, 27, 16⟩
def CPH_SEL.sel_err : Fld := ⟨.CPH_SEL, 12, 12⟩
def CPH_SEL.index : Fld := ⟨.CPH_SEL, 11, 0⟩
def CPH_LOCK.req : Fld := ⟨.CPH_LOCK, 35, 35⟩
def CPH_LOCK.rel : Fld := ⟨.CPH_LOCK, 34, 34⟩
def CPH_LOCK.fenced : Fld := ⟨.CPH_LOCK, 6, 6⟩
def CPH_LOCK.zeroising : Fld := ⟨.CPH_LOCK, 5, 5⟩
def CPH_LOCK.holder : Fld := ⟨.CPH_LOCK, 4, 0⟩
def CPH_CTL.go : Fld := ⟨.CPH_CTL, 3, 3⟩
def CPH_CTL.bell : Fld := ⟨.CPH_CTL, 2, 2⟩
def CPH_CTL.stop : Fld := ⟨.CPH_CTL, 1, 1⟩
def CPH_CTL.clear : Fld := ⟨.CPH_CTL, 0, 0⟩
def CPH_STATUS.state : Fld := ⟨.CPH_STATUS, 35, 33⟩
def CPH_STATUS.code : Fld := ⟨.CPH_STATUS, 32, 27⟩
def CPH_STATUS.alg : Fld := ⟨.CPH_STATUS, 26, 23⟩
def CPH_STATUS.cmem : Fld := ⟨.CPH_STATUS, 22, 22⟩
def CPH_STATUS.done : Fld := ⟨.CPH_STATUS, 15, 0⟩
def CPH_HEAD.addr : Fld := ⟨.CPH_HEAD, 63, 0⟩
def CPH_CUR.addr : Fld := ⟨.CPH_CUR, 63, 0⟩
def CPH_CFG.weight : Fld := ⟨.CPH_CFG, 35, 28⟩
def CPH_CFG.thread : Fld := ⟨.CPH_CFG, 27, 16⟩
def CPH_CFG.outst : Fld := ⟨.CPH_CFG, 15, 12⟩
def CPH_CFG.chan : Fld := ⟨.CPH_CFG, 11, 8⟩
def CPH_CFG.chan_en : Fld := ⟨.CPH_CFG, 7, 7⟩
def CPH_KEY_CTL.load : Fld := ⟨.CPH_KEY_CTL, 35, 35⟩
def CPH_KEY_CTL.done : Fld := ⟨.CPH_KEY_CTL, 34, 34⟩
def CPH_KEY_CTL.result : Fld := ⟨.CPH_KEY_CTL, 33, 31⟩
def CPH_KEY_CTL.ready : Fld := ⟨.CPH_KEY_CTL, 30, 30⟩
def CPH_KEY_CTL.alg : Fld := ⟨.CPH_KEY_CTL, 11, 8⟩
def CPH_KEY_CTL.klen : Fld := ⟨.CPH_KEY_CTL, 6, 0⟩
def CPH_KEY.bytes : Fld := ⟨.CPH_KEY, 31, 0⟩
def CPH_CNT.count : Fld := ⟨.CPH_CNT, 71, 0⟩
def CPH_FREE.held : Fld := ⟨.CPH_FREE, 19, 16⟩
def CPH_FREE.fenced : Fld := ⟨.CPH_FREE, 15, 8⟩
def CPH_FREE.free : Fld := ⟨.CPH_FREE, 7, 0⟩
def TIM_CFG.ref : Fld := ⟨.TIM_CFG, 35, 35⟩
def TIM_CFG.pps_in_en : Fld := ⟨.TIM_CFG, 34, 34⟩
def TIM_CFG.pps_edge : Fld := ⟨.TIM_CFG, 33, 33⟩
def TIM_CFG.pps_rec : Fld := ⟨.TIM_CFG, 32, 32⟩
def TIM_STATUS.valid : Fld := ⟨.TIM_STATUS, 35, 35⟩
def TIM_STATUS.lock : Fld := ⟨.TIM_STATUS, 34, 34⟩
def TIM_STATUS.ref_ok : Fld := ⟨.TIM_STATUS, 33, 33⟩
def TIM_STATUS.pps_ok : Fld := ⟨.TIM_STATUS, 32, 32⟩
def TIM_STATUS.holdover : Fld := ⟨.TIM_STATUS, 31, 31⟩
def TIM_STATUS.steps : Fld := ⟨.TIM_STATUS, 15, 0⟩
def TIM_NOW.sec : Fld := ⟨.TIM_NOW, 71, 36⟩
def TIM_NOW.ns : Fld := ⟨.TIM_NOW, 35, 6⟩
def TIM_NOW.frac : Fld := ⟨.TIM_NOW, 5, 0⟩
def TIM_SEC_HI.sec_hi : Fld := ⟨.TIM_SEC_HI, 11, 0⟩
def TIM_RATE.rate : Fld := ⟨.TIM_RATE, 35, 0⟩
def TIM_STEP.sec : Fld := ⟨.TIM_STEP, 71, 36⟩
def TIM_STEP.ns : Fld := ⟨.TIM_STEP, 35, 6⟩
def TIM_STEP.frac : Fld := ⟨.TIM_STEP, 5, 0⟩
def TIM_STEP_CTL.op : Fld := ⟨.TIM_STEP_CTL, 35, 34⟩
def TIM_STEP_CTL.done : Fld := ⟨.TIM_STEP_CTL, 33, 33⟩
def TIM_STEP_CTL.result : Fld := ⟨.TIM_STEP_CTL, 32, 31⟩
def TIM_STEP_CTL.sec_hi : Fld := ⟨.TIM_STEP_CTL, 11, 0⟩
def TIM_LAST_STEP.sec : Fld := ⟨.TIM_LAST_STEP, 71, 36⟩
def TIM_LAST_STEP.ns : Fld := ⟨.TIM_LAST_STEP, 35, 6⟩
def TIM_LAST_STEP.frac : Fld := ⟨.TIM_LAST_STEP, 5, 0⟩
def TIM_PPS_OUT.en : Fld := ⟨.TIM_PPS_OUT, 35, 35⟩
def TIM_PPS_OUT.lock_only : Fld := ⟨.TIM_PPS_OUT, 34, 34⟩
def TIM_PPS_OUT.width : Fld := ⟨.TIM_PPS_OUT, 33, 24⟩
def TIM_PPS_OUT.offset : Fld := ⟨.TIM_PPS_OUT, 19, 0⟩
def TIM_PPS_CAP.sec : Fld := ⟨.TIM_PPS_CAP, 71, 36⟩
def TIM_PPS_CAP.ns : Fld := ⟨.TIM_PPS_CAP, 35, 6⟩
def TIM_PPS_CAP.frac : Fld := ⟨.TIM_PPS_CAP, 5, 0⟩
def TIM_LOCK.renew : Fld := ⟨.TIM_LOCK, 35, 35⟩
def TIM_LOCK.drop : Fld := ⟨.TIM_LOCK, 34, 34⟩
def TIM_LOCK.bound : Fld := ⟨.TIM_LOCK, 19, 0⟩
def TIM_LOCK_CFG.drift : Fld := ⟨.TIM_LOCK_CFG, 35, 24⟩
def TIM_LOCK_CFG.max_err : Fld := ⟨.TIM_LOCK_CFG, 19, 0⟩
def TIM_SYNC_ERR.locked : Fld := ⟨.TIM_SYNC_ERR, 35, 35⟩
def TIM_SYNC_ERR.err : Fld := ⟨.TIM_SYNC_ERR, 19, 0⟩
def TIM_SYNCE.en : Fld := ⟨.TIM_SYNCE, 35, 35⟩
def TIM_SYNCE.squelched : Fld := ⟨.TIM_SYNCE, 34, 34⟩
def TIM_SYNCE.port : Fld := ⟨.TIM_SYNCE, 33, 26⟩
def TIM_SYNCE.lane : Fld := ⟨.TIM_SYNCE, 25, 23⟩
def TIM_SYNCE.div : Fld := ⟨.TIM_SYNCE, 22, 13⟩
def TIM_SYNCE.hold : Fld := ⟨.TIM_SYNCE, 12, 5⟩
def TIM_CNT.count : Fld := ⟨.TIM_CNT, 71, 0⟩
def TIM_PORT_LAT.rx : Fld := ⟨.TIM_PORT_LAT, 35, 18⟩
def TIM_PORT_LAT.tx : Fld := ⟨.TIM_PORT_LAT, 17, 0⟩
def CNT_SEL.sel_err : Fld := ⟨.CNT_SEL, 12, 12⟩
def CNT_SEL.index : Fld := ⟨.CNT_SEL, 11, 0⟩
def CNT_BANK.count : Fld := ⟨.CNT_BANK, 35, 28⟩
def CNT_BANK.open_first : Fld := ⟨.CNT_BANK, 27, 20⟩
def CNT_BANK.open_count : Fld := ⟨.CNT_BANK, 19, 12⟩
def CNT_BANK.reset : Fld := ⟨.CNT_BANK, 11, 11⟩
def CNT_VIEW.shadow : Fld := ⟨.CNT_VIEW, 0, 0⟩
def CNT_SNAP_CTL.op : Fld := ⟨.CNT_SNAP_CTL, 1, 0⟩
def CNT_SNAP_RES.done : Fld := ⟨.CNT_SNAP_RES, 35, 35⟩
def CNT_SNAP_RES.seq : Fld := ⟨.CNT_SNAP_RES, 34, 23⟩
def CNT_SNAP_RES.pending : Fld := ⟨.CNT_SNAP_RES, 22, 22⟩
def CNT_SNAP_RES.code : Fld := ⟨.CNT_SNAP_RES, 5, 0⟩
def CNT_SNAP_AT.sec : Fld := ⟨.CNT_SNAP_AT, 71, 36⟩
def CNT_SNAP_AT.ns : Fld := ⟨.CNT_SNAP_AT, 35, 6⟩
def CNT_SNAP_AT.frac : Fld := ⟨.CNT_SNAP_AT, 5, 0⟩
def CNT_SNAP_DST.addr : Fld := ⟨.CNT_SNAP_DST, 63, 0⟩
def CNT_SNAP_LEN.bytes : Fld := ⟨.CNT_SNAP_LEN, 31, 0⟩
def CNT_VIEW_SIZE.bytes : Fld := ⟨.CNT_VIEW_SIZE, 31, 0⟩
def CNT_SNAP_TIME.sec : Fld := ⟨.CNT_SNAP_TIME, 71, 36⟩
def CNT_SNAP_TIME.ns : Fld := ⟨.CNT_SNAP_TIME, 35, 6⟩
def CNT_SNAP_TIME.frac : Fld := ⟨.CNT_SNAP_TIME, 5, 0⟩
def CNT_CFG.weight : Fld := ⟨.CNT_CFG, 35, 28⟩
def CNT_CFG.outst : Fld := ⟨.CNT_CFG, 27, 24⟩
def CNT_CFG.vf_snap : Fld := ⟨.CNT_CFG, 15, 0⟩
def CNT_TRACE.en : Fld := ⟨.CNT_TRACE, 35, 35⟩
def CNT_TRACE.max_copies : Fld := ⟨.CNT_TRACE, 34, 30⟩
def CNT_TRACE_BOUNDS.max : Fld := ⟨.CNT_TRACE_BOUNDS, 35, 18⟩
def CNT_TRACE_BOUNDS.min : Fld := ⟨.CNT_TRACE_BOUNDS, 17, 0⟩
def CNT_TRACE_PORT.ports : Fld := ⟨.CNT_TRACE_PORT, 31, 0⟩
def CNT_TRACE_STAT.in_prog : Fld := ⟨.CNT_TRACE_STAT, 35, 27⟩
def CNT_TRACE_STAT.next_id : Fld := ⟨.CNT_TRACE_STAT, 15, 0⟩
def CNT_ENTRY.count : Fld := ⟨.CNT_ENTRY, 71, 0⟩
def FLT_STATUS.grave : Fld := ⟨.FLT_STATUS, 35, 35⟩
def FLT_STATUS.fault_n : Fld := ⟨.FLT_STATUS, 34, 34⟩
def FLT_STATUS.safe_global : Fld := ⟨.FLT_STATUS, 33, 33⟩
def FLT_STATUS.safe_req : Fld := ⟨.FLT_STATUS, 32, 32⟩
def FLT_STATUS.overflow : Fld := ⟨.FLT_STATUS, 31, 31⟩
def FLT_STATUS.open_ : Fld := ⟨.FLT_STATUS, 6, 0⟩
def FLT_CFG.safe_req_hold : Fld := ⟨.FLT_CFG, 35, 28⟩
def FLT_CFG.grave_cycle : Fld := ⟨.FLT_CFG, 27, 12⟩
def FLT_CFG.corr_rec : Fld := ⟨.FLT_CFG, 11, 11⟩
def FLT_CFG.corr_gap : Fld := ⟨.FLT_CFG, 10, 0⟩
def FLT_SLOT_ADDR.slot : Fld := ⟨.FLT_SLOT_ADDR, 5, 0⟩
def FLT_SLOT_DATA.word : Fld := ⟨.FLT_SLOT_DATA, 35, 0⟩
def FLT_CLEAR.go : Fld := ⟨.FLT_CLEAR, 35, 35⟩
def FLT_CLEAR.overflow : Fld := ⟨.FLT_CLEAR, 34, 34⟩
def FLT_CLEAR.slot : Fld := ⟨.FLT_CLEAR, 5, 0⟩
def FLT_CLEAR_RES.done : Fld := ⟨.FLT_CLEAR_RES, 35, 35⟩
def FLT_CLEAR_RES.result : Fld := ⟨.FLT_CLEAR_RES, 2, 0⟩
def FLT_BENCH_CMD.go : Fld := ⟨.FLT_BENCH_CMD, 35, 35⟩
def FLT_BENCH_CMD.done : Fld := ⟨.FLT_BENCH_CMD, 34, 34⟩
def FLT_BENCH_CMD.result : Fld := ⟨.FLT_BENCH_CMD, 33, 31⟩
def FLT_BENCH_CMD.unit : Fld := ⟨.FLT_BENCH_CMD, 11, 0⟩
def FLT_POLICY.auto : Fld := ⟨.FLT_POLICY, 7, 0⟩
def FLT_WEAR_TH.levels : Fld := ⟨.FLT_WEAR_TH, 35, 0⟩
def FLT_WEAR_SEL.lane : Fld := ⟨.FLT_WEAR_SEL, 22, 20⟩
def FLT_WEAR_SEL.mon : Fld := ⟨.FLT_WEAR_SEL, 19, 16⟩
def FLT_WEAR_SEL.unit : Fld := ⟨.FLT_WEAR_SEL, 11, 0⟩
def FLT_WEAR.valid : Fld := ⟨.FLT_WEAR, 35, 35⟩
def FLT_WEAR.crossed : Fld := ⟨.FLT_WEAR, 34, 34⟩
def FLT_WEAR.value : Fld := ⟨.FLT_WEAR, 15, 0⟩
def FLT_TAIL_ADDR.rearm : Fld := ⟨.FLT_TAIL_ADDR, 35, 35⟩
def FLT_TAIL_ADDR.entry : Fld := ⟨.FLT_TAIL_ADDR, 8, 4⟩
def FLT_TAIL_ADDR.word : Fld := ⟨.FLT_TAIL_ADDR, 3, 0⟩
def FLT_TAIL_DATA.word : Fld := ⟨.FLT_TAIL_DATA, 35, 0⟩
def FLT_TAIL_STATUS.frozen : Fld := ⟨.FLT_TAIL_STATUS, 35, 35⟩
def FLT_TAIL_STATUS.entries : Fld := ⟨.FLT_TAIL_STATUS, 21, 16⟩
def FLT_TAIL_STATUS.dropped : Fld := ⟨.FLT_TAIL_STATUS, 15, 0⟩
def FLT_SPARE.left : Fld := ⟨.FLT_SPARE, 35, 18⟩
def FLT_SPARE.fenced : Fld := ⟨.FLT_SPARE, 17, 0⟩
def FLT_CNT.count : Fld := ⟨.FLT_CNT, 71, 0⟩
def PWR_CTL.auto : Fld := ⟨.PWR_CTL, 3, 3⟩
def PWR_CTL.target : Fld := ⟨.PWR_CTL, 1, 0⟩
def PWR_STATUS.state : Fld := ⟨.PWR_STATUS, 35, 33⟩
def PWR_STATUS.moving : Fld := ⟨.PWR_STATUS, 32, 32⟩
def PWR_STATUS.done : Fld := ⟨.PWR_STATUS, 31, 31⟩
def PWR_STATUS.result : Fld := ⟨.PWR_STATUS, 30, 28⟩
def PWR_STATUS.load : Fld := ⟨.PWR_STATUS, 27, 20⟩
def PWR_DOZE.hold : Fld := ⟨.PWR_DOZE, 35, 20⟩
def PWR_DOZE.out : Fld := ⟨.PWR_DOZE, 15, 8⟩
def PWR_DOZE.in_ : Fld := ⟨.PWR_DOZE, 7, 0⟩
def PWR_AVS.applied : Fld := ⟨.PWR_AVS, 25, 16⟩
def PWR_AVS.target : Fld := ⟨.PWR_AVS, 9, 0⟩
def PWR_THERM.crit : Fld := ⟨.PWR_THERM, 35, 28⟩
def PWR_THERM.warn : Fld := ⟨.PWR_THERM, 27, 20⟩
def PWR_THERM.hot : Fld := ⟨.PWR_THERM, 11, 4⟩
def PWR_THERM.sensor : Fld := ⟨.PWR_THERM, 3, 0⟩
def PWR_CLK.core_lock : Fld := ⟨.PWR_CLK, 35, 35⟩
def PWR_CLK.hbm_lock : Fld := ⟨.PWR_CLK, 34, 34⟩
def PWR_CLK.pcie_lock : Fld := ⟨.PWR_CLK, 33, 33⟩
def PWR_CLK.lane_lock : Fld := ⟨.PWR_CLK, 31, 0⟩
def PWR_RAIL.mv : Fld := ⟨.PWR_RAIL, 35, 24⟩
def PWR_RAIL.mw : Fld := ⟨.PWR_RAIL, 23, 0⟩
def AON_STATUS.por : Fld := ⟨.AON_STATUS, 35, 35⟩
def AON_STATUS.bkup : Fld := ⟨.AON_STATUS, 34, 34⟩
def AON_STATUS.pstate : Fld := ⟨.AON_STATUS, 33, 32⟩
def AON_STATUS.main_on : Fld := ⟨.AON_STATUS, 31, 31⟩
def AON_STATUS.grave : Fld := ⟨.AON_STATUS, 30, 30⟩
def AON_STATUS.safe_global : Fld := ⟨.AON_STATUS, 29, 29⟩
def AON_STATUS.fault_n : Fld := ⟨.AON_STATUS, 28, 28⟩
def AON_STATUS.log_frozen : Fld := ⟨.AON_STATUS, 27, 27⟩
def AON_RTC.sec : Fld := ⟨.AON_RTC, 62, 15⟩
def AON_RTC.tick : Fld := ⟨.AON_RTC, 14, 0⟩
def AON_ALARM.sec : Fld := ⟨.AON_ALARM, 35, 0⟩
def AON_SUPPLY.switches : Fld := ⟨.AON_SUPPLY, 19, 8⟩
def AON_SUPPLY.main_ok : Fld := ⟨.AON_SUPPLY, 7, 7⟩
def AON_SUPPLY.bkup_ok : Fld := ⟨.AON_SUPPLY, 6, 6⟩
def AON_WDT_CFG.en : Fld := ⟨.AON_WDT_CFG, 35, 35⟩
def AON_WDT_CFG.lock : Fld := ⟨.AON_WDT_CFG, 34, 34⟩
def AON_WDT_CFG.timeout : Fld := ⟨.AON_WDT_CFG, 15, 0⟩
def AON_WDT_KICK.left : Fld := ⟨.AON_WDT_KICK, 31, 16⟩
def AON_WDT_KICK.bad : Fld := ⟨.AON_WDT_KICK, 15, 8⟩
def AON_WDT_KICK.code : Fld := ⟨.AON_WDT_KICK, 7, 0⟩
def AON_SEQ.go : Fld := ⟨.AON_SEQ, 35, 35⟩
def AON_SEQ.busy : Fld := ⟨.AON_SEQ, 34, 34⟩
def AON_SEQ.op : Fld := ⟨.AON_SEQ, 33, 31⟩
def AON_SEQ.result : Fld := ⟨.AON_SEQ, 30, 28⟩
def AON_SEQ.off : Fld := ⟨.AON_SEQ, 23, 8⟩
def AON_SEQ.pgood : Fld := ⟨.AON_SEQ, 7, 0⟩
def AON_WAKE.cause : Fld := ⟨.AON_WAKE, 25, 18⟩
def AON_WAKE.sig_en : Fld := ⟨.AON_WAKE, 17, 17⟩
def AON_WAKE.alarm_en : Fld := ⟨.AON_WAKE, 16, 16⟩
def AON_WAKE.pin_en : Fld := ⟨.AON_WAKE, 15, 12⟩
def AON_GRAVE.cause : Fld := ⟨.AON_GRAVE, 35, 28⟩
def AON_GRAVE.cycle : Fld := ⟨.AON_GRAVE, 27, 12⟩
def AON_GRAVE.unit : Fld := ⟨.AON_GRAVE, 11, 0⟩
def AON_CHK.en : Fld := ⟨.AON_CHK, 35, 35⟩
def AON_CHK.alive : Fld := ⟨.AON_CHK, 34, 34⟩
def AON_CHK.lost : Fld := ⟨.AON_CHK, 15, 0⟩
def AON_CON_CFG.linger : Fld := ⟨.AON_CON_CFG, 31, 24⟩
def AON_CON_CFG.gap : Fld := ⟨.AON_CON_CFG, 23, 16⟩
def AON_CON_CFG.div : Fld := ⟨.AON_CON_CFG, 15, 0⟩
def AON_CON_STAT.crc_err : Fld := ⟨.AON_CON_STAT, 35, 24⟩
def AON_CON_STAT.framing : Fld := ⟨.AON_CON_STAT, 23, 12⟩
def AON_CON_STAT.wake_chars : Fld := ⟨.AON_CON_STAT, 11, 0⟩
def AON_TAIL_ADDR.rearm : Fld := ⟨.AON_TAIL_ADDR, 35, 35⟩
def AON_TAIL_ADDR.entry : Fld := ⟨.AON_TAIL_ADDR, 8, 4⟩
def AON_TAIL_ADDR.word : Fld := ⟨.AON_TAIL_ADDR, 3, 0⟩
def AON_TAIL_DATA.word : Fld := ⟨.AON_TAIL_DATA, 35, 0⟩
def AON_TAIL_STATUS.frozen : Fld := ⟨.AON_TAIL_STATUS, 35, 35⟩
def AON_TAIL_STATUS.entries : Fld := ⟨.AON_TAIL_STATUS, 21, 16⟩
def AON_TAIL_STATUS.dropped : Fld := ⟨.AON_TAIL_STATUS, 15, 0⟩
def AON_SAFE.pattern : Fld := ⟨.AON_SAFE, 31, 0⟩
def AON_BOOT.phase : Fld := ⟨.AON_BOOT, 35, 32⟩
def AON_BOOT.res_a : Fld := ⟨.AON_BOOT, 31, 26⟩
def AON_BOOT.res_b : Fld := ⟨.AON_BOOT, 25, 20⟩
def AON_BOOT.stacks : Fld := ⟨.AON_BOOT, 19, 16⟩
def AON_BOOT.fail : Fld := ⟨.AON_BOOT, 15, 12⟩
def AON_BOOT.fail_bit : Fld := ⟨.AON_BOOT, 11, 8⟩
def AON_BOOT.boots : Fld := ⟨.AON_BOOT, 7, 0⟩
def AON_SCRATCH.word : Fld := ⟨.AON_SCRATCH, 35, 0⟩
def TWN_CFG.en : Fld := ⟨.TWN_CFG, 35, 35⟩
def TWN_CFG.settle : Fld := ⟨.TWN_CFG, 33, 24⟩
def TWN_CFG.guard : Fld := ⟨.TWN_CFG, 23, 16⟩
def TWN_CFG.link_to : Fld := ⟨.TWN_CFG, 15, 8⟩
def TWN_CFG.w_redir : Fld := ⟨.TWN_CFG, 7, 4⟩
def TWN_CFG.w_dma : Fld := ⟨.TWN_CFG, 3, 0⟩
def TWN_STATUS.role : Fld := ⟨.TWN_STATUS, 35, 35⟩
def TWN_STATUS.link : Fld := ⟨.TWN_STATUS, 34, 32⟩
def TWN_STATUS.lanes : Fld := ⟨.TWN_STATUS, 31, 28⟩
def TWN_STATUS.alive : Fld := ⟨.TWN_STATUS, 27, 27⟩
def TWN_STATUS.decision : Fld := ⟨.TWN_STATUS, 26, 24⟩
def TWN_STATUS.dh_err : Fld := ⟨.TWN_STATUS, 23, 23⟩
def TWN_MOVE.go : Fld := ⟨.TWN_MOVE, 35, 35⟩
def TWN_MOVE.done : Fld := ⟨.TWN_MOVE, 34, 34⟩
def TWN_MOVE.result : Fld := ⟨.TWN_MOVE, 33, 31⟩
def TWN_MOVE.to_ : Fld := ⟨.TWN_MOVE, 8, 8⟩
def TWN_MOVE.port : Fld := ⟨.TWN_MOVE, 7, 0⟩
def TWN_SYNC.replay : Fld := ⟨.TWN_SYNC, 33, 17⟩
def TWN_SYNC.learn : Fld := ⟨.TWN_SYNC, 16, 0⟩
def TWN_XDMA.parts : Fld := ⟨.TWN_XDMA, 16, 0⟩
def TWN_PEER_TIME.peer_locked : Fld := ⟨.TWN_PEER_TIME, 35, 35⟩
def TWN_PEER_TIME.both : Fld := ⟨.TWN_PEER_TIME, 34, 34⟩
def TWN_PEER_TIME.bound : Fld := ⟨.TWN_PEER_TIME, 19, 0⟩
def TWN_PEER_ID.die : Fld := ⟨.TWN_PEER_ID, 63, 0⟩
def TWN_LANE.state : Fld := ⟨.TWN_LANE, 35, 33⟩
def TWN_LANE.lane_en : Fld := ⟨.TWN_LANE, 32, 32⟩
def TWN_LANE.resends : Fld := ⟨.TWN_LANE, 31, 16⟩
def TWN_CNT.count : Fld := ⟨.TWN_CNT, 71, 0⟩
def TWN_DH.valid : Fld := ⟨.TWN_DH, 35, 35⟩
def TWN_DH.pref : Fld := ⟨.TWN_DH, 34, 34⟩
def TWN_DH.state : Fld := ⟨.TWN_DH, 33, 32⟩
def TWN_DH.peer_port : Fld := ⟨.TWN_DH, 31, 24⟩

end F

end Sys2Proof.Machine
end

