-- ==== Sys2Proof/Machine/Tab.lean ====
section
/-! DEFINITION. Sparse tables: the form in which the state holds every numbered family of things. A table lists only the
entries that differ from what an unlisted key reads as, in strictly rising order of key, so that equal tables are equal
data. -/

namespace Sys2Proof.Machine

/-- A sparse table: entries by key. -/
abbrev Tab (α : Type) := List (Nat × α)

/-- What the table holds under a key; `d` is what an unlisted key reads as. -/
def tabGet {α : Type} (d : α) : Tab α → Nat → α
  | [], _ => d
  | (a, b) :: t, k => if a = k then b else tabGet d t k

/-- The entry listed under a key, if one is. -/
def tabFind {α : Type} : Tab α → Nat → Option α
  | [], _ => none
  | (a, b) :: t, k => if a = k then some b else tabFind t k

/-- The table without any entry under the key. -/
def tabErase {α : Type} : Tab α → Nat → Tab α
  | [], _ => []
  | (a, b) :: t, k => if a = k then tabErase t k else (a, b) :: tabErase t k

/-- The table with the entry placed at its key's position, in place of one already there. -/
def tabInsert {α : Type} : Tab α → Nat → α → Tab α
  | [], k, v => [(k, v)]
  | (a, b) :: t, k, v => if k < a then (k, v) :: (a, b) :: t else if a = k then (k, v) :: t else (a, b) :: tabInsert t k v

/-- Write one entry; writing what an unlisted key reads as removes it. -/
def tabSet {α : Type} [DecidableEq α] (d : α) (t : Tab α) (k : Nat) (v : α) : Tab α :=
  if v = d then tabErase t k else tabInsert t k v

/-- Change one entry by a function. -/
def tabMod {α : Type} [DecidableEq α] (d : α) (t : Tab α) (k : Nat) (f : α → α) : Tab α :=
  tabSet d t k (f (tabGet d t k))

/-- Keys strictly rising, all above `lo`. -/
def tabSorted {α : Type} : Nat → Tab α → Bool
  | _, [] => true
  | lo, (a, _) :: t => decide (lo ≤ a) && tabSorted (a + 1) t

/-- The canonical form: keys strictly rising and no entry equal to what an unlisted key reads as. -/
def tabWf {α : Type} [DecidableEq α] (d : α) (t : Tab α) : Bool :=
  tabSorted 0 t && t.all fun e => decide (e.2 ≠ d)

/-- The keys listed. -/
def tabKeys {α : Type} (t : Tab α) : List Nat := t.map Prod.fst

end Sys2Proof.Machine
end

