-- ==== Sys2Proof/Machine/RegFile.lean ====
section
/-! DEFINITION. The register file: reset values, reading and writing registers and their fields. -/

namespace Sys2Proof.Machine

/-- The register file: the registers that differ from their reset values, by key. -/
abbrev RegFile := Tab RegVal

/-- The key of element `i` of copy `c` of a register. -/
def regKey (r : Reg) (c i : Nat) : Nat :=
  r.ctorIdx * 2 ^ 32 + (c % 2 ^ 16) * 2 ^ 16 + i % 2 ^ 16

/-- The value that the field table's reset column spells. -/
def fieldsReset (fs : List FieldDesc) : Nat :=
  fs.foldl (fun a f => a + f.rst * 2 ^ f.lo) 0

/-- The reset values that the field tables give by reference (R89, R186, R232, R306, R383, R385, R551, R560) or by element. -/
def regReset (r : Reg) (c i : Nat) : RegVal :=
  match r with
  | .HBC_BMASK => BitVec.ofNat 72 (match i with | 0 => 0x44444 | 1 => 0x88888 | 2 => 0x111110 | _ => 0x222220)
  | .FLT_WEAR_TH => BitVec.ofNat 72 (match i with | 0 => 0x00400510 | 1 => 0x01909628 | _ => 0xC)
  | .SPR_SLICE => BitVec.ofNat 72 (16 * 2 ^ 5 + 2 ^ 33)
  | .TCM_BANK => BitVec.ofNat 72 (fieldsReset Reg.TCM_BANK.fields + (c % 64) * 2 ^ 27 + (if 32 ≤ c % 64 then 1 else 0) * 2 ^ 33)
  | .TCM_BANK_CFG => BitVec.ofNat 72 (2 ^ 32 + (c % 32) * 2 ^ 27 + (c % 32) * 2 ^ 22)
  | .HBC_PC => BitVec.ofNat 72 (fieldsReset Reg.HBC_PC.fields + i * 2 ^ 28 + (if i = 31 then 1 else 0) * 2 ^ 33)
  | .RWE_ENG => BitVec.ofNat 72 (fieldsReset Reg.RWE_ENG.fields + (if i = 24 then 1 else 0) * 2 ^ 33)
  | .CCX_CORE => BitVec.ofNat 72 (fieldsReset Reg.CCX_CORE.fields + c * 2 ^ 29 + (if 16 ≤ c then 1 else 0) * 2 ^ 34)
  | .CCX_T_STATUS => BitVec.ofNat 72 (31 * 2 ^ 26 + (if 128 ≤ c then 7 * 2 ^ 32 else 0))
  | .DMA_SEL => BitVec.ofNat 72 (if c < 16 then 4 * c else 0)
  | .CNT_SEL => BitVec.ofNat 72 (if c < 16 then 0x110 + c else 0)
  | .MAC_SEL | .SPR_SEL | .TCM_SEL | .HBC_SEL | .SCH_SEL | .GTE_SEL | .RWE_SEL | .CCX_SEL =>
    BitVec.ofNat 72 (if c < 16 then 2 ^ 12 else 0)
  | .FLT_SPARE => BitVec.ofNat 72
    ((match i with | 0 => 4 | 1 => 8 | 2 => 32 | 3 => 2 | 4 => 4 | 5 => 17536 | _ => 32) * 2 ^ 18)
  | _ => BitVec.ofNat 72 (fieldsReset r.fields)

/-- Read a register. -/
def regGet (f : RegFile) (r : Reg) (c i : Nat) : RegVal :=
  tabGet (regReset r c i) f (regKey r c i)

/-- Write a register. -/
def regSet (f : RegFile) (r : Reg) (c i : Nat) (v : RegVal) : RegFile :=
  tabSet (regReset r c i) f (regKey r c i) v

/-- The bits of a field set to ones. -/
def fldMask (hi lo : Nat) : RegVal :=
  (BitVec.ofNat 72 (2 ^ (hi + 1 - lo) - 1)) <<< lo

/-- The field [hi:lo] of a register's value. -/
def fldGet (v : RegVal) (hi lo : Nat) : Nat :=
  (v.toNat >>> lo) % 2 ^ (hi + 1 - lo)

/-- The register's value with its field [hi:lo] replaced. -/
def fldSet (v : RegVal) (hi lo n : Nat) : RegVal :=
  (v &&& ~~~(fldMask hi lo)) ||| ((BitVec.ofNat 72 n <<< lo) &&& fldMask hi lo)

end Sys2Proof.Machine
end

