-- ==== Sys2Proof/Machine/State.lean ====
section
/-! DEFINITION. The state of the OZ5120 as plain data, the reasons a command can stop, and the state after reset. -/

namespace Sys2Proof.Machine

/-! ## Access and images -/

/-- One function's stages and latches (R80–R82), each a slot and what it holds, and the word its last read returned. -/
structure FnState where
  half : Option (Nat × Nat) := none
  latch : Option (Nat × Nat) := none
  wstage : Option (Nat × Nat) := none
  wlatch : Option (Nat × Nat) := none
  reply : Nat := 0
  deriving DecidableEq, Repr

/-- One bank of one scope's plane-dependent state (R38): the words of its sections by section type and index, and the RWL
registers of the scope that differ from their reset values. -/
structure Plane where
  words : Tab Word := []
  regs : RegFile := []
  present : List Nat := []
  deriving DecidableEq, Repr

/-- The map of one scope from plane tags to banks (R39): the ACTIVE bank, and the bank that the previous generation's tag
names. -/
structure Scope where
  active : Nat := 0
  old : Nat := 0
  deriving DecidableEq, Repr

/-- What the loader keeps of a load in progress (R52–R58). -/
structure Load where
  fn : Func
  flash : Option Nat
  boot : Bool
  scope : Nat
  length : Nat
  serial : Nat
  csig : Nat
  tag : Nat
  sections : List (Nat × Nat × Nat × Nat × Nat)
  deriving DecidableEq, Repr

/-- A castling requested (`accepted` false while its checks run) or pending (R63–R66). `time` is the value of `IMG_CASTLE_AT` until the checks
pass, and then the device time that it names. -/
structure Castle where
  fn : Func
  mask : Nat
  time : Nat
  accepted : Bool
  deriving DecidableEq, Repr

/-- The image loader and castling: banks by scope, the load in progress, the castling, the CMAC, serial and length of each tenant's
AWAITING image, the fused key, the key words written and whether a ninth was, whether fusing runs and whether a full image is staged, the
ports whose enable is stored (R66), the serial of each scope's staged image, the restores that a DISCARD started by scope (the issuing
function's index and 1), and whether scope H's staged image has a MIRROR section. -/
structure ImageSt where
  scopes : Tab Scope := []
  load : Option Load := none
  castle : Option Castle := none
  cmac : Tab Nat := []
  awaitSerial : Tab Nat := []
  awaitLength : Tab Nat := []
  key : List Nat := []
  fkey : List Nat := []
  fkeyOver : Bool := false
  fusing : Bool := false
  fullStaged : Bool := false
  storedEnables : List Nat := []
  stagedFrom : Tab Nat := []
  restoring : Tab (List Nat) := []
  waitRestore : List Nat := []
  mirrorStaged : Bool := false
  deriving DecidableEq, Repr

/-! ## Host interface -/

/-- One event record before it enters a ring: type code, source unit, stamp and payload words 3–7 (R453). -/
structure Record where
  code : Nat
  unit : Nat
  stamp : Nat
  p3 : Nat := 0
  p4 : Nat := 0
  p5 : Nat := 0
  p6 : Nat := 0
  p7 : Nat := 0
  deriving DecidableEq, Repr

/-- A descriptor as read (R439): its own address and its fields but `status`. -/
structure Desc where
  addr : Nat
  next : Nat
  src : Nat
  dst : Nat
  len : Nat
  mode : Nat
  index : Nat
  esize : Nat
  deriving DecidableEq, Repr

/-- How a descriptor has ended, before its status is written (R448, R451): its code and sub-code, the bytes moved, `trunc`, the queue of a
SEND, a handle that failed R270, the words of a PUNT record, and the input bytes of a cipher job. -/
structure DescEnd where
  code : Nat := 0
  sub : Nat := 0
  bytes : Nat := 0
  trunc : Bool := false
  queue : Nat := 0
  handle : Option Nat := none
  punt : List Nat := []
  input : Nat := 0
  deriving DecidableEq, Repr

/-- One DMA channel beside its registers (R436, R453–R458): the descriptor in progress or parked on and how it has ended, the address to
fetch next, whether `stop` waits for its end, and the ring's records pending, discarded since the last RING_LOST, and generated. -/
structure Chan where
  desc : Option Desc := none
  ended : Option DescEnd := none
  fetch : Nat := 0
  stopping : Bool := false
  pendingRecs : Nat := 0
  lostSince : Nat := 0
  seq : Nat := 0
  deriving DecidableEq, Repr

/-- One cipher lane beside its registers (R470–R475): the key loaded, the staged key words and which of them are written, an accepted load,
and the list as a DMA channel keeps it. -/
structure Lane where
  key : List Byte := []
  staged : Tab Nat := []
  written : Nat := 0
  loading : Option (Nat × List Byte) := none
  desc : Option Desc := none
  ended : Option DescEnd := none
  fetch : Nat := 0
  stopping : Bool := false
  deriving DecidableEq, Repr

/-- One MSI-X vector (R430, R432): its message, its mask bit and its pending bit. -/
structure Msix where
  addr : Nat := 0
  data : Nat := 0
  masked : Bool := true
  pend : Bool := false
  deriving DecidableEq, Repr

/-- The PCI Express side of the endpoint (R428, R623): whether the endpoint is out of reset, whether Detect has begun and
whether the link is in L0. -/
structure PcieSt where
  endpointUp : Bool := false
  perst : Bool := false
  detect : Bool := false
  l0 : Bool := false
  deriving DecidableEq, Repr

/-! ## Time -/

/-- The time unit beside its registers (R487–R504). `now` is device time in units of 2⁻⁴⁸ ns; `cycles` counts core clocks and
measures intervals, which steps do not move (R493); `coreBase` is its value when the cores' cycle counters were last cleared (R418). -/
structure TimeSt where
  now : Nat := 0
  cycles : Nat := 0
  coreBase : Nat := 0
  step : Option (Nat × Nat) := none
  stepReq : Bool := false
  renewBound : Nat := 0
  renewCycles : Nat := 0
  ppsOut : Bool := false
  ppsInLast : Option Nat := none
  syncDue : List Nat := []
  syncConf : List Nat := []
  deriving DecidableEq, Repr

/-! ## Faults -/

/-- An open fault record (R533): the fields of its payload, whether its reaction is in progress, and the units on which the
reaction acts (R536). -/
structure FaultRec where
  cls : Nat
  cause : Nat
  unit : Nat
  part : Nat
  stamp : Nat
  merged : Nat := 0
  slot : Nat
  safe : Nat := 0
  action : Nat := 0
  d4 : Nat := 0
  d5 : Nat := 0
  mUnit : Nat := 0
  mCause : Nat := 0
  mCls : Nat := 0
  wear : Nat := 0
  promoted : Nat := 0
  busy : Bool := true
  acts : List Nat := []
  deriving DecidableEq, Repr

/-- One entry of the tailings log (R537): the record's eight words, the real-time counter at the append, and whether its
retention parity holds. -/
structure TailEntry where
  words : List Nat
  rtc : Nat
  valid : Bool := true
  deriving DecidableEq, Repr

/-- A promotion in progress or deferred (R553): the bench kind, the unit replaced, the spare, the reason of BENCH_DONE and the
core clock at its start. -/
structure Promo where
  kind : Nat
  unit : Nat
  spare : Nat
  reason : Nat
  start : Nat
  deriving DecidableEq, Repr

/-- The fault collector and the bench: the open records, the tailings log, FENCED and retired units, promotions under way and deferred, the
kinds and scopes whose BENCH_OUT is written, the last record of each corrected cause and unit, monitors' values and those past their level,
repair rows and macro spares used, buffers withdrawn, `SAFE_REQ_N` low and its hold running, the GPIO safe pattern driven, the lane macros
(each with the fenced unit) and ports in the local safe state, and when a slow engine or core last raised its ADVISORY. -/
structure FaultSt where
  recs : List FaultRec := []
  tail : List TailEntry := []
  fenced : List Nat := []
  retired : List Nat := []
  promos : List Promo := []
  deferred : List Promo := []
  benchOut : List (Nat × Nat) := []
  corrLast : Tab Nat := []
  wear : Tab Nat := []
  crossed : List Nat := []
  repairLeft : Tab Nat := []
  withdrawn : List Nat := []
  safeReq : Bool := false
  safeHold : Bool := false
  gpioSafe : Bool := false
  safeMacros : List (Nat × Nat) := []
  safePorts : List Nat := []
  slowTold : Tab Nat := []
  deriving DecidableEq, Repr

/-! ## Control threads (chapter 12) -/

/-- What a WAITING thread waits for (R389): a masked event, the end of a child, a table command, or the answer of a lookup. -/
inductive Wait where
  | wfe (rd mask : Nat)
  | join (rd child : Nat)
  | table (rd block : Nat)
  | look (rd val : Nat)
  deriving DecidableEq, Repr

/-- One thread beside its registers (R390, R402–R404): g-registers, CSRs, what it waits for and since when, its parent, its exit
value, the core clock at which its timer expires, its state before a migration, and the windows that still reach a buffer (R398). -/
structure Thread where
  g : Tab Word := []
  csr : Tab Word := []
  wait : Option Wait := none
  since : Nat := 0
  parent : Option Nat := none
  drawn : Bool := false
  exitVal : Nat := 0
  timer : Option Nat := none
  before : Nat := 0
  windows : List Nat := []
  deriving DecidableEq, Repr

/-! ## Buffers (chapter 08) -/

/-- The account to which a held buffer is charged (R277): none for a buffer of a software pool. -/
inductive Acct where
  | none
  | ingGen (port : Nat)
  | ingExp (port : Nat)
  | hdrm (port pre : Nat)
  | quota (part : Nat)
  | common (part : Nat)
  deriving DecidableEq, Repr

/-- What the buffer pool manager keeps of a buffer that is not FREE (R271): QUARANTINED or HELD, its owner count and tag, its
charged partition and account, and the port and pre-class in whose PFC count it stands (R140). -/
structure Buf where
  quar : Bool := false
  count : Nat
  tag : Nat
  part : Nat
  acct : Acct
  src : Option (Nat × Nat) := none
  deriving DecidableEq, Repr

/-! ## Frames, results and copies -/

/-- What a slice decides of a frame (R185): kinds 0 UNICAST, 1 MULTICAST, 2 PUNT, 3 DROP. -/
structure Result where
  kind : Nat
  dest : Nat
  tenant : Nat
  qset : Nat := 0
  cls : Nat := 0
  qclass : Nat := 0
  colour : Nat := 0
  edit : Nat := 0
  mirrorEn : Bool := false
  mirror : Nat := 0
  reason : Nat := 0
  l3 : Nat := 0
  l4 : Nat := 0
  l5 : Nat := 0
  md : Nat := 0
  deriving DecidableEq, Repr

/-- One frame from its start to the making of its copies, and until its end and its last copy. Times are device times in units of
2⁻⁴⁸ ns; `hand` and `took` are core clocks. -/
structure Frame where
  port : Nat
  owner : Nat
  group : Nat
  express : Bool
  tag : Nat
  pre : Nat
  lldp : Bool := false
  injected : Option Nat := none
  pmac : Bool := false
  bytes : List Byte := []
  len : Nat := 0
  known : Nat := 0
  ended : Bool := false
  alloc : Bool := false
  handle : Nat := 0
  rx : Option Nat := none
  seq : Nat := 0
  hand : Option Nat := none
  slice : Option Nat := none
  took : Option Nat := none
  result : Option Result := none
  switched : Bool := false
  failed : Bool := false
  copies : Nat := 0
  trace : Option Nat := none
  tLast : Option Nat := none
  tAlloc : Option Nat := none
  tHand : Option Nat := none
  tTake : Option Nat := none
  tResult : Option Nat := none
  tRelease : Option Nat := none
  deriving DecidableEq, Repr

/-- One copy in a queue, in the deep buffer, in a rewrite cluster or at a transmitter. `trunc` is the truncation length of a mirror
copy, 0 for none; `len` the stored length once the frame has ended. -/
structure Copy where
  id : Nat
  frame : Nat
  handle : Nat
  len : Nat
  part : Nat
  port : Nat
  set : Nat
  qclass : Nat
  cls : Nat
  colour : Nat
  tag : Nat
  edit : Nat
  md : Nat := 0
  l3 : Nat := 0
  l4 : Nat := 0
  l5 : Nat := 0
  inPort : Nat := 0
  rx : Option Nat := none
  mirror : Bool := false
  trunc : Nat := 0
  ct : Bool := false
  deferred : Bool := false
  trace : Option Nat := none
  wentDeep : Bool := false
  tEnq : Option Nat := none
  tHbm : Option Nat := none
  tBack : Option Nat := none
  tSel : Option Nat := none
  tEng : Option Nat := none
  tFirst : Option Nat := none
  engine : Nat := 0xFFF
  stomp : Bool := false
  deriving DecidableEq, Repr

/-! ## Rewriting and sending (chapter 11) -/

/-- A command that an edit program passes to the MAC (R361, R498): PTP_CF of a kind, or PTP_TS at an offset of the edited head. -/
inductive MacCmd where
  | cf (kind off l4 : Nat)
  | ts (twoStep : Bool) (off : Nat)
  deriving DecidableEq, Repr

/-- A copy being edited (R363): the edited head, its original length, the position *p*, the layer marks, the program, the word of the
current instruction, the latched microcode bank, scratch registers, checksum accumulator, loop counter, previous ALU result and
flags, microwords executed, MAC commands, whether the program has ended, the bytes of the head that are in the port's egress FIFO, and the
position below which a stalled copy waits for its bytes to pass (R364, R365). -/
structure Edit where
  copy : Copy
  head : List Byte
  orig : Nat
  total : Nat
  p : Nat := 0
  l3 : Nat := 0
  l4 : Nat := 0
  l5 : Nat := 0
  prog : List Nat := []
  word : Nat := 0
  bank : Nat := 0
  scratch : Tab Nat := []
  acc : Nat := 0
  loop : Nat := 0
  alu : Nat := 0
  flags : Nat := 0
  cycles : Nat := 0
  mac : List MacCmd := []
  macReg : Nat := 0
  ended : Bool := false
  drained : Nat := 0
  waits : Nat := 0
  deriving DecidableEq, Repr

/-- An engine beside `RWE_ENG`: the copy it edits, the copies waiting in its slot (R354), since when it stalls, and a fault or drain
pending: 1 fault, 2 drain to BENCH, 3 drain to FENCED (R379, R382). -/
structure Engine where
  run : Option Edit := none
  wait7 : Option Copy := none
  wait : Option Copy := none
  stalledAt : Option Nat := none
  due : Nat := 0
  deriving DecidableEq, Repr

/-- A rewrite cluster: the copies that have reached it and are not dispatched, and its rotations. DESIGN CHOICE, log entry 8. -/
structure Cluster where
  input : List Copy := []
  rot7 : Nat := 24
  rot : Nat := 24
  asleep : Bool := false
  deriving DecidableEq, Repr

/-- An edited copy at the MAC (R356, R367): the edited head, how many bytes of the stored frame it replaces, the frame's stored
bytes, the MAC commands, the frame bytes sent and the fragments sent, the device time of its first bit, and that of the first bit of the fragment
on the wire. -/
structure TxCopy where
  copy : Copy
  head : List Byte
  orig : Nat
  mac : List MacCmd := []
  sent : Nat := 0
  frags : Nat := 0
  first : Option Nat := none
  start : Nat := 0
  deriving DecidableEq, Repr

/-- A frame as a MAC has sent it, without its FCS; `bad` when it was ended with the complement of the FCS or cut off. -/
structure SentFrame where
  bytes : List Byte
  bad : Bool := false
  deriving DecidableEq, Repr

/-! ## Ports -/

/-- A PAUSE or PFC frame as the MAC sends it (R140): its source address, the priorities named and the time of each. -/
structure CtlFrame where
  sa : Nat := 0
  pfc : Bool
  enables : Nat
  times : List Nat
  deriving DecidableEq, Repr

/-- One port beside its registers (R118–R149): timers running, presence polls missed, the bring-up step under way, signal
detect, EEE agreed, verify mPackets sent, the pause timer of each held class in quanta, since when a class is held and the part of a microsecond
held before, the module transaction under way (16 times whether it writes, and its length), the chassis bytes of the partner slots,
the control frame last sent, the core clock at which the 100 ns of R140 end, the pre-classes that changed in them, and the control frames that
wait for the MAC (R142); the preemptable frame in reassembly with the next fragment count and the frame being received; the copies selected
and not yet in the egress FIFO, in order, and the express and general parts of that FIFO (R356); the copy on the wire, the
preempted remainder, and the frame last sent; the device times at which the last bit of the frame last sent left, and at which that of the
last copy selected will leave, of class 7 and of classes 0–6. -/
structure PortSt where
  training : Bool := false
  lossOn : Bool := false
  missed : Nat := 0
  bringup : Nat := 0
  signal : Bool := false
  eee : Bool := false
  verifySent : Nat := 0
  timers : Tab Nat := []
  heldSince : Nat := 0
  heldPart : Nat := 0
  i2cOp : Nat := 0
  chassis : Tab Nat := []
  lastCtl : Option CtlFrame := none
  ctlDue : Option Nat := none
  ctlMask : Nat := 0
  ctlWait : List CtlFrame := []
  reasm : Option Nat := none
  fragCount : Nat := 0
  rxNow : Option Nat := none
  order7 : List Nat := []
  orderG : List Nat := []
  fifo7 : List TxCopy := []
  fifoG : List TxCopy := []
  wire : Option TxCopy := none
  remainder : Option TxCopy := none
  lastTx : Option SentFrame := none
  lastEnd : Nat := 0
  endX : Nat := 0
  endG : Nat := 0
  deriving DecidableEq, Repr

/-- What an I²C master does in its turn (R126): a software transaction of a port, a presence poll with what it found, or a bring-up step with
what the module answered. -/
inductive I2cJob where
  | software (port : Nat)
  | poll (port : Nat) (ack modFault : Bool)
  | step (port cmis : Nat) (apps : List (Nat × Nat × Nat))
  deriving DecidableEq, Repr

/-- An I²C master (R123, R126): what waits for it, in arrival order, the first under way; the channel-select value last written to each
multiplexer; and the bank and page that a software transaction has left selected in a port's module. -/
structure I2cSt where
  jobs : List I2cJob := []
  mux : Tab Nat := []
  page : Tab Nat := []
  deriving DecidableEq, Repr

/-! ## Groups, queues and traces -/

/-- A slice group's sprayer and reorder stage (R152–R164): jobs waiting, the reorder store in hand-over order, results released,
the copy engine's FIFO, the injection FIFO, the rotations, and the times of the sleep rules in core clocks. DESIGN CHOICE, log entry 8. -/
structure Group where
  waitE : List Nat := []
  waitG : List Nat := []
  store : List Nat := []
  released : List Nat := []
  copyFifo : List Nat := []
  inject : List Nat := []
  rotE : Nat := 12
  rotG : Nat := 12
  accepted : Nat := 0
  jobsMs : Nat := 0
  overSince : Option Nat := none
  wokeAt : Option Nat := none
  slept : Option Nat := none
  deriving DecidableEq, Repr

/-- A slice beside `SPR_SLICE`: its FIFOs and pipeline, whether a job exceeded `mark` in the window, the last microsecond counted,
whether the ADVISORY of the window has been raised, and where a drain ends (R155). -/
structure SliceSt where
  fifoE : List Nat := []
  fifoG : List Nat := []
  pipe : List Nat := []
  marked : Bool := false
  lastUs : Option Nat := none
  advised : Bool := false
  drainTo : Nat := 1
  deriving DecidableEq, Repr

/-- A token bucket or meter: two fills and the core clock of the last refill (R179, R181, R183). -/
structure Bucket where
  c : Nat
  e : Nat := 0
  last : Nat
  deriving DecidableEq, Repr

/-- One record of a queue's deep part (R297): the copy, its stored bytes, its block and byte offset, whether its last byte has still to be
written to HBM (its copy then keeps its on-chip buffer), and the eight words of its header. -/
structure DeepRec where
  copy : Copy
  bytes : List Byte
  block : Nat
  off : Nat
  staged : Bool
  header : List Nat := []
  deriving DecidableEq, Repr

/-- One egress queue (R295, R331): head, deep part, pending part; the staging line's buffer; the block chain and the write offset;
the head tag and the previous finish time; since when the queue waits for a read; the head that is eligible and the core clock since
which it is; since when its front pending copy is at the front and its read-back request waits (R305); the lines that read-back has
requested (R298). -/
structure Queue where
  head : List Copy := []
  deep : List DeepRec := []
  pend : List Copy := []
  isDeep : Bool := false
  reading : Bool := false
  staging : Option Nat := none
  blocks : List Nat := []
  woff : Nat := 65536
  tag : Option (Nat × Nat) := none
  lastF : Nat := 0
  waitSince : Option Nat := none
  ready : Option (Nat × Nat) := none
  frontAt : Nat := 0
  rdSince : Option Nat := none
  asked : List (Nat × Nat) := []
  deriving DecidableEq, Repr

/-- A line request of the HBM controller (R309): the block and its line, the egress queue it is for (none for a software pool), and the core
clock at which it came. -/
structure LineReq where
  block : Nat
  line : Nat
  queue : Option Nat
  since : Nat
  deriving DecidableEq, Repr

/-- A pseudo-channel being copied for retraining (R314): the stack, the physical pseudo-channel visited and the bench one. -/
structure HbmVisit where
  stack : Nat
  src : Nat
  dst : Nat
  deriving DecidableEq, Repr

/-- The HBM controller beside its registers: the rotations of R310, the weighted round robins of R305 (a partition and its turns left),
retraining visits and rounds, open rows and hit histories by bank, pseudo-channels in power-down, unreadable lines of software pools,
rows under repair, repairs taken by bank and corrected reads by row; the read and write queues of R309 by pseudo-channel, oldest request
first, the pseudo-channels whose direction is writes, and the requests that wait for a place, each with its direction; until which core clock
a bank is refreshed and how many of its refreshes are postponed (R312); corrected reads by pseudo-channel, the pseudo-channels that no longer
read, and the blocks of software pools that were lost with one (R316, R317). -/
structure HbmSt where
  rot : Nat := 3
  pcRot : Tab Nat := []
  wrTurn : Nat × Nat := (0, 0)
  rdTurn : Nat × Nat := (0, 0)
  visits : List HbmVisit := []
  round : Tab Nat := []
  rows : Tab Nat := []
  hist : Tab Nat := []
  asleep : List Nat := []
  badLines : List Nat := []
  repairing : List (Nat × Nat) := []
  repairs : Tab Nat := []
  rowCorr : Tab Nat := []
  reads : Tab (List LineReq) := []
  writes : Tab (List LineReq) := []
  writing : List Nat := []
  issue : List (Bool × LineReq) := []
  refreshing : Tab Nat := []
  postponed : Tab Nat := []
  corr : Tab Nat := []
  mute : List Nat := []
  lostBlocks : List Nat := []
  deriving DecidableEq, Repr

/-- The start tag of a queue set at its port's node, and its previous finish time (R331). -/
structure SetNode where
  tag : Option Nat := none
  lastF : Nat := 0
  deriving DecidableEq, Repr

/-- A copy in a punt queue (R408). -/
structure Punt where
  frame : Nat
  handle : Nat
  words : List Nat
  inPort : Nat
  len : Nat
  rx : Option Nat
  trace : Option Nat := none
  tEnq : Option Nat := none
  queue : Nat
  part : Nat
  deriving DecidableEq, Repr

/-- A tagged frame in progress (R525–R527): whether its TRACE_RX is written, whether its copies are all made, the copies with a
TRACE_TX made, and those whose TRACE_TX is still to come. -/
structure TraceSt where
  rxDone : Bool := false
  made : Bool := false
  count : Nat := 0
  left : Nat := 0
  deriving DecidableEq, Repr

/-- The tracer: its LFSR, the frames still to pass before the next tag, and the tagged frames in progress. -/
structure Tracer where
  lfsr : Nat := 0x5AC3E1
  gap : Nat := 0
  open_ : Tab TraceSt := []
  deriving DecidableEq, Repr

/-- Snapshots (R512–R518): the snapshot time while one is pending or being gathered, the functions still to be gathered in order, whether
the capture has been made, the sequence number, the shadows by bank and counter, the banks captured in block reset, and the generation at
the capture. -/
structure SnapSt where
  time : Option Nat := none
  parts : List Nat := []
  captured : Bool := false
  seq : Nat := 0
  shadow : Tab Nat := []
  flags : List Nat := []
  gen : Nat := 0
  deriving DecidableEq, Repr

/-! ## Tables and search banks (chapters 06, 07) -/

/-- Who issues a command to the table engine: a function, a thread, the ager or the twin link (R211, R224, R607). -/
inductive Issuer where
  | fn (f : Func)
  | thread (t : Nat)
  | ager
  | twin
  deriving DecidableEq, Repr

/-- A longest-prefix entry (R202) and the units it uses. -/
structure Prefix where
  part : Nat
  v6 : Bool
  vrf : Nat
  plen : Nat
  addr : Nat
  action : Nat
  units : List Nat
  deriving DecidableEq, Repr

/-- A command to the table engine: of the tables (R211), or with `tcm` of the search banks (R247). -/
structure TblReq where
  issuer : Issuer
  tcm : Bool := false
  op : Nat
  notify : Bool := false
  static : Bool := false
  width : Nat := 0
  region : Nat := 0
  part : Nat
  plen : Nat := 0
  v6 : Bool := false
  vrf : Nat := 0
  value : Nat := 0
  keys : List Nat := []
  bank : Nat := 0
  entry : Nat := 0
  act : Nat := 0
  val : List Nat := []
  care : List Nat := []
  seq : Nat := 0
  block : Nat := 0
  deriving DecidableEq, Repr

/-- A row of a logical search bank (R235): its four words, and, used of an entry's first row, the valid bit, the action word and the hit
counter in each replica (R252). -/
structure TcmRow where
  valid : Bool := false
  words : List Nat := [0, 0, 0, 0]
  action : Nat := 0
  hits : List Nat := [0, 0, 0, 0]
  deriving DecidableEq, Repr

/-- A search-bank entry as its rows hold it (R235): the words of its value, and of its care in OZ1280 mode. -/
structure TcmEntry where
  valid : Bool := false
  value : List Nat := []
  care : List Nat := []
  action : Nat := 0
  hits : List Nat := [0, 0, 0, 0]
  deriving DecidableEq, Repr

/-- An accepted command that awaits its commit time (R213, R249): what it writes, and what it answers. -/
structure TblOp where
  req : TblReq
  writes : List (Nat × Nat) := []
  hitsFor : List Nat := []
  lpmAdd : Option Prefix := none
  lpmDel : Option Prefix := none
  moves : Nat := 0
  status : Nat := 0
  reads : List Nat := []
  turn : Tab Nat := []
  deriving DecidableEq, Repr

/-- The table pool, the search banks and their engine. -/
structure TblSt where
  units : Tab Nat := []
  prefixes : List Prefix := []
  hits : Tab Nat := []
  bad : List (Nat × Nat) := []
  met : List (Nat × Nat) := []
  gone : List Nat := []
  turn : Tab Nat := []
  waiting : List TblReq := []
  ops : List TblOp := []
  seqs : Tab Nat := []
  filter : Tab (Nat × Nat) := []
  asleep : List Nat := []
  tcm : Tab TcmRow := []
  tcmBad : List (Nat × Nat × Nat) := []
  tcmDead : List (Nat × Nat × Nat) := []
  tcmSleep : List Nat := [0x220, 0x221, 0x260, 0x261, 0x2A0, 0x2A1, 0x2E0, 0x2E1]
  tcmCopy : List Nat := []
  agerTurn : Nat := 0
  deriving DecidableEq, Repr

/-! ## The twin link (chapter 19) -/

/-- What the cross link carries to the peer (R595): a learn record, a replayed command, a redirected copy with its bytes, a handover, a
keepalive, the identity, an ownership report, a time report, a cross DMA write or read request, a read response or the code of a refusal, or
a request to be handed a pair. -/
inductive TwinMsg where
  | learn (part : Nat) (rec : Record)
  | replay (part : Nat) (req : TblReq)
  | copy (c : Copy) (peerPort : Nat) (bytes : List Byte)
  | handover (peerPort : Nat)
  | keepalive
  | identity (serial : Nat) (black : Bool)
  | ownership (states : List Nat)
  | time (locked : Bool) (err : Nat)
  | dmaWrite (part off : Nat) (bytes : List Byte)
  | dmaRead (part off len : Nat)
  | dmaData (bytes : List Byte)
  | refused (code : Nat)
  | take (peerPort : Nat)
  deriving DecidableEq, Repr

/-- Cells held until they are acknowledged (R594): the first sequence number, how many cells, and the message they carry. -/
structure TwinCell where
  seq : Nat
  cells : Nat
  msg : TwinMsg
  deriving DecidableEq, Repr

/-- The twin link beside its registers: cells held, the next sequence number, resends in a row by lane, the timers running, and
whether `en` started the settle timer, the pair in handover (its port, and 256 more when it goes to the peer), whether the check line is silent,
the levels of the check line, and the error that the peer's last time report gave. -/
structure TwinSt where
  out : List TwinCell := []
  seq : Nat := 0
  inRow : Tab Nat := []
  settling : Bool := false
  guarding : Bool := false
  fromEn : Bool := false
  moving : Option Nat := none
  silent : Bool := false
  chkOut : Bool := false
  chkIn : Bool := false
  peerErr : Nat := 1048575
  deriving DecidableEq, Repr

/-! ## Power and the always-on island (chapter 18) -/

/-- The instructions of the test access port that R655 names. -/
inductive TapIns where
  | idcode | extest | extestPulse | extestTrain | bypass
  deriving DecidableEq, Repr

/-- The console's receiver (R584): the tick of the character that it takes, counted from the first low of its start bit (0 while none runs), the
samples 7 to 9 of the present bit so far, the bits decided, and whether it waits for a tick of high line after a BREAK. -/
structure Uart where
  tick : Nat := 0
  seen : List Bool := []
  decided : List Bool := []
  hold : Bool := false
  deriving DecidableEq, Repr

/-- Power states, the island and the console beside their registers (R562–R587). `pwrEn` the levels of `PWR_EN`; `op` the sequencer's
operation and `bit` the bit it is at; `down` while POWER_DOWN runs, `failed` when it ends a failed POWER_UP, `porWait` when the island's
reset follows it; `offWait` the off time of a CYCLE; `wasOff` the main supplies were off before this boot; `inPor` the island is in
power-on reset; `crystal` stable; `osc` the fast oscillator runs; `div` the console's divider in force; `response` its last response,
`uart` its receiver and `conRx` the bytes of a partial request.
`entering`, `leaving` REST; `wake` the causes of a wake that came during entry; `lowMs` the consecutive ms of low load; `since` the
real-time counter at the entry to the power state; `restTime`, `restRtc` device time and counter stored at REST entry; `adapting` lanes
whose adaptation runs in DOZE; `rtcAcc`, `wdtAcc`, `chkAcc` the parts of a slow-clock tick, a watchdog count and a half period of the check
line; `exitRec` the record of a STANDBY exit until the rings take it; `rails` the samples of each rail's present ms: their number, sum of mV
and sum of mW; `hotBefore` the sensors at the critical limit at the last reading; `warnAt` the core clock of the last warning; `selftest` the
cause, unit and details of each failure that a passed self-test found. -/
structure PowerSt where
  pwrEn : Nat := 0
  op : Option Nat := none
  bit : Nat := 0
  down : Bool := false
  failed : Bool := false
  porWait : Bool := false
  offWait : Bool := false
  wasOff : Bool := true
  inPor : Bool := true
  crystal : Bool := false
  osc : Bool := true
  div : Nat := 417
  response : List Byte := []
  uart : Uart := {}
  conRx : List Byte := []
  entering : Bool := false
  leaving : Bool := false
  wake : Nat := 0
  lowMs : Nat := 0
  since : Nat := 0
  restTime : Nat := 0
  restRtc : Nat := 0
  adapting : List Nat := []
  rtcAcc : Nat := 0
  wdtAcc : Nat := 0
  chkAcc : Nat := 0
  exitRec : Option Record := none
  rails : Tab (Nat × Nat × Nat) := []
  hotBefore : List Nat := []
  warnAt : Option Nat := none
  selftest : Option (List (Nat × Nat × Nat × Nat)) := none
  deriving DecidableEq, Repr

/-! ## The machine -/

/-- The state of the block: the queue of commands, the register file, and the parts that no register shows. -/
structure State where
  pending : List Instr := []
  free : Nat := 0
  regs : RegFile := []
  fns : Tab FnState := []
  planes : Tab Plane := []
  image : ImageSt := {}
  cmem : Tab Word := []
  hostMem : Tab Byte := []
  chans : Tab Chan := []
  lanes : Tab Lane := []
  msix : Tab Msix := []
  pcie : PcieSt := {}
  time : TimeSt := {}
  flt : FaultSt := {}
  ports : Tab PortSt := []
  i2c : Tab I2cSt := []
  bufs : Tab Buf := []
  bufMem : Tab Byte := []
  expUsed : Tab Nat := []
  hdrmUsed : Tab Nat := []
  frames : Tab Frame := []
  nextFrame : Nat := 1
  nextCopy : Nat := 1
  seqs : Tab Nat := []
  groups : Tab Group := []
  slices : Tab SliceSt := []
  buckets : Tab Bucket := []
  blocked : Tab Nat := []
  queues : Tab Queue := []
  engines : Tab Engine := []
  clusters : Tab Cluster := []
  rwFenced : List (Nat × Nat) := []
  sets : Tab SetNode := []
  hbm : HbmSt := {}
  credits : Tab Int := []
  rates : Tab Nat := []
  threads : Tab Thread := []
  sevs : List (Nat × Nat) := []
  mail : Tab (List (List Nat)) := []
  faultQ : Tab (List (List Nat)) := []
  icache : Tab Word := []
  tags : Tab (Nat × Nat) := []
  bpmReply : Nat × Nat := (0, 0)
  punts : Tab (List Punt) := []
  events : Tab (List (List Nat)) := []
  learned : List (Nat × Record) := []
  mirrors : Tab Nat := []
  watch : Tab (Nat × Nat) := []
  balance : Tab Nat := []
  trace : Tracer := {}
  snap : SnapSt := {}
  held : List Nat := []
  tbl : TblSt := {}
  twin : TwinSt := {}
  power : PowerSt := {}
  tap : TapIns := .idcode
  deriving DecidableEq, Repr

/-- Why a run stops: no command stops one, since the spec gives each of them an effect. -/
inductive Fault where
  deriving DecidableEq, Repr

/-- Why a command has no meaning here. -/
inductive Refusal where
  /-- Raised by no meaning: only by an arm of `exec` whose command is not modelled yet. Safe. -/
  | notModelled (mnemonic : String)
  deriving DecidableEq, Repr

/-- The state after reset. DEDUCED, log entry 1. -/
def State.reset : State := {}

end Sys2Proof.Machine
end

