-- ==== Sys2Proof/Machine/Ops.lean ====
section
/-! DEFINITION. The named operations over registers, planes, time and free values that the commands' meanings share. -/

namespace Sys2Proof.Machine

/-- The state with another queue of commands. DESIGN CHOICE, log entry 2. -/
def State.withQueue (s : State) (q : List Instr) : State := { s with pending := q }

/-- A command that completes: its effect on everything but the queue of commands. -/
def State.act (s : State) (f : State → State) : Host.Outcome State Fault Refusal :=
  .next ((f s).withQueue s.pending)

/-! ## Registers -/

/-- Read element `i` of copy `c` of a register. -/
def State.rd (s : State) (r : Reg) (c : Nat := 0) (i : Nat := 0) : RegVal :=
  regGet s.regs r c i

/-- Write element `i` of copy `c` of a register, whatever its access code: the device's own write. -/
def State.wr (s : State) (r : Reg) (c i : Nat) (v : RegVal) : State :=
  { s with regs := regSet s.regs r c i v }

/-- Read a field. -/
def State.fget (s : State) (f : Fld) (c : Nat := 0) (i : Nat := 0) : Nat :=
  fldGet (s.rd f.reg c i) f.hi f.lo

/-- Write a field. -/
def State.fset (s : State) (f : Fld) (c i : Nat) (n : Nat) : State :=
  s.wr f.reg c i (fldSet (s.rd f.reg c i) f.hi f.lo n)

/-- Read a one-bit field. -/
def State.flag (s : State) (f : Fld) (c : Nat := 0) (i : Nat := 0) : Bool :=
  s.fget f c i = 1

/-- The largest value of a field. -/
def Fld.top (f : Fld) : Nat := 2 ^ (f.hi + 1 - f.lo) - 1

/-- Add to a field that stops at its largest value. -/
def State.bumpSat (s : State) (f : Fld) (c i : Nat) (n : Nat := 1) : State :=
  s.fset f c i (min (s.fget f c i + n) f.top)

/-- Add to a 72-bit counter, or to a field that wraps. -/
def State.bump (s : State) (f : Fld) (c i : Nat) (n : Nat := 1) : State :=
  s.fset f c i (s.fget f c i + n)

/-- Subtract from a field that stops at 0. -/
def State.drop (s : State) (f : Fld) (c i : Nat) (n : Nat := 1) : State :=
  s.fset f c i (s.fget f c i - n)

/-! ## REST -/

/-- In REST, and from its entry on (R567, R568): threads stand at an instruction boundary, and clocks are stopped. -/
def State.frozen (s : State) : Bool := s.power.entering || decide (s.fget F.AON_STATUS.pstate = 2)

/-- A command of a part that REST stops in its present state (R567): without effect there. DEDUCED, log entry 23. -/
def State.actAwake (s : State) (f : State → State) : Host.Outcome State Fault Refusal := s.act fun s => if s.frozen then s else f s

/-! ## Planes -/

/-- The key of one bank of one scope's state. -/
def planeKey (scope bank : Nat) : Nat := scope * 2 + bank % 2

/-- One bank of a scope's plane-dependent state (R38). -/
def State.plane (s : State) (scope bank : Nat) : Plane :=
  tabGet {} s.planes (planeKey scope bank)

/-- Replace one bank of a scope's state. -/
def State.setPlane (s : State) (scope bank : Nat) (p : Plane) : State :=
  { s with planes := tabSet {} s.planes (planeKey scope bank) p }

/-- The bank map of a scope (R39). -/
def State.scope (s : State) (scope : Nat) : Scope :=
  tabGet {} s.image.scopes scope

/-- The tag given to frames now starting: the parity of the generation number (R39). -/
def State.tagNow (s : State) : Nat := s.fget F.IMG_GEN.tag

/-- The bank of a scope that a plane tag maps to (R39). -/
def State.bankOf (s : State) (scope tag : Nat) : Nat :=
  if tag = s.tagNow then (s.scope scope).active else (s.scope scope).old

/-- The scope's SHADOW bank. -/
def State.shadowOf (s : State) (scope : Nat) : Nat := 1 - (s.scope scope).active % 2

/-- An RWL register as one bank of its scope holds it (R40). -/
def State.rdPlane (s : State) (scope bank : Nat) (r : Reg) (c : Nat := 0) (i : Nat := 0) : RegVal :=
  regGet (s.plane scope bank).regs r c i

/-- A field of an RWL register under a plane tag. -/
def State.pget (s : State) (scope tag : Nat) (f : Fld) (c : Nat := 0) (i : Nat := 0) : Nat :=
  fldGet (s.rdPlane scope (s.bankOf scope tag) f.reg c i) f.hi f.lo

/-- A word of a section under a plane tag: section type code and index (R48). -/
def State.pword (s : State) (scope tag type idx : Nat) : Nat :=
  (tabGet 0 (s.plane scope (s.bankOf scope tag)).words (type * 2 ^ 28 + idx)).toNat

/-- Bits [hi:lo] of a number. -/
def bits (v hi lo : Nat) : Nat := (v >>> lo) % 2 ^ (hi + 1 - lo)

/-- Bit `b` of a number. -/
def bit (v b : Nat) : Bool := (v >>> b) % 2 = 1

/-! ## Scope states (R60) -/

/-- The state of a scope's SHADOW bank, by the codes of R60. -/
def State.scopeState (s : State) (scope : Nat) : Nat :=
  if scope < 12 then bits (s.rd .IMG_SCOPE_STATE0).toNat (3 * scope + 2) (3 * scope)
  else bits (s.rd .IMG_SCOPE_STATE1).toNat (3 * (scope - 12) + 2) (3 * (scope - 12))

/-- Change the state of a scope's SHADOW bank. -/
def State.setScopeState (s : State) (scope n : Nat) : State :=
  if scope < 12 then s.wr .IMG_SCOPE_STATE0 0 0 (fldSet (s.rd .IMG_SCOPE_STATE0) (3 * scope + 2) (3 * scope) n)
  else s.wr .IMG_SCOPE_STATE1 0 0 (fldSet (s.rd .IMG_SCOPE_STATE1) (3 * (scope - 12) + 2) (3 * (scope - 12)) n)

/-! ## Partitions (R100): the PARTITION section of scope H -/

/-- Word `w` of a partition's record under a plane tag. -/
def State.partWordT (s : State) (tag p w : Nat) : Nat := s.pword 16 tag 2 (28 * p + w)

/-- Word `w` of partition `p`'s record in the ACTIVE image. -/
def State.partWord (s : State) (p w : Nat) : Nat := s.pword 16 s.tagNow 2 (28 * p + w)

/-- The partition exists (R100, R101: record 16 is always enabled). -/
def State.partEnabled (s : State) (p : Nat) : Bool := p = 16 || bit (s.partWord p 0) 0

/-- The partition holds the port exclusively. -/
def State.holdsPort (s : State) (p port : Nat) : Bool :=
  s.partEnabled p && bit (s.partWord p (1 + port / 32)) (port % 32)

/-- The tenant holds a queue set on the port, exclusively held or shared (R100). -/
def State.holdsSet (s : State) (p port : Nat) : Bool :=
  s.partEnabled p && (bit (s.partWord p (1 + port / 32)) (port % 32) || bit (s.partWord p (9 + port / 32)) (port % 32))

/-- The holder of a port: the tenant holding it exclusively, else H (R102). -/
def State.portHolder (s : State) (port : Nat) : Nat :=
  ((List.range 16).find? fun p => s.holdsPort p port).getD 16

/-- A tenant holds a port exclusively under a plane tag. -/
def State.holdsPortT (s : State) (tag p port : Nat) : Bool :=
  decide (p < 16) && bit (s.partWordT tag p 0) 0 && bit (s.partWordT tag p (1 + port / 32)) (port % 32)

/-- The tenant that holds a port exclusively under a plane tag. -/
def State.exclusiveT (s : State) (tag port : Nat) : Option Nat := (List.range 16).find? fun p => s.holdsPortT tag p port

/-! ## Time (R487, R488) -/

/-- One second in the units of the count. -/
def secUnits : Nat := 1000000000 * 2 ^ 48

/-- Device time as a stamp: word 0 in [35:0], word 1 in [71:36] (R488). -/
def stampOf (now : Nat) : Nat :=
  (now / secUnits) % 2 ^ 36 * 2 ^ 36 + (now % secUnits) / 2 ^ 48 * 2 ^ 6 + (now % 2 ^ 48) / 2 ^ 42

/-- The stamp of this moment. -/
def State.stamp (s : State) : Nat := stampOf s.time.now

/-- The advance of the count at one core clock under a rate (R487): 0.625 ns × (1 + rate × 2⁻⁴⁰). -/
def clockStep (rate : Int) : Int := 5 * 2 ^ 45 + 160 * rate

/-- `TIM_RATE.rate`, signed and limited to ±1,000 ppm (R491). -/
def State.rate (s : State) : Int :=
  let v : Int := (BitVec.ofNat 36 (s.fget F.TIM_RATE.rate)).toInt
  max (-1099511628) (min 1099511628 v)

/-- Device time wraps where its 48-bit seconds do. -/
def wrapTime (t : Int) : Nat := (t % (2 ^ 48 * secUnits : Nat)).toNat

/-- One core clock (R487). -/
def State.tick (s : State) : State :=
  { s with time := { s.time with now := wrapTime (s.time.now + clockStep s.rate), cycles := s.time.cycles + 1 } }

/-- Core clocks per microsecond: 1.6 GHz (R1). -/
def clocksPerUs : Nat := 1600

/-! ## Free values -/

/-- A value the spec leaves open, of `w` bits, and the state in which the next one is another. DESIGN CHOICE, log entry 5. -/
def State.freeNat (s : State) (w : Nat) : Nat := (Config.freeValue s.free).toNat % 2 ^ w

/-- Advance to the next free value. -/
def State.nextFree (s : State) : State := { s with free := s.free + 1 }

/-! ## Per-function stages and reply -/

/-- A function's stages and latches. -/
def State.fn (s : State) (f : Func) : FnState := tabGet {} s.fns f.idx

/-- Change a function's stages and latches. -/
def State.modFn (s : State) (f : Func) (g : FnState → FnState) : State :=
  { s with fns := tabMod {} s.fns f.idx g }

/-! ## CMEM -/

/-- A word of CMEM; all are zero after the self-test (R624). DESIGN CHOICE, log entry 7. -/
def State.cget (s : State) (w : Nat) : Word := tabGet 0 s.cmem w

/-- Write a word of CMEM. -/
def State.cset (s : State) (w : Nat) (v : Word) : State := { s with cmem := tabSet 0 s.cmem w v }

/-- The device writes bytes into host memory under a function's requester ID (R431). DESIGN CHOICE, log entry 54. -/
def hostWrite (m : Tab Byte) (fn addr : Nat) : List Byte → Tab Byte
  | [] => m
  | b :: bs => hostWrite (tabInsert m (fn * 2 ^ 64 + addr % 2 ^ 64) b) fn (addr + 1) bs

/-- A number's bytes, lowest first. -/
def bytesLE : Nat → Nat → List Byte
  | 0, _ => []
  | n + 1, v => BitVec.ofNat 8 v :: bytesLE n (v / 256)

/-- A number's bytes, highest first. -/
def bytesBE (n v : Nat) : List Byte := (bytesLE n v).reverse

/-- The number that bytes spell, lowest first. -/
def ofLE : List Byte → Nat
  | [] => 0
  | b :: bs => b.toNat + 256 * ofLE bs

/-- The number that bytes spell, highest first. -/
def ofBE (bs : List Byte) : Nat := ofLE bs.reverse

/-- The function of a copy's index. -/
def funcOf (k : Nat) : Func := if k < 16 then .vf k else if k = 16 then .pf else .console

end Sys2Proof.Machine
end

