-- ==== Sys2Proof/Machine/Crypto.lean ====
section
/-! DEFINITION. The algorithms that R46 and R472 name by their standards: AES (FIPS 197) with CMAC, GCM and XTS, ChaCha20-Poly1305 (RFC 8439),
and HMAC-SHA-256. Their text stands in the standards. -/

namespace Sys2Proof.Machine

/-! ## AES (FIPS 197) -/

/-- The substitution box of AES. -/
def aesSbox : List Nat :=
  [0x63, 0x7c, 0x77, 0x7b, 0xf2, 0x6b, 0x6f, 0xc5, 0x30, 0x01, 0x67, 0x2b, 0xfe, 0xd7, 0xab, 0x76,
   0xca, 0x82, 0xc9, 0x7d, 0xfa, 0x59, 0x47, 0xf0, 0xad, 0xd4, 0xa2, 0xaf, 0x9c, 0xa4, 0x72, 0xc0,
   0xb7, 0xfd, 0x93, 0x26, 0x36, 0x3f, 0xf7, 0xcc, 0x34, 0xa5, 0xe5, 0xf1, 0x71, 0xd8, 0x31, 0x15,
   0x04, 0xc7, 0x23, 0xc3, 0x18, 0x96, 0x05, 0x9a, 0x07, 0x12, 0x80, 0xe2, 0xeb, 0x27, 0xb2, 0x75] ++
  [0x09, 0x83, 0x2c, 0x1a, 0x1b, 0x6e, 0x5a, 0xa0, 0x52, 0x3b, 0xd6, 0xb3, 0x29, 0xe3, 0x2f, 0x84,
   0x53, 0xd1, 0x00, 0xed, 0x20, 0xfc, 0xb1, 0x5b, 0x6a, 0xcb, 0xbe, 0x39, 0x4a, 0x4c, 0x58, 0xcf,
   0xd0, 0xef, 0xaa, 0xfb, 0x43, 0x4d, 0x33, 0x85, 0x45, 0xf9, 0x02, 0x7f, 0x50, 0x3c, 0x9f, 0xa8,
   0x51, 0xa3, 0x40, 0x8f, 0x92, 0x9d, 0x38, 0xf5, 0xbc, 0xb6, 0xda, 0x21, 0x10, 0xff, 0xf3, 0xd2] ++
  [0xcd, 0x0c, 0x13, 0xec, 0x5f, 0x97, 0x44, 0x17, 0xc4, 0xa7, 0x7e, 0x3d, 0x64, 0x5d, 0x19, 0x73,
   0x60, 0x81, 0x4f, 0xdc, 0x22, 0x2a, 0x90, 0x88, 0x46, 0xee, 0xb8, 0x14, 0xde, 0x5e, 0x0b, 0xdb,
   0xe0, 0x32, 0x3a, 0x0a, 0x49, 0x06, 0x24, 0x5c, 0xc2, 0xd3, 0xac, 0x62, 0x91, 0x95, 0xe4, 0x79,
   0xe7, 0xc8, 0x37, 0x6d, 0x8d, 0xd5, 0x4e, 0xa9, 0x6c, 0x56, 0xf4, 0xea, 0x65, 0x7a, 0xae, 0x08] ++
  [0xba, 0x78, 0x25, 0x2e, 0x1c, 0xa6, 0xb4, 0xc6, 0xe8, 0xdd, 0x74, 0x1f, 0x4b, 0xbd, 0x8b, 0x8a,
   0x70, 0x3e, 0xb5, 0x66, 0x48, 0x03, 0xf6, 0x0e, 0x61, 0x35, 0x57, 0xb9, 0x86, 0xc1, 0x1d, 0x9e,
   0xe1, 0xf8, 0x98, 0x11, 0x69, 0xd9, 0x8e, 0x94, 0x9b, 0x1e, 0x87, 0xe9, 0xce, 0x55, 0x28, 0xdf,
   0x8c, 0xa1, 0x89, 0x0d, 0xbf, 0xe6, 0x42, 0x68, 0x41, 0x99, 0x2d, 0x0f, 0xb0, 0x54, 0xbb, 0x16]

/-- The inverse substitution box. -/
def aesInvSbox : List Nat :=
  [0x52, 0x09, 0x6a, 0xd5, 0x30, 0x36, 0xa5, 0x38, 0xbf, 0x40, 0xa3, 0x9e, 0x81, 0xf3, 0xd7, 0xfb,
   0x7c, 0xe3, 0x39, 0x82, 0x9b, 0x2f, 0xff, 0x87, 0x34, 0x8e, 0x43, 0x44, 0xc4, 0xde, 0xe9, 0xcb,
   0x54, 0x7b, 0x94, 0x32, 0xa6, 0xc2, 0x23, 0x3d, 0xee, 0x4c, 0x95, 0x0b, 0x42, 0xfa, 0xc3, 0x4e,
   0x08, 0x2e, 0xa1, 0x66, 0x28, 0xd9, 0x24, 0xb2, 0x76, 0x5b, 0xa2, 0x49, 0x6d, 0x8b, 0xd1, 0x25] ++
  [0x72, 0xf8, 0xf6, 0x64, 0x86, 0x68, 0x98, 0x16, 0xd4, 0xa4, 0x5c, 0xcc, 0x5d, 0x65, 0xb6, 0x92,
   0x6c, 0x70, 0x48, 0x50, 0xfd, 0xed, 0xb9, 0xda, 0x5e, 0x15, 0x46, 0x57, 0xa7, 0x8d, 0x9d, 0x84,
   0x90, 0xd8, 0xab, 0x00, 0x8c, 0xbc, 0xd3, 0x0a, 0xf7, 0xe4, 0x58, 0x05, 0xb8, 0xb3, 0x45, 0x06,
   0xd0, 0x2c, 0x1e, 0x8f, 0xca, 0x3f, 0x0f, 0x02, 0xc1, 0xaf, 0xbd, 0x03, 0x01, 0x13, 0x8a, 0x6b] ++
  [0x3a, 0x91, 0x11, 0x41, 0x4f, 0x67, 0xdc, 0xea, 0x97, 0xf2, 0xcf, 0xce, 0xf0, 0xb4, 0xe6, 0x73,
   0x96, 0xac, 0x74, 0x22, 0xe7, 0xad, 0x35, 0x85, 0xe2, 0xf9, 0x37, 0xe8, 0x1c, 0x75, 0xdf, 0x6e,
   0x47, 0xf1, 0x1a, 0x71, 0x1d, 0x29, 0xc5, 0x89, 0x6f, 0xb7, 0x62, 0x0e, 0xaa, 0x18, 0xbe, 0x1b,
   0xfc, 0x56, 0x3e, 0x4b, 0xc6, 0xd2, 0x79, 0x20, 0x9a, 0xdb, 0xc0, 0xfe, 0x78, 0xcd, 0x5a, 0xf4] ++
  [0x1f, 0xdd, 0xa8, 0x33, 0x88, 0x07, 0xc7, 0x31, 0xb1, 0x12, 0x10, 0x59, 0x27, 0x80, 0xec, 0x5f,
   0x60, 0x51, 0x7f, 0xa9, 0x19, 0xb5, 0x4a, 0x0d, 0x2d, 0xe5, 0x7a, 0x9f, 0x93, 0xc9, 0x9c, 0xef,
   0xa0, 0xe0, 0x3b, 0x4d, 0xae, 0x2a, 0xf5, 0xb0, 0xc8, 0xeb, 0xbb, 0x3c, 0x83, 0x53, 0x99, 0x61,
   0x17, 0x2b, 0x04, 0x7e, 0xba, 0x77, 0xd6, 0x26, 0xe1, 0x69, 0x14, 0x63, 0x55, 0x21, 0x0c, 0x7d]

/-- A byte through a box. -/
def boxed (box : List Nat) (b : Nat) : Nat := box.getD b 0

/-- Doubling in GF(2⁸). -/
def gfDouble (b : Nat) : Nat := if b < 128 then 2 * b else (2 * b - 256) ^^^ 0x1B

/-- The product in GF(2⁸) with a factor of `n` bits. -/
def gfMul : Nat → Nat → Nat → Nat
  | 0, _, _ => 0
  | n + 1, a, b => (if a % 2 = 1 then b else 0) ^^^ gfMul n (a / 2) (gfDouble b)

/-- Four bytes of a key word. -/
abbrev KeyWord := List Nat

/-- Bytewise exclusive or of numbers. -/
def xorNats (a b : List Nat) : List Nat := List.zipWith (· ^^^ ·) a b

/-- The word that the schedule adds at index `i`, from the word before it: rotated and substituted at each multiple of the key's words, with the
round constant `rc`; of a long key substituted half way. -/
def schedTerm (nk i rc : Nat) (w : KeyWord) : KeyWord :=
  if i % nk = 0 then
    match (w.drop 1 ++ w.take 1).map (boxed aesSbox) with
    | a :: l => (a ^^^ rc) :: l
    | [] => []
  else if 6 < nk ∧ i % nk = 4 then w.map (boxed aesSbox)
  else w

/-- The key schedule, latest word first: `n` words more from index `i`. -/
def schedMore (nk : Nat) : Nat → Nat → Nat → List KeyWord → List KeyWord
  | 0, _, _, ws => ws
  | n + 1, i, rc, ws =>
    let w := xorNats (ws.getD (nk - 1) []) (schedTerm nk i rc (ws.headD []))
    schedMore nk n (i + 1) (if i % nk = 0 then gfDouble rc else rc) (w :: ws)

/-- Lists of `k` elements each, `n` of them. -/
def groupsOf {α : Type} (k : Nat) : Nat → List α → List (List α)
  | 0, _ => []
  | n + 1, l => l.take k :: groupsOf k n (l.drop k)

/-- The round keys of a key of 16, 24 or 32 bytes, the first first. -/
def roundKeys (key : List Byte) : List (List Nat) :=
  let nk := key.length / 4
  let ws := (schedMore nk (4 * (nk + 7) - nk) nk 1 (groupsOf 4 nk (key.map BitVec.toNat)).reverse).reverse
  groupsOf 16 (nk + 7) ws.flatten

/-- The bytes of a state in the order that shifting its rows by `k` columns a row gives. -/
def shiftRows (k : Nat) (st : List Nat) : List Nat := (List.range 16).map fun i => st.getD ((i / 4 + k * (i % 4)) % 4 * 4 + i % 4) 0

/-- Each column times a polynomial, given by its four coefficients. -/
def mixColumns (m : List Nat) (st : List Nat) : List Nat :=
  (List.range 16).map fun i =>
    (List.range 4).foldl (fun a j => a ^^^ gfMul 4 (m.getD ((j + 4 - i % 4) % 4) 0) (st.getD (i / 4 * 4 + j) 0)) 0

/-- The rounds of encryption, with the round keys that are left. -/
def encRounds : List (List Nat) → List Nat → List Nat
  | [], st => st
  | [k], st => xorNats (shiftRows 1 (st.map (boxed aesSbox))) k
  | k :: ks, st => encRounds ks (xorNats (mixColumns [2, 3, 1, 1] (shiftRows 1 (st.map (boxed aesSbox)))) k)

/-- The rounds of decryption, with the round keys that are left, the last one first. -/
def decRounds : List (List Nat) → List Nat → List Nat
  | [], st => st
  | [k], st => xorNats st k
  | k :: ks, st =>
    decRounds ks ((shiftRows 3 (mixColumns [14, 11, 13, 9] (xorNats st k))).map (boxed aesInvSbox))

/-- A block as a number, its first byte the most significant, and back. -/
def blockNat (b : List Byte) : BitVec 128 := BitVec.ofNat 128 (ofBE b)
def natBlock (v : BitVec 128) : List Byte := bytesBE 16 v.toNat

/-- The bytes of a block as numbers, and back. -/
def blockNats (v : BitVec 128) : List Nat := (natBlock v).map BitVec.toNat
def natsBlock (l : List Nat) : BitVec 128 := blockNat (l.map (BitVec.ofNat 8))

/-- AES on a block whose first byte is the most significant, under a key of 16, 24 or 32 bytes. PRESUMED, log entry 10. -/
def aesEnc (key : List Byte) (v : BitVec 128) : BitVec 128 :=
  match roundKeys key with
  | [] => v
  | k :: ks => natsBlock (encRounds ks (xorNats (blockNats v) k))

/-- The inverse of AES. PRESUMED, log entry 10. -/
def aesDec (key : List Byte) (v : BitVec 128) : BitVec 128 :=
  match (roundKeys key).reverse with
  | [] => v
  | k :: ks => natsBlock (decRounds ks ((shiftRows 3 (xorNats (blockNats v) k)).map (boxed aesInvSbox)))

/-- The 16-byte blocks of a message. -/
def blocksOf : Nat → List Byte → List (List Byte)
  | 0, _ => []
  | n + 1, bs => bs.take 16 :: blocksOf n (bs.drop 16)

/-! ## AES-CMAC (SP 800-38B) -/

/-- Doubling of a block in GF(2¹²⁸), the most significant bit first. -/
def blockDouble (v : BitVec 128) : BitVec 128 := if v.getLsbD 127 then (v <<< 1) ^^^ 0x87#128 else v <<< 1

/-- The last block of a message of CMAC: whole with the first subkey, or filled up with 10… with the second. -/
def cmacLast (key : List Byte) (b : List Byte) : BitVec 128 :=
  let k1 := blockDouble (aesEnc key 0)
  if b.length = 16 then blockNat b ^^^ k1
  else blockNat (b ++ 0x80#8 :: List.replicate (15 - b.length) 0#8) ^^^ blockDouble k1

/-- The chain of CMAC. -/
def cmacChain (key : List Byte) : BitVec 128 → List (List Byte) → BitVec 128
  | x, [] => aesEnc key (x ^^^ cmacLast key [])
  | x, [b] => aesEnc key (x ^^^ cmacLast key b)
  | x, b :: bs => cmacChain key (aesEnc key (x ^^^ blockNat b)) bs

/-- AES-CMAC of a message. PRESUMED, log entry 10. -/
def aesCmac (key msg : List Byte) : BitVec 128 := cmacChain key 0 (blocksOf ((msg.length + 15) / 16) msg)

/-! ## AES-GCM (SP 800-38D) -/

/-- The product in GCM's field: `n` bits of `x` from the most significant on. -/
def gcmMul : Nat → BitVec 128 → BitVec 128 → BitVec 128
  | 0, _, _ => 0
  | n + 1, x, v =>
    (if x.getLsbD 127 then v else 0) ^^^ gcmMul n (x <<< 1) (if v.getLsbD 0 then (v >>> 1) ^^^ (0xE1#128 <<< 120) else v >>> 1)

/-- Bytes filled up with zeros to whole blocks of 16. -/
def padBlock (bs : List Byte) : List Byte := bs ++ List.replicate ((16 - bs.length % 16) % 16) 0#8

/-- The full tag of AES-GCM of an IV of 12 bytes. PRESUMED, log entry 10. -/
def gcmTag (key iv aad ct : List Byte) : BitVec 128 :=
  let h := aesEnc key 0
  let text := padBlock aad ++ padBlock ct ++ bytesBE 8 (8 * aad.length) ++ bytesBE 8 (8 * ct.length)
  let s := (blocksOf (text.length / 16) text).foldl (fun y b => gcmMul 128 (y ^^^ blockNat b) h) 0
  s ^^^ aesEnc key (BitVec.ofNat 128 (ofBE iv * 2 ^ 32 + 1))

/-! ## AES-XTS (IEEE 1619) -/

/-- The tweak of the next block: times α, the first byte the least significant. -/
def nextTweak (t : Nat) : Nat := if t < 2 ^ 127 then 2 * t else (2 * t - 2 ^ 128) ^^^ 0x87

/-- One block of XTS under a tweak. -/
def xtsBlock (enc : Bool) (key : List Byte) (t : Nat) (b : List Byte) : List Byte :=
  let x := List.zipWith (· ^^^ ·) b (bytesLE 16 t)
  List.zipWith (· ^^^ ·) (natBlock (if enc then aesEnc key (blockNat x) else aesDec key (blockNat x))) (bytesLE 16 t)

/-- A data unit of XTS from a tweak on, in whole blocks, the last of a part of one by ciphertext stealing; `n` bounds the blocks. -/
def xtsUnit (enc : Bool) (key : List Byte) : Nat → Nat → List Byte → List Byte
  | 0, _, _ => []
  | n + 1, t, bs =>
    if bs.length < 16 then []
    else if bs.length = 16 ∨ 32 ≤ bs.length then xtsBlock enc key t (bs.take 16) ++ xtsUnit enc key n (nextTweak t) (bs.drop 16)
    else
      let (t1, t2) := if enc then (t, nextTweak t) else (nextTweak t, t)
      let c := xtsBlock enc key t1 (bs.take 16)
      let tail := bs.drop 16
      xtsBlock enc key t2 (tail ++ c.drop tail.length) ++ c.take tail.length

/-- AES-XTS of a data unit: the first half of the key for the data, the second for the tweak. PRESUMED, log entry 10. -/
def aesXts (enc : Bool) (key iv msg : List Byte) : List Byte :=
  let k := key.length / 2
  xtsUnit enc (key.take k) (msg.length / 16 + 1) (ofLE (natBlock (aesEnc (key.drop k) (blockNat iv)))) msg

/-! ## ChaCha20-Poly1305 (RFC 8439) -/

/-- A word of a list of words, and the list with it changed. -/
def wordAt (l : List (BitVec 32)) (i : Nat) : BitVec 32 := l.getD i 0

/-- A quarter round on four words. -/
def quarterRound (l : List (BitVec 32)) (i : Nat × Nat × Nat × Nat) : List (BitVec 32) :=
  let (a, b, c, d) := (wordAt l i.1, wordAt l i.2.1, wordAt l i.2.2.1, wordAt l i.2.2.2)
  let a := a + b
  let d := (d ^^^ a).rotateLeft 16
  let c := c + d
  let b := (b ^^^ c).rotateLeft 12
  let a := a + b
  let d := (d ^^^ a).rotateLeft 8
  let c := c + d
  let b := (b ^^^ c).rotateLeft 7
  (((l.set i.1 a).set i.2.1 b).set i.2.2.1 c).set i.2.2.2 d

/-- The quarter rounds of a double round. -/
def chachaQuarters : List (Nat × Nat × Nat × Nat) :=
  [(0, 4, 8, 12), (1, 5, 9, 13), (2, 6, 10, 14), (3, 7, 11, 15), (0, 5, 10, 15), (1, 6, 11, 12), (2, 7, 8, 13), (3, 4, 9, 14)]

/-- The little-endian words of bytes. -/
def words32 (bs : List Byte) : List (BitVec 32) := (groupsOf 4 (bs.length / 4) bs).map fun w => BitVec.ofNat 32 (ofLE w)

/-- A block of 64 bytes of the key stream. PRESUMED, log entry 10. -/
def chachaBlock (key nonce : List Byte) (counter : Nat) : List Byte :=
  let st := [0x61707865#32, 0x3320646e#32, 0x79622d32#32, 0x6b206574#32] ++ words32 key ++ [BitVec.ofNat 32 counter] ++ words32 nonce
  let out := (List.range 10).foldl (fun l _ => chachaQuarters.foldl quarterRound l) st
  (List.zipWith (· + ·) st out).flatMap fun w => bytesLE 4 w.toNat

/-- The sum of Poly1305 over blocks of 16 bytes. -/
def polySum (r : Nat) : Nat → List (List Byte) → Nat
  | a, [] => a
  | a, b :: bs => polySum r ((a + ofLE b + 2 ^ (8 * b.length)) * r % (2 ^ 130 - 5)) bs

/-- The tag of ChaCha20-Poly1305. PRESUMED, log entry 10. -/
def polyTag (key nonce aad ct : List Byte) : BitVec 128 :=
  let otk := (chachaBlock key nonce 0).take 32
  let r := ofLE (otk.take 16) &&& 0x0ffffffc0ffffffc0ffffffc0fffffff
  let text := padBlock aad ++ padBlock ct ++ bytesLE 8 aad.length ++ bytesLE 8 ct.length
  let sum := polySum r 0 (blocksOf (text.length / 16) text)
  blockNat (bytesLE 16 (sum + ofLE (otk.drop 16)))

/-! ## HMAC-SHA-256 -/

/-- The constants of SHA-256's rounds (FIPS 180-4). -/
def shaK : List Nat :=
  [0x428a2f98, 0x71374491, 0xb5c0fbcf, 0xe9b5dba5, 0x3956c25b, 0x59f111f1, 0x923f82a4, 0xab1c5ed5,
   0xd807aa98, 0x12835b01, 0x243185be, 0x550c7dc3, 0x72be5d74, 0x80deb1fe, 0x9bdc06a7, 0xc19bf174,
   0xe49b69c1, 0xefbe4786, 0x0fc19dc6, 0x240ca1cc, 0x2de92c6f, 0x4a7484aa, 0x5cb0a9dc, 0x76f988da,
   0x983e5152, 0xa831c66d, 0xb00327c8, 0xbf597fc7, 0xc6e00bf3, 0xd5a79147, 0x06ca6351, 0x14292967,
   0x27b70a85, 0x2e1b2138, 0x4d2c6dfc, 0x53380d13, 0x650a7354, 0x766a0abb, 0x81c2c92e, 0x92722c85,
   0xa2bfe8a1, 0xa81a664b, 0xc24b8b70, 0xc76c51a3, 0xd192e819, 0xd6990624, 0xf40e3585, 0x106aa070,
   0x19a4c116, 0x1e376c08, 0x2748774c, 0x34b0bcb5, 0x391c0cb3, 0x4ed8aa4a, 0x5b9cca4f, 0x682e6ff3,
   0x748f82ee, 0x78a5636f, 0x84c87814, 0x8cc70208, 0x90befffa, 0xa4506ceb, 0xbef9a3f7, 0xc67178f2]

/-- The words that SHA-256 begins with. -/
def shaInit : List (BitVec 32) :=
  [0x6a09e667#32, 0xbb67ae85#32, 0x3c6ef372#32, 0xa54ff53a#32,
   0x510e527f#32, 0x9b05688c#32, 0x1f83d9ab#32, 0x5be0cd19#32]

/-- The message schedule, latest word first: `n` words more. -/
def shaSched : Nat → List (BitVec 32) → List (BitVec 32)
  | 0, ws => ws
  | n + 1, ws =>
    let x := wordAt ws 14
    let y := wordAt ws 1
    let s0 := x.rotateRight 7 ^^^ x.rotateRight 18 ^^^ x >>> 3
    let s1 := y.rotateRight 17 ^^^ y.rotateRight 19 ^^^ y >>> 10
    shaSched n ((s1 + wordAt ws 6 + s0 + wordAt ws 15) :: ws)

/-- One round with a word of the schedule and its constant. -/
def shaRound (v : List (BitVec 32)) (x : BitVec 32 × Nat) : List (BitVec 32) :=
  let (a, b, c, d) := (wordAt v 0, wordAt v 1, wordAt v 2, wordAt v 3)
  let (e, f, g, h) := (wordAt v 4, wordAt v 5, wordAt v 6, wordAt v 7)
  let t1 := h + (e.rotateRight 6 ^^^ e.rotateRight 11 ^^^ e.rotateRight 25) + ((e &&& f) ^^^ (~~~e &&& g)) + BitVec.ofNat 32 x.2 + x.1
  let t2 := (a.rotateRight 2 ^^^ a.rotateRight 13 ^^^ a.rotateRight 22) + ((a &&& b) ^^^ (a &&& c) ^^^ (b &&& c))
  [t1 + t2, a, b, c, d + t1, e, f, g]

/-- A block of 64 bytes. -/
def shaBlock (v : List (BitVec 32)) (b : List Byte) : List (BitVec 32) :=
  let ws := (groupsOf 4 16 b).map fun w => BitVec.ofNat 32 (ofBE w)
  List.zipWith (· + ·) v (((shaSched 48 ws.reverse).reverse.zip shaK).foldl shaRound v)

/-- SHA-256 of bytes. PRESUMED, log entry 10. -/
def sha256 (bs : List Byte) : List Byte :=
  let text := bs ++ 0x80#8 :: List.replicate ((119 - bs.length % 64) % 64) 0#8 ++ bytesBE 8 (8 * bs.length)
  ((groupsOf 64 (text.length / 64) text).foldl shaBlock shaInit).flatMap fun w => bytesBE 4 w.toNat

/-- HMAC-SHA-256 of a key of at most 64 bytes and a message. PRESUMED, log entry 10. -/
def hmacSha256 (key msg : List Byte) : List Byte :=
  let k := key ++ List.replicate (64 - key.length) 0#8
  sha256 (k.map (· ^^^ 0x5C#8) ++ sha256 (k.map (· ^^^ 0x36#8) ++ msg))

end Sys2Proof.Machine
end

