-- ==== Sys2Proof/Machine/Records.lean ====
section
/-! DEFINITION. Event records: rings in host memory, MSI-X, the tailings log, and the record side of a fault (R432, R433, R453–R458,
R530–R538). -/

namespace Sys2Proof.Machine

/-! ## Rings -/

/-- The partition that a DMA channel belongs to (R11). -/
def chanPart (ch : Nat) : Nat := if ch < 64 then ch / 4 else 16

/-- A channel's state beside its registers. -/
def State.chan (s : State) (ch : Nat) : Chan := tabGet {} s.chans ch

/-- Change a channel's state. -/
def State.modChan (s : State) (ch : Nat) (g : Chan → Chan) : State :=
  { s with chans := tabMod {} s.chans ch g }

/-! ## CMEM -/

/-- A device address in CMEM (R440). -/
def isCmemAddr (a : Nat) : Bool := decide (2 ^ 63 ≤ a ∧ bits a 62 52 = 0)

/-- A descriptor's address with the bits that are ignored as zero: [5:0] of a host address (R465). -/
def descAddr (a : Nat) : Nat := if a < 2 ^ 63 then a / 64 * 64 else a

/-- The CMEM word of a device address of a partition: relative to its range for a tenant's (R440). -/
def State.cmemWordP (s : State) (p a : Nat) : Nat :=
  bits a 33 0 / 8 + (if p < 16 then 4096 * bits (s.partWord p 26) 8 0 else 0)

/-- The CMEM word of a device address through a channel. -/
def State.cmemWordOf (s : State) (ch a : Nat) : Nat := s.cmemWordP (chanPart ch) a

/-- A 64-bit value in two CMEM words (R439). -/
def State.cmem64 (s : State) (w : Nat) : Nat := (s.cget w).toNat + (s.cget (w + 1)).toNat % 2 ^ 28 * 2 ^ 36

/-- A cipher lane beside its registers. -/
def State.lane (s : State) (l : Nat) : Lane := tabGet {} s.lanes l

/-- Change a lane beside its registers. -/
def State.modLane (s : State) (l : Nat) (g : Lane → Lane) : State := { s with lanes := tabMod {} s.lanes l g }

/-- A descriptor in CMEM has the high word of its `next` at a word. -/
def State.nextAt (s : State) (p : Nat) (d : Option Desc) (w : Nat) : Bool :=
  match d with
  | some d => isCmemAddr d.addr && decide (s.cmemWordP p d.addr + 1 = w)
  | none => false

/-- Write a word of CMEM, by any path: a channel or lane parked on the descriptor whose `next` has its high word there re-reads it (R438,
R475). -/
def State.cput (s : State) (w : Nat) (v : Word) : State :=
  let s := s.cset w v
  let n := s.cmem64 (w - 1)
  if n = 0 then s
  else
    let s := (tabKeys s.chans).foldl (fun s ch =>
      if s.fget F.DMA_CH_STATUS.state ch = 3 && s.nextAt (chanPart ch) (s.chan ch).desc w then
        (s.modChan ch fun c => { c with desc := none, fetch := descAddr n }).fset F.DMA_CH_STATUS.state ch 0 2
      else s) s
    (tabKeys s.lanes).foldl (fun s l =>
      if s.fget F.CPH_STATUS.state l = 3 && s.nextAt (s.fget F.CPH_LOCK.holder l) (s.lane l).desc w then
        (s.modLane l fun c => { c with desc := none, fetch := descAddr n }).fset F.CPH_STATUS.state l 0 2
      else s) s

/-- The channel that a binding register names for a class (R465): tenant channels 4*n* + `chan`[1:0], owner channels 64 + `chan`. -/
def bindChan (v : RegVal) (p cls : Nat) : Option Nat :=
  if bit v.toNat (5 * cls + 4) then
    let c := bits v.toNat (5 * cls + 3) (5 * cls)
    some (if p < 16 then 4 * p + c % 4 else 64 + c)
  else none

/-- The channel is a watch ring: an enabled class of `DMA_WATCH` names it (R454). -/
def State.isWatch (s : State) (ch : Nat) : Bool :=
  (List.range 6).any fun c => bindChan (s.rd .DMA_WATCH) 16 c = some ch

/-- The record's eight words (R453), with the partition and sequence fields of its ring. -/
def recordWords (r : Record) (part seq : Nat) : List Nat :=
  [r.code * 2 ^ 28 + r.unit * 2 ^ 16 + part * 2 ^ 12 + seq, r.stamp % 2 ^ 36, r.stamp / 2 ^ 36 % 2 ^ 36,
   r.p3 % 2 ^ 36, r.p4 % 2 ^ 36, r.p5 % 2 ^ 36, r.p6 % 2 ^ 36, r.p7 % 2 ^ 36]

/-- The eight words of a record kept outside a ring: in the log, in a fault slot or in a queue of threads. DEDUCED, log entry 64. -/
def offRing (r : Record) (part : Nat) : List Nat := recordWords r (part % 16) (Config.noRingSeq r.stamp).toNat

/-- The number of records the ring holds, 2^*s* (R453, R465). -/
def State.ringSize (s : State) (ch : Nat) : Nat := 2 ^ (min (s.fget F.DMA_RING_CFG.size ch) 10 + 6)

/-- Records unread by the host. -/
def State.ringUnread (s : State) (ch : Nat) : Nat :=
  (s.fget F.DMA_RING_PROD.index ch + 65536 - s.fget F.DMA_RING_CONS.index ch) % 65536

/-- The number of vectors in a function's table (R432). -/
def msixCount (fn : Nat) : Nat := if fn = 16 then 512 else 96

/-- A vector of a function. -/
def State.vec (s : State) (fn v : Nat) : Msix := tabGet {} s.msix (fn * 512 + v)

/-- Change a vector of a function. -/
def State.modVec (s : State) (fn v : Nat) (g : Msix → Msix) : State :=
  { s with msix := tabMod {} s.msix (fn * 512 + v) g }

/-- Send a vector's message, or set its pending bit while it is masked (R432). DESIGN CHOICE, log entry 68. -/
def State.sendVec (s : State) (fn v : Nat) : State :=
  let m := s.vec fn v
  if m.masked then s.modVec fn v fun m => { m with pend := true }
  else { s with hostMem := hostWrite s.hostMem fn m.addr (bytesLE 4 m.data) }

/-- Raise the ring's vector (R453): nothing is pending then; a vector beyond the function's table is counted in `novec` (R432). -/
def State.raiseVec (s : State) (ch : Nat) : State :=
  let fn := chanPart ch
  let v := s.fget F.DMA_RING_CFG.vec ch
  let s := s.modChan ch fun c => { c with pendingRecs := 0 }
  if v < msixCount fn then s.sendVec fn v else s.bumpSat F.DMA_RING_STAT.novec ch 0

/-- Write the producer index back to the host (R458). DEDUCED, log entry 53. -/
def State.writeBack (s : State) (ch : Nat) : State :=
  let a := s.fget F.DMA_RING_WB.addr ch / 8 * 8
  if a = 0 then s
  else { s with hostMem := hostWrite s.hostMem (chanPart ch) a (bytesLE 8 (s.fget F.DMA_RING_PROD.index ch)) }

/-- Write a record at the producer index, advance the index and write it back. The sequence field is the channel's (R457). -/
def State.ringWrite (s : State) (ch part : Nat) (r : Record) : State :=
  let prod := s.fget F.DMA_RING_PROD.index ch
  let base := s.fget F.DMA_RING_BASE.addr ch / 64 * 64
  let ws := recordWords r part (s.chan ch).seq
  let s := { s with
    hostMem := hostWrite s.hostMem (chanPart ch) (base + 64 * (prod % s.ringSize ch)) (ws.flatMap fun w => bytesLE 8 w) }
  let s := s.modChan ch fun c => { c with seq := (c.seq + 1) % 4096, pendingRecs := c.pendingRecs + 1 }
  let s := s.fset F.DMA_RING_PROD.index ch 0 (prod + 1)
  let s := s.bump F.DMA_CH_CNT.count ch 3
  s.writeBack ch

/-- Raise the ring's vector when the records pending reach `count`, or at each record with a `time` of 0 (R453). -/
def State.moderate (s : State) (ch : Nat) : State :=
  if s.fget F.DMA_RING_IRQ.time ch = 0 ∨ max 1 (s.fget F.DMA_RING_IRQ.count ch) ≤ (s.chan ch).pendingRecs then s.raiseVec ch
  else s

/-- A record for a channel's enabled ring: written, or discarded and counted when the ring is full (R456). -/
def State.ringPut (s : State) (ch part : Nat) (r : Record) : State :=
  if s.ringSize ch - 1 ≤ s.ringUnread ch then
    let s := s.modChan ch fun c => { c with seq := (c.seq + 1) % 4096, lostSince := c.lostSince + 1 }
    let s := s.bump F.DMA_RING_STAT.lost ch 0
    s.bump F.DMA_CH_CNT.count ch 4
  else (s.ringWrite ch part r).moderate ch

/-- A record that has no binding or whose ring is not enabled is discarded and counted against the partition (R454). -/
def State.unbound (s : State) (p : Nat) : State := s.bump F.DMA_UNBOUND.count p 0

/-- A record sent to a channel's ring by a rule other than `DMA_WATCH` (R454); a watch ring takes none of these. -/
def State.emitChan (s : State) (ch p : Nat) (r : Record) : State :=
  if s.isWatch ch then s.unbound 16
  else if s.flag F.DMA_RING_CFG.en ch then s.ringPut ch (if ch < 64 then p % 16 else 0) r
  else s.unbound p

/-- A record concerning partition `p`, sent to the ring bound to its class in `DMA_RBIND` (R454). -/
def State.emitPart (s : State) (p cls : Nat) (r : Record) : State :=
  match bindChan (s.rd .DMA_RBIND p) p cls with
  | some ch => s.emitChan ch p r
  | none => s.unbound p

/-- The owner's copy of a record concerning tenant `p`, sent to the ring bound to its class in `DMA_WATCH` (R454). -/
def State.emitWatch (s : State) (p cls : Nat) (r : Record) : State :=
  match bindChan (s.rd .DMA_WATCH) 16 cls with
  | some ch => if s.flag F.DMA_RING_CFG.en ch then s.ringPut ch (p % 16) r else s.unbound p
  | none => s.unbound p

/-- A record concerning partition `p` that its chapter sends to the partition and to the owner; a record concerning H goes
to H's ring once. -/
def State.emitBoth (s : State) (p cls : Nat) (r : Record) : State :=
  if p < 16 then (s.emitPart p cls r).emitWatch p cls r else s.emitPart 16 cls r

/-- The classes of records (R454). -/
def clsFault : Nat := 0
def clsImage : Nat := 1
def clsTable : Nat := 2
def clsPort : Nat := 3
def clsTime : Nat := 4
def clsCounter : Nat := 5

/-! ## The tailings log (R537, R538) -/

/-- The real-time counter's low 36 bits. -/
def State.rtc36 (s : State) : Nat := (s.rd .AON_RTC).toNat % 2 ^ 36

/-- Append a record to the tailings log, or count it while the log is FROZEN; a GRAVE or FENCING entry freezes the log. -/
def State.tailAppend (s : State) (ws : List Nat) (graver : Bool) : State :=
  if s.flag F.AON_TAIL_STATUS.frozen then s.bumpSat F.AON_TAIL_STATUS.dropped 0 0
  else
    let t := s.flt.tail ++ [{ words := ws, rtc := s.rtc36 }]
    let s := { s with flt := { s.flt with tail := t.drop (t.length - 32) } }
    let s := s.fset F.AON_TAIL_STATUS.entries 0 0 s.flt.tail.length
    if graver then s.fset F.AON_TAIL_STATUS.frozen 0 0 1 else s

/-- Append a record that is no fault record. -/
def State.tailRecord (s : State) (p : Nat) (r : Record) : State :=
  s.tailAppend (offRing r p) false

/-! ## The record side of a fault -/

/-- The payload of a fault record (R533). -/
def faultPayload (f : FaultRec) : Record :=
  { code := 0x80, unit := f.unit, stamp := f.stamp,
    p3 := f.cls + f.cause * 2 ^ 4 + min f.merged 255 * 2 ^ 12 + f.slot * 2 ^ 20 + f.safe * 2 ^ 27 + f.action * 2 ^ 29,
    p4 := f.d4, p5 := f.d5, p6 := f.mUnit + f.mCause * 2 ^ 12 + f.mCls * 2 ^ 20, p7 := f.wear % 256 + f.promoted * 2 ^ 8 }

/-- The lowest free slot of 64 (R534); 127 when all are held. -/
def freeSlot (recs : List FaultRec) : Nat :=
  ((List.range 64).find? fun n => recs.all fun f => f.slot ≠ n).getD 127

/-- `FAULT_N` is low while a GRAVE fault, a held slot of class FENCING or the overflow stands (R544). -/
def State.refreshFaultN (s : State) : State :=
  let low := s.flag F.AON_STATUS.grave || s.flag F.FLT_STATUS.overflow || s.flt.recs.any fun f => f.slot < 64 ∧ f.cls = 3
  s.fset F.AON_STATUS.fault_n 0 0 (if low then 1 else 0)

/-- The counter of `FLT_CNT` that counts a class (R560). -/
def clsCounterOf (cls : Nat) : Nat := match cls with | 4 => 0 | 3 => 1 | 2 => 2 | _ => 3

/-- The open record that an error merges into (R536): one whose reaction is in progress and whose unit, or a unit on which the
reaction acts, is the error's source; or a GRAVE record whose reaction is in progress. -/
def mergeInto (recs : List FaultRec) (unit : Nat) : Option FaultRec :=
  recs.find? fun f => f.busy && (f.cls = 4 || f.unit = unit || f.acts.contains unit)

/-- Send a fault record to the rings of R535. -/
def State.emitFault (s : State) (code : Nat) (f : FaultRec) : State :=
  s.emitBoth f.part clsFault { faultPayload f with code := code }

/-- Merge an error into an open record (R536): its count, its last merged error and its class change, a FAULT_MERGED record is
written, and the log's entry changes in place. -/
def State.mergeFault (s : State) (f : FaultRec) (cause unit cls : Nat) : State :=
  let g := { f with merged := min (f.merged + 1) 255, mUnit := unit, mCause := cause, mCls := cls, cls := max f.cls cls,
                    slot := if f.slot = 127 ∧ 3 ≤ max f.cls cls then freeSlot s.flt.recs else f.slot }
  let old := offRing (faultPayload f) f.part
  let new := offRing (faultPayload g) f.part
  let s := { s with flt := { s.flt with
    recs := s.flt.recs.map (fun x => if x = f then g else x)
    tail := s.flt.tail.map (fun (e : TailEntry) => if e.words = old then { e with words := new } else e) } }
  let held := s.flt.tail.any fun (e : TailEntry) => decide (e.words = new)
  let s := s.bump F.FLT_CNT.count 0 4
  let s := if f.cls < 3 ∧ 3 ≤ g.cls ∧ g.slot = 127 then (s.fset F.FLT_STATUS.overflow 0 0 1).bump F.FLT_CNT.count 0 7 else s
  let s := if f.cls < 3 ∧ 3 ≤ g.cls ∧ held then s.fset F.AON_TAIL_STATUS.frozen 0 0 1 else s
  (s.emitFault 0x81 g).refreshFaultN

/-- Open a fault record of class ADVISORY, FENCING or GRAVE (R533–R535): the lowest free slot for the last two, the overflow when
none is free, the rings and the tailings log. An ADVISORY stays among the open records only while a reaction runs. -/
def State.openFault (s : State) (f : FaultRec) : State :=
  let slot := if 3 ≤ f.cls then freeSlot s.flt.recs else 127
  let f := { f with slot := slot, stamp := s.stamp }
  let s := if f.busy ∨ slot < 64 then { s with flt := { s.flt with recs := s.flt.recs ++ [f] } } else s
  let s := s.bump F.FLT_CNT.count 0 (clsCounterOf f.cls)
  let s := if 3 ≤ f.cls ∧ slot = 127 then (s.fset F.FLT_STATUS.overflow 0 0 1).bump F.FLT_CNT.count 0 7 else s
  let s := s.emitFault 0x80 f
  let s := s.tailAppend (offRing (faultPayload f) f.part) (decide (3 ≤ f.cls))
  s.refreshFaultN

/-- An error of class ADVISORY, FENCING or GRAVE: merged into an open record, or given a record of its own. -/
def State.raise (s : State) (f : FaultRec) : State :=
  match mergeInto s.flt.recs f.unit with
  | some g => s.mergeFault g f.cause f.unit f.cls
  | none => s.openFault f

/-- A CORRECTED error (R532): counted, and merged into an open record as R536 says, or recorded at most once per `corr_gap` ms for a cause and
unit when `corr_rec` is set. DEDUCED, log entry 58. -/
def State.corrected (s : State) (cause unit d4 d5 : Nat) : State :=
  let s := s.bump F.FLT_CNT.count 0 2
  let key := cause * 4096 + unit
  let due := match tabFind s.flt.corrLast key with
    | none => true
    | some t => decide (t + s.fget F.FLT_CFG.corr_gap * 1000 * clocksPerUs ≤ s.time.cycles)
  match mergeInto s.flt.recs unit with
  | some g => s.mergeFault g cause unit 2
  | none =>
  if s.flag F.FLT_CFG.corr_rec && due then
    let s := { s with flt := { s.flt with corrLast := tabInsert s.flt.corrLast key s.time.cycles } }
    s.emitFault 0x80 { cls := 2, cause := cause, unit := unit, part := 16, stamp := s.stamp, slot := 127, d4 := d4, d5 := d5,
                       busy := false }
  else s

/-- An ADVISORY with no reaction of its own. -/
def State.advisory (s : State) (cause unit d4 d5 : Nat) (part : Nat := 16) (wear : Nat := 0) : State :=
  s.raise { cls := 1, cause := cause, unit := unit, part := part, stamp := 0, slot := 127, d4 := d4, d5 := d5, wear := wear,
            busy := false }

/-- A FENCING fault. -/
def State.fencing (s : State) (cause unit d4 d5 : Nat) (part : Nat := 16) (busy : Bool := false) (safe action promoted : Nat := 0)
    (acts : List Nat := []) : State :=
  s.raise { cls := 3, cause := cause, unit := unit, part := part, stamp := 0, slot := 127, d4 := d4, d5 := d5, busy := busy,
            safe := safe, action := action, promoted := promoted, acts := acts }

/-- The reactions open against a unit end (R536). -/
def State.endReaction (s : State) (unit : Nat) : State :=
  let recs := s.flt.recs.map fun (f : FaultRec) => if f.unit = unit then { f with busy := false } else f
  { s with flt := { s.flt with recs := recs.filter fun f => f.slot < 64 || f.busy } }

/-- A SAFE_STATE record (R561): scope 1 local, 2 global; entered or left; cause; unit; first port and number of ports.
DEDUCED, log entry 58. -/
def State.safeRecord (s : State) (scope : Nat) (entered : Bool) (cause unit port ports : Nat) : State :=
  let r : Record := { code := 0x85, unit := 0xFFF, stamp := s.stamp, p3 := scope + (if entered then 4 else 0) + cause * 16,
                      p4 := unit, p5 := port + ports % 256 * 2 ^ 8 }
  (s.emitPart 16 clsFault r).tailRecord 16 r

end Sys2Proof.Machine
end

