-- ==== Sys2Proof/Machine/Ports.lean ====
section
/-! DEFINITION. Lanes and ports (chapter 04): the PORTMAP record, PAUSE and PFC, MAC merge verification. -/

namespace Sys2Proof.Machine

/-! ## PORTMAP (R112–R114) -/

/-- Word `w` of the port record of lane `n` under a plane tag. -/
def State.portWord (s : State) (tag n w : Nat) : Nat := s.pword 16 tag 1 (128 + 8 * n + w)

/-- Word 0 of the port record in the ACTIVE bank (R113), as `MAC_MODE` shows it. -/
def State.portRec (s : State) (n : Nat) : Nat := s.portWord s.tagNow n 0

/-- The lane is the lowest lane of a port. -/
def State.portValid (s : State) (n : Nat) : Bool := bit (s.portRec n) 35

/-- 0 backplane, 1 copper cable assembly, 2 pluggable module. -/
def State.portMedia (s : State) (n : Nat) : Nat := bits (s.portRec n) 12 11

/-- Speed code of R113. -/
def State.portSpeed (s : State) (n : Nat) : Nat := bits (s.portRec n) 7 4

/-- Lanes of the port. -/
def State.portLanes (s : State) (n : Nat) : Nat := bits (s.portRec n) 3 0

/-- Port speed in Mb/s by its code (R113). -/
def speedMbps (code : Nat) : Nat :=
  match code with
  | 0 => 10000 | 1 => 25000 | 2 => 50000 | 3 => 100000 | 4 => 200000 | 5 => 400000 | 6 => 800000 | _ => 1600000

/-- Largest frame of the port under a plane tag (R113). -/
def State.maxFrame (s : State) (tag n : Nat) : Nat := bits (s.portWord tag n 6) 13 0

/-- The queue set of the owner partition on the port under a plane tag (R13). -/
def State.ownerSet (s : State) (tag n : Nat) : Nat := bits (s.portWord tag n 1) 6 3

/-- The unit of the I²C master that serves the port. -/
def State.i2cUnit (s : State) (n : Nat) : Nat := 0xC03 + bits (s.portRec n) 19 18

/-- Port state beside the registers. -/
def State.port (s : State) (p : Nat) : PortSt := tabGet {} s.ports p

/-- Change port state beside the registers. -/
def State.modPort (s : State) (p : Nat) (g : PortSt → PortSt) : State :=
  { s with ports := tabMod {} s.ports p g }

/-- A counter of the port (R150). -/
def State.macCount (s : State) (p i : Nat) (n : Nat := 1) : State := s.bump F.MAC_CNT.count p i n

/-- The port's state by the codes of R117. -/
def State.portState (s : State) (p : Nat) : Nat := s.fget F.MAC_STATUS.state p

/-- Codes of R117. -/
def pDisabled : Nat := 0
def pAbsent : Nat := 1
def pPresent : Nat := 2
def pTraining : Nat := 3
def pUp : Nat := 4
def pFault : Nat := 5

/-! ## SyncE squelch (R503) -/

/-- Squelch one output with a cause of SYNCE_SQUELCH (R507). -/
def State.squelch (s : State) (i cause : Nat) : State :=
  if s.flag F.TIM_SYNCE.squelched 0 i then s
  else (s.fset F.TIM_SYNCE.squelched 0 i 1).emitPart 16 clsTime
    { code := 0x75, unit := 0xC10, stamp := s.stamp, p3 := i + 4 + cause * 16 }

/-- Squelch every output that a port's lane drives; `lane` none means any lane. -/
def State.squelchPort (s : State) (p cause : Nat) (lane : Option Nat := none) : State :=
  (List.range 4).foldl (fun s i =>
    if s.fget F.TIM_SYNCE.port 0 i = p ∧ (lane = none ∨ lane = some (s.fget F.TIM_SYNCE.lane 0 i)) then s.squelch i cause else s) s

/-! ## MAC merge verification (R143) -/

/-- Set `verify_st`, writing MM_VERIFY when it changes. -/
def State.setVerify (s : State) (p st : Nat) : State :=
  if s.fget F.MAC_MM.verify_st p = st then s
  else (s.fset F.MAC_MM.verify_st p 0 st).emitBoth (s.portHolder p) clsPort
    { code := 0x43, unit := p, stamp := s.stamp, p3 := st }

/-- MAC merge runs on the port: PORTMAP allows it and it is enabled. -/
def State.mmOn (s : State) (p : Nat) : Bool := bit (s.portRec p) 16 && s.flag F.MAC_MM.en p

/-- Transmit preemption is active: merge runs, `tx_en`, UP, and verified or `verify_dis`. -/
def State.setMmActive (s : State) (p : Nat) : State :=
  let on := s.mmOn p && s.flag F.MAC_MM.tx_en p && s.portState p = pUp &&
    (s.fget F.MAC_MM.verify_st p = 3 || s.flag F.MAC_MM.verify_dis p)
  s.fset F.MAC_MM.active p 0 (if on then 1 else 0)

/-- `verify_st` after a change of its conditions: DISABLED, INITIAL when verification restarts or the port is not UP, else as it
was. -/
def State.refreshMm (s : State) (p : Nat) (restart : Bool) : State :=
  let off := !s.mmOn p || !s.flag F.MAC_MM.tx_en p || s.flag F.MAC_MM.verify_dis p
  let s :=
    if off then s.setVerify p 0
    else if restart || s.portState p ≠ pUp || s.fget F.MAC_MM.verify_st p = 0 then
      (s.modPort p fun q => { q with verifySent := 0 }).setVerify p 1
    else s
  s.setMmActive p

/-! ## PAUSE and PFC (R134–R142) -/

/-- Core clocks for which a class of the port has been held, beyond the whole microseconds counted in HELD_US. -/
def State.heldClocks (s : State) (p : Nat) : Nat :=
  (s.port p).heldPart + (if s.fget F.MAC_PAUSE_STATE.held p = 0 then 0 else s.time.cycles - (s.port p).heldSince)

/-- HELD_US (R150): the microseconds with any class held, those of a hold under way among them. -/
def State.heldUs (s : State) (p : Nat) : Nat := s.fget F.MAC_CNT.count p 29 + s.heldClocks p / clocksPerUs

/-- No class of the port is held any more: the microseconds held are counted. -/
def State.countHeld (s : State) (p : Nat) : State :=
  let n := s.heldClocks p
  (s.macCount p 29 (n / clocksPerUs)).modPort p fun q => { q with heldPart := n % clocksPerUs }

/-- Hold a class for a time in quanta, or release it at once with a time of zero (R136, R138). -/
def State.holdClass (s : State) (p c time : Nat) : State :=
  let held := s.fget F.MAC_PAUSE_STATE.held p
  if time = 0 then
    let held' := if bit held c then held - 2 ^ c else held
    let s := if held ≠ 0 ∧ held' = 0 then s.countHeld p else s
    let s := s.fset F.MAC_PAUSE_STATE.held p 0 held'
    s.modPort p fun q => { q with timers := tabErase q.timers c }
  else
    let s := if held = 0 then s.modPort p fun q => { q with heldSince := s.time.cycles } else s
    let s := s.fset F.MAC_PAUSE_STATE.held p 0 (if bit held c then held else held + 2 ^ c)
    s.modPort p fun q => { q with timers := tabInsert q.timers c time }

/-- A class that a received frame may hold (R139). -/
def State.holdable (s : State) (p c : Nat) : Bool := decide (c < 7) || s.flag F.MAC_PAUSE.express_pause p

/-- A PAUSE frame whose FCS has checked (R134, R136): acted on in PAUSE mode and UP; in UP in another mode it is discarded and
counted; in other states nothing is received (R117). -/
def State.pauseRx (s : State) (port time : Nat) : State :=
  if s.portState port ≠ pUp then s
  else if s.fget F.MAC_PAUSE.mode port = 1 then
    (List.range 8).foldl (fun s c => if s.holdable port c then s.holdClass port c time else s) (s.macCount port 9)
  else s.macCount port 10

/-- A PFC frame whose FCS has checked (R134, R136): `enables` the enable vector, `times` the time of each priority. -/
def State.pfcRx (s : State) (port enables : Nat) (times : List Nat) : State :=
  if s.portState port ≠ pUp then s
  else if s.fget F.MAC_PAUSE.mode port = 2 then
    (List.range 8).foldl (fun s c =>
      let pr := bits (s.fget F.MAC_PFC_MAP.map port) (3 * c + 2) (3 * c)
      if s.holdable port c ∧ bit enables pr ∧ bit (s.fget F.MAC_PFC_MAP.rx_en port) pr then s.holdClass port c (times.getD pr 0)
      else s) (s.macCount port 9)
  else s.macCount port 10

/-- A MAC control frame that the port's mode does not act on is consumed and counted (R134). -/
def execRxCtlDiscard (port : Nat) (s : State) : Host.Outcome State Fault Refusal :=
  s.act (fun s => if s.portState port = pUp then s.macCount port 10 else s)

/-- The priorities that the port's map gives to a pre-class (R131, R140), as an enable vector. -/
def State.prioritiesOf (s : State) (p c : Nat) : Nat :=
  let m := bits (s.portWord s.tagNow p 1) 31 8
  (List.range 8).foldl (fun a pr => if bits m (3 * pr + 2) (3 * pr) = c then a + 2 ^ pr else a) 0

/-- The PFC frame that names the pre-classes of `changed` and every other pre-class in XOFF (R140); none when no priority on the wire
belongs to a changed one. -/
def State.pfcFrame (s : State) (p changed : Nat) : Option CtlFrame :=
  let xoff := s.fget F.MAC_PAUSE_STATE.xoff p
  let quanta := s.fget F.MAC_PAUSE.quanta p
  let own := (List.range 8).foldl (fun a c => if bit changed c then a ||| s.prioritiesOf p c else a) 0
  let all := (List.range 8).foldl (fun a c => if bit changed c ∨ bit xoff c then a ||| s.prioritiesOf p c else a) 0
  let on := (List.range 8).foldl (fun a c => if bit xoff c then a ||| s.prioritiesOf p c else a) 0
  if own = 0 then none
  else some { pfc := true, enables := all, times := (List.range 8).map fun pr => if bit on pr then quanta else 0 }

/-- The control frame that the changes of one 100 ns window send (R140): a PFC frame in PFC mode, in PAUSE mode PAUSE with `quanta`, or with 0
when no pre-class is in XOFF any more. -/
def State.windowFrame (s : State) (p changed : Nat) : Option CtlFrame :=
  match s.fget F.MAC_PAUSE.mode p with
  | 2 => s.pfcFrame p changed
  | 1 => some { pfc := false, enables := 0,
                times := [if s.fget F.MAC_PAUSE_STATE.xoff p = 0 then 0 else s.fget F.MAC_PAUSE.quanta p] }
  | _ => none

/-- The 100 ns of R140 in core clocks. -/
def ctlWindow : Nat := 160

/-- The XOFF threshold of a pre-class, and the XON threshold as R140 takes it. -/
def State.xonOf (s : State) (p c : Nat) : Nat := min (s.fget F.MAC_PFC.xon p c) (s.fget F.MAC_PFC.xoff p c - 1)

/-- A pre-class enters or leaves XOFF (R140): the state bit, and a window in which every further change shares the frame. In PAUSE mode only
the first entry and the last exit send one. DEDUCED, log entry 31. -/
def State.setXoff (s : State) (p c : Nat) (on : Bool) : State :=
  let old := s.fget F.MAC_PAUSE_STATE.xoff p
  let new := if on then (if bit old c then old else old + 2 ^ c) else (if bit old c then old - 2 ^ c else old)
  let s := s.fset F.MAC_PAUSE_STATE.xoff p 0 new
  if s.fget F.MAC_PAUSE.mode p = 2 ∨ (s.fget F.MAC_PAUSE.mode p = 1 ∧ (old = 0 ∨ new = 0)) then
    s.modPort p fun q => { q with ctlDue := some (q.ctlDue.getD (s.time.cycles + ctlWindow)), ctlMask := q.ctlMask ||| 2 ^ c }
  else s

/-- The on-chip buffer held by frames of a port and pre-class changes (R140), in 256-byte units, or its thresholds do. -/
def State.pfcCount (s : State) (p c : Nat) (up : Bool) (n : Nat) : State :=
  let s := if up then s.bumpSat F.MAC_PFC_OCC.count p c n else s.drop F.MAC_PFC_OCC.count p c n
  let xoff := s.fget F.MAC_PFC.xoff p c
  let on := bit (s.fget F.MAC_PAUSE_STATE.xoff p) c
  if xoff = 0 then if on then s.setXoff p c false else s
  else
    let n := s.fget F.MAC_PFC_OCC.count p c
    if !on ∧ xoff ≤ n then s.setXoff p c true
    else if on ∧ n ≤ s.xonOf p c then s.setXoff p c false
    else s

/-! ## Verification (R143) -/

/-- `verify_time` has passed: a verify mPacket is sent, or after three unanswered ones verification fails. -/
def execMmVerifyTimer (port : Nat) (s : State) : Host.Outcome State Fault Refusal :=
  s.act (fun s => 
    if s.portState port ≠ pUp then s
    else match s.fget F.MAC_MM.verify_st port with
      | 1 => (s.modPort port fun q => { q with verifySent := 1 }).setVerify port 2
      | 2 =>
        if (s.port port).verifySent < 3 then s.modPort port fun q => { q with verifySent := q.verifySent + 1 }
        else ((s.macCount port 30).setVerify port 4).setMmActive port
      | _ => s)

/-- A respond mPacket arrives. -/
def execMmRespondRx (port : Nat) (s : State) : Host.Outcome State Fault Refusal :=
  s.act (fun s => if s.fget F.MAC_MM.verify_st port = 2 then (s.setVerify port 3).setMmActive port else s)

end Sys2Proof.Machine
end

