-- ==== Sys2Proof/Machine/Time.lean ====
section
/-! DEFINITION. Device time and synchronisation (chapter 15): steps, lock, the reference, the pulse per second and SyncE. -/

namespace Sys2Proof.Machine

/-- A stamp-layout value and the seconds above it, as a time or an amount in the units of the count (R487, R488, R492). -/
def timeOf (secHi : Nat) (v : RegVal) : Nat :=
  (secHi * 2 ^ 36 + bits v.toNat 71 36) * secUnits + bits v.toNat 35 6 * 2 ^ 48 + bits v.toNat 5 0 * 2 ^ 42

/-- A stamp-layout register names a time in the present span of 2³⁶ seconds. -/
def State.timeAt (s : State) (v : RegVal) : Nat :=
  timeOf (s.time.now / secUnits / 2 ^ 36) v

/-- Let device time reach `t`, where it has not: the moment a command scheduled at `t` stands for (R493). DEDUCED, log entry 56. -/
def State.reach (s : State) (t : Nat) : State :=
  if s.time.now < t then
    { s with time := { s.time with now := t, cycles := s.time.cycles + (t - s.time.now) / (5 * 2 ^ 45) } }
  else s

/-! ## The pulse per second (R494) -/

/-- `PPS_OUT` is held low. -/
def State.ppsHeld (s : State) : Bool :=
  !s.flag F.TIM_PPS_OUT.en || !s.flag F.TIM_STATUS.valid || (s.flag F.TIM_PPS_OUT.lock_only && !s.flag F.TIM_STATUS.lock) ||
    s.flag F.AON_STATUS.safe_global || s.power.down || s.fget F.AON_STATUS.pstate = 2 || s.flt.fenced.contains 0xC10

/-- A pulse already high when a hold condition begins is ended at once. -/
def State.refreshPps (s : State) : State :=
  if s.ppsHeld then { s with time := { s.time with ppsOut := false } } else s

/-! ## Lock (R504) -/

/-- A LOCK record (R507), also entered in the tailings log (R537). -/
def State.lockRecord (s : State) (lock cause err : Nat) : State :=
  let r : Record := { code := 0x73, unit := 0xC10, stamp := s.stamp, p3 := lock + cause * 16, p4 := err }
  (s.emitPart 16 clsTime r).tailRecord 16 r

/-- Lock ends with a cause of the LOCK record. -/
def State.endLock (s : State) (cause : Nat) : State :=
  if s.flag F.TIM_STATUS.lock then
    let err := s.fget F.TIM_SYNC_ERR.err
    let s := (s.fset F.TIM_STATUS.lock 0 0 0).fset F.TIM_SYNC_ERR.locked 0 0 0
    let s := (s.fset F.TIM_SYNC_ERR.err 0 0 1048575).bump F.TIM_CNT.count 0 6
    (s.lockRecord 0 cause err).refreshPps
  else s

/-- A write of `TIM_LOCK` (R504): `drop` ends lock; `renew` sets lock and restarts the bound. A fenced time unit takes no renewal. -/
def State.effTimLock (s : State) (v : Nat) : State :=
  let s := if bit v 34 then s.endLock 5 else s
  if bit v 35 ∧ ¬ s.flt.fenced.contains 0xC10 then
    let b := bits v 19 0
    let was := s.flag F.TIM_STATUS.lock
    let s := { s with time := { s.time with renewBound := b, renewCycles := s.time.cycles } }
    let s := (s.fset F.TIM_STATUS.lock 0 0 1).fset F.TIM_SYNC_ERR.locked 0 0 1
    let s := s.fset F.TIM_SYNC_ERR.err 0 0 b
    if was then s else s.lockRecord 1 1 b
  else s

/-- The bound at this moment: *b* + `drift` ÷ 16 × seconds since the renewal, rounded up (R504). -/
def State.lockErr (s : State) : Nat :=
  s.time.renewBound +
    (s.fget F.TIM_LOCK_CFG.drift * (s.time.cycles - s.time.renewCycles) + 16 * 1600000000 - 1) / (16 * 1600000000)

/-- The millisecond update of `err`; above `max_err` lock ends (R504). -/
def execLockErrUpdate (s : State) : Host.Outcome State Fault Refusal :=
  s.act (fun s => 
    if s.flag F.TIM_STATUS.lock then
      let e := s.lockErr
      let s := s.fset F.TIM_SYNC_ERR.err 0 0 (min e 1048575)
      if s.fget F.TIM_LOCK_CFG.max_err < e then s.endLock 2 else s
    else s)

/-! ## Steps (R492) -/

/-- A write of `TIM_STEP_CTL`: BAD_ARG, BUSY, or the step is accepted. -/
def State.effTimStepCtl (s : State) (v : Nat) : State :=
  let op := bits v 35 34
  if op = 0 then s
  else if 999999999 < s.fget F.TIM_STEP.ns then
    { (s.fset F.TIM_STEP_CTL.done 0 0 1).fset F.TIM_STEP_CTL.result 0 0 2 with time := { s.time with stepReq := false } }
  else if s.time.step.isSome then
    { (s.fset F.TIM_STEP_CTL.done 0 0 1).fset F.TIM_STEP_CTL.result 0 0 1 with time := { s.time with stepReq := false } }
  else
    let s := s.fset F.TIM_STEP_CTL.done 0 0 0
    { s with time := { s.time with step := some (op, timeOf (bits v 11 0) (s.rd .TIM_STEP)), stepReq := true } }

/-- The new device time of a step: SET loads, ADD adds, SUB subtracts. -/
def stepTime (now op amount : Nat) : Nat :=
  match op with
  | 1 => wrapTime amount
  | 2 => wrapTime (now + amount)
  | _ => wrapTime ((now : Int) - amount)

/-- A step moves the times that a port keeps of the wire with it: a frame already begun is not affected (R340). -/
def stepPort (d : Int) (p : PortSt) : PortSt :=
  let mv := fun (t : Nat) => ((t : Int) + d).toNat
  { p with
    wire := p.wire.map fun t => { t with start := mv t.start, first := t.first.map mv }
    remainder := p.remainder.map fun t => { t with start := mv t.start, first := t.first.map mv }
    lastEnd := mv p.lastEnd, endX := mv p.endX, endG := mv p.endG }

/-- The accepted step is applied in every unit at once (R492): `TIM_LAST_STEP`, the step count, `valid`, the end of lock and the
TIME_STEP record stamped with the new time. -/
def execStepApply (s : State) : Host.Outcome State Fault Refusal :=
  s.act (fun s => 
    match s.time.step with
    | none => s
    | some (op, amount) =>
      let before := s.stamp
      let new := stepTime s.time.now op amount
      let d : Int := (new : Int) - s.time.now
      let s := { s with time := { s.time with now := new, step := none }, ports := s.ports.map fun (e : Nat × PortSt) => (e.1, stepPort d e.2) }
      let after := s.stamp
      let s := s.wr .TIM_LAST_STEP 0 0 (BitVec.ofNat 72 after)
      let s := (s.bump F.TIM_STATUS.steps 0 0).bump F.TIM_CNT.count 0 2
      let s := s.fset F.TIM_STATUS.valid 0 0 1
      let s := s.endLock 3
      let r : Record := { code := 0x72, unit := 0xC10, stamp := after, p3 := op, p4 := before % 2 ^ 36, p5 := before / 2 ^ 36,
                          p6 := after % 2 ^ 36, p7 := after / 2 ^ 36 }
      let s := (s.emitPart 16 clsTime r).tailRecord 16 r
      if s.time.stepReq then
        let s := (s.fset F.TIM_STEP_CTL.done 0 0 1).fset F.TIM_STEP_CTL.result 0 0 0
        { s with time := { s.time with stepReq := false } }
      else s)

/-! ## The reference (R490) -/

/-- A REF_CHANGE record. -/
def State.refRecord (s : State) : State :=
  s.emitPart 16 clsTime { code := 0x74, unit := 0xC10, stamp := s.stamp,
                          p3 := s.fget F.TIM_STATUS.ref_ok + 2 * s.fget F.TIM_STATUS.holdover }

/-- The reference is lost: holdover, and lock ends (R490, R504). -/
def execRefLost (s : State) : Host.Outcome State Fault Refusal :=
  s.act (fun s => 
    if s.flag F.TIM_CFG.ref then
      let s := (s.fset F.TIM_STATUS.ref_ok 0 0 0).fset F.TIM_STATUS.holdover 0 0 1
      (s.bump F.TIM_CNT.count 0 7).refRecord.endLock 4
    else s)

/-- The reference has been good for 1 s: relock without a phase step. -/
def execRefRelock (s : State) : Host.Outcome State Fault Refusal :=
  s.act (fun s => 
    if s.flag F.TIM_CFG.ref then ((s.fset F.TIM_STATUS.ref_ok 0 0 1).fset F.TIM_STATUS.holdover 0 0 0).refRecord
    else s)

/-- A write of `TIM_CFG`: with `ref` = 0 the reference is not in use. -/
def State.effTimCfg (s : State) : State :=
  if s.flag F.TIM_CFG.ref then s else (s.fset F.TIM_STATUS.ref_ok 0 0 0).fset F.TIM_STATUS.holdover 0 0 0

/-! ## PPS commands -/

/-- Device time reaches a whole second plus `offset` (R494). -/
def execPpsOutRise (s : State) : Host.Outcome State Fault Refusal :=
  s.act (fun s => if s.ppsHeld then s else { s with time := { s.time with ppsOut := true } })

/-- `width` ms after the rise (R494). -/
def execPpsOutFall (s : State) : Host.Outcome State Fault Refusal :=
  s.act (fun s => { s with time := { s.time with ppsOut := false } })

/-- An edge of `PPS_IN` (R495). -/
def execPpsInEdge (falling : Bool) (s : State) : Host.Outcome State Fault Refusal :=
  s.act (fun s => 
    if !s.flag F.TIM_CFG.pps_in_en ∨ falling ≠ s.flag F.TIM_CFG.pps_edge then s
    else
      let early := match s.time.ppsInLast with
        | some t => decide (s.time.cycles < t + 800000000)
        | none => false
      if early then s.bump F.TIM_CNT.count 0 1
      else
        let st := s.stamp
        let s := s.wr .TIM_PPS_CAP 0 0 (BitVec.ofNat 72 st)
        let s := { s with time := { s.time with ppsInLast := some s.time.cycles } }
        let s := (s.fset F.TIM_STATUS.pps_ok 0 0 1).bump F.TIM_CNT.count 0 0
        if s.flag F.TIM_CFG.pps_rec then
          s.emitPart 16 clsTime { code := 0x71, unit := 0xC10, stamp := st, p3 := st % 2 ^ 36, p4 := st / 2 ^ 36,
                                  p5 := s.time.now / secUnits / 2 ^ 36 % 4096 }
        else s)

/-- 1.5 s without an accepted edge (R495). -/
def execPpsInTimeout (s : State) : Host.Outcome State Fault Refusal :=
  s.act (fun s => s.fset F.TIM_STATUS.pps_ok 0 0 0)

/-! ## SyncE (R502, R503) -/

/-- The lane's baud rate in kHz (R109, R502). -/
def State.laneBaud (s : State) (p : Nat) : Nat :=
  match bits (s.pword 16 s.tagNow 1 (4 * (p / 8))) 2 0 with
  | 0 => if s.portSpeed p = 0 then 10312500 else 25781250
  | 1 => 26562500
  | 2 => 53125000
  | _ => 106250000

/-- No squelch condition of R502 or R503 holds for the output; the lane has its signal. -/
def State.synceClear (s : State) (i : Nat) : Bool :=
  let p := s.fget F.TIM_SYNCE.port 0 i
  let div := s.fget F.TIM_SYNCE.div 0 i
  s.flag F.TIM_SYNCE.en 0 i && decide (div ≠ 0 ∧ s.laneBaud p ≤ 400000 * div) && decide (s.portState p = pUp) &&
    !(s.port p).lossOn && !s.flag F.MAC_STATUS.safe p && !s.flag F.AON_STATUS.safe_global && !s.power.down && !s.flt.fenced.contains 0xC10

/-- `hold` ms after every condition has cleared, the output is released (R503). -/
def execSynceRelease (out : Nat) (s : State) : Host.Outcome State Fault Refusal :=
  s.act (fun s => 
    if s.flag F.TIM_SYNCE.squelched 0 out ∧ s.synceClear out then
      (s.fset F.TIM_SYNCE.squelched 0 out 0).emitPart 16 clsTime
        { code := 0x75, unit := 0xC10, stamp := s.stamp, p3 := out + 6 * 16 }
    else s)

/-- A write of `TIM_SYNCE` has taken effect: `old` is the value before (R503). -/
def State.effTimSynce (s : State) (i : Nat) (old : RegVal) : State :=
  if !s.flag F.TIM_SYNCE.en 0 i then s.squelch i 1
  else if bits old.toNat 33 13 ≠ bits (s.rd .TIM_SYNCE 0 i).toNat 33 13 then s.squelch i 5
  else s

end Sys2Proof.Machine
end

