-- ==== Sys2Proof/Machine/Events.lean ====
section
/-! DEFINITION. What other blocks do to control threads and to tracing: event bits (R404, R411), balance counters (R520) and packet
tracing (R525–R527). -/

namespace Sys2Proof.Machine

/-! ## Threads -/

/-- A thread beside its registers. -/
def State.thr (s : State) (t : Nat) : Thread := tabGet {} s.threads t

/-- Change a thread beside its registers. -/
def State.modThr (s : State) (t : Nat) (g : Thread → Thread) : State :=
  { s with threads := tabMod {} s.threads t g }

/-- Register `g`*r* of a thread; `g0` reads zero (R390). -/
def State.greg (s : State) (t r : Nat) : Word := if r = 0 then 0 else tabGet 0 (s.thr t).g r

/-- Write register `g`*r*; `g0` ignores writes (R390). -/
def State.setG (s : State) (t r : Nat) (v : Word) : State :=
  if r = 0 then s else s.modThr t fun h => { h with g := tabSet 0 h.g r v }

/-- A stored CSR. -/
def State.csr (s : State) (t n : Nat) : Nat := (tabGet 0 (s.thr t).csr n).toNat

/-- Write a stored CSR. -/
def State.setCsr (s : State) (t n v : Nat) : State :=
  s.modThr t fun h => { h with csr := tabSet 0 h.csr n (BitVec.ofNat 36 v) }

/-- The state of a thread slot by the codes of R389. -/
def State.thrState (s : State) (t : Nat) : Nat := s.fget F.CCX_T_STATUS.state t

/-- The partition of a thread (R12); 31 none. -/
def State.thrPart (s : State) (t : Nat) : Nat := s.fget F.CCX_T_STATUS.part t

/-- The codes of R389. -/
def tFree : Nat := 0
def tIdle : Nat := 1
def tRunning : Nat := 2
def tWaiting : Nat := 3
def tExited : Nat := 4
def tHalted : Nat := 5
def tFenced : Nat := 6
def tBench : Nat := 7
def tMigrating : Nat := 8

/-- Set bits of `evpend` (R404): dropped in a FREE or IDLE slot; a thread in a WFE whose mask meets them returns from it. -/
def State.setEvents (s : State) (t evs : Nat) : State :=
  if s.thrState t = tFree ∨ s.thrState t = tIdle then s
  else
    let ev := s.fget F.CCX_T_STATUS.evpend t ||| evs
    match (s.thr t).wait with
    | some (.wfe rd mask) =>
      if ev &&& mask ≠ 0 then
        let s := (s.setG t rd (BitVec.ofNat 36 (ev &&& mask))).modThr t fun h => { h with wait := none }
        let s := s.fset F.CCX_T_STATUS.evpend t 0 (ev - (ev &&& mask))
        if s.thrState t = tWaiting then s.fset F.CCX_T_STATUS.state t 0 tRunning
        else s.modThr t fun h => { h with before := tRunning }
      else s.fset F.CCX_T_STATUS.evpend t 0 ev
    | _ => s.fset F.CCX_T_STATUS.evpend t 0 ev

/-- The thread slots: 18 positions of 8 (R386). -/
def threadSlots : List Nat := List.range 144

/-- The thread may pop a queue of its partition: bit `q` for punt queues, 16 + *e* for event queues (R410). -/
def State.mayPop (s : State) (t q : Nat) : Bool :=
  bit (s.pget 16 s.tagNow F.CCX_P_QSHARE.dyn_q (s.thrPart t)) q || bit (s.pget 16 s.tagNow F.CCX_T_QSHARE.qmask t) q

/-- The thread that has waited longest among those that satisfy a condition. -/
def State.longestWaiter (s : State) (ok : Nat → Bool) : Option Nat :=
  threadSlots.foldl (fun best t =>
    if ok t then
      match best with
      | none => some t
      | some b => if (s.thr t).since < (s.thr b).since then some t else best
    else best) none

/-- An armed queue of a partition receives an entry (R411): CSR `arm` holds the arming bits, `q` the queue's bit, `ev` the event bit;
`open_` tells whether a thread may pop the queue. -/
def State.queueSignal (s : State) (p arm q ev : Nat) (open_ : Nat → Bool) : State :=
  let armed := fun t => decide (s.thrPart t = p) && bit (s.csr t arm) q
  if threadSlots.any armed then
    let waits := fun t => decide (s.thrPart t = p) && open_ t && decide (s.thrState t = tWaiting) &&
      (match (s.thr t).wait with | some (.wfe _ mask) => bit mask ev | _ => false)
    match s.longestWaiter waits with
    | some t => s.setEvents t (2 ^ ev)
    | none => threadSlots.foldl (fun s t => if armed t then s.setEvents t (2 ^ ev) else s) s
  else s

/-- The partition's supervisor thread (R401): its lowest-numbered static thread that is not FENCED or on the bench. -/
def State.supervisor (s : State) (p : Nat) : Option Nat :=
  threadSlots.find? fun t =>
    decide (s.thrPart t = p) && !(s.thr t).drawn && decide (s.thrState t ≠ tFenced ∧ s.thrState t ≠ tBench ∧ s.thrState t ≠ tFree)

/-- Put a record into an event queue of a partition; false when it has no room (R406, R407). -/
def State.eventPut (s : State) (p q : Nat) (ws : List Nat) : Option State :=
  let k := p * 16 + q
  let l := tabGet [] s.events k
  if 256 ≤ l.length then none
  else
    let s := { s with events := tabSet [] s.events k (l ++ [ws]) }
    some (s.queueSignal p 0x00A (16 + q) 9 fun t => s.mayPop t (16 + q))

/-! ## The balance bank (R520) -/

/-- Counter `i` of the balance bank of partition `p`. -/
def State.bal (s : State) (p i : Nat) : Nat := tabGet 0 s.balance (p * 16 + i)

/-- Add to a counter of the balance bank. -/
def State.balAdd (s : State) (p i : Nat) (n : Nat := 1) : State :=
  { s with balance := tabSet 0 s.balance (p * 16 + i) ((s.bal p i + n) % 2 ^ 72) }

/-- Take from an instantaneous counter of the balance bank. -/
def State.balSub (s : State) (p i : Nat) (n : Nat := 1) : State :=
  { s with balance := tabSet 0 s.balance (p * 16 + i) (s.bal p i - n) }

/-! ## Tracing -/

/-- The 24-bit maximal-length LFSR with taps 24, 23, 22 and 17 (R420), one step. -/
def lfsrStep (x : Nat) : Nat :=
  let b := ((x >>> 23) ^^^ (x >>> 22) ^^^ (x >>> 21) ^^^ (x >>> 16)) % 2
  (x * 2 + b) % 2 ^ 24

/-- The gap to the next tagged frame (R525). -/
def State.traceGap (s : State) : Nat :=
  let lo := max 1 (s.fget F.CNT_TRACE_BOUNDS.min)
  let hi := max lo (s.fget F.CNT_TRACE_BOUNDS.max)
  lo + s.trace.lfsr % (hi - lo + 1)

/-- A counter of the device bank that the tracer keeps (R524): 3 TRACED, 4 TRACE_SKIPPED, 5 TRACE_OMITTED. It stands in row 17 of
the balance banks. -/
def State.devCount (s : State) (i : Nat) : State := s.balAdd 17 i

/-- Write the number of tagged frames in progress. -/
def State.setTraces (s : State) (t : Tab TraceSt) : State :=
  { s with trace := { s.trace with open_ := t } }.fset F.CNT_TRACE_STAT.in_prog 0 0 t.length

/-- A frame start is seen: whether it is tagged, and the trace ID it takes (R525). -/
def State.traceStart (s : State) (port : Nat) : Option Nat × State :=
  if s.flag F.CNT_TRACE.en && bit (s.fget F.CNT_TRACE_PORT.ports 0 (port / 32)) (port % 32) then
    if 1 < s.trace.gap then (none, { s with trace := { s.trace with gap := s.trace.gap - 1 } })
    else
      let s := { s with trace := { s.trace with lfsr := lfsrStep s.trace.lfsr } }
      let s := { s with trace := { s.trace with gap := s.traceGap } }
      if 256 ≤ s.trace.open_.length then (none, s.devCount 4)
      else
        let id := s.fget F.CNT_TRACE_STAT.next_id
        let s := (s.fset F.CNT_TRACE_STAT.next_id 0 0 (id + 1)).devCount 3
        (some id, s.setTraces (tabInsert s.trace.open_ id {}))
  else (none, s)

/-- Close a tagged frame whose last record is written (R527). -/
def State.traceClose (s : State) (id : Nat) : State :=
  match tabFind s.trace.open_ id with
  | some t => if t.rxDone ∧ t.made ∧ t.left = 0 then s.setTraces (tabErase s.trace.open_ id) else s
  | none => s

/-- Change what is kept of a tagged frame. -/
def State.modTrace (s : State) (id : Nat) (g : TraceSt → TraceSt) : State :=
  match tabFind s.trace.open_ id with
  | some t => { s with trace := { s.trace with open_ := tabInsert s.trace.open_ id (g t) } }
  | none => s

/-- The unit of each scale of R526, in ns. -/
def scaleUnit (k : Nat) : Nat := 64 ^ k

/-- The smallest scale at which every offset reached fits (R526). -/
def traceScale (offs : List (Option Nat)) : Nat :=
  ((List.range 3).find? fun k => offs.all fun o => match o with | none => true | some n => decide (n / scaleUnit k < 0x3FFFE)).getD 3

/-- One offset as the record holds it. -/
def traceField (k : Nat) (o : Option Nat) : Nat :=
  match o with
  | none => 0x3FFFF
  | some n => min (n / scaleUnit k) 0x3FFFE

/-- A stage time as an offset in ns from a base, both device times. -/
def traceOff (base : Nat) (t : Option Nat) : Option Nat := t.map fun t => (t - base) / 2 ^ 48

/-- Write the TRACE_RX record of a tagged frame (R526); `code` is its reason or drop code. -/
def State.traceRx (s : State) (f : Frame) (code : Nat) : State :=
  match f.trace with
  | none => s
  | some id =>
    let base := f.rx.getD 0
    let offs := [f.tLast, f.tAlloc, f.tHand, f.tTake, f.tResult, f.tRelease].map (traceOff base)
    let k := traceScale offs
    let o := fun i => traceField k (offs.getD i none)
    let r := f.result.getD { kind := 3, dest := 0, tenant := f.owner }
    let unit := match f.slice with | some n => 0x110 + 16 * f.group + n | none => 0xFFF
    let s := s.emitPart 16 clsCounter
      { code := 0x79, unit := 0xC20, stamp := stampOf base,
        p3 := id + unit * 2 ^ 16 + f.pre * 2 ^ 28 + (if f.express then 2 ^ 31 else 0) + k * 2 ^ 32,
        p4 := o 0 + o 1 * 2 ^ 18, p5 := o 2 + o 3 * 2 ^ 18, p6 := o 4 + o 5 * 2 ^ 18,
        p7 := r.kind * 2 ^ 34 + r.dest % 2 ^ 16 * 2 ^ 18 + code * 2 ^ 12 + r.qclass * 2 ^ 9 + r.tenant * 2 ^ 4 }
    (s.modTrace id fun t => { t with rxDone := true }).traceClose id

/-- Copies of a tagged frame that take a TRACE_TX record. -/
def State.traceMax (s : State) : Nat := max 1 (min 16 (s.fget F.CNT_TRACE.max_copies))

/-- A copy of a tagged frame is made: the trace it carries, or none beyond `max_copies` (R527). -/
def State.traceCopy (s : State) (id : Option Nat) : Option Nat × State :=
  match id with
  | none => (none, s)
  | some n =>
    match tabFind s.trace.open_ n with
    | none => (none, s)
    | some t =>
      if t.count < s.traceMax then (some n, s.modTrace n fun t => { t with count := t.count + 1, left := t.left + 1 })
      else (none, s.devCount 5)

/-- Write the TRACE_TX record of a copy (R526): `queue` its queue, `kind` 0 copy, 1 mirror, 2 punt, `outcome` as R526 codes it. -/
def State.traceTx (s : State) (c : Copy) (kind outcome : Nat) (tLast : Option Nat) : State :=
  match c.trace with
  | none => s
  | some id =>
    let base := c.tEnq.getD 0
    let offs := [c.tHbm, c.tBack, c.tSel, c.tEng, c.tFirst, tLast].map (traceOff base)
    let k := traceScale offs
    let o := fun i => traceField k (offs.getD i none)
    let s := s.emitPart 16 clsCounter
      { code := 0x7A, unit := c.port, stamp := stampOf base,
        p3 := id + c.engine * 2 ^ 16 + kind * 2 ^ 28 + k * 2 ^ 30,
        p4 := (c.port * 128 + c.set * 8 + c.qclass) + (if c.wentDeep then 2 ^ 15 else 0) + outcome * 2 ^ 16,
        p5 := o 0 + o 1 * 2 ^ 18, p6 := o 2 + o 3 * 2 ^ 18, p7 := o 4 + o 5 * 2 ^ 18 }
    (s.modTrace id fun t => { t with left := t.left - 1 }).traceClose id

end Sys2Proof.Machine
end

