-- ==== Sys2Proof/Machine/Buffers.lean ====
section
/-! DEFINITION. Buffer memory, pools, handles, accounts and the operations of the buffer pool manager (R261–R278, R292, R293). -/

namespace Sys2Proof.Machine

/-! ## Pools (R262, R265, R266) -/

/-- Word `i` of the POOLS section under a plane tag; the pool layout is the same in both banks (R268). -/
def State.poolWordT (s : State) (tag i : Nat) : Nat := s.pword 16 tag 7 i

/-- Word `i` of the POOLS section in scope H's ACTIVE bank. -/
def State.poolWord (s : State) (i : Nat) : Nat := s.pword 16 s.tagNow 7 i

/-- The pool exists: pools 0–3 always, pools 4–15 when `valid` (R270). -/
def State.poolExists (s : State) (p : Nat) : Bool :=
  decide (p < 4) || (decide (p < 16) && bit (s.poolWord (12 + 4 * (p - 4))) 35)

/-- Buffer size in bytes. -/
def State.poolSize (s : State) (p : Nat) : Nat :=
  match p with
  | 0 => 256 | 1 => 1024 | 2 => 2560 | 3 => 10240
  | _ => bits (s.poolWord (13 + 4 * (p - 4))) 16 0

/-- Number of buffers. -/
def State.poolCount (s : State) (p : Nat) : Nat :=
  if p < 4 then bits (s.poolWord (2 * p)) 19 0
  else if s.poolExists p then bits (s.poolWord (14 + 4 * (p - 4))) 31 0 else 0

/-- The partition of a software pool. -/
def State.poolPart (s : State) (p : Nat) : Nat := bits (s.poolWord (12 + 4 * (p - 4))) 20 16

/-- A software pool lies in the deep buffer. -/
def State.poolDeep (s : State) (p : Nat) : Bool := decide (4 ≤ p) && bit (s.poolWord (12 + 4 * (p - 4))) 34

/-- First CMEM word or first 64 KiB block of a software pool. -/
def State.poolBase (s : State) (p : Nat) : Nat := s.poolWord (15 + 4 * (p - 4))

/-- Charge of a packet buffer in 256-byte units (R262). -/
def poolCharge (p : Nat) : Nat := match p with | 0 => 1 | 1 => 4 | 2 => 10 | 3 => 40 | _ => 0

/-- Fields of a handle (R269). -/
def handlePool (h : Nat) : Nat := h / 2 ^ 32
def handleOff (h : Nat) : Nat := h % 2 ^ 32

/-- A handle passes the check of R270. -/
def State.handleOk (s : State) (h : Nat) : Bool :=
  s.poolExists (handlePool h) &&
    decide (handleOff h < s.poolCount (handlePool h) * s.poolSize (handlePool h) ∧
      handleOff h % s.poolSize (handlePool h) = 0)

/-- What is kept of a buffer that is not FREE. -/
def State.buf (s : State) (h : Nat) : Option Buf := tabFind s.bufs h

/-- Change a buffer that is not FREE. -/
def State.setBuf (s : State) (h : Nat) (b : Buf) : State := { s with bufs := tabInsert s.bufs h b }

/-- Free buffers of a pool. -/
def State.poolFree (s : State) (p : Nat) : Nat :=
  s.poolCount p - (s.bufs.filter fun e => handlePool e.1 = p).length - (s.flt.withdrawn.filter fun k => k / 2 ^ 40 = 1 ∧ handlePool (k % 2 ^ 40) = p).length

/-- The first FREE buffer of a pool at or after an index, wrapping; `fuel` bounds the buffers passed over. -/
def State.freeFrom (s : State) (p n : Nat) : Nat → Nat → Option Nat
  | 0, _ => none
  | fuel + 1, i =>
    let h := p * 2 ^ 32 + i % n * s.poolSize p
    if (s.buf h).isNone ∧ !s.flt.withdrawn.contains (2 ^ 40 + h) then some h else s.freeFrom p n fuel (i + 1)

/-- The FREE buffer that an allocation takes: which one is left open (R272), so a free value chooses. DEDUCED, log entry 41. -/
def State.pickBuf (s : State) (p : Nat) : Option Nat :=
  if s.poolCount p = 0 then none else s.freeFrom p (s.poolCount p) (s.bufs.length + s.flt.withdrawn.length + 1) (s.freeNat 32)

/-! ## Buffer contents -/

/-- The key of a byte of a buffer of a packet pool or of a deep-buffer pool. -/
def bufKey (h i : Nat) : Nat := handlePool h * 2 ^ 40 + handleOff h + i

/-- Byte `i` of a buffer: a CMEM pool's bytes are eight to a CMEM word (R265), of which the word holds the low 36 bits (R76).
DESIGN CHOICE, log entry 7. -/
def State.bufByte (s : State) (h i : Nat) : Byte :=
  let p := handlePool h
  if 4 ≤ p ∧ !s.poolDeep p then
    let a := handleOff h + i
    BitVec.ofNat 8 ((s.cget (s.poolBase p + a / 8)).toNat >>> (8 * (a % 8)))
  else tabGet 0 s.bufMem (bufKey h i)

/-- Write byte `i` of a buffer. -/
def State.setBufByte (s : State) (h i : Nat) (v : Byte) : State :=
  let p := handlePool h
  if 4 ≤ p ∧ !s.poolDeep p then
    let a := handleOff h + i
    let w := s.poolBase p + a / 8
    let m : Nat := 255 <<< (8 * (a % 8))
    let old := (s.cget w).toNat
    s.cput w (BitVec.ofNat 36 ((old - (old &&& m)) ||| (v.toNat <<< (8 * (a % 8)))))
  else { s with bufMem := tabSet 0 s.bufMem (bufKey h i) v }

/-- `n` bytes of a buffer from byte `i`. -/
def State.bufBytes (s : State) (h i n : Nat) : List Byte := (List.range n).map fun k => s.bufByte h (i + k)

/-- Write bytes into a buffer from byte `i`. -/
def State.bufWrite (s : State) (h i : Nat) : List Byte → State
  | [] => s
  | b :: bs => (s.setBufByte h i b).bufWrite h (i + 1) bs

/-! ## Accounts (R277) -/

/-- Charge `u` units to an account. -/
def State.charge (s : State) (a : Acct) (u : Nat) : State :=
  match a with
  | .none => s
  | .ingGen n => (s.bump F.BPM_PORTUSE.units 0 n u).bump F.BPM_ACCT.used 0 0 u
  | .ingExp n =>
    let s := (s.bump F.BPM_PORTUSE.units 0 n u).bump F.BPM_ACCT.used 0 1 u
    { s with expUsed := tabMod 0 s.expUsed n (· + u) }
  | .hdrm n c => { s with hdrmUsed := tabMod 0 s.hdrmUsed (8 * n + c) (· + u) }
  | .quota p => s.bump F.BPM_OCC.units p 0 u
  | .common p => (s.bump F.BPM_COCC.units p 0 u).bump F.BPM_ACCT.used 0 2 u

/-- Return `u` units to an account. -/
def State.uncharge (s : State) (a : Acct) (u : Nat) : State :=
  match a with
  | .none => s
  | .ingGen n => (s.drop F.BPM_PORTUSE.units 0 n u).drop F.BPM_ACCT.used 0 0 u
  | .ingExp n =>
    let s := (s.drop F.BPM_PORTUSE.units 0 n u).drop F.BPM_ACCT.used 0 1 u
    { s with expUsed := tabMod 0 s.expUsed n (· - u) }
  | .hdrm n c => { s with hdrmUsed := tabMod 0 s.hdrmUsed (8 * n + c) (· - u) }
  | .quota p => s.drop F.BPM_OCC.units p 0 u
  | .common p => (s.drop F.BPM_COCC.units p 0 u).drop F.BPM_ACCT.used 0 2 u

/-- The account of partition `p` that admits `u` units under a plane tag: its quota, else its common share (R277); none is a QUOTA
refusal. -/
def State.admitPart (s : State) (tag p u : Nat) : Option Acct :=
  if s.fget F.BPM_OCC.units p + u ≤ bits (s.partWordT tag p 17) 19 0 then some (.quota p)
  else if s.fget F.BPM_COCC.units p + u ≤ bits (s.partWordT tag p 18) 19 0 ∧
      s.fget F.BPM_ACCT.used 0 2 + s.fget F.BPM_ACCT.used 0 3 + u ≤ bits (s.poolWordT tag 9) 19 0 then some (.common p)
  else none

/-- The headroom reserved for the pairs of port and pre-class that have an `xoff`, honoured in ascending order up to
`hdrm_limit` (R141). -/
def State.refreshHeadroom (s : State) : State :=
  let lim := bits (s.poolWord 10) 19 0
  let (s, total, _) := (List.range 2048).foldl (fun (acc : State × Nat × Bool) k =>
    let (s, t, full) := acc
    let n := k / 8
    let c := k % 8
    let h := s.fget F.MAC_PFC.hdrm n c
    if s.fget F.MAC_PFC.xoff n c = 0 then (s.fset F.MAC_PFC_OCC.hdrm_ok n c 0, t, full)
    else if full ∨ lim < t + h then (s.fset F.MAC_PFC_OCC.hdrm_ok n c 0, t, true)
    else (s.fset F.MAC_PFC_OCC.hdrm_ok n c 1, t + h, full)) (s, 0, false)
  s.fset F.BPM_ACCT.used 0 3 total

/-! ## Holding and freeing -/

/-- A buffer leaves the threads of the partitions that do not keep it: their windows no longer reach it (R398). -/
def State.leaveWindows (s : State) (h : Nat) (keeps : Nat → Bool) : State :=
  (s.threads.filter fun e => e.2.windows.any (fun i => s.csr e.1 (0x50 + i) = h) && !keeps (s.thrPart e.1)).foldl
    (fun s e => s.modThr e.1 fun t => { t with windows := t.windows.filter fun i => s.csr e.1 (0x50 + i) ≠ h }) s

/-- A counter of a partition's buffer bank (R292). -/
def State.bpmCount (s : State) (p i : Nat) : State := s.bump F.BPM_CNT.count p i

/-- Hold a FREE buffer with count 1: the account is charged, and the least number of free buffers kept. -/
def State.hold (s : State) (h tag part : Nat) (a : Acct) (src : Option (Nat × Nat) := none) : State :=
  let p := handlePool h
  let s := (s.setBuf h { count := 1, tag := tag, part := part, acct := a, src := src }).charge a (poolCharge p)
  let s := s.fset F.BPM_PMIN.min 0 p (min (s.fget F.BPM_PMIN.min 0 p) (s.poolFree p))
  match src with
  | some (n, c) => s.pfcCount n c true (poolCharge p)
  | none => s

/-- Return a buffer to its pool and its charge to its account; a frame's buffer leaves its PFC count (R140, R278). A buffer marked by R556 is
then withdrawn: its key in `withdrawn` gains bit 40. -/
def State.freeBuf (s : State) (h : Nat) : State :=
  match s.buf h with
  | none => s
  | some b =>
    let u := poolCharge (handlePool h)
    let s := (({ s with bufs := tabErase s.bufs h }.leaveWindows h fun _ => false).uncharge b.acct u).bpmCount b.part 1
    let s := if s.flt.withdrawn.contains h then
        { s with flt := { s.flt with withdrawn := s.flt.withdrawn.map fun k => if k = h then 2 ^ 40 + h else k } }
      else s
    match b.src with
    | some (n, c) => s.pfcCount n c false u
    | none => s

/-- The BPM frees the buffer of a frame that is dropped (R275): one that is QUARANTINED stays so, at the count it has (R276). -/
def State.freeDropped (s : State) (h : Nat) : State :=
  match s.buf h with
  | some b => if b.quar then s else s.freeBuf h
  | none => s

/-- A buffer event record (R293), to the charged partition and to the owner. -/
def State.bufRecord (s : State) (code unit part h op status tag count : Nat) : State :=
  s.emitBoth part clsFault
    { code := code, unit := unit, stamp := s.stamp, p3 := h,
      p4 := unit * 2 ^ 24 + tag * 2 ^ 12 + op * 2 ^ 8 + status, p5 := count + part * 2 ^ 16 }

/-- Put a buffer into quarantine for a refusal with a status (R273, R276). -/
def State.quarantine (s : State) (unit op status h : Nat) (b : Buf) : State :=
  if b.quar then s
  else
    let s := ((s.setBuf h { b with quar := true }).bump F.BPM_QUAR.buffers b.part 0).bpmCount b.part 12
    s.bufRecord 0x58 unit b.part h op status b.tag b.count

/-! ## Units and their partitions -/

/-- The partition of a presenting unit (R272): a thread's, a channel's, a lane's holder, and H for ports and switch core planes; 31 for no unit. -/
def State.unitPart (s : State) (u : Nat) : Nat :=
  if u < 0x100 then 16
  else if 0x800 ≤ u ∧ u < 0x890 then s.thrPart (u - 0x800)
  else if 0xB00 ≤ u ∧ u < 0xB50 then chanPart (u - 0xB00)
  else if 0xA60 ≤ u ∧ u < 0xA80 then 16
  else if 0xB80 ≤ u ∧ u < 0xB88 then s.fget F.CPH_LOCK.holder (u - 0xB80)
  else 31

/-- A thread slot that a FENCING fault against the thread fences: any but FREE, IDLE and BENCH ones (R389). -/
def State.thrFences (s : State) (t : Nat) : Bool := decide (s.thrState t ≠ tFree ∧ s.thrState t ≠ tIdle ∧ s.thrState t ≠ tBench)

/-- Fence a presenting unit (R270, R389, R415, R436): a thread or a channel stops. -/
def State.fenceUnit (s : State) (u : Nat) : State :=
  if 0x800 ≤ u ∧ u < 0x890 then if s.thrFences (u - 0x800) then s.fset F.CCX_T_STATUS.state (u - 0x800) 0 tFenced else s
  else if 0xB00 ≤ u ∧ u < 0xB50 then
    (s.fset F.DMA_CH_STATUS.state (u - 0xB00) 0 6).modChan (u - 0xB00) fun c => { c with desc := none, ended := none, stopping := false }
  else { s with flt := { s.flt with fenced := if s.flt.fenced.contains u then s.flt.fenced else s.flt.fenced ++ [u] } }

/-- A handle that fails R270, presented by a unit: counted, recorded, and a FENCING fault of cause 13 against the unit. -/
def State.badHandle (s : State) (unit op h : Nat) : State :=
  let p := if s.unitPart unit = 31 then 16 else s.unitPart unit
  let s := s.bpmCount p 7
  let s := s.wr .BPM_BADH_LAST 0 0 (BitVec.ofNat 72 (unit * 2 ^ 24 + handlePool h * 2 ^ 20 + op * 2 ^ 16))
  let s := s.bufRecord 0x59 unit p h op 2 0 0
  (s.fenceUnit unit).fencing 13 unit h op p

/-! ## The operations (R272, R273, R275) -/

/-- Codes of the operations. -/
def opAlloc : Nat := 1
def opRetain : Nat := 2
def opRelease : Nat := 3
def opFree : Nat := 4
def opGive : Nat := 5
def opReclaim : Nat := 6
def opLeave : Nat := 7

/-- The counter of `BPM_CNT` that counts a refusal against the presenter's partition; none for the others (R292). -/
def refusalCounter (status : Nat) : Option Nat :=
  match status with
  | 1 => some 14 | 2 => some 7 | 3 => some 8 | 4 => some 9 | 8 => some 11 | 9 => some 10 | 10 => some 15 | _ => none

/-- A refusal of an operation by `part`'s unit: counted. -/
def State.refuseOp (s : State) (part status : Nat) : State :=
  match refusalCounter status with
  | some i => s.bpmCount part i
  | none => s

/-- ALLOC from a pool (R272, R273): the status, the handle and the state after it. -/
def State.bpmAlloc (s : State) (unit part pool : Nat) : Nat × Nat × State :=
  match s.pickBuf pool with
  | none => (1, 0, s.refuseOp part 1)
  | some h =>
    if !s.poolExists pool then (1, 0, s.refuseOp part 1)
    else if pool < 4 then
      match s.admitPart s.tagNow part (poolCharge pool) with
      | none => (10, 0, s.refuseOp part 10)
      | some a => (0, h, ((s.nextFree.hold h unit part a).bpmCount part 0))
    else if s.poolPart pool ≠ part then (4, 0, s.refuseOp part 4)
    else (0, h, (s.nextFree.hold h unit part .none).bpmCount part 0)

/-- The first status of R273 that refuses an operation on a held buffer; 0 when it is accepted. `arg` is the *n* of RETAIN or the
unit of GIVE. -/
def State.opStatus (s : State) (unit part op arg : Nat) (b : Buf) : Nat :=
  if b.part ≠ part ∧ part ≠ 16 then 4
  else if op = opReclaim ∧ !b.quar then 5
  else if b.quar ∧ op ≠ opRelease ∧ op ≠ opLeave ∧ op ≠ opReclaim then 6
  else if op = opRetain ∧ 16383 < b.count + arg then 7
  else if (op = opFree ∧ b.count ≠ 1) ∨ (op = opRelease ∧ b.count = 1) ∨ (op = opReclaim ∧ b.count ≠ 1) then 8
  else if (op = opFree ∨ op = opGive) ∧ b.tag ≠ unit then 9
  else if op = opGive ∧ s.unitPart arg ≠ b.part ∧ s.unitPart arg ≠ 16 then 9
  else 0

/-- The effect of an accepted operation on a held buffer. -/
def State.opEffect (s : State) (unit op h arg : Nat) (b : Buf) : State :=
  match op with
  | 2 => (s.setBuf h { b with count := b.count + arg }).bpmCount b.part 5
  | 3 => (s.setBuf h { b with count := b.count - 1 }).bpmCount b.part 6
  | 4 => s.freeBuf h
  | 5 => (s.setBuf h { b with tag := arg }).leaveWindows h fun p => p = s.unitPart arg || p = 16
  | 6 =>
    let s := ((s.setBuf h { b with quar := false }).freeBuf h).drop F.BPM_QUAR.buffers b.part 0
    (s.bpmCount b.part 13).bufRecord 0x5A unit b.part h op 0 b.tag b.count
  | 7 =>
    if 1 < b.count then (s.setBuf h { b with count := b.count - 1 }).bpmCount b.part 6
    else if b.quar then s
    else (s.setBuf h { b with tag := arg }).freeBuf h
  | _ => s

/-- An operation on a buffer, presented by a unit of partition `part`: the status, and the state after it. -/
def State.bpmOp (s : State) (unit part op h arg : Nat) : Nat × State :=
  if !s.handleOk h then (2, s.badHandle unit op h)
  else
    match s.buf h with
    | none => (3, s.refuseOp part 3)
    | some b =>
      let st := s.opStatus unit part op arg b
      if st = 0 then (0, s.opEffect unit op h arg b)
      else
        let s := s.refuseOp part st
        if (st = 8 ∧ (op = opFree ∨ op = opRelease)) ∨ (st = 9 ∧ op = opFree) then (st, s.quarantine unit op st h b) else (st, s)

/-- A copy leaves its buffer: the plane of its queue presents LEAVE, which at count 1 names the egress port (R275). -/
def State.leave (s : State) (port h : Nat) : State := (s.bpmOp (0xA60 + port / 8) 16 opLeave h port).2

/-- The enqueuing plane adds a holding for a further copy (R275). -/
def State.retainOne (s : State) (port h : Nat) : State := (s.bpmOp (0xA60 + port / 8) 16 opRetain h 1).2

/-- The answer to the operation last presented. -/
def State.answer (s : State) (status h : Nat) : State := { s with bpmReply := (status, h) }

/-! ## Commands -/

/-- ALLOC, presented by a unit (R272). -/
def execBpmAlloc (unit pool : Nat) (s : State) : Host.Outcome State Fault Refusal :=
  s.act (fun s =>
    let (st, h, s) := s.bpmAlloc unit (s.unitPart unit) pool
    s.answer st h)

/-- RETAIN of *n*, 1–4,096 (R272). -/
def execBpmRetain (unit handle n : Nat) (s : State) : Host.Outcome State Fault Refusal :=
  s.act (fun s =>
    let (st, s) := s.bpmOp unit (s.unitPart unit) opRetain handle n
    s.answer st handle)

/-- RELEASE (R272). -/
def execBpmRelease (unit handle : Nat) (s : State) : Host.Outcome State Fault Refusal :=
  s.act (fun s =>
    let (st, s) := s.bpmOp unit (s.unitPart unit) opRelease handle 0
    s.answer st handle)

/-- FREE (R272). -/
def execBpmFree (unit handle : Nat) (s : State) : Host.Outcome State Fault Refusal :=
  s.act (fun s =>
    let (st, s) := s.bpmOp unit (s.unitPart unit) opFree handle 0
    s.answer st handle)

/-- GIVE to a unit (R272). -/
def execBpmGive (unit handle to_ : Nat) (s : State) : Host.Outcome State Fault Refusal :=
  s.act (fun s =>
    let (st, s) := s.bpmOp unit (s.unitPart unit) opGive handle to_
    s.answer st handle)

/-- RECLAIM (R276). -/
def execBpmReclaim (unit handle : Nat) (s : State) : Host.Outcome State Fault Refusal :=
  s.act (fun s =>
    let (st, s) := s.bpmOp unit (s.unitPart unit) opReclaim handle 0
    s.answer st handle)

/-- LEAVE by the plane of the egress port (R275). -/
def execBpmLeave (port handle : Nat) (s : State) : Host.Outcome State Fault Refusal :=
  s.act (fun s =>
    let (st, s) := s.bpmOp (0xA60 + port / 8) 16 opLeave handle port
    s.answer st handle)

/-! ## Register effects (R292) -/

/-- A write of `BPM_INSPECT` by a function. -/
def State.effBpmInspect (s : State) (f : Func) (h : Nat) : State :=
  let c := f.idx
  let done := fun (s : State) (st : Nat) (r : Nat) =>
    (s.wr .BPM_OPRES c 0 (BitVec.ofNat 72 (2 ^ 35 + st))).wr .BPM_INSPECT_R c 0 (BitVec.ofNat 72 r)
  if !s.handleOk h then done (s.bpmCount f.part 7) 2 0
  else
    match s.buf h with
    | none => if f.part < 16 then done s 4 0 else done s 0 0
    | some b =>
      if f.part < 16 ∧ b.part ≠ f.part then done s 4 0
      else done s 0 ((if b.quar then 2 else 1) * 2 ^ 34 + b.count * 2 ^ 20 + b.tag * 2 ^ 8 + b.part)

/-- A write of `BPM_RECLAIM` by a function (R270, R276); its bad handle raises no fault. -/
def State.effBpmReclaim (s : State) (f : Func) (h : Nat) : State :=
  let done := fun (s : State) (st : Nat) => s.wr .BPM_OPRES f.idx 0 (BitVec.ofNat 72 (2 ^ 35 + st))
  if !s.handleOk h then done (s.bpmCount f.part 7) 2
  else
    let (st, s) := s.bpmOp 0xFFF f.part opReclaim h 0
    done s st

end Sys2Proof.Machine
end

