-- ==== Sys2Proof/Machine/Gates.lean ====
section
/-! DEFINITION. Gate control lists (R339–R347) as functions of device time, and the wire time of bytes (R35). -/

namespace Sys2Proof.Machine

/-- One nanosecond in the units of device time. -/
def nsUnits : Nat := 2 ^ 48

/-- The time that bytes take on the wire of a port, in the units of device time, rounded up. -/
def State.wireTime (s : State) (port bytes : Nat) : Nat :=
  (bytes * 8000 * nsUnits + speedMbps (s.portSpeed port) - 1) / speedMbps (s.portSpeed port)

/-- The scope that governs a port's list under a plane tag (R339). -/
def State.gateScope (s : State) (port tag : Nat) : Nat := (s.exclusiveT tag port).getD 16

/-- Gate control is in use on the port under a plane tag. -/
def State.gclOn (s : State) (port tag : Nat) : Bool := s.pget (s.gateScope port tag) tag F.GTE_CTL.en port = 1

/-- Entries of the list, `len` of them (R351). -/
def State.gclLen (s : State) (port tag : Nat) : Nat := max 1 (min 256 (s.pget (s.gateScope port tag) tag F.GTE_CTL.len port))

/-- Cycle time in ns (R351). -/
def State.gclCycle (s : State) (port tag : Nat) : Nat := max 1000 (s.pget (s.gateScope port tag) tag F.GTE_CYCLE.cycle port)

/-- The entry words of the list. -/
def State.gclWords (s : State) (port tag : Nat) : List Nat :=
  (List.range (s.gclLen port tag)).map fun e => s.pword (s.gateScope port tag) tag 9 (port * 256 + e)

/-- Fields of an entry (R339); `op` 3 is taken as SET and `interval` 0 as 1 (R351). -/
def entryOp (w : Nat) : Nat := if bits w 35 34 = 3 then 0 else bits w 35 34
def entryGates (w : Nat) : Nat := bits w 33 26
def entryInterval (w : Nat) : Nat := max 1 (bits w 25 0)

/-- The base time as device time: the upper seconds are those of the nearest second count (R347). -/
def State.gclBase (s : State) (port tag : Nat) : Int :=
  let sc := s.gateScope port tag
  let sec : Int := s.pget sc tag F.GTE_BASE.sec port
  let ns := min 999999999 (s.pget sc tag F.GTE_BASE.ns port)
  let frac := s.pget sc tag F.GTE_BASE.frac port
  let now : Int := s.time.now / secUnits
  let d := (sec - now) % (2 ^ 36 : Int)
  let full := if d < 2 ^ 35 then now + d else now + d - 2 ^ 36
  full * secUnits + (ns * nsUnits + frac * 2 ^ 42 : Nat)

/-- The intervals of one cycle, each with its entry number and entry word: cut at the cycle's end, the last held until it (R340). -/
def cycleParts : Nat → Nat → List Nat → List (Nat × Nat × Nat)
  | _, _, [] => []
  | left, i, [w] => if left = 0 then [] else [(i, w, left)]
  | left, i, w :: ws =>
    if left = 0 then []
    else (i, w, min left (entryInterval w)) :: cycleParts (left - min left (entryInterval w)) (i + 1) ws

/-- The parts of a port's cycle. -/
def State.gclParts (s : State) (port tag : Nat) : List (Nat × Nat × Nat) :=
  cycleParts (s.gclCycle port tag) 0 (s.gclWords port tag)

/-- The parts from a moment of the cycle on: the part then running with what is left of it, in units of device time, and those after
it. -/
def partsFrom : Nat → List (Nat × Nat × Nat) → List (Nat × Nat × Nat)
  | _, [] => []
  | off, (i, w, d) :: t => if off < d * nsUnits then (i, w, d * nsUnits - off) :: t.map (fun q => (q.1, q.2.1, q.2.2 * nsUnits))
                           else partsFrom (off - d * nsUnits) t

/-- The list has started at a time. -/
def State.gclStarted (s : State) (port tag : Nat) (t : Nat) : Bool := decide (s.gclBase port tag ≤ t)

/-- The offset of a time in its cycle, in units of device time. -/
def State.gclOffset (s : State) (port tag : Nat) (t : Nat) : Nat :=
  (((t : Int) - s.gclBase port tag) % (s.gclCycle port tag * nsUnits : Nat)).toNat

/-- The entry in force at a time: its number and word; before the base time the last entry (R340). -/
def State.gclEntry (s : State) (port tag : Nat) (t : Nat) : Nat × Nat :=
  let ws := s.gclWords port tag
  if s.gclStarted port tag t then
    match partsFrom (s.gclOffset port tag t) (s.gclParts port tag) with
    | (i, w, _) :: _ => (i, w)
    | [] => (ws.length - 1, ws.getLastD 0)
  else (ws.length - 1, ws.getLastD 0)

/-- The gate of class `c` is open at a time in the list of a plane tag (R339). -/
def State.gateOpen (s : State) (port tag c t : Nat) : Bool :=
  !s.gclOn port tag || bit (entryGates (s.gclEntry port tag t).2) c

/-- How long parts keep the gate of class `c` open from their start. -/
def openRun (c : Nat) : List (Nat × Nat × Nat) → Nat
  | [] => 0
  | (_, w, d) :: t => if bit (entryGates w) c then d + openRun c t else 0

/-- How long the gate of class `c` stays open from a time on, in units of device time; none without end (R341). -/
def State.gateLeft (s : State) (port tag c t : Nat) : Option Nat :=
  if !s.gclOn port tag then none
  else
    let parts := s.gclParts port tag
    if parts.all fun q => bit (entryGates q.2.1) c then none
    else
      let whole := parts.map fun q => (q.1, q.2.1, q.2.2 * nsUnits)
      if s.gclStarted port tag t then some (openRun c (partsFrom (s.gclOffset port tag t) parts ++ whole))
      else if bit (entryGates ((s.gclWords port tag).getLastD 0)) c then
        some ((s.gclBase port tag - t).toNat + openRun c whole)
      else some 0

/-- The longest open run of class `c` over parts repeated twice. -/
def longestRun (c : Nat) : List (Nat × Nat × Nat) → Nat
  | [] => 0
  | q :: t => max (openRun c (q :: t)) (longestRun c t)

/-- The longest open interval of class `c` in one cycle, in ns; none when the gate never closes (R345). -/
def State.gateWindow (s : State) (port tag c : Nat) : Option Nat :=
  if !s.gclOn port tag then none
  else
    let parts := s.gclParts port tag
    if parts.all fun q => bit (entryGates q.2.1) c then none else some (longestRun c (parts ++ parts))

/-- The last SET_AND_HOLD or SET_AND_RELEASE among entries decides the hold; none of them keeps `h`. -/
def holdAfter (h : Bool) : List Nat → Bool
  | [] => h
  | w :: t => holdAfter (match entryOp w with | 1 => true | 2 => false | _ => h) t

/-- The list of a plane tag has the hold in force at a time (R339); before its base time, as its last entry says (R340).
DEDUCED, log entry 44. -/
def State.listHold (s : State) (port tag t : Nat) : Bool :=
  if !s.gclOn port tag then false
  else
    let ws := (s.gclParts port tag).map fun q => q.2.1
    let first := holdAfter false [(s.gclWords port tag).getLastD 0]
    if s.gclStarted port tag t then
      let i := (s.gclEntry port tag t).1
      let before := decide ((s.gclBase port tag + (s.gclCycle port tag * nsUnits : Nat)) ≤ t)
      holdAfter (holdAfter first (if before then ws else [])) (ws.take (i + 1))
    else first

/-- Transmit preemption is active on the port (R143). -/
def State.preempts (s : State) (port : Nat) : Bool := s.flag F.MAC_MM.active port

/-- The effective fragment value *k* of a port for the frames of a plane tag (R116, R144). -/
def State.fragK (s : State) (tag port : Nat) : Nat :=
  max (bits (s.portWord tag port 6) 15 14) (s.fget F.MAC_MM.tx_add_frag port)

/-- The lead of R341 in units of device time. -/
def State.txLead (s : State) (port : Nat) : Nat :=
  (match s.portSpeed port with | 0 => 220 | 1 => 200 | 2 => 200 | 3 => 195 | _ => 190) * nsUnits

end Sys2Proof.Machine
end

