-- ==== Sys2Proof/Machine/Queues.lean ====
section
/-! DEFINITION. Frames and copies in the device, egress queues and their profiles, and enqueueing (R280–R283, R322–R332). -/

namespace Sys2Proof.Machine

/-! ## Frames -/

/-- A frame by its number. -/
def State.frame (s : State) (id : Nat) : Option Frame := tabFind s.frames id

/-- Change a frame that is in the device. -/
def State.modFrame (s : State) (id : Nat) (g : Frame → Frame) : State :=
  match s.frame id with
  | some f => { s with frames := tabInsert s.frames id (g f) }
  | none => s

/-- Frames of the previous generation in the device (R68); a frame dropped whose job still runs has left. -/
def State.oldFrames (s : State) : Nat :=
  (s.frames.filter fun e => e.2.tag ≠ s.tagNow && !((e.2.failed || (e.2.switched && !e.2.alloc)) && e.2.copies = 0)).length

/-- Count the frames of the previous generation; at zero the generation has drained (R68): the flag, the GEN_DRAINED record (R73).
DRAINING scopes are then restored (SHADOW_RESTORE_DONE). DEDUCED, log entry 32. DESIGN CHOICE, log entry 71. -/
def State.refreshOld (s : State) : State :=
  if s.flag F.IMG_STATUS.drained then s
  else
    let n := s.oldFrames
    let s := s.fset F.IMG_OLD_FRAMES.count 0 0 n
    if n = 0 then
      (s.fset F.IMG_STATUS.drained 0 0 1).emitPart 16 clsImage { code := 0x36, unit := 0xC30, stamp := s.stamp }
    else s

/-- A frame leaves the device. -/
def State.frameGone (s : State) (id : Nat) : State := { s with frames := tabErase s.frames id }.refreshOld

/-- The size of a frame's buffer. -/
def State.bufSizeOf (s : State) (h : Nat) : Nat := s.poolSize (handlePool h)

/-! ## Copies -/

/-- The length of a copy's frame: its buffer size while the frame arrives (R281). -/
def State.copyLen (s : State) (c : Copy) : Nat :=
  match s.frame c.frame with
  | some f => if f.ended then f.len else s.bufSizeOf c.handle
  | none => c.len

/-- The stored length of a copy (R331): the bytes kept of a truncated mirror copy, else the frame's length. -/
def State.storedLen (s : State) (c : Copy) : Nat :=
  if c.trunc = 0 then s.copyLen c else min c.trunc (s.copyLen c)

/-- The length by which the scheduler judges a copy (R331, R344): its stored length; while its frame arrives, the length its length rule
gives, or its buffer size. -/
def State.schedLen (s : State) (c : Copy) : Nat :=
  match s.frame c.frame with
  | some f =>
    if !f.ended ∧ f.known ≠ 0 then (if c.trunc = 0 then f.known else min c.trunc f.known) else s.storedLen c
  | none => s.storedLen c

/-- The copy's frame has been received in full. -/
def State.copyWhole (s : State) (c : Copy) : Bool :=
  match s.frame c.frame with
  | some f => f.ended
  | none => true

/-- One copy of a frame has left the device; the last one of a frame that is done takes the frame with it. -/
def State.copyGone (s : State) (c : Copy) : State :=
  match s.frame c.frame with
  | some f =>
    if f.copies ≤ 1 ∧ f.switched ∧ (f.ended ∨ f.failed) then s.frameGone c.frame
    else (s.modFrame c.frame fun f => { f with copies := f.copies - 1, alloc := f.alloc && decide (1 < f.copies) })
  | none => s

/-! ## Queues -/

/-- Queue number (R13). -/
def queueNo (port set c : Nat) : Nat := port * 128 + set * 8 + c

/-- An egress queue. -/
def State.queue (s : State) (n : Nat) : Queue := tabGet {} s.queues n

/-- Replace an egress queue. -/
def State.setQueue (s : State) (n : Nat) (q : Queue) : State := { s with queues := tabSet {} s.queues n q }

/-- The queue of a copy. -/
def copyQueue (c : Copy) : Nat := queueNo c.port c.set c.qclass

/-- Replace an egress queue whose pending part may have a new front copy: since when that is the front one (R305). -/
def State.putQueue (s : State) (n : Nat) (q : Queue) : State :=
  let same := (q.pend.head?.map (·.id)) = ((s.queue n).pend.head?.map (·.id))
  s.setQueue n { q with frontAt := if q.pend = [] then 0 else if same then q.frontAt else s.time.now }

/-- Bytes of every copy in a queue, on-chip and deep: a copy of a frame still arriving counts its buffer size (R281). -/
def State.queueBytes (s : State) (q : Queue) : Nat :=
  ((q.head ++ q.pend).map s.copyLen).sum + (q.deep.map fun d => s.copyLen d.copy).sum

/-- The queue profile of a queue under a plane tag (R323). -/
def State.queueProf (s : State) (tag port set c : Nat) : Nat :=
  let b := s.bankOf 16 tag
  if c < 6 then fldGet (s.rdPlane 16 b .SCH_QPROF_LO (port * 16 + set)) (6 * c + 5) (6 * c)
  else fldGet (s.rdPlane 16 b .SCH_QPROF_HI (port * 16 + set)) (6 * (c - 6) + 5) (6 * (c - 6))

/-- The limit of a queue in bytes. -/
def State.queueLimit (s : State) (tag port set c : Nat) : Nat :=
  256 * s.pget 16 tag F.SCH_PROF_LIMIT.limit 0 (s.queueProf tag port set c)

/-- The deep threshold in bytes; 0 never (R294). -/
def State.queueDeepTh (s : State) (tag port set c : Nat) : Nat :=
  256 * s.pget 16 tag F.SCH_PROF_DEEP.deep_th 0 (s.queueProf tag port set c)

/-- The refill mark in bytes; 0 with a deep threshold is taken as 1 unit (R350). -/
def State.queueRefill (s : State) (tag port set c : Nat) : Nat :=
  256 * max 1 (s.pget 16 tag F.SCH_PROF_DEEP.refill 0 (s.queueProf tag port set c))

/-- The red policy drops a red copy at an occupancy (R323); `red_pol` 3 is taken as 2. -/
def State.redDrops (s : State) (tag port set c occ : Nat) : Bool :=
  let p := s.queueProf tag port set c
  match s.pget 16 tag F.SCH_PROF_RED.red_pol 0 p with
  | 0 => false
  | 1 => decide (256 * s.pget 16 tag F.SCH_PROF_RED.red_th 0 p ≤ occ)
  | _ => true

/-! ## Queue sets under a plane tag (R280) -/

/-- A tenant has a port in its `shared_ports` under a plane tag. -/
def State.sharesPortT (s : State) (tag p port : Nat) : Bool :=
  decide (p < 16) && bit (s.partWordT tag p 0) 0 && bit (s.partWordT tag p (9 + port / 32)) (port % 32)

/-- The queue set that R280 gives partition `t` on a port; none when it has none. -/
def State.setFor (s : State) (tag t port : Nat) : Option Nat :=
  if t = 16 then if (s.exclusiveT tag port).isNone then some (s.ownerSet tag port) else none
  else if s.holdsPortT tag t port || s.sharesPortT tag t port then some t
  else none

/-- The partition that holds a queue set of a port. -/
def State.setPart (s : State) (tag port set : Nat) : Nat :=
  if s.holdsPortT tag set port || s.sharesPortT tag set port then set else 16

/-- An edit index is in a partition's edit range; the null edit is in every range, and every index in H's (R359). -/
def State.editOk (s : State) (tag p edit : Nat) : Bool :=
  edit = 0 || p = 16 ||
    (let w := s.partWordT tag p 25
     decide (bits w 11 0 ≤ edit ∧ edit < bits w 11 0 + bits w 24 12))

/-- A queue set covered by check 8 of a pending castling (R65, R66): the castling of scope H would give it to another partition. -/
def State.setCovered (s : State) (port set : Nat) : Bool :=
  match s.image.castle with
  | some c =>
    c.accepted && bit c.mask 16 &&
      (let sh := fun type idx => (tabGet 0 (s.plane 16 (s.shadowOf 16)).words (type * 2 ^ 28 + idx)).toNat
       let holds := fun (p : Nat) => bit (sh 2 (28 * p)) 0 &&
         (bit (sh 2 (28 * p + 1 + port / 32)) (port % 32) || bit (sh 2 (28 * p + 9 + port / 32)) (port % 32))
       let excl := (List.range 16).any fun p => bit (sh 2 (28 * p)) 0 && bit (sh 2 (28 * p + 1 + port / 32)) (port % 32)
       let after : Nat := if holds set then set else if !excl && bits (sh 1 (128 + 8 * port + 1)) 6 3 = set then 16 else 31
       let before : Nat := if s.holdsPortT s.tagNow set port || s.sharesPortT s.tagNow set port then set
         else if (s.exclusiveT s.tagNow port).isNone && s.ownerSet s.tagNow port = set then 16 else 31
       before ≠ after)
  | none => false

/-! ## Virtual times (R331, R332) -/

/-- `a` precedes `b` modulo 2³⁶. -/
def vBefore (a b : Nat) : Bool := decide (a ≠ b ∧ (b + 2 ^ 36 - a) % 2 ^ 36 < 2 ^ 35)

/-- The later of two virtual times. -/
def vLater (a b : Nat) : Nat := if vBefore a b then b else a

/-- The finish time of a copy at a node (R331). -/
def vFinish (start len overhead weight : Nat) : Nat := (start + (len + overhead) * 256 / max 1 weight) % 2 ^ 36

/-- The class weight of a queue under a plane tag: of the scope that holds the queue set (R328). -/
def State.clsWeight (s : State) (tag port set c : Nat) : Nat :=
  max 1 (s.pget (s.setPart tag port set) tag F.SCH_CLS_CFG.weight (port * 16 + set) c)

/-- The set weight under a plane tag. -/
def State.setWeight (s : State) (tag port set : Nat) : Nat := max 1 (s.pget 16 tag F.SCH_SET_CFG.weight (port * 16 + set))

/-- The overhead of a port under a plane tag. -/
def State.overhead (s : State) (tag port : Nat) : Nat := s.pget 16 tag F.SCH_PORT.overhead port

/-- The set child of a port node. -/
def State.setNode (s : State) (port set : Nat) : SetNode := tabGet {} s.sets (port * 16 + set)

/-- Change the set child of a port node. -/
def State.modSetNode (s : State) (port set : Nat) (g : SetNode → SetNode) : State :=
  { s with sets := tabMod {} s.sets (port * 16 + set) g }

/-- Give the head of a queue of classes 0–6, and its set, a tag where none stands (R331). -/
def State.refreshTag (s : State) (port set c : Nat) : State :=
  if c = 7 then s
  else
    let n := queueNo port set c
    let q := s.queue n
    let s := match q.head, q.tag with
      | [], _ => s.setQueue n { q with tag := none }
      | h :: _, none =>
        let st := vLater (s.fget F.SCH_SET_VT.vt (port * 16 + set)) q.lastF
        s.setQueue n { q with tag := some (st, vFinish st (s.schedLen h) (s.overhead h.tag port) (s.clsWeight h.tag port set c)) }
      | _, some _ => s
    let any := (List.range 7).any fun k => (s.queue (queueNo port set k)).head ≠ []
    let node := s.setNode port set
    if !any then s.modSetNode port set fun k => { k with tag := none }
    else if node.tag.isNone then
      s.modSetNode port set fun k => { k with tag := some (vLater (s.fget F.SCH_VT_NOW.vt port) k.lastF) }
    else s

/-- A frame that has ended gives its length to the tag that its copy at the head of a queue holds (R331). -/
def State.retag (s : State) (id : Nat) : State :=
  s.queues.foldl (fun s e => match e.2.head, e.2.tag with
    | h :: _, some (st, _) =>
      if h.frame = id then
        s.setQueue e.1 { e.2 with tag := some (st, vFinish st (s.schedLen h) (s.overhead h.tag h.port) (s.clsWeight h.tag h.port h.set h.qclass)) }
      else s
    | _, _ => s) s

/-! ## Enqueueing (R281, R295) -/

/-- A counter of a partition's switch bank (R291). -/
def State.swcCount (s : State) (p i : Nat) (n : Nat := 1) : State := s.bump F.SWC_CNT.count p i n

/-- The copy may take its queue deep (R294). -/
def State.mayDeep (s : State) (c : Copy) : Bool :=
  decide (c.qclass ≠ 7 ∧ s.queueDeepTh c.tag c.port c.set c.qclass ≠ 0 ∧
    bits (s.partWordT c.tag (s.setPart c.tag c.port c.set) 19) 20 0 ≠ 0)

/-- The bytes of copies. -/
def State.copiesBytes (s : State) (l : List Copy) : Nat := (l.map s.storedLen).sum

/-- Move pending copies to the head, in order, until it holds `refill` bytes (R295): the head, what stays pending, and how many moved. -/
def State.bypass (s : State) (refill : Nat) : List Copy → List Copy → Nat → List Copy × List Copy × Nat
  | head, [], n => (head, [], n)
  | head, c :: t, n => if s.copiesBytes head < refill then s.bypass refill (head ++ [c]) t (n + 1) else (head, c :: t, n)

/-- A DEEP queue with an empty deep part takes from its pending part while its head is below `refill`, and goes ON_CHIP when nothing is
left in either (R295). -/
def State.deepSettle (s : State) (n : Nat) : State :=
  let q := s.queue n
  if !q.isDeep ∨ q.deep ≠ [] then s
  else
    match q.pend with
    | [] => s.setQueue n { q with isDeep := false, reading := false }
    | c :: _ =>
      let (head, pend, k) := s.bypass (s.queueRefill c.tag (n / 128) (n / 8 % 16) (n % 8)) q.head q.pend 0
      let s := s.putQueue n { q with head := head, pend := pend, isDeep := pend ≠ [], reading := q.reading && pend ≠ [] }
      let s := (q.pend.take k).foldl (fun s c => s.bump F.HBC_CNT.count c.part 3) s
      s.refreshTag (n / 128) (n / 8 % 16) (n % 8)

/-- Append a copy to its queue: to the head while ON_CHIP within the deep threshold, else to the pending part (R295). The port's transmitter is not
in low-power idle while a queue holds a frame (R149). -/
def State.appendCopy (s : State) (c : Copy) : State :=
  let n := copyQueue c
  let s := s.fset F.MAC_STATUS.lpi_tx c.port 0 0
  let q := s.queue n
  if q.isDeep then (s.putQueue n { q with pend := q.pend ++ [c] }).deepSettle n
  else if s.mayDeep c ∧ s.queueDeepTh c.tag c.port c.set c.qclass < s.queueBytes q + s.copyLen c then
    (s.putQueue n { q with pend := q.pend ++ [c], isDeep := true }).deepSettle n
  else (s.setQueue n { q with head := q.head ++ [c] }).refreshTag c.port c.set c.qclass

/-- Why a copy is not enqueued (R406): 0 enqueued, 1 NO_QSET, 2 CASTLING_DROP, 3 RED_DROP, 4 TAIL_DROP. `set` is the queue set that
the copy names, checked against the one R280 finds. -/
def State.enqueueCheck (s : State) (c : Copy) (holder : Nat) : Nat :=
  let found := s.setFor c.tag holder c.port
  if found ≠ some c.set ∨ (!c.mirror ∧ !s.editOk c.tag holder c.edit) then 1
  else if s.setCovered c.port c.set then 2
  else
    let occ := s.queueBytes (s.queue (copyQueue c))
    if c.colour = 2 ∧ s.redDrops c.tag c.port c.set c.qclass occ then 3
    else if s.queueLimit c.tag c.port c.set c.qclass < occ + s.copyLen c then 4
    else 0

/-- Count a copy that is not enqueued (R280, R281, R287, R291): a mirror copy that fails R281 is MIRROR_DROP. -/
def State.countDrop (s : State) (c : Copy) (why : Nat) : State :=
  if c.mirror ∧ why ≠ 1 then s.swcCount c.part 11
  else match why with
    | 1 => (s.swcCount c.part 8).swcCount c.part 7
    | 2 => (s.swcCount c.part 9).swcCount c.part 7
    | 3 => s.swcCount c.part 6
    | _ => s.swcCount c.part 7

/-- The port transmits nothing and nothing is selected for it (R25). -/
def State.portIdle (s : State) (port : Nat) : Bool :=
  let p := s.port port
  p.wire.isNone && p.remainder.isNone && decide (p.ctlWait = [] ∧ p.fifo7 = [] ∧ p.fifoG = [] ∧ p.order7 = [] ∧ p.orderG = [])

/-- A copy reaching the scheduler is sent cut-through (R25, R283). -/
def State.cutThrough (s : State) (c : Copy) : Bool :=
  match s.frame c.frame with
  | none => false
  | some f =>
    !f.ended && f.injected.isNone && s.flag F.SWC_CFG.ct_en && s.portIdle c.port &&
      (s.queues.all fun e => e.1 / 128 ≠ c.port ||
        ((e.2.head ++ e.2.pend).all (fun x => x.frame = c.frame) && e.2.deep.all fun d => d.copy.frame = c.frame)) &&
      decide (speedMbps (s.portSpeed c.port) ≤ speedMbps (s.portSpeed f.port)) && s.gateOpen c.port c.tag c.qclass s.time.now &&
      decide ((s.queue (copyQueue c)).deep = [])

/-- Enqueue a copy (R280, R281): the reason it was dropped, 0 for none, and the state. The first copy of a frame takes over its
holding, each further one adds a holding (R275). -/
def State.enqueue (s : State) (c : Copy) (holder : Nat) (trace : Option Nat) : Nat × State :=
  let why := s.enqueueCheck c holder
  if why ≠ 0 then (why, s.countDrop c why)
  else
    let n := match s.frame c.frame with | some f => f.copies | none => 0
    let s := if n = 0 then s else s.retainOne c.port c.handle
    let (tr, s) := s.traceCopy trace
    let c := { c with id := s.nextCopy, trace := tr, tEnq := some s.time.now, ct := s.cutThrough c }
    let s := { s with nextCopy := s.nextCopy + 1 }
    let s := (s.modFrame c.frame fun f => { f with copies := f.copies + 1 }).appendCopy c
    let s := (s.swcCount c.part (if c.mirror then 10 else 0)).balAdd c.part 6
    (0, s)

/-! ## Withdrawal and drops after enqueue -/

/-- Remove copies from a queue; a new front copy of the head takes a tag. -/
def State.filterQueue (s : State) (n : Nat) (keep : Copy → Bool) : State :=
  let q := s.queue n
  let head := q.head.filter keep
  let tag := if (q.head.head?.map (·.id)) = (head.head?.map (·.id)) then q.tag else none
  (s.putQueue n { q with head := head, pend := q.pend.filter keep, tag := tag }).refreshTag (n / 128) (n / 8 % 16) (n % 8)

/-- A copy leaves by one of the drops after enqueue (R31): LEAVE, the balance, its trace and its frame. -/
def State.dropCopy (s : State) (c : Copy) (balance outcome : Nat) : State :=
  let s := (s.leave c.port c.handle).balAdd c.part balance
  let s := s.traceTx c (if c.mirror then 1 else 0) outcome none
  s.copyGone c

/-- A punt copy leaves its queue without being taken: LEAVE, the balance, its trace and its frame. -/
def State.dropPunt (s : State) (q : Punt) (balance outcome : Nat) : State :=
  let c : Copy := { id := 0, frame := q.frame, handle := q.handle, len := q.len, part := q.part, port := q.inPort, set := 0, qclass := 0,
                    cls := 0, colour := 0, tag := 0, edit := 0, trace := q.trace, tEnq := q.tEnq }
  ((((s.leave q.inPort q.handle).balAdd q.part balance).traceTx c 2 outcome none)).copyGone c

/-- Withdraw every copy of a frame from the punt queues. -/
def State.withdrawPunts (s : State) (id : Nat) : State :=
  s.punts.foldl (fun s e =>
    let gone := e.2.filter fun q => q.frame = id
    if gone = [] then s
    else gone.foldl (fun s q => s.dropPunt q 9 6) { s with punts := tabSet [] s.punts e.1 (e.2.filter fun q => q.frame ≠ id) }) s

/-- Withdraw every copy of a frame from the queues (R283). -/
def State.withdraw (s : State) (id : Nat) : State :=
  (s.withdrawPunts id).queues.foldl (fun s e =>
    let gone := (e.2.head ++ e.2.pend).filter fun c => c.frame = id
    if gone = [] then s
    else gone.foldl (fun s c => s.dropCopy c 9 6) (s.filterQueue e.1 fun c => c.frame ≠ id)) (s.withdrawPunts id)

/-! ## Every copy made and not left (R290) -/

/-- The copies in the engines of the rewrite clusters, running and waiting. -/
def engineCopies (e : Engine) : List Copy :=
  (e.run.map (·.copy)).toList ++ e.wait7.toList ++ e.wait.toList

/-- The copies at a port's egress FIFO and transmitter. -/
def portCopies (p : PortSt) : List Copy :=
  (p.fifo7 ++ p.fifoG ++ p.wire.toList ++ p.remainder.toList).map (·.copy)

/-- The copies on-chip: in queues, rewrite clusters and egress FIFOs. -/
def State.chipCopies (s : State) : List Copy :=
  (s.queues.flatMap fun e => e.2.head ++ ((e.2.deep.filter fun d => d.staged).map fun d => d.copy) ++ e.2.pend) ++ (s.clusters.flatMap fun e => e.2.input) ++
    (s.engines.flatMap fun e => engineCopies e.2) ++ (s.ports.flatMap fun e => portCopies e.2)

/-- A port holds a copy of the previous generation (R346). -/
def State.holdsOld (s : State) (port : Nat) : Bool :=
  (s.chipCopies ++ s.queues.flatMap fun e => e.2.deep.map fun d => d.copy).any fun c => c.port = port ∧ c.tag ≠ s.tagNow

/-- The hold of R339 is in force: preemption is active and a running list holds it, the previous generation's while the port holds a copy of
it (R346). -/
def State.portHold (s : State) (port t : Nat) : Bool :=
  s.preempts port && (s.listHold port s.tagNow t || (s.holdsOld port && s.listHold port (1 - s.tagNow) t))

/-- The bytes of a copy in a punt queue: its frame's length, or its buffer size while the frame arrives (R281). -/
def State.puntLen (s : State) (q : Punt) : Nat :=
  match s.frame q.frame with
  | some f => if f.ended then f.len else s.bufSizeOf q.handle
  | none => q.len

/-- Copies of a partition on-chip, and their bytes, as `SWC_INFLIGHT` shows them. -/
def State.inflight (s : State) (p : Nat) : Nat × Nat :=
  let cs := s.chipCopies.filter fun c => c.part = p
  let ps := s.punts.flatMap fun e => e.2.filter fun q => q.part = p
  (cs.length + ps.length, (cs.map s.storedLen).sum + (ps.map s.puntLen).sum)

/-- Copies of a partition in the deep buffer, and their bytes, as `HBC_INFLIGHT` shows them (R303). -/
def State.deepInflight (s : State) (p : Nat) : Nat × Nat :=
  let ds := s.queues.flatMap fun e => e.2.deep.filter fun d => d.copy.part = p ∧ !d.staged
  (ds.length, (ds.map fun d => s.storedLen d.copy).sum)

end Sys2Proof.Machine
end

