-- ==== Sys2Proof/Machine/Frames.lean ====
section
/-! DEFINITION. Receiving frames: the pre-parser, buffers for received frames, frame ends, and preemptable frames in reassembly
(R16–R18, R26, R31, R127, R131–R133, R146–R148, R263, R264, R283, R522). -/

namespace Sys2Proof.Machine

/-! ## Bytes of a frame -/

/-- Byte `i` of a frame; bytes beyond its end read as zero (R173). -/
def byteAt (bs : List Byte) (i : Nat) : Nat := (bs.getD i 0).toNat

/-- The big-endian halfword at byte `i`. -/
def halfAt (bs : List Byte) (i : Nat) : Nat := byteAt bs i * 256 + byteAt bs (i + 1)

/-- The big-endian number in `n` bytes from byte `i`. -/
def numAt (bs : List Byte) (i n : Nat) : Nat := (List.range n).foldl (fun a k => a * 256 + byteAt bs (i + k)) 0

/-- The TPID of an outer tag (R131). -/
def isTpid (et : Nat) : Bool := et = 0x8100 || et = 0x88A8

/-! ## The pre-parser -/

/-- The pre-class of a frame (R131). -/
def State.preClass (s : State) (tag port : Nat) (bs : List Byte) : Nat :=
  let w := s.portWord tag port 1
  if isTpid (halfAt bs 12) then
    let p := byteAt bs 14 / 32
    bits w (8 + 3 * p + 2) (8 + 3 * p)
  else bits w 2 0

/-- The frame is marked as LLDP (R127). -/
def isLldp (bs : List Byte) : Bool :=
  let da := numAt bs 0 6
  (da = 0x0180C200000E || da = 0x0180C2000003 || da = 0x0180C2000000) &&
    (halfAt bs 12 = 0x88CC || (halfAt bs 12 = 0x88A8 && halfAt bs 16 = 0x88CC))

/-- A length rule applies to a frame (R132). DESIGN CHOICE, log entry 71. -/
def ruleApplies (w : Nat) (bs : List Byte) : Bool :=
  let tags := bits w 17 16
  bit w 35 && halfAt bs (12 + 4 * tags) = bits w 15 0 && (List.range tags).all fun j => isTpid (halfAt bs (12 + 4 * j))

/-- The length that the port's length rules give a frame; 0 is unknown (R132). -/
def State.ruleLength (s : State) (tag port : Nat) (bs : List Byte) : Nat :=
  match ((List.range 4).map fun i => s.portWord tag port (2 + i)).find? fun w => ruleApplies w bs with
  | some w =>
    let l := max 64 (halfAt bs (14 + 4 * bits w 17 16 + bits w 23 18) + bits w 33 24)
    if s.maxFrame tag port < l then 0 else l
  | none => 0

/-! ## Dropping a frame -/

/-- A result with copies still to be made waits in its group's copy FIFO. -/
def State.copiesPending (s : State) (id : Nat) : Bool := s.groups.any fun e => e.2.copyFifo.contains id

/-- The frame's buffer, still in its first account, is freed at once (R275). -/
def State.freeFrameBuf (s : State) (f : Frame) : State :=
  if f.alloc then (s.freeDropped f.handle).drop F.BPM_PORTUSE.frames 0 f.port else s

/-- A frame leaves the path before its result is taken: the balance of R520, its buffer, its TRACE_RX. Its job, where one is out,
keeps the frame's entry in the reorder store. -/
def State.preDrop (s : State) (id : Nat) (f : Frame) : State :=
  let s := s.balAdd f.owner 2
  let s := if f.alloc ∨ f.injected.isSome then s.balSub f.owner 5 else s.balSub f.owner 4
  let s := if f.injected.isSome then s.freeDropped f.handle else s.freeFrameBuf f
  let s := s.traceRx f 0
  if f.hand.isSome then s.modFrame id fun f => { f with failed := true, ended := true, alloc := false }
  else s.frameGone id

/-- A frame fails its frame check, runs past its buffer or is cut short (R283, R522): before its result is taken it is dropped; after
it, its copies are withdrawn, and one already being sent is ended under R26, counted at the ingress port too. DEDUCED, log entry 32. -/
def State.failFrame (s : State) (id : Nat) : State :=
  match s.frame id with
  | none => s
  | some f =>
    if !f.switched then s.preDrop id f
    else
      let s := s.modFrame id fun f => { f with failed := true, ended := true }
      let s := s.withdraw id
      match s.frame id with
      | some g =>
        if 0 < g.copies then s.macCount g.port 21
        else if s.copiesPending id then s
        else s.frameGone id
      | none => s

/-- The frame is being received on its port's MAC no more. -/
def State.clearRx (s : State) (id port : Nat) : State :=
  s.modPort port fun q =>
    { q with reasm := if q.reasm = some id then none else q.reasm, rxNow := if q.rxNow = some id then none else q.rxNow }

/-- Drop the frame being received, counted in a counter of the port. -/
def State.rxFail (s : State) (id : Nat) (f : Frame) (cnt : Nat) : State :=
  ((s.macCount f.port cnt).clearRx id f.port).failFrame id

/-! ## Receiving bytes -/

/-- Further bytes of a frame arrive: they go to its buffer once it has one. OVERSIZE at byte `max_frame` + 1 (R133), LEN_OVERRUN past
its buffer (R263), whichever comes first. -/
def State.takeBytes (s : State) (id : Nat) (bs : List Byte) : State :=
  match s.frame id with
  | none => s
  | some f =>
    let n := f.len + bs.length
    let mx := s.maxFrame f.tag f.port
    let sz := s.bufSizeOf f.handle
    if f.alloc ∧ sz < n ∧ sz < mx then ((s.bpmCount f.owner 3).rxFail id f 12)
    else if mx < n then s.rxFail id f 3
    else
      let s := if f.alloc then s.bufWrite f.handle f.len bs else s
      s.modFrame id fun f => { f with len := n, bytes := f.bytes ++ bs }

/-- The frame of a port's MAC that is being received. DEDUCED, log entry 32. -/
def State.rxFrame (s : State) (port : Nat) (pmac : Bool) : Option Nat :=
  if pmac then (s.port port).reasm else (s.port port).rxNow

/-! ## Allocation (R263, R264) -/

/-- The smallest packet pool whose buffer size is at least `l`; pool 3 for an unknown length. -/
def poolFor (l : Nat) : Nat := if l = 0 then 3 else if l ≤ 256 then 0 else if l ≤ 1024 then 1 else if l ≤ 2560 then 2 else 3

/-- General part of a port's ingress account in use. -/
def State.ingGeneral (s : State) (port : Nat) : Nat := s.fget F.BPM_PORTUSE.units 0 port - tabGet 0 s.expUsed port

/-- The account that admits a received frame; none is a refusal as NO_BUFFER (R264). -/
def State.admitFrame (s : State) (f : Frame) (u : Nat) : Option Acct :=
  if bit (s.fget F.MAC_PAUSE_STATE.xoff f.port) f.pre then
    if s.flag F.MAC_PFC_OCC.hdrm_ok f.port f.pre ∧
        tabGet 0 s.hdrmUsed (8 * f.port + f.pre) + u ≤ s.fget F.MAC_PFC.hdrm f.port f.pre then some (.hdrm f.port f.pre)
    else none
  else if f.express then
    if tabGet 0 s.expUsed f.port + u ≤ bits (s.poolWordT f.tag 11) 11 0 then some (.ingExp f.port) else none
  else if s.ingGeneral f.port + u ≤ s.fget F.BPM_PORT.ing_limit 0 f.port ∧
      s.fget F.BPM_ACCT.used 0 0 + u ≤ bits (s.poolWordT f.tag 8) 19 0 - 256 * bits (s.poolWordT f.tag 11) 11 0 then some (.ingGen f.port)
  else none

/-- Allocate the frame's buffer, or refuse the frame as NO_BUFFER. -/
def State.allocFrame (s : State) (id : Nat) (f : Frame) : State :=
  let l := if f.ended then f.len else s.ruleLength f.tag f.port f.bytes
  let pool := poolFor l
  let refuse := fun (s : State) => ((s.bpmCount f.owner 2).rxFail id f 11)
  match s.pickBuf pool, s.admitFrame f (poolCharge pool) with
  | some h, some a =>
    let s := (s.nextFree.hold h f.port f.owner a (some (f.port, f.pre))).bpmCount f.owner 0
    let s := if l = 0 then s.bpmCount f.owner 4 else s
    let s := (s.balSub f.owner 4).balAdd f.owner 5
    let s := s.bump F.BPM_PORTUSE.frames 0 f.port
    let s := (s.bufWrite h 0 f.bytes).modFrame id fun f =>
      { f with alloc := true, handle := h, known := l, lldp := isLldp f.bytes, tAlloc := some s.time.now }
    if s.bufSizeOf h < f.len then (s.bpmCount f.owner 3).rxFail id f 12 else s
  | _, _ => refuse s

/-- The start of a frame on one of the port's MACs (R16–R18, R39): its plane tag, pre-class, sequence, owner, receive stamp and trace. The buffer of a
preemptable frame is allocated at the start of its first fragment (R146). -/
def State.startFrame (s : State) (port : Nat) (pmac : Bool) (bytes : List Byte) : State :=
  let tag := s.tagNow
  let pre := s.preClass tag port bytes
  let owner := s.portHolder port
  let express := (s.mmOn port && !pmac) || pre = 7
  let (tr, s) := s.traceStart port
  let id := s.nextFrame
  let rx := s.time.now - s.fget F.TIM_PORT_LAT.rx 0 port * 2 ^ 42
  let f : Frame := { port := port, owner := owner, group := port / 64, express := express, tag := tag, pre := pre, pmac := pmac,
                     rx := some rx, trace := tr }
  let s := { s with frames := tabInsert s.frames id f, nextFrame := id + 1 }
  let s := ((s.balAdd owner 0).balAdd owner 4)
  let s := s.modPort port fun q => if pmac then { q with reasm := some id, fragCount := 0 } else { q with rxNow := some id }
  let s := s.takeBytes id bytes
  match s.frame id with
  | some f => if pmac && !f.failed then s.allocFrame id f else s
  | none => s

/-- A frame start is seen (R17). A preemptable frame in reassembly gives way to a new SMD-S as FRAG_ERR (R148); a frame whose end never came is
truncated (R120). A MAC control frame is no frame of the path (R134). -/
def execFrameStart (port : Nat) (pmac : Bool) (bytes : List Byte) (s : State) : Host.Outcome State Fault Refusal :=
  s.act (fun s =>
    if s.portState port ≠ pUp ∨ 256 ≤ port ∨ (pmac ∧ !s.mmOn port) then s
    else
      let s := match s.rxFrame port pmac with
        | some old => match s.frame old with
          | some f => s.rxFail old f (if pmac then 5 else 2)
          | none => s
        | none => s
      if halfAt bytes 12 = 0x8808 then s else s.startFrame port pmac bytes)

/-- The frame's first 256 bytes are held, or the whole frame: its buffer is allocated (R263). `bytes` are those that have arrived
since the last command of the frame. -/
def execBufferAllocRx (id : Nat) (bytes : List Byte) (s : State) : Host.Outcome State Fault Refusal :=
  s.act (fun s =>
    match s.frame id with
    | none => s
    | some f =>
      if f.alloc ∨ f.failed ∨ f.injected.isSome then s
      else
        let s := if f.ended then s else s.takeBytes id bytes
        match s.frame id with
        | some f => if f.ended ∨ 256 ≤ f.len then s.allocFrame id f else s
        | none => s)

/-! ## Frame ends -/

/-- A frame has been received in full and passed its check. -/
def State.frameOk (s : State) (id : Nat) (f : Frame) (fragments : Bool) : State :=
  let s := ((s.macCount f.port 0).macCount f.port 1 f.len).clearRx id f.port
  let s := if s.mmOn f.port && !f.pmac then s.macCount f.port 6 else s
  let s := if isLldp f.bytes then s.macCount f.port 13 else s
  let s := if fragments then s.macCount f.port 7 else s
  let s := (s.modFrame id fun f => { f with ended := true, tLast := some s.time.now }).retag id
  match s.frame id with
  | some g => if g.switched ∧ g.copies = 0 ∧ !s.copiesPending id then s.frameGone id else s
  | none => s

/-- The end of a frame, with its last bytes (R133, R148, R283): a failed check is FCS_ERR, or FRAG_ERR of a preemptable frame; fewer
than 64 bytes are RUNT, whatever the check of a whole express frame says. -/
def State.endFrame (s : State) (id : Nat) (bytes : List Byte) (ok fragments : Bool) : State :=
  let s := s.takeBytes id bytes
  match s.frame id with
  | none => s
  | some f =>
    if f.failed ∨ f.ended then s
    else if !ok ∧ f.pmac then s.rxFail id f 5
    else if f.len < 64 then s.rxFail id f 4
    else if !ok then s.rxFail id f 2
    else s.frameOk id f fragments

/-- A frame ends: `check` tells whether its frame check sequence holds, and how many FEC codewords, corrected and not correctable, the port has
met since its last frame end (R150). DESIGN CHOICE, log entry 67. -/
def execFrameEnd (port : Nat) (pmac : Bool) (bytes : List Byte) (check : Bool × Nat × Nat) (s : State) : Host.Outcome State Fault Refusal :=
  s.act (fun s =>
    let s := if s.portState port = pUp then (s.macCount port 23 check.2.1).macCount port 24 check.2.2 else s
    match s.rxFrame port pmac with
    | some id => s.endFrame id bytes check.1 false
    | none => s)

/-- A fragment of a preemptable frame (R146–R148): the rest of the first one up to its mCRC (`first`), or a whole continuation fragment
with its count. A broken sequence discards the frame in reassembly as FRAG_ERR; the rest of a first fragment whose frame is dropped already
counts nothing more. DEDUCED, log entry 34. -/
def execFragmentRx (port : Nat) (first : Bool) (count : Nat) (bytes : List Byte) (crcOk final : Bool) (s : State) :
    Host.Outcome State Fault Refusal :=
  s.act (fun s =>
    if s.portState port ≠ pUp ∨ !s.mmOn port then s
    else
      let s := s.macCount port 8
      match (s.port port).reasm with
      | none => if first then s else s.macCount port 5
      | some id =>
        match s.frame id with
        | none => if first then s else s.macCount port 5
        | some f =>
          let n := if first then f.len + bytes.length else bytes.length
          if !first ∧ count ≠ (s.port port).fragCount then s.rxFail id f 5
          else if final then s.endFrame id bytes crcOk true
          else if !crcOk ∨ n + 4 < 64 then s.rxFail id f 5
          else
            let s := if first then s else s.modPort port fun q => { q with fragCount := (q.fragCount + 1) % 4 }
            s.takeBytes id bytes)

/-- What a port's MACs are receiving is truncated: counted as FCS_ERR (R120), a frame in reassembly as FRAG_ERR (R148). -/
def State.cutRx (s : State) (port : Nat) : State :=
  let cut := fun (s : State) (pmac : Bool) => match s.rxFrame port pmac with
    | some id => match s.frame id with
      | some f => s.rxFail id f (if pmac then 5 else 2)
      | none => s
    | none => s
  cut (cut s false) true

/-- The first link-loss condition arises on a lane (R120): the `down_hold` timer starts; a frame being received is truncated and
counted as FCS_ERR, one in reassembly as FRAG_ERR (R148). `kind` 0 is loss of signal: an output that the lane drives is squelched
(R503). -/
def execLinkLossBegin (port lane kind : Nat) (s : State) : Host.Outcome State Fault Refusal :=
  s.act (fun s =>
    let s := if kind = 0 then (s.modPort port fun q => { q with signal := false }).squelchPort port 3 (some lane) else s
    if s.portState port ≠ pUp then s
    else (s.modPort port fun q => { q with lossOn := true }).cutRx port)

end Sys2Proof.Machine
end

