-- ==== Sys2Proof/Machine/PortState.lean ====
section
/-! DEFINITION. The port state machine, modules and their I²C masters, and link partners (R116–R130). -/

namespace Sys2Proof.Machine

/-! ## The state machine (R118–R122) -/

/-- Free every partner slot of the port without events (R130). -/
def State.clearPartners (s : State) (p : Nat) : State :=
  let s := (List.range 4).foldl (fun s i => s.wr .MAC_PARTNER p i 0) s
  s.modPort p fun q => { q with chassis := [] }

/-- What `MAC_STATUS` says of a link ends with it (R120, R150). DEDUCED, log entry 30. -/
def State.lostLink (s : State) (p : Nat) : State :=
  ((((s.fset F.MAC_STATUS.rem_fault p 0 0).fset F.MAC_STATUS.lpi_rx p 0 0).fset F.MAC_STATUS.lpi_tx p 0 0).fset
    F.MAC_STATUS.an_done p 0 0).fset F.MAC_STATUS.fec_lock p 0 0

/-- Enter a state with a cause: the status, the PORT_STATE record (R122, R151), and what leaving or entering UP brings (R117, R130, R143,
R503): leaving it, the frame being received is truncated and no control frame waits any more. Module bring-up ends with ABSENT (R118).
DEDUCED, log entry 30. -/
def State.portTo (s : State) (p new cause : Nat) : State :=
  let old := s.portState p
  if old = new then s
  else
    let s := (s.fset F.MAC_STATUS.state p 0 new).fset F.MAC_STATUS.cause p 0 cause
    let s := s.modPort p fun q => { q with training := new = pTraining, lossOn := false, bringup := 0 }
    let s := s.emitBoth (s.portHolder p) clsPort
      { code := 0x40, unit := p, stamp := s.stamp, p3 := new + old * 16 + cause * 256 }
    if old = pUp then
      let s := (s.cutRx p).modPort p fun q => { q with ctlDue := none, ctlMask := 0, ctlWait := [] }
      (((s.clearPartners p).lostLink p).squelchPort p 2).refreshMm p false
    else if new = pUp then s.refreshMm p true
    else s

/-- Enter PRESENT; a port without AN whose lanes already show signal goes on to TRAINING (R118). The macro's rewrite cluster
wakes (R358). -/
def State.portPresent (s : State) (p cause : Nat) : State :=
  let s := s.portTo p pPresent cause
  if !bit (s.portRec p) 13 && (s.port p).signal then s.portTo p pTraining 4 else s

/-- Presence is seen: a port in ABSENT begins module bring-up (R118, R124). -/
def State.presenceSeen (s : State) (p : Nat) : State :=
  let s := (s.fset F.MAC_MOD.present p 0 1).modPort p fun q => { q with missed := 0 }
  if s.portState p = pAbsent ∧ (s.port p).bringup = 0 then s.modPort p fun q => { q with bringup := 1 } else s

/-- Presence is lost (R118, R124); a port with `media` 0 is always present. -/
def State.presenceLost (s : State) (p : Nat) : State :=
  if s.portMedia p = 0 then s
  else
    let s := ((s.fset F.MAC_MOD.present p 0 0).fset F.MAC_MOD.cmis_st p 0 0).modPort p fun q => { q with bringup := 0 }
    if s.portState p = pPresent ∨ s.portState p = pTraining ∨ s.portState p = pUp then s.portTo p pAbsent 3 else s

/-- Administrative enable begins with the port's present record (R118). -/
def State.portEnable (s : State) (p cause : Nat) : State :=
  if s.portState p ≠ pDisabled ∨ !s.portValid p then s
  else if s.portMedia p = 0 then s.portPresent p cause
  else
    let s := s.portTo p pAbsent cause
    if bit (s.portRec p) 17 ∧ s.flag F.MAC_MOD.present_sw p then s.presenceSeen p else s

/-- Administrative enable ends (R118). -/
def State.portDisable (s : State) (p : Nat) : State :=
  let s := s.modPort p fun q => { q with bringup := 0 }
  (s.portTo p pDisabled 1).fset F.MAC_STATUS.retries p 0 0

/-- The port is administratively enabled. -/
def State.portAdmin (s : State) (p : Nat) : Bool := s.flag F.MAC_CTL.admin_owner p && s.flag F.MAC_CTL.admin_tenant p

/-- Two banks of scope H differ in a port's mode: word 0 of its record, or the record of its macro (R116). -/
def modeDiffers (a b : Tab Word) (p : Nat) : Bool :=
  let differs := fun w => decide (tabGet 0 a (1 * 2 ^ 28 + w) ≠ tabGet 0 b (1 * 2 ^ 28 + w))
  differs (128 + 8 * p) || (List.range 4).any fun w => differs (4 * (p / 8) + w)

/-- A pending castling's check 5 covers the port (R65, R66): scope H is in the mask and its SHADOW bank changes the port's mode or its
holder. -/
def State.castleCovers (s : State) (p : Nat) : Bool :=
  match s.image.castle with
  | some c =>
    c.accepted && bit c.mask 16 &&
      (let sh := (s.plane 16 (s.shadowOf 16)).words
       let ac := (s.plane 16 (s.scope 16).active).words
       let key := fun t i => t * 2 ^ 28 + i
       modeDiffers sh ac p ||
         (let holder := fun (t : Tab Word) => (List.range 16).find? fun q =>
            bit (tabGet 0 t (key 2 (28 * q))).toNat 0 && bit (tabGet 0 t (key 2 (28 * q + 1 + p / 32))).toNat (p % 32)
          holder sh != holder ac))
  | none => false

/-- `clr_fault` (R118): a port in FAULT with no lane in the safe state. -/
def State.portClear (s : State) (p : Nat) : State :=
  if s.portState p = pFault ∧ !s.flag F.MAC_STATUS.safe p then
    let s := s.fset F.MAC_STATUS.retries p 0 0
    if s.portMedia p = 0 then s.portPresent p 12
    else
      let s := s.portTo p pAbsent 12
      if s.flag F.MAC_MOD.present p then s.presenceSeen p else s
  else s

/-- `restart` (R118). -/
def State.portRestart (s : State) (p : Nat) : State :=
  if s.portState p = pPresent then s
  else if s.portState p = pTraining ∨ s.portState p = pUp then s.portPresent p 13 else s

/-- A write of `MAC_CTL` has taken effect: `was` tells whether the port was administratively enabled before it, `v` is the value
written (R118, R119). -/
def State.effMacCtl (s : State) (p : Nat) (was : Bool) (v : Nat) : State :=
  if was && !s.portAdmin p then s.portDisable p
  else
    let s := if !was && s.portAdmin p then
        if s.castleCovers p then { s with image := { s.image with storedEnables := s.image.storedEnables ++ [p] } }
        else s.portEnable p 1
      else s
    let s := if bit v 4 then s.portClear p else s
    if bit v 3 then s.portRestart p else s

/-- A write of `MAC_MOD` with `prs_sw` = 1 moves presence (R124). -/
def State.effMacMod (s : State) (p : Nat) : State :=
  if bit (s.portRec p) 17 then
    if s.flag F.MAC_MOD.present_sw p then s.presenceSeen p else s.presenceLost p
  else s

/-! ## Commands of the state machine -/

/-- A poll of a port's module has run: presence (R124), and a ModuleFault takes the port to FAULT (R118, R125). -/
def State.pollDone (s : State) (port : Nat) (ack modFault : Bool) : State :=
  if modFault ∧ s.portState port ≠ pFault then (s.fset F.MAC_MOD.cmis_st port 0 5).portTo port pFault 9
  else if bit (s.portRec port) 17 then s
  else if ack then s.presenceSeen port
  else
    let s := s.modPort port fun q => { q with missed := q.missed + 1 }
    if 2 ≤ (s.port port).missed then s.presenceLost port else s

/-- The lowest-numbered application that a module advertises for the port's speed and lane count (R125); each is its number, the speed code of
R113 that its host interface has, and its lanes. -/
def State.chooseApp (s : State) (port : Nat) (apps : List (Nat × Nat × Nat)) : Option Nat :=
  ((apps.filter fun a => decide (0 < a.1 ∧ a.2.1 = s.portSpeed port ∧ a.2.2 = s.portLanes port)).map Prod.fst).min?

/-- A bring-up step of a port in ABSENT has run (R125): `cmis` the module state that the master has read, `apps` the applications that the
module advertises. -/
def State.stepDone (s : State) (port cmis : Nat) (apps : List (Nat × Nat × Nat)) : State :=
  if s.portState port ≠ pAbsent ∨ (s.port port).bringup = 0 then s
  else if cmis = 5 then (s.fset F.MAC_MOD.cmis_st port 0 5).portTo port pFault 9
  else match (s.port port).bringup with
    | 1 => (s.fset F.MAC_MOD.cmis_st port 0 cmis).modPort port fun q => { q with bringup := 2 }
    | 2 => (s.fset F.MAC_MOD.cmis_st port 0 3).modPort port fun q => { q with bringup := 3 }
    | 3 => match s.chooseApp port apps with
      | none => s.portTo port pFault 10
      | some app => (s.fset F.MAC_MOD.app port 0 app).modPort port fun q => { q with bringup := 4 }
    | _ => s.portPresent port 2

/-! ## The turns of an I²C master (R123, R126) -/

/-- The number of the I²C master that serves a port. -/
def State.i2cNo (s : State) (port : Nat) : Nat := bits (s.portRec port) 19 18

/-- What is kept of an I²C master. -/
def State.master (s : State) (m : Nat) : I2cSt := tabGet {} s.i2c m

/-- Change what is kept of an I²C master. -/
def State.modMaster (s : State) (m : Nat) (g : I2cSt → I2cSt) : State := { s with i2c := tabMod {} s.i2c m g }

/-- The multiplexers of a master before a transaction with a port's module: the channel of the one it names, and 0 to every other (R123); a
module wired directly needs none. -/
def State.muxFor (s : State) (port : Nat) (mux : Tab Nat) : Tab Nat :=
  let chan := bits (s.portRec port) 25 20
  if bit (s.portRec port) 26 then mux else [(chan / 8, 2 ^ (chan % 8))]

/-- A software transaction of a port begins: its channel, and the bank and page that it names (R123, R126). -/
def State.startSoftware (s : State) (m port : Nat) : State :=
  let page := s.fget F.MAC_I2C_CMD.bank port * 256 + s.fget F.MAC_I2C_CMD.page port
  s.modMaster m fun q => { q with mux := s.muxFor port q.mux, page := tabSet 0 q.page port page }

/-- An own access of a master: the port's channel, and its bank and page restored before it (R126). -/
def State.startOwn (s : State) (m port : Nat) : State :=
  s.modMaster m fun q => { q with mux := s.muxFor port q.mux, page := tabErase q.page port }

/-- A master runs what waits for it up to the next software transaction, which it begins; `fuel` bounds the turns. DEDUCED, log entry 30. -/
def State.runMaster (s : State) (m : Nat) : Nat → State
  | 0 => s
  | fuel + 1 =>
    let rest := fun (s : State) => s.modMaster m fun q => { q with jobs := q.jobs.drop 1 }
    match (s.master m).jobs with
    | [] => s
    | .software p :: _ => s.startSoftware m p
    | .poll p a f :: _ => (((rest s).startOwn m p).pollDone p a f).runMaster m fuel
    | .step p c l :: _ => (((rest s).startOwn m p).stepDone p c l).runMaster m fuel

/-- An access joins what waits for the master of a port; with nothing before it, it runs. -/
def State.joinMaster (s : State) (port : Nat) (j : I2cJob) : State :=
  let m := s.i2cNo port
  let idle := (s.master m).jobs.isEmpty
  let s := s.modMaster m fun q => { q with jobs := q.jobs ++ [j] }
  if idle then s.runMaster m 1 else s

/-- One presence poll of a port's module, and in UP its flags (R124, R125): `ack` the acknowledgement, `modFault` a ModuleFault
reported. It takes its turn at the master (R126). A fenced master polls nothing, and its ports keep their last presence (R531). -/
def execPresencePoll (port : Nat) (ack modFault : Bool) (s : State) : Host.Outcome State Fault Refusal :=
  s.actAwake (fun s =>
    if s.flt.fenced.contains (s.i2cUnit port) ∨ s.portState port = pDisabled ∨ s.portMedia port = 0 then s
    else s.joinMaster port (.poll port ack modFault))

/-- One bring-up step completes (R125), in its turn at the master (R126): `reply` is the module's CMIS state and the applications it
advertises. -/
def execModuleBringupStep (port : Nat) (reply : Nat × List (Nat × Nat × Nat)) (s : State) : Host.Outcome State Fault Refusal :=
  s.actAwake (fun s => if (s.port port).bringup = 0 then s else s.joinMaster port (.step port reply.1 reply.2))

/-- A bring-up step exceeds `mod_to` (R125). -/
def execModuleBringupTimeout (port : Nat) (s : State) : Host.Outcome State Fault Refusal :=
  s.actAwake (fun s => 
    if (s.port port).bringup = 0 then s else s.portTo port pFault 9)

/-- A valid AN page in PRESENT starts TRAINING (R118). -/
def execAnPageRx (port : Nat) (s : State) : Host.Outcome State Fault Refusal :=
  s.act (fun s => if s.portState port = pPresent ∧ bit (s.portRec port) 13 then s.portTo port pTraining 4 else s)

/-- The link conditions are met (R118): `eee` tells whether both ends advertised EEE in AN (R149). -/
def execLinkConditionsMet (port : Nat) (eee : Bool) (s : State) : Host.Outcome State Fault Refusal :=
  s.act (fun s => 
    if s.portState port = pTraining then
      let s := s.fset F.MAC_STATUS.retries port 0 0
      let s := s.fset F.MAC_STATUS.an_done port 0 (if bit (s.portRec port) 13 then 1 else 0)
      let s := s.fset F.MAC_STATUS.fec_lock port 0 (if bits (s.portRec port) 10 8 = 0 then 0 else 1)
      let s := s.modPort port fun q => { q with eee := eee }
      s.portTo port pUp 5
    else s)

/-- `train_to` expires (R118): back to PRESENT, or to FAULT at the failure that reaches `retry_max`. DEDUCED, log entry 63. -/
def execTrainToExpiry (port : Nat) (s : State) : Host.Outcome State Fault Refusal :=
  s.act (fun s => 
    if s.portState port = pTraining then
      let n := s.fget F.MAC_STATUS.retries port + 1
      let lim := s.fget F.MAC_TIMERS.retry_max port
      let s := (s.bumpSat F.MAC_STATUS.retries port 0).macCount port 26
      if lim ≠ 0 ∧ lim ≤ n then s.portTo port pFault 7 else s.portPresent port 6
    else s)

/-- Link loss that has lasted `down_hold` (R118, R120). DEDUCED, log entry 63. -/
def execDownHoldExpiry (port : Nat) (s : State) : Host.Outcome State Fault Refusal :=
  s.act (fun s => if s.portState port = pUp ∧ (s.port port).lossOn then (s.macCount port 25).portPresent port 8 else s)

/-- No link-loss condition holds on any lane: the `down_hold` timer is cleared (R120). -/
def execLinkLossEnd (port : Nat) (s : State) : Host.Outcome State Fault Refusal :=
  s.act (fun s => s.modPort port fun q => { q with lossOn := false })

/-- A remote-fault sequence is received (R120). -/
def execRemoteFaultRx (port : Nat) (s : State) : Host.Outcome State Fault Refusal :=
  s.act (fun s => if s.portState port = pUp then s.fset F.MAC_STATUS.rem_fault port 0 1 else s)

/-- The partner enters or leaves low-power idle (R150). -/
def execPartnerLowPowerIdle (port : Nat) (enter : Bool) (s : State) : Host.Outcome State Fault Refusal :=
  s.act (fun s => 
    if enter then
      let s := if s.flag F.MAC_STATUS.lpi_rx port then s else s.macCount port 28
      s.fset F.MAC_STATUS.lpi_rx port 0 1
    else s.fset F.MAC_STATUS.lpi_rx port 0 0)

/-! ## I²C transactions (R126) -/

/-- A `go` in `MAC_I2C_CMD` (R126, R150): BUSY while the slot is busy; DENIED for a length outside 1–8, or a write to byte 26 or page
10h while the port is not DISABLED; ABSENT with no module; TIMEOUT on a fenced master; else the transaction starts. -/
def State.effI2cCmd (s : State) (p v : Nat) : State :=
  if !bit v 35 then s
  else
    let len := bits v 29 26
    let off := bits v 7 0
    let denied := len = 0 ∨ 8 < len ∨
      (bit v 30 ∧ s.portState p ≠ pDisabled ∧ ((off ≤ 26 ∧ 26 < off + len) ∨ (bits v 17 10 = 0x10 ∧ 128 < off + len)))
    if s.flag F.MAC_I2C_CMD.busy p then s.fset F.MAC_I2C_CMD.result p 0 2
    else if denied then s.fset F.MAC_I2C_CMD.result p 0 3
    else if s.flt.fenced.contains (s.i2cUnit p) then s.fset F.MAC_I2C_CMD.result p 0 4
    else if !s.flag F.MAC_MOD.present p then s.fset F.MAC_I2C_CMD.result p 0 5
    else
      let s := (s.fset F.MAC_I2C_CMD.busy p 0 1).modPort p fun q => { q with i2cOp := (if bit v 30 then 16 else 0) + len }
      s.joinMaster p (.software p)

/-- What a software transaction leaves in its port's registers: the result, and the bytes of a read. -/
def State.softwareDone (s : State) (port result : Nat) (data : List Byte) : State :=
  let s := (s.fset F.MAC_I2C_CMD.busy port 0 0).fset F.MAC_I2C_CMD.result port 0 result
  if result = 0 ∧ (s.port port).i2cOp < 16 then
    let n := (s.port port).i2cOp
    (s.fset F.MAC_I2C_DATA.lo port 0 (ofLE ((data.take n).take 4))).fset F.MAC_I2C_DATA.hi port 0 (ofLE ((data.take n).drop 4))
  else s

/-- The software transaction that a port's master runs ends with a result of R150; `data` is what a read returned. What waits behind it then
runs. -/
def execI2cTransactionDone (port result : Nat) (data : List Byte) (s : State) : Host.Outcome State Fault Refusal :=
  s.actAwake (fun s =>
    let m := s.i2cNo port
    if (s.master m).jobs.head? = some (.software port) then
      let s := (s.softwareDone port result data).modMaster m fun q => { q with jobs := q.jobs.drop 1 }
      s.runMaster m (s.master m).jobs.length
    else s)

/-- A master stops: a FENCING fault of cause 31. What waits for it does not run: a software transaction ends as TIMEOUT. -/
def State.i2cStuck (s : State) (master : Nat) : State :=
  let m := master % 4
  let jobs := (s.master m).jobs
  let s := s.modMaster m fun q => { q with jobs := [] }
  let s := jobs.foldl (fun s j => match j with | .software p => s.softwareDone p 4 [] | _ => s) s
  ({ s with flt := { s.flt with fenced := s.flt.fenced ++ [0xC03 + m] } }).fencing 31 (0xC03 + m) m 0

/-- An I²C line held low for 35 ms (R531, R653). -/
def execI2cBusStuck (master : Nat) (s : State) : Host.Outcome State Fault Refusal := s.actAwake fun s => s.i2cStuck master

/-! ## Link partners (R130) -/

/-- A PARTNER_NEW or PARTNER_GONE record (R151). DESIGN CHOICE, log entry 71. -/
def State.partnerRecord (s : State) (p slot code : Nat) : State :=
  let t := s.fget F.MAC_PARTNER.tenant p slot
  let c := tabGet 0 (s.port p).chassis slot
  s.emitBoth t clsPort
    { code := code, unit := p, stamp := s.stamp, p3 := s.portState p, p4 := slot + t * 16,
      p5 := bits c 31 0, p6 := bits c 63 32, p7 := bits c 95 64 }

/-- Free a slot in use with PARTNER_GONE. -/
def State.partnerFree (s : State) (p slot : Nat) : State :=
  if s.flag F.MAC_PARTNER.valid p slot then
    let s := s.partnerRecord p slot 0x42
    (s.wr .MAC_PARTNER p slot 0).modPort p fun q => { q with chassis := tabErase q.chassis slot }
  else s

/-- A slot silent for `partner_age` seconds is freed; 0 means never (R130, R150). -/
def execPartnerAgeExpiry (port slot : Nat) (s : State) : Host.Outcome State Fault Refusal :=
  s.act (fun s => if s.fget F.MAC_TIMERS.partner_age port = 0 then s else s.partnerFree port slot)

end Sys2Proof.Machine
end

