-- ==== Sys2Proof/Machine/Bench.lean ====
section
/-! DEFINITION. The bench (R549–R555): kinds of units with spares, the policy, and promotions from their request to BENCH_DONE. What a
promotion does to a unit's own block stands with that block. -/

namespace Sys2Proof.Machine

/-- The kind of a unit that has spares (R550): 0 slice, 1 search bank, 2 rewrite engine, 3 core position, 4 HBM pseudo-channel, 6 transmit
PLL. A core position is named by its thread 0, a PLL by the port of its macro's lowest lane (R531). -/
def unitKind (u : Nat) : Option Nat :=
  if 0x110 ≤ u ∧ u < 0x150 ∧ (u - 0x110) % 16 < 13 then some 0
  else if 0x200 ≤ u ∧ u < 0x300 ∧ (u - 0x200) % 64 < 34 then some 1
  else if 0x400 ≤ u ∧ u < 0x720 then some 2
  else if 0x800 ≤ u ∧ u < 0x890 ∧ u % 8 = 0 then some 3
  else if 0x900 ≤ u ∧ u < 0x980 then some 4
  else if u < 256 ∧ u % 8 = 0 then some 6
  else none

/-- The lowest unit of the scope of a unit's spares (R551). -/
def unitScope (k u : Nat) : Nat :=
  match k with
  | 0 => u - (u - 0x110) % 16
  | 1 => u - (u - 0x200) % 64
  | 2 => u - (u - 0x400) % 25
  | 3 => 0x800
  | 4 => u - u % 32
  | _ => u

/-- The units of a kind that are on the bench in a scope, lowest first. A macro has one spare PLL and one spare spine. -/
def State.benchUnits (s : State) (k sc : Nat) : List Nat :=
  match k with
  | 0 => ((List.range 13).filter fun n => s.fget F.SPR_SLICE.state ((sc - 0x110) / 16) n = 4).map (sc + ·)
  | 1 => ([32, 33].filter fun n => s.fget F.TCM_BANK.state (sc - 0x200 + n) = 1).map (sc + ·)
  | 2 => ((List.range 25).filter fun n => s.fget F.RWE_ENG.state ((sc - 0x400) / 25) n = 1).map (sc + ·)
  | 3 => ((List.range 18).filter fun n => s.fget F.CCX_CORE.state n = 1).map fun n => sc + 8 * n
  | 4 => ((List.range 32).filter fun n => s.fget F.HBC_PC.state ((sc - 0x900) / 32) n = 1 ∨
      s.hbm.visits.any fun v => v.stack = (sc - 0x900) / 32 ∧ v.dst = n).map (sc + ·)
  | _ => if tabGet 0 s.flt.repairLeft (k * 4096 + sc) = 0 then [sc] else []

/-- The unit is in service. -/
def State.inService (s : State) (k u : Nat) : Bool :=
  !s.flt.fenced.contains u &&
  match k with
  | 0 => !(s.fget F.SPR_SLICE.state ((u - 0x110) / 16) ((u - 0x110) % 16) = 4 || s.fget F.SPR_SLICE.state ((u - 0x110) / 16) ((u - 0x110) % 16) = 5)
  | 1 => (List.range 32).any fun b => s.fget F.TCM_BANK.phys ((u - 0x200) / 64 * 64 + b) = (u - 0x200) % 64 &&
      s.fget F.TCM_BANK.state ((u - 0x200) / 64 * 64 + b) ≠ 5
  | 2 => s.fget F.RWE_ENG.state ((u - 0x400) / 25) ((u - 0x400) % 25) = 0
  | 3 => s.fget F.CCX_CORE.state ((u - 0x800) / 8) = 0
  | 4 => s.fget F.HBC_PC.state ((u - 0x900) / 32) ((u - 0x900) % 32) = 0
  | _ => true

/-- The kind is under AUTO (R550). -/
def State.autoKind (s : State) (k : Nat) : Bool := bit (s.pget 16 s.tagNow F.FLT_POLICY.auto) k

/-- A castling is pending (R64, R71). -/
def State.castlePending (s : State) : Bool := s.flag F.IMG_STATUS.castle_pending

/-- A promotion runs in the scope. -/
def State.scopeBusy (s : State) (k sc : Nat) : Bool :=
  s.flt.promos.any fun p => p.kind = k && unitScope k p.unit = sc

/-- The unit is being replaced. -/
def State.promoting (s : State) (u : Nat) : Bool := s.flt.promos.any fun p => p.unit = u

/-- A retired bench unit (R552). -/
def State.isRetired (s : State) (u : Nat) : Bool := s.flt.retired.contains u

/-- The spare that AUTO would take: the lowest-numbered bench unit that is not retired. -/
def State.autoSpare (s : State) (k u : Nat) : Option Nat := (s.benchUnits k (unitScope k u)).find? fun b => !s.isRetired b

/-- Core clocks as ns. -/
def clocksNs (c : Nat) : Nat := c * 5 / 8

/-- A unit of a kind is FENCED (R560). -/
def State.countFenced (s : State) (k u : Nat) : State :=
  let s := s.bump F.FLT_SPARE.fenced 0 k
  { s with flt := { s.flt with fenced := if s.flt.fenced.contains u then s.flt.fenced else s.flt.fenced ++ [u] } }

/-- A unit that the bench takes back is retired; one that it does not has used its spare (R552, R560). -/
def State.settleSpare (s : State) (k u spare : Nat) : State :=
  let back := (s.benchUnits k (unitScope k u)).contains u
  let others := s.flt.retired.filter fun x => x ≠ spare ∧ x ≠ u
  let s := { s with flt := { s.flt with retired := if back then others ++ [u] else others } }
  if back then s else s.drop F.FLT_SPARE.left 0 k

/-- BENCH_OUT, once for a kind and scope (R552). -/
def State.benchEmpty (s : State) (k u : Nat) : State :=
  let sc := unitScope k u
  if (k, sc) ∈ s.flt.benchOut then s
  else
    let s := { s with flt := { s.flt with benchOut := s.flt.benchOut ++ [(k, sc)] } }
    s.emitPart 16 clsFault { code := 0x84, unit := u, stamp := s.stamp, p3 := k, p4 := sc }

/-- BENCH_OUT when no spare is left (R552). DEDUCED, log entry 60. -/
def State.benchOut (s : State) (k u : Nat) : State := if s.benchUnits k (unitScope k u) ≠ [] then s else s.benchEmpty k u

/-- The BENCH_DONE record of a promotion (R561). -/
def State.benchDone (s : State) (p : Promo) : State :=
  let ns := clocksNs (s.time.cycles - p.start)
  let r : Record := { code := 0x83, unit := p.unit, stamp := s.stamp, p3 := p.kind + p.reason * 16, p4 := p.unit + p.spare * 4096,
                      p5 := ns % 4294967296 }
  (s.emitPart 16 clsFault r).tailRecord 16 r

/-- A promotion has ended (R536, R552, R561). -/
def State.finishPromo (s : State) (u : Nat) : State :=
  match s.flt.promos.find? fun p => p.unit = u with
  | none => s
  | some p =>
    let s := { s with flt := { s.flt with promos := s.flt.promos.filter fun q => q.unit ≠ u } }
    let s := (s.settleSpare p.kind u p.spare).bump F.FLT_CNT.count 0 5
    ((s.benchDone p).endReaction u).benchOut p.kind u

/-- A drained engine without copies goes to the bench, and the spare into rotation (R382). -/
def State.engineSwap (s : State) (c e spare : Nat) : State :=
  (s.fset F.RWE_ENG.state c e 1).fset F.RWE_ENG.state c spare 0

/-- A THR_MIGRATED record; for how long the thread stood still is open (R423, R427). -/
def State.migrated (s : State) (t : Nat) : State :=
  s.nextFree.emitPart (s.thrPart t) clsFault { code := 0x65, unit := 0x800 + t, stamp := s.stamp, p3 := s.freeNat 20 }

/-- The slots of a position move in ascending order (R423): FREE and IDLE ones at once, stopped ones with their record, and the first that
runs or waits is MIGRATING until it has been copied. -/
def State.migrateFrom (s : State) (k : Nat) : List Nat → State
  | [] => s
  | n :: ns =>
    let t := 8 * k + n
    let st := s.thrState t
    if st = tFree ∨ st = tIdle then s.migrateFrom k ns
    else if st = tRunning ∨ st = tWaiting then
      (s.modThr t fun h => { h with before := st }).fset F.CCX_T_STATUS.state t 0 tMigrating
    else (s.migrated t).migrateFrom k ns

/-- The bench pseudo-channel of a stack. -/
def State.benchPc (s : State) (h : Nat) : Option Nat := (List.range 32).find? fun p => s.fget F.HBC_PC.state h p = 1

/-- Show the bench pseudo-channel in `HBC_STACK`. -/
def State.showBench (s : State) (h : Nat) : State := s.fset F.HBC_STACK.bench h 0 ((s.benchPc h).getD 63)

/-- Retraining in a stack ends: its visit is abandoned (R317), and with no bench pseudo-channel left its round too. -/
def State.abandonVisit (s : State) (h : Nat) : State :=
  { s with hbm := { s.hbm with visits := s.hbm.visits.filter fun v => v.stack ≠ h, round := tabErase s.hbm.round h } }

/-- The first step of a promotion of each kind (R554). -/
def State.beginPromo (s : State) (k u spare : Nat) : State :=
  match k with
  | 0 => s.fset F.SPR_SLICE.state ((spare - 0x110) / 16) ((spare - 0x110) % 16) 2
  | 1 => { s with tbl := { s.tbl with tcmSleep := s.tbl.tcmSleep.filter (· ≠ spare) } }.fset F.TCM_BANK.state (spare - 0x200) 0 2
  | 2 =>
    let c := (u - 0x400) / 25
    let e := (u - 0x400) % 25
    let st := tabGet {} s.engines (c * 32 + e)
    if s.fget F.RWE_ENG.state c e = 3 then s.fset F.RWE_ENG.state c ((spare - 0x400) % 25) 0
    else if engineCopies st = [] then s.engineSwap c e ((spare - 0x400) % 25)
    else { s with engines := tabMod {} s.engines (c * 32 + e) fun (g : Engine) => { g with due := max 2 g.due } }
  | 3 => s.fset F.CCX_CORE.state ((u - 0x800) / 8) 0 2
  | 4 =>
    let h := (spare - 0x900) / 32
    ((s.abandonVisit h).fset F.HBC_PC.state h ((spare - 0x900) % 32) 2).showBench h
  | _ => s

/-- A promotion starts. A repair that took the macro's one spare PLL or spine leaves none. -/
def State.startPromo (s : State) (k u spare reason : Nat) : State :=
  let s := { s with flt := { s.flt with
    promos := s.flt.promos ++ [({ kind := k, unit := u, spare := spare, reason := reason, start := s.time.cycles } : Promo)]
    deferred := s.flt.deferred.filter fun p => p.unit ≠ u } }
  let s := if k = 6 ∨ k = 7 then { s with flt := { s.flt with repairLeft := tabInsert s.flt.repairLeft (k * 4096 + u) 1 } } else s
  let s := s.beginPromo k u spare
  let s := if k = 3 ∧ reason ≠ 2 then s.migrateFrom ((u - 0x800) / 8) (List.range 8) else s
  if k = 2 ∧ (s.fget F.RWE_ENG.state ((u - 0x400) / 25) ((u - 0x400) % 25) = 1 ∨
      s.fget F.RWE_ENG.state ((u - 0x400) / 25) ((u - 0x400) % 25) = 3) then s.finishPromo u else s

/-- A promotion waits for its cause to go (R553). -/
def State.deferPromo (s : State) (k u reason : Nat) : State :=
  if s.flt.deferred.any fun p => p.unit = u then s
  else { s with flt := { s.flt with
    deferred := s.flt.deferred ++ [({ kind := k, unit := u, spare := 0, reason := reason, start := s.time.cycles } : Promo)] } }

/-- An ADVISORY that recommends a promotion, and under AUTO the promotion (R549, R552, R553). -/
def State.wearAdvisory (s : State) (cause u k d4 d5 wear : Nat) : State :=
  let f : FaultRec := { cls := 1, cause := cause, unit := u, part := 16, stamp := 0, slot := 127, d4 := d4, d5 := d5, wear := wear,
                        busy := false }
  if s.promoting u ∨ !s.autoKind k ∨ !s.inService k u then s.raise f
  else
    match s.autoSpare k u with
    | none => s.raise f
    | some b =>
      if s.castlePending ∨ s.scopeBusy k (unitScope k u) then (s.raise { f with action := 4 }).deferPromo k u 1
      else (s.raise { f with action := 1, promoted := b, busy := true, acts := [b] }).startPromo k u b 1

/-- The unit is the spare of a promotion that runs. -/
def State.spareOf (s : State) (k u : Nat) : Bool := s.flt.promos.any fun p => p.kind = k && p.spare = u

/-- A spare has failed in its own promotion, which begins anew with another spare where there is one, and otherwise stops as its kind does.
DESIGN CHOICE, log entry 71. -/
def State.spareLost (s : State) (k u : Nat) (stop : State → Promo → State) : State :=
  match s.flt.promos.find? fun p => p.kind = k ∧ p.spare = u with
  | none => s
  | some p =>
    let s := { s with flt := { s.flt with promos := s.flt.promos.filter fun q => q.unit ≠ p.unit } }
    match (s.benchUnits k (unitScope k p.unit)).find? fun b => b ≠ u && !s.isRetired b with
    | some b => s.startPromo k p.unit b p.reason
    | none => stop ((s.endReaction p.unit).benchOut k p.unit) p

/-- A FENCING fault of a unit of a kind with spares, and the promotion that follows where the policy permits (R539, R553); of a unit on the
bench, which is a spare less. DEDUCED, log entry 60. -/
def State.fencePromote (s : State) (cause u k d4 d5 : Nat) (safe : Nat := 0) (acts : List Nat := []) : State :=
  let s := s.countFenced k u
  let go := fun (s : State) (action promoted : Nat) (busy : Bool) (more : List Nat) =>
    s.fencing cause u d4 d5 16 busy safe action promoted (acts ++ more)
  if s.promoting u then go s 0 0 true []
  else if s.spareOf k u then go (s.drop F.FLT_SPARE.left 0 k) 0 0 false []
  else if (s.benchUnits k (unitScope k u)).contains u then
    let t := go (s.drop F.FLT_SPARE.left 0 k) 3 0 false []
    if s.benchUnits k (unitScope k u) = [u] then t.benchEmpty k u else t
  else
    match (if s.autoKind k then s.autoSpare k u else none) with
    | none => go s 3 0 false []
    | some b =>
      if s.castlePending ∨ s.scopeBusy k (unitScope k u) then (go s 4 0 false []).deferPromo k u 2
      else (go s 1 b true [b]).startPromo k u b 2

/-- A slow engine or core position has raised its ADVISORY within the last minute (R357, R421). -/
def State.slowToldOf (s : State) (u : Nat) : Bool :=
  match tabFind s.flt.slowTold u with
  | some t => decide (s.time.cycles < t + 60 * 1600000000)
  | none => false

/-- A slow unit's ADVISORY is raised, at most once a minute. -/
def State.tellSlow (s : State) (u : Nat) (tell : State → State) : State :=
  if s.slowToldOf u then s
  else tell { s with flt := { s.flt with slowTold := tabInsert s.flt.slowTold u s.time.cycles } }

/-! ## Repair rows (R551, R552) -/

/-- Repair rows of a memory bank after main reset, by its unit ID. -/
def rowsTotal (u : Nat) : Nat := if u < 0x300 then 16 else if u < 0x400 then 64 else if u < 0xA40 then 32 else 16

/-- Repair rows of a bank already taken. -/
def State.rowsUsed (s : State) (u : Nat) : Nat := tabGet 0 s.flt.repairLeft (5 * 4096 + u)

/-- A failing row is fenced (R560, kind 5). -/
def State.rowFenced (s : State) : State := s.bump F.FLT_SPARE.fenced 0 5

/-- Take a repair row of a bank; none is left otherwise. -/
def State.takeRow (s : State) (u : Nat) : Option State :=
  if rowsTotal u ≤ s.rowsUsed u then none
  else
    let s := { s with flt := { s.flt with repairLeft := tabInsert s.flt.repairLeft (5 * 4096 + u) (s.rowsUsed u + 1) } }
    some (s.drop F.FLT_SPARE.left 0 5)

/-- The reaction of a row repair ends: its fault's reaction ends, and when the bank's last repair row went with it, cause 28 is raised and
BENCH_OUT written once (R531, R552). -/
def State.rowsDone (s : State) (u : Nat) : State :=
  let s := s.endReaction u
  if rowsTotal u ≤ s.rowsUsed u ∧ (5, u) ∉ s.flt.benchOut then
    let s := { s with flt := { s.flt with benchOut := s.flt.benchOut ++ [(5, u)] } }
    (s.advisory 28 u u 0).emitPart 16 clsFault { code := 0x84, unit := u, stamp := s.stamp, p3 := 5, p4 := u }
  else s

end Sys2Proof.Machine
end

