-- ==== Sys2Proof/Machine/Units.lean ====
section
/-! DEFINITION. Unit IDs (R14) and the order of units (R15). -/

namespace Sys2Proof.Machine

/-- Unit `u` lies in `groups` blocks of `count` numbers, `stride` apart from `base` on. -/
def inBlocks (base groups stride count u : Nat) : Bool :=
  decide (base ≤ u ∧ u < base + groups * stride ∧ (u - base) % stride < count)

/-- A unit ID of R14's table: ports and cross lanes, slices, search banks, table memory banks, rewrite engines, control threads, pseudo-channels,
buffer memory macros with scheduler banks and switch core planes, DMA channels, cipher lanes, and the single units. -/
def unitAssigned (u : Nat) : Bool :=
  decide (u < 0x104) || inBlocks 0x110 4 16 13 u || inBlocks 0x200 4 64 34 u || inBlocks 0x300 4 64 50 u ||
    inBlocks 0x400 32 25 25 u || inBlocks 0x800 18 8 8 u || inBlocks 0x900 4 32 32 u || inBlocks 0xA00 1 128 128 u ||
    inBlocks 0xB00 1 80 80 u || inBlocks 0xB80 1 8 8 u || inBlocks 0xC00 1 7 7 u || inBlocks 0xC50 1 8 8 u ||
    [0xC10, 0xC20, 0xC30, 0xC40, 0xF00, 0xFFF].contains u

/-- Put `x` before the first element of a list whose unit is not lower. -/
def insertUnit {α : Type} (unit : α → Nat) (x : α) : List α → List α
  | [] => [x]
  | y :: l => if unit x ≤ unit y then x :: y :: l else y :: insertUnit unit x l

/-- Errors of one core clock in the order in which they are taken: the lowest unit first (R15, R536). -/
def byUnit {α : Type} (unit : α → Nat) : List α → List α
  | [] => []
  | x :: l => insertUnit unit x (byUnit unit l)

end Sys2Proof.Machine
end

