-- ==== Sys2Proof/Machine/Spray.lean ====
section
/-! DEFINITION. Slice groups: hand-over, dispatch, slice states, the reorder stage, late jobs and slow slices (R152–R166). -/

namespace Sys2Proof.Machine

/-! ## Groups and slices -/

/-- A group beside its registers. -/
def State.group (s : State) (g : Nat) : Group := tabGet {} s.groups g

/-- Change a group beside its registers. -/
def State.modGroup (s : State) (g : Nat) (f : Group → Group) : State := { s with groups := tabMod {} s.groups g f }

/-- A slice beside `SPR_SLICE`. -/
def State.slice (s : State) (g n : Nat) : SliceSt := tabGet {} s.slices (16 * g + n)

/-- Change a slice beside `SPR_SLICE`. -/
def State.modSlice (s : State) (g n : Nat) (f : SliceSt → SliceSt) : State :=
  { s with slices := tabMod {} s.slices (16 * g + n) f }

/-- The unit of a slice (R14). -/
def sliceUnit (g n : Nat) : Nat := 0x110 + 16 * g + n

/-- The state of a slice by the codes of R155. -/
def State.sliceState (s : State) (g n : Nat) : Nat := s.fget F.SPR_SLICE.state g n

/-- A slice of a group that the device has (R11). -/
def sliceIs (g n : Nat) : Bool := decide (g < 4 ∧ n < 13)

/-- The codes of R155. -/
def slActive : Nat := 0
def slAsleep : Nat := 1
def slWaking : Nat := 2
def slDraining : Nat := 3
def slBench : Nat := 4
def slFenced : Nat := 5

/-- Change a slice's state; its `credits` field shows the free credits of a running slice. -/
def State.setSlice (s : State) (g n st : Nat) : State :=
  let used := (s.slice g n).fifoE.length + (s.slice g n).fifoG.length
  (s.fset F.SPR_SLICE.state g n st).fset F.SPR_SLICE.credits g n (if st = slActive ∨ st = slDraining then 64 - used else 0)

/-- Change a slice's FIFOs and pipeline, and show its credits. -/
def State.modJobs (s : State) (g n : Nat) (f : SliceSt → SliceSt) : State :=
  let s := s.modSlice g n f
  s.setSlice g n (s.sliceState g n)

/-- A counter of a group (R186). -/
def State.sprCount (s : State) (g i : Nat) (n : Nat := 1) : State := s.bump F.SPR_CNT.count g i n

/-- The slices of a group in a state. -/
def State.slicesIn (s : State) (g st : Nat) : List Nat := (List.range 13).filter fun n => s.sliceState g n = st

/-- Show the group's status registers (R186). -/
def State.showGroup (s : State) (g : Nat) : State :=
  let q := s.group g
  let s := s.fset F.SPR_STATUS.awake g 0 (s.slicesIn g slActive).length
  let s := (s.fset F.SPR_STATUS.wait_gen g 0 q.waitG.length).fset F.SPR_STATUS.wait_exp g 0 q.waitE.length
  let s := s.fset F.SPR_REORDER.held g 0 q.store.length
  s.fset F.SPR_REORDER.peak g 0 (max (s.fget F.SPR_REORDER.peak g) q.store.length)

/-! ## Waking (R155, R157, R158) -/

/-- Slices that are ACTIVE or WAKING. -/
def State.upSlices (s : State) (g : Nat) : Nat := (s.slicesIn g slActive).length + (s.slicesIn g slWaking).length

/-- The most slices that may be awake: 12 less the FENCED ones (R157). -/
def State.maxSlices (s : State) (g : Nat) : Nat := 12 - (s.slicesIn g slFenced).length

/-- Wake the lowest-numbered ASLEEP slice of a group. -/
def State.wakeOne (s : State) (g : Nat) : State :=
  match s.slicesIn g slAsleep with
  | n :: _ =>
    if s.maxSlices g ≤ s.upSlices g then s else (s.setSlice g n slWaking).sprCount g 7
  | [] => s

/-- Free general credits of the group's ACTIVE slices (R158). -/
def State.freeGeneral (s : State) (g : Nat) : Nat := ((s.slicesIn g slActive).map fun n => 60 - (s.slice g n).fifoG.length).sum

/-- The credits are below `wake_mark`. -/
def State.belowMark (s : State) (g : Nat) : Bool := decide (s.freeGeneral g < s.fget F.SPR_CTL.wake_mark g)

/-- Wake one slice because the credits are below the mark. -/
def State.wakeForMark (s : State) (g : Nat) : State := (s.wakeOne g).modGroup g fun q => { q with wokeAt := some s.time.cycles }

/-- Wake one slice at once while the credits are below the mark, no sooner than 250 ns after the last such wake (R158). -/
def State.wakeMark (s : State) (g : Nat) : State :=
  let soon := match (s.group g).wokeAt with
    | some t => decide (s.time.cycles < t + 400)
    | none => false
  if s.belowMark g && !soon then s.wakeForMark g else s

/-- 250 ns later another slice is woken while the credits are below the mark (R158). -/
def execWakeMarkRetry (group : Nat) (s : State) : Host.Outcome State Fault Refusal :=
  s.act (fun s => if s.belowMark group then (s.wakeForMark group).showGroup group else s)

/-- The always-awake minimum (R160, R186). -/
def State.minAwake (s : State) (g : Nat) : Nat := max 2 (min 12 (s.fget F.SPR_CTL.min_awake g))

/-- The target of R157 for a number of jobs accepted in a microsecond. DESIGN CHOICE, log entry 71. -/
def State.sliceTarget (s : State) (g jobs : Nat) : Nat :=
  let util := max 50 (min 100 (s.fget F.SPR_CTL.util g))
  max (s.minAwake g) ((jobs * 100 + 1600 * util - 1) / (1600 * util) + s.fget F.SPR_CTL.headroom g)

/-- Wake slices until ACTIVE and WAKING ones together equal the target. -/
def State.wakeTo (s : State) (g target : Nat) : Nat → State
  | 0 => s
  | n + 1 => if s.upSlices g < target then (s.wakeOne g).wakeTo g target n else s

/-- A slice begins to drain (R155); one that holds no job is empty at once. -/
def State.drainSlice (s : State) (g n dest : Nat) : State :=
  (s.modSlice g n fun q => { q with drainTo := dest }).setSlice g n slDraining

/-- Once per microsecond the sprayer computes its target and wakes slices (R157), and drains the highest-numbered ACTIVE slice after
`sleep_idle` µs above the target (R159). DESIGN CHOICE, log entry 71. -/
def execSprayerTarget (group : Nat) (s : State) : Host.Outcome State Fault Refusal :=
  s.act (fun s =>
    let g := group
    let target := s.sliceTarget g (s.group g).accepted
    let s := (s.fset F.SPR_STATUS.target g 0 target).modGroup g fun q => { q with accepted := 0 }
    let s := s.wakeTo g target 12
    let idle := s.fget F.SPR_CTL.sleep_idle g
    let above := decide (target < (s.slicesIn g slActive).length)
    let s := s.modGroup g fun q => { q with overSince := if above then some (q.overSince.getD s.time.cycles) else none }
    let due := match (s.group g).overSince with
      | some t => decide (idle ≠ 0 ∧ t + idle * clocksPerUs ≤ s.time.cycles)
      | none => false
    let s := match (s.slicesIn g slActive).getLast? with
      | some n => if due ∧ target < s.upSlices g ∧ ¬ s.promoting (sliceUnit g n) then (s.drainSlice g n slAsleep).sprCount g 8 else s
      | none => s
    s.showGroup g)

/-- A WAKING slice is ready (R155). One woken from the bench sends the slice it replaces to DRAINING; with a fenced one the promotion
ends (R555). -/
def execSliceReady (group slice : Nat) (s : State) : Host.Outcome State Fault Refusal :=
  s.act (fun s =>
    if !sliceIs group slice ∨ s.sliceState group slice ≠ slWaking then s
    else
      let s := s.setSlice group slice slActive
      let s := match s.flt.promos.find? fun p => p.spare = sliceUnit group slice with
        | some p =>
          let old := (p.unit - 0x110) % 16
          if s.sliceState group old = slFenced then s.finishPromo p.unit
          else if s.sliceState group old = slActive ∨ s.sliceState group old = slDraining then s.drainSlice group old slBench
          else (s.setSlice group old slBench).finishPromo p.unit
        | none => s
      s.showGroup group)

/-- A DRAINING slice is empty: to ASLEEP, or to BENCH where it was replaced (R155, R555). -/
def execSliceDrained (group slice : Nat) (s : State) : Host.Outcome State Fault Refusal :=
  s.act (fun s =>
    let q := s.slice group slice
    if !sliceIs group slice ∨ s.sliceState group slice ≠ slDraining ∨ q.fifoE ≠ [] ∨ q.fifoG ≠ [] ∨ q.pipe ≠ [] then s
    else
      let dest := if q.drainTo = slBench then slBench else slAsleep
      let s := s.setSlice group slice dest
      (if dest = slBench then s.finishPromo (sliceUnit group slice) else s).showGroup group)

/-! ## Hand-over (R161, R162, R184) -/

/-- The key of a sequence: ingress port and kind, each injection port a port of its own. -/
def seqKey (f : Frame) : Nat := (if f.injected.isSome then 256 + f.group else f.port) * 2 + (if f.express then 1 else 0)

/-- Jobs of a kind in a group's store. -/
def State.storeOf (s : State) (g : Nat) (express : Bool) : List Nat :=
  (s.group g).store.filter fun id => match s.frame id with | some f => f.express == express | none => false

/-- The first 256 bytes of a frame, or the whole of it, are held (R18, R146): its job is handed to the sprayer: an entry of the reorder store and a sequence number, or the refusal of R161. -/
def execJobHandover (id : Nat) (s : State) : Host.Outcome State Fault Refusal :=
  s.act (fun s =>
    match s.frame id with
    | none => s
    | some f =>
      let g := f.group
      let waits := (s.group g).inject.contains id
      if f.hand.isSome ∨ f.failed ∨ ¬ (waits ∨ (f.alloc ∧ (256 ≤ f.len ∨ f.ended))) then s
      else
        let s := s.modGroup g fun q => { q with inject := q.inject.filter (· ≠ id) }
        let room := if f.express then 1024 else 15360
        if room ≤ (s.storeOf g f.express).length then
          let s := s.sprCount g 6
          if f.injected.isSome then s.preDrop id f else (s.bpmCount f.owner 2).rxFail id f 11
        else
          let k := seqKey f
          let n := tabGet 0 s.seqs k
          let s := { s with seqs := tabSet 0 s.seqs k ((n + 1) % 16384) }
          let s := s.modFrame id fun f => { f with seq := n, hand := some s.time.cycles, tHand := some s.time.now }
          let s := s.modGroup g fun q => { q with
            store := q.store ++ [id], accepted := q.accepted + 1, jobsMs := q.jobsMs + 1
            waitE := if f.express then q.waitE ++ [id] else q.waitE
            waitG := if f.express then q.waitG else q.waitG ++ [id] }
          let s := s.sprCount g (if f.express then 0 else 1)
          (if f.injected.isSome then s.sprCount g 9 else s).showGroup g)

/-! ## Dispatch (R153, R154) -/

/-- The slices of a rotation: ACTIVE ones, for express jobs those that are not slow (R154). -/
def State.rotation (s : State) (g : Nat) (express : Bool) : List Nat :=
  let all := s.slicesIn g slActive
  if express then all.filter fun n => !s.flag F.SPR_SLICE.slow g n else all

/-- A slice has a credit of the kind (R152). -/
def State.hasCredit (s : State) (g n : Nat) (express : Bool) : Bool :=
  if express then decide ((s.slice g n).fifoE.length < 4) else decide ((s.slice g n).fifoG.length < 60)

/-- The next of a list of numbers after the last one, ascending and wrapping. -/
def nextAfter (last : Nat) (l : List Nat) : Option Nat :=
  match l.find? fun n => last < n with
  | some n => some n
  | none => l.head?

/-- The slice that the next job of a kind goes to, and whether the general rotation served an express job. DEDUCED, log entry 37. -/
def State.pickSlice (s : State) (g : Nat) (express : Bool) : Option (Nat × Bool) :=
  let fast := s.rotation g true
  let onSlow := express && fast.isEmpty
  let from_ := if express && !onSlow then fast else s.rotation g false
  let last := if express && !onSlow then (s.group g).rotE else (s.group g).rotG
  (nextAfter last (from_.filter fun n => s.hasCredit g n express)).map fun n => (n, onSlow)

/-- Dispatch the oldest waiting job of a kind to a slice, where one has a credit. -/
def State.dispatchOne (s : State) (g : Nat) (express : Bool) : Option State :=
  let q := s.group g
  match (if express then q.waitE else q.waitG) with
  | [] => none
  | id :: rest =>
    match s.pickSlice g express with
    | none => none
    | some (n, onSlow) =>
      let s := s.modGroup g fun q => { q with
        waitE := if express then rest else q.waitE, waitG := if express then q.waitG else rest
        rotE := if express && !onSlow then n else q.rotE, rotG := if express && !onSlow then q.rotG else n }
      let s := s.modFrame id fun f => { f with slice := some n }
      let s := s.modJobs g n fun q => if express then { q with fifoE := q.fifoE ++ [id] } else { q with fifoG := q.fifoG ++ [id] }
      some (if onSlow then s.sprCount g 10 else s)

/-- Dispatch up to a number of jobs: express ones first, then general ones. -/
def State.dispatch (s : State) (g : Nat) : Nat → State
  | 0 => s
  | n + 1 =>
    match s.dispatchOne g true with
    | some t => t.dispatch g n
    | none =>
      match s.dispatchOne g false with
      | some t => t.dispatch g n
      | none => s

/-- One core clock of a sprayer: up to 12 jobs (R153), and the wake mark (R158). -/
def execJobDispatch (group : Nat) (s : State) : Host.Outcome State Fault Refusal :=
  s.act (fun s => ((s.dispatch group 12).wakeMark group).showGroup group)

/-- A slice's pipeline takes a job, from the express entries first; the credit returns (R152). -/
def execSliceTake (group slice : Nat) (s : State) : Host.Outcome State Fault Refusal :=
  s.act (fun s =>
    let st := s.sliceState group slice
    if !sliceIs group slice ∨ (st ≠ slActive ∧ st ≠ slDraining) then s
    else
      let q := s.slice group slice
      let take := fun (s : State) (id : Nat) =>
        s.modFrame id fun f => { f with took := some s.time.cycles, tTake := some s.time.now }
      match q.fifoE, q.fifoG with
      | id :: rest, _ => take (s.modJobs group slice fun q => { q with fifoE := rest, pipe := q.pipe ++ [id] }) id
      | [], id :: rest => take (s.modJobs group slice fun q => { q with fifoG := rest, pipe := q.pipe ++ [id] }) id
      | [], [] => s)

/-! ## Slow slices (R165, R166) -/

/-- A slice's slowness count rises by 1; above `thresh` the ADVISORY of the window is raised, with the promotion it recommends under
AUTO (R166). -/
def State.slowCount (s : State) (g n : Nat) : State :=
  let s := s.bumpSat F.SPR_SLICE.slowness g n
  let c := s.fget F.SPR_SLICE.slowness g n
  if s.fget F.SPR_SLOW.thresh g < c ∧ ¬ (s.slice g n).advised then
    (s.modSlice g n fun q => { q with advised := true }).wearAdvisory 7 (sliceUnit g n) 0 c (s.fget F.SPR_SLICE.freq g n)
      (s.fget F.SPR_SLICE.freq g n)
  else s

/-- A job's pipeline time exceeds `mark`: the slice is slow, and the microsecond counts once (R158, R165, R166). DEDUCED, log entry 37. -/
def State.slowJob (s : State) (g n : Nat) : State :=
  let was := s.flag F.SPR_SLICE.slow g n
  let s := (s.fset F.SPR_SLICE.slow g n 1).modSlice g n fun q => { q with marked := true }
  let us := s.time.now / (1000 * nsUnits)
  let s := if (s.slice g n).lastUs = some us then s
    else (s.modSlice g n fun q => { q with lastUs := some us }).slowCount g n
  if !was ∧ s.sliceState g n = slActive ∧ (s.rotation g true).length < s.minAwake g then s.wakeOne g else s

/-- The end of a window (R165, R166): the count restarts; `slow` clears when no job exceeded `mark`. -/
def execSlownessWindowEnd (group slice : Nat) (s : State) : Host.Outcome State Fault Refusal :=
  s.act (fun s =>
    if !sliceIs group slice then s
    else
      let s := if (s.slice group slice).marked then s else s.fset F.SPR_SLICE.slow group slice 0
      (s.fset F.SPR_SLICE.slowness group slice 0).modSlice group slice fun q => { q with marked := false, advised := false })

/-! ## Late jobs (R164) -/

/-- Remove a job from the lists of its group; the result of one in a pipeline is still to come. -/
def State.unstore (s : State) (g id : Nat) : State :=
  s.modGroup g fun q => { q with store := q.store.filter (· ≠ id), waitE := q.waitE.filter (· ≠ id), waitG := q.waitG.filter (· ≠ id) }

/-- The slice holding a job. -/
def State.holder (s : State) (g id : Nat) : Option Nat :=
  (List.range 13).find? fun n =>
    let q := s.slice g n
    q.fifoE.contains id || q.fifoG.contains id || q.pipe.contains id

/-- A job is declared late: its frame is dropped as LATE against the port owner, its entry freed (R164). -/
def State.lateJob (s : State) (id : Nat) : State :=
  match s.frame id with
  | none => s
  | some f =>
    let g := f.group
    if !(s.group g).store.contains id ∨ f.result.isSome then s
    else
      let held := s.holder g id
      let s := (s.unstore g id).sprCount g (if f.express then 2 else 3)
      let s := if held.isNone then s.sprCount g 4 else s
      let s := if f.failed then s
        else
          let s := if f.injected.isSome then s else s.macCount f.port 14
          (s.clearRx id f.port).preDrop id f
      let s := if held.isNone then s.frameGone id else s
      s.showGroup g

/-- A job's release limit expires (R163, R164): its slice's slowness count rises where a slice holds it. -/
def execJobLate (id : Nat) (s : State) : Host.Outcome State Fault Refusal :=
  s.act (fun s =>
    match s.frame id with
    | none => s
    | some f =>
      if !(s.group f.group).store.contains id ∨ f.result.isSome then s
      else
        let held := s.holder f.group id
        let s := s.lateJob id
        match held with
        | some n => s.slowCount f.group n
        | none => s)

/-- A slice is fenced (R155, R164): its outstanding jobs are declared late at this instant, and their results never come. -/
def State.fenceSlice (s : State) (g n : Nat) : State :=
  let q := s.slice g n
  let jobs := q.fifoE ++ q.fifoG ++ q.pipe
  let s := jobs.foldl (fun s id => s.lateJob id) s
  let s := jobs.foldl (fun s id => s.frameGone id) s
  let s := s.modSlice g n fun _ => {}
  let s := s.setSlice g n slFenced
  let s := if s.promoting (sliceUnit g n) ∧ (s.flt.promos.any fun p => p.unit = sliceUnit g n ∧ s.sliceState g ((p.spare - 0x110) % 16) = slActive)
    then s.finishPromo (sliceUnit g n) else s
  s.showGroup g

/-! ## Release (R162) -/

/-- A result is back and every earlier job of its port and sequence has left the store. -/
def State.releasable (s : State) (g id : Nat) : Bool :=
  match s.frame id with
  | some f =>
    f.result.isSome &&
      ((s.group g).store.takeWhile (· ≠ id)).all fun e => match s.frame e with
        | some h => decide (seqKey h ≠ seqKey f)
        | none => true
  | none => false

/-- Release up to `n` results in order of a list of jobs; those not releasable are passed over. -/
def State.releaseSome (s : State) (g : Nat) : List Nat → Nat → State × Nat
  | [], n => (s, n)
  | _, 0 => (s, 0)
  | id :: t, n + 1 =>
    if s.releasable g id then
      let s := s.modGroup g fun q => { q with store := q.store.filter (· ≠ id), released := q.released ++ [id] }
      let s := s.modFrame id fun f => { f with tRelease := some s.time.now }
      s.releaseSome g t n
    else s.releaseSome g t (n + 1)

/-- One core clock of the reorder stage: up to 12 results, express ones first; none while the copy FIFO is full (R162, R284). -/
def execReorderRelease (group : Nat) (s : State) : Host.Outcome State Fault Refusal :=
  s.act (fun s =>
    if 256 ≤ (s.group group).copyFifo.length then s
    else
      let (s, n) := s.releaseSome group (s.storeOf group true) 12
      ((s.releaseSome group (s.storeOf group false) n).1).showGroup group)

end Sys2Proof.Machine
end

