-- ==== Sys2Proof/Machine/TwinLink.lean ====
section
/-! DEFINITION. Handing a message to the cross link (R594, R595), for the blocks that feed it. -/

namespace Sys2Proof.Machine

/-- The cross link is UP and carries traffic (R593, R596). -/
def State.linkUp (s : State) : Bool := s.flag F.TWN_CFG.en && s.fget F.TWN_STATUS.link = 2

/-- A counter of the twin link (R616). -/
def State.twnCount (s : State) (i : Nat) (n : Nat := 1) : State := s.bump F.TWN_CNT.count 0 i n

/-- The cells of 64 bytes that a message takes. -/
def cellsOf : TwinMsg → Nat
  | .copy _ _ bs => max 1 ((bs.length + 63) / 64)
  | .dmaWrite _ _ bs => max 1 ((bs.length + 63) / 64)
  | .dmaData bs => max 1 ((bs.length + 63) / 64)
  | _ => 1

/-- Keep at most 4,096 cells: the oldest have then been acknowledged. DEDUCED, log entry 61. -/
def trimCells (l : List TwinCell) : List TwinCell :=
  (l.reverse.foldl (fun (a : List TwinCell × Nat) e =>
    if a.2 + e.cells ≤ 4096 then (e :: a.1, a.2 + e.cells) else (a.1, 4097)) ([], 0)).1

/-- Hand a message to the cross link while it is UP, or in MISMATCH when the message is control. DEDUCED, log entry 61. -/
def State.twinSend (s : State) (m : TwinMsg) : State :=
  { s with twin := { s.twin with
    out := trimCells (s.twin.out ++ [({ seq := s.twin.seq, cells := cellsOf m, msg := m } : TwinCell)])
    seq := (s.twin.seq + cellsOf m) % 4096 } }

/-! ## Ownership (R601, R605, R618) -/

/-- States of R601. -/
def dhFenced : Nat := 0
def dhOwn : Nat := 1
def dhPeer : Nat := 2

/-- The device is black (R591). -/
def State.isBlack (s : State) : Bool := s.flag F.GLB_STRAP.pair_id

/-- A pair is in another state from now on, with a TWN_OWNER record of a cause. -/
def State.dhTo (s : State) (n new cause : Nat) : State :=
  let old := s.fget F.TWN_DH.state 0 n
  (s.fset F.TWN_DH.state 0 n new).emitBoth (s.portHolder n) clsPort
    { code := 0x8C, unit := n, stamp := s.stamp, p3 := new + old * 4 + cause * 16,
      p4 := s.fget F.TWN_DH.peer_port 0 n + (if s.isBlack then 256 else 0) }

/-- A request of `TWN_MOVE` completes. -/
def State.moveDone (s : State) (code : Nat) : State :=
  let s := { s with twin := { s.twin with moving := none } }
  (s.fset F.TWN_MOVE.done 0 0 1).fset F.TWN_MOVE.result 0 0 code

/-- The owner that hands a pair over goes to PEER once nothing is on its wire, and sends its handover message (R605). -/
def State.movePair (s : State) (port : Nat) : State :=
  if s.twin.moving = some (port + 256) ∧ s.fget F.TWN_DH.state 0 port = dhOwn then
    (((s.dhTo port dhPeer 3).twinSend (.handover (s.fget F.TWN_DH.peer_port 0 port))).twnCount 4).moveDone 0
  else s

end Sys2Proof.Machine
end

