-- ==== Sys2Proof/Machine/Tables.lean ====
section
/-! DEFINITION. The table pool, carving, lookups, the table engine, learning, ageing and table repair (R189–R231). -/

namespace Sys2Proof.Machine

/-! ## CRC-32C (R45) -/

/-- One bit of the reflected CRC with polynomial 0x1EDC6F41. -/
def crcBit (c : BitVec 32) : BitVec 32 := if c.getLsbD 0 then (c >>> 1) ^^^ 0x82F63B78#32 else c >>> 1

/-- One byte. -/
def crcByte (c : BitVec 32) (b : Byte) : BitVec 32 :=
  let c := c ^^^ b.setWidth 32
  crcBit (crcBit (crcBit (crcBit (crcBit (crcBit (crcBit (crcBit c)))))))

/-- CRC-32C of bytes (R45). -/
def crc32c (bs : List Byte) : Nat := ((bs.foldl crcByte 0xFFFFFFFF#32) ^^^ 0xFFFFFFFF#32).toNat

/-! ## Carving (R192–R196) -/

/-- The scope's bank under a plane tag holds a CARVE section. -/
def State.hasCarve (s : State) (tag p : Nat) : Bool := (s.plane p (s.bankOf p tag)).present.contains 4

/-- Word `w` of a scope's CARVE section. -/
def State.carveWord (s : State) (tag p w : Nat) : Nat := s.pword p tag 4 w

/-- Blocks of a region in a PARTITION record: 0 exact-match, 1 longest-prefix, 2 action, 3 next-hop, 4 multicast-list (R100). -/
def regionBlocks (w21 w22 k : Nat) : Nat :=
  match k with
  | 0 => bits w21 10 0
  | 1 => bits w21 21 11
  | 2 => bits w22 10 0
  | 3 => bits w22 21 11
  | _ => bits w22 32 22

/-- A partition's region under a plane tag: its first unit and its units; a partition without CARVE has none. -/
def State.region (s : State) (tag p k : Nat) : Nat × Nat :=
  if s.hasCarve tag p ∧ (p = 16 ∨ bit (s.partWordT tag p 0) 0) then
    (1024 * s.carveWord tag p k, 1024 * regionBlocks (s.partWordT tag p 21) (s.partWordT tag p 22) k)
  else (0, 0)

/-- The CARVE profile word of a profile (R193). -/
def State.carveProfile (s : State) (tag p prof : Nat) : Nat :=
  let w := s.carveWord tag p 7
  if bits w 7 0 ≤ prof ∧ prof < bits w 7 0 + bits w 16 8 then s.carveWord tag p (16 + prof) else 0

/-! ## Units -/

/-- Word `w` of unit `u`. -/
def unitW (v : Tab Nat) (u w : Nat) : Nat := tabGet 0 v (4 * u + w)

/-- The table memory bank of a unit (R189). -/
def unitBank (u : Nat) : Nat := min 49 (u / 32768)

/-- The unit ID of a bank of a replica. -/
def tblBankUnit (g bank : Nat) : Nat := 0x300 + 64 * g + bank

/-- A unit reads as invalid in a replica: an uncorrectable error, a row being repaired, or a row withdrawn (R225–R227). -/
def State.unitBad (s : State) (g u : Nat) : Bool := s.tbl.bad.contains (g, u) || s.tbl.gone.contains u

/-- `n` units from `u` read in a replica. -/
def State.unitsOk (s : State) (g u n : Nat) : Bool := (List.range n).all fun i => !s.unitBad g (u + i)

/-! ## Exact-match entries (R197–R200) -/

/-- Units of a width code. -/
def widthUnits (c : Nat) : Nat := match c with | 1 => 1 | 2 => 2 | _ => 4

/-- An entry as it stands in a bucket: its offset, its units, its control word. -/
structure EmEntry where
  off : Nat
  w : Nat
  ctl : Nat
  deriving DecidableEq, Repr

/-- A control word of an entry of a width code that is in use. -/
def ctlOf (ctl code : Nat) : Bool := bit ctl 35 && bits ctl 33 32 = code

/-- The entries of a pair of units: one two-unit entry, or up to two one-unit ones. -/
def pairEntries (v : Tab Nat) (b i : Nat) : List EmEntry :=
  let c0 := unitW v (b + i) 3
  let c1 := unitW v (b + i + 1) 3
  if ctlOf c1 2 then [⟨i, 2, c1⟩]
  else (if ctlOf c0 1 then [⟨i, 1, c0⟩] else []) ++ (if ctlOf c1 1 then [⟨i + 1, 1, c1⟩] else [])

/-- The entries in use in the bucket whose first unit is `b`. -/
def bucketEntries (v : Tab Nat) (b : Nat) : List EmEntry :=
  let c3 := unitW v (b + 3) 3
  if ctlOf c3 3 then [⟨0, 4, c3⟩] else pairEntries v b 0 ++ pairEntries v b 2

/-- The stored key of an entry of `w` units at unit `u`: its words but the control word, the first most significant. -/
def entryKey (v : Tab Nat) (u w : Nat) : Nat :=
  (List.range (4 * w - 1)).foldl (fun a k => a * 2 ^ 36 + unitW v (u + k / 4) (k % 4)) 0

/-- The bytes hashed for a stored key of width code `c`: 14, 32 or 68 (R199). -/
def keyBytes (c key : Nat) : List Byte := bytesBE (match c with | 1 => 14 | 2 => 32 | _ => 68) (key * 16)

/-- The bucket of a key in way `i`: the first unit of it, in a region of `size` units from `base` (R199). -/
def bucketOf (base size seed c key i : Nat) : Nat :=
  let sd := if i = 0 then seed else 2 ^ 32 - 1 - seed
  let h := crc32c (bytesLE 4 sd ++ keyBytes c key)
  base + i * (size / 2) + 4 * ((h * (size / 8)) / 2 ^ 32)

/-- The two buckets of a key. -/
def keyBuckets (base size seed c key : Nat) : List Nat :=
  [bucketOf base size seed c key 0, bucketOf base size seed c key 1]

/-- The entry with a key in one bucket. -/
def findIn (v : Tab Nat) (c key b : Nat) : Option (Nat × EmEntry) :=
  ((bucketEntries v b).find? fun e => e.w = widthUnits c ∧ entryKey v (b + e.off) e.w = key).map fun e => (b + e.off, e)

/-- The entry with a key, in a region of units and contents. -/
def findEntry (v : Tab Nat) (base size seed c key : Nat) : Option (Nat × EmEntry) :=
  if size = 0 then none
  else match findIn v c key (bucketOf base size seed c key 0) with
    | some r => some r
    | none => findIn v c key (bucketOf base size seed c key 1)

/-- An exact-match lookup of a stored key in a replica (R200): the first unit and the entry. An entry that covers an unreadable unit
does not match (R225). -/
def State.emLookup (s : State) (g tag p c key : Nat) : Option (Nat × EmEntry) :=
  let (base, size) := s.region tag p 0
  match findEntry s.tbl.units base size (bits (s.carveWord tag p 5) 31 0) c key with
  | some (u, e) => if s.unitsOk g u e.w then some (u, e) else none
  | none => none

/-- A read of `n` units from `u` meets an uncorrectable one in a replica (R225). -/
def State.meetsBad (s : State) (g u n : Nat) : Bool := (List.range n).any fun i => s.tbl.bad.contains (g, u + i)

/-- A lookup meets an uncorrectable unit in its buckets (R225). -/
def State.emMeetsBad (s : State) (g tag p c key : Nat) : Bool :=
  let (base, size) := s.region tag p 0
  size ≠ 0 && (keyBuckets base size (bits (s.carveWord tag p 5) 31 0) c key).any fun b => s.meetsBad g b 4

/-! ## Longest prefixes (R202, R203) -/

/-- Units of a prefix. -/
def prefixUnits (v6 : Bool) : Nat := if v6 then 4 else 1

/-- Bits of an address of a family. -/
def familyBits (v6 : Bool) : Nat := if v6 then 128 else 32

/-- An address with the bits beyond `plen` as zero. -/
def maskAddr (v6 : Bool) (plen a : Nat) : Nat := a / 2 ^ (familyBits v6 - plen) * 2 ^ (familyBits v6 - plen)

/-- The prefixes of a partition's region that match an address. -/
def State.lpmMatches (s : State) (tag p : Nat) (v6 : Bool) (vrf addr : Nat) : List Prefix :=
  let (base, size) := s.region tag p 1
  s.tbl.prefixes.filter fun e =>
    e.part = p ∧ e.v6 = v6 ∧ e.vrf = vrf ∧ maskAddr v6 e.plen addr = e.addr ∧ e.units.all fun u => base ≤ u ∧ u < base + size

/-- The valid entry whose prefix matches over the greatest length, in a replica; one in an unreadable unit does not match (R203, R225). -/
def State.lpmLookup (s : State) (g tag p : Nat) (v6 : Bool) (vrf addr : Nat) : Option Prefix :=
  ((s.lpmMatches tag p v6 vrf addr).filter fun e => e.units.all fun u => !s.unitBad g u).foldl (fun best e =>
    match best with
    | some b => if b.plen < e.plen then some e else best
    | none => some e) none

/-! ## Counters and errors -/

/-- A counter of a partition's table bank (R230). -/
def State.tblCount (s : State) (p i : Nat) (n : Nat := 1) : State := s.bump F.TBL_CNT.count p i n

/-- Note an error of a unit of a replica in `TBL_ECC` and `TBL_ECC_LAST`. -/
def State.noteEcc (s : State) (g u : Nat) (uncorr : Bool) : State :=
  let s := if uncorr then s.bumpSat F.TBL_ECC.uncorr 0 0 else s.bumpSat F.TBL_ECC.corr 0 0
  s.wr .TBL_ECC_LAST 0 0 (BitVec.ofNat 72 (tblBankUnit g (unitBank u) * 2 ^ 24 + (if uncorr then 2 ^ 21 else 0) + u))

/-- A corrected table read (R225, R531). -/
def State.tblCorrected (s : State) (g u : Nat) : State :=
  (s.noteEcc g u false).corrected 1 (tblBankUnit g (unitBank u)) u g

/-- An uncorrectable unit is found (R226): the row of two units is fenced in the replica, a FENCING fault names the bank, and the repair
runs until the remap. -/
def State.tblUncorr (s : State) (g u : Nat) : State :=
  let row := [(g, u / 2 * 2), (g, u / 2 * 2 + 1)].filter fun x => !s.tbl.bad.contains x
  let s := (s.noteEcc g u true)
  let s := { s with tbl := { s.tbl with bad := s.tbl.bad ++ row } }
  let acts := ((List.range 4).filter (· ≠ g)).map fun r => tblBankUnit r (unitBank u)
  s.rowFenced.fencing 1 (tblBankUnit g (unitBank u)) u g 16 true 0 2 0 acts

/-! ## The pending view (R213, R216) -/

/-- The units as every accepted command leaves them. -/
def State.pendView (s : State) : Tab Nat :=
  s.tbl.ops.foldl (fun v o => o.writes.foldl (fun v e => tabSet 0 v e.1 e.2) v) s.tbl.units

/-- The prefixes as every accepted command leaves them. -/
def State.pendPrefixes (s : State) : List Prefix :=
  s.tbl.ops.foldl (fun l o =>
    let l := match o.lpmDel with | some d => l.filter (· ≠ d) | none => l
    match o.lpmAdd with | some a => l ++ [a] | none => l) s.tbl.prefixes

/-! ## Issuing (R211, R212) -/

/-- The key of an issuer. -/
def issuerKey : Issuer → Nat
  | .fn f => f.idx
  | .thread t => 0x800 + t
  | .ager => 0xF00
  | .twin => 0xC40

/-- The issuer's previous command of the kind has not completed. -/
def State.issuerBusy (s : State) (i : Issuer) (tcm : Bool) : Bool :=
  s.tbl.waiting.any (fun r => r.issuer = i && r.tcm == tcm) || s.tbl.ops.any fun o => o.req.issuer = i && o.req.tcm == tcm

/-- The issuer's sequence number with this command (R217). -/
def State.nextSeq (s : State) (i : Issuer) (tcm : Bool) : Nat × State :=
  let k := issuerKey i * 2 + (if tcm then 1 else 0)
  let n := (tabGet 0 s.tbl.seqs k + 1) % 4096
  (n, { s with tbl := { s.tbl with seqs := tabSet 0 s.tbl.seqs k n } })

/-- A thread whose command has completed issues again (R389). -/
def State.wakeThread (s : State) (t : Nat) : State :=
  let s := s.modThr t fun h => { h with wait := none }
  if s.thrState t = tWaiting then s.fset F.CCX_T_STATUS.state t 0 tRunning
  else if s.thrState t = tMigrating then s.modThr t fun h => { h with before := tRunning } else s

/-- Words of a thread's block in CMEM from a word on. -/
def State.blockWrite (s : State) (a : Nat) : List Nat → State
  | [] => s
  | w :: ws => (s.cput a (BitVec.ofNat 36 w)).blockWrite (a + 1) ws

/-- The issuing partition. -/
def State.issuerPart (s : State) : Issuer → Nat
  | .fn f => f.part
  | .thread t => s.thrPart t
  | _ => 16

/-- Complete a command (R217, R250, R413): `TBL_RESULT` or `TCM_RESULT` with `valid`, the data of reads, the commit time where it has one,
the record with `notify`. -/
def State.complete (s : State) (r : TblReq) (status moves : Nat) (valid : Bool) (reads : List Nat) (commit : Bool) : State :=
  let w := 2 ^ 35 + r.seq * 2 ^ 23 + (if r.tcm then (if valid then 2 ^ 22 else 0) else moves * 2 ^ 13) + status
  let st := s.stamp
  let s := match r.issuer with
    | .fn f =>
      let c := f.idx
      if r.tcm then
        let s := s.wr .TCM_RESULT c 0 (BitVec.ofNat 72 w)
        let s := if commit then s.wr .TCM_COMMIT_AT c 0 (BitVec.ofNat 72 st) else s
        if r.op = 5 ∧ status = 0 then
          (List.range 33).foldl (fun s i =>
            if i = 0 then s.fset F.TCM_ACT.action c 0 (reads.getD 0 0)
            else if i < 17 then s.wr .TCM_VAL c (i - 1) (BitVec.ofNat 72 (reads.getD i 0))
            else s.wr .TCM_CARE c (i - 17) (BitVec.ofNat 72 (reads.getD i 0))) s
        else if r.op = 6 ∧ status = 0 then s.wr .TCM_HIT c 0 (BitVec.ofNat 72 (reads.getD 0 0))
        else s
      else
        let s := s.wr .TBL_RESULT c 0 (BitVec.ofNat 72 w)
        let s := if commit then s.wr .TBL_COMMIT_AT c 0 (BitVec.ofNat 72 st) else s
        if reads = [] then s
        else (List.range 4).foldl (fun s i => s.wr .TBL_RD c i (BitVec.ofNat 72 (reads.getD i 0))) s
    | .thread t =>
      let s := if reads = [] then s
        else if r.tcm then
          if r.op = 6 then s.blockWrite (r.block + 34) [reads.getD 0 0 % 2 ^ 36, reads.getD 0 0 / 2 ^ 36] else s.blockWrite (r.block + 1) reads
        else s.blockWrite (r.block + 17) ((List.range 4).map fun i => reads.getD i 0)
      match (s.thr t).wait with
      | some (.table rd _) => (s.setG t rd (BitVec.ofNat 36 w)).wakeThread t
      | _ => s
    | .ager => s
    | .twin => s.bump F.TWN_CNT.count 0 (if status = 0 ∨ (status = 2 ∧ r.op = 1 ∧ !r.tcm) then 6 else 7)
  if r.notify then
    let p := s.issuerPart r.issuer
    let unit := match r.issuer with | .thread t => 0x800 + t | _ => 0xFFF
    let s := s.emitPart p clsTable { code := if r.tcm then 0x54 else 0x52, unit := unit, stamp := st, p3 := status + r.seq * 2 ^ 6,
                                     p4 := r.op + (if r.tcm then r.bank * 2 ^ 8 + r.entry * 2 ^ 16 else 0) }
    match r.issuer with | .thread t => s.setEvents t (2 ^ 10) | _ => s
  else s

/-- A command is written to the engine (R212): BUSY completes at once, the others wait for their plan. -/
def State.issue (s : State) (r : TblReq) : State :=
  let busy := s.issuerBusy r.issuer r.tcm || s.power.entering
  let (n, s) := s.nextSeq r.issuer r.tcm
  let r := { r with seq := n }
  let s := match r.issuer with
    | .fn f => if r.tcm then s.fset F.TCM_RESULT.done f.idx 0 0 else s.fset F.TBL_RESULT.done f.idx 0 0
    | _ => s
  if busy then s.complete r 1 0 false [] false
  else { s with tbl := { s.tbl with waiting := s.tbl.waiting ++ [r] } }

/-- The command that a word in the layout of `TBL_CMD` spells, with its argument and key words. DEDUCED, log entry 39. -/
def tblReqOf (i : Issuer) (op w part arg : Nat) (keys : List Nat) : TblReq :=
  { issuer := i, op := op, notify := bit w 31, static := bit w 30, width := bits w 29 28, region := bits w 27 26,
    part := part, plen := bits w 20 13, v6 := bit w 12, vrf := bits arg 33 22, value := bits arg 21 0, keys := keys }

/-- A function issues a table command by writing `TBL_CMD` (R211): `part` is its own through a VF. -/
def State.tblFn (s : State) (f : Func) (op w : Nat) : State :=
  let part := if f.part < 16 then f.part else bits w 25 21
  let keys := (List.range 15).map fun i => s.fget F.TBL_KEY.word f.idx i
  s.issue (tblReqOf (.fn f) op w part ((s.rd .TBL_ARG f.idx).toNat) keys)

/-! ## Plans (R212–R215) -/

/-- What a plan gives: a status, the writes, the first units of entries whose hit bits are set, the moves. -/
structure Plan where
  status : Nat := 0
  writes : List (Nat × Nat) := []
  hitsFor : List Nat := []
  moves : Nat := 0
  turn : Tab Nat := []
  deriving DecidableEq, Repr

/-- The writes that put an entry's words at unit `u`. -/
def entryWrites (u w key ctl : Nat) : List (Nat × Nat) :=
  (List.range (4 * w)).map fun k => (4 * u + k, if k = 4 * w - 1 then ctl else key / 2 ^ (36 * (4 * w - 2 - k)) % 2 ^ 36)

/-- The writes that leave `w` units from `u` without an entry. -/
def clearWrites (u w : Nat) : List (Nat × Nat) := (List.range (4 * w)).map fun k => (4 * u + k, 0)

/-- Apply writes to units. -/
def applyWrites (v : Tab Nat) (ws : List (Nat × Nat)) : Tab Nat := ws.foldl (fun v e => tabSet 0 v e.1 e.2) v

/-- A free place for `w` units in a bucket, none of whose units is withdrawn. DEDUCED, log entry 38. -/
def State.freeOff (s : State) (v : Tab Nat) (b w : Nat) : Option Nat :=
  let es := bucketEntries v b
  ((List.range (4 / w)).map (· * w)).find? fun o =>
    (es.all fun e => decide (e.off + e.w ≤ o ∨ o + w ≤ e.off)) && (List.range w).all fun i => !s.tbl.gone.contains (b + o + i)

/-- Place entries, each in its bucket, moving residents to their other buckets (R214): `displace` moves at most. A work item is a bucket,
a width in units, a key and a control word. DEDUCED, log entry 38. -/
def State.displaceLoop (s : State) (base size seed lim : Nat) :
    Nat → Tab Nat → List (Nat × Nat × Nat × Nat) → Plan → Plan
  | 0, _, _, _ => { status := 3 }
  | _, _, [], p => p
  | fuel + 1, v, (b, w, key, ctl) :: rest, p =>
    match s.freeOff v b w with
    | some o =>
      let ws := entryWrites (b + o) w key ctl
      s.displaceLoop base size seed lim fuel (applyWrites v ws) rest
        { p with writes := p.writes ++ ws, hitsFor := p.hitsFor ++ [b + o] }
    | none =>
      if lim ≤ p.moves then { status := 3 }
      else
        let es := bucketEntries v b
        let last := tabGet 0 p.turn b
        match (es.find? fun e => last ≤ e.off).orElse fun _ => es.head? with
        | none => { status := 3 }
        | some e =>
          let k := entryKey v (b + e.off) e.w
          let c := bits e.ctl 33 32
          let bs := keyBuckets base size seed c k
          let other := (bs.find? (· ≠ b)).getD b
          let ws := clearWrites (b + e.off) e.w
          s.displaceLoop base size seed lim fuel (applyWrites v ws) ((b, w, key, ctl) :: (rest ++ [(other, e.w, k, e.ctl)]))
            { p with writes := p.writes ++ ws, moves := p.moves + 1, turn := tabInsert p.turn b (e.off + e.w) }

/-- The number that key words spell, the first most significant. -/
def wordsNat (ws : List Nat) : Nat := ws.foldl (fun a w => a * 2 ^ 36 + w % 2 ^ 36) 0

/-- Words of a stored key by width code. -/
def keyWords (c : Nat) : Nat := match c with | 1 => 3 | 2 => 7 | _ => 15

/-- The plan that inserts an entry. -/
def State.planInsert (s : State) (v : Tab Nat) (p c key ctl : Nat) : Plan :=
  let tag := s.tagNow
  let (base, size) := s.region tag p 0
  let seed := bits (s.carveWord tag p 5) 31 0
  let w := widthUnits c
  let bs := keyBuckets base size seed c key
  match bs.find? fun b => (s.freeOff v b w).isSome with
  | some b =>
    let o := (s.freeOff v b w).getD 0
    { writes := entryWrites (b + o) w key ctl, hitsFor := [b + o] }
  | none =>
    let lim := max 1 (s.fget F.TBL_CFG.displace)
    let pl := s.displaceLoop base size seed lim (3 * lim + 8) v [(bs.headD 0, w, key, ctl)] { turn := s.tbl.turn }
    if pl.status = 0 then { pl with hitsFor := pl.hitsFor } else { status := 3 }

/-- The first `n` free units of the region, looked for from `start`; the first number bounds the steps. Where an entry lies is the engine's
own arrangement (R202). DEDUCED, log entry 38. -/
def State.lpmPlace (s : State) (ps : List Prefix) (base size : Nat) : Nat → Nat → Nat → List Nat
  | 0, _, _ => []
  | _, 0, _ => []
  | fuel + 1, n + 1, start =>
    let u := base + start % size
    if s.tbl.gone.contains u || ps.any (fun e => e.units.contains u) then s.lpmPlace ps base size fuel (n + 1) (start + 1)
    else u :: s.lpmPlace ps base size fuel n (start + 1)

/-- The units of a new entry of a family among the prefixes `ps`: none where the region has no room (R202). -/
def State.lpmUnits (s : State) (ps : List Prefix) (p : Nat) (v6 : Bool) : Option (List Nat) :=
  let (base, size) := s.region s.tagNow p 1
  let us := s.lpmPlace ps base size size (prefixUnits v6) (s.freeNat 20)
  if us.length = prefixUnits v6 then some us else none

/-- A region as the castling of a mask leaves it (R65): its first unit and its units. -/
def State.castledRegion (s : State) (mask p k : Nat) : Nat × Nat :=
  let rd := fun (sc : Nat) => if bit mask sc then s.shadowOf sc else (s.scope sc).active
  let word := fun (sc type idx : Nat) => (tabGet 0 (s.plane sc (rd sc)).words (type * 2 ^ 28 + idx)).toNat
  if (s.plane p (rd p)).present.contains 4 ∧ (p = 16 ∨ bit (word 16 2 (28 * p)) 0) then
    (1024 * word p 4 k, 1024 * regionBlocks (word 16 2 (28 * p + 21)) (word 16 2 (28 * p + 22)) k)
  else (0, 0)

/-- The region of READ_UNIT and WRITE_UNIT by its code. -/
def unitRegion (code : Nat) : Nat := 2 + code

/-- The kind of region that a table command is about, by R100's order. -/
def TblReq.kind (r : TblReq) : Nat := if r.op ≤ 4 then 0 else if r.op ≤ 7 then 1 else unitRegion r.region

/-- The castling pending forbids the command (R66): an insert into a region that it changes, and a write of a unit that is not zero and that the
region does not keep in its place. DEDUCED, log entry 27. -/
def State.castleForbids (s : State) (r : TblReq) : Bool :=
  match s.image.castle with
  | some c =>
    c.accepted &&
      (let old := s.region s.tagNow r.part r.kind
       let new := s.castledRegion c.mask r.part r.kind
       if r.op = 8 then (r.keys.take 4).any (fun w => w % 2 ^ 36 != 0) && decide (new.1 ≠ old.1 ∨ new.2 ≤ r.value)
       else decide (new ≠ old))
  | none => false

/-- The engine wakes the banks of a region in every replica for its own reads and writes (R229). -/
def State.wakeRegion (s : State) (p k : Nat) : State :=
  let r := s.region s.tagNow p k
  let held := fun (u : Nat) => decide (r.2 ≠ 0 ∧ unitBank r.1 ≤ (u - 0x300) % 64 ∧ (u - 0x300) % 64 ≤ unitBank (r.1 + r.2 - 1))
  { s with tbl := { s.tbl with asleep := s.tbl.asleep.filter fun u => !held u } }

/-- The first status of R212 that refuses a table command, before its plan; 0 for none. -/
def State.tblRefusal (s : State) (r : TblReq) : Nat :=
  let tag := s.tagNow
  let size := fun k => (s.region tag r.part k).2
  let em := 1 ≤ r.op ∧ r.op ≤ 4
  let px := 5 ≤ r.op ∧ r.op ≤ 7
  let un := r.op = 8 ∨ r.op = 9
  let kind := r.kind
  if r.op = 0 ∨ 9 < r.op ∨ (em ∧ r.width = 0) ∨ (un ∧ r.region = 3) ∨ (px ∧ familyBits r.v6 < r.plen) ∨
      ((r.op = 1 ∨ r.op = 3 ∨ r.op = 5) ∧ (size 2 ≠ 0 ∨ size kind ≠ 0) ∧ size 2 ≤ r.value) ∨ (un ∧ size kind ≠ 0 ∧ size kind ≤ r.value) then 5
  else if 16 < r.part ∨ size kind = 0 then 6
  else if (r.op = 1 ∨ r.op = 5 ∨ r.op = 8) ∧ s.castleForbids r then 7
  else 0

/-- The prefix that a request names in a list. -/
def findPrefix (l : List Prefix) (r : TblReq) (addr : Nat) : Option Prefix :=
  l.find? fun e => e.part = r.part ∧ e.v6 = r.v6 ∧ e.vrf = r.vrf ∧ e.plen = r.plen ∧ e.addr = addr

/-- The address of a request (R211). -/
def reqAddr (r : TblReq) : Nat :=
  let a := if r.v6 then (List.range 4).foldl (fun a i => a * 2 ^ 32 + r.keys.getD i 0 % 2 ^ 32) 0 else r.keys.getD 0 0 % 2 ^ 32
  maskAddr r.v6 r.plen a

/-- The control word of an entry. -/
def ctlWord (static : Bool) (c action : Nat) : Nat := 2 ^ 35 + (if static then 2 ^ 34 else 0) + c * 2 ^ 32 + action % 2 ^ 21

/-- The plan of a table command (R211–R216): its status and what it writes. -/
def State.planTbl (s : State) (r : TblReq) : TblOp :=
  let st := s.tblRefusal r
  if st ≠ 0 then { req := r, status := st }
  else
    let v := s.pendView
    let (base, size) := s.region s.tagNow r.part 0
    let seed := bits (s.carveWord s.tagNow r.part 5) 31 0
    let key := wordsNat (r.keys.take (keyWords r.width))
    let ctl := ctlWord r.static r.width r.value
    let found := findEntry v base size seed r.width key
    let addr := reqAddr r
    let ps := s.pendPrefixes
    let px := findPrefix ps r addr
    let ub := (s.region s.tagNow r.part (unitRegion r.region)).1 + r.value
    match r.op with
    | 1 =>
      if found.isSome then { req := r, status := 2 }
      else
        let pl := s.planInsert v r.part r.width key ctl
        { req := r, status := pl.status, writes := pl.writes, hitsFor := pl.hitsFor, moves := pl.moves, turn := pl.turn }
    | 2 => match found with
      | some (u, e) => { req := r, writes := clearWrites u e.w }
      | none => { req := r, status := 4 }
    | 3 => match found with
      | some (u, e) => { req := r, writes := [(4 * u + 4 * e.w - 1, ctl)] }
      | none => { req := r, status := 4 }
    | 4 => match found with
      | some (u, e) => { req := r, reads := [e.ctl, (if size / 2 ≤ u - base then 2 ^ 21 else 0) + (u - base), 0, 0] }
      | none => { req := r, status := 4 }
    | 5 =>
      if px.isSome then { req := r, status := 2 }
      else match s.lpmUnits ps r.part r.v6 with
        | some us => { req := r, lpmAdd := some { part := r.part, v6 := r.v6, vrf := r.vrf, plen := r.plen, addr := addr,
                                                  action := r.value, units := us } }
        | none => { req := r, status := 3 }
    | 6 => match px with
      | some e => { req := r, lpmDel := some e }
      | none => { req := r, status := 4 }
    | 7 => match px with
      | some e => { req := r, reads := [e.action % 2 ^ 21, 0, 0, 0] }
      | none => { req := r, status := 4 }
    | 8 => { req := r, writes := (List.range 4).map fun i => (4 * ub + i, r.keys.getD i 0 % 2 ^ 36) }
    | _ =>
      if s.tbl.gone.contains ub then { req := r, status := 8 }
      else { req := r, reads := (List.range 4).map fun i => unitW v ub i }

/-- Of the units that a plan found uncorrectable, each with its replica, those that a plan of the command may read (R225): units of its region.
WRITE_UNIT reads none. -/
def State.planMeets (s : State) (r : TblReq) (bad : List (Nat × Nat)) : List (Nat × Nat) :=
  if s.tblRefusal r ≠ 0 ∨ r.op = 8 then []
  else
    let (base, size) := s.region s.tagNow r.part r.kind
    bad.filter fun x => decide (x.1 < 4 ∧ base ≤ x.2 ∧ x.2 < base + size)

/-- The plan of a table command that has met the units `bad`: UNCORR, unless a status before it in R212 refuses the command.
DEDUCED, log entry 38. -/
def State.planWith (s : State) (r : TblReq) (bad : List (Nat × Nat)) : TblOp :=
  let o := s.planTbl r
  if s.planMeets r bad = [] ∨ o.status = 3 then o else { req := r, status := 8 }

/-- An ager delete whose entry has changed since the visit, or been hit, is abandoned (R224). -/
def State.agerStale (s : State) (r : TblReq) : Bool :=
  let (base, size) := s.region s.tagNow r.part 0
  match findEntry s.pendView base size (bits (s.carveWord s.tagNow r.part 5) 31 0) r.width (wordsNat r.keys) with
  | some (u, e) => decide (e.ctl ≠ r.value) || decide (tabGet 0 s.tbl.hits u ≠ 0)
  | none => true

/-- The moment of a commit: the first core clock edge at or after 64 ns from now, in core clocks (R213). -/
def State.commitAt (s : State) : Nat := s.time.cycles + 103

end Sys2Proof.Machine
end

