-- ==== Sys2Proof/Machine/Tcm.lean ====
section
/-! DEFINITION. The associative search banks: their configuration, matching, commands, protection and promotion (R232–R258). -/

namespace Sys2Proof.Machine

/-! ## Configuration (R233–R237) -/

/-- The partition that owns a logical bank in the ACTIVE PARTITION (R233). -/
def State.bankOwner (s : State) (b : Nat) : Option Nat :=
  (List.range 17).find? fun p => s.partEnabled p && bit (s.partWord p 20) b

/-- The header word of a bank in its owner's scope under a plane tag (R236, R237). -/
def State.bankHeader (s : State) (tag p b : Nat) : Nat := s.pget p tag F.TCM_BANK_CFG.header b

/-- Rows of an entry under a header (R234). -/
def rowsPer (h : Nat) : Nat := widthUnits (bits h 33 32) * (if bit h 34 then 2 else 1)

/-- Entries of a bank under a header; none for width code 0. -/
def bankCapacity (h : Nat) : Nat := if bits h 33 32 = 0 then 0 else 1024 / rowsPer h

/-- The physical bank that serves a logical bank in a replica (R232). -/
def State.physOf (s : State) (g b : Nat) : Nat := s.fget F.TCM_BANK.phys (64 * g + b)

/-- The unit ID of a physical bank. -/
def tcmUnit (g phys : Nat) : Nat := 0x200 + 64 * g + phys

/-- The logical bank that a physical bank serves in a replica. -/
def State.logicalOf (s : State) (g phys : Nat) : Option Nat := (List.range 32).find? fun b => s.physOf g b = phys

/-- The logical bank is withdrawn (R257). -/
def State.bankGone (s : State) (b : Nat) : Bool := s.fget F.TCM_BANK.state b = 5

/-! ## Entries -/

/-- The header of a logical bank in the ACTIVE PARTITION of its owner. -/
def State.headerNow (s : State) (b : Nat) : Nat := s.bankHeader s.tagNow ((s.bankOwner b).getD 16) b

/-- A row of a logical bank. -/
def State.tcmRow (s : State) (b row : Nat) : TcmRow := tabGet {} s.tbl.tcm (b * 1024 + row)

/-- Change a row. -/
def State.modRow (s : State) (b row : Nat) (f : TcmRow → TcmRow) : State :=
  { s with tbl := { s.tbl with tcm := tabSet {} s.tbl.tcm (b * 1024 + row) (f (s.tcmRow b row)) } }

/-- The four words of each of `n` rows from one on, in order. -/
def State.rowWords (s : State) (b row n : Nat) : List Nat :=
  (List.range (4 * n)).map fun j => (s.tcmRow b (row + j / 4)).words.getD (j % 4) 0

/-- The entry whose first row is `row`, under a header: in OZ1280 mode the second half of its rows holds the care (R235). -/
def State.entryAt (s : State) (h b row : Nat) : TcmEntry :=
  let x := s.tcmRow b row
  let w := widthUnits (bits h 33 32)
  { valid := x.valid, value := s.rowWords b row w, care := if bit h 34 then s.rowWords b (row + w) w else [], action := x.action,
    hits := x.hits }

/-- An entry of a logical bank. -/
def State.tcmEntry (s : State) (b e : Nat) : TcmEntry := s.entryAt (s.headerNow b) b (rowsPer (s.headerNow b) * e)

/-- The words of row `i` of an entry of `w` units of value. -/
def TcmEntry.rowAt (x : TcmEntry) (w i : Nat) : List Nat :=
  (List.range 4).map fun j => if i < w then x.value.getD (4 * i + j) 0 else x.care.getD (4 * (i - w) + j) 0

/-- Replace an entry, in its rows (R235). -/
def State.setTcm (s : State) (b e : Nat) (x : TcmEntry) : State :=
  let h := s.headerNow b
  let n := rowsPer h
  (List.range n).foldl (fun s i =>
    s.modRow b (n * e + i) fun r =>
      if i = 0 then { valid := x.valid, words := x.rowAt (widthUnits (bits h 33 32)) 0, action := x.action, hits := x.hits }
      else { r with words := x.rowAt (widthUnits (bits h 33 32)) i }) s

/-- A row of a physical bank reads in its replica: it is not fenced, nor lost for good (R254, R255). -/
def State.rowReads (s : State) (g phys row : Nat) : Bool :=
  !s.tbl.tcmBad.contains (g, phys, row) && !s.tbl.tcmDead.contains (g, phys, row)

/-- A replica reads `n` rows of a logical bank from one on. -/
def State.tcmReads (s : State) (g b row n : Nat) : Bool := (List.range n).all fun i => s.rowReads g (s.physOf g b) (row + i)

/-- Valid entries of a logical bank. -/
def State.bankValid (s : State) (b : Nat) : Nat :=
  (s.tbl.tcm.filter fun x => x.1 / 1024 = b ∧ x.2.valid).length

/-- A physical bank is off: the logical bank that it serves has no owner (R233). -/
def State.tcmOff (s : State) (g phys : Nat) : Bool := (s.logicalOf g phys).any fun b => (s.bankOwner b).isNone

/-- The engine wakes the physical banks of a logical bank for its own reads and writes (R258). -/
def State.wakeTcm (s : State) (b : Nat) : State :=
  let us := (List.range 4).map fun g => tcmUnit g (s.physOf g b)
  { s with tbl := { s.tbl with tcmSleep := s.tbl.tcmSleep.filter fun u => !us.contains u } }

/-! ## Matching (R240–R245) -/

/-- Mask word `j` of a mask profile of a bank. -/
def State.maskWord (s : State) (tag p b m j : Nat) : Nat := s.pword p tag 5 (b * 512 + m * 16 + j)

/-- The value of an entry matches a key of `n` words under the mask, and in OZ1280 mode the care. -/
def tcmMatches (x : TcmEntry) (compat : Bool) (key : List Nat) (mask : Nat → Nat) : Nat → Bool
  | 0 => true
  | n + 1 =>
    tcmMatches x compat key mask n &&
      ((key.getD n 0 ^^^ x.value.getD n 0) &&& mask n &&& (if compat then x.care.getD n 0 else 2 ^ 36 - 1)) == 0

/-- The best of two matches by global address. -/
def betterMatch (a b : Option (Nat × Nat × Nat)) : Option (Nat × Nat × Nat) :=
  match a, b with
  | some x, some y => if y.1 < x.1 then some y else some x
  | some x, none => some x
  | none, y => y

/-- A search of a replica (R243, R244): the global address, bank and row address of the match. `w` is the profile's `tcm_w` code. -/
def State.tcmSearch (s : State) (g tag p prof w : Nat) (key : List Nat) : Option (Nat × Nat × Nat) :=
  if w = 0 then none
  else
    let pw := s.pword p tag 5 (65536 + prof)
    let m := bits pw 35 32
    let hdr := fun b => s.bankHeader tag p b
    let open_ := fun b => bit (bits pw 31 0) b && bit (s.partWordT tag p 20) b && decide (bits (hdr b) 33 32 = w) && !s.bankGone b
    s.tbl.tcm.foldl (fun best x =>
      let b := x.1 / 1024
      let row := x.1 % 1024
      if open_ b && x.2.valid && decide (row % rowsPer (hdr b) = 0) && s.tcmReads g b row (rowsPer (hdr b)) &&
          tcmMatches (s.entryAt (hdr b) b row) (bit (hdr b) 34) key (s.maskWord tag p b m) (4 * widthUnits w) then
        betterMatch best (some (bits (hdr b) 26 22 * 1024 + row, b, row))
      else best) none

/-- A match counts in its replica's hit counter (R252). -/
def State.tcmHit (s : State) (g b row : Nat) : State :=
  s.modRow b row fun x => { x with hits := x.hits.mapIdx fun i n => if i = g then (n + 1) % 2 ^ 48 else n }

/-! ## Commands (R247–R251) -/

/-- What a search-bank command makes of its entry. -/
def tcmApply (r : TblReq) (x : TcmEntry) : TcmEntry :=
  match r.op with
  | 1 => { x with valid := false }
  | 2 => { x with value := r.val, care := r.care, action := r.act, hits := [0, 0, 0, 0] }
  | 3 => { x with valid := true }
  | 4 => { x with action := r.act }
  | 7 => { x with hits := [0, 0, 0, 0] }
  | _ => x

/-- An entry as every accepted command leaves it (R251). -/
def State.pendEntry (s : State) (b e : Nat) : TcmEntry :=
  s.tbl.ops.foldl (fun x o => if o.req.tcm && o.req.bank == b && o.req.entry == e then tcmApply o.req x else x) (s.tcmEntry b e)

/-- A logical bank holds no valid entry once every accepted command has committed (R239). -/
def State.bankEmpty (s : State) (b : Nat) : Bool :=
  let stored := (s.tbl.tcm.filter fun x => x.1 / 1024 = b).map fun x => x.1 % 1024 / rowsPer (s.headerNow b)
  let named := (s.tbl.ops.filter fun o => o.req.tcm && o.req.bank == b).map fun o => o.req.entry
  (stored ++ named).all fun e => !(s.pendEntry b e).valid

/-- The bank of a scope that a castling's resulting state uses (R65). -/
def State.resultBank (s : State) (mask sc : Nat) : Nat := if bit mask sc then s.shadowOf sc else (s.scope sc).active

/-- The owner of a logical bank in a castling's resulting state. -/
def State.resultOwner (s : State) (mask b : Nat) : Option Nat :=
  let w := fun p i => (tabGet 0 (s.plane 16 (s.resultBank mask 16)).words (2 * 2 ^ 28 + 28 * p + i)).toNat
  (List.range 17).find? fun p => (p = 16 || bit (w p 0) 0) && bit (w p 20) b

/-- A castling pending forbids the command (R66, R239). -/
def State.tcmCastling (s : State) (op b : Nat) (owner : Nat) : Bool :=
  match s.image.castle with
  | some c =>
    c.accepted &&
      ((1 ≤ op && op ≤ 4 && s.resultOwner c.mask b != some owner) ||
       ((op = 2 || op = 3) &&
          (bits (s.bankHeader s.tagNow owner b) 34 32 !=
            bits (fldGet (s.rdPlane owner (s.resultBank c.mask owner) .TCM_BANK_CFG b) 35 0) 34 32)))
  | none => false

/-- The status of R248 for a search-bank command at its plan, 0 for OK. -/
def State.tcmStatus (s : State) (r : TblReq) : Nat :=
  let owner := s.bankOwner r.bank
  let h := s.bankHeader s.tagNow (owner.getD 16) r.bank
  if r.op = 0 ∨ 7 < r.op ∨ 32 ≤ r.bank ∨ bankCapacity h ≤ r.entry then 3
  else match owner with
    | none => 4
    | some p =>
      if r.part < 16 ∧ r.part ≠ p then 4
      else if s.tcmCastling r.op r.bank p then 5
      else if r.op = 2 ∧ (s.pendEntry r.bank r.entry).valid then 2
      else if s.bankGone r.bank ∨ (List.range (rowsPer h)).any fun i => (List.range 4).all fun g =>
          !s.rowReads g (s.physOf g r.bank) (rowsPer h * r.entry + i) then 6
      else 0

/-- The plan of a search-bank command; a READ answers the valid bit in `moves`. -/
def State.planTcm (s : State) (r : TblReq) : TblOp :=
  let st := s.tcmStatus r
  if st ≠ 0 then { req := r, status := st }
  else
    let h := s.bankHeader s.tagNow ((s.bankOwner r.bank).getD 16) r.bank
    let n := 4 * widthUnits (bits h 33 32)
    let x := s.pendEntry r.bank r.entry
    let at16 := fun (l : List Nat) => (List.range 16).map fun i => l.getD i 0
    match r.op with
    | 2 => { req := { r with val := r.val.take n, care := if bit h 34 then r.care.take n else [] } }
    | 5 => { req := r, moves := if x.valid then 1 else 0,
             reads := x.action :: (at16 x.value ++ at16 (if bit h 34 then x.care else [])) }
    | 6 => { req := r, reads := [x.hits.sum % 2 ^ 48] }
    | _ => { req := r }

/-- A function issues a search-bank command by writing `TCM_CMD` (R247); the replica part of the index is ignored. -/
def State.effTcmCmd (s : State) (f : Func) (w : Nat) : State :=
  if bits w 35 32 = 0 then s
  else
    let idx := s.fget F.TCM_SEL.index f.idx
    s.issue { issuer := .fn f, tcm := true, op := bits w 35 32, notify := bit w 31, part := f.part, bank := idx % 64,
              entry := bits w 29 20, act := s.fget F.TCM_ACT.action f.idx,
              val := (List.range 16).map fun i => s.fget F.TCM_VAL.word f.idx i,
              care := (List.range 16).map fun i => s.fget F.TCM_CARE.word f.idx i }

/-! ## Protection, repair and withdrawal (R253–R257) -/

/-- A TCM_LOST record to the owner's table ring, counted in LOST (R255, R257). -/
def State.tcmLost (s : State) (g b e : Nat) (whole : Bool) : State :=
  let p := (s.bankOwner b).getD 16
  let x := if whole then ({} : TcmEntry) else s.tcmEntry b e
  let r : Record := { code := 0x56, unit := tcmUnit g (s.physOf g b), stamp := s.stamp,
                      p3 := g + b * 2 ^ 8 + (if whole then 2 ^ 26 else e * 2 ^ 16) }
  let r := if whole then r else { r with p4 := x.action, p5 := x.value.getD 0 0, p6 := x.value.getD 1 0, p7 := x.value.getD 2 0 }
  (s.tblCount p 13).emitPart p clsTable r

/-- Note an error in `TCM_ERR` and `TCM_ERR_LAST`. -/
def State.noteTcm (s : State) (g phys row : Nat) (action corr : Bool) : State :=
  let s := if corr then s.bumpSat F.TCM_ERR.corr 0 0 else s.bumpSat F.TCM_ERR.rows 0 0
  s.wr .TCM_ERR_LAST 0 0 (BitVec.ofNat 72 (tcmUnit g phys * 2 ^ 24 + (if action then 2 ^ 10 else 0) + row))

/-- A corrected action word (R253, R531). -/
def State.tcmCorrected (s : State) (g phys row : Nat) : State :=
  (s.noteTcm g phys row true true).corrected 2 (tcmUnit g phys) row g

/-- A row fails (R254): it is fenced in its replica, a FENCING fault names the physical bank, and the repair runs until the remap. -/
def State.tcmRowFail (s : State) (g phys row : Nat) (action : Bool) : State :=
  let s := s.noteTcm g phys row action false
  let s := if s.tbl.tcmBad.contains (g, phys, row) then s
    else { s with tbl := { s.tbl with tcmBad := s.tbl.tcmBad ++ [(g, phys, row)] } }.rowFenced
  let acts := match s.logicalOf g phys with
    | some b => ((List.range 4).filter (· ≠ g)).map fun r => tcmUnit r (s.physOf r b)
    | none => []
  s.fencing 2 (tcmUnit g phys) row g 16 true 0 2 0 acts

/-- The repair rows left in a physical bank, as `TCM_BANK` shows them of the logical bank that it serves and, for banks 32 and 33, of
itself (R259). -/
def State.showRows (s : State) (g phys : Nat) : State :=
  let left := rowsTotal (tcmUnit g phys) - s.rowsUsed (tcmUnit g phys)
  let s := if 32 ≤ phys then s.fset F.TCM_BANK.repair (64 * g + phys) 0 left else s
  match s.logicalOf g phys with
  | some b => s.fset F.TCM_BANK.repair (64 * g + b) 0 left
  | none => s

/-- TCM_SCRUB (R253): the scrubber reads a row of a physical bank and its action word: 0 good, 1 an action word corrected, 2 a row that
fails parity, 3 an action word uncorrectable. -/
def execTcmScrub (replica bank row err : Nat) (s : State) : Host.Outcome State Fault Refusal :=
  s.actAwake fun s =>
    let s := { s with tbl := { s.tbl with tcmSleep := s.tbl.tcmSleep.filter (· ≠ tcmUnit replica bank) } }
    match err with
    | 1 => s.tcmCorrected replica bank row
    | 2 => s.tcmRowFail replica bank row false
    | 3 => s.tcmRowFail replica bank row true
    | _ => s

/-- The physical bank is on the bench. -/
def State.isBench (s : State) (g phys : Nat) : Bool := decide (32 ≤ phys) && decide (s.fget F.TCM_BANK.state (64 * g + phys) = 1)

/-- TCM_BANK_RETENTION (R258): a physical bank that no search has read for `idle` µs enters retention, and a bench bank that the scrubber has
read goes back to it. -/
def execTcmBankRetention (replica bank : Nat) (s : State) : Host.Outcome State Fault Refusal :=
  s.act fun s =>
    let u := tcmUnit replica bank
    if (s.fget F.TCM_CFG.idle = 0 ∧ !s.isBench replica bank) ∨ s.tbl.tcmSleep.contains u ∨ s.tcmOff replica bank then s
    else { s with tbl := { s.tbl with tcmSleep := s.tbl.tcmSleep ++ [u] } }

end Sys2Proof.Machine
end

