-- ==== Sys2Proof/Machine/Engine.lean ====
section
/-! DEFINITION. The table engine: acceptance and commit of table and search-bank commands (R212–R217, R249, R250, R607), learning
delivery, ageing, scrubbing, row repair and bank sleep (R219–R229). -/

namespace Sys2Proof.Machine

/-! ## Acceptance (R213, R224) -/

/-- A row waits for its repair, which goes ahead of every waiting command (R226, R254). -/
def State.repairsWait (s : State) : Bool := s.tbl.bad ≠ [] || s.tbl.tcmBad ≠ []

/-- The command whose plan is next: the first waiting, and an ager delete at every eighth acceptance while others wait; none while a repair
waits. -/
def State.nextPlan (s : State) : Option TblReq :=
  if s.repairsWait then none
  else
    let ager := s.tbl.waiting.find? fun r => r.issuer = .ager
    let other := s.tbl.waiting.find? fun r => r.issuer ≠ .ager
    match ager, other with
    | some a, some o => if 7 ≤ s.tbl.agerTurn then some a else some o
    | some a, none => some a
    | none, o => o

/-- Remove the first waiting command equal to one. -/
def dropFirst (r : TblReq) : List TblReq → List TblReq
  | [] => []
  | x :: t => if x = r then t else x :: dropFirst r t

/-- A table command refused or accepted. -/
def State.acceptOp (s : State) (o : TblOp) : State :=
  let r := o.req
  if o.status ≠ 0 then
    let s := if !r.tcm ∧ o.status = 3 then s.bumpSat F.TBL_INS_FAIL.count r.part 0 else s
    let s := if !r.tcm ∧ o.status = 2 then s.tblCount r.part 6 else s
    s.complete r o.status 0 false [] false
  else
    let s := if o.lpmAdd.isSome then s.nextFree else s
    let s := if o.moves ≠ 0 ∧ !r.tcm then { s with tbl := { s.tbl with turn := o.turn } } else s
    { s with tbl := { s.tbl with ops := s.tbl.ops ++ [o] } }

/-- TBL_ACCEPT (R213): the engine ends the plan of the next command, and accepts or refuses it. The units that it has met uncorrectable and that
the plan reads give UNCORR, and their repair starts (R225, R226). -/
def execTblAccept (s : State) : Host.Outcome State Fault Refusal :=
  s.act fun s =>
    match s.nextPlan with
    | none => s
    | some r =>
      let bad := s.tbl.met
      let s := { s with tbl := { s.tbl with
        met := if r.tcm then s.tbl.met else []
        waiting := dropFirst r s.tbl.waiting
        agerTurn := if r.issuer = Issuer.ager then 0 else min 7 (s.tbl.agerTurn + 1) } }
      if r.tcm then (s.wakeTcm r.bank).acceptOp (s.planTcm r)
      else
        let s := s.wakeRegion r.part r.kind
        let met : List (Nat × Nat) := s.planMeets r bad
        let s : State := if r.issuer = Issuer.ager ∧ s.agerStale r then s else s.acceptOp (s.planWith r bad)
        met.foldl (fun (s : State) x => s.tblUncorr x.1 x.2) s

/-! ## Commit (R213, R217, R250) -/

/-- Hit bits of entries that a command clears go with them; those it places or moves are set in every replica (R214, R223). -/
def commitHits (h : Tab Nat) (o : TblOp) : Tab Nat :=
  let h := o.writes.foldl (fun h e => if e.1 % 4 = 3 ∧ e.2 = 0 then tabSet 0 h (e.1 / 4) 0 else h) h
  o.hitsFor.foldl (fun h u => tabSet 0 h u 15) h

/-- All replicas take the writes of a table command. -/
def State.takeTbl (s : State) (o : TblOp) : State :=
  let ps := match o.lpmDel with | some d => s.tbl.prefixes.filter (· ≠ d) | none => s.tbl.prefixes
  let ps := match o.lpmAdd with | some a => ps ++ [a] | none => ps
  let s := { s with tbl := { s.tbl with
    units := applyWrites s.tbl.units o.writes, hits := commitHits s.tbl.hits o, prefixes := ps } }
  match o.req.op with
  | 1 | 5 => s.tblCount o.req.part 4
  | 2 | 6 => s.tblCount o.req.part 5
  | _ => s

/-- A command committed with OK goes to the peer when its partition's replay bit is set (R607). -/
def State.replayOut (s : State) (o : TblOp) : State :=
  let p := if o.req.tcm then (s.bankOwner o.req.bank).getD 16 else o.req.part
  if o.req.issuer ≠ .twin ∧ s.linkUp ∧ bit (s.fget F.TWN_SYNC.replay) p then s.twinSend (.replay p { o.req with issuer := .twin, notify := false })
  else s

/-- The first accepted command commits if it is of the kind. -/
def State.commitHead (s : State) (tcm : Bool) : State :=
  match s.tbl.ops with
  | [] => s
  | o :: rest =>
    if o.req.tcm != tcm then s
    else
      let s := { s with tbl := { s.tbl with ops := rest } }
      let s := if tcm then (s.wakeTcm o.req.bank).setTcm o.req.bank o.req.entry (tcmApply o.req (s.tcmEntry o.req.bank o.req.entry))
        else (s.wakeRegion o.req.part o.req.kind).takeTbl o
      (s.complete o.req 0 o.moves (o.moves = 1) o.reads true).replayOut o

/-- Every accepted command commits: a repair's own commit time follows theirs (R213). DEDUCED, log entry 38. -/
def State.commitAll (s : State) : State := s.tbl.ops.foldl (fun s o => s.commitHead o.req.tcm) s

/-- TBL_COMMIT (R213, R217): at the commit time all replicas take the table command's writes, and it completes. -/
def execTblCommit (s : State) : Host.Outcome State Fault Refusal := s.act fun s => s.commitHead false

/-- TCM_COMMIT (R249, R250): at the commit time all replicas take the search-bank command's change, and it completes. -/
def execTcmCommit (s : State) : Host.Outcome State Fault Refusal := s.act fun s => s.commitHead true

/-! ## Learning (R220–R222) -/

/-- A learn, aged or lost record of a partition at its sink (R221); false when the sink has no room. -/
def State.sinkPut (s : State) (p : Nat) (r : Record) : Bool × State :=
  match s.fget F.TBL_LEARN.sink p with
  | 1 =>
    let c := s.fget F.TBL_LEARN.chan p
    let ch := if p < 16 then 4 * p + c % 4 else 64 + c
    let room := s.flag F.DMA_RING_CFG.en ch && !s.isWatch ch && decide (s.ringUnread ch < s.ringSize ch - 1)
    (room, s.emitChan ch p r)
  | 2 => match s.eventPut p (s.fget F.TBL_LEARN.queue p) (offRing r p) with
    | some s => (true, s)
    | none => (false, s)
  | _ => (true, s)

/-- A record for the sink, counted in LEARN_LOST when it has no room. -/
def State.sinkSend (s : State) (p : Nat) (r : Record) : State :=
  let (ok, s) := s.sinkPut p r
  if ok then s else s.tblCount p 10

/-- LEARN_DELIVER (R221): the oldest learn notification sent reaches its partition's sink. -/
def execLearnDeliver (s : State) : Host.Outcome State Fault Refusal :=
  s.act fun s =>
    match s.learned with
    | [] => s
    | (p, r) :: rest => { s with learned := rest }.sinkSend p r

/-- Words 3–5 of a stored key (R222): its bits [107:72], [71:36] and [35:0]. -/
def keyPayload (key : Nat) : Nat × Nat × Nat := (key / 2 ^ 72 % 2 ^ 36, key / 2 ^ 36 % 2 ^ 36, key % 2 ^ 36)

/-- The learn filter (R220): whether a notification of a partition's key passes, and the filter as it leaves it. -/
def State.learnFilter (s : State) (g p key : Nat) : Bool × State :=
  let n := crc32c (BitVec.ofNat 8 p :: keyBytes 1 key)
  let k := g * 4096 + n % 4096
  let window := max 1 (s.fget F.TBL_CFG.filter) * 400000
  match tabFind s.tbl.filter k with
  | some (sig, t) =>
    if sig = n / 4096 ∧ s.time.cycles < t + window then (false, s)
    else (true, { s with tbl := { s.tbl with filter := tabInsert s.tbl.filter k (n / 4096, s.time.cycles) } })
  | none => (true, { s with tbl := { s.tbl with filter := tabInsert s.tbl.filter k (n / 4096, s.time.cycles) } })

/-- A learn notification is raised (R219–R222): suppressed, or sent, and then to the peer as well under R606. `kind` 1 NEW, 2 MOVE. -/
def State.learnRaise (s : State) (g slice p key port kind prof oldPort ctl : Nat) : State :=
  let (pass, s) := s.learnFilter g p key
  if !pass then s.tblCount p 9
  else
    let s := s.tblCount p (if kind = 1 then 7 else 8)
    let (a, b, c) := keyPayload key
    let r : Record := { code := 0x50, unit := sliceUnit g slice, stamp := s.stamp, p3 := a, p4 := b, p5 := c,
                        p6 := port + kind * 2 ^ 8 + prof * 2 ^ 12 + oldPort * 2 ^ 20, p7 := ctl }
    let s := { s with learned := s.learned ++ [(p, r)] }
    if s.linkUp ∧ bit (s.fget F.TWN_SYNC.learn) p then (s.twinSend (.learn p r)).twnCount 5 else s

/-! ## Ageing (R223, R224) -/

/-- The buckets of a partition's exact-match region that hold anything. -/
def State.usedBuckets (s : State) (p : Nat) : List Nat :=
  let (base, size) := s.region s.tagNow p 0
  ((s.tbl.units.map fun e => e.1 / 4).filter fun u => base ≤ u ∧ u < base + size).foldl
    (fun l u => let b := base + (u - base) / 4 * 4
                if l.contains b then l else l ++ [b]) []

/-- One entry is visited: aged when no replica's hit bit is set, and its hit bits cleared. -/
def State.ageEntry (s : State) (p u : Nat) (e : EmEntry) : State :=
  let c := bits e.ctl 33 32
  let key := entryKey s.tbl.units u e.w
  if bit e.ctl 34 then s
  else if tabGet 0 s.tbl.hits u ≠ 0 then { s with tbl := { s.tbl with hits := tabSet 0 s.tbl.hits u 0 } }
  else
    let (k0, k1, k2) := keyPayload key
    let s := (s.tblCount p 11).sinkSend p { code := 0x51, unit := 0xFFF, stamp := s.stamp, p3 := k0, p4 := k1, p5 := k2,
                                            p6 := 3 * 2 ^ 8, p7 := e.ctl }
    if s.flag F.TBL_AGE.auto_del p then
      let ks := (List.range (keyWords c)).map fun i => key / 2 ^ (36 * (keyWords c - 1 - i)) % 2 ^ 36
      { s with tbl := { s.tbl with waiting := s.tbl.waiting ++
        [({ issuer := .ager, op := 2, width := c, part := p, value := e.ctl, keys := ks } : TblReq)] } }
    else s

/-- AGER_VISIT (R223): the ager visits every valid, non-static exact-match entry of a partition once in its period. -/
def execAgerVisit (part : Nat) (s : State) : Host.Outcome State Fault Refusal :=
  s.actAwake fun s =>
    if s.fget F.TBL_AGE.period part = 0 then s
    else (s.usedBuckets part).foldl (fun s b =>
      (bucketEntries s.tbl.units b).foldl (fun s e => s.ageEntry part (b + e.off) e) s) (s.wakeRegion part 0)

/-! ## Scrubbing, repair and sleep (R225–R229) -/

/-- TBL_SCRUB (R228): the scrubber reads a unit of a replica: 0 good, 1 corrected and rewritten, 2 uncorrectable. -/
def execTblScrub (replica unit err : Nat) (s : State) : Host.Outcome State Fault Refusal :=
  s.actAwake fun s =>
    let s := { s with tbl := { s.tbl with asleep := s.tbl.asleep.filter (· ≠ tblBankUnit replica (unitBank unit)) } }
    match err with
    | 1 => s.tblCorrected replica unit
    | 2 => s.tblUncorr replica unit
    | _ => s

/-- A table memory bank is powered down: no unit of it lies in a region of either bank of any scope (R229), whichever of scope H's banks sizes
it. -/
def State.tblOff (s : State) (bank : Nat) : Bool :=
  (List.range 4).all fun m => (List.range 17).all fun p => (List.range 5).all fun k =>
    let word := fun (sc b type idx : Nat) => (tabGet 0 (s.plane sc b).words (type * 2 ^ 28 + idx)).toNat
    let h := fun i => word 16 (m / 2) 2 (28 * p + i)
    let base := 1024 * word p (m % 2) 4 k
    let size := 1024 * regionBlocks (h 21) (h 22) k
    !(s.plane p (m % 2)).present.contains 4 || (p < 16 && !bit (h 0) 0) || decide (size = 0) ||
      decide (bank < unitBank base ∨ unitBank (base + size - 1) < bank)

/-- TBL_BANK_RETENTION (R229): a table memory bank that no lookup has read for `idle` µs enters retention; one that is powered down does
not. -/
def execTblBankRetention (replica bank : Nat) (s : State) : Host.Outcome State Fault Refusal :=
  s.act fun s =>
    let u := tblBankUnit replica bank
    if s.fget F.TBL_CFG.idle = 0 ∨ s.tbl.asleep.contains u ∨ s.tblOff bank then s
    else { s with tbl := { s.tbl with asleep := s.tbl.asleep ++ [u] } }

/-- The partition and kind of region that a unit lies in (R192). -/
def State.unitHome (s : State) (u : Nat) : Option (Nat × Nat) :=
  (List.range 17).findSome? fun p => (List.range 5).findSome? fun k =>
    let (base, size) := s.region s.tagNow p k
    if base ≤ u ∧ u < base + size then some (p, k) else none

/-- A LOST record, counted (R222, R227). -/
def State.lostRecord (s : State) (p kind p3 p4 p5 p7 : Nat) : State :=
  (s.tblCount p 13).sinkSend p { code := 0x53, unit := 0xFFF, stamp := s.stamp, p3 := p3, p4 := p4, p5 := p5, p6 := kind * 2 ^ 8, p7 := p7 }

/-- An exact-match entry that loses its units is placed elsewhere in its region, or lost (R227). -/
def State.rehomeEntry (s : State) (p u : Nat) (e : EmEntry) (readable : Bool) : State :=
  let c := bits e.ctl 33 32
  let key := entryKey s.tbl.units u e.w
  let (k0, k1, k2) := keyPayload key
  let lost := fun (s : State) => s.lostRecord p 4 k0 k1 k2 e.ctl
  let s := { s with tbl := { s.tbl with units := applyWrites s.tbl.units (clearWrites u e.w), hits := tabSet 0 s.tbl.hits u 0 } }
  if !readable then lost s
  else
    let pl := s.planInsert s.tbl.units p c key e.ctl
    if pl.status = 0 then
      { s with tbl := { s.tbl with
        units := applyWrites s.tbl.units pl.writes
        hits := pl.hitsFor.foldl (fun h u => tabSet 0 h u 15) s.tbl.hits
        turn := if pl.moves = 0 then s.tbl.turn else pl.turn } }
    else lost s

/-- A longest-prefix entry that loses its units. -/
def State.rehomePrefix (s : State) (x : Prefix) (readable : Bool) : State :=
  let rest := s.tbl.prefixes.filter (· ≠ x)
  let a := x.addr
  match (if readable then s.lpmUnits rest x.part x.v6 else none) with
  | some us => { s with tbl := { s.tbl with prefixes := rest ++ [{ x with units := us }] } }.nextFree
  | none =>
    { s with tbl := { s.tbl with prefixes := rest } }.lostRecord x.part 6
      (if x.v6 then a / 2 ^ 92 % 2 ^ 36 else a) (if x.v6 then a / 2 ^ 56 % 2 ^ 36 else 0) (if x.v6 then a / 2 ^ 20 % 2 ^ 36 else 0)
      ((if x.v6 then 2 ^ 35 else 0) + x.vrf * 2 ^ 23 + x.plen)

/-- What a unit of a removed row held: an exact-match entry, a prefix, or a record that cannot move (R227). -/
def State.evictUnit (s : State) (u : Nat) (readable : Bool) : State :=
  match s.unitHome u with
  | none => s
  | some (p, k) =>
    let (base, _) := s.region s.tagNow p k
    match k with
    | 0 =>
      let b := base + (u - base) / 4 * 4
      match (bucketEntries s.tbl.units b).find? fun e => b + e.off ≤ u ∧ u < b + e.off + e.w with
      | some e => s.rehomeEntry p (b + e.off) e readable
      | none => s
    | 1 => match s.tbl.prefixes.find? fun x => x.units.contains u with
      | some x => s.rehomePrefix x readable
      | none => s
    | k => s.lostRecord p 5 0 0 0 ((k - 2) * 2 ^ 21 + (u - base))

/-- TABLE_ROW_REPAIR (R226, R227): a failed row of two units at a unit of a replica is copied to a repair row and remapped, or its units are
removed from use in all replicas, once every accepted command has committed. -/
def execTableRowRepair (replica unit : Nat) (s : State) : Host.Outcome State Fault Refusal :=
  s.act fun s =>
    let r := unit / 2 * 2
    let bank := tblBankUnit replica (unitBank unit)
    if !s.tbl.bad.contains (replica, r) && !s.tbl.bad.contains (replica, r + 1) then s else
    let s := { s with tbl := { s.tbl with asleep := s.tbl.asleep.filter fun u => (u - 0x300) % 64 ≠ unitBank unit } }
    let clear := fun (s : State) => { s with tbl := { s.tbl with bad := s.tbl.bad.filter fun x => !(x.1 = replica ∧ x.2 / 2 * 2 = r) } }
    let finish := fun (s : State) =>
      if s.tbl.bad.any fun x => x.1 = replica ∧ unitBank x.2 = unitBank unit then s else s.rowsDone bank
    let readable := (List.range 4).any fun g => !s.tbl.bad.contains (g, r) && !s.tbl.bad.contains (g, r + 1)
    match (if readable then s.takeRow bank else none) with
    | some s => finish (clear s)
    | none =>
      let ok := fun u => (List.range 4).any fun g => !s.tbl.bad.contains (g, u)
      let (ok0, ok1) := (ok r, ok (r + 1))
      let s := s.commitAll
      let s := { s with tbl := { s.tbl with gone := s.tbl.gone ++ ([r, r + 1].filter fun u => !s.tbl.gone.contains u) } }
      finish (clear ((s.evictUnit r ok0).evictUnit (r + 1) ok1))

/-! ## Search-bank repair, withdrawal and promotion (R254–R257) -/

/-- A logical bank is withdrawn in every replica (R257). DEDUCED, log entry 40. -/
def State.withdrawBank (s : State) (g b : Nat) : State :=
  let s := s.commitAll
  let s := { s with tbl := { s.tbl with tcm := (s.tbl.tcm.map fun (x : Nat × TcmRow) =>
    if x.1 / 1024 = b then (x.1, { x.2 with valid := false }) else x).filter fun x => x.2 ≠ ({} : TcmRow) } }
  let s := s.tcmLost g b 0 true
  (List.range 4).foldl (fun s r => s.fset F.TCM_BANK.state (64 * r + b) 0 5) s

/-- A row without repair: it is lost for good, and the entry that has it is invalid in all four replicas from then on (R255). -/
def State.loseRow (s : State) (g phys row : Nat) : State :=
  let s := s.commitAll
  let s := { s with tbl := { s.tbl with tcmDead := s.tbl.tcmDead ++ [(g, phys, row)] } }
  match s.logicalOf g phys with
  | none => s
  | some b =>
    let e := row / rowsPer (s.headerNow b)
    (s.tcmLost g b e false).setTcm b e { s.tcmEntry b e with valid := false }

/-- TCM_ROW_REPAIR (R254, R255): a failed row of a physical bank of a replica is copied to a repair row and remapped, or its entry is lost. The
fault's reaction ends with the bank's last failed row. -/
def execTcmRowRepair (replica bank row : Nat) (s : State) : Host.Outcome State Fault Refusal :=
  s.act fun s =>
    if !s.tbl.tcmBad.contains (replica, bank, row) then s
    else
      let u := tcmUnit replica bank
      let readable := match s.logicalOf replica bank with
        | some b => (List.range 4).any fun g => s.rowReads g (s.physOf g b) row
        | none => true
      let s := match s.logicalOf replica bank with | some b => s.wakeTcm b | none => s
      let clear := fun (s : State) => { s with tbl := { s.tbl with tcmBad := s.tbl.tcmBad.filter (· ≠ (replica, bank, row)) } }
      let s := match (if readable then s.takeRow u else none) with
        | some s => (clear s).showRows replica bank
        | none => (clear s).loseRow replica bank row
      if s.tbl.tcmBad.any fun x => x.1 = replica ∧ x.2.1 = bank then s else s.rowsDone u

/-- TCM_PROMOTION_DONE (R256): the copy has ended; the replica's logical bank is remapped and the old bank goes to FENCED.
DEDUCED, log entry 40. -/
def execTcmPromotionDone (unit : Nat) (s : State) : Host.Outcome State Fault Refusal :=
  s.act fun s =>
    match s.flt.promos.find? fun p => p.unit = unit ∧ p.kind = 1 with
    | none => s
    | some p =>
      let g := (unit - 0x200) / 64
      let old := (unit - 0x200) % 64
      let new := (p.spare - 0x200) % 64
      match s.logicalOf g old with
      | none => s
      | some b =>
        let owner := (s.bankOwner b).getD 16
        let s := (s.fset F.TCM_BANK.phys (64 * g + b) 0 new).fset F.TCM_BANK.margin (64 * g + b) 0
          (s.fget F.TCM_BANK.margin (64 * g + new))
        let s := s.fset F.TCM_BANK.state (64 * g + new) 0 0
        let s := if 32 ≤ old then s.fset F.TCM_BANK.state (64 * g + old) 0 3 else s
        let s := (s.showRows g new)
        let s := if s.flt.fenced.contains unit then s else s.countFenced 1 unit
        let s := s.emitPart owner clsTable { code := 0x55, unit := unit, stamp := s.stamp,
                                             p3 := g + b * 2 ^ 8 + old * 2 ^ 16 + new * 2 ^ 24 }
        s.finishPromo unit

end Sys2Proof.Machine
end

