-- ==== Sys2Proof/Machine/Slice.lean ====
section
/-! DEFINITION. What a slice decides of a job (R168–R185, R200–R210, R219, R253): its tenant, profile, lookups, search, filters, meters and
buckets. -/

namespace Sys2Proof.Machine

/-! ## The tenant (R20, R128, R129, R168) -/

/-- Word `w` of DISCOVER rule `i` under a plane tag. -/
def State.ruleWord (s : State) (tag i w : Nat) : Nat := s.pword 16 tag 0xE (8 * i + w)

/-- The outer tag is an S-tag with this VLAN ID (R20). -/
def sTag (bs : List Byte) : Option Nat := if halfAt bs 12 = 0x88A8 then some (halfAt bs 14 % 4096) else none

/-- The value of the chassis ID TLV right after the LLDP EtherType, at most 20 bytes (R127). -/
def chassisOf (bs : List Byte) : List Byte :=
  let at_ := if halfAt bs 12 = 0x88CC then 14 else 18
  ((bs.drop (at_ + 2)).take (halfAt bs at_ % 512)).take 20

/-- A rule's chassis ID bytes. -/
def State.ruleChassis (s : State) (tag i : Nat) : List Byte :=
  ((List.range 5).flatMap fun w => bytesLE 4 (s.ruleWord tag i (3 + w))).take (bits (s.ruleWord tag i 2) 4 0)

/-- A valid rule holds on the port. -/
def State.ruleOn (s : State) (tag i port : Nat) : Bool :=
  let w := s.ruleWord tag i 0
  bit w 35 && (bit w 17 || bits w 16 9 == port)

/-- A STAG rule matches the frame's S-tag. -/
def State.ruleStag (s : State) (tag i : Nat) (bs : List Byte) : Bool :=
  let w := s.ruleWord tag i 1
  match sTag bs with
  | some vid => bits (s.ruleWord tag i 0) 3 0 == 2 && ((vid ^^^ bits w 11 0) &&& bits w 23 12) == 0
  | none => false

/-- The tenant of an LLDP frame's partner (R129). -/
def State.partnerTenant (s : State) (tag port : Nat) (bs : List Byte) : Nat :=
  match s.exclusiveT tag port with
  | some p => p
  | none =>
    let hit := fun i =>
      s.ruleOn tag i port &&
        (match bits (s.ruleWord tag i 0) 3 0 with
         | 1 => true
         | 2 => s.ruleStag tag i bs
         | 3 => (chassisOf bs).take (bits (s.ruleWord tag i 2) 4 0) == s.ruleChassis tag i
         | _ => false)
    match (List.range 1024).find? hit with
    | some i => bits (s.ruleWord tag i 0) 8 4
    | none => 16

/-- The tenant of a frame (R20, R129, R168). -/
def State.frameTenant (s : State) (f : Frame) : Nat :=
  match f.injected with
  | some p => p
  | none =>
    if f.lldp then s.partnerTenant f.tag f.port f.bytes
    else match s.exclusiveT f.tag f.port with
      | some p => p
      | none =>
        let hit := fun i =>
          s.ruleOn f.tag i f.port && s.ruleStag f.tag i f.bytes &&
            (let t := bits (s.ruleWord f.tag i 0) 8 4
             t == 16 || (s.setFor f.tag t f.port).isSome)
        match (List.range 1024).find? hit with
        | some i => bits (s.ruleWord f.tag i 0) 8 4
        | none => 16

/-! ## Link partners (R130) -/

/-- An LLDP frame's partner: its slot is refreshed, or a free one taken with PARTNER_NEW. -/
def State.partnerSeen (s : State) (port t : Nat) (bs : List Byte) : State :=
  let c := chassisOf bs
  let key := (Config.chassisHash c).toNat
  let stampSlot := fun (s : State) i =>
    s.modPort port fun q => { q with timers := tabInsert q.timers (100 + i) s.time.cycles, chassis := tabInsert q.chassis i (ofLE (c.take 12)) }
  match (List.range 4).find? fun i => s.flag F.MAC_PARTNER.valid port i ∧ s.fget F.MAC_PARTNER.key port i = key with
  | some i => stampSlot s i
  | none => match (List.range 4).find? fun i => !s.flag F.MAC_PARTNER.valid port i with
    | some i => (stampSlot (s.wr .MAC_PARTNER port i (BitVec.ofNat 72 (2 ^ 35 + t * 2 ^ 30 + key))) i).partnerRecord port i 0x41
    | none => s

/-! ## Selection and extraction (R170–R175) -/

/-- A range of a PARTITION record holds an index. -/
def inRange (base count i : Nat) : Bool := decide (base ≤ i ∧ i < base + count)

/-- Word `w` of selector entry `e` of a scope. -/
def State.selWord (s : State) (tag t e w : Nat) : Nat := s.pword t tag 3 (e * 8 + w)

/-- Word `w` of profile `p` of a scope. -/
def State.profWord (s : State) (tag t p w : Nat) : Nat := s.pword t tag 3 (2048 + 40 * p + w)

/-- A selector entry selects its profile for a frame. -/
def State.selHit (s : State) (tag t e port pre : Nat) (bs : List Byte) : Bool :=
  let w := s.selWord tag t e
  let m := fun c => if c = 0 then bits (w 5) 31 16 else if c = 1 then bits (w 5) 15 0 else if c = 2 then bits (w 6) 31 16 else bits (w 6) 15 0
  bit (w 0) 35 && (bit (w 0) 34 || bits (w 0) 33 26 == port) && (bit (w 0) 25 || bits (w 0) 24 22 == pre) &&
    (List.range 4).all fun c => ((halfAt bs (2 * bits (w (1 + c)) 20 16) ^^^ bits (w (1 + c)) 15 0) &&& m c) == 0

/-- The profile that the selector gives a frame, in the tenant's range and defined (R170, R175). -/
def State.selectProfile (s : State) (tag t port pre : Nat) (bs : List Byte) : Option Nat :=
  let w := s.partWordT tag t 24
  match ((List.range (bits w 33 25)).map (· + bits w 24 17)).find? fun e => s.selHit tag t e port pre bs with
  | some e =>
    let p := bits (s.selWord tag t e 0) 7 0
    if inRange (bits w 7 0) (bits w 16 8) p && s.pword t tag 3 (16384 + p) == 1 then some p else none
  | none => none

/-- The value and width of field `i` of a profile: none where it is not in use (R172, R173). -/
def State.fieldOf (s : State) (f : Frame) (t prof i : Nat) : Option (Nat × Nat) :=
  let w := s.profWord f.tag t prof i
  if !bit w 35 then none
  else
    let n := bits w 17 12
    let v :=
      if bits w 34 32 = 1 then
        match bits w 31 24 with
        | 0 => if f.injected.isSome then 0 else f.port
        | 1 => t
        | 2 => f.pre
        | _ => f.known
      else numAt f.bytes 0 256 / 2 ^ (2048 - min 2048 (8 * bits w 31 24 + bits w 22 20 + n))
    some (v % 2 ^ n, n)

/-- The concatenation of the fields named by a mask, in ascending index. -/
def State.concatFields (s : State) (f : Frame) (t prof mask : Nat) : Nat × Nat :=
  (List.range 32).foldl (fun a i =>
    if bit mask i then
      match s.fieldOf f t prof i with
      | some (v, n) => (a.1 * 2 ^ n + v, a.2 + n)
      | none => a
    else a) (0, 0)

/-- The key of a width code, padded to its 144, 288 or 576 bits (R173). -/
def State.keyOf (s : State) (f : Frame) (t prof w : Nat) : Nat :=
  let (v, n) := s.concatFields f t prof (bits w 31 0)
  let total := 144 * widthUnits (bits w 33 32)
  if n ≤ total then v * 2 ^ (total - n) else v / 2 ^ (n - total)

/-! ## The table answer (R204–R209) -/

/-- The words of a unit of a replica, when the replica reads it. -/
def State.unitRead (s : State) (g u : Nat) : Option (List Nat) :=
  if s.unitsOk g u 1 then some ((List.range 4).map (unitW s.tbl.units u)) else none

/-- A valid action record of a partition as a replica reads it. -/
def State.actionRec (s : State) (g tag t idx : Nat) : Option (List Nat) :=
  let (base, size) := s.region tag t 2
  if size ≤ idx then none
  else match s.unitRead g (base + idx) with
    | some ws => if bit (ws.getD 0 0) 35 then some ws else none
    | none => none

/-- The kind of an action record; 5–7 are taken as DROP. -/
def actKind (ws : List Nat) : Nat := if 4 < bits (ws.getD 0 0) 34 32 then 3 else bits (ws.getD 0 0) 34 32

/-- The end of a step of R176: go on, drop with a code, or punt with a reason. -/
inductive Verdict where
  | go
  | drop (code : Nat)
  | punt (reason : Nat)
  deriving DecidableEq, Repr

/-- The number of the next-hop record that an action's hash picks (R205). -/
def State.memberOf (s : State) (f : Frame) (t prof : Nat) (ws : List Nat) : Nat :=
  let (v, n) := s.concatFields f t prof (bits (ws.getD 3 0) 31 0)
  let len := (n + 7) / 8
  let h := crc32c (bytesLE 4 (bits (s.carveWord f.tag t 5) 31 0) ++ bytesBE len (v * 2 ^ (8 * len - n)))
  bits (ws.getD 2 0) 21 0 + h * (bits (ws.getD 2 0) 27 22 + 1) / 2 ^ 32

/-- The next-hop record that an action's hash picks (R205, R206). -/
def State.nextHop (s : State) (g : Nat) (f : Frame) (t prof : Nat) (ws : List Nat) : Option (Nat × Nat) :=
  let m := s.memberOf f t prof ws
  let (base, size) := s.region f.tag t 3
  if size ≤ m / 2 then none
  else match s.unitRead g (base + m / 2) with
    | some u => some (u.getD (2 * (m % 2)) 0, u.getD (2 * (m % 2) + 1) 0)
    | none => some (0, 2 ^ 36)

/-- The records that an action index leads to meet an uncorrectable unit (R225). -/
def State.recMeets (s : State) (g : Nat) (f : Frame) (t prof idx : Nat) : Bool :=
  let (ab, an) := s.region f.tag t 2
  let (nb, nn) := s.region f.tag t 3
  decide (idx < an) && s.meetsBad g (ab + idx) 1 ||
    match s.actionRec g f.tag t idx with
    | some ws => actKind ws == 2 && decide (s.memberOf f t prof ws / 2 < nn) && s.meetsBad g (nb + s.memberOf f t prof ws / 2) 1
    | none => false

/-- What an action record makes of the result (R205, R209); a unit that cannot be read gives none, for the miss treatment (R225). -/
def State.resolve (s : State) (g : Nat) (f : Frame) (t prof : Nat) (ws : List Nat) (r : Result) : Option (Result × Verdict) :=
  let w0 := ws.getD 0 0
  let r1 := if bit w0 31 then { r with edit := bits w0 30 19, md := ws.getD 1 0 } else { r with md := ws.getD 1 0 }
  match actKind ws with
  | 0 => some ({ r1 with kind := 0, dest := bits w0 18 11 }, .go)
  | 1 =>
    let w2 := ws.getD 2 0
    let add := if bit w2 21 then ((s.fieldOf f t prof (bits w2 20 16)).map Prod.fst).getD 0 else 0
    let grp := bits w2 15 0 + add
    if bits (s.carveWord f.tag t 6) 16 0 ≤ grp then some (r, .drop 5) else some ({ r1 with kind := 1, dest := grp }, .go)
  | 2 => match s.nextHop g f t prof ws with
    | some (n0, n1) =>
      if n1 = 2 ^ 36 then none
      else if !bit n0 35 then some (r, .drop 5)
      else some ({ r with kind := 0, dest := bits n0 34 27, edit := bits n0 26 15, md := n1 }, .go)
    | none => some (r, .drop 5)
  | 4 => some (r, .punt 6)
  | _ => some (r, .drop 5)

/-- The miss treatment of a profile (R193, R208): `miss_act` counts as a hit of its action; an action that cannot be used then drops. -/
def State.missAnswer (s : State) (g : Nat) (f : Frame) (t prof : Nat) (r : Result) : Result × Verdict :=
  let w := s.carveProfile f.tag t prof
  match bits w 33 32 with
  | 1 => (r, .punt 6)
  | 2 => match (s.actionRec g f.tag t (bits w 20 0)).bind fun ws => s.resolve g f t prof ws r with
    | some a => a
    | none => (r, .drop 5)
  | _ => (r, .drop 5)

/-- One exact-match lookup: its hit, the counters, the hit bit it sets when `mark`. -/
def State.emStep (s : State) (g : Nat) (f : Frame) (t prof w : Nat) (mark : Bool) : Option (Nat × EmEntry) × State :=
  let c := bits w 33 32
  if c = 0 then (none, s)
  else
    let key := s.keyOf f t prof w / 2 ^ 36
    let hit := s.emLookup g f.tag t c key
    let met := s.emMeetsBad g f.tag t c key || hit.any fun x => s.recMeets g f t prof (bits x.2.ctl 20 0)
    let s := if met then s.tblCount t 12 else s
    match hit with
    | some (u, e) =>
      let s := s.tblCount t 0
      (some (u, e), if mark then { s with tbl := { s.tbl with hits := tabSet 0 s.tbl.hits u (tabGet 0 s.tbl.hits u ||| 2 ^ g) } } else s)
    | none => (none, s.tblCount t 1)

/-- The longest-prefix lookup of a profile (R203). -/
def State.lpmStep (s : State) (g : Nat) (f : Frame) (t prof : Nat) : Option Prefix × State :=
  let w := s.profWord f.tag t prof 35
  if !bit w 35 then (none, s)
  else
    let val := fun i => ((s.fieldOf f t prof (i % 32)).map Prod.fst).getD 0
    let a := bits w 33 29
    let vrf := if bit w 28 then val (bits w 27 23) % 4096 else 0
    let addr := if bit w 34 then ((val a * 2 ^ 32 + val (a + 1)) * 2 ^ 32 + val (a + 2)) * 2 ^ 32 + val (a + 3) else val a
    let hit := s.lpmLookup g f.tag t (bit w 34) vrf addr
    let met := ((s.lpmMatches f.tag t (bit w 34) vrf addr).any fun e => e.units.any fun u => s.meetsBad g u 1) ||
      hit.any fun e => s.recMeets g f t prof e.action
    let s := if met then s.tblCount t 12 else s
    (hit, s.tblCount t (if hit.isSome then 2 else 3))

/-- The learn notification that key 2 raises (R219). -/
def State.learnStep (s : State) (g n : Nat) (f : Frame) (t prof : Nat) (hit : Option (Nat × EmEntry)) : State :=
  let w := s.profWord f.tag t prof 34
  if f.injected.isSome ∨ bits w 33 32 ≠ 1 ∨ !bit (s.carveProfile f.tag t prof) 35 then s
  else
    let key := s.keyOf f t prof w / 2 ^ 36
    match hit with
    | none => s.learnRaise g n t key f.port 1 prof 0 0
    | some (_, e) =>
      if bit e.ctl 34 ∨ !s.flag F.TBL_LEARN.move_en t then s
      else match s.actionRec g f.tag t (bits e.ctl 20 0) with
        | some ws =>
          if actKind ws = 0 ∧ bits (ws.getD 0 0) 18 11 ≠ f.port then
            s.learnRaise g n t key f.port 2 prof (bits (ws.getD 0 0) 18 11) e.ctl
          else s
        | none => s

/-- Step 2 of R176: the lookups and the table answer (R208). -/
def State.tableStep (s : State) (g n : Nat) (f : Frame) (t prof : Nat) (r : Result) : (Result × Verdict) × State :=
  let (h1, s) := s.emStep g f t prof (s.profWord f.tag t prof 33) (!s.flag F.TBL_AGE.src_hit t)
  let (h2, s) := s.emStep g f t prof (s.profWord f.tag t prof 34) true
  let (lp, s) := s.lpmStep g f t prof
  let s := s.learnStep g n f t prof h2
  let act2 := h2.bind fun x => s.actionRec g f.tag t (bits x.2.ctl 20 0)
  let em := h1.map fun x => bits x.2.ctl 20 0
  let lpm := lp.map Prefix.action
  let idx := if bit (s.carveProfile f.tag t prof) 34 then lpm.orElse fun _ => em else em.orElse fun _ => lpm
  let ans :=
    match act2.bind fun ws => if actKind ws = 3 ∨ actKind ws = 4 then s.resolve g f t prof ws r else none with
    | some a => a
    | none => match (idx.bind fun i => s.actionRec g f.tag t i).bind fun ws => s.resolve g f t prof ws r with
      | some a => a
      | none => s.missAnswer g f t prof r
  (ans, s)

/-! ## The search step (R177, R243, R253) -/

/-- What a search action makes of a result (R177): with its meter and stream filter. -/
def searchAction (act : Nat) (r : Result) : Result :=
  let r := if bit act 35 then { r with cls := bits act 34 32, qclass := bits act 34 32 } else r
  let r := if bit act 31 then { r with colour := min 2 (bits act 30 29) } else r
  let r := if bit act 28 then { r with qclass := bits act 27 25 } else r
  if bit act 23 then { r with mirrorEn := true, mirror := bits act 22 19 } else r

/-- Step 3 of R176: the match counts (R252), whatever `rd` tells of the read of its rows and action word (R253). Answers the result, the
meter, the filter and the verdict. -/
def State.searchStep (s : State) (g : Nat) (f : Frame) (t prof : Nat) (rd : MatchRead) (r : Result) :
    (Result × Option Nat × Nat × Verdict) × State :=
  let w := s.profWord f.tag t prof 36
  let c := bits w 33 32
  let k := s.keyOf f t prof w
  let n := 4 * widthUnits c
  let key := (List.range n).map fun j => k / 2 ^ (36 * (n - 1 - j)) % 2 ^ 36
  match s.tcmSearch g f.tag t prof c key with
  | none =>
    let s := s.bump F.PRS_CNT.count t 9
    ((r, none, 0, if bit (s.profWord f.tag t prof 37) 1 then .punt 4 else .go), s)
  | some (_, b, row) =>
    let act := (s.tcmRow b row).action
    let found := (searchAction act r, (if bit act 18 then some (bits act 17 8) else none), bits act 7 0, if bit act 24 then .punt 5 else Verdict.go)
    let s := s.tcmHit g b row
    match rd with
    | .good => (found, s)
    | .corrected => (found, s.tcmCorrected g (s.physOf g b) row)
    | .row i => ((r, none, 0, .drop 5), s.tcmRowFail g (s.physOf g b) (row + i) false)
    | .action => ((r, none, 0, .drop 5), s.tcmRowFail g (s.physOf g b) row true)

/-! ## Filters, meters and buckets (R178–R183) -/

/-- Bytes of a frame as a meter counts them (R179). -/
def metered (f : Frame) : Nat := if f.known = 0 then 256 else f.known

/-- A fill refilled at a rate per core clock up to its depth, and what overflowed. -/
def refill (fill rate clocks depth : Nat) : Nat × Nat := (min depth (fill + rate * clocks), fill + rate * clocks - depth)

/-- A bucket; one not yet used is full. DESIGN CHOICE, log entry 35. -/
def State.bucket (s : State) (k c e : Nat) : Bucket := (tabFind s.buckets k).getD { c := c, e := e, last := s.time.cycles }

/-- Store a bucket. -/
def State.setBucket (s : State) (k : Nat) (b : Bucket) : State := { s with buckets := tabInsert s.buckets k b }

/-- One byte in the unit of meter and admission tokens. DESIGN CHOICE, log entry 35. -/
def tokByte : Nat := 12800000

/-- Word `w` of meter `m` of a scope. -/
def State.meterWord (s : State) (tag t m w : Nat) : Nat := s.pword t tag 6 (m * 4 + w)

/-- A meter marks a frame (R179): RFC 2698, or RFC 4115 with the coupling by which committed overflow feeds the excess bucket. -/
def State.meterStep (s : State) (g : Nat) (f : Frame) (t m : Nat) (pre : Nat) : Nat × State :=
  let w := s.meterWord f.tag t m
  let n := metered f * tokByte
  let cd := bits (w 3) 17 0 * 64 * tokByte
  let ed := bits (w 3) 35 18 * 64 * tokByte
  let key := (g * 32 + t) * 1024 + m
  let b := s.bucket key cd ed
  let dt := s.time.cycles - b.last
  let (c, spill) := refill b.c (bits (w 1) 31 0) dt cd
  let (e, _) := refill b.e (bits (w 2) 31 0) dt ed
  let aware := bit (w 0) 32
  let put := fun (c e : Nat) => s.setBucket key { c := c, e := e, last := s.time.cycles }
  if bits (w 0) 34 33 = 0 then
    if (aware ∧ pre = 2) ∨ e < n then (2, put c e)
    else if (aware ∧ pre = 1) ∨ c < n then (max 1 pre, put c (e - n))
    else (pre, put (c - n) (e - n))
  else
    let e := if bit (w 0) 31 then min ed (e + spill) else e
    if (!aware ∨ pre = 0) ∧ n ≤ c then (pre, put (c - n) e)
    else if (!aware ∨ pre < 2) ∧ n ≤ e then (max 1 pre, put c (e - n))
    else (2, put c e)

/-- The frame's length exceeds a filter's `max_sdu`; one of unknown length only below 256 (R178). -/
def overSdu (sdu known : Nat) : Bool := decide (sdu ≠ 0 ∧ (if known = 0 then sdu < 256 else sdu < known))

/-- Step 5 of R176 (R178): whether the filter drops the frame, and the meter in force. -/
def State.filterStep (s : State) (g : Nat) (f : Frame) (t n : Nat) (meter : Option Nat) : Bool × Option Nat × State :=
  let w := fun i => s.pword t f.tag 6 (4096 + 2 * n + i)
  let w0 := w 0
  if n = 0 ∨ !bit w0 35 then (false, meter, s)
  else
    let k := t * 256 + n
    if overSdu (bits (w 1) 13 0) f.known then
      (true, meter, if bit w0 34 then { s with blocked := tabSet 0 s.blocked k (tabGet 0 s.blocked k ||| 2 ^ g) } else s)
    else if bit (tabGet 0 s.blocked k) g then (true, meter, s)
    else if bit w0 33 && !s.gateOpen (bits w0 29 22) f.tag (bits w0 32 30) (f.tHand.getD s.time.now) then (true, meter, s)
    else (false, if bit w0 21 then some (bits w0 20 11) else meter, s)

/-- Step 6 of R176: the colour after the meter, and whether it drops the frame. -/
def State.policeStep (s : State) (g : Nat) (f : Frame) (t : Nat) (meter : Option Nat) (pre : Nat) : Nat × Bool × State :=
  match meter with
  | none => (pre, false, s)
  | some m =>
    let w0 := s.meterWord f.tag t m 0
    if !bit w0 35 then (pre, false, s)
    else
      let (col, s) := s.meterStep g f t m pre
      if col = 2 ∧ bit w0 30 then (col, true, s)
      else (col, false, if col = 2 then s.bump F.PRS_CNT.count t 10 else s)

/-- Step 8 of R176 (R181): the express admission bucket of a partition in a group. -/
def State.admitStep (s : State) (g : Nat) (f : Frame) (t : Nat) : Bool × State :=
  let rate := s.fget F.PRS_ADMIT.rate t g
  let depth := s.fget F.PRS_ADMIT.burst t g * 64 * tokByte
  let n := (if f.known = 0 then s.maxFrame f.tag f.port else f.known) * tokByte
  let key := 2 ^ 24 + g * 32 + t
  let b := s.bucket key depth 0
  let (c, _) := refill b.c (rate * 1000) (s.time.cycles - b.last) depth
  if rate = 0 then (false, s)
  else if c < n then (false, s.setBucket key { c := c, last := s.time.cycles })
  else (true, s.setBucket key { c := c - n, last := s.time.cycles })

/-- One packet in the unit of punt tokens. DESIGN CHOICE, log entry 35. -/
def tokPacket : Nat := 1600000000

/-- Step 9 of R176 (R183): the punt bucket of a partition and reason. -/
def State.puntStep (s : State) (t reason : Nat) : Bool × State :=
  let rate := s.fget F.PRS_PUNT.rate t (reason - 1)
  let depth := max 1 (s.fget F.PRS_PUNT.burst t (reason - 1)) * tokPacket
  let key := 2 ^ 25 + t * 8 + reason
  let b := s.bucket key depth 0
  let (c, _) := refill b.c rate (s.time.cycles - b.last) depth
  if rate = 0 ∨ c < tokPacket then (false, s.setBucket key { c := c, last := s.time.cycles })
  else (true, s.setBucket key { c := c - tokPacket, last := s.time.cycles })

/-! ## The order of R176 -/

/-- Steps 4–8 for a frame not yet punted or dropped. DEDUCED, log entry 36. -/
def State.lateSteps (s : State) (g : Nat) (f : Frame) (t : Nat) (r : Result) (meter : Option Nat) (filt : Nat) :
    (Result × Verdict) × State :=
  if !s.editOk f.tag t r.edit then ((r, .drop 5), s)
  else
    let (cut, meter, s) := s.filterStep g f t filt meter
    if cut then ((r, .drop 2), s)
    else
      let (col, cut, s) := s.policeStep g f t meter r.colour
      let r := { r with colour := col }
      if cut then ((r, .drop 3), s)
      else
        let demote := r.qclass = 7 ∧ !f.express
        let s := if demote then s.bump F.PRS_CNT.count t 7 else s
        let r := if demote then { r with qclass := 6 } else r
        if r.qclass = 7 then
          let (ok, s) := s.admitStep g f t
          ((r, if ok then .go else .drop 4), s)
        else ((r, .go), s)

/-- Steps 1–8 for a frame that a profile describes. -/
def State.profileSteps (s : State) (g n : Nat) (f : Frame) (t prof : Nat) (rd : MatchRead) (r : Result) : (Result × Verdict) × State :=
  let w := s.profWord f.tag t prof
  let cls := if bit (w 37) 3 then f.pre else bits (w 37) 6 4
  let r := { r with cls := cls, qclass := cls, edit := bits (w 37) 18 7, l3 := bits (w 32) 16 9, l4 := bits (w 32) 24 17, l5 := bits (w 32) 32 25 }
  if f.known ≠ 0 ∧ f.known < bits (w 32) 8 0 then ((r, if bit (w 37) 0 then .punt 1 else .drop 1), s)
  else if bit (w 37) 2 then ((r, .punt 3), s)
  else
    let ((r, v), s) := s.tableStep g n f t prof r
    if v ≠ .go then ((r, v), s)
    else
      let ((r, meter, filt, v), s) := s.searchStep g f t prof rd r
      if v ≠ .go then ((r, v), s) else s.lateSteps g f t r meter filt

/-- A DROP result, counted against the tenant (R31, R185). -/
def State.dropResult (s : State) (r : Result) (code : Nat) : Result × State :=
  ({ r with kind := 3, dest := code }, s.bump F.PRS_CNT.count r.tenant code)

/-- The result of a job (R168–R185). DEDUCED, log entry 36. -/
def State.classify (s : State) (g n : Nat) (f : Frame) (rd : MatchRead) : Result × State :=
  let t := s.frameTenant f
  let r : Result := { kind := 0, dest := 0, tenant := t, qset := if t < 16 then t else 0 }
  let s := s.bump F.PRS_CNT.count t 0
  let ((r, v), s) :=
    if f.lldp then ((r, .punt 2), s)
    else match s.selectProfile f.tag t (if f.injected.isSome then 255 else f.port) f.pre f.bytes with
      | some p => s.profileSteps g n f t p rd r
      | none => ((r, if s.flag F.PRS_TEN.nomatch_punt t then .punt 1 else .drop 1), s)
  match v with
  | .go => (if r.kind = 0 ∧ t = 16 then { r with qset := s.ownerSet f.tag r.dest } else r, s)
  | .drop code => s.dropResult r code
  | .punt reason =>
    let (ok, s) := s.puntStep t reason
    let r := { r with reason := reason }
    if ok then ({ r with kind := 2, dest := s.fget F.PRS_PUNT.queue t (reason - 1) }, s.bump F.PRS_CNT.count t 8) else s.dropResult r 6

/-- The banks that the tenant of a job may read wake (R229, R258). -/
def State.wakeBanks (s : State) (g tag t : Nat) : State :=
  let banks := (List.range 5).flatMap fun k =>
    let (base, size) := s.region tag t k
    if size = 0 then [] else (List.range (unitBank (base + size - 1) + 1 - unitBank base)).map fun i => tblBankUnit g (unitBank base + i)
  let tcm := ((List.range 32).filter fun b => bit (s.partWordT tag t 20) b).map fun b => tcmUnit g (s.physOf g b)
  { s with tbl := { s.tbl with
    asleep := s.tbl.asleep.filter fun u => !banks.contains u, tcmSleep := s.tbl.tcmSleep.filter fun u => !tcm.contains u } }

/-- The result of a job whose frame is dropped already: nothing more is counted of it (R31). -/
def State.droppedResult (s : State) (f : Frame) : Result := { kind := 3, dest := 0, tenant := s.frameTenant f }

/-- The result of the job of a frame in the group's store: none of one dropped already, which nothing more counts (R31). `bad` and `rd` are what
the lookups and the search found. -/
def State.jobResult (s : State) (g n : Nat) (f : Frame) (bad : List Nat) (rd : MatchRead) : Result × State :=
  if f.failed then (s.droppedResult f, s)
  else
    let s := (byUnit (fun u => tblBankUnit g (unitBank u)) bad).foldl (fun s u => s.tblUncorr g u) s
    let (r, s) := (s.wakeBanks g f.tag (s.frameTenant f)).classify g n f rd
    (r, if f.lldp then s.partnerSeen f.port r.tenant f.bytes else s)

/-- SLICE_RESULT (R185): the oldest job of a slice's pipeline returns its result to the reorder stage, or is STALE there (R164). `bad` are
the table units that its lookups found uncorrectable (R226), taken lowest unit first (R15), `rd` what the read of its matched search entry found
(R253). A job whose frame is dropped already is classified no more. DEDUCED, log entry 36. -/
def execSliceResult (group slice : Nat) (bad : List Nat) (rd : MatchRead) (s : State) : Host.Outcome State Fault Refusal :=
  s.act fun s =>
    match (s.slice group slice).pipe with
    | [] => s
    | id :: rest =>
      let s := s.modJobs group slice fun q => { q with pipe := rest }
      match s.frame id with
      | none => s
      | some f =>
        let s := if max 352 (s.fget F.SPR_SLOW.mark group) < s.time.cycles - f.took.getD s.time.cycles then s.slowJob group slice else s
        if (s.group group).store.contains id then
          let (r, s) := s.jobResult group slice f bad rd
          (s.modFrame id fun f => { f with result := some r, slice := some slice, tResult := some s.time.now }).showGroup group
        else ((s.sprCount group 5).frameGone id).showGroup group

end Sys2Proof.Machine
end

