-- ==== Sys2Proof/Machine/Switch.lean ====
section
/-! DEFINITION. The switch core (R279–R291): results taken from the reorder stage, the quota move, punts, multicast copies and mirror
copies. -/

namespace Sys2Proof.Machine

/-! ## The end of a frame's handling -/

/-- The switch core is done with a frame's result: one without a copy is freed (R275), and leaves once it has ended. -/
def State.settleFrame (s : State) (id : Nat) : State :=
  match s.frame id with
  | none => s
  | some f =>
    let s := match f.trace with
      | some n => (s.modTrace n fun t => { t with made := true }).traceClose n
      | none => s
    if f.copies ≠ 0 then s
    else
      let s := s.freeDropped f.handle
      if f.ended then s.frameGone id else (s.modFrame id fun f => { f with alloc := false }).refreshOld

/-- A copy of a frame for a port, before it is numbered. -/
def copyFor (id : Nat) (f : Frame) (r : Result) (port set qclass edit : Nat) : Copy :=
  { id := 0, frame := id, handle := f.handle, len := f.len, part := r.tenant, port := port, set := set, qclass := qclass, cls := r.cls,
    colour := r.colour, tag := f.tag, edit := edit, md := r.md, l3 := r.l3, l4 := r.l4, l5 := r.l5, inPort := f.port, rx := f.rx }

/-! ## Punts (R279, R408) -/

/-- The first three words of a result (R185). -/
def resultWords (f : Frame) (r : Result) : List Nat :=
  [r.kind * 2 ^ 34 + r.dest % 2 ^ 16 * 2 ^ 18 + r.tenant * 2 ^ 13 + r.qset * 2 ^ 9 + r.cls * 2 ^ 6 + r.qclass * 2 ^ 3 + r.colour * 2 + f.tag,
   r.edit * 2 ^ 24 + (if r.mirrorEn then 2 ^ 23 else 0) + r.mirror * 2 ^ 19 + r.reason * 2 ^ 13 + (if f.express then 2 ^ 12 else 0) +
     (if f.injected.isSome then 2 ^ 11 else 0),
   r.l3 * 2 ^ 28 + r.l4 * 2 ^ 20 + r.l5 * 2 ^ 12]

/-- A punt copy goes to its tenant's punt queue, or is a tail drop (R279). -/
def State.puntCopy (s : State) (id : Nat) (f : Frame) (r : Result) : State :=
  let k := r.tenant * 16 + r.dest
  let l := tabGet [] s.punts k
  if max 1 (s.fget F.SWC_CFG.punt_limit) ≤ l.length then s.swcCount r.tenant 7
  else
    let (tr, s) := s.traceCopy f.trace
    let ws := resultWords f r
    let p : Punt := { frame := id, handle := f.handle, words := ws ++ [r.md], inPort := f.port, len := f.known, rx := f.rx, trace := tr,
                      tEnq := some s.time.now, queue := r.dest, part := r.tenant }
    let s := { s with punts := tabSet [] s.punts k (l ++ [p]) }
    let s := (s.modFrame id fun f => { f with copies := f.copies + 1 }).swcCount r.tenant 15
    (s.balAdd r.tenant 6).queueSignal r.tenant 0x00A r.dest 9 fun t => s.mayPop t r.dest

/-! ## Multicast (R284) -/

/-- The group record and copy words of a frame's group, as the frame's replica reads them; none when a unit cannot be read. -/
def State.groupList (s : State) (g tag t q : Nat) : Option (Nat × List Nat) :=
  let (base, size) := s.region tag t 4
  if size ≤ q / 4 then some (0, [])
  else match s.unitRead g (base + q / 4) with
    | none => none
    | some u =>
      let w := u.getD (q % 4) 0
      if !bit w 35 then some (w, [])
      else
        let n := bits w 33 22 + 1
        let b := bits w 20 0
        let n := min n (4 * (size - b))
        if (List.range ((n + 3) / 4)).all fun i => s.unitsOk g (base + b + i) 1 then
          some (w, (List.range n).map fun i => unitW s.tbl.units (base + b + i / 4) (i % 4))
        else none

/-- Enqueue one copy of a frame; the copy as enqueued is added to a list. -/
def State.makeCopy (s : State) (acc : List Copy) (c : Copy) (holder : Nat) (trace : Option Nat) : List Copy × State :=
  let (why, s) := s.enqueue c holder trace
  (if why = 0 then acc ++ [c] else acc, s)

/-- The copies of a group, in list order. -/
def State.mcastCopies (s : State) (id : Nat) (f : Frame) (r : Result) (prune : Bool) : List Nat → List Copy → List Copy × State
  | [], acc => (acc, s)
  | w :: ws, acc =>
    let port := bits w 35 28
    if prune ∧ f.injected.isNone ∧ port = f.port then s.mcastCopies id f r prune ws acc
    else
      let qc := if bit w 27 then bits w 26 24 else r.qclass
      let demote := qc = 7 ∧ !f.express
      let s := if demote then s.swcCount r.tenant 4 else s
      let c := copyFor id f r port ((s.setFor f.tag r.tenant port).getD 0) (if demote then 6 else qc) (bits w 23 12)
      let (acc, s) := (s.swcCount r.tenant 2).makeCopy acc c r.tenant f.trace
      s.mcastCopies id f r prune ws acc

/-! ## Mirroring (R285–R288) -/

/-- The session that the watch list gives a frame. -/
def State.watchSession (s : State) (r : Result) : Option Nat :=
  (s.watch.find? fun e => bit e.2.1 35 ∧ bits e.2.1 30 26 = r.tenant ∧ e.2.2 = r.md).map fun e => bits e.2.1 34 31

/-- The as-received sessions of a frame, ascending, each once. -/
def State.inSessions (s : State) (f : Frame) (r : Result) : List Nat :=
  let a := if f.injected.isNone ∧ s.flag F.SWC_PMIR.in_en 0 f.port then [s.fget F.SWC_PMIR.in_sess 0 f.port] else []
  let b := if r.mirrorEn then [r.mirror] else []
  let c := (s.watchSession r).toList
  (List.range 16).filter fun n => (a ++ b ++ c).contains n

/-- One candidate mirror copy of a session (R287): denied, sampled out, or made. `like` is the copy it mirrors, or the frame's own. -/
def State.mirrorCopy (s : State) (g : Nat) (like : Copy) (asSent : Bool) (sess : Nat) (trace : Option Nat) : State :=
  let a := (s.rd .SWC_MIR_A 0 sess).toNat
  let p := like.part
  if !bit a 35 ∨ !bit a p then s.swcCount p 13
  else
    let k := g * 16 + sess
    let n := tabGet 0 s.mirrors k + 1
    if n < s.fget F.SWC_MIR_B.sample 0 sess then { s with mirrors := tabSet 0 s.mirrors k n }.swcCount p 12
    else
      let s := { s with mirrors := tabSet 0 s.mirrors k 0 }
      let port := bits a 25 18
      let set := bits a 29 26
      let trunc := match bits a 34 33 with | 0 => 0 | 1 => 128 | 2 => 256 | _ => 512
      let c : Copy := { like with port := port, set := set, qclass := min 6 (bits a 32 30), mirror := true, trunc := trunc,
                                  edit := if asSent then like.edit else 0 }
      (s.enqueue c (s.setPart like.tag port set) trace).2

/-- The mirror copies of a frame whose own copies are made (R286). -/
def State.mirrorCopies (s : State) (g : Nat) (made : List Copy) (like : Copy) (sess : List Nat) (trace : Option Nat) : State :=
  let s := made.foldl (fun s c =>
    if s.flag F.SWC_PMIR.eg_en 0 c.port then s.mirrorCopy g c true (s.fget F.SWC_PMIR.eg_sess 0 c.port) trace else s) s
  sess.foldl (fun s n => s.mirrorCopy g like false n trace) s

/-- A result needs the copy engine (R284). -/
def State.needsEngine (s : State) (f : Frame) (r : Result) : Bool :=
  decide (r.kind ≠ 3) && (r.kind = 1 || s.inSessions f r ≠ [] || (r.kind = 0 && s.flag F.SWC_PMIR.eg_en 0 r.dest))

/-! ## Taking a result (R279) -/

/-- An account is one of partition `t`, or of none. -/
def acctOf (t : Nat) : Acct → Bool
  | .quota p | .common p => p = t
  | .none => true
  | _ => false

/-- The frame's charge moves to the tenant that the result names (R21, R277); none is QUOTA. A buffer charged to the tenant already keeps its
account, and a QUARANTINED one its partition (R276). -/
def State.quotaMove (s : State) (f : Frame) (t : Nat) : Option State :=
  match s.buf f.handle with
  | none => some s
  | some b =>
    let u := poolCharge (handlePool f.handle)
    if b.quar ∨ acctOf t b.acct then some s
    else
      match s.admitPart f.tag t u with
      | none => none
      | some new => some (((s.uncharge b.acct u).charge new u).setBuf f.handle { b with acct := new, part := t })

/-- The frame's own copy of a UNICAST or PUNT result, and the copies made. -/
def State.ownCopy (s : State) (id : Nat) (f : Frame) (r : Result) : List Copy × State :=
  if r.kind = 2 then ([], s.puntCopy id f r)
  else s.makeCopy [] (copyFor id f r r.dest r.qset r.qclass r.edit) r.tenant f.trace

/-- The copies that the list of a MULTICAST result's group gives; none where its records cannot be read. -/
def State.listCopies (s : State) (g id : Nat) (f : Frame) (r : Result) : Option (List Copy × State) :=
  (s.groupList g f.tag r.tenant r.dest).map fun (w, ws) =>
    if !bit w 35 then ([], s.bump F.PRS_CNT.count r.tenant 5)
    else
      let s := s.swcCount r.tenant 1
      let kept := ws.filter fun w' => !(bit w 34 && f.injected.isNone && decide (bits w' 35 28 = f.port))
      if kept = [] then ([], s.swcCount r.tenant 3) else s.mcastCopies id f r (bit w 34) ws []

/-- What a frame becomes when its group's records cannot be read: its profile's miss treatment (R225), which drops it where it names a group
whose records cannot be read either. DEDUCED, log entry 41. -/
def State.groupMiss (s : State) (g id : Nat) (f : Frame) (r : Result) : List Copy × State :=
  match s.selectProfile f.tag r.tenant (if f.injected.isSome then 255 else f.port) f.pre f.bytes with
  | none => ([], s.bump F.PRS_CNT.count r.tenant 5)
  | some prof =>
    let (n, v) := s.missAnswer g f r.tenant prof r
    match v with
    | .go =>
      if n.kind = 0 then s.ownCopy id f { n with qset := if n.tenant = 16 then s.ownerSet f.tag n.dest else n.tenant }
      else (s.listCopies g id f n).getD ([], s.bump F.PRS_CNT.count r.tenant 5)
    | .drop c => ([], s.bump F.PRS_CNT.count r.tenant c)
    | .punt reason =>
      let (ok, s) := s.puntStep r.tenant reason
      if ok then s.ownCopy id f { n with kind := 2, reason := reason, dest := s.fget F.PRS_PUNT.queue r.tenant (reason - 1) }
      else ([], s.bump F.PRS_CNT.count r.tenant 6)

/-- The copies of a MULTICAST result. DEDUCED, log entry 41. -/
def State.groupCopies (s : State) (g id : Nat) (f : Frame) (r : Result) : List Copy × State :=
  (s.listCopies g id f r).getD (s.groupMiss g id f r)

/-- All copies of a result: the frame's own, then the mirror copies. -/
def State.resultCopies (s : State) (g id : Nat) (f : Frame) (r : Result) : State :=
  let (made, s) := if r.kind = 1 then s.groupCopies g id f r else s.ownCopy id f r
  let like := copyFor id f r 0 0 r.qclass 0
  (s.mirrorCopies g made like (s.inSessions f r) f.trace).settleFrame id

/-- The part of a result's taking that comes before its copies: the balance, the trace, the drop, the quota move. Answers whether copies
are still to be made. -/
def State.takeResult (s : State) (id : Nat) (f : Frame) (r : Result) : Bool × State :=
  let s := s.balSub f.owner 5
  let s := if f.injected.isSome then s else s.drop F.BPM_PORTUSE.frames 0 f.port
  let s := s.traceRx f (if r.kind = 2 then r.reason else if r.kind = 3 then r.dest else 0)
  let s := s.modFrame id fun f => { f with switched := true }
  if r.kind = 3 then (false, (s.balAdd f.owner 2).settleFrame id)
  else
    let s := s.balAdd f.owner 3
    match s.quotaMove f r.tenant with
    | none => (false, (s.swcCount r.tenant 5).settleFrame id)
    | some s => (true, s)

/-- None of some results is of the port and sequence of a frame. -/
def State.noneOfSeq (s : State) (f : Frame) (l : List Nat) : Bool :=
  l.all fun e => match s.frame e with
    | some h => decide (seqKey h ≠ seqKey f)
    | none => true

/-- A released result may be taken: no result of its port and sequence is released before it, and, where it does not go to the copy engine
itself, none waits there (R284). -/
def State.takable (s : State) (g id : Nat) : Bool :=
  match s.frame id with
  | none => true
  | some f =>
    let engine := match f.result with | some r => s.needsEngine f r && !f.failed | none => false
    s.noneOfSeq f ((s.group g).released.takeWhile (· ≠ id)) && (engine || s.noneOfSeq f (s.group g).copyFifo)

/-- SWITCH_RESULT (R279): the switch core takes the next released result of a group; one that needs the copy engine goes into its FIFO. -/
def execSwitchResult (group : Nat) (s : State) : Host.Outcome State Fault Refusal :=
  s.act fun s =>
    match (s.group group).released.find? fun id => s.takable group id with
    | none => s
    | some id =>
      let pop := fun (s : State) => s.modGroup group fun q => { q with released := q.released.filter (· ≠ id) }
      match s.frame id with
      | none => pop s
      | some f =>
        match f.result with
        | none => pop s
        | some r =>
          if f.failed then (pop s).frameGone id
          else
            let eng := s.needsEngine f r
            if eng ∧ 256 ≤ (s.group group).copyFifo.length then s
            else
              let (go, s) := (pop s).takeResult id f r
              if !go then s
              else if eng then s.modGroup group fun q => { q with copyFifo := q.copyFifo ++ [id] }
              else s.resultCopies group id f r

/-- COPY_ENGINE_RESULT (R284): the copy engine of a group makes the copies of its next result, express ones first. -/
def execCopyEngineResult (group : Nat) (s : State) : Host.Outcome State Fault Refusal :=
  s.act fun s =>
    let l := (s.group group).copyFifo
    let exp := l.find? fun id => match s.frame id with | some f => f.express | none => false
    match exp.orElse fun _ => l.head? with
    | none => s
    | some id =>
      let s := s.modGroup group fun q => { q with copyFifo := q.copyFifo.filter (· ≠ id) }
      match s.frame id with
      | none => s
      | some f =>
        match f.result with
        | none => s
        | some r => if f.failed then s.settleFrame id else s.resultCopies group id f r

/-! ## The watch list (R291) -/

/-- A write of `SWC_WATCH_CMD` with `go` carries out the access (R288, R291). -/
def State.effWatchCmd (s : State) (f : Func) (v : Nat) : State :=
  let c := f.idx
  if !bit v 35 then s
  else
    let i := bits v 11 0
    if bit v 34 then
      let w0 := (s.rd .SWC_WATCH0 c).toNat
      if 17 ≤ bits w0 30 26 then s.fset F.SWC_WATCH_CMD.result c 0 1
      else { s with watch := tabSet (0, 0) s.watch i (w0, (s.rd .SWC_WATCH1 c).toNat) }.fset F.SWC_WATCH_CMD.result c 0 0
    else
      let (w0, w1) := tabGet (0, 0) s.watch i
      ((s.wr .SWC_WATCH0 c 0 (BitVec.ofNat 72 w0)).wr .SWC_WATCH1 c 0 (BitVec.ofNat 72 w1)).fset F.SWC_WATCH_CMD.result c 0 0

end Sys2Proof.Machine
end

