-- ==== Sys2Proof/Machine/Deep.lean ====
section
/-! DEFINITION. The deep buffer and the HBM controller (R294–R321). -/

namespace Sys2Proof.Machine

/-! ## Blocks and the address map (R299–R301, R307, R308) -/

/-- The stack of a block. -/
def blockStack (b : Nat) : Nat := b % 4

/-- The logical pseudo-channel of a block. -/
def blockLogical (b : Nat) : Nat := b / 4 % 31

/-- The line number *N* of line `j` of a block in its pseudo-channel. -/
def lineNo (b j : Nat) : Nat := 256 * (b / 4 / 31) + j

/-- The block of a stack, logical pseudo-channel and number *k* in it. -/
def blockAt (h lp k : Nat) : Nat := 4 * (31 * k + lp) + h

/-- The physical pseudo-channel that serves a logical one; the pseudo-channel of a state that serves none is passed over. -/
def State.physPc (s : State) (h lp : Nat) : Option Nat :=
  (List.range 32).find? fun p => s.fget F.HBC_PC.logical h p = lp ∧
    (let st := s.fget F.HBC_PC.state h p
     st = 0 ∨ st = 5)

/-- Parity of the ones of a number of 22 bits. -/
def parity22 (n : Nat) : Bool := (List.range 22).foldl (fun a i => a != bit n i) false

/-- The effective mask of bank bit `i` of a stack (R308). -/
def State.bankMask (s : State) (h i : Nat) : Nat :=
  let m := s.fget F.HBC_BMASK.mask h i
  if m % 64 = 2 ^ (2 + i) then m else 2 ^ (2 + i)

/-- The bank of a line of a stack. -/
def State.lineBank (s : State) (h n : Nat) : Nat :=
  (List.range 4).foldl (fun a i => a + (if parity22 (n &&& s.bankMask h i) then 2 ^ i else 0)) 0

/-- The unit ID of a physical pseudo-channel. -/
def pcUnit (h p : Nat) : Nat := 0x900 + 32 * h + p

/-- The key of a bank: its pseudo-channel, its stack ID and its bank. -/
def bankKey (h p sid bank : Nat) : Nat := (32 * h + p) * 64 + sid * 16 + bank

/-- A counter of a stack (R320). -/
def State.scnt (s : State) (h i : Nat) (n : Nat := 1) : State := s.bump F.HBC_SCNT.count h i n

/-- A counter of a partition's deep bank (R320). -/
def State.hbcCount (s : State) (p i : Nat) (n : Nat := 1) : State := s.bump F.HBC_CNT.count p i n

/-- Ones among the last eight outcomes. -/
def hitsOf (h : Nat) : Nat := ((List.range 8).filter fun i => bit h i).length

/-! ## Line requests (R309, R311, R312) -/

/-- The physical pseudo-channel of a block: 32·*h* + *p*. -/
def State.blockPc (s : State) (b : Nat) : Option Nat := (s.physPc (blockStack b) (blockLogical b)).map (32 * blockStack b + ·)

/-- The requests in the read or write queue of a pseudo-channel, oldest first. -/
def State.reqs (s : State) (write : Bool) (k : Nat) : List LineReq := tabGet [] (if write then s.hbm.writes else s.hbm.reads) k

/-- Replace the read or write queue of a pseudo-channel. -/
def State.setReqs (s : State) (write : Bool) (k : Nat) (l : List LineReq) : State :=
  if write then { s with hbm := { s.hbm with writes := tabSet [] s.hbm.writes k l } }
  else { s with hbm := { s.hbm with reads := tabSet [] s.hbm.reads k l } }

/-- Write credits of a pseudo-channel (R309): the free entries of its write queue. -/
def State.writeCredits (s : State) (h p : Nat) : Nat := 64 - (s.reqs true (32 * h + p)).length

/-- Requests of a direction that wait for a place in a pseudo-channel's queue. -/
def State.late (s : State) (write : Bool) (k : Nat) : List LineReq :=
  (s.hbm.issue.filter fun e => e.1 = write && s.blockPc e.2.block = some k).map Prod.snd

/-- The bank and row that a request targets. -/
def State.reqRow (s : State) (k : Nat) (r : LineReq) : Nat × Nat :=
  let n := lineNo r.block r.line
  (bankKey (k / 32) (k % 32) (n / 2 ^ 20) (s.lineBank (k / 32) n), bits n 19 6)

/-- A request enters its queue, or waits behind those of its direction that found no place. DEDUCED, log entry 42. -/
def State.enterReq (s : State) (write : Bool) (r : LineReq) : State :=
  match s.blockPc r.block with
  | none => s
  | some k =>
    if (s.reqs write k).length < 64 ∧ s.late write k = [] then s.setReqs write k (s.reqs write k ++ [r])
    else { s with hbm := { s.hbm with issue := s.hbm.issue ++ [(write, r)] } }

/-- Two requests are of one line. -/
def LineReq.sameLine (r x : LineReq) : Bool := r.block = x.block && r.line = x.line

/-- A line is asked of its pseudo-channel, which leaves power-down (R313). A read of a line with a write waiting is answered from the write
queue (R309). -/
def State.lineRequest (s : State) (write : Bool) (queue : Option Nat) (b j : Nat) : State :=
  match s.blockPc b with
  | none => s
  | some k =>
    let r : LineReq := { block := b, line := j, queue := queue, since := s.time.cycles }
    let s := { s with hbm := { s.hbm with asleep := s.hbm.asleep.filter (· ≠ 0x900 + k) } }
    if !write && ((s.reqs true k ++ s.late true k).any fun x => r.sameLine x) then s else s.enterReq write r

/-- Lines `a` to `b` − 1 of a block are asked for. -/
def State.linesRequest (s : State) (write : Bool) (queue : Option Nat) (blk a b : Nat) : State :=
  (List.range (b - a)).foldl (fun s i => s.lineRequest write queue blk (a + i)) s

/-- The requests that wait for a place are tried again, oldest first. -/
def State.issueLate (s : State) : State :=
  s.hbm.issue.foldl (fun s e => s.enterReq e.1 e.2) { s with hbm := { s.hbm with issue := [] } }

/-- A request waits while its bank is refreshed (R312) or its row is under repair (R316). -/
def State.reqWaits (s : State) (k : Nat) (r : LineReq) : Bool :=
  let (bank, row) := s.reqRow k r
  decide (s.time.cycles < tabGet 0 s.hbm.refreshing bank) ||
    s.hbm.repairing.any fun e => e.1 = 0x900 + k && e.2 = bank * 16384 + row

/-- The request of a queue that is served first (R309). -/
def State.pickReq (s : State) (k : Nat) (l : List LineReq) : Option LineReq :=
  let l := l.filter fun r => !s.reqWaits k r
  let old := max 1 (s.fget F.HBC_PAGE.age_max (k / 32))
  let hit := fun (r : LineReq) => let (bank, row) := s.reqRow k r; tabGet 0 s.hbm.rows bank = row + 1
  ((l.find? fun r => decide (4 * old < 3 * (s.time.cycles - r.since))).or (l.find? fun r => hit r)).or l.head?

/-- A queued request of a pseudo-channel targets a row of a bank. -/
def State.targeted (s : State) (k bank row : Nat) : Bool := (s.reqs false k ++ s.reqs true k).any fun r => s.reqRow k r = (bank, row)

/-- The direction of a pseudo-channel, writes or not, at its next request (R309). -/
def State.toWrite (s : State) (k : Nat) : Bool :=
  let w := (s.reqs true k).length
  let r := s.reqs false k
  if s.hbm.writing.contains k then !(decide (w ≤ 16) && r != []) else decide (48 ≤ w) || r == []

/-- The column access of a line: counters, the bank's open row and its history, and the closing of R311. DEDUCED, log entry 42. -/
def State.columnAccess (s : State) (k : Nat) (r : LineReq) (write : Bool) : State :=
  let h := k / 32
  let (bank, row) := s.reqRow k r
  let hit := tabGet 0 s.hbm.rows bank = row + 1
  let hist := (tabGet 0 s.hbm.hist bank * 2 + (if hit then 1 else 0)) % 256
  let s := (s.scnt h (if write then 0 else 1)).scnt h (if hit then 2 else 3)
  let close := !s.targeted k bank row && decide (hitsOf hist < min 9 (s.fget F.HBC_PAGE.close_th h))
  { s with hbm := { s.hbm with
    rows := tabSet 0 s.hbm.rows bank (if close then 0 else row + 1)
    hist := tabSet 0 s.hbm.hist bank hist } }

/-- The requests of a table of queues that are kept. -/
def keepReqs (t : Tab (List LineReq)) (keep : LineReq → Bool) : Tab (List LineReq) :=
  (t.map fun e => (e.1, e.2.filter fun r => keep r)).filter fun e => e.2 ≠ []

/-- Requests are withdrawn: reads, and writes too, that are not kept. -/
def State.dropReqs (s : State) (writes : Bool) (keep : LineReq → Bool) : State :=
  { s with hbm := { s.hbm with
    reads := keepReqs s.hbm.reads keep
    writes := if writes then keepReqs s.hbm.writes keep else s.hbm.writes
    issue := s.hbm.issue.filter fun e => (e.1 && !writes) || keep e.2 } }

/-- Blocks of a deep-buffer software pool: its first and how many (R300). -/
def State.poolBlocks (s : State) (p : Nat) : Nat × Nat :=
  if s.poolExists p && s.poolDeep p then (s.poolBase p, (s.poolCount p * s.poolSize p + 65535) / 65536) else (0, 0)

/-- A block belongs to a software pool. -/
def State.inPool (s : State) (b : Nat) : Bool :=
  (List.range 12).any fun i =>
    let (base, n) := s.poolBlocks (4 + i)
    base ≤ b && b < base + n

/-- A block is held by a queue. -/
def State.blockHeld (s : State) (b : Nat) : Bool := s.queues.any fun e => e.2.blocks.contains b

/-- Blocks charged to a partition under a plane tag: its queues' and its deep pools' (R301). -/
def State.deepUse (s : State) (tag p : Nat) : Nat :=
  ((s.queues.filter fun e => s.setPart tag (e.1 / 128) (e.1 / 8 % 16) = p).map fun e => e.2.blocks.length).sum +
    ((List.range 12).map fun i => if s.poolPart (4 + i) = p then (s.poolBlocks (4 + i)).2 else 0).sum

/-- Blocks in use on a logical pseudo-channel. -/
def State.pcUsed (s : State) (h lp : Nat) : Nat :=
  let on := fun b => blockStack b = h ∧ blockLogical b = lp
  ((s.queues.flatMap fun e => e.2.blocks).filter fun b => on b).length +
    ((List.range 12).map fun i =>
      let (base, n) := s.poolBlocks (4 + i)
      ((List.range n).filter fun j => on (base + j)).length).sum

/-- Queue blocks free on a pseudo-channel that may be allocated to. -/
def State.pcFree (s : State) (h lp : Nat) : Nat := 12288 - s.pcUsed h lp

/-- A logical pseudo-channel takes new blocks: served by an ACTIVE physical one. -/
def State.pcOpen (s : State) (h lp : Nat) : Bool :=
  (List.range 32).any fun p => s.fget F.HBC_PC.logical h p = lp && s.fget F.HBC_PC.state h p = 0 && s.writeCredits h p ≠ 0

/-- Free queue blocks of a stack: on its ACTIVE pseudo-channels, once it has trained. DESIGN CHOICE, log entry 43. -/
def State.stackFree (s : State) (h : Nat) : Nat :=
  if s.fget F.HBC_STACK.state h = 1 ∨ s.fget F.HBC_STACK.state h = 2 then
    ((List.range 31).map fun lp =>
      if (List.range 32).any fun p => s.fget F.HBC_PC.logical h p = lp && s.fget F.HBC_PC.state h p = 0 then s.pcFree h lp else 0).sum
  else 0

/-- Free queue blocks of the device. -/
def State.hbmFree (s : State) : Nat := ((List.range 4).map s.stackFree).sum

/-- A free block of a logical pseudo-channel, looked for from number `k` on; which one is taken the spec does not say. -/
def State.freeBlock (s : State) (h lp : Nat) : Nat → Nat → Option Nat
  | 0, _ => none
  | fuel + 1, k =>
    let b := blockAt h lp (k % 12288)
    if s.blockHeld b || s.inPool b then s.freeBlock h lp fuel (k + 1) else some b

/-- The next of a rotation of `n` places, after the last, that satisfies a condition. -/
def nextIn (n last : Nat) (ok : Nat → Bool) : Option Nat := ((List.range n).map fun i => (last + 1 + i) % n).find? ok

/-- Allocate a queue block (R310). -/
def State.takeBlock (s : State) : Option (Nat × State) :=
  let open_ := fun h => s.fget F.HBC_STACK.state h = 1 && (List.range 31).any fun lp => s.pcOpen h lp && decide (0 < s.pcFree h lp)
  match nextIn 4 s.hbm.rot open_ with
  | none => none
  | some h =>
    match nextIn 31 (tabGet 30 s.hbm.pcRot h) fun lp => s.pcOpen h lp && decide (0 < s.pcFree h lp) with
    | none => none
    | some lp =>
      match s.freeBlock h lp 12288 (s.freeNat 14) with
      | none => none
      | some b => some (b, ({ s with hbm := { s.hbm with rot := h, pcRot := tabSet 30 s.hbm.pcRot h lp } }).nextFree)

/-! ## Writing (R296, R297, R301, R305) -/

/-- The partition of a queue by a copy's plane tag. -/
def State.queuePart (s : State) (n : Nat) (c : Copy) : Nat := s.setPart c.tag (n / 128) (n / 8 % 16)

/-- Bytes of a record: the header, the bytes and the padding (R297). -/
def recordSize (n : Nat) : Nat := 64 + (n + 63) / 64 * 64

/-- The end of a record's last byte in its block. -/
def recordEnd (d : DeepRec) : Nat := d.off + 64 + d.bytes.length

/-- The words 0 to 6 of a record's header, of a copy in a queue with its stored bytes (R297). -/
def headerWords (c : Copy) (n len : Nat) : List Nat :=
  [bits len 13 0 + c.qclass % 8 * 2 ^ 14 + c.cls % 8 * 2 ^ 17 + c.colour % 4 * 2 ^ 20 + c.tag % 2 * 2 ^ 22 + (if c.trunc = 0 then 0 else 2 ^ 23),
   n % 2 ^ 15 + c.part % 32 * 2 ^ 15, c.edit % 2 ^ 12, c.md % 2 ^ 36, c.rx.getD 0 % 2 ^ 36, c.rx.getD 0 / 2 ^ 36 % 2 ^ 36, c.inPort % 2 ^ 8]

/-- The CRC-32C over the slots of header words. -/
def headerCrc (ws : List Nat) : Nat := crc32c (ws.flatMap fun w => bytesLE 8 w)

/-- The header of a record (R297). -/
def recordHeader (c : Copy) (n len : Nat) : List Nat := headerWords c n len ++ [headerCrc (headerWords c n len)]

/-- The CRC of a record's header is right. -/
def DeepRec.headerOk (d : DeepRec) : Bool := d.header.getD 7 0 == headerCrc (d.header.take 7)

/-- The lines of its block that a record lies in: the first and the one after the last. -/
def DeepRec.lines (d : DeepRec) : Nat × Nat := (d.off / 256, (recordEnd d + 255) / 256)

/-- A record is still in its queue's staging line, or its write block is gone: it is taken from on-chip directly (R298). -/
def inStaging (q : Queue) (d : DeepRec) : Bool :=
  d.staged && (!q.blocks.contains d.block || (q.blocks.getLast? == some d.block && decide (q.woff / 256 * 256 < recordEnd d)))

/-- A line of a queue waits in the queues of a direction. -/
def State.lineWaits (s : State) (write : Bool) (n b j : Nat) : Bool :=
  let here := fun (r : LineReq) => r.queue == some n && r.block == b && r.line == j
  ((if write then s.hbm.writes else s.hbm.reads).any fun e => e.2.any fun r => here r) || s.hbm.issue.any fun e => e.1 == write && here e.2

/-- A staged record has been written: its copy leaves its on-chip buffer (R275, R296). -/
def State.recordWritten (s : State) (d : DeepRec) : State :=
  let s := s.leave d.copy.port d.copy.handle
  (s.hbcCount d.copy.part 0).hbcCount d.copy.part 1 d.bytes.length

/-- The records of a queue whose lines have all been written are in HBM. -/
def State.settleWritten (s : State) (n : Nat) : State :=
  let q := s.queue n
  let wrote := fun (d : DeepRec) => d.staged && !inStaging q d &&
    (List.range (d.lines.2 - d.lines.1)).all fun i => !s.lineWaits true n d.block (d.lines.1 + i)
  let s := (q.deep.filter fun d => wrote d).foldl (fun s d => s.recordWritten d) s
  let q := s.queue n
  let mark := fun (d : DeepRec) => if wrote d = true then { d with staged := false, copy := { d.copy with tHbm := some s.time.now } } else d
  s.setQueue n { q with deep := q.deep.map mark }

/-- The staging line's buffer is returned. -/
def State.dropStaging (s : State) (n : Nat) : State :=
  let q := s.queue n
  match q.staging with
  | some h => (s.freeBuf h).setQueue n { q with staging := none }
  | none => s

/-- Blocks whose every record has gone and that are not the write block return to the pool (R301). A queue that has left DEEP keeps no
write block. -/
def State.dropBlocks (s : State) (n : Nat) : State :=
  let q := s.queue n
  let last := q.blocks.getLast?
  let live := fun b => (q.deep.any fun d => d.block = b) || (q.isDeep && last == some b)
  let keep := q.blocks.filter live
  let s := s.setQueue n { q with blocks := keep, woff := if keep.getLast? = last ∧ keep ≠ [] then q.woff else 65536
                                 asked := q.asked.filter fun e => keep.contains e.1 }
  if keep = q.blocks then s else s.dropReqs false fun r => r.queue ≠ some n || keep.contains r.block

/-- A partial staging line is written with padding (R296). -/
def State.flushStaging (s : State) (n : Nat) : State :=
  let q := s.queue n
  if q.woff % 256 = 0 then s
  else
    let line := q.woff / 256
    let s := s.lineRequest true (some n) (q.blocks.getLastD 0) line
    (s.setQueue n { s.queue n with woff := (line + 1) * 256 }).dropStaging n

/-- The front pending copy is dropped as DEEP_QUOTA, and also DEEP_FULL (R301). -/
def State.dropDeep (s : State) (n : Nat) (c : Copy) (full : Bool) : State :=
  let s := s.hbcCount c.part 4
  let s := if full then s.hbcCount c.part 5 else s
  let q := s.queue n
  ((s.putQueue n { q with pend := q.pend.drop 1 }).dropCopy c 8 4).deepSettle n

/-- Append the record of a copy to the write block, in which it fits: full lines go to the write queue. -/
def State.appendRecord (s : State) (n : Nat) (c : Copy) (bytes : List Byte) : State :=
  let q := s.queue n
  let blk := q.blocks.getLastD 0
  let off := q.woff
  let upTo := off + recordSize bytes.length
  let s := s.linesRequest true (some n) blk (off / 256) (upTo / 256)
  let q := s.queue n
  let c := { c with wentDeep := true, len := bytes.length }
  let d : DeepRec := { copy := c, bytes := bytes, block := blk, off := off, staged := true, header := recordHeader c n bytes.length }
  let s := s.putQueue n { q with deep := q.deep ++ [d], pend := q.pend.drop 1, woff := upTo }
  if upTo % 256 = 0 then s.dropStaging n else s

/-- A staging line for a queue: the one it has, or a pool-0 buffer charged to the queue's partition. -/
def State.takeStaging (s : State) (n : Nat) (c : Copy) : Option State :=
  if (s.queue n).staging.isSome then some s
  else
    let p := s.queuePart n c
    match s.pickBuf 0, s.admitPart c.tag p 1 with
    | some h, some a =>
      let s := s.nextFree.hold h (0xA60 + n / 1024) p a
      some (s.setQueue n { s.queue n with staging := some h })
    | _, _ => none

/-- The write block of a queue takes lines: its pseudo-channel has a write credit, and none of its writes waits for one. -/
def State.writeRoom (s : State) (n : Nat) : Bool :=
  match (s.queue n).blocks.getLast? with
  | none => true
  | some b => match s.blockPc b with
    | some k => s.writeCredits (k / 32) (k % 32) ≠ 0 && s.late true k = []
    | none => true

/-- The front pending copy of a queue is ready to be written: received in full and good, with a staging line and a write credit to be had. -/
def State.deepReady (s : State) (n : Nat) : Bool :=
  let q := s.queue n
  match q.pend with
  | c :: _ => q.isDeep && s.writeRoom n && s.copyWhole c && !((s.frame c.frame).any fun f => f.failed) && (s.takeStaging n c).isSome
  | [] => false

/-- Write the front pending copy of a queue (R296, R297, R301). DEDUCED, log entry 42. -/
def State.deepWrite (s : State) (n : Nat) : State :=
  match (s.queue n).pend with
  | [] => s
  | c :: _ =>
    match s.takeStaging n c with
    | none => s
    | some s =>
      let bytes := s.bufBytes c.handle 0 (s.storedLen c)
      let p := s.queuePart n c
      if (s.queue n).woff + recordSize bytes.length ≤ 65536 then s.appendRecord n c bytes
      else
        let s := s.flushStaging n
        match s.takeStaging n c with
        | none => s
        | some s =>
          if bits (s.partWordT c.tag p 19) 20 0 < s.deepUse c.tag p + 1 then s.dropDeep n c false
          else match s.takeBlock with
            | none => s.dropDeep n c true
            | some (b, s) =>
              let q := s.queue n
              let s := (s.setQueue n { q with blocks := q.blocks ++ [b], woff := 0 })
              (s.appendRecord n c bytes).dropBlocks n

/-- The weighted round robin of R305 over partitions: the one whose turn it is, and the turn after it. DESIGN CHOICE, log entry 43. -/
def pickTurn (turn : Nat × Nat) (weight : Nat → Nat) (ready : Nat → Bool) : Option (Nat × (Nat × Nat)) :=
  let (p, left) := turn
  if 0 < left ∧ ready p then some (p, (p, left - 1))
  else match nextIn 17 p ready with
    | some k => some (k, (k, weight k - 1))
    | none => none

/-- The queue of a list whose request is oldest. -/
def oldestQueue (l : List (Nat × Nat)) : Option Nat :=
  (l.foldl (fun (best : Option (Nat × Nat)) e =>
    match best with
    | none => some e
    | some b => if e.2 < b.2 then some e else best) none).map Prod.fst

/-- When a queue's write request began: when its front pending copy came to the front, or its frame ended. -/
def State.wrSince (s : State) (n : Nat) (c : Copy) : Nat :=
  max (s.queue n).frontAt (match s.frame c.frame with | some f => f.tLast.getD 0 | none => 0)

/-- DEEP_WRITE (R296, R305): the controller writes the front pending copy of the queue whose turn it is. -/
def execDeepWrite (s : State) : Host.Outcome State Fault Refusal :=
  s.act fun s =>
    let ready := s.queues.filterMap fun e =>
      match e.2.pend with
      | c :: _ => if s.deepReady e.1 then some (s.queuePart e.1 c, e.1, s.wrSince e.1 c) else none
      | [] => none
    match pickTurn s.hbm.wrTurn (fun p => max 1 (s.fget F.HBC_TEN.wr_weight p)) (fun p => ready.any fun e => e.1 = p) with
    | none => s
    | some (p, turn) =>
      let s := { s with hbm := { s.hbm with wrTurn := turn } }
      match oldestQueue ((ready.filter fun e => e.1 = p).map Prod.snd) with
      | some n => s.deepWrite n
      | none => s

/-- STAGING_FLUSH (R296): the partial staging line of a queue, idle for 1 µs, is written with padding. -/
def execStagingFlush (queue : Nat) (s : State) : Host.Outcome State Fault Refusal := s.act fun s => s.flushStaging queue

/-! ## Reading back (R295, R298) -/

/-- The lines that read-back asks for (R298): of the records in the first `ahead` blocks of a queue's deep part that are not in its staging
line; `ahead` 0 is taken as 1, 9–15 as 8. -/
def State.aheadLines (s : State) (n : Nat) : List (Nat × Nat) :=
  let q := s.queue n
  let far := q.deep.filter fun d => !inStaging q d
  let blocks := ((far.map (·.block)).eraseDups).take (max 1 (min 8 (s.fget F.HBC_CFG.ahead)))
  ((far.filter fun d => blocks.contains d.block).flatMap fun d =>
    (List.range (d.lines.2 - d.lines.1)).map fun i => (d.block, d.lines.1 + i)).eraseDups

/-- A queue that reads back asks for its lines ahead. -/
def State.readAhead (s : State) (n : Nat) : State :=
  if !(s.queue n).reading then s
  else
    let new := (s.aheadLines n).filter fun e => !(s.queue n).asked.contains e
    let s := new.foldl (fun s e => s.lineRequest false (some n) e.1 e.2) s
    s.setQueue n { s.queue n with asked := (s.queue n).asked ++ new }

/-- A record is on the chip: in the staging line, or its lines have come. -/
def State.recordHere (s : State) (n : Nat) (d : DeepRec) : Bool :=
  let q := s.queue n
  inStaging q d || (List.range (d.lines.2 - d.lines.1)).all fun i =>
    q.asked.contains (d.block, d.lines.1 + i) && !s.lineWaits false n d.block (d.lines.1 + i)

/-- HEAD_REFILL (R295): a DEEP queue with its head below `refill` starts read-back, or takes from its pending part, or goes ON_CHIP. -/
def execHeadRefill (queue : Nat) (s : State) : Host.Outcome State Fault Refusal :=
  s.act fun s =>
    let q := s.queue queue
    match q.deep with
    | [] => ((s.deepSettle queue).dropStaging queue).dropBlocks queue
    | d :: _ =>
      let mark := s.queueRefill d.copy.tag (queue / 128) (queue / 8 % 16) (queue % 8)
      if q.isDeep ∧ s.copiesBytes q.head < mark then
        (s.setQueue queue { q with reading := true, rdSince := if q.reading then q.rdSince else some s.time.cycles }).readAhead queue
      else s

/-- The buffer for a record read back, when the pools and R277 give one. -/
def State.returnBuf (s : State) (n : Nat) (d : DeepRec) : Option (Nat × Acct) :=
  let pool := poolFor d.bytes.length
  match s.pickBuf pool, s.admitPart d.copy.tag (s.queuePart n d.copy) (poolCharge pool) with
  | some h, some a => some (h, a)
  | _, _ => none

/-- µs that a queue has waited for a buffer. -/
def State.waitedUs (s : State) (q : Queue) : Nat :=
  match q.waitSince with
  | some t => (s.time.cycles - t) / clocksPerUs
  | none => 0

/-- A record is appended to its queue's head (R298). -/
def State.returnRecord (s : State) (n : Nat) (d : DeepRec) (h : Nat) (a : Acct) : State :=
  let p := s.queuePart n d.copy
  let s := (s.nextFree.hold h (0xA60 + n / 1024) p a).bufWrite h 0 d.bytes
  let s := s.hbcCount p 7 (s.waitedUs (s.queue n))
  let s := if d.staged then s.leave d.copy.port d.copy.handle else s.hbcCount d.copy.part 2
  let q := s.queue n
  let c := { d.copy with handle := h, tBack := some s.time.now }
  let head := q.head ++ [c]
  let rest := q.deep.drop 1
  let mark := s.queueRefill c.tag (n / 128) (n / 8 % 16) (n % 8)
  let s := s.setQueue n { q with head := head, deep := rest, waitSince := none, rdSince := some s.time.cycles,
                                 reading := rest ≠ [] && decide (s.copiesBytes head < mark) }
  (((s.refreshTag (n / 128) (n / 8 % 16) (n % 8)).dropBlocks n).deepSettle n).readAhead n

/-! ## Lost records (R316) -/

/-- A line of a block: its stack, physical pseudo-channel, stack ID, bank and row. -/
def State.lineHome (s : State) (b j : Nat) : Nat × Nat × Nat × Nat × Nat :=
  let h := blockStack b
  let n := lineNo b j
  (h, (s.physPc h (blockLogical b)).getD 31, n / 2 ^ 20, s.lineBank h n, bits n 19 6)

/-- The records of a block of a queue that an unreadable line loses: those that overlap it, and with a header all later ones. -/
def lostRecords (ds : List DeepRec) (b j : Nat) : List DeepRec :=
  let lo := 256 * j
  let here := ds.filter fun d => d.block = b ∧ !d.staged
  let cut := here.find? fun d => lo < d.off + 64 ∧ d.off < lo + 256
  here.filter fun d =>
    decide (d.off < lo + 256 ∧ lo < recordEnd d) || (match cut with | some c => decide (c.off ≤ d.off) | none => false)

/-- A copy in the deep buffer is lost (R316). -/
def State.loseRecord (s : State) (d : DeepRec) : State :=
  let s := ((s.hbcCount d.copy.part 6).balAdd d.copy.part 8).traceTx d.copy (if d.copy.mirror then 1 else 0) 5 none
  s.copyGone d.copy

/-- HBM_LOST records: to the owner with every copy, and to each partition with its own (R321). -/
def State.lostEvent (s : State) (lost : List DeepRec) (b j : Nat) : State :=
  let (h, p, sid, _, row) := s.lineHome b j
  let rec_ := fun n => ({ code := 0x5D, unit := pcUnit h p, stamp := s.stamp, p3 := h + p * 2 ^ 8 + sid * 2 ^ 16 + row * 2 ^ 18,
                          p4 := b, p5 := n % 1024 } : Record)
  let s := s.emitPart 16 clsFault (rec_ lost.length)
  (List.range 16).foldl (fun s t =>
    let n := (lost.filter fun (d : DeepRec) => d.copy.part = t).length
    if n = 0 then s else s.emitPart t clsFault (rec_ n)) s

/-- Records are lost, as line `j` of block `b` names them. -/
def State.loseRecords (s : State) (lost : List DeepRec) (b j : Nat) : State :=
  if lost = [] then s
  else
    let s := lost.foldl (fun s d => s.loseRecord d) s
    let s := s.queues.foldl (fun s e =>
      if e.2.deep.any fun d => lost.contains d then
        let q := s.queue e.1
        ((s.setQueue e.1 { q with deep := q.deep.filter fun d => !lost.contains d }).dropBlocks e.1).deepSettle e.1
      else s) s
    s.lostEvent lost b j

/-- The records lost with a line of a block. -/
def State.loseLine (s : State) (b j : Nat) : State := s.loseRecords (s.queues.flatMap fun e => lostRecords e.2.deep b j) b j

/-- The header of a record that came back fails its CRC: its copy and every later one of its block are lost (R316). -/
def State.loseFrom (s : State) (n : Nat) (d : DeepRec) : State :=
  s.loseRecords ((s.queue n).deep.filter fun x => x.block = d.block ∧ d.off ≤ x.off ∧ !x.staged) d.block (d.off / 256)

/-- DEEP_RECORD_RETURN (R298, R305): the next record of the queue whose turn it is gets a buffer and joins its head; queues that find no
buffer wait. -/
def execDeepRecordReturn (s : State) : Host.Outcome State Fault Refusal :=
  s.act fun s =>
    let s := s.queues.foldl (fun s e => s.readAhead e.1) s
    let want := s.queues.filterMap fun e =>
      match e.2.deep with
      | d :: _ => if e.2.reading && s.recordHere e.1 d then
          some (s.queuePart e.1 d.copy, e.1, e.2.rdSince.getD 0, (s.returnBuf e.1 d).isSome) else none
      | [] => none
    let s := (want.filter fun e => !e.2.2.2).foldl (fun s e =>
      let q := s.queue e.2.1
      if q.waitSince.isSome then s else s.setQueue e.2.1 { q with waitSince := some s.time.cycles }) s
    let ready := want.filter fun e => e.2.2.2
    match pickTurn s.hbm.rdTurn (fun p => max 1 (s.fget F.HBC_TEN.rd_weight p)) (fun p => ready.any fun e => e.1 = p) with
    | none => s
    | some (p, turn) =>
      let s := { s with hbm := { s.hbm with rdTurn := turn } }
      match oldestQueue ((ready.filter fun e => e.1 = p).map fun e => (e.2.1, e.2.2.1)) with
      | none => s
      | some n =>
        match (s.queue n).deep with
        | d :: _ =>
          if !d.staged && !d.headerOk then s.loseFrom n d
          else match s.returnBuf n d with
            | some (h, a) => s.returnRecord n d h a
            | none => s
        | [] => s

/-! ## Rows, refresh and power (R311–R313) -/

/-- HBM_ROW_CLOSE (R311): the row of a bank idle for `open_max` cycles is closed. `bank` counts stack ID × 16 + bank. -/
def execHbmRowClose (unit bank : Nat) (s : State) : Host.Outcome State Fault Refusal :=
  s.act fun s => { s with hbm := { s.hbm with rows := tabSet 0 s.hbm.rows ((unit - 0x900) * 64 + bank) 0 } }

/-- A queued request of a pseudo-channel targets a bank. -/
def State.bankBusy (s : State) (k bank : Nat) : Bool := (s.reqs false k ++ s.reqs true k).any fun r => (s.reqRow k r).1 = bank

/-- Banks are refreshed: their rows close, and their requests wait. -/
def State.refreshBanks (s : State) (l : List Nat) : State :=
  { s with hbm := { s.hbm with
    rows := s.hbm.rows.filter fun e => !l.contains e.1
    refreshing := l.foldl (fun t k => tabSet 0 t k (s.time.cycles + Config.refreshClocks)) s.hbm.refreshing
    postponed := s.hbm.postponed.filter fun e => !l.contains e.1 } }

/-- HBM_REFRESH (R312): the refresh of a bank of a pseudo-channel falls due, or with `all_bank` that of all its banks. The refresh of a bank
with a queued request is postponed while the standard lets it be. -/
def execHbmRefresh (unit bank : Nat) (s : State) : Host.Outcome State Fault Refusal :=
  s.act fun s =>
    let u := unit - 0x900
    let k := u * 64 + bank
    if s.flag F.HBC_REFRESH.all_bank (u / 32) then s.refreshBanks ((List.range 64).map (u * 64 + ·))
    else if s.bankBusy u k ∧ tabGet 0 s.hbm.postponed k < Config.refreshPostpone then
      { s with hbm := { s.hbm with postponed := tabSet 0 s.hbm.postponed k (tabGet 0 s.hbm.postponed k + 1) } }
    else s.refreshBanks [k]

/-- A pseudo-channel has no request. -/
def State.pcIdle (s : State) (k : Nat) : Bool := [true, false].all fun w => s.reqs w k = [] && s.late w k = []

/-- HBM_POWER_DOWN (R313): a pseudo-channel idle for `pd_idle` ns enters power-down. -/
def execHbmPowerDown (unit : Nat) (s : State) : Host.Outcome State Fault Refusal :=
  s.act fun s =>
    if s.fget F.HBC_CFG.pd_idle = 0 ∨ s.hbm.asleep.contains unit ∨ !s.pcIdle (unit - 0x900) then s
    else { s with hbm := { s.hbm with asleep := s.hbm.asleep ++ [unit] } }

/-! ## Retraining and promotion (R314, R315, R317) -/

/-- A copy runs in the stack. -/
def State.hbmCopying (s : State) (h : Nat) : Bool := (List.range 32).any fun p => s.fget F.HBC_PC.state h p = 2

/-- A retraining visit to a physical pseudo-channel starts (R314), unless a copy runs or it is not ACTIVE. -/
def State.visit (s : State) (h p : Nat) : State :=
  if s.fget F.HBC_PC.state h p ≠ 0 ∨ s.hbmCopying h then s
  else match s.benchPc h with
    | none => s
    | some b =>
      let s := s.fset F.HBC_PC.state h b 2
      { s with hbm := { s.hbm with visits := s.hbm.visits ++ [({ stack := h, src := p, dst := b } : HbmVisit)] } }.showBench h

/-- The next visit of a round: the lowest logical pseudo-channel from `lp` on that an ACTIVE one serves. The round ends with none, and waits
while another copy or the training after it runs. DEDUCED, log entry 42. -/
def State.roundNext (s : State) (h lp : Nat) : State :=
  if (s.benchPc h).isNone then { s with hbm := { s.hbm with round := tabInsert s.hbm.round h lp } }
  else match ((List.range 31).filter (lp ≤ ·)).find? fun l => (List.range 32).any fun p => s.fget F.HBC_PC.logical h p = l && s.fget F.HBC_PC.state h p = 0 with
  | none => { s with hbm := { s.hbm with round := tabErase s.hbm.round h } }
  | some l =>
    let p := ((List.range 32).find? fun p => s.fget F.HBC_PC.logical h p = l ∧ s.fget F.HBC_PC.state h p = 0).getD 0
    { s with hbm := { s.hbm with round := tabInsert s.hbm.round h (l + 1) } }.visit h p

/-- A pseudo-channel of the stack is trained. -/
def State.hbmTraining (s : State) (h : Nat) : Bool := (List.range 32).any fun p => s.fget F.HBC_PC.state h p = 4

/-- A promotion of the stack takes its bench pseudo-channel. -/
def State.promoted (s : State) (h : Nat) : Bool := s.flt.promos.any fun p => p.kind = 4 && (p.unit - 0x900) / 32 = h

/-- HBM_RETRAIN_TIMER (R314, R315): each period an OPEN stack begins a round, or skips it with an ADVISORY when it has no bench. -/
def execHbmRetrainTimer (stack : Nat) (s : State) : Host.Outcome State Fault Refusal :=
  s.actAwake fun s =>
    if s.fget F.HBC_CFG.retrain = 0 ∨ s.fget F.HBC_STACK.state stack ≠ 1 then s
    else if (s.benchPc stack).isNone ∧ (s.promoted stack || (!s.hbmCopying stack && !s.hbmTraining stack)) then
      match (List.range 32).find? fun p => s.fget F.HBC_PC.state stack p = 0 with
      | some p => s.advisory 5 (pcUnit stack p) stack 0
      | none => s
    else if (tabFind s.hbm.round stack).isSome then s
    else s.roundNext stack 0

/-- The requests of a pseudo-channel, and its direction, pass to another. -/
def State.moveReqs (s : State) (old new : Nat) : State :=
  let s := [true, false].foldl (fun s w => (s.setReqs w new (s.reqs w old)).setReqs w old []) s
  { s with hbm := { s.hbm with writing := s.hbm.writing.map fun k => if k = old then new else k } }

/-- A logical pseudo-channel is remapped, with HBM_REMAP (R314, R321). -/
def State.remap (s : State) (h old new cause : Nat) : State :=
  let lp := s.fget F.HBC_PC.logical h old
  let s := (s.fset F.HBC_PC.logical h new lp).fset F.HBC_PC.state h new 0
  let s := (s.fset F.HBC_PC.logical h old 31).scnt h 7
  let s := s.moveReqs (32 * h + old) (32 * h + new)
  s.emitPart 16 clsFault { code := 0x5C, unit := pcUnit h old, stamp := s.stamp,
                           p3 := h + lp * 2 ^ 8 + old * 2 ^ 16 + new * 2 ^ 24 + cause * 2 ^ 32 }

/-- HBM_COPY_DONE (R314, R317): the copy of a stack ends and its logical pseudo-channel is remapped; a promoted one goes to FENCED, a
visited one to TRAINING. -/
def execHbmCopyDone (stack : Nat) (s : State) : Host.Outcome State Fault Refusal :=
  s.act fun s =>
    match s.flt.promos.find? fun p => p.kind = 4 ∧ (p.unit - 0x900) / 32 = stack with
    | some p =>
      let s := (s.remap stack ((p.unit - 0x900) % 32) ((p.spare - 0x900) % 32) 2).fset F.HBC_PC.state stack ((p.unit - 0x900) % 32) 3
      let s := if s.flt.fenced.contains p.unit then s else s.countFenced 4 p.unit
      (s.finishPromo p.unit).showBench stack
    | none =>
      match s.hbm.visits.find? fun v => v.stack = stack with
      | some v =>
        let s := { s with hbm := { s.hbm with visits := s.hbm.visits.filter (· ≠ v) } }
        (s.remap stack v.src v.dst 1).fset F.HBC_PC.state stack v.src 4
      | none => s

/-- HBM_TRAIN_DONE (R314): the trained pseudo-channel of a stack goes to BENCH, and a round goes on. -/
def execHbmTrainDone (stack : Nat) (s : State) : Host.Outcome State Fault Refusal :=
  s.act fun s =>
    match (List.range 32).find? fun p => s.fget F.HBC_PC.state stack p = 4 with
    | none => s
    | some p =>
      let s := (s.fset F.HBC_PC.state stack p 1).showBench stack
      match tabFind s.hbm.round stack with
      | some l => s.roundNext stack l
      | none => s

/-! ## Errors (R316, R318) -/

/-- An error of a read line of a block. -/
def State.hbmLineError (s : State) (block line : Nat) (uncorr : Bool) : State :=
  let (h, p, sid, bank, row) := s.lineHome block line
  let u := pcUnit h p
  let d5 := sid * 2 ^ 14 + row
  let k := bankKey h p sid bank * 16384 + row
  let start := fun (s : State) => if s.hbm.repairing.contains (u, k) then s
    else { s with hbm := { s.hbm with repairing := s.hbm.repairing ++ [(u, k)] } }
  if uncorr then
    let s := ((s.scnt h 5).rowFenced).fencing 3 u block d5 16 true 0 2
    let s := if s.inPool block then { s with hbm := { s.hbm with badLines := s.hbm.badLines ++ [block * 256 + line] } } else s
    start (s.loseLine block line)
  else
    let s := (s.scnt h 4).corrected 3 u block d5
    let n := tabGet 0 s.hbm.rowCorr k + 1
    let m := tabGet 0 s.hbm.corr u + 1
    let s := { s with hbm := { s.hbm with rowCorr := tabSet 0 s.hbm.rowCorr k n, corr := tabSet 0 s.hbm.corr u m } }
    let s := s.fset F.HBC_PC.trend h p (Config.trendLevel m).toNat
    if s.autoKind 5 && decide (bits (s.rdPlane 16 (s.bankOf 16 s.tagNow) .FLT_WEAR_TH 0 0).toNat 31 16 ≤ n) then start s else s

/-- HBM_READ_ERROR (R316): the read of a line of a block was corrected (`uncorr` false), or was uncorrectable: the row is fenced, the copies
that overlap the line are lost, and the row's repair starts. -/
def execHbmReadError (block line : Nat) (uncorr : Bool) (s : State) : Host.Outcome State Fault Refusal := s.act fun s => s.hbmLineError block line uncorr

/-- HBM_ROW_REPAIR_DONE (R316): the repair of the row of a pseudo-channel ends; a bank left without repair raises the ADVISORY that
recommends promotion. DESIGN CHOICE, log entry 43. -/
def execHbmRowRepairDone (unit : Nat) (s : State) : Host.Outcome State Fault Refusal :=
  s.act fun s =>
    match s.hbm.repairing.find? fun e => e.1 = unit with
    | none => s
    | some (u, k) =>
      let h := (u - 0x900) / 32
      let p := (u - 0x900) % 32
      let bank := k / 16384
      let n := tabGet 0 s.hbm.repairs bank + 1
      let s := { s with hbm := { s.hbm with
        repairing := s.hbm.repairing.filter (· ≠ (u, k)), repairs := tabSet 0 s.hbm.repairs bank n
        rowCorr := tabSet 0 s.hbm.rowCorr k 0
        badLines := s.hbm.badLines.filter fun x =>
          let (h', p', sid, b', row) := s.lineHome (x / 256) (x % 256)
          bankKey h' p' sid b' * 16384 + row ≠ k } }
      let s := s.scnt h 6
      let s := s.fset F.HBC_PC.spare h p (min (s.fget F.HBC_PC.spare h p) (15 - n))
      let s := if s.hbm.repairing.any fun e => e.1 = u then s else s.endReaction u
      if 15 ≤ n then s.wearAdvisory 4 u 4 (bank % 64) 0 0 else s

/-- Every queue block of a logical pseudo-channel loses its copies. -/
def State.loseChannel (s : State) (h lp : Nat) : State :=
  let on := fun b => blockStack b = h ∧ blockLogical b = lp
  let blocks := (s.queues.flatMap fun e => e.2.blocks).filter fun b => on b
  let s := blocks.foldl (fun s b => (List.range 256).foldl (fun s j => s.loseLine b j) s) s
  let pool := (List.range 12).flatMap fun i =>
    let (base, n) := s.poolBlocks (4 + i)
    ((List.range n).map (base + ·)).filter fun b => on b
  { s with hbm := { s.hbm with lostBlocks := s.hbm.lostBlocks ++ pool.filter fun b => !s.hbm.lostBlocks.contains b } }

/-- A queue leaves the blocks of a pseudo-channel that is gone. The records of its write block that are not yet written, whose copies hold their
buffers, are pending again, and the next record opens a block; those of an earlier block keep their place, and are taken from on-chip.
DEDUCED, log entry 42. -/
def State.unstage (s : State) (n : Nat) (on : Nat → Bool) : State :=
  let q := s.queue n
  let s := s.dropReqs true fun r => r.queue ≠ some n || !on r.block
  let s := match q.blocks.getLast? with
    | some b =>
      if on b then
        let mine := fun (d : DeepRec) => d.staged && d.block == b
        let back := (q.deep.filter fun d => mine d).map fun (d : DeepRec) => { d.copy with wentDeep := false }
        (s.putQueue n { q with deep := q.deep.filter fun d => !mine d, pend := back ++ q.pend, woff := 65536
                               blocks := q.blocks.filter fun b => !on b }).dropStaging n
      else s.setQueue n { q with blocks := q.blocks.filter fun b => !on b }
    | none => s
  (s.dropBlocks n).deepSettle n

/-- A pseudo-channel leaves a stack that has no bench (R318): DRAINING while it reads, else FENCED at once. -/
def State.pcLeave (s : State) (u : Nat) (reads : Bool) : State :=
  let h := (u - 0x900) / 32
  let p := (u - 0x900) % 32
  if reads then s.fset F.HBC_PC.state h p 5
  else
    let lp := s.fget F.HBC_PC.logical h p
    let s := s.loseChannel h lp
    let on := fun b => blockStack b == h && blockLogical b == lp
    let has := s.queues.filter fun e => e.2.blocks.any on
    (has.foldl (fun s e => s.unstage e.1 on) s).fset F.HBC_PC.state h p 3

/-- HBM_PC_DRAINED (R318): a DRAINING pseudo-channel whose queue blocks have been read back goes to FENCED. -/
def execHbmPcDrained (unit : Nat) (s : State) : Host.Outcome State Fault Refusal :=
  s.act fun s =>
    let h := (unit - 0x900) / 32
    let p := (unit - 0x900) % 32
    let lp := s.fget F.HBC_PC.logical h p
    let busy := (s.queues.flatMap fun e => e.2.blocks).any fun b => blockStack b = h ∧ blockLogical b = lp
    if s.fget F.HBC_PC.state h p ≠ 5 ∨ busy then s
    else
      let s := s.fset F.HBC_PC.state h p 3
      if s.flt.fenced.contains unit then s else s.countFenced 4 unit

/-! ## Serving requests (R309) -/

/-- A pseudo-channel serves a request. -/
def State.serveLine (s : State) (k : Nat) : State :=
  let write := s.toWrite k
  let rest := s.hbm.writing.filter (· ≠ k)
  let s := { s with hbm := { s.hbm with writing := if write ∧ s.reqs true k ≠ [] then rest ++ [k] else rest } }
  match s.pickReq k (s.reqs write k) with
  | none => s
  | some r =>
    let s := (s.setReqs write k ((s.reqs write k).erase r)).columnAccess k r write
    match write, r.queue with
    | true, some n => s.settleWritten n
    | _, _ => s

/-- The HBM controller's share of a core clock: each pseudo-channel serves one request. DESIGN CHOICE, log entry 66. -/
def State.hbmTick (s : State) : State :=
  (((s.hbm.reads ++ s.hbm.writes).map Prod.fst).eraseDups.foldl (fun s k => s.serveLine k) s).issueLate

/-- A partition takes a turn of a round robin out of order, as a thread or DMA channel accesses a deep-buffer pool (R305).
DESIGN CHOICE, log entry 43. -/
def State.takeTurn (s : State) (write : Bool) (p : Nat) : State :=
  let weight := max 1 (if write then s.fget F.HBC_TEN.wr_weight p else s.fget F.HBC_TEN.rd_weight p)
  let next := fun (t : Nat × Nat) => if t.1 = p ∧ 0 < t.2 then (p, t.2 - 1) else (p, weight - 1)
  if write then { s with hbm := { s.hbm with wrTurn := next s.hbm.wrTurn } } else { s with hbm := { s.hbm with rdTurn := next s.hbm.rdTurn } }

/-- A thread or a DMA channel accesses `n` bytes of a buffer from an offset: of a deep-buffer pool, their lines are asked for under the pool's
partition (R305). -/
def State.deepTouch (s : State) (write : Bool) (h off n : Nat) : State :=
  let i := handlePool h
  if n = 0 ∨ !s.poolDeep i then s
  else
    let a := handleOff h + off
    (List.range ((a + n - 1) / 256 - a / 256 + 1)).foldl
      (fun s x => s.lineRequest write none (s.poolBase i + (a / 256 + x) / 256) ((a / 256 + x) % 256)) (s.takeTurn write (s.poolPart i))

/-! ## Register effects (R308, R319, R320) -/

/-- A write of `HBC_CTL` of a stack. -/
def State.effHbcCtl (s : State) (h v : Nat) : State :=
  match bits v 1 0 with
  | 1 => if s.fget F.HBC_STACK.state h = 1 then s.fset F.HBC_STACK.state h 0 2 else s
  | 2 => if s.fget F.HBC_STACK.state h = 2 then s.fset F.HBC_STACK.state h 0 1 else s
  | 3 => s.visit h (bits v 6 2)
  | _ => s

/-- A stack holds a block in use. -/
def State.stackUsed (s : State) (h : Nat) : Bool := (List.range 31).any fun lp => decide (0 < s.pcUsed h lp)

/-- A write of `HBC_BMASK` takes effect only while the stack holds no block in use (R308); `old` is the value before it. -/
def State.effHbcBmask (s : State) (h i : Nat) (old : RegVal) : State :=
  if s.stackUsed h then (s.wr .HBC_BMASK h i old).fset F.HBC_STACK.mask_err h 0 1 else s

end Sys2Proof.Machine
end

