-- ==== Sys2Proof/Machine/Push.lean ====
section
/-! DEFINITION. Frames that software sends: a copy enqueued on a port, and a job submitted to a slice group (R30, R409, R445). -/

namespace Sys2Proof.Machine

/-- What a sender gives with a frame: its buffer, its length with the FCS, the partition, and the fields of its descriptor. -/
structure Push where
  handle : Nat
  len : Nat
  part : Nat
  port : Nat := 0
  qclass : Nat := 0
  cls : Nat := 0
  colour : Nat := 0
  edit : Nat := 0
  md : Nat := 0
  mirrorEn : Bool := false
  mirror : Nat := 0
  deriving DecidableEq, Repr

/-- The record of a frame that software sends: ended, of the general sequence, without a receive stamp (R497). -/
def State.pushFrame (s : State) (p : Push) (group : Nat) (bytes : List Byte) (switched : Bool) : Frame :=
  { port := 0, owner := p.part, group := group, express := false, tag := s.tagNow, pre := 0, injected := some p.part, bytes := bytes,
    len := p.len, known := p.len, ended := true, handle := p.handle, switched := switched }

/-- Enqueue one copy for a port (R409, R445): the drop reason of R406, 0 for none. The holding passes to the copy; mirror copies follow
(R286). -/
def State.pushCopy (s : State) (p : Push) : Nat × State :=
  let id := s.nextFrame
  let f := s.pushFrame p (p.port / 64) [] true
  let r : Result := { kind := 0, dest := p.port, tenant := p.part, cls := p.cls, colour := p.colour, edit := p.edit, mirrorEn := p.mirrorEn,
                      mirror := p.mirror, md := p.md }
  let s := { s with frames := tabInsert s.frames id f, nextFrame := id + 1 }
  let demote := p.qclass = 7
  let s := if demote then s.bump F.PRS_CNT.count p.part 7 else s
  let qc := if demote then 6 else p.qclass
  let c := copyFor id f r p.port ((s.setFor f.tag p.part p.port).getD 16) qc p.edit
  let (why, s) := s.enqueue c p.part none
  if why ≠ 0 then (why, { s with frames := tabErase s.frames id })
  else
    let like := copyFor id f r 0 0 qc 0
    (0, s.mirrorCopies f.group [c] like (s.inSessions f r) none)

/-- The injection FIFO of a group is full. -/
def State.injectFull (s : State) (g : Nat) : Bool := decide (64 ≤ (s.group g).inject.length)

/-- Submit a job of the general sequence to a group's injection port (R30, R184). -/
def State.injectJob (s : State) (p : Push) (g : Nat) : State :=
  let id := s.nextFrame
  let f := s.pushFrame p g (s.bufBytes p.handle 0 p.len) false
  let s := { s with frames := tabInsert s.frames id f, nextFrame := id + 1 }
  let s := s.modGroup g fun q => { q with inject := q.inject ++ [id] }
  (s.balAdd p.part 1).balAdd p.part 5

end Sys2Proof.Machine
end

