-- ==== Sys2Proof/Machine/Cores.lean ====
section
/-! DEFINITION. Control threads (chapter 12): what a thread reaches, its faults, its life, and how a command runs the thread's next
instruction. -/

namespace Sys2Proof.Machine

/-! ## Threads and partitions -/

/-- The unit of a thread (R385), and the thread of a unit. -/
def thrUnit (t : Nat) : Nat := 0x800 + t
def unitThr (u : Nat) : Option Nat := if 0x800 ≤ u ∧ u < 0x890 then some (u - 0x800) else none

/-- The thread runs in supervisor mode. -/
def State.supMode (s : State) (t : Nat) : Bool := s.flag F.CCX_T_STATUS.mode t

/-- The thread's program counter. -/
def State.pc (s : State) (t : Nat) : Nat := s.fget F.CCX_T_PC.pc t

/-- Set the program counter. -/
def State.setPc (s : State) (t v : Nat) : State := s.fset F.CCX_T_PC.pc t 0 v

/-- CMEM words of a partition (R100). -/
def State.cmemBase (s : State) (p : Nat) : Nat := 4096 * bits (s.partWord p 26) 8 0
def State.cmemWords (s : State) (p : Nat) : Nat := 4096 * bits (s.partWord p 26) 18 9

/-- A counter of a partition's control-core bank (R425). -/
def State.ccxCount (s : State) (p i : Nat) : State := s.bump F.CCX_CNT.count p i

/-- Threads that a partition has drawn from the common pool. -/
def State.drawn (s : State) (p : Nat) : Nat := (threadSlots.filter fun t => s.thrPart t = p && (s.thr t).drawn).length

/-! ## Performance counters (R419) -/

/-- Count an event of a thread in the counters of its position that select it. DESIGN CHOICE, log entry 52. -/
def State.pmcEvent (s : State) (t ev : Nat) (n : Nat := 1) (sup : Bool := s.supMode t) : State :=
  let k := t / 8
  (List.range 8).foldl (fun s j =>
    let on := s.fget F.CCX_PMSEL.event k j = ev && bit (s.fget F.CCX_PMSEL.tmask k j) (t % 8) &&
      (if sup then s.flag F.CCX_PMSEL.super k j else s.flag F.CCX_PMSEL.user k j)
    if on then
      let v := s.fget F.CCX_PMC.count k j + n
      let s := s.fset F.CCX_PMC.count k j v
      if 2 ^ 36 ≤ v then s.fset F.CCX_PMSEL.ovf k j 1 else s
    else s) s

/-- The events of a clock cycle: RUNNING, in WFE, in JOIN, and waiting on a table instruction (R419). DESIGN CHOICE, log entry 52. -/
def State.cycleEvents (s : State) : State :=
  let ks := ((s.regs.filter fun e => e.1 / 2 ^ 32 = Reg.CCX_PMSEL.ctorIdx).map fun e => e.1 / 2 ^ 16 % 2 ^ 16).dedup
  ks.foldl (fun s k =>
    (List.range 8).foldl (fun s i =>
      let t := 8 * k + i
      let st := s.thrState t
      if st = tRunning then s.pmcEvent t 1
      else if st = tWaiting then
        match (s.thr t).wait with
        | some (.wfe _ _) => s.pmcEvent t 8
        | some (.join _ _) => s.pmcEvent t 9
        | some (.table _ _) | some (.look _ _) => s.pmcEvent t 12
        | none => s
      else s) s) s

/-- Core clocks from the issue of a TLOOK until its thread issues again (R393). -/
def lookClocks : Nat := 200

/-- The lookups whose answers have come: their threads go on (R389). DEDUCED, log entry 50. -/
def State.lookTick (s : State) : State :=
  s.threads.foldl (fun s e => match e.2.wait with
    | some (.look rd v) => if e.2.since + lookClocks ≤ s.time.cycles then (s.setG e.1 rd (BitVec.ofNat 36 v)).wakeThread e.1 else s
    | _ => s) s

/-! ## Ends and releases (R403) -/

/-- A released static thread becomes IDLE; a drawn one FREE, held by no partition. -/
def State.releaseThread (s : State) (t : Nat) : State :=
  let s := s.modThr t fun h => { h with wait := none, parent := none, timer := none }
  if (s.thr t).drawn then
    ((s.modThr t fun h => { h with drawn := false }).fset F.CCX_T_STATUS.state t 0 tFree).fset F.CCX_T_STATUS.part t 0 31
  else s.fset F.CCX_T_STATUS.state t 0 tIdle

/-- The children of an ended thread: EXITED ones are released, the others lose their parent. -/
def State.orphan (s : State) (t : Nat) : State :=
  threadSlots.foldl (fun s c =>
    if (s.thr c).parent = some t then
      if s.thrState c = tExited then s.releaseThread c else s.modThr c fun h => { h with parent := none }
    else s) s

/-- A thread ends with an exit value: its parent is told and may take it from a JOIN. -/
def State.endThread (s : State) (t v : Nat) : State :=
  let s := s.orphan t
  match (s.thr t).parent with
  | none => s.releaseThread t
  | some p =>
    let s := (s.modThr t fun h => { h with exitVal := v, wait := none, timer := none }).fset F.CCX_T_STATUS.state t 0 tExited
    let s := s.setEvents p (2 ^ 11)
    match (s.thr p).wait with
    | some (.join rd c) => if c = t then ((s.setG p rd (BitVec.ofNat 36 v)).wakeThread p).releaseThread t else s
    | _ => s

/-- The exit value of a thread that is ended by KILL, THR_KILL or CLEAR. -/
def State.killValue (s : State) (t : Nat) : Nat := 2 ^ 35 + s.fget F.CCX_T_FAULT.code t

/-- A thread that an operation may kill. -/
def State.killable (s : State) (t : Nat) : Bool := decide (s.thrState t = tRunning ∨ s.thrState t = tWaiting ∨ s.thrState t = tHalted)

/-! ## Thread faults (R414–R416) -/

/-- The supervisor that takes a thread's fault record: its partition's, or H's for a supervisor's own; none for H's supervisor. -/
def State.faultTaker (s : State) (t : Nat) : Option Nat :=
  match s.supervisor (s.thrPart t) with
  | some u => if u ≠ t then some u else (if s.thrPart t = 16 then none else s.supervisor 16)
  | none => s.supervisor 16

/-- Queue a fault record to a supervisor, which sets its event bit 15; a full queue loses it. -/
def State.queueFault (s : State) (u p : Nat) (ws : List Nat) : State :=
  let l := tabGet [] s.faultQ u
  if 32 ≤ l.length then s.ccxCount p 3
  else { s with faultQ := tabSet [] s.faultQ u (l ++ [ws]) }.setEvents u (2 ^ 15)

/-- A thread fault: the thread stops in a state, and its record is written (R416) to the rings and to a supervisor, as it stood when the thread
faulted. -/
def State.threadFault (s : State) (t code addr word : Nat) (state : Nat := tHalted) (taker : Option Nat := s.faultTaker t) : State :=
  let p := s.thrPart t
  let md := if s.supMode t then 1 else 0
  let s := (s.pmcEvent t 14).fset F.CCX_T_STATUS.state t 0 state
  let s := (s.fset F.CCX_T_FAULT.code t 0 code).bumpSat F.CCX_T_FAULT.count t 0
  let s := (s.modThr t fun h => { h with wait := none }).ccxCount p 2
  let r : Record := { code := 0x64, unit := thrUnit t, stamp := s.stamp, p3 := code + md * 2 ^ 8 + state * 2 ^ 9, p4 := s.pc t, p5 := addr,
                      p6 := word, p7 := t / 8 + s.fget F.CCX_CORE.phys (t / 8) * 2 ^ 8 }
  let s := s.emitBoth p clsFault r
  match taker with
  | some u => s.queueFault u p (offRing r p)
  | none => s

/-- Fault codes (R414). -/
def fIllegal : Nat := 1
def fPriv : Nat := 2
def fRange : Nat := 3
def fAlign : Nat := 4
def fFetch : Nat := 5
def fWindow : Nat := 6
def fHandle : Nat := 7
def fJoin : Nat := 8
def fTarget : Nat := 9
def fQueue : Nat := 10
def fTrap : Nat := 11
def fDeep : Nat := 12
def fBreak : Nat := 13
def fStore : Nat := 14
def fCore : Nat := 15

/-! ## Memory (R395, R398) -/

/-- Where an address leads: a CMEM word, a word of a buffer window, or nowhere the thread reaches. -/
inductive Reach where
  | cmem (w : Nat)
  | window (i w : Nat)
  | none
  deriving DecidableEq, Repr

/-- The place of a data address. -/
def State.place (s : State) (t a : Nat) : Reach :=
  let p := s.thrPart t
  let sup := s.supMode t
  if a < 2 ^ 32 then
    let user := decide (s.csr t 2 ≤ a ∧ a < s.csr t 2 + s.csr t 3)
    if a < s.cmemWords p ∧ (sup ∨ user) then .cmem (s.cmemBase p + a) else .none
  else if a < 2 ^ 33 then
    if p = 16 ∧ sup ∧ a - 2 ^ 32 < 2097152 then .cmem (a - 2 ^ 32) else .none
  else if a < 2 ^ 33 + 4 * 2 ^ 24 then .window ((a - 2 ^ 33) / 2 ^ 24) ((a - 2 ^ 33) % 2 ^ 24)
  else .none

/-- The CMEM word of an address that must lie in CMEM. -/
def State.cmemPlace (s : State) (t a : Nat) : Option Nat := match s.place t a with | .cmem w => some w | _ => none

/-- The CMEM words of `n` addresses from `a` on, when the thread reaches them all. -/
def State.cmemSpan (s : State) (t a n : Nat) : Option Nat :=
  if (List.range n).all (fun i => (s.cmemPlace t ((a + i) % 2 ^ 36)).isSome) then s.cmemPlace t a else none

/-- A byte of a deep-buffer software pool cannot be read: its line is lost, or its pseudo-channel is withdrawn (R318). -/
def State.deepBad (s : State) (h off : Nat) : Bool :=
  s.poolDeep (handlePool h) &&
    (let a := handleOff h + off
     let b := s.poolBase (handlePool h) + a / 65536
     s.hbm.badLines.contains (b * 256 + a % 65536 / 256) || s.hbm.lostBlocks.contains b || (s.physPc (blockStack b) (blockLogical b)).isNone)

/-- The error of an access to word `w` of window `i`: none, WINDOW or DEEP_ERR; with the handle. -/
def State.windowCheck (s : State) (t i w : Nat) : Nat × Nat :=
  let h := s.csr t (0x50 + i)
  let mine := match s.buf h with | some b => decide (b.part = s.thrPart t ∨ s.thrPart t = 16) | none => false
  let ok := (s.thr t).windows.contains i && decide (s.handleOk h) && decide (4 * w + 4 ≤ s.poolSize (handlePool h)) && mine
  if !ok then (fWindow, h) else if s.deepBad h (4 * w) then (fDeep, h) else (0, h)

/-- The fault of an address that leads nowhere: an access to region 1 in user mode is PRIV (R399), any other MEM_RANGE (R395).
DEDUCED, log entry 50. -/
def State.reachFault (s : State) (t a : Nat) : Nat :=
  if !s.supMode t ∧ 2 ^ 32 ≤ a ∧ a - 2 ^ 32 < 2097152 then fPriv else fRange

/-- Load a word: a fault code and the value. -/
def State.load (s : State) (t a : Nat) : Nat × Word :=
  match s.place t a with
  | .cmem w => (0, s.cget w)
  | .window i w =>
    let (e, h) := s.windowCheck t i w
    if e = 0 then (0, BitVec.ofNat 36 (ofBE (s.bufBytes h (4 * w) 4))) else (e, 0)
  | .none => (s.reachFault t a, 0)

/-- A data access of a thread: of a deep-buffer pool behind a window, its line is asked for (R305). -/
def State.touched (s : State) (t a : Nat) (write : Bool) : State :=
  match s.place t a with
  | .window i w => s.deepTouch write (s.csr t (0x50 + i)) (4 * w) 4
  | _ => s

/-- The fault of a store to an address; 0 for none. -/
def State.storeCheck (s : State) (t a : Nat) : Nat :=
  match s.place t a with
  | .cmem _ => 0
  | .window i w => (s.windowCheck t i w).1
  | .none => s.reachFault t a

/-- Store a word to an address that the thread reaches. -/
def State.store (s : State) (t a : Nat) (v : Word) : State :=
  match s.place t a with
  | .cmem w => s.cput w v
  | .window i w => (s.bufWrite (s.csr t (0x50 + i)) (4 * w) (bytesBE 4 (v.toNat % 2 ^ 32))).touched t a true
  | .none => s

/-! ## Instructions (R391, R393) -/

/-- Fields of an instruction word. -/
def iOp (w : Nat) : Nat := bits w 35 30
def iRd (w : Nat) : Nat := bits w 29 25
def iRs1 (w : Nat) : Nat := bits w 24 20
def iRs2 (w : Nat) : Nat := bits w 19 15
def iFunc (w : Nat) : Nat := bits w 5 0
def iImm (w : Nat) : Nat := bits w 19 0

/-- A number of `n` bits sign-extended to 36 bits. -/
def sext (n v : Nat) : Nat := if v < 2 ^ (n - 1) then v else v + 2 ^ 36 - 2 ^ n

/-- The kinds of instruction, one for each row of commands. -/
inductive Kind where
  | illegal | integer | immediate | lui | bitField | pair | multiply | divide | lw | sw | lp | sp | amoadd | amoswap | cas | branch
  | jal | jalr | fork | join | exit | wfe | sev | yield | qpop | qpush | bget | bput | brel | bret | bgive | brcl | bwin | binfo | tlook
  | tins | tsrch | csrr | csrw | trap | rets | fence | iflush | thrKill | thrStart | thrResume | thrRdreg | thrWrreg | brk
  deriving DecidableEq, Repr

/-- The kind of a list at an index; beyond it the instruction is not listed. -/
def kindAt (l : List Kind) (i : Nat) : Kind := l.getD i .illegal

/-- The kind of an R-format instruction: its bits [14:6] are zero. -/
def kindR (w : Nat) (l : List Kind) : Kind := if bits w 14 6 ≠ 0 then .illegal else kindAt l (iFunc w)

/-- A register number that names no pair (R390). -/
def badPair (r : Nat) : Bool := r % 2 = 1 || r = 0

/-- The kind of an instruction word, before its pairs are checked. -/
def rawKind (w : Nat) : Kind :=
  match iOp w with
  | 0x00 => kindR w (List.replicate 12 .integer)
  | 0x01 | 0x02 | 0x03 | 0x04 | 0x05 => .immediate
  | 0x06 => if bits w 7 6 = 3 then .illegal else .immediate
  | 0x07 => .lui
  | 0x08 => .lw
  | 0x09 => .sw
  | 0x0A => .lp
  | 0x0B => .sp
  | 0x0C => kindR w [.amoadd, .amoswap, .cas]
  | 0x10 | 0x11 | 0x12 | 0x13 | 0x14 | 0x15 => .branch
  | 0x16 => .jal
  | 0x17 => .jalr
  | 0x18 => kindR w [.multiply, .multiply, .multiply, .divide, .divide, .divide, .divide]
  | 0x19 => .bitField
  | 0x1A => kindR w (List.replicate 5 .pair)
  | 0x20 => kindR w [.fork, .join, .exit, .wfe, .sev, .yield]
  | 0x21 => .qpop
  | 0x22 => .qpush
  | 0x23 => kindR w [.bget, .bput, .brel, .bret, .bgive, .brcl, .bwin, .binfo]
  | 0x24 => .tlook
  | 0x25 => if bits w 14 0 ≠ 0 then .illegal else .tins
  | 0x26 => if bits w 14 0 ≠ 0 then .illegal else .tsrch
  | 0x28 => .csrr
  | 0x29 => .csrw
  | 0x2C => kindR w [.trap, .rets, .fence, .iflush, .thrKill, .thrStart, .thrResume, .thrRdreg, .thrWrreg, .brk]
  | _ => .illegal

/-- The pairs that an instruction names are even and not zero; BGET's `rd` is even (R390, R412). -/
def pairsOk (w : Nat) : Bool :=
  match rawKind w with
  | .pair =>
    !badPair (iRd w) && !badPair (iRs1 w) && (decide (2 ≤ iFunc w) || !badPair (iRs2 w))
  | .multiply => iFunc w ≠ 2 || !badPair (iRd w)
  | .lp | .sp => !badPair (iRd w)
  | .bget => iRd w % 2 = 0
  | _ => true

/-- The kind of an instruction word (R391, R414). -/
def kindOf (w : Nat) : Kind := if pairsOk w then rawKind w else .illegal

/-! ## Fetching (R395, R396) -/

/-- The CMEM word that the program counter names; none is a FETCH fault. -/
def State.fetchPlace (s : State) (t : Nat) : Option Nat := s.cmemPlace t (s.pc t)

/-- The instruction of a thread: the core's cache may still hold what CMEM no longer does, and when they differ which one is fetched is
open (R396). -/
def State.fetchWord (s : State) (t w : Nat) : Word × State :=
  let k := t / 8 * 2 ^ 21 + w
  let m := s.cget w
  match tabFind s.icache k with
  | some old =>
    if old = m then (m, s)
    else if s.freeNat 1 = 0 then (old, s.nextFree) else (m, { s.nextFree with icache := tabInsert s.icache k m })
  | none => (m, { s with icache := tabInsert s.icache k m })

/-- Invalidate the cache of a position over a partition's region 0. -/
def State.invalidate (s : State) (pos p : Nat) : State :=
  { s with icache := s.icache.filter fun e =>
      !(decide (e.1 / 2 ^ 21 = pos ∧ s.cmemBase p ≤ e.1 % 2 ^ 21 ∧ e.1 % 2 ^ 21 < s.cmemBase p + s.cmemWords p)) }

/-! ## Tagging (R420) -/

/-- The gap to the next tagged instruction of a position. -/
def State.tagGap (s : State) (k lfsr : Nat) : Nat :=
  let lo := max 1 (s.fget F.CCX_TAG_BOUNDS.min k)
  let hi := max lo (s.fget F.CCX_TAG_BOUNDS.max k)
  lo + lfsr % (hi - lo + 1)

/-- A branch's condition by `op`; it compares the registers in [29:25] and [24:20] (R391). -/
def branchTaken (op : Nat) (a b : Word) : Bool :=
  match op with
  | 0x10 => a = b
  | 0x11 => a ≠ b
  | 0x12 => a.slt b
  | 0x13 => !a.slt b
  | 0x14 => a.ult b
  | _ => !a.ult b

/-- What tagging and counting see of an instruction as it issues: its thread, address, word and kind, and that its fetch missed the cache. -/
structure Issued where
  t : Nat
  pc : Nat
  word : Nat
  kind : Kind
  miss : Bool
  deriving DecidableEq, Repr

/-- A branch is mispredicted: backward ones are predicted taken, forward ones not (R393). -/
def State.mispredicted (s : State) (x : Issued) : Bool :=
  decide (x.kind = .branch) &&
    branchTaken (iOp x.word) (s.greg x.t (iRd x.word)) (s.greg x.t (iRs1 x.word)) != decide (2 ^ 19 ≤ iImm x.word)

/-- The sample record of a tagged instruction goes into the ring; `pre` is the state in which it issued. Its times, and whether it issued with
another, are open. DEDUCED, log entry 51. -/
def State.sample (s pre : State) (x : Issued) (faulted : Bool) : State :=
  let t := x.t
  let k := t / 8
  let h := s.fget F.CCX_TAG.head k
  let fr := s.freeNat 1
  let cyc := s.nextFree.freeNat 36
  let s := s.nextFree.nextFree
  let a := ((pre.greg t (iRs1 x.word)).toNat + sext 20 (iImm x.word)) % 2 ^ 36
  let load := x.kind = .lw ∨ x.kind = .lp
  let flag := fun (b : Bool) (n : Nat) => if b then 2 ^ n else 0
  let w0 := 2 ^ 35 + t % 8 * 2 ^ 32 + pre.thrPart t * 2 ^ 27 + flag (pre.supMode t) 26 + flag x.miss 16 + fr * 2 ^ 17 +
    flag (pre.mispredicted x) 18 + flag (decide (load ∧ a < 2 ^ 33)) 19 +
    flag (decide ((load ∨ x.kind = .sw ∨ x.kind = .sp) ∧ 2 ^ 33 ≤ a)) 20 + flag (decide (s.thrState t = tWaiting)) 21 + flag faulted 22
  let put := fun (s : State) (i v : Nat) => s.fset F.CCX_SAMPLE.word k (4 * h + i) v
  (put (put (put (put s 0 w0) 1 x.pc) 2 x.word) 3 cyc).fset F.CCX_TAG.head k 0 (h + 1)

/-- An instruction of a thread has been issued: it may be tagged. -/
def State.tagStep (s pre : State) (x : Issued) (faulted : Bool) : State :=
  let k := x.t / 8
  if s.flag F.CCX_TAG.en k ∧ bit (s.fget F.CCX_TAG.tmask k) (x.t % 8) then
    let (lfsr, gap) := tabGet (0x5AC3E1, 0) s.tags k
    if 1 < gap then { s with tags := tabSet (0x5AC3E1, 0) s.tags k (lfsr, gap - 1) }
    else
      let l := lfsrStep lfsr
      { s with tags := tabSet (0x5AC3E1, 0) s.tags k (l, s.tagGap k l) }.sample pre x faulted
  else s

/-! ## Running one instruction -/

/-- What an instruction does: a fault with its code and the address it concerns; a state in which the program counter has its next
value; or an effect after which the thread faults and goes to a state. -/
inductive Did where
  | fault (code addr : Nat)
  | go (s : State)
  | after (s : State) (code addr state : Nat)
  deriving Repr

/-- The instruction is done and the next one follows. -/
def State.step1 (s : State) (t : Nat) : State := s.setPc t ((s.pc t + 1) % 2 ^ 36)

/-- Run the next instruction of a RUNNING thread, outside REST, when it is of one of the kinds of a command. An instruction that cannot be fetched or is
not listed faults, whichever command names the thread. DEDUCED, log entry 48. -/
def State.coreOp (s : State) (t : Nat) (kind : Kind) (run : State → Nat → Did) : State :=
  if 144 ≤ t ∨ s.thrState t ≠ tRunning ∨ s.frozen then s
  else
    match s.fetchPlace t with
    | none => s.threadFault t fFetch 0 0
    | some w =>
      let (ins, s') := s.fetchWord t w
      let i := ins.toNat
      let x : Issued := { t := t, pc := s.pc t, word := i, kind := kind, miss := (tabFind s.icache (t / 8 * 2 ^ 21 + w)).isNone }
      let s' := if x.miss then s'.pmcEvent t 4 else s'
      if kindOf i = .illegal then s'.threadFault t fIllegal 0 i
      else if kindOf i ≠ kind then s
      else
        let s' := if s.mispredicted x then s'.pmcEvent t 7 else s'
        match run s' i with
        | .fault code addr => (s'.threadFault t code addr i).tagStep s x true
        | .go s'' => (s''.pmcEvent t 2 1 (s.supMode t)).tagStep s x false
        | .after s'' code addr state => (s''.threadFault t code addr i state (s'.faultTaker t)).tagStep s x true

/-- An instruction that writes `rd` and goes on. -/
def State.setRd (s : State) (t i : Nat) (v : Word) : Did := .go ((s.setG t (iRd i) v).step1 t)

/-- The operands. -/
def State.rs1 (s : State) (t i : Nat) : Word := s.greg t (iRs1 i)
def State.rs2 (s : State) (t i : Nat) : Word := s.greg t (iRs2 i)

/-- `rs1` + `imm`. -/
def State.effAddr (s : State) (t i : Nat) : Nat := ((s.rs1 t i).toNat + sext 20 (iImm i)) % 2 ^ 36

/-- A pair as a 72-bit value. -/
def State.pairOf (s : State) (t r : Nat) : RegVal := (s.greg t (r + 1)) ++ (s.greg t r)

/-- Write a pair. -/
def State.setPair (s : State) (t r : Nat) (v : RegVal) : State := (s.setG t r (v.setWidth 36)).setG t (r + 1) ((v >>> 36).setWidth 36)

end Sys2Proof.Machine
end

