-- ==== Sys2Proof/Machine/CoreAlu.lean ====
section
/-! DEFINITION. The instructions of a control thread that compute, load, store and jump (R390–R398). -/

namespace Sys2Proof.Machine

/-! ## Arithmetic (R390, R392, R393) -/

/-- Shifts by 36 or more give 0, or copies of the sign bit (R392). -/
def sll36 (a : Word) (n : Nat) : Word := if 36 ≤ n then 0 else a <<< n
def srl36 (a : Word) (n : Nat) : Word := if 36 ≤ n then 0 else a >>> n
def sra36 (a : Word) (n : Nat) : Word := a.sshiftRight (min n 35)

/-- Leading zeros, 36 of zero. -/
def clz36 (a : Word) : Nat := (List.range 36).foldl (fun n i => if a.getLsbD i then 35 - i else n) 36

/-- Bits that are one. -/
def popc36 (a : Word) : Nat := (List.range 36).foldl (fun n i => if a.getLsbD i then n + 1 else n) 0

/-- A truth value as a word. -/
def boolWord (b : Bool) : Word := if b then 1 else 0

/-- The integer operations by `func`. -/
def intOp (f : Nat) (a b : Word) : Word :=
  match f with
  | 0 => a + b
  | 1 => a - b
  | 2 => a &&& b
  | 3 => a ||| b
  | 4 => a ^^^ b
  | 5 => sll36 a b.toNat
  | 6 => srl36 a b.toNat
  | 7 => sra36 a b.toNat
  | 8 => boolWord (a.slt b)
  | 9 => boolWord (a.ult b)
  | 10 => BitVec.ofNat 36 (clz36 a)
  | _ => BitVec.ofNat 36 (popc36 a)

/-- The immediate operations by `op`: the logical ones zero-extend, ADDI and SLTI sign-extend (R391). -/
def immOp (op imm : Nat) (a : Word) : Word :=
  let z : Word := BitVec.ofNat 36 imm
  let x : Word := BitVec.ofNat 36 (sext 20 imm)
  match op with
  | 1 => a + x
  | 2 => a &&& z
  | 3 => a ||| z
  | 4 => a ^^^ z
  | 5 => boolWord (a.slt x)
  | _ =>
    match bits imm 7 6 with
    | 0 => sll36 a (bits imm 5 0)
    | 1 => srl36 a (bits imm 5 0)
    | _ => sra36 a (bits imm 5 0)

/-- EXT and INS: the field of `w` bits at a position. -/
def extField (a : Word) (pos w : Nat) : Word := BitVec.ofNat 36 (a.toNat / 2 ^ pos % 2 ^ w)
def insField (d a : Word) (pos w : Nat) : Word :=
  let m : Word := BitVec.ofNat 36 ((2 ^ w - 1) * 2 ^ pos)
  (d &&& ~~~m) ||| (BitVec.ofNat 36 (a.toNat % 2 ^ w * 2 ^ pos) &&& m)

/-- Signed quotient: exact, or rounded as the device rounds it. -/
def sdiv36 (a b : Word) : Int :=
  if Config.divFloors a b then a.toInt.fdiv b.toInt else a.toInt.tdiv b.toInt

/-- Multiplication and division by `func`, without MULP (R392). -/
def mulDivOp (f : Nat) (a b : Word) : Word :=
  match f with
  | 0 => a * b
  | 1 => BitVec.ofNat 36 (a.toNat * b.toNat / 2 ^ 36)
  | 3 => if b = 0 then BitVec.allOnes 36 else BitVec.ofInt 36 (sdiv36 a b)
  | 4 => if b = 0 then BitVec.allOnes 36 else BitVec.ofNat 36 (a.toNat / b.toNat)
  | 5 => if b = 0 then a else BitVec.ofInt 36 (a.toInt - b.toInt * sdiv36 a b)
  | _ => if b = 0 then a else BitVec.ofNat 36 (a.toNat % b.toNat)

/-- The 72-bit signed product. -/
def mulp72 (a b : Word) : RegVal := a.signExtend 72 * b.signExtend 72

/-! ## Commands -/

/-- Integer operations (R393). -/
def execIntegerOp (thread : Nat) (s : State) : Host.Outcome State Fault Refusal :=
  s.act fun s => s.coreOp thread .integer fun s i => s.setRd thread i (intOp (iFunc i) (s.rs1 thread i) (s.rs2 thread i))

/-- Immediate operations (R391, R393). -/
def execImmediateOp (thread : Nat) (s : State) : Host.Outcome State Fault Refusal :=
  s.act fun s => s.coreOp thread .immediate fun s i => s.setRd thread i (immOp (iOp i) (iImm i) (s.rs1 thread i))

/-- LUI: `imm` × 2¹¹ (R391). -/
def execLui (thread : Nat) (s : State) : Host.Outcome State Fault Refusal :=
  s.act fun s => s.coreOp thread .lui fun s i => s.setRd thread i (BitVec.ofNat 36 (bits i 24 0 * 2 ^ 11))

/-- EXT and INS (R393). -/
def execBitFieldOp (thread : Nat) (s : State) : Host.Outcome State Fault Refusal :=
  s.act fun s => s.coreOp thread .bitField fun s i =>
    let pos := bits i 11 6
    let w := bits i 5 0 + 1
    s.setRd thread i (if bit i 12 then insField (s.greg thread (iRd i)) (s.rs1 thread i) pos w else extField (s.rs1 thread i) pos w)

/-- Pair operations (R390, R393); a pair is shifted by the amount in `rs2`. -/
def execPairOp (thread : Nat) (s : State) : Host.Outcome State Fault Refusal :=
  s.act fun s => s.coreOp thread .pair fun s i =>
    let a := s.pairOf thread (iRs1 i)
    let b := s.pairOf thread (iRs2 i)
    let n := (s.rs2 thread i).toNat
    let v : RegVal := match iFunc i with
      | 0 => a + b
      | 1 => a - b
      | 2 => if 72 ≤ n then 0 else a <<< n
      | 3 => if 72 ≤ n then 0 else a >>> n
      | _ => a
    .go ((s.setPair thread (iRd i) v).step1 thread)

/-- MUL, MULHU and MULP (R393). -/
def execMultiply (thread : Nat) (s : State) : Host.Outcome State Fault Refusal :=
  s.act fun s => s.coreOp thread .multiply fun s i =>
    if iFunc i = 2 then .go ((s.setPair thread (iRd i) (mulp72 (s.rs1 thread i) (s.rs2 thread i))).step1 thread)
    else s.setRd thread i (mulDivOp (iFunc i) (s.rs1 thread i) (s.rs2 thread i))

/-- DIV, DIVU, REM and REMU (R392, R393). -/
def execDivide (thread : Nat) (s : State) : Host.Outcome State Fault Refusal :=
  s.act fun s => s.coreOp thread .divide fun s i => s.setRd thread i (mulDivOp (iFunc i) (s.rs1 thread i) (s.rs2 thread i))

/-- LW (R395, R398): a load that meets an unreadable deep buffer returns zero, and the thread faults. -/
def execLw (thread : Nat) (s : State) : Host.Outcome State Fault Refusal :=
  s.act fun s => s.coreOp thread .lw fun s i =>
    let a := s.effAddr thread i
    let (e, v) := s.load thread a
    if e = 0 then (s.touched thread a false).setRd thread i v
    else if e = fDeep then .after (s.setG thread (iRd i) 0) fDeep a tHalted
    else .fault e a

/-- SW (R395, R398). -/
def execSw (thread : Nat) (s : State) : Host.Outcome State Fault Refusal :=
  s.act fun s => s.coreOp thread .sw fun s i =>
    let a := s.effAddr thread i
    let e := s.storeCheck thread a
    if e = 0 then .go ((s.store thread a (s.greg thread (iRd i))).step1 thread) else .fault e a

/-- LP: a pair at an even address (R395). -/
def execLp (thread : Nat) (s : State) : Host.Outcome State Fault Refusal :=
  s.act fun s => s.coreOp thread .lp fun s i =>
    let a := s.effAddr thread i
    if a % 2 = 1 then .fault fAlign a
    else
      let (e, lo) := s.load thread a
      let (e2, hi) := s.load thread (a + 1)
      let e := if e = 0 then e2 else e
      if e = 0 then .go ((((s.touched thread a false).setG thread (iRd i) lo).setG thread (iRd i + 1) hi).step1 thread)
      else if e = fDeep then .after ((s.setG thread (iRd i) 0).setG thread (iRd i + 1) 0) fDeep a tHalted
      else .fault e a

/-- SP: a pair to an even address (R395). -/
def execSp (thread : Nat) (s : State) : Host.Outcome State Fault Refusal :=
  s.act fun s => s.coreOp thread .sp fun s i =>
    let a := s.effAddr thread i
    let e := s.storeCheck thread a
    let e2 := s.storeCheck thread (a + 1)
    if a % 2 = 1 then .fault fAlign a
    else if e ≠ 0 then .fault e a
    else if e2 ≠ 0 then .fault e2 a
    else
      let lo := s.greg thread (iRd i)
      let hi := s.greg thread (iRd i + 1)
      .go (((s.store thread a lo).store thread (a + 1) hi).step1 thread)

/-- An atomic on one CMEM word at `rs1` (R393): `new` gives what is stored of the old value, if anything is. DEDUCED, log entry 50. -/
def State.atomic (s : State) (t i : Nat) (new : Word → Option Word) : Did :=
  let a := (s.rs1 t i).toNat
  match s.cmemPlace t a with
  | none => .fault (s.reachFault t a) a
  | some w =>
    let old := s.cget w
    let s := match new old with | some v => s.cput w v | none => s
    s.setRd t i old

/-- AMOADD. -/
def execAmoadd (thread : Nat) (s : State) : Host.Outcome State Fault Refusal :=
  s.act fun s => s.coreOp thread .amoadd fun s i => s.atomic thread i fun old => some (old + s.rs2 thread i)

/-- AMOSWAP. -/
def execAmoswap (thread : Nat) (s : State) : Host.Outcome State Fault Refusal :=
  s.act fun s => s.coreOp thread .amoswap fun s i => s.atomic thread i fun _ => some (s.rs2 thread i)

/-- CAS stores `rs2` when the word equals `rd`. -/
def execCas (thread : Nat) (s : State) : Host.Outcome State Fault Refusal :=
  s.act fun s => s.coreOp thread .cas fun s i =>
    s.atomic thread i fun old => if old = s.greg thread (iRd i) then some (s.rs2 thread i) else none

/-- Branches: the offset counts words from the instruction itself (R391). -/
def execBranch (thread : Nat) (s : State) : Host.Outcome State Fault Refusal :=
  s.act fun s => s.coreOp thread .branch fun s i =>
    if branchTaken (iOp i) (s.greg thread (iRd i)) (s.rs1 thread i) then .go (s.setPc thread ((s.pc thread + sext 20 (iImm i)) % 2 ^ 36))
    else .go (s.step1 thread)

/-- JAL: `rd` receives the address of the next instruction. -/
def execJal (thread : Nat) (s : State) : Host.Outcome State Fault Refusal :=
  s.act fun s => s.coreOp thread .jal fun s i =>
    let pc := s.pc thread
    .go ((s.setG thread (iRd i) (BitVec.ofNat 36 (pc + 1))).setPc thread ((pc + sext 25 (bits i 24 0)) % 2 ^ 36))

/-- JALR: to `rs1` + `imm`; `rd` receives the address of the next instruction. -/
def execJalr (thread : Nat) (s : State) : Host.Outcome State Fault Refusal :=
  s.act fun s => s.coreOp thread .jalr fun s i =>
    let to_ := s.effAddr thread i
    .go ((s.setG thread (iRd i) (BitVec.ofNat 36 (s.pc thread + 1))).setPc thread to_)

end Sys2Proof.Machine
end

