-- ==== Sys2Proof/Machine/CoreOps.lean ====
section
/-! DEFINITION. The instructions of a control thread that act on threads, queues, buffers, tables and CSRs (R399–R417, R426), the host's
operations on threads, and cores on the bench (R421–R424). -/

namespace Sys2Proof.Machine

/-! ## Threads (R402–R405) -/

/-- Start a thread slot at an address with `g1`, `g2`, CSRs and a mode; every other register and CSR is zero. -/
def State.startThread (s : State) (t pc : Nat) (sup : Bool) (g csr : Tab Word) (parent : Option Nat) : State :=
  let s := s.modThr t fun h => { g := g, csr := csr, parent := parent, drawn := h.drawn }
  let s := (s.fset F.CCX_T_STATUS.mode t 0 (if sup then 1 else 0)).fset F.CCX_T_STATUS.evpend t 0 0
  (s.setPc t pc).fset F.CCX_T_STATUS.state t 0 tRunning

/-- The slot that a FORK of a partition takes: its lowest IDLE static thread, else the lowest FREE slot while it may
draw: `thr_pool` is ignored with `thr_static` 0 (R401). -/
def State.forkSlot (s : State) (p : Nat) : Option Nat :=
  match threadSlots.find? fun t => decide (s.thrPart t = p ∧ s.thrState t = tIdle) with
  | some t => some t
  | none =>
    if bits (s.partWord p 23) 7 0 ≠ 0 ∧ s.drawn p < bits (s.partWord p 23) 15 8 then threadSlots.find? fun t => decide (t < 128 ∧ s.thrState t = tFree) else none

/-- FORK (R402). -/
def execFork (thread : Nat) (s : State) : Host.Outcome State Fault Refusal :=
  s.act fun s => s.coreOp thread .fork fun s i =>
    let p := s.thrPart thread
    match s.forkSlot p with
    | none => (s.ccxCount p 1).setRd thread i 0
    | some c =>
      let g : Tab Word := tabSet 0 (tabSet 0 [] 1 (s.rs2 thread i)) 2 (BitVec.ofNat 36 (thrUnit thread))
      let csr : Tab Word := (s.thr thread).csr.filter fun e => decide (1 ≤ e.1 ∧ e.1 ≤ 4)
      let pc := (s.rs1 thread i).toNat
      let s := if s.thrState c = tFree then (s.modThr c fun h => { h with drawn := true }).fset F.CCX_T_STATUS.part c 0 p else s
      let s := (s.startThread c pc (s.supMode thread) g csr (some thread)).ccxCount p 0
      s.setRd thread i (BitVec.ofNat 36 (thrUnit c))

/-- The thread waits from the next instruction on. -/
def State.waitAt (s : State) (t : Nat) (w : Wait) : State :=
  ((s.step1 t).modThr t fun h => { h with wait := some w, since := s.time.cycles }).fset F.CCX_T_STATUS.state t 0 tWaiting

/-- JOIN (R403). -/
def execJoin (thread : Nat) (s : State) : Host.Outcome State Fault Refusal :=
  s.act fun s => s.coreOp thread .join fun s i =>
    let v := (s.rs1 thread i).toNat
    match unitThr v with
    | none => .fault fJoin v
    | some c =>
      if (s.thr c).parent ≠ some thread then .fault fJoin v
      else if s.thrState c = tExited then
        let x := (s.thr c).exitVal
        (s.releaseThread c).setRd thread i (BitVec.ofNat 36 x)
      else .go (s.waitAt thread (.join (iRd i) c))

/-- EXIT (R403). -/
def execExit (thread : Nat) (s : State) : Host.Outcome State Fault Refusal :=
  s.act fun s => s.coreOp thread .exit fun s i =>
    let v := (s.rs1 thread i).toNat % 2 ^ 35
    .go ((s.step1 thread).endThread thread v)

/-- WFE (R404). -/
def execWfe (thread : Nat) (s : State) : Host.Outcome State Fault Refusal :=
  s.act fun s => s.coreOp thread .wfe fun s i =>
    let m := (s.rs1 thread i).toNat % 2 ^ 16
    let mask := if m = 0 then 0xFFFF else m
    let ev := s.fget F.CCX_T_STATUS.evpend thread
    if ev &&& mask ≠ 0 then
      (s.fset F.CCX_T_STATUS.evpend thread 0 (ev - (ev &&& mask))).setRd thread i (BitVec.ofNat 36 (ev &&& mask))
    else .go (s.waitAt thread (.wfe (iRd i) mask))

/-- An H thread in supervisor mode. -/
def State.hSuper (s : State) (t : Nat) : Bool := decide (s.thrPart t = 16) && s.supMode t

/-- The thread that a unit ID names, when the issuer reaches it: one of its partition, or any for H in supervisor mode. -/
def State.reached (s : State) (t v : Nat) : Option Nat :=
  match unitThr v with
  | some u => if s.thrPart u = s.thrPart t ∨ s.hSuper t then some u else none
  | none => none

/-- SEV (R405): the bits are on their way to the target. -/
def execSev (thread : Nat) (s : State) : Host.Outcome State Fault Refusal :=
  s.act fun s => s.coreOp thread .sev fun s i =>
    let v := (s.rs1 thread i).toNat
    match s.reached thread (v % 4096) with
    | none => .fault fTarget v
    | some u => .go ({ s with sevs := s.sevs ++ [(u, (s.rs2 thread i).toNat % 256)] }.step1 thread)

/-- SEV_DELIVERY (R405): the oldest bits under way are set in their target. -/
def execSevDelivery (s : State) : Host.Outcome State Fault Refusal :=
  s.act fun s =>
    match s.sevs with
    | [] => s
    | (u, b) :: rest => { s with sevs := rest }.setEvents u b

/-- YIELD (R405): which thread issues next is not modelled. -/
def execYield (thread : Nat) (s : State) : Host.Outcome State Fault Refusal :=
  s.act fun s => s.coreOp thread .yield fun s _ => .go (s.step1 thread)

/-- THREAD_TIMER_EXPIRY (R404): the timer of a thread expires and sets bit 8. -/
def execThreadTimerExpiry (thread : Nat) (s : State) : Host.Outcome State Fault Refusal :=
  s.actAwake fun s =>
    if (s.thr thread).timer.isSome then (s.modThr thread fun h => { h with timer := none }).setEvents thread (2 ^ 8) else s

/-! ## Shares (R410) -/

/-- Buffers that name the thread as owner. -/
def State.heldBy (s : State) (t : Nat) : Nat := (s.bufs.filter fun e => e.2.tag = thrUnit t).length

/-- The thread's own share of buffers. -/
def State.bufMax (s : State) (t : Nat) : Nat := s.pget 16 s.tagNow F.CCX_T_BSHARE.bufmax t

/-- Buffers that a partition's threads hold beyond their own shares. -/
def State.dynUsed (s : State) (p : Nat) : Nat :=
  ((threadSlots.filter fun t => s.thrPart t = p).map fun t => s.heldBy t - s.bufMax t).sum

/-- One more buffer would take the thread past its own share and the dynamic allowance. DEDUCED, log entry 50. -/
def State.pastShare (s : State) (t : Nat) : Bool :=
  decide (s.bufMax t ≤ s.heldBy t ∧ s.pget 16 s.tagNow F.CCX_P_BSHARE.dyn_buf (s.thrPart t) ≤ s.dynUsed (s.thrPart t))

/-! ## Queues (R406–R411) -/

/-- The status word of a queue instruction. -/
def qStatus (st words why : Nat) : Word := BitVec.ofNat 36 (st + words * 2 ^ 4 + why * 2 ^ 8)

/-- Write the words of an entry at an address; none where the thread does not reach them. -/
def State.putWords (s : State) (t a : Nat) (ws : List Nat) : Option State :=
  (s.cmemSpan t a ws.length).map fun w => s.blockWrite w ws

/-- A pop that finds no entry. -/
def State.popEmpty (s : State) (t i : Nat) : Did :=
  ((s.ccxCount (s.thrPart t) 5).pmcEvent t 10).setRd t i (qStatus 1 0 0)

/-- A pop that has written an entry's words. -/
def State.popOk (s : State) (t i n : Nat) : Did := (s.ccxCount (s.thrPart t) 4).setRd t i (qStatus 0 n 0)

/-- The words of a punt entry (R408). -/
def puntWords (q : Punt) : List Nat :=
  let st := q.rx.getD 0
  [q.handle] ++ q.words ++ [q.inPort + q.len * 2 ^ 8] ++ (if q.rx.isSome then [stampOf st % 2 ^ 36, stampOf st / 2 ^ 36] else [0, 0])

/-- The buffer of a punt copy is given to the unit that takes it (R275, rule 5): the named owner, the balance and the trace. -/
def State.givePunt (s : State) (q : Punt) (unit : Nat) : State :=
  let s := match s.buf q.handle with
    | some b => s.setBuf q.handle { b with tag := unit }
    | none => s
  let c : Copy := { id := 0, frame := q.frame, handle := q.handle, len := q.len, part := q.part, port := q.inPort, set := 0, qclass := 0,
                    cls := 0, colour := 0, tag := 0, edit := 0, trace := q.trace, tEnq := q.tEnq }
  ((s.balAdd q.part 10).traceTx c 2 7 none).copyGone c

/-- QPOP of a punt queue. -/
def State.popPunt (s : State) (t i a q : Nat) : Did :=
  let p := s.thrPart t
  if !s.mayPop t q then s.setRd t i (qStatus 2 0 0)
  else if s.flag F.CCX_PQ.sink p q then s.popEmpty t i
  else match tabGet [] s.punts (p * 16 + q) with
    | [] => s.popEmpty t i
    | x :: rest =>
      if s.pastShare t then s.setRd t i (qStatus 3 0 0)
      else if (s.buf x.handle).any (·.quar) then s.setRd t i (qStatus 6 0 6)
      else match s.putWords t a (puntWords x) with
        | none => .fault (s.reachFault t a) a
        | some s => ({ s with punts := tabSet [] s.punts (p * 16 + q) rest }.givePunt x (thrUnit t)).popOk t i 8

/-- QPOP of an event queue. -/
def State.popEvent (s : State) (t i a q : Nat) : Did :=
  let k := s.thrPart t * 16 + q
  if !s.mayPop t (16 + q) then s.setRd t i (qStatus 2 0 0)
  else match tabGet [] s.events k with
    | [] => s.popEmpty t i
    | ws :: rest =>
      match s.putWords t a ws with
      | none => .fault (s.reachFault t a) a
      | some s => { s with events := tabSet [] s.events k rest }.popOk t i ws.length

/-- QPOP of a mailbox: the message's words, at most as many as the selector names. DEDUCED, log entry 50. -/
def State.popMail (s : State) (t i a q n : Nat) : Did :=
  let k := s.thrPart t * 16 + q
  match tabGet [] s.mail k with
  | [] => s.popEmpty t i
  | ws :: rest =>
    let ws := ws.take n
    match s.putWords t a ws with
    | none => .fault (s.reachFault t a) a
    | some s => { s with mail := tabSet [] s.mail k rest }.popOk t i ws.length

/-- QPOP of the thread's fault queue. -/
def State.popFault (s : State) (t i a : Nat) : Did :=
  match tabGet [] s.faultQ t with
  | [] => s.popEmpty t i
  | ws :: rest =>
    match s.putWords t a ws with
    | none => .fault (s.reachFault t a) a
    | some s => { s with faultQ := tabSet [] s.faultQ t rest }.popOk t i ws.length

/-- QPOP (R406). -/
def execQpop (thread : Nat) (s : State) : Host.Outcome State Fault Refusal :=
  s.act fun s => s.coreOp thread .qpop fun s i =>
    let a := (s.rs1 thread i).toNat
    let sel := bits i 15 0
    match bits i 15 12 with
    | 0 => s.popPunt thread i a (bits i 3 0)
    | 1 => s.popEvent thread i a (bits i 3 0)
    | 2 => s.popMail thread i a (bits i 3 0) (bits i 6 4 + 1)
    | 5 => if s.supMode thread then s.popFault thread i a else .fault fQueue sel
    | _ => .fault fQueue sel

/-- QPUSH of a mailbox message (R406, R411). -/
def State.pushMail (s : State) (t i a q n : Nat) : Did :=
  let p := s.thrPart t
  let k := p * 16 + q
  let l := tabGet [] s.mail k
  match s.cmemSpan t a n with
  | none => .fault (s.reachFault t a) a
  | some w =>
    if 64 ≤ l.length then s.setRd t i (qStatus 4 0 0)
    else
      let ws := (List.range n).map fun j => (s.cget (w + j)).toNat
      let s := { s with mail := tabSet [] s.mail k (l ++ [ws]) }
      (s.queueSignal p 0x00B q 12 fun _ => true).setRd t i (qStatus 0 0 0)

/-- The BPM status with which a buffer refuses to be sent by a unit of a partition (R273, R409); 0 for none. -/
def State.sendStatus (s : State) (unit p h : Nat) : Nat :=
  match s.buf h with
  | none => 3
  | some b => if b.part ≠ p ∧ p ≠ 16 then 4 else if b.quar then 6 else if b.tag ≠ unit then 9 else 0

/-- A unit presents a handle that fails R270: its FENCING fault, and the thread fault HANDLE. -/
def State.handleFault (s : State) (t op h : Nat) : Did := .after (s.badHandle (thrUnit t) op h) fHandle h tFenced

/-- QPUSH of an egress copy or an injection job from the descriptor at an address (R409). DEDUCED, log entry 50. -/
def State.pushFrom (s : State) (t i a : Nat) (copy : Bool) : Did :=
  match s.cmemSpan t a 4 with
  | none => .fault (s.reachFault t a) a
  | some w =>
    let p := s.thrPart t
    let h := (s.cget w).toNat
    let w1 := (s.cget (w + 1)).toNat
    let len := bits w1 13 0
    let x : Push := { handle := h, len := len, part := p, port := bits i 7 0, qclass := bits i 10 8, cls := bits w1 16 14, colour := bits w1 18 17,
                      edit := (s.cget (w + 2)).toNat % 4096, md := (s.cget (w + 3)).toNat, mirrorEn := bit w1 19, mirror := bits w1 23 20 }
    if !s.handleOk h then s.handleFault t 0 h
    else
      let st := s.sendStatus (thrUnit t) p h
      if st ≠ 0 then (s.refuseOp p st).setRd t i (qStatus 6 0 st)
      else if len < 64 ∨ s.bufSizeOf h < len then s.setRd t i (qStatus 7 0 0)
      else if copy then
        let (why, s) := s.pushCopy x
        if why = 0 then s.setRd t i (qStatus 0 0 0) else (s.ccxCount p 6).setRd t i (qStatus 5 0 why)
      else if s.injectFull (bits i 1 0) then s.setRd t i (qStatus 4 0 0)
      else ((s.injectJob x (bits i 1 0)).ccxCount p 7).setRd t i (qStatus 0 0 0)

/-- QPUSH (R406). -/
def execQpush (thread : Nat) (s : State) : Host.Outcome State Fault Refusal :=
  s.act fun s => s.coreOp thread .qpush fun s i =>
    let a := (s.rs1 thread i).toNat
    match bits i 15 12 with
    | 2 => s.pushMail thread i a (bits i 3 0) (bits i 6 4 + 1)
    | 3 => s.pushFrom thread i a true
    | 4 => s.pushFrom thread i a false
    | _ => .fault fQueue (bits i 15 0)

/-! ## Buffers (R412) -/

/-- An operation on the buffer whose handle is in `rs1`: its status goes to `rd`. -/
def State.bufOp (s : State) (t i op arg : Nat) : Did :=
  let h := (s.rs1 t i).toNat
  if !s.handleOk h then s.handleFault t op h
  else
    let (st, s) := s.bpmOp (thrUnit t) (s.thrPart t) op h arg
    s.setRd t i (BitVec.ofNat 36 st)

/-- BGET (R412). -/
def execBget (thread : Nat) (s : State) : Host.Outcome State Fault Refusal :=
  s.act fun s => s.coreOp thread .bget fun s i =>
    let give := fun (s : State) (h st : Nat) =>
      Did.go (((s.setG thread (iRd i) (BitVec.ofNat 36 h)).setG thread (iRd i + 1) (BitVec.ofNat 36 st)).step1 thread)
    if s.pastShare thread then give s 0 3
    else
      let (st, h, s) := s.bpmAlloc (thrUnit thread) (s.thrPart thread) (s.rs1 thread i).toNat
      give s h st

/-- BPUT presents FREE. -/
def execBput (thread : Nat) (s : State) : Host.Outcome State Fault Refusal :=
  s.act fun s => s.coreOp thread .bput fun s i => s.bufOp thread i opFree 0

/-- BREL presents RELEASE. -/
def execBrel (thread : Nat) (s : State) : Host.Outcome State Fault Refusal :=
  s.act fun s => s.coreOp thread .brel fun s i => s.bufOp thread i opRelease 0

/-- BRET presents RETAIN. -/
def execBret (thread : Nat) (s : State) : Host.Outcome State Fault Refusal :=
  s.act fun s => s.coreOp thread .bret fun s i => s.bufOp thread i opRetain (s.rs2 thread i).toNat

/-- A GIVE that would take the thread it names past its share (R410). -/
def State.givePast (s : State) (t h unit : Nat) : Bool :=
  match unitThr unit, s.buf h with
  | some u, some b => s.pastShare u && decide (b.tag ≠ unit) && decide (s.opStatus (thrUnit t) (s.thrPart t) opGive unit b = 0)
  | _, _ => false

/-- BGIVE presents GIVE. -/
def execBgive (thread : Nat) (s : State) : Host.Outcome State Fault Refusal :=
  s.act fun s => s.coreOp thread .bgive fun s i =>
    let u := (s.rs2 thread i).toNat
    if s.givePast thread (s.rs1 thread i).toNat u then s.setRd thread i 3 else s.bufOp thread i opGive u

/-- BRCL presents RECLAIM; it is supervisor-only (R399). -/
def execBrcl (thread : Nat) (s : State) : Host.Outcome State Fault Refusal :=
  s.act fun s => s.coreOp thread .brcl fun s i => if s.supMode thread then s.bufOp thread i opReclaim 0 else .fault fPriv 0

/-- BWIN opens window `rs2` [1:0] (R398, R412). -/
def execBwin (thread : Nat) (s : State) : Host.Outcome State Fault Refusal :=
  s.act fun s => s.coreOp thread .bwin fun s i =>
    let h := (s.rs1 thread i).toNat
    let p := s.thrPart thread
    if !s.handleOk h then s.handleFault thread 0 h
    else
      let st := match s.buf h with
        | none => 3
        | some b => if b.part ≠ p ∧ p ≠ 16 then 4 else 0
      let w := (s.rs2 thread i).toNat % 4
      let s := if st = 0 then (s.setCsr thread (0x50 + w) h).modThr thread fun t => { t with windows := t.windows.filter (· ≠ w) ++ [w] }
        else s.refuseOp p st
      s.setRd thread i (BitVec.ofNat 36 st)

/-- BINFO (R412). -/
def execBinfo (thread : Nat) (s : State) : Host.Outcome State Fault Refusal :=
  s.act fun s => s.coreOp thread .binfo fun s i =>
    let h := (s.rs1 thread i).toNat
    if !s.handleOk h then s.handleFault thread 0 h
    else
      let v := match s.buf h with
        | some b => if b.part = s.thrPart thread then (if b.quar then 2 else 1) * 2 ^ 34 + b.count * 2 ^ 20 + b.tag * 2 ^ 8 + b.part else 0
        | none => 0
      s.setRd thread i (BitVec.ofNat 36 v)

/-! ## Tables (R413) -/

/-- TLOOK: the thread waits for the answer, read as the instruction issues (R389, R413); the answer for width code 0, which names no key, is
open. DEDUCED, log entry 50. -/
def execTlook (thread : Nat) (s : State) : Host.Outcome State Fault Refusal :=
  s.act fun s => s.coreOp thread .tlook fun s i =>
    let a := (s.rs1 thread i).toNat
    let c := bits i 1 0
    if c = 0 then .go (s.nextFree.waitAt thread (.look (iRd i) (s.freeNat 36)))
    else match s.cmemSpan thread a (keyWords c) with
      | none => .fault (s.reachFault thread a) a
      | some w =>
        let key := wordsNat ((List.range (keyWords c)).map fun j => (s.cget (w + j)).toNat)
        match s.emLookup 0 s.tagNow (s.thrPart thread) c key with
        | some (_, e) => .go (s.waitAt thread (.look (iRd i) (2 ^ 35 + bits e.ctl 20 0)))
        | none => .go (s.waitAt thread (.look (iRd i) 0))

/-- The partition that a thread's table command names (R400). -/
def State.tblPart (s : State) (t w : Nat) : Nat := if s.thrPart t < 16 then s.thrPart t else bits w 25 21

/-- The CMEM words of a command block, when the thread reaches them all: `n` words, `m` for the ops that write words beyond them. -/
def State.blockSpan (s : State) (t a n m : Nat) (long : Nat → Bool) : Option Nat :=
  (s.cmemSpan t a 1).bind fun w => s.cmemSpan t a (if long (bits (s.cget w).toNat 35 32) then m else n)

/-- TINS (R413). -/
def execTins (thread : Nat) (s : State) : Host.Outcome State Fault Refusal :=
  s.act fun s => s.coreOp thread .tins fun s i =>
    let a := (s.rs1 thread i).toNat
    if !s.supMode thread then .fault fPriv 0
    else match s.blockSpan thread a 17 21 fun op => decide (op = 4 ∨ op = 7 ∨ op = 9) with
      | none => .fault (s.reachFault thread a) a
      | some w =>
        let rd := fun (j : Nat) => (s.cget (w + j)).toNat
        let r := tblReqOf (.thread thread) (bits (rd 0) 35 32) (rd 0) (s.tblPart thread (rd 0)) (rd 1) ((List.range 15).map fun j => rd (2 + j))
        .go ((s.waitAt thread (.table (iRd i) w)).issue { r with block := w })

/-- TSRCH (R413). -/
def execTsrch (thread : Nat) (s : State) : Host.Outcome State Fault Refusal :=
  s.act fun s => s.coreOp thread .tsrch fun s i =>
    let a := (s.rs1 thread i).toNat
    if !s.supMode thread then .fault fPriv 0
    else match s.blockSpan thread a 34 36 fun op => decide (op = 6) with
      | none => .fault (s.reachFault thread a) a
      | some w =>
        let rd := fun (j : Nat) => (s.cget (w + j)).toNat
        let r : TblReq := { issuer := .thread thread, tcm := true, op := bits (rd 0) 35 32, notify := bit (rd 0) 31, part := s.thrPart thread,
                            bank := bits (rd 0) 14 10, entry := bits (rd 0) 29 20, act := rd 1,
                            val := (List.range 16).map fun j => rd (2 + j), care := (List.range 16).map fun j => rd (18 + j), block := w }
        .go ((s.waitAt thread (.table (iRd i) w)).issue r)

/-! ## Migration requests (R422) -/

/-- A request to promote a position: `CCX_MIG` takes its result (R422). DEDUCED, log entry 51. -/
def State.requestMig (s : State) (pos : Nat) : State :=
  let u := 0x800 + 8 * pos
  let answer := fun (s : State) (d r : Nat) => (s.fset F.CCX_MIG.done 0 0 d).fset F.CCX_MIG.result 0 0 r
  if 18 ≤ pos ∨ s.fget F.CCX_CORE.state pos ≠ 0 then answer s 1 3
  else if s.flt.promos.any fun p => p.kind = 3 then answer s 1 1
  else match (s.benchUnits 3 0x800).head? with
    | none => answer s 1 2
    | some b => if s.castlePending then answer s 1 4 else (answer s 0 0).startPromo 3 u b 3

/-- A write of `CCX_MIG`. -/
def State.effCcxMig (s : State) (v : Nat) : State :=
  let s := (s.fset F.CCX_MIG.pos 0 0 (bits v 30 26)).wr .CCX_MIG 0 0 (fldSet ((s.fset F.CCX_MIG.pos 0 0 (bits v 30 26)).rd .CCX_MIG) 25 0 v)
  if bit v 35 then s.requestMig (bits v 30 26) else s

/-! ## CSRs (R418, R419, R426) -/

/-- The slots of a position that belong to a partition, as a mask. -/
def State.slotMask (s : State) (k p : Nat) : Nat :=
  ((List.range 8).filter fun n => s.thrPart (8 * k + n) = p).foldl (fun a n => a + 2 ^ n) 0

/-- A write of `pmsel`*j* of a position; `own` keeps its value unless `owner` (R419). -/
def State.writePmsel (s : State) (k j v : Nat) (owner : Bool) : State :=
  let own := if owner then bits v 24 20 else s.fget F.CCX_PMSEL.own k j
  let keepOvf := if bit v 25 then 0 else s.fget F.CCX_PMSEL.ovf k j
  let m := bits v 35 28 &&& s.slotMask k own
  s.wr .CCX_PMSEL k j (BitVec.ofNat 72 (m * 2 ^ 28 + bits v 27 26 * 2 ^ 26 + keepOvf * 2 ^ 25 + own * 2 ^ 20 + bits v 19 0))

/-- What a CSR reads, and the state after a read that latches. -/
def State.csrRead (s : State) (t n : Nat) : Nat × State :=
  let k := t / 8
  let cyc := (s.time.cycles - s.time.coreBase) % 2 ^ 72
  if n = 0 then (thrUnit t + s.thrPart t * 2 ^ 12 + (if s.supMode t then 2 ^ 17 else 0), s)
  else if n = 8 then (s.fget F.CCX_T_STATUS.evpend t, s)
  else if n = 0x0C then
    (match (s.thr t).timer with | some e => clocksNs (e - s.time.cycles) % 2 ^ 36 | none => 0, s)
  else if n = 0x10 then (s.stamp % 2 ^ 36, s.setCsr t 0x11 (s.stamp / 2 ^ 36))
  else if n = 0x12 then (s.heldBy t, s)
  else if n = 0x20 then (cyc % 2 ^ 36, s.setCsr t 0x21 (cyc / 2 ^ 36))
  else if 0x30 ≤ n ∧ n < 0x38 then
    let j := n - 0x30
    let may := s.fget F.CCX_PMSEL.own k j = s.thrPart t && (s.supMode t || s.csr t 1 % 2 = 1)
    (if may then s.fget F.CCX_PMC.count k j else 0, s)
  else if 0x38 ≤ n ∧ n < 0x40 then ((s.rd .CCX_PMSEL k (n - 0x38)).toNat % 2 ^ 36, s)
  else if n = 0x40 then
    (if s.thrPart t = 16 then s.fget F.CCX_MIG.done * 2 ^ 34 + s.fget F.CCX_MIG.result * 2 ^ 31 else 0, s)
  else if n ∈ [1, 2, 3, 4, 5, 6, 0xA, 0xB, 0x11, 0x21, 0x50, 0x51, 0x52, 0x53] then (s.csr t n, s)
  else (0, s)

/-- CSRR (R426). -/
def execCsrr (thread : Nat) (s : State) : Host.Outcome State Fault Refusal :=
  s.act fun s => s.coreOp thread .csrr fun s i =>
    let (v, s) := s.csrRead thread (bits i 11 0)
    s.setRd thread i (BitVec.ofNat 36 v)

/-- The CSRs marked S (R399, R426). -/
def csrSuper (n : Nat) : Bool := decide (1 ≤ n ∧ n ≤ 6) || decide (0x38 ≤ n ∧ n ≤ 0x40)

/-- The effect of a write of a CSR. -/
def State.csrWrite (s : State) (t n v : Nat) : State :=
  let k := t / 8
  if n = 1 then s.setCsr t 1 (v % 2)
  else if 2 ≤ n ∧ n ≤ 6 then s.setCsr t n v
  else if n = 0xA then s.setCsr t n (v % 2 ^ 32)
  else if n = 0xB then s.setCsr t n (v % 2 ^ 16)
  else if n = 0x0C then s.modThr t fun h => { h with timer := if v = 0 then none else some (s.time.cycles + (v * 8 + 4) / 5) }
  else if 0x38 ≤ n ∧ n < 0x40 then
    let j := n - 0x38
    let h := decide (s.thrPart t = 16)
    let own := if h then bits v 24 20 else s.fget F.CCX_PMSEL.own k j
    if own = s.thrPart t then s.writePmsel k j v h
    else if h then s.fset F.CCX_PMSEL.own k j own else s
  else if n = 0x40 then (if s.thrPart t = 16 then s.effCcxMig v else s)
  else s

/-- CSRW (R399, R426). -/
def execCsrw (thread : Nat) (s : State) : Host.Outcome State Fault Refusal :=
  s.act fun s => s.coreOp thread .csrw fun s i =>
    let n := bits i 11 0
    if csrSuper n ∧ !s.supMode thread then .fault fPriv 0
    else .go ((s.csrWrite thread n (s.greg thread (iRd i)).toNat).step1 thread)

/-! ## System (R396, R397, R399, R414, R417) -/

/-- TRAP (R399). -/
def execTrap (thread : Nat) (s : State) : Host.Outcome State Fault Refusal :=
  s.act fun s => s.coreOp thread .trap fun s i =>
    let v := s.csr thread 4
    if v = 0 then .fault fTrap 0
    else
      let s := ((s.pmcEvent thread 15).setCsr thread 5 ((s.pc thread + 1) % 2 ^ 36)).setCsr thread 6 (iRs2 i)
      .go ((s.fset F.CCX_T_STATUS.mode thread 0 1).setPc thread v)

/-- RETS (R399). -/
def execRets (thread : Nat) (s : State) : Host.Outcome State Fault Refusal :=
  s.act fun s => s.coreOp thread .rets fun s _ =>
    if !s.supMode thread then .fault fPriv 0
    else .go ((s.fset F.CCX_T_STATUS.mode thread 0 0).setPc thread (s.csr thread 5))

/-- FENCE (R397): a thread's operations take effect in the order in which the commands run them. -/
def execFence (thread : Nat) (s : State) : Host.Outcome State Fault Refusal :=
  s.act fun s => s.coreOp thread .fence fun s _ => .go (s.step1 thread)

/-- IFLUSH (R396). -/
def execIflush (thread : Nat) (s : State) : Host.Outcome State Fault Refusal :=
  s.act fun s => s.coreOp thread .iflush fun s _ => .go ((s.invalidate (thread / 8) (s.thrPart thread)).step1 thread)

/-- A THR_ instruction on the thread named by `rs1`, in supervisor mode and in one of the states that it takes (R399, R417). -/
def State.thrOp (s : State) (t i : Nat) (ok : State → Nat → Bool) (run : State → Nat → Did) : Did :=
  let v := (s.rs1 t i).toNat
  if !s.supMode t then .fault fPriv 0
  else match s.reached t v with
    | none => .fault fTarget v
    | some u => if ok s u then run s u else .fault fTarget v

/-- THR_KILL. -/
def execThrKill (thread : Nat) (s : State) : Host.Outcome State Fault Refusal :=
  s.act fun s => s.coreOp thread .thrKill fun s i =>
    s.thrOp thread i (fun s u => s.killable u) fun s u => .go ((s.step1 thread).endThread u (s.killValue u))

/-- THR_START. -/
def execThrStart (thread : Nat) (s : State) : Host.Outcome State Fault Refusal :=
  s.act fun s => s.coreOp thread .thrStart fun s i =>
    s.thrOp thread i (fun s u => decide (s.thrState u = tIdle)) fun s u =>
      .go ((s.step1 thread).startThread u (s.rs2 thread i).toNat (s.supMode thread) [] [] none)

/-- THR_RESUME. -/
def execThrResume (thread : Nat) (s : State) : Host.Outcome State Fault Refusal :=
  s.act fun s => s.coreOp thread .thrResume fun s i =>
    s.thrOp thread i (fun s u => decide (s.thrState u = tHalted)) fun s u =>
      .go ((s.step1 thread).fset F.CCX_T_STATUS.state u 0 tRunning)

/-- THR_RDREG: the register named by the `rs2` field. -/
def execThrRdreg (thread : Nat) (s : State) : Host.Outcome State Fault Refusal :=
  s.act fun s => s.coreOp thread .thrRdreg fun s i =>
    s.thrOp thread i (fun s u => decide (s.thrState u = tHalted ∨ s.thrState u = tExited)) fun s u => s.setRd thread i (s.greg u (iRs2 i))

/-- THR_WRREG: the register named by the `rd` field. -/
def execThrWrreg (thread : Nat) (s : State) : Host.Outcome State Fault Refusal :=
  s.act fun s => s.coreOp thread .thrWrreg fun s i =>
    s.thrOp thread i (fun s u => decide (s.thrState u = tHalted)) fun s u => .go ((s.setG u (iRd i) (s.rs2 thread i)).step1 thread)

/-- BREAK (R414). -/
def execBreakpoint (thread : Nat) (s : State) : Host.Outcome State Fault Refusal :=
  s.act fun s => s.coreOp thread .brk fun _ _ => .fault fBreak 0

/-! ## The host's operations (R389, R396, R401, R420, R425) -/

/-- A write of `CCX_T_CTL` for a thread: START, KILL, RESUME and CLEAR; other cases are ignored. -/
def State.effCcxCtl (s : State) (t v : Nat) : State :=
  let st := s.thrState t
  match bits v 24 22 with
  | 1 =>
    if st = tIdle then
      (s.startThread t (bits v 20 0) (bit v 21) [] [] none).invalidate (t / 8) (s.thrPart t)
    else s
  | 2 => if s.killable t then s.endThread t (s.killValue t) else s
  | 3 => if st = tHalted then s.fset F.CCX_T_STATUS.state t 0 tRunning else s
  | 4 =>
    if st = tHalted then s.endThread t (s.killValue t)
    else if st = tExited then (s.orphan t).releaseThread t else s
  | _ => s

/-- A write of `CCX_T_REG` for a thread by a function whose `reg_sel` is `r`: taken while it is HALTED or EXITED. -/
def State.effCcxReg (s : State) (t r v : Nat) : State :=
  if s.thrState t = tHalted ∨ s.thrState t = tExited then s.setG t r (BitVec.ofNat 36 v) else s

/-- After a write of `CCX_TAG` of a position: setting `en` reseeds the LFSR (R420). -/
def State.effCcxTag (s : State) (k : Nat) (was : Bool) : State :=
  if s.flag F.CCX_TAG.en k ∧ !was then
    { s with tags := tabSet (0x5AC3E1, 0) s.tags k (0x5AC3E1, s.tagGap k 0x5AC3E1) }
  else s

/-! ## Cores on the bench (R421–R424) -/

/-- THREAD_MIGRATE (R423): a thread that stands at its boundary is on the new core and goes on as before; the next slot follows. -/
def execThreadMigrate (thread : Nat) (s : State) : Host.Outcome State Fault Refusal :=
  s.act fun s =>
    if s.thrState thread ≠ tMigrating then s
    else match (s.thr thread).wait with
      | some (.table _ _) | some (.look _ _) => s
      | _ =>
        let s := (s.fset F.CCX_T_STATUS.state thread 0 (s.thr thread).before).migrated thread
        s.migrateFrom (thread / 8) ((List.range 8).drop (thread % 8 + 1))

/-- A CORE_STATE record (R427). -/
def State.coreRecord (s : State) (k old new st cause : Nat) : State :=
  s.emitPart 16 clsFault { code := 0x66, unit := 0x800 + 8 * k, stamp := s.stamp,
                           p3 := k + old * 2 ^ 8 + new * 2 ^ 16 + st * 2 ^ 24 + cause * 2 ^ 28 }

/-- A slot of a lost core moves as IDLE, with no state copied (R424). -/
def State.idleSlot (s : State) (t : Nat) : State :=
  if s.thrState t = tFree ∨ s.thrState t = tIdle then s
  else ((s.orphan t).modThr t fun h => { drawn := h.drawn }).releaseThread t

/-- MIGRATION_COMPLETE (R423, R424): the position is served by the bench core and the bench position is FENCED; the supervisors are told. -/
def execMigrationComplete (position : Nat) (s : State) : Host.Outcome State Fault Refusal :=
  s.act fun s =>
    let u := 0x800 + 8 * position
    let slots := (List.range 8).map (8 * position + ·)
    match s.flt.promos.find? fun p => p.kind = 3 ∧ p.unit = u with
    | none => s
    | some p =>
      if slots.any fun t => s.thrState t = tMigrating then s
      else
        let b := (p.spare - 0x800) / 8
        let old := s.fget F.CCX_CORE.phys position
        let new := s.fget F.CCX_CORE.phys b
        let lost := decide (p.reason = 2) || s.flt.fenced.contains u
        let s := if lost then slots.foldl (fun s t => s.idleSlot t) s else s
        let s := ((s.fset F.CCX_CORE.phys position 0 new).fset F.CCX_CORE.phys b 0 old).fset F.CCX_CORE.state position 0 0
        let s := s.fset F.CCX_CORE.state b 0 3
        let s := { s with icache := s.icache.filter (fun e => e.1 / 2 ^ 21 ≠ position), flt := { s.flt with fenced := s.flt.fenced.filter (· ≠ u) } }
        let s := s.coreRecord position old new 0 (if lost then 2 else 1)
        let parts := (slots.map s.thrPart).dedup
        let s := parts.foldl (fun s q => match s.supervisor q with | some t => s.setEvents t (2 ^ 14) | none => s) s
        let s := if p.reason = 3 then (s.fset F.CCX_MIG.done 0 0 1).fset F.CCX_MIG.result 0 0 0 else s
        s.finishPromo u

/-- A promotion of a position stops without a spare: a lost position leaves service, a worn one goes on. -/
def State.migrationEnds (s : State) (p : Promo) : State :=
  let k := (p.unit - 0x800) / 8
  let slots := (List.range 8).map (8 * k + ·)
  let phys := s.fget F.CCX_CORE.phys k
  if p.reason = 2 ∨ s.flt.fenced.contains p.unit then
    let s := slots.foldl (fun s t => s.fset F.CCX_T_STATUS.state t 0 tFenced) (s.fset F.CCX_CORE.state k 0 3)
    s.coreRecord k phys phys 3 2
  else
    slots.foldl (fun s t => if s.thrState t = tMigrating then s.fset F.CCX_T_STATUS.state t 0 (s.thr t).before else s)
      (s.fset F.CCX_CORE.state k 0 0)

/-- A logic fault of a core position. DEDUCED, log entry 51. -/
def State.coreFault (s : State) (position : Nat) : State :=
  if 18 ≤ position ∨ s.fget F.CCX_CORE.state position = 3 then s
  else
    let u := 0x800 + 8 * position
    let slots := (List.range 8).map (8 * position + ·)
    let phys := s.fget F.CCX_CORE.phys position
    let s := slots.foldl (fun s t =>
      if s.thrState t = tRunning ∨ s.thrState t = tWaiting ∨ s.thrState t = tMigrating then s.threadFault t fCore 0 0 else s) s
    let s := s.fencePromote 15 u 3 position phys
    if s.fget F.CCX_CORE.state position = 2 then s
    else
      let s := s.fset F.CCX_CORE.state position 0 3
      let s := slots.foldl (fun s t => s.fset F.CCX_T_STATUS.state t 0 tFenced) s
      (s.coreRecord position phys phys 3 2).spareLost 3 u fun s p => s.migrationEnds p

/-- CORE_LOGIC_FAULT (R424): every thread of the position stops with CORE_LOST; without a promotion the position and its slots leave
service. -/
def execCoreLogicFault (position : Nat) (s : State) : Host.Outcome State Fault Refusal := s.act fun s => s.coreFault position

/-- A slow core position. -/
def State.coreSlow (s : State) (position : Nat) : State :=
  let f := s.fget F.CCX_CORE.freq position
  if position < 18 ∧ f < s.fget F.CCX_CFG.slow_freq ∧ s.fget F.CCX_CORE.state position = 0 then
    s.tellSlow (0x800 + 8 * position) fun s => s.wearAdvisory 16 (0x800 + 8 * position) 3 f 0 f
  else s

/-- CORE_SLOW_ADVISORY (R421): while a core is slow, an ADVISORY of cause 16 once per minute. -/
def execCoreSlowAdvisory (position : Nat) (s : State) : Host.Outcome State Fault Refusal := s.act fun s => s.coreSlow position

end Sys2Proof.Machine
end

