-- ==== Sys2Proof/Machine/Dma.lean ====
section
/-! DEFINITION. DMA channels, descriptors and event rings (R435–R458). -/

namespace Sys2Proof.Machine

/-! ## Channels (R435–R438) -/

/-- The unit of a channel. -/
def chanUnit (ch : Nat) : Nat := 0xB00 + ch

/-- The channel is in service (R435). -/
def State.chanOn (s : State) (ch : Nat) : Bool :=
  decide (64 ≤ ch ∧ ch < 80) || (decide (ch < 64) && s.partEnabled (ch / 4) && bit (s.partWord (ch / 4) 23) (20 + ch % 4))

/-- The stored state of a channel. -/
def State.chanState (s : State) (ch : Nat) : Nat := s.fget F.DMA_CH_STATUS.state ch

/-- Set the state of a channel. -/
def State.setChan (s : State) (ch n : Nat) : State := s.fset F.DMA_CH_STATUS.state ch 0 n

/-- A channel holds no list. -/
def State.chanIdle (s : State) (ch : Nat) : State :=
  (s.modChan ch fun c => { c with desc := none, ended := none, stopping := false }).setChan ch 1

/-- A channel re-reads the `next` of the descriptor on which it is parked (R436). -/
def State.reread (s : State) (ch next : Nat) : State :=
  if next = 0 then s else (s.modChan ch fun c => { c with desc := none, fetch := descAddr next }).setChan ch 2

/-- The `next` of the descriptor on which a channel is parked: as CMEM holds it, or as the host's memory answers `host`. -/
def State.parkedNext (s : State) (ch host : Nat) : Nat :=
  match (s.chan ch).desc with
  | some d => if isCmemAddr d.addr then s.cmem64 (s.cmemWordOf ch d.addr) else host
  | none => 0

/-- DMA_GO: an IDLE channel starts at `DMA_CH_HEAD` (R437). -/
def State.chanGo (s : State) (ch : Nat) : State :=
  if s.chanOn ch && s.chanState ch = 1 && !s.flt.fenced.contains 0xC00 then
    (s.modChan ch fun c => { c with desc := none, ended := none, fetch := descAddr (s.fget F.DMA_CH_HEAD.addr ch) }).setChan ch 2
  else s

/-- DMA_BELL: a PARKED channel re-reads `next` (R437). -/
def State.chanBell (s : State) (ch host : Nat) : State :=
  if s.chanOn ch && s.chanState ch = 3 && !s.flt.fenced.contains 0xC00 then s.reread ch (s.parkedNext ch host) else s

/-- DMA_STOP (R436). DEDUCED, log entry 53. -/
def State.chanStop (s : State) (ch : Nat) : State :=
  let st := s.chanState ch
  if st = 2 ∧ (s.chan ch).desc.isSome then s.modChan ch fun c => { c with stopping := true }
  else if st = 2 ∨ st = 3 ∨ st = 4 then s.chanIdle ch else s

/-- DMA_CLEAR (R436). -/
def State.chanClear (s : State) (ch : Nat) : State := if s.chanState ch = 5 then s.chanIdle ch else s

/-- A write of `DMA_CH_CTL` for a channel; `host` is what the host's memory answers when a parked channel re-reads `next`. -/
def State.effDmaCtl (s : State) (ch v host : Nat) : State :=
  let s := if bit v 0 then s.chanClear ch else s
  let s := if bit v 1 then s.chanStop ch else s
  let s := if bit v 3 then s.chanGo ch else s
  if bit v 2 then s.chanBell ch host else s

/-! ## Bytes of CMEM in the window layout (R76, R447) -/

/-- The byte at an offset of the window layout. -/
def State.cmemByte (s : State) (a : Nat) : Byte :=
  let w := (s.cget (a / 8)).toNat
  match a % 8 with
  | 4 => BitVec.ofNat 8 (bits w 35 32)
  | 5 | 6 | 7 => 0
  | j => BitVec.ofNat 8 (w >>> (8 * j))

/-- A word with those of its bytes replaced that a write covers. -/
def mergeWord (old : Nat) (at_ : Nat → Option Byte) : Nat :=
  (List.range 5).foldl (fun v j =>
    match at_ j with
    | none => v
    | some b => if j = 4 then v % 2 ^ 32 + b.toNat % 16 * 2 ^ 32 else v - bits v (8 * j + 7) (8 * j) * 2 ^ (8 * j) + b.toNat * 2 ^ (8 * j)) old

/-- Write bytes from an offset of the window layout; each word changes whole (R85, R447). -/
def State.cmemWrite (s : State) (a : Nat) (bs : List Byte) : State :=
  (List.range ((a % 8 + bs.length + 7) / 8)).foldl (fun s k =>
    let at_ := fun (j : Nat) => if 8 * k + j < a % 8 then none else bs[8 * k + j - a % 8]?
    if (List.range 5).any fun j => (at_ j).isSome then
      s.cput (a / 8 + k) (BitVec.ofNat 36 (mergeWord (s.cget (a / 8 + k)).toNat at_))
    else s) s

/-! ## Descriptors (R439, R440, R442) -/

/-- Where a source or destination address leads. -/
inductive Space where
  | host (a : Nat)
  | cmem (a : Nat)
  | buffer (h off : Nat)
  | send (w : Nat)
  | inject (g : Nat)
  | peer (a : Nat)
  | bad
  deriving DecidableEq, Repr

/-- The space of an address as a partition's channel or lane uses it; a CMEM address as an absolute offset of the window layout. -/
def State.spaceOf (s : State) (p a : Nat) : Space :=
  if a < 2 ^ 63 then .host a
  else if bits a 58 52 ≠ 0 then .bad
  else match bits a 62 59 with
    | 0 => .cmem (bits a 51 0 + (if p < 16 then 8 * s.cmemBase p else 0))
    | 1 => .buffer (bits a 35 0) (bits a 51 36)
    | 2 => .send (bits a 51 0)
    | 3 => .inject (bits a 1 0)
    | _ => .bad

/-- Where a channel's source or destination leads: space 4 is the peer's CMEM while R608 opens it. -/
def State.chanSpace (s : State) (p a : Nat) : Space :=
  if 2 ^ 63 ≤ a ∧ bits a 62 52 = 4 * 2 ^ 7 ∧ s.linkUp ∧ bit (s.fget F.TWN_XDMA.parts) p then .peer (bits a 33 0) else s.spaceOf p a

/-- `n` bytes of the window layout lie within the partition's reach. -/
def State.cmemReach (s : State) (p a n : Nat) : Bool :=
  if p < 16 then decide (8 * s.cmemBase p ≤ a ∧ a + n ≤ 8 * (s.cmemBase p + s.cmemWords p))
  else decide (a + n ≤ 2 ^ 24)

/-- The word of CMEM at which a descriptor's address has it; none is a fetch that fails with RANGE (R439, R450). -/
def State.descWord (s : State) (p a : Nat) : Option Nat :=
  match s.spaceOf p a with
  | .cmem b => if b % 128 = 0 ∧ s.cmemReach p b 128 then some (b / 8) else none
  | _ => none

/-- A descriptor from its eight fields. -/
def descOf (a : Nat) (f : Nat → Nat) : Desc :=
  { addr := a, next := f 0, src := f 1, dst := f 2, len := f 3, mode := f 4, index := f 5, esize := f 6 }

/-- The operation of a descriptor. -/
def descOp (d : Desc) : Nat := bits d.mode 3 0

/-- A descriptor whose mode field has status MODE (R442). DEDUCED, log entry 53. -/
def modeBad (d : Desc) : Bool :=
  decide (d.mode / 512 ≠ 0 ∨ 3 < descOp d ∨ bits d.mode 5 4 = 3 ∨ (bits d.mode 5 4 ≠ 0 ∧ descOp d ≠ 0))

/-- A channel stops at a descriptor that cannot be fetched (R450). -/
def State.haltChan (s : State) (ch code : Nat) : State :=
  let a := (s.chan ch).fetch
  let s := ((s.modChan ch fun c => { c with desc := none, ended := none, stopping := false }).setChan ch 5).fset F.DMA_CH_STATUS.code ch 0 code
  (s.bump F.DMA_CH_CNT.count ch 7).emitChan ch (chanPart ch)
    { code := 0x0A, unit := chanUnit ch, stamp := s.stamp, p3 := code, p5 := a % 2 ^ 36, p6 := a / 2 ^ 36 }

/-- The descriptor that a RUNNING channel has before it: the one under way, or the one it now reads. `fields` are the eight fields that the
host's memory answers for a descriptor there. -/
def State.fetchDesc (s : State) (ch : Nat) (fields : List Nat) : Option Desc × State :=
  match (s.chan ch).desc with
  | some d => (some d, s)
  | none =>
    let a := (s.chan ch).fetch
    let take := fun (d : Desc) =>
      let s := (s.modChan ch fun c => { c with desc := some d }).fset F.DMA_CH_CUR.addr ch 0 a
      (some d, s.fset F.DMA_CH_STATUS.cmem ch 0 (if a < 2 ^ 63 then 0 else 1))
    if a < 2 ^ 63 then take (descOf a fun i => fields.getD i 0 % 2 ^ 64)
    else match s.descWord (chanPart ch) a with
      | some w => take (descOf a fun i => s.cmem64 (w + 2 * i))
      | none => (none, s.haltChan ch 5)

/-- A channel processes its descriptor when it is of an operation and has not ended. -/
def State.chanOp (s : State) (ch : Nat) (fields : List Nat) (isOp : Nat → Bool) (run : State → Desc → State) : State :=
  if !s.chanOn ch || s.chanState ch ≠ 2 || (s.chan ch).ended.isSome then s
  else match s.fetchDesc ch fields with
    | (none, s) => s
    | (some d, s') => if isOp (descOp d) then run s' d else s

/-- A BUFFER access that the BPM refuses as NOT_HELD or NOT_OWNED is counted against the partition (R292, R441); an ALLOC counts its own
refusals. -/
def State.countRefusal (s : State) (p : Nat) (e : DescEnd) : State :=
  if e.code = 6 ∧ (e.sub = 3 ∨ e.sub = 4) then s.refuseOp p e.sub else s

/-- The descriptor has ended. -/
def State.descEnd (s : State) (ch : Nat) (e : DescEnd) : State :=
  (s.countRefusal (chanPart ch) e).modChan ch fun c => { c with ended := some e }

/-! ## Moving bytes (R440, R441, R443, R449) -/

/-- What keeps a partition's channel or lane from `n` bytes at a place: code, sub-code and a handle that failed R270; code 0 for nothing. -/
def State.spaceError (s : State) (p : Nat) (sp : Space) (off n : Nat) : DescEnd :=
  match sp with
  | .host _ | .peer _ => {}
  | .cmem a => if s.cmemReach p (a + off) n then {} else { code := 5 }
  | .buffer h o =>
    if !s.handleOk h then { code := 7, handle := some h }
    else
      let st := match s.buf h with
        | none => 3
        | some b => if b.part ≠ p ∧ p ≠ 16 then 4 else if b.quar then 6 else 0
      if st ≠ 0 then { code := 6, sub := st }
      else if s.poolSize (handlePool h) < o + off + n then { code := 5 }
      else if (List.range ((n + 255) / 256 + 1)).any fun k => s.deepBad h (min (o + off + 256 * k) (o + off + n - 1)) then { code := 9 }
      else {}
  | _ => { code := 5 }

/-- Bytes at a place; of the host's memory, the next bytes that it answers. -/
def State.spaceRead (s : State) (sp : Space) (off n : Nat) (host : List Byte) : List Byte :=
  match sp with
  | .cmem a => (List.range n).map fun i => s.cmemByte (a + off + i)
  | .buffer h o => s.bufBytes h (o + off) n
  | _ => host.take n

/-- Write bytes at a place. -/
def State.spaceWrite (s : State) (p : Nat) (sp : Space) (off : Nat) (bs : List Byte) : State :=
  match sp with
  | .host a => { s with hostMem := hostWrite s.hostMem p (a + off) bs }
  | .cmem a => s.cmemWrite (a + off) bs
  | .peer a => (s.twinSend (.dmaWrite p (a + off) bs)).twnCount 8 bs.length
  | .buffer h o => (s.bufWrite h (o + off) bs).deepTouch true h (o + off) bs.length
  | _ => s

/-- The source is memory that answers from outside: the host's, or the peer's. -/
def isHost : Space → Bool
  | .host _ | .peer _ => true
  | _ => false

/-- A read is asked for: of the peer's CMEM, with its answer counted (R609), and of the lines of a deep-buffer pool (R305). -/
def State.readAsk (s : State) (p : Nat) (sp : Space) (off n got : Nat) : State :=
  match sp with
  | .buffer h o => s.deepTouch false h (o + off) n
  | .peer a => (s.twinSend (.dmaRead p (a + off) n)).twnCount 9 got
  | _ => s

/-- Move elements, each an offset at the source, one at the destination and a size, in order (R443). `host` are the bytes that the host's
memory answers for them and `err` how its answers end: when they end early, the bytes that have arrived are moved. DEDUCED, log entry 53. -/
def State.moveLoop (s : State) (p : Nat) (src dst : Space) (err : Nat) : List (Nat × Nat × Nat) → List Byte → Nat → DescEnd × State
  | [], _, n => ({ bytes := n }, s)
  | (so, do_, k) :: rest, host, n =>
    let e := s.spaceError p src so k
    let e := if e.code ≠ 0 then e else s.spaceError p dst do_ k
    if e.code ≠ 0 then ({ e with bytes := n }, s)
    else
      let bs := s.spaceRead src so k host
      let s := s.readAsk p src so k bs.length
      if bs.length < k then
        ({ code := if err = 0 then 3 else err, bytes := if rest = [] ∧ n = 0 then bs.length else n }, s.spaceWrite p dst do_ bs)
      else (s.spaceWrite p dst do_ bs).moveLoop p src dst err rest (if isHost src then host.drop k else host) (n + k)

/-- The offsets of an index table of `n` entries: from the host's answers, or from CMEM. -/
def State.tableOf (s : State) (sp : Space) (n : Nat) (host : List Byte) : List Nat :=
  let bs := s.spaceRead sp 0 (4 * n) host
  (List.range n).map fun i => ofLE ((bs.drop (4 * i)).take 4)

/-- DMA_COPY: bytes from `src` to `dst` contiguously, gathered or scattered; a descriptor whose mode is not one of R442 ends with MODE. -/
def execDmaCopy (ch : Nat) (fields : List Nat) (table data : List Byte) (err : Nat) (s : State) : Host.Outcome State Fault Refusal :=
  s.act fun s => s.chanOp ch fields (fun op => op = 0 || decide (3 < op)) fun s d =>
    let pat := bits d.mode 5 4
    let src := s.chanSpace (chanPart ch) d.src
    let dst := s.chanSpace (chanPart ch) d.dst
    let n := d.len / d.esize
    let ix := s.spaceOf (chanPart ch) d.index
    let ixErr := match ix with
      | .host _ => if table.length < 4 * n then { code := if err = 0 then 3 else err } else ({} : DescEnd)
      | .cmem a => if s.cmemReach (chanPart ch) a (4 * n) then {} else { code := 5 }
      | _ => { code := 5 }
    if modeBad d then s.descEnd ch { code := 8 }
    else if 2 ^ 32 ≤ d.len then s.descEnd ch { code := 11 }
    else if pat = 0 then
      let (e, s) := s.moveLoop (chanPart ch) src dst err [(0, 0, d.len)] data 0
      s.descEnd ch e
    else if d.esize = 0 ∨ 65536 < d.esize ∨ d.len % d.esize ≠ 0 then s.descEnd ch { code := 11 }
    else if ixErr.code ≠ 0 then s.descEnd ch ixErr
    else
      let offs := s.tableOf ix n table
      let els := (List.range n).map fun i =>
        if pat = 1 then (offs.getD i 0, i * d.esize, d.esize) else (i * d.esize, offs.getD i 0, d.esize)
      let (e, s) := s.moveLoop (chanPart ch) src dst err els data 0
      s.descEnd ch e

/-! ## Sending (R445) -/

/-- The frame of a SEND or INJECT is brought into a new buffer: how it ended, or the buffer's handle. -/
def State.dmaFrame (s : State) (ch : Nat) (d : Desc) (data : List Byte) (err : Nat) : Sum DescEnd Nat × State :=
  let src := s.chanSpace (chanPart ch) d.src
  if d.len < 60 ∨ 10236 < d.len then (.inl { code := 11 }, s)
  else
    let e := s.spaceError (chanPart ch) src 0 d.len
    if e.code ≠ 0 then (.inl e, s)
    else
      let bs := s.spaceRead src 0 d.len data
      let s := s.readAsk (chanPart ch) src 0 d.len bs.length
      if bs.length < d.len then (.inl { code := if err = 0 then 3 else err }, s)
      else
        let (st, h, s) := s.bpmAlloc (chanUnit ch) (chanPart ch) (poolFor (d.len + 4))
        if st ≠ 0 then (.inl { code := 6, sub := st }, s) else (.inr h, s.bufWrite h 0 bs)

/-- The fields of a frame that a descriptor sends. -/
def dmaPush (ch : Nat) (d : Desc) (h w : Nat) : Push :=
  { handle := h, len := d.len + 4, part := chanPart ch, port := bits w 7 0, qclass := bits w 10 8, cls := bits w 13 11, colour := bits w 15 14,
    edit := bits w 27 16, md := d.index % 2 ^ 36 }

/-- DMA_SEND (R445). -/
def execDmaSend (ch : Nat) (fields : List Nat) (data : List Byte) (err : Nat) (s : State) : Host.Outcome State Fault Refusal :=
  s.act fun s => s.chanOp ch fields (fun op => op = 1) fun s d =>
    if modeBad d then s.descEnd ch { code := 8 }
    else match s.spaceOf (chanPart ch) d.dst with
      | .send w =>
        match s.dmaFrame ch d data err with
        | (.inl e, s) => s.descEnd ch e
        | (.inr h, s) =>
          let x := dmaPush ch d h w
          let q := queueNo x.port ((s.setFor s.tagNow x.part x.port).getD 0) (if x.qclass = 7 then 6 else x.qclass)
          let (why, s) := s.pushCopy x
          let s := (if why = 0 then s else s.freeDropped h).bump F.DMA_CH_CNT.count ch 6
          s.descEnd ch { code := if why = 0 then 0 else 10, sub := why, bytes := d.len, queue := q }
      | _ => s.descEnd ch { code := 5 }

/-- DMA_INJECT (R445): a full injection FIFO holds the channel. -/
def execDmaInject (ch : Nat) (fields : List Nat) (data : List Byte) (err : Nat) (s : State) : Host.Outcome State Fault Refusal :=
  s.act fun s => s.chanOp ch fields (fun op => op = 2) fun s d =>
    if modeBad d then s.descEnd ch { code := 8 }
    else match s.spaceOf (chanPart ch) d.dst with
      | .inject g =>
        if s.injectFull g then s
        else match s.dmaFrame ch d data err with
          | (.inl e, s) => s.descEnd ch e
          | (.inr h, s) => ((s.injectJob (dmaPush ch d h 0) g).bump F.DMA_CH_CNT.count ch 6).descEnd ch { bytes := d.len }
      | _ => s.descEnd ch { code := 5 }

/-! ## Receiving (R444) -/

/-- A punt queue of the channel's partition is bound to its ring. -/
def State.puntBound (s : State) (ch q : Nat) : Bool :=
  let p := chanPart ch
  s.flag F.CCX_PQ.sink p q &&
    decide ((if p < 16 then 4 * p + s.fget F.CCX_PQ.chan p q % 4 else 64 + s.fget F.CCX_PQ.chan p q) = ch)

/-- The lowest-numbered punt queue bound to the channel that holds an entry, and the entry. -/
def State.puntReady (s : State) (ch : Nat) : Option (Nat × Punt) :=
  (List.range 16).findSome? fun q =>
    if s.puntBound ch q then ((tabGet [] s.punts (chanPart ch * 16 + q)).head?).map fun x => (q, x) else none

/-- A holding of a buffer that a channel has taken ends: freed as its named owner when it is the last. -/
def State.recvFree (s : State) (ch h : Nat) : State :=
  let op := match s.buf h with | some b => if b.count = 1 then opFree else opRelease | none => opFree
  (s.bpmOp (chanUnit ch) (chanPart ch) op h 0).2

/-- Process a RECV (R444). -/
def State.doRecv (s : State) (ch : Nat) (d : Desc) : State :=
  let dst := s.chanSpace (chanPart ch) d.dst
  let ok := match dst with | .host _ | .peer _ => true | .cmem a => s.cmemReach (chanPart ch) a (d.len % 2 ^ 32) | _ => false
  if modeBad d then s.descEnd ch { code := 8 }
  else if 2 ^ 32 ≤ d.len then s.descEnd ch { code := 11 }
  else if !ok then s.descEnd ch { code := 5 }
  else match s.puntReady ch with
    | none => s.setChan ch 4
    | some (q, x) =>
      if (s.buf x.handle).any (·.quar) then s.descEnd ch { code := 6, sub := 6 }
      else
        let k := chanPart ch * 16 + q
        let n := if x.len = 0 then s.bufSizeOf x.handle else x.len
        let m := min n d.len
        let bs := s.bufBytes x.handle 0 m
        let s := { s with punts := tabSet [] s.punts k ((tabGet [] s.punts k).drop 1) }.givePunt x (chanUnit ch)
        let s := (s.spaceWrite (chanPart ch) dst 0 bs).recvFree ch x.handle
        let st := match x.rx with | some r => stampOf r | none => 0
        let s := s.bump F.DMA_CH_CNT.count ch 5
        s.descEnd ch { bytes := m, trunc := decide (d.len < n),
                       punt := [x.words.getD 0 0, x.words.getD 1 0,
                                m % 2 ^ 14 + (if d.len < n then 2 ^ 14 else 0) + x.inPort * 2 ^ 15, st % 2 ^ 36, st / 2 ^ 36] }

/-- DMA_RECV (R444). -/
def execDmaRecv (ch : Nat) (fields : List Nat) (s : State) : Host.Outcome State Fault Refusal :=
  s.act fun s => s.chanOp ch fields (fun op => op = 3) fun s d => s.doRecv ch d

/-- RECV_PUNT_READY (R436, R444): an entry arrives for a WAITING channel. -/
def execRecvPuntReady (ch : Nat) (s : State) : Host.Outcome State Fault Refusal :=
  s.act fun s =>
    if s.chanState ch = 4 ∧ s.chanOn ch ∧ (s.puntReady ch).isSome then
      match (s.chan ch).desc with
      | some d => (s.setChan ch 2).doRecv ch d
      | none => s
    else s

/-! ## Completion (R448–R451) -/

/-- The status of a descriptor (R448). -/
def statusWord (e : DescEnd) : Nat :=
  2 ^ 63 + (if e.code = 0 ∨ e.code = 10 then 0 else 2 ^ 62) + e.code * 2 ^ 56 + e.sub * 2 ^ 52 + (if e.trunc then 2 ^ 51 else 0) +
    e.bytes % 2 ^ 32

/-- Write a descriptor's `status`. -/
def State.writeStatus (s : State) (ch : Nat) (d : Desc) (v : Nat) : State :=
  if d.addr < 2 ^ 63 then { s with hostMem := hostWrite s.hostMem (chanPart ch) (d.addr + 0x38) (bytesLE 8 v) }
  else
    let w := s.cmemWordOf ch d.addr + 14
    (s.cput w (BitVec.ofNat 36 v)).cput (w + 1) (BitVec.ofNat 36 (v / 2 ^ 36))

/-- The record of a descriptor (R466). -/
def State.descRecord (s : State) (ch : Nat) (d : Desc) (e : DescEnd) : Record :=
  if e.punt ≠ [] then
    { code := 0x0C, unit := chanUnit ch, stamp := s.stamp, p3 := e.punt.getD 0 0, p4 := e.punt.getD 1 0, p5 := e.punt.getD 2 0,
      p6 := e.punt.getD 3 0, p7 := e.punt.getD 4 0 }
  else
    { code := if e.code = 0 ∨ e.code = 10 then 0x08 else 0x09, unit := chanUnit ch, stamp := s.stamp,
      p3 := e.code + e.sub * 2 ^ 6 + descOp d * 2 ^ 10 + (if e.trunc then 2 ^ 14 else 0), p4 := e.bytes % 2 ^ 32,
      p5 := d.addr % 2 ^ 36, p6 := d.addr / 2 ^ 36, p7 := e.queue }

/-- Wake the thread that `DMA_CH_CFG.thread` names (R442); one outside the channel's partition is a miss. -/
def State.chanWake (s : State) (ch : Nat) : State :=
  match unitThr (s.fget F.DMA_CH_CFG.thread ch) with
  | some t => if s.thrPart t = chanPart ch then s.setEvents t (2 ^ 13) else s.bumpSat F.DMA_RING_STAT.novec ch 0
  | none => s.bumpSat F.DMA_RING_STAT.novec ch 0

/-- The record, the vector and the event bit of a completion, in the order of R451. -/
def State.announce (s : State) (ch part : Nat) (rec_ msi sev : Bool) (r : Record) (wake : State → State) : State :=
  let s := if rec_ then s.emitChan ch part r else s
  let raised := rec_ && s.flag F.DMA_RING_CFG.en ch && (s.chan ch).pendingRecs = 0
  let s := if msi && !raised then s.raiseVec ch else s
  if sev then wake s else s

/-- The channel goes on after a completed descriptor (R436). -/
def State.chanNext (s : State) (ch : Nat) (d : Desc) : State :=
  let s := s.modChan ch fun c => { c with ended := none }
  if (s.chan ch).stopping then s.chanIdle ch
  else
    let next := if isCmemAddr d.addr then s.cmem64 (s.cmemWordOf ch d.addr) else d.next
    if next = 0 then s.setChan ch 3 else s.reread ch next

/-- DESCRIPTOR_COMPLETE (R448, R451). -/
def execDescriptorComplete (ch : Nat) (s : State) : Host.Outcome State Fault Refusal :=
  s.act fun s =>
    match (s.chan ch).desc, (s.chan ch).ended with
    | some d, some e =>
      if s.chanState ch ≠ 2 then s
      else
        let isBad := decide (e.code ≠ 0 ∧ e.code ≠ 10)
        let s := s.writeStatus ch d (statusWord e)
        let s := (s.bump F.DMA_CH_STATUS.done ch 0).bump F.DMA_CH_CNT.count ch (if isBad then 1 else 0)
        let s := s.bump F.DMA_CH_CNT.count ch 2 e.bytes
        let s := if isBad then s.fset F.DMA_CH_STATUS.code ch 0 e.code else s
        let rec_ := bit d.mode 6 || isBad || e.punt ≠ []
        let s := s.announce ch (chanPart ch) rec_ (bit d.mode 7) (bit d.mode 8) (s.descRecord ch d e) fun s => s.chanWake ch
        match e.handle with
        | some h => s.badHandle (chanUnit ch) 0 h
        | none => s.chanNext ch d
    | _, _ => s

/-! ## Rings (R453, R456) -/

/-- RING_MODERATION_TIMER (R453). -/
def execRingModerationTimer (ch : Nat) (s : State) : Host.Outcome State Fault Refusal :=
  s.actAwake fun s => if (s.chan ch).pendingRecs = 0 then s else s.raiseVec ch

/-- After the consumer index has moved from `old` (R456): a freed slot takes the RING_LOST record of the records discarded. -/
def State.effRingCons (s : State) (ch old : Nat) : State :=
  let unread := fun (c : Nat) => (s.fget F.DMA_RING_PROD.index ch + 65536 - c) % 65536
  let lost := (s.chan ch).lostSince
  if s.flag F.DMA_RING_CFG.en ch ∧ lost ≠ 0 ∧ unread (s.fget F.DMA_RING_CONS.index ch) < unread old ∧
      unread (s.fget F.DMA_RING_CONS.index ch) < s.ringSize ch - 1 then
    let s := s.modChan ch fun c => { c with lostSince := 0 }
    (s.ringWrite ch (if ch < 64 then ch / 4 else 0)
      { code := 0x01, unit := chanUnit ch, stamp := s.stamp, p3 := lost % 2 ^ 32 }).moderate ch
  else s

/-- After a write of `DMA_RING_CFG`: clearing `en` sets both indices to 0. DEDUCED, log entry 53. -/
def State.effRingCfg (s : State) (ch : Nat) : State :=
  if s.flag F.DMA_RING_CFG.en ch then s
  else ((s.modChan ch fun c => { c with pendingRecs := 0, lostSince := 0 }).fset F.DMA_RING_PROD.index ch 0 0).fset
    F.DMA_RING_CONS.index ch 0 0

end Sys2Proof.Machine
end

