-- ==== Sys2Proof/Machine/Cipher.lean ====
section
/-! DEFINITION. The look-aside cipher engine: lanes, keys, jobs and their outcomes (R467–R482). -/

namespace Sys2Proof.Machine

/-! ## Algorithms (R472, R477) -/

/-- Bytewise exclusive or. -/
def xorBytes (a b : List Byte) : List Byte := List.zipWith (· ^^^ ·) a b

/-- CBC encryption of blocks. -/
def cbcEnc (key : List Byte) : BitVec 128 → List (List Byte) → List Byte
  | _, [] => []
  | iv, b :: bs =>
    let c := aesEnc key (blockNat b ^^^ iv)
    natBlock c ++ cbcEnc key c bs

/-- CBC decryption of blocks. -/
def cbcDec (key : List Byte) : BitVec 128 → List (List Byte) → List Byte
  | _, [] => []
  | iv, b :: bs => natBlock (aesDec key (blockNat b) ^^^ iv) ++ cbcDec key (blockNat b) bs

/-- PKCS#7 padding: between 1 and 16 bytes. -/
def padBytes (n : Nat) : List Byte := List.replicate (16 - n % 16) (BitVec.ofNat 8 (16 - n % 16))

/-- The padding of a decrypted message; none when a padding byte is wrong. -/
def padOf (bs : List Byte) : Option Nat :=
  let p := (bs.getLast?.getD 0).toNat
  if 1 ≤ p ∧ p ≤ 16 ∧ (bs.drop (bs.length - p)).all (fun b => b.toNat = p) then some p else none

/-- A key stream of blocks of `k` bytes, long enough for `n` bytes. -/
def streamOf (k n : Nat) (block : Nat → List Byte) : List Byte := ((List.range ((n + k - 1) / k)).flatMap block).take n

/-- The key stream of AES-CTR from an initial counter block, incremented modulo 2¹²⁸. -/
def ctrStream (key : List Byte) (iv n : Nat) : List Byte :=
  streamOf 16 n fun i => natBlock (aesEnc key (BitVec.ofNat 128 (iv + i)))

/-- The key stream of AES-GCM: the block after J0 = IV ‖ 1 is the first. -/
def gcmStream (key iv : List Byte) (n : Nat) : List Byte :=
  streamOf 16 n fun i => natBlock (aesEnc key (BitVec.ofNat 128 (ofBE iv * 2 ^ 32 + (2 + i) % 2 ^ 32)))

/-- The key stream of ChaCha20 from block counter 1. -/
def chachaStream (key iv : List Byte) (n : Nat) : List Byte :=
  streamOf 64 n fun i => chachaBlock key iv (1 + i)

/-- The output of an algorithm that encrypts or decrypts; of CBC, with the padding added or still there. -/
def cipherOut (alg : Nat) (enc : Bool) (key iv msg : List Byte) : List Byte :=
  match alg with
  | 1 =>
    if enc then cbcEnc key (blockNat iv) (blocksOf (msg.length / 16 + 1) (msg ++ padBytes msg.length))
    else cbcDec key (blockNat iv) (blocksOf (msg.length / 16) msg)
  | 2 => xorBytes msg (ctrStream key (ofBE iv) msg.length)
  | 3 => xorBytes msg (gcmStream key iv msg.length)
  | 5 => aesXts enc key iv msg
  | _ => xorBytes msg (chachaStream key iv msg.length)

/-- The full tag of an algorithm that has one; `ct` is the ciphertext, or the message of GENERATE and VERIFY. -/
def cipherTag (alg : Nat) (key iv aad ct : List Byte) : List Byte :=
  match alg with
  | 3 => bytesBE 16 (gcmTag key iv aad ct).toNat
  | 4 => bytesBE 16 (aesCmac key ct).toNat
  | 6 => bytesBE 16 (polyTag key iv aad ct).toNat
  | _ => hmacSha256 key ct

/-- The key lengths of an algorithm (R472). -/
def klenOk (alg k : Nat) : Bool :=
  match alg with
  | 1 | 2 | 3 | 4 => k = 16 || k = 24 || k = 32
  | 5 => k = 32 || k = 64
  | 6 => k = 32
  | 7 => decide (1 ≤ k ∧ k ≤ 64)
  | _ => false

/-- The algorithm authenticates data with its encryption, or has only a tag. -/
def isAead (alg : Nat) : Bool := alg = 3 || alg = 6
def isMac (alg : Nat) : Bool := alg = 4 || alg = 7

/-- The algorithm allows the operation. -/
def opAllowed (alg op : Nat) : Bool := if isMac alg then op = 2 || op = 3 else op = 0 || op = 1

/-- Bytes of an algorithm's IV, nonce or tweak. -/
def ivLen (alg : Nat) : Nat := match alg with | 1 | 2 | 5 => 16 | 3 | 6 => 12 | _ => 0

/-- The tag length in force: 0 is taken as the full one; none outside the table. -/
def tagLen (alg t : Nat) : Option Nat :=
  let full := if alg = 7 then 32 else 16
  let t := if t = 0 then full else t
  let ok := match alg with
    | 3 => t = 4 || t = 8 || decide (12 ≤ t ∧ t ≤ 16)
    | 4 => decide (4 ≤ t ∧ t ≤ 16)
    | 6 => t = 16
    | 7 => decide (16 ≤ t ∧ t ≤ 32)
    | _ => true
  if ok then some t else none

/-- The length is one of the algorithm's. -/
def lenOk (alg op n : Nat) : Bool :=
  decide (n ≤ 16777216) &&
  match alg with
  | 1 => op = 0 || decide (n % 16 = 0 ∧ 16 ≤ n)
  | 5 => decide (16 ≤ n)
  | _ => true

/-- Output bytes of a job. -/
def outLen (alg op n : Nat) : Nat := if isMac alg then 0 else if alg = 1 ∧ op = 0 then n + 16 - n % 16 else n

/-! ## Lanes (R467–R471) -/

/-- The unit of a lane. -/
def laneUnit (l : Nat) : Nat := 0xB80 + l

/-- The holder of a lane; 31 when it is free. -/
def State.holderOf (s : State) (l : Nat) : Nat := s.fget F.CPH_LOCK.holder l

/-- The state of a lane by the codes of `CPH_STATUS`. -/
def State.laneState (s : State) (l : Nat) : Nat := s.fget F.CPH_STATUS.state l

/-- Set the state of a lane. -/
def State.setLane (s : State) (l n : Nat) : State := s.fset F.CPH_STATUS.state l 0 n

/-- Lanes held by a partition. -/
def State.lanesHeld (s : State) (p : Nat) : Nat := ((List.range 8).filter fun l => s.holderOf l = p).length

/-- A free lane that can be granted. -/
def State.laneFree (s : State) (l : Nat) : Bool :=
  s.holderOf l = 31 && !s.flag F.CPH_LOCK.fenced l && !s.flag F.CPH_LOCK.zeroising l

/-- A request for a lane by a partition (R468); a grant sets the lane's counters to zero. -/
def State.laneReq (s : State) (l p : Nat) : State :=
  if s.laneFree l && decide (s.lanesHeld p < bits (s.partWord p 23) 19 16) then
    let s := (List.range 8).foldl (fun s i => s.fset F.CPH_CNT.count l i 0) s
    let s := (s.fset F.CPH_LOCK.holder l 0 p).setLane l 1
    (s.fset F.CPH_STATUS.code l 0 0).fset F.CPH_STATUS.done l 0 0
  else s

/-- Everything that could reveal a key or a message is zeroised (R470, step 3). -/
def State.zeroise (s : State) (l : Nat) : State :=
  let s := s.modLane l fun _ => {}
  ((s.fset F.CPH_KEY_CTL.ready l 0 0).fset F.CPH_STATUS.alg l 0 0).fset F.CPH_STATUS.cmem l 0 0

/-- The registers of a lane that a release resets (R470, step 4). -/
def State.laneRegs (s : State) (l : Nat) : State :=
  ((s.wr .CPH_CFG l 0 (regReset .CPH_CFG l 0)).wr .CPH_HEAD l 0 0).wr .CPH_CUR l 0 0

/-! ## Jobs (R475–R479) -/

/-- The fields of `lens` of a job descriptor. -/
def jobLen (d : Desc) : Nat := bits d.len 31 0
def jobAad (d : Desc) : Nat := bits d.len 47 32
def jobTag (d : Desc) : Nat := bits d.len 55 48

/-- The reserved bits of a job descriptor. -/
def jobReserved (d : Desc) : Bool := decide (bits d.len 63 56 ≠ 0 ∨ d.mode / 512 ≠ 0 ∨ bits d.mode 5 4 ≠ 0 ∨ 3 < descOp d)

/-- A DECRYPT with authentication: every outcome but OK zeroes its output (R480). -/
def zeroesAll (alg : Nat) (d : Desc) : Bool := isAead alg && descOp d = 1

/-- A job's output area is overwritten with zeros (R480), as far as the holder reaches it. DEDUCED, log entry 55. -/
def State.zeroOut (s : State) (p : Nat) (d : Desc) : State :=
  let n := jobLen d
  if (s.spaceError p (s.spaceOf p d.dst) 0 n).code ≠ 0 then s
  else s.spaceWrite p (s.spaceOf p d.dst) 0 (List.replicate n 0)

/-- Two areas of a space overlap. -/
def overlap (a : Space) (n : Nat) (b : Space) (m : Nat) : Bool :=
  match a, b with
  | .host x, .host y => decide (x < y + m ∧ y < x + n ∧ 0 < n ∧ 0 < m)
  | .cmem x, .cmem y => decide (x < y + m ∧ y < x + n ∧ 0 < n ∧ 0 < m)
  | .buffer h x, .buffer k y => decide (h = k ∧ x < y + m ∧ y < x + n ∧ 0 < n ∧ 0 < m)
  | _, _ => false

/-- The place some bytes further on. -/
def spaceAdd (a : Space) (n : Nat) : Space :=
  match a with
  | .host x => .host (x + n)
  | .cmem x => .cmem (x + n)
  | .buffer h x => .buffer h (x + n)
  | b => b

/-- The first error of a list. -/
def firstErr : List DescEnd → DescEnd
  | [] => {}
  | e :: es => if e.code ≠ 0 then e else firstErr es

/-- A job before any byte moves: the status that ends it, code 0 for none (R476, R477). DEDUCED, log entry 55. -/
def State.jobCheck (s : State) (p alg : Nat) (d : Desc) : DescEnd :=
  let n := jobLen d
  let op := descOp d
  let src := s.spaceOf p d.src
  let dst := s.spaceOf p d.dst
  let iv := s.spaceOf p d.index
  let tag := s.spaceOf p d.esize
  let out := outLen alg op n
  if alg = 0 then { code := 15 }
  else if jobReserved d ∨ !opAllowed alg op then { code := 8 }
  else match tagLen alg (jobTag d) with
    | none => { code := 11 }
    | some t =>
      let hasTag := isAead alg || isMac alg
      if !lenOk alg op n then { code := 11 }
      else if out ≠ 0 ∧ ((overlap dst out src (jobAad d + n) ∧ dst ≠ spaceAdd src (jobAad d)) ∨ overlap dst out iv (ivLen alg) ∨
          (hasTag ∧ overlap dst out tag t)) then { code := 5 }
      else firstErr [s.spaceError p src 0 (jobAad d + n), if out = 0 then {} else s.spaceError p dst 0 out,
        if ivLen alg = 0 then {} else s.spaceError p iv 0 (ivLen alg), if hasTag then s.spaceError p tag 0 t else {}]

/-- A job ends. -/
def State.jobEnd (s : State) (l : Nat) (e : DescEnd) : State :=
  (s.countRefusal (s.holderOf l) e).modLane l fun c => { c with ended := some e }

/-- What a job answers: `input`, `iv` and `tag` are the bytes that the host's memory answers, `err` how its answers end when one is short. -/
def State.runJob (s : State) (l : Nat) (d : Desc) (input iv tag : List Byte) (err : Nat) : State :=
  let p := s.holderOf l
  let alg := s.fget F.CPH_STATUS.alg l
  let key := (s.lane l).key
  let op := descOp d
  let n := jobLen d
  let e := s.jobCheck p alg d
  if e.code ≠ 0 then s.jobEnd l e
  else
    let t := (tagLen alg (jobTag d)).getD 16
    let src := s.spaceOf p d.src
    let dst := s.spaceOf p d.dst
    let all := s.spaceRead src 0 (jobAad d + n) input
    let s := s.readAsk p src 0 (jobAad d + n) all.length
    let v := s.spaceRead (s.spaceOf p d.index) 0 (ivLen alg) iv
    let given := if op = 3 ∨ (op = 1 ∧ isAead alg) then s.spaceRead (s.spaceOf p d.esize) 0 t tag else List.replicate t 0
    if all.length < jobAad d + n ∨ v.length < ivLen alg ∨ given.length < t then
      s.jobEnd l { code := if err = 0 then 3 else err, input := all.length }
    else
      let aad := if isAead alg then all.take (jobAad d) else []
      let msg := all.drop (jobAad d)
      let inp := jobAad d + n
      if isMac alg then
        let mac := (cipherTag alg key v [] msg).take t
        if op = 2 then (s.spaceWrite p (s.spaceOf p d.esize) 0 mac).jobEnd l { input := inp }
        else s.jobEnd l { code := if mac = given then 0 else 12, input := inp }
      else
        let out := cipherOut alg (op = 0) key v msg
        if op = 0 then
          let s := s.spaceWrite p dst 0 out
          let s := if isAead alg then s.spaceWrite p (s.spaceOf p d.esize) 0 ((cipherTag alg key v aad out).take t) else s
          s.jobEnd l { bytes := out.length, input := inp }
        else if isAead alg then
          let ok := (cipherTag alg key v aad msg).take t = given
          (s.spaceWrite p dst 0 out).jobEnd l { code := if ok then 0 else 12, bytes := out.length, input := inp }
        else if alg = 1 then
          match padOf out with
          | some k => (s.spaceWrite p dst 0 (out.take (n - k) ++ List.replicate k 0)).jobEnd l { bytes := n - k, input := inp }
          | none => (s.spaceWrite p dst 0 out).jobEnd l { code := 13, bytes := n, input := inp }
        else (s.spaceWrite p dst 0 out).jobEnd l { bytes := out.length, input := inp }

/-- A lane stops at a descriptor that cannot be fetched (R475). -/
def State.laneRecord (s : State) (l : Nat) (r : Record) : State :=
  let p := s.holderOf l
  let ch := if p < 16 then 4 * p + s.fget F.CPH_CFG.chan l % 4 else 64 + s.fget F.CPH_CFG.chan l
  if s.flag F.CPH_CFG.chan_en l then s.emitChan ch p r else s.unbound p

/-- The lane goes to HALTED with its CPH_HALT record. -/
def State.haltLane (s : State) (l code : Nat) : State :=
  let a := (s.lane l).fetch
  let s := (s.modLane l fun c => { c with desc := none, ended := none, stopping := false }).setLane l 4
  ((s.fset F.CPH_STATUS.code l 0 code).bump F.CPH_CNT.count l 7).laneRecord l
    { code := 0x6A, unit := laneUnit l, stamp := s.stamp, p3 := code, p5 := a % 2 ^ 36, p6 := a / 2 ^ 36 }

/-- The job that a RUNNING lane has before it: the one under way, or the one it now reads. -/
def State.fetchJob (s : State) (l : Nat) (fields : List Nat) : Option Desc × State :=
  match (s.lane l).desc with
  | some d => (some d, s)
  | none =>
    let a := (s.lane l).fetch
    let take := fun (d : Desc) =>
      let s := (s.modLane l fun c => { c with desc := some d }).fset F.CPH_CUR.addr l 0 a
      (some d, s.fset F.CPH_STATUS.cmem l 0 (if a < 2 ^ 63 then 0 else 1))
    if a < 2 ^ 63 then take (descOf a fun i => fields.getD i 0 % 2 ^ 64)
    else match s.descWord (s.holderOf l) a with
      | some w => take (descOf a fun i => s.cmem64 (w + 2 * i))
      | none => (none, s.haltLane l 5)

/-- A lane processes its job when it is of an operation and has not ended. -/
def State.laneOp (s : State) (l : Nat) (fields : List Nat) (isOp : Nat → Bool) (run : State → Desc → State) : State :=
  if s.laneState l ≠ 2 || (s.lane l).ended.isSome then s
  else match s.fetchJob l fields with
    | (none, s) => s
    | (some d, s') => if isOp (descOp d) then run s' d else s

/-- CPH_ENCRYPT; an operation that no algorithm has ends with MODE. -/
def execCphEncrypt (lane : Nat) (fields : List Nat) (input iv : List Byte) (err : Nat) (s : State) : Host.Outcome State Fault Refusal :=
  s.act fun s => s.laneOp lane fields (fun op => op = 0 || decide (3 < op)) fun s d => s.runJob lane d input iv [] err

/-- CPH_DECRYPT. -/
def execCphDecrypt (lane : Nat) (fields : List Nat) (input iv tag : List Byte) (err : Nat) (s : State) : Host.Outcome State Fault Refusal :=
  s.act fun s => s.laneOp lane fields (fun op => op = 1) fun s d => s.runJob lane d input iv tag err

/-- CPH_GENERATE. -/
def execCphGenerate (lane : Nat) (fields : List Nat) (input : List Byte) (err : Nat) (s : State) : Host.Outcome State Fault Refusal :=
  s.act fun s => s.laneOp lane fields (fun op => op = 2) fun s d => s.runJob lane d input [] [] err

/-- CPH_VERIFY. -/
def execCphVerify (lane : Nat) (fields : List Nat) (input tag : List Byte) (err : Nat) (s : State) : Host.Outcome State Fault Refusal :=
  s.act fun s => s.laneOp lane fields (fun op => op = 3) fun s d => s.runJob lane d input [] tag err

/-- The status and record of a job, and what follows (R478–R480): zeroing, status, record, vector and event bit in order. -/
def State.finishJob (s : State) (l : Nat) (d : Desc) (e : DescEnd) : State :=
  let p := s.holderOf l
  let alg := s.fget F.CPH_STATUS.alg l
  let zero := decide (e.code = 14) || e.code = 13 || (e.code ≠ 0 && zeroesAll alg d)
  let s := if zero && !isMac alg then s.zeroOut p d else s
  let e := if zero then { e with bytes := 0 } else e
  let st := 2 ^ 63 + (if e.code = 0 then 0 else 2 ^ 62) + e.code * 2 ^ 56 + e.bytes % 2 ^ 32
  let s := if d.addr < 2 ^ 63 then { s with hostMem := hostWrite s.hostMem p (d.addr + 0x38) (bytesLE 8 st) }
    else
      let w := s.cmemWordP p d.addr + 14
      (s.cput w (BitVec.ofNat 36 st)).cput (w + 1) (BitVec.ofNat 36 (st / 2 ^ 36))
  let cnt := fun (s : State) (i n : Nat) => s.bump F.CPH_CNT.count l i n
  let s := (cnt (cnt (cnt s (if e.code = 0 then 0 else 1) 1) 2 e.input) 3 e.bytes).bump F.CPH_STATUS.done l 0
  let s := if e.code = 12 then cnt s 4 1 else if e.code = 13 then cnt s 5 1 else if e.code = 14 then cnt s 6 1 else s
  let s := if e.code = 0 then s else s.fset F.CPH_STATUS.code l 0 e.code
  let r : Record := { code := if e.code = 0 then 0x68 else 0x69, unit := laneUnit l, stamp := s.stamp, p3 := e.code + descOp d * 2 ^ 10,
                      p4 := e.bytes % 2 ^ 32, p5 := d.addr % 2 ^ 36, p6 := d.addr / 2 ^ 36 }
  let ch := if p < 16 then 4 * p + s.fget F.CPH_CFG.chan l % 4 else 64 + s.fget F.CPH_CFG.chan l
  let rec_ := bit d.mode 6 || e.code ≠ 0
  let wake := fun (s : State) =>
    match unitThr (s.fget F.CPH_CFG.thread l) with
    | some t => if s.thrPart t = p then s.setEvents t (2 ^ 13) else s
    | none => s
  if s.flag F.CPH_CFG.chan_en l then s.announce ch p rec_ (bit d.mode 7) (bit d.mode 8) r wake
  else
    let s := if rec_ then s.unbound p else s
    if bit d.mode 8 then wake s else s

/-- A lane holds no list. -/
def State.laneIdle (s : State) (l : Nat) : State :=
  (s.modLane l fun c => { c with desc := none, ended := none, stopping := false }).setLane l 1

/-- A lane re-reads `next`. -/
def State.laneReread (s : State) (l next : Nat) : State :=
  if next = 0 then s else (s.modLane l fun c => { c with desc := none, fetch := descAddr next }).setLane l 2

/-- The lane goes on after a completed job. -/
def State.laneNext (s : State) (l : Nat) (d : Desc) : State :=
  let s := s.modLane l fun c => { c with ended := none }
  if (s.lane l).stopping then s.laneIdle l
  else
    let next := if isCmemAddr d.addr then s.cmem64 (s.cmemWordP (s.holderOf l) d.addr) else d.next
    if next = 0 then s.setLane l 3 else s.laneReread l next

/-- A lane is zeroised, fenced and leaves its holder (R482, step 4). -/
def State.fenceLane (s : State) (l : Nat) : State :=
  (((s.zeroise l).setLane l 5).fset F.CPH_LOCK.holder l 0 31).fset F.CPH_LOCK.fenced l 0 1

/-- CPH_JOB_COMPLETE (R479): then the next descriptor, or after a handle that failed R270 the fence of the lane (R476). -/
def execCphJobComplete (lane : Nat) (s : State) : Host.Outcome State Fault Refusal :=
  s.act fun s =>
    match (s.lane lane).desc, (s.lane lane).ended with
    | some d, some e =>
      if s.laneState lane ≠ 2 then s
      else
        let s := s.finishJob lane d e
        match e.handle with
        | some h => (s.badHandle (laneUnit lane) 0 h).fenceLane lane
        | none => s.laneNext lane d
    | _, _ => s

/-- DESCRIPTOR_FETCH_FAIL (R450, R475): the fetch of a running channel's or lane's next descriptor fails with a code. -/
def execDescriptorFetchFail (lane : Bool) (n code : Nat) (s : State) : Host.Outcome State Fault Refusal :=
  s.act fun s =>
    if lane then (if s.laneState n = 2 ∧ (s.lane n).desc = none then s.haltLane n code else s)
    else if s.chanOn n ∧ s.chanState n = 2 ∧ (s.chan n).desc = none then s.haltChan n code else s

/-! ## Release (R469, R470, R481) -/

/-- A release of a lane: the job under way is abandoned with ABORTED, and the lane zeroises. -/
def State.releaseLane (s : State) (l : Nat) : State :=
  if s.holderOf l = 31 ∨ s.flag F.CPH_LOCK.zeroising l then s
  else
    let s := match (s.lane l).desc with
      | some d => if s.laneState l = 2 then s.finishJob l d { code := 16 } else s
      | none => s
    ((s.zeroise l).setLane l 0).fset F.CPH_LOCK.zeroising l 0 1

/-- ZEROISE_DONE (R470): the released lane becomes free. -/
def execZeroiseDone (lane : Nat) (s : State) : Host.Outcome State Fault Refusal :=
  s.act fun s =>
    if s.flag F.CPH_LOCK.zeroising lane then
      ((s.laneRegs lane).fset F.CPH_LOCK.zeroising lane 0 0).fset F.CPH_LOCK.holder lane 0 31
    else s

/-- A write of `CPH_LOCK` by a partition's function; who may release has been checked (R469). -/
def State.effCphLock (s : State) (l p v : Nat) : State :=
  let s := if bit v 34 then s.releaseLane l else s
  if bit v 35 then s.laneReq l p else s

/-! ## Keys (R472, R473) -/

/-- A write of `CPH_KEY`*i*. -/
def State.effCphKey (s : State) (l i v : Nat) : State :=
  s.modLane l fun c => { c with staged := tabSet 0 c.staged i (v % 2 ^ 32), written := c.written ||| 2 ^ i }

/-- The key bytes staged in a lane. -/
def stagedKey (c : Lane) (k : Nat) : List Byte := ((List.range 16).flatMap fun i => bytesLE 4 (tabGet 0 c.staged i)).take k

/-- A write of `CPH_KEY_CTL.load`: the staged key is taken, or the load is refused (R472). -/
def State.keyLoad (s : State) (l : Nat) : State :=
  let alg := s.fget F.CPH_KEY_CTL.alg l
  let k := s.fget F.CPH_KEY_CTL.klen l
  let c := s.lane l
  let answer := fun (s : State) (d r : Nat) => (s.fset F.CPH_KEY_CTL.done l 0 d).fset F.CPH_KEY_CTL.result l 0 r
  if s.laneState l ≠ 1 ∧ s.laneState l ≠ 3 then answer s 1 1
  else if !klenOk alg k then answer s 1 2
  else if (List.range ((k + 3) / 4)).any fun i => !bit c.written i then answer s 1 3
  else answer (s.modLane l fun c => { c with loading := some (alg, stagedKey c k), staged := [], written := 0 }) 0 0

/-- KEY_LOAD_DONE (R473): the new key replaces the former one. -/
def execKeyLoadDone (lane : Nat) (s : State) : Host.Outcome State Fault Refusal :=
  s.act fun s =>
    match (s.lane lane).loading with
    | none => s
    | some (alg, key) =>
      let s := s.modLane lane fun c => { c with key := key, loading := none }
      ((s.fset F.CPH_STATUS.alg lane 0 alg).fset F.CPH_KEY_CTL.ready lane 0 1).fset F.CPH_KEY_CTL.done lane 0 1

/-! ## Lists (R436, R437, R475) -/

/-- CPH_GO; in the global safe state a lane takes no new job (R541). -/
def State.laneGo (s : State) (l : Nat) : State :=
  if s.laneState l = 1 ∧ !s.flag F.AON_STATUS.safe_global ∧ !s.flt.fenced.contains 0xC00 then
    (s.modLane l fun c => { c with desc := none, ended := none, fetch := descAddr (s.fget F.CPH_HEAD.addr l) }).setLane l 2
  else s

/-- CPH_BELL; `host` is what the host's memory answers for `next`. -/
def State.laneBell (s : State) (l host : Nat) : State :=
  if s.laneState l = 3 ∧ !s.flt.fenced.contains 0xC00 then
    match (s.lane l).desc with
    | some d => s.laneReread l (if isCmemAddr d.addr then s.cmem64 (s.cmemWordP (s.holderOf l) d.addr) else host)
    | none => s
  else s

/-- CPH_STOP. -/
def State.laneStop (s : State) (l : Nat) : State :=
  let st := s.laneState l
  if st = 2 ∧ (s.lane l).desc.isSome then s.modLane l fun c => { c with stopping := true }
  else if st = 2 ∨ st = 3 then s.laneIdle l else s

/-- CPH_CLEAR. -/
def State.laneClear (s : State) (l : Nat) : State := if s.laneState l = 4 then s.laneIdle l else s

/-- A write of `CPH_CTL`. -/
def State.effCphCtl (s : State) (l v host : Nat) : State :=
  let s := if bit v 0 then s.laneClear l else s
  let s := if bit v 1 then s.laneStop l else s
  let s := if bit v 3 then s.laneGo l else s
  if bit v 2 then s.laneBell l host else s

/-! ## Faults (R474, R482) -/

/-- A fault of a lane. -/
def State.cipherFault (s : State) (lane kind : Nat) : State :=
  if s.laneState lane = 5 then s
  else
    let p := s.holderOf lane
    let addr := match (s.lane lane).desc with | some d => d.addr | none => 0
    let s := match (s.lane lane).desc with
      | some d => if s.laneState lane = 2 then s.finishJob lane d { code := 14 } else s
      | none => s
    let s := s.fencing 17 (laneUnit lane) (addr % 2 ^ 36) kind (if p = 31 then 16 else p)
    s.fenceLane lane

/-- CIPHER_FAULT: `kind` 1 a datapath mismatch, 2 a key parity error. -/
def execCipherFault (lane kind : Nat) (s : State) : Host.Outcome State Fault Refusal := s.act fun s => s.cipherFault lane kind

end Sys2Proof.Machine
end

