-- ==== Sys2Proof/Machine/Sched.lean ====
section
/-! DEFINITION. The scheduler (chapter 10): shapers, eligibility, the gate rules, selection, and the hand-over of selected copies to rewrite
clusters or the cross link (R25, R329–R346, R603). -/

namespace Sys2Proof.Machine

/-! ## Shapers (R335–R338) -/

/-- Shaper numbers: ports, then queue sets, then queues of classes 0–6. -/
def shPort (port : Nat) : Nat := port
def shSet (port set : Nat) : Nat := 256 + port * 16 + set
def shCls (port set c : Nat) : Nat := 8192 + queueNo port set c

/-- The rate in Mb/s that the ACTIVE bank gives a shaper. -/
def State.shRate (s : State) (n : Nat) : Nat :=
  let t := s.tagNow
  if n < 256 then s.pget 16 t F.SCH_PORT.rate n
  else if n < 8192 then s.pget 16 t F.SCH_SET_CFG.rate (n - 256)
  else
    let q := n - 8192
    s.pget (s.setPart t (q / 128) (q / 8 % 16)) t F.SCH_CLS_CFG.rate (q / 8) (q % 8)

/-- The burst in 64-byte units that the ACTIVE bank gives a shaper. -/
def State.shBurst (s : State) (n : Nat) : Nat :=
  let t := s.tagNow
  if n < 256 then s.pget 16 t F.SCH_PORT_BURST.burst n
  else if n < 8192 then s.pget 16 t F.SCH_SET_BURST.burst (n - 256)
  else
    let q := n - 8192
    s.pget (s.setPart t (q / 128) (q / 8 % 16)) t F.SCH_CLS_BURST.burst (q / 8) (q % 8)

/-- The shaper that a register of a plane configures. -/
def shaperOfKey (k : Nat) : Option Nat :=
  let r := k / 2 ^ 32
  let c := k / 2 ^ 16 % 2 ^ 16
  if r = Reg.SCH_PORT.ctorIdx then some (shPort c)
  else if r = Reg.SCH_SET_CFG.ctorIdx then some (256 + c)
  else if r = Reg.SCH_CLS_CFG.ctorIdx then some (8192 + 8 * c + k % 2 ^ 16)
  else none

/-- The shapers with a rate, or that had one at the last tick. -/
def State.shapers (s : State) : List Nat :=
  ((List.range 17).flatMap (fun sc => (s.plane sc (s.scope sc).active).regs.filterMap fun e => shaperOfKey e.1) ++
    tabKeys s.rates).dedup

/-- A shaper's credit in units of 1/400 byte, so that a tick of 20 ns adds its rate in Mb/s exactly. DESIGN CHOICE, log entry 35. -/
def State.credit (s : State) (n : Nat) : Int := tabGet 0 s.credits n

/-- One shaper at a refill tick: it takes its rate and burst, and its credit rises up to the burst (R335, R338). -/
def State.refillShaper (s : State) (n : Nat) : State :=
  let r := s.shRate n
  if r = 0 then { s with rates := tabErase s.rates n, credits := tabErase s.credits n }
  else
    let cap : Int := s.shBurst n * 64 * 400
    { s with rates := tabSet 0 s.rates n r, credits := tabSet 0 s.credits n (min cap (s.credit n + r)) }

/-- SHAPER_REFILL_TICK (R335): every 32 core clocks. -/
def execShaperRefillTick (s : State) : Host.Outcome State Fault Refusal :=
  s.act fun s => s.shapers.foldl (fun s n => s.refillShaper n) s

/-- A shaper allows (R336). -/
def State.shAllows (s : State) (n : Nat) : Bool := decide (tabGet 0 s.rates n = 0 ∨ 0 < s.credit n)

/-- Charge bytes to a shaper; one with rate 0 keeps no credit. -/
def State.shCharge (s : State) (n : Nat) (bytes : Int) : State :=
  if tabGet 0 s.rates n = 0 then s else { s with credits := tabSet 0 s.credits n (s.credit n - 400 * bytes) }

/-- Charge a copy's bytes to its shapers: the port's alone for class 7 (R336, R337). -/
def State.shCopy (s : State) (c : Copy) (bytes : Int) : State :=
  let s := s.shCharge (shPort c.port) bytes
  if c.qclass = 7 then s
  else (s.shCharge (shSet c.port c.set) bytes).shCharge (shCls c.port c.set c.qclass) bytes

/-! ## Dual-homed ports (R601) -/

/-- The port is dual-homed and not OWN: `n` is 0 for FENCED, 2 for PEER. -/
def State.dhState (s : State) (port n : Nat) : Bool :=
  s.flag F.TWN_CFG.en && s.flag F.TWN_DH.valid 0 port && s.fget F.TWN_DH.state 0 port = n

/-- The transmitter of a port sends frames: UP, and no remote fault makes it send idle (R120, R121). -/
def State.txOn (s : State) (port : Nat) : Bool := s.portState port = pUp && !s.flag F.MAC_STATUS.rem_fault port

/-- The scheduler serves the port (R121, R329, R601): UP with no remote fault; or its transmitter drops or redirects what reaches it. A
PEER port waits while the cross link is not UP. -/
def State.serving (s : State) (port : Nat) : Bool :=
  if s.dhState port 2 then s.linkUp
  else s.txOn port || s.flag F.MAC_STATUS.safe port || s.dhState port 0

/-! ## Wire start and fit (R341, R342, R345) -/

/-- The bytes that an edited copy sends, its FCS with it (R35, R367): a mirror copy is truncated, and a short frame padded. -/
def State.txLen (s : State) (t : TxCopy) : Nat :=
  let n := s.copyLen t.copy - 4 - t.orig + t.head.length
  max 60 (if t.copy.trunc = 0 ∨ n + 4 ≤ t.copy.trunc then n else min t.copy.trunc n) + 4

/-- The device time at which the last bit of the fragment on a port's wire leaves, were it sent to its end. -/
def State.wireEnd (s : State) (port : Nat) : Nat :=
  match (s.port port).wire with
  | some t => t.start + s.wireTime port (8 + (s.txLen t - t.sent))
  | none => (s.port port).lastEnd

/-- When the frames before a copy of class `c` have left: class 7 preempts the preemptable frame on the wire (R144).
DEDUCED, log entry 44. -/
def State.prevEnd (s : State) (port c : Nat) : Nat :=
  let p := s.port port
  let cuts := decide (c = 7) && s.preempts port &&
    (match p.wire with | some t => decide (t.copy.qclass ≠ 7) | none => false)
  let w := if cuts then p.lastEnd else s.wireEnd port
  if c = 7 then max p.endX w else max (max p.endX p.endG) w

/-- The wire start of a copy selected now (R341). -/
def State.wireStart (s : State) (port c : Nat) : Nat :=
  max (s.time.now + s.txLead port) (s.prevEnd port c + s.wireTime port 12)

/-- Hold and Release governs a copy (R342). -/
def State.holdRule (s : State) (c : Copy) : Bool :=
  decide (c.qclass ≠ 7) && s.preempts c.port && decide (64 * (1 + s.fragK c.tag c.port) + 64 ≤ s.schedLen c)

/-- The open wire time that a copy needs to start (R341, R342). -/
def State.fitNeed (s : State) (c : Copy) : Nat :=
  s.wireTime c.port (if s.holdRule c then 8 + 64 * (1 + s.fragK c.tag c.port)
    else 8 + s.schedLen c + s.pget 16 c.tag F.SCH_PORT.grow c.port)

/-- The copy's gate is open at a wire start for as long as it needs. -/
def State.gateFits (s : State) (c : Copy) (ws : Nat) : Bool :=
  s.gateOpen c.port c.tag c.qclass ws &&
    match s.gateLeft c.port c.tag c.qclass ws with
    | none => true
    | some left => decide (s.fitNeed c ≤ left)

/-- No window of the copy's list is long enough for it (R345). DEDUCED, log entry 44. -/
def State.neverFits (s : State) (c : Copy) : Bool :=
  match s.gateWindow c.port c.tag c.qclass with
  | none => false
  | some w =>
    let need := s.wireTime c.port (if s.holdRule c then 8 + 64 * (1 + s.fragK c.tag c.port) + 64
      else 8 + s.schedLen c + s.pget 16 c.tag F.SCH_PORT.grow c.port)
    decide (w * nsUnits < need)

/-! ## Eligibility (R330) -/

/-- Conditions 1–4 of R330 for the head of a queue. Nothing is sent on a port that is not OWN, so nothing is cut through there. -/
def State.headReady (s : State) (h : Copy) : Bool :=
  (s.copyWhole h || (h.ct && !s.dhState h.port 2)) && !bit (s.fget F.MAC_PAUSE_STATE.held h.port) h.qclass &&
    (h.qclass = 7 || (!s.portHold h.port s.time.now && s.shAllows (shCls h.port h.set h.qclass)))

/-- The head of a queue is eligible. -/
def State.headEligible (s : State) (h : Copy) : Bool :=
  s.headReady h && s.gateFits h (s.wireStart h.port h.qclass)

/-- The queue's head is eligible. -/
def State.queueEligible (s : State) (n : Nat) : Bool :=
  match (s.queue n).head with
  | [] => false
  | h :: _ => s.headEligible h

/-- Note since when the head of a queue has been eligible. -/
def State.noteReady (s : State) (n : Nat) : State :=
  let q := s.queue n
  match q.head with
  | [] => if q.ready.isNone then s else s.setQueue n { q with ready := none }
  | h :: _ =>
    let r := if s.headEligible h then
        match q.ready with
        | some (id, t) => if id = h.id then some (id, t) else some (h.id, s.time.cycles)
        | none => some (h.id, s.time.cycles)
      else none
    if r = q.ready then s else s.setQueue n { q with ready := r }

/-- Note since when the class-7 heads have been eligible. -/
def State.noteExpress (s : State) : State :=
  (tabKeys s.queues).foldl (fun s n => if n % 8 = 7 then s.noteReady n else s) s

/-! ## Heads that never fit, and deferred heads (R345) -/

/-- Take the head copy from a queue. -/
def State.popHead (s : State) (n : Nat) : State :=
  match (s.queue n).head with
  | [] => s
  | h :: _ => (s.filterQueue n fun c => c.id ≠ h.id).deepSettle n

/-- Drop the heads of a queue that never fit. -/
def State.dropNeverFits (s : State) (n : Nat) : Nat → State
  | 0 => s
  | fuel + 1 =>
    match (s.queue n).head with
    | [] => s
    | h :: _ =>
      if s.copyWhole h && s.neverFits h then
        (((s.popHead n).bump F.SCH_CNT.count (h.port * 16 + h.set) 4).dropCopy h 8 1).dropNeverFits n fuel
      else s

/-- A head that waits only for its gate is counted once in GATE_DEFER. -/
def State.noteDefer (s : State) (n : Nat) : State :=
  let q := s.queue n
  match q.head with
  | [] => s
  | h :: t =>
    if !h.deferred ∧ s.copyWhole h ∧ s.headReady h ∧ !s.gateFits h (s.wireStart h.port h.qclass) then
      (s.setQueue n { q with head := { h with deferred := true } :: t }).bump F.SCH_CNT.count (h.port * 16 + h.set) 7
    else s

/-- The queues of a port that hold a head copy, lowest first. -/
def State.portQueues (s : State) (port : Nat) : List Nat :=
  (s.queues.filter fun e => e.1 / 128 = port ∧ e.2.head ≠ []).map Prod.fst

/-! ## Selection (R329) -/

/-- The egress FIFO part of a class has room for a frame's first 256 bytes (R329, R356). DEDUCED, log entry 44. -/
def State.fifoRoom (s : State) (port c : Nat) : Bool :=
  let p := s.port port
  if c = 7 then decide ((p.fifo7.map fun t => t.head.length).sum + 256 ≤ 1024)
  else decide ((p.fifoG.map fun t => t.head.length).sum + 256 ≤ 2048 * s.portLanes port)

/-- Copies selected for a port that have not begun on the wire: of class 7 alone, or of every class. -/
def State.selWaiting (s : State) (port c : Nat) : Nat :=
  let p := s.port port
  p.order7.length + p.fifo7.length + (if c = 7 then 0 else p.orderG.length + p.fifoG.length)

/-- At most one selected copy waits behind the frame on the wire (R334), in its cluster or in the egress FIFO; with a free wire one more has it
before it. One of classes 0–6 never delays class 7. DEDUCED, log entry 44. -/
def State.noneWaits (s : State) (port c : Nat) : Bool :=
  decide (s.selWaiting port c < if (s.port port).wire.isSome then 1 else 2)

/-- The best of a list by an order, the first of equals. -/
def bestBy (better : Nat → Nat → Bool) : List Nat → Option Nat
  | [] => none
  | x :: t => some (t.foldl (fun b y => if better y b then y else b) x)

/-- The finish time of a queue's head at its set node. -/
def State.queueF (s : State) (n : Nat) : Nat := ((s.queue n).tag.map (·.2)).getD 0

/-- The queue that a set node selects among its eligible classes 0–6. -/
def State.setPick (s : State) (el : List Nat) (set : Nat) : Option Nat :=
  bestBy (fun a b => vBefore (s.queueF a) (s.queueF b)) (el.filter fun n => n / 8 % 16 = set)

/-- The finish time of a set at its port node, with the head that its set node would select (R331). -/
def State.setF (s : State) (port set n : Nat) : Nat :=
  match (s.queue n).head with
  | [] => 0
  | h :: _ => vFinish ((s.setNode port set).tag.getD 0) (s.schedLen h) (s.overhead h.tag port) (s.setWeight h.tag port set)

/-- Step 1 of R329: the class-7 head eligible for longest. -/
def State.pickExpress (s : State) (port : Nat) : Option Nat :=
  let since := fun n => match (s.queue n).ready with | some r => r.2 | none => s.time.cycles
  bestBy (fun a b => decide (since a < since b)) ((s.portQueues port).filter fun n => n % 8 = 7 && s.queueEligible n)

/-- Steps 2 and 3 of R329: the set, then the class, with the smallest finish time; the set's finish time with it. -/
def State.pickGeneral (s : State) (port : Nat) : Option (Nat × Nat) :=
  if !s.shAllows (shPort port) ∨ (s.port port).remainder.isSome then none
  else
    let el := (s.portQueues port).filter fun n => n % 8 ≠ 7 && s.queueEligible n
    let sets := (List.range 16).filter fun k => s.shAllows (shSet port k) && el.any fun n => n / 8 % 16 = k
    let fOf := fun k => match s.setPick el k with | some n => s.setF port k n | none => 0
    match bestBy (fun a b => vBefore (fOf a) (fOf b)) sets with
    | none => none
    | some k => (s.setPick el k).map fun n => (n, fOf k)

/-- The nodes advance at the selection of a queue of classes 0–6 (R331). -/
def State.advanceNodes (s : State) (n setF : Nat) : State :=
  let port := n / 128
  let set := n / 8 % 16
  let f := s.queueF n
  let s := (s.fset F.SCH_SET_VT.vt (port * 16 + set) 0 f).fset F.SCH_VT_NOW.vt port 0 setF
  let s := s.modSetNode port set fun (_ : SetNode) => { tag := none, lastF := setF }
  s.setQueue n { s.queue n with lastF := f }

/-- A copy selected for a PEER port is handed to the cross link (R603). Which outcome its trace gives is left open. -/
def State.redirect (s : State) (c : Copy) : State :=
  let bytes := s.bufBytes c.handle 0 (s.copyLen c)
  let s := s.twinSend (.copy c (s.fget F.TWN_DH.peer_port 0 c.port) bytes)
  let s := (s.leave c.port c.handle).balAdd c.part 15
  let out := if c.trace.isSome then s.freeNat 6 else 0
  let s := if c.trace.isSome then s.nextFree else s
  (s.traceTx c (if c.mirror then 1 else 0) out none).copyGone c

/-- A selected copy goes to its rewrite cluster, and into the order in which it enters its port's egress FIFO (R356). -/
def State.toCluster (s : State) (c : Copy) (ws : Nat) : State :=
  let fin := ws + s.wireTime c.port (8 + s.schedLen c)
  let s := s.modPort c.port fun p =>
    if c.qclass = 7 then { p with order7 := p.order7 ++ [c.id], endX := fin } else { p with orderG := p.orderG ++ [c.id], endG := fin }
  { s with clusters := tabMod {} s.clusters (c.port / 8) fun (k : Cluster) => { k with input := k.input ++ [c] } }

/-- Select the head of a queue: the virtual times, the shapers, and where the copy goes. -/
def State.selectHead (s : State) (n : Nat) (setF : Option Nat) : State :=
  match (s.queue n).head with
  | [] => s
  | h :: _ =>
    let ws := s.wireStart h.port h.qclass
    let s := match setF with | some f => s.advanceNodes n f | none => s
    let s := s.popHead n
    let s := s.shCopy h (s.schedLen h + s.overhead h.tag h.port : Nat)
    let s := if s.copyWhole h then s else s.swcCount h.part 14
    let c := { h with tSel := some s.time.now, stomp := h.stomp }
    if s.dhState h.port 2 then s.redirect c else s.toCluster c ws

/-- One selection for a port that can be served (R329). -/
def State.selectCopy (s : State) (port : Nat) : State :=
  match s.pickExpress port with
  | some n => if s.fifoRoom port 7 && s.noneWaits port 7 then s.selectHead n none else s
  | none =>
    if s.fifoRoom port 0 && s.noneWaits port 0 then
      match s.pickGeneral port with
      | some (n, f) => s.selectHead n (some f)
      | none => s
    else s

/-! ## Preemption and held remainders (R144, R342) -/

/-- The fragment data of the frame on the wire that has left when its mCRC ends at or before a time: the last cut point that R144 allows;
none when there is none. With `up` the first one at or after it. -/
def State.cutPoint (s : State) (port : Nat) (t : TxCopy) (at_ : Nat) (up : Bool) : Option Nat :=
  let least := (64 * (1 + s.fragK t.copy.tag port) - 4 + 7) / 8 * 8
  let most := (s.txLen t - t.sent - 64) / 8 * 8
  let gone := (at_ - t.start) * speedMbps (s.portSpeed port) / (8000 * nsUnits) - 12
  let d := if up then max least ((gone + 11) / 8 * 8) else min most (gone / 8 * 8)
  if 64 ≤ s.txLen t - t.sent ∧ least ≤ d ∧ d ≤ most then some d else none

/-- Cut the preemptable frame on the wire after `d` further bytes: its rest is held (R144). -/
def State.cutWire (s : State) (port : Nat) (t : TxCopy) (d : Nat) : State :=
  let fin := t.start + s.wireTime port (8 + d + 4)
  let s := s.modPort port fun p =>
    { p with wire := none, remainder := some { t with sent := t.sent + d, frags := t.frags + 1 }, lastEnd := fin }
  (s.macCount port 18).macCount port 19

/-- The frame on the wire is one that preemption may cut. -/
def State.wireCuttable (s : State) (port : Nat) : Option TxCopy :=
  match (s.port port).wire with
  | some t => if s.preempts port ∧ t.copy.qclass ≠ 7 then some t else none
  | none => none

/-- Where a gate list cuts a frame on the wire: at the last cut point before the close of its gate (R342), or at the next one when the hold is in
force (R339). DEDUCED, log entry 44. -/
def State.gateCutAt (s : State) (port : Nat) (t : TxCopy) : Option Nat :=
  let closed := if s.holdRule t.copy ∧ !s.gateOpen port t.copy.tag t.copy.qclass s.time.now then s.cutPoint port t s.time.now false else none
  closed.orElse fun _ => if s.portHold port s.time.now then s.cutPoint port t s.time.now true else none

/-- Cut the frame on the wire where its gate has closed or the hold is in force (R339, R342). -/
def State.gateCut (s : State) (port : Nat) : State :=
  match s.wireCuttable port with
  | none => s
  | some t =>
    match s.gateCutAt port t with
    | some d => (s.cutWire port t d).bump F.SCH_CNT.count (t.copy.port * 16 + t.copy.set) 5
    | none => s

/-- Cut the frame on the wire at its next cut point when its class becomes held (R137). -/
def State.pauseCut (s : State) (port : Nat) : State :=
  match s.wireCuttable port with
  | none => s
  | some t =>
    if bit (s.fget F.MAC_PAUSE_STATE.held port) t.copy.qclass then
      match s.cutPoint port t s.time.now true with
      | some d => s.cutWire port t d
      | none => s
    else s

/-- A held remainder may go on at a time (R342). -/
def State.mayResume (s : State) (port : Nat) (t : TxCopy) (at_ : Nat) : Bool :=
  let rest := s.txLen t - t.sent
  !s.portHold port at_ && !bit (s.fget F.MAC_PAUSE_STATE.held port) t.copy.qclass &&
    s.gateOpen port t.copy.tag t.copy.qclass at_ &&
    match s.gateLeft port t.copy.tag t.copy.qclass at_ with
    | none => true
    | some left => decide (s.wireTime port (8 + rest) ≤ left ∨ s.wireTime port (8 + 64 * (1 + s.fragK t.copy.tag port)) ≤ left)

/-- A held remainder goes on as a continuation fragment when the wire is free (R342); a control frame and a copy of class 7 that are ready go
first. -/
def State.resume (s : State) (port : Nat) : State :=
  let p := s.port port
  match p.remainder with
  | none => s
  | some t =>
    let at_ := max s.time.now (p.lastEnd + s.wireTime port 12)
    let express := p.fifo7.any fun x => !bit (s.fget F.MAC_PAUSE_STATE.held port) x.copy.qclass
    if !s.txOn port ∨ p.wire.isSome ∨ p.ctlWait ≠ [] ∨ express ∨ !s.mayResume port t at_ then s
    else (s.fset F.MAC_STATUS.lpi_tx port 0 0).modPort port fun q => { q with wire := some { t with start := at_ }, remainder := none }

/-! ## Commands -/

/-- SCHED_SELECT (R329): heads that never fit are dropped, a held remainder goes on, deferred heads are counted, and one copy is
selected. -/
def execSchedSelect (port : Nat) (s : State) : Host.Outcome State Fault Refusal :=
  s.act fun s =>
    if !s.serving port then s
    else
      let s := (s.portQueues port).foldl (fun s n => s.dropNeverFits n ((s.queue n).head.length + (s.queue n).pend.length)) s
      let s := s.resume port
      let s := (s.portQueues port).foldl (fun s n => s.noteDefer n) s
      let s := (s.portQueues port).foldl (fun s n => if n % 8 = 7 then s.noteReady n else s) s
      s.selectCopy port

/-- GATE_ENTRY_CHANGE (R340, R342): a list of a port moves to its next entry; a gate that closes or a hold cuts the frame on the wire, and an
open gate lets a held remainder go on. -/
def execGateEntryChange (port : Nat) (s : State) : Host.Outcome State Fault Refusal :=
  s.act fun s => (s.gateCut port).resume port

/-- One core clock (R1): class-7 heads eligible in it are noted, and time advances. -/
def State.clockTick (s : State) : State := s.noteExpress.tick

end Sys2Proof.Machine
end

