-- ==== Sys2Proof/Machine/SafeState.lean ====
section
/-! DEFINITION. Transmitters cut off, and the safe state of ports: local safe states of lane macros and of scheduler rows, and what the global
one does to a port (R121, R539, R540). -/

namespace Sys2Proof.Machine

/-! ## Cutting a transmitter off -/

/-- Take the copy with an ID out of a port's egress FIFO. -/
def State.unfifo (s : State) (port id : Nat) : State :=
  s.modPort port fun p =>
    { p with fifo7 := p.fifo7.filter fun t => t.copy.id ≠ id, fifoG := p.fifoG.filter fun t => t.copy.id ≠ id }

/-- The transmitter drops a copy as FENCED (R31, R121). -/
def State.txFenced (s : State) (port : Nat) (t : TxCopy) : State := ((s.macCount port 22).unfifo port t.copy.id).dropCopy t.copy 8 3

/-- The bytes that an edited copy sends, without its FCS. -/
def State.sentBytes (s : State) (t : TxCopy) : List Byte :=
  let n := s.copyLen t.copy - 4
  let bs := t.head ++ s.bufBytes t.copy.handle t.orig (n - t.orig)
  let bs := if t.copy.trunc = 0 ∨ bs.length + 4 ≤ t.copy.trunc then bs else bs.take t.copy.trunc
  bs ++ List.replicate (60 - bs.length) 0

/-- The lanes of a port enter the safe state, or the port leaves OWN (R121): the frame on the wire and a held remainder are dropped as
FENCED. -/
def State.cutOff (s : State) (port : Nat) : State :=
  let p := s.port port
  let s := match p.wire with
    | some t => s.modPort port fun q => { q with lastTx := some { bytes := (s.sentBytes t).take (t.sent + ((s.time.now - t.start) * speedMbps (s.portSpeed port) / (8000 * nsUnits) - 8)), bad := true } }
    | none => s
  let s := s.modPort port fun q => { q with wire := none, remainder := none }
  (p.wire.toList ++ p.remainder.toList).foldl (fun s t => s.txFenced port t) s

/-! ## Ports in the safe state -/

/-- A lane of the port is in the safe state. -/
def State.inSafe (s : State) (p : Nat) : Bool :=
  s.flag F.AON_STATUS.safe_global || s.power.down || s.flt.safeMacros.any (fun e => e.1 = p / 8) || s.flt.safePorts.contains p

/-- A port follows the safe state of its lanes (R118, R121, R503): on entry to FAULT with cause SAFE, and the transmitter cuts off what it
holds. -/
def State.refreshSafe (s : State) (p : Nat) : State :=
  if !s.portValid p || s.inSafe p = s.flag F.MAC_STATUS.safe p then s
  else if s.inSafe p then
    let s := (s.fset F.MAC_STATUS.safe p 0 1).squelchPort p 4
    let s := if s.portState p = pDisabled ∨ s.portState p = pFault then s
      else (s.modPort p fun q => { q with bringup := 0 }).portTo p pFault 11
    s.cutOff p
  else s.fset F.MAC_STATUS.safe p 0 0

/-- The valid ports of a lane macro. -/
def State.macroPorts (s : State) (m : Nat) : List Nat := ((List.range 8).map (8 * m + ·)).filter fun p => s.portValid p

/-- The SAFE_STATE record of a local safe state of some ports (R561). -/
def State.localRecord (s : State) (entered : Bool) (unit : Nat) (ports : List Nat) : State :=
  s.safeRecord 1 entered 2 unit (ports.headD 0) ports.length

/-- A lane macro enters the local safe state for a fenced unit (R540). -/
def State.enterLocal (s : State) (m unit : Nat) : State :=
  if s.flt.safeMacros.contains (m, unit) then s
  else
    let ps := s.macroPorts m
    let s := { s with flt := { s.flt with safeMacros := s.flt.safeMacros ++ [(m, unit)] } }
    (ps.foldl (fun s p => s.refreshSafe p) s).localRecord true unit ps

/-- The local safe state of a macro for a unit ends (R539). -/
def State.leaveLocal (s : State) (m unit : Nat) : State :=
  if !s.flt.safeMacros.contains (m, unit) then s
  else
    let ps := s.macroPorts m
    let s := { s with flt := { s.flt with safeMacros := s.flt.safeMacros.filter (· ≠ (m, unit)) } }
    (ps.foldl (fun s p => s.refreshSafe p) s).localRecord false unit ps

/-- A port enters the local safe state for a scheduler row without a spare (R540, R557). -/
def State.enterPort (s : State) (p unit : Nat) : State :=
  if s.flt.safePorts.contains p then s
  else ({ s with flt := { s.flt with safePorts := s.flt.safePorts ++ [p] } }.refreshSafe p).localRecord true unit [p]

/-- The local safe state of a rewrite cluster's macro follows whether it has an ACTIVE engine (R540); `unit` is the engine that changed. -/
def State.clusterSafe (s : State) (c unit : Nat) : State :=
  let held := s.flt.safeMacros.filter fun e => e.1 = c ∧ 0x400 ≤ e.2 ∧ e.2 < 0x720
  if (List.range 25).any fun e => s.fget F.RWE_ENG.state c e = 0 then held.foldl (fun s e => s.leaveLocal e.1 e.2) s
  else if held = [] then s.enterLocal c unit else s

end Sys2Proof.Machine
end

