-- ==== Sys2Proof/Machine/Edit.lean ====
section
/-! DEFINITION. What the edit instructions and the owner's microcode do to an edited head (R359–R371). -/

namespace Sys2Proof.Machine

/-! ## The edited head -/

/-- Bytes of the head from an offset. -/
def headBytes (e : Edit) (o n : Nat) : List Byte := (e.head.drop o).take n

/-- The big-endian number in `n` bytes of the head. -/
def headNum (e : Edit) (o n : Nat) : Nat := ofBE (headBytes e o n)

/-- An access of `n` bytes at `o` stays within the edited head. -/
def inHead (e : Edit) (o n : Nat) : Bool := decide (o + n ≤ e.head.length)

/-- Overwrite bytes of the head. -/
def putHead (e : Edit) (o : Nat) (bs : List Byte) : Edit :=
  { e with head := e.head.take o ++ bs ++ e.head.drop (o + bs.length) }

/-- A layer mark after an insertion of `n` bytes at `o` (R364). -/
def markIns (o n m : Nat) : Nat := if o < m then m + n else m

/-- A layer mark after a deletion of `n` bytes at `o` (R364). -/
def markDel (o n m : Nat) : Nat := if o + n ≤ m then m - n else if o < m then o else m

/-- Insert bytes at an offset. -/
def insHead (e : Edit) (o : Nat) (bs : List Byte) : Edit :=
  let f := markIns o bs.length
  { e with head := e.head.take o ++ bs ++ e.head.drop o, l3 := f e.l3, l4 := f e.l4, l5 := f e.l5 }

/-- Delete bytes at an offset. -/
def delHead (e : Edit) (o n : Nat) : Edit :=
  let f := markDel o n
  { e with head := e.head.take o ++ e.head.drop (o + n), l3 := f e.l3, l4 := f e.l4, l5 := f e.l5 }

/-- The edited head exceeds the original head by more than 128 bytes (R366). -/
def headGrown (e : Edit) : Bool := decide (e.orig + 128 < e.head.length)

/-! ## Program errors (R366) -/

def errOrder : Nat := 1
def errRange : Nat := 2
def errGrow : Nat := 3
def errLoop : Nat := 4
def errTrap : Nat := 5
def errData : Nat := 6

/-- A routine that reaches a fenced control-store word (R381), and an instruction that R361 or R362 reserves, which is checked as it runs under
R366 (R378) though R366 gives it no code of its own. DESIGN CHOICE, log entry 47. -/
def errFenced : Nat := 7
def errReserved : Nat := 8

/-- What a routine answers: 0 and the edit after it, or the code of an error, with the microword's
address and the trap code. -/
structure Ran where
  code : Nat := 0
  addr : Nat := 0
  trap : Nat := 0
  edit : Edit
  deriving DecidableEq, Repr

/-- A routine that stops with an error. -/
def ranErr (e : Edit) (code : Nat) : Ran := { code := code, edit := e }

/-- A routine that ends after `m` microwords and `d` data words; one longer than `instr_max` is LOOP. -/
def ranOk (lim : Nat) (e : Edit) (m d : Nat) : Ran :=
  if lim < m then ranErr e errLoop
  else if headGrown e then ranErr e errGrow
  else { edit := { e with cycles := e.cycles + m, word := e.word + 1 + d } }

/-! ## Fields of an instruction (R360, R361) -/

/-- The instruction word. -/
def editWord (e : Edit) : Nat := e.prog.getD e.word 0

/-- Its opcode; beyond word 15 the program ends. -/
def editOp (e : Edit) : Nat := if 15 < e.word then 0 else bits (editWord e) 35 28

/-- Data word `i` of the instruction. -/
def dataWord (e : Edit) (i : Nat) : Nat := e.prog.getD (e.word + 1 + i) 0

/-- Data words up to `d` of them lie within the program. -/
def dataOk (e : Edit) (d : Nat) : Bool := decide (e.word + d ≤ 15)

/-- The value of a base. -/
def baseVal (e : Edit) (b : Nat) : Nat :=
  match b with
  | 1 => e.l3 | 2 => e.l4 | 3 => e.l5 | 4 => e.p | _ => 0

/-- The base names a mark that is absent. -/
def baseAbsent (e : Edit) (b : Nat) : Bool := decide (1 ≤ b ∧ b ≤ 3) && decide (baseVal e b = 0)

/-- Bytes of `d` data words, cut to `n`. -/
def dataBytes (e : Edit) (n : Nat) : List Byte :=
  ((List.range ((n + 3) / 4)).flatMap fun i => bytesBE 4 (dataWord e i)).take n

/-- The tag protocols that the instructions recognise. DEDUCED, log entry 46. -/
def editTpid (t : Nat) : Bool := t = 0x8100 || t = 0x88A8 || t = 0x9100

/-- The frame is IPv4 or IPv6 at its `l3` mark. DEDUCED, log entry 46. -/
def isV4 (e : Edit) : Bool := decide (2 ≤ e.l3) && headNum e (e.l3 - 2) 2 = 0x0800
def isV6 (e : Edit) : Bool := decide (2 ≤ e.l3) && headNum e (e.l3 - 2) 2 = 0x86DD

/-- The ones'-complement sum of two 16-bit words, with end-around carry. -/
def onesAdd (a b : Nat) : Nat := let s := a % 65536 + b % 65536; if s < 65536 then s else s - 65535

/-- The ones'-complement sum of 16-bit words. -/
def onesSum (ws : List Nat) : Nat := ws.foldl onesAdd 0

/-- A checksum after one 16-bit word it covers has changed. -/
def csumUpdate (c old new : Nat) : Nat :=
  65535 - onesAdd (onesAdd (65535 - c % 65536) (65535 - old % 65536)) new

/-- An instruction at offset `o` runs: the bytes below pass (R363). `f` gets the edit with its new position. -/
def atOffset (e : Edit) (o : Nat) (f : Edit → Ran) : Ran :=
  if o < e.p then ranErr e errOrder else f { e with p := o }

/-- A standard instruction with `d` data words that uses `base` and `off`: skipped when its base mark is absent. -/
def stdOp (lim : Nat) (e : Edit) (d : Nat) (f : Edit → Nat → Ran) : Ran :=
  let w := editWord e
  let b := bits w 27 25
  if !dataOk e d then ranErr e errData
  else if baseAbsent e b then ranOk lim e 1 d
  else
    let o := baseVal e b + bits w 24 17
    atOffset e o fun e => f e o

/-! ## The instructions of R361 -/

/-- The bytes that `src` gives INSERT and REPLACE. -/
def srcBytes (e : Edit) (n : Nat) : List Byte :=
  match bits (editWord e) 10 9 with
  | 1 => dataBytes e n
  | 2 => bytesBE n (e.copy.md % 2 ^ 32)
  | _ => List.replicate n 0

/-- *n* of INSERT, REPLACE and COPY. -/
def editN (w : Nat) : Nat := bits w 16 11 + 1

def runInsert (lim : Nat) (e : Edit) : Ran :=
  let w := editWord e
  let n := editN w
  let d := if bits w 10 9 = 1 then (n + 3) / 4 else 0
  stdOp lim e d fun e o =>
    if e.head.length < o then ranErr e errRange
    else ranOk lim (insHead e o (srcBytes e n)) (1 + (n + 7) / 8) d

def runDelete (lim : Nat) (e : Edit) : Ran :=
  let n := bits (editWord e) 16 9 + 1
  stdOp lim e 0 fun e o => if !inHead e o n then ranErr e errRange else ranOk lim (delHead e o n) 1 0

def runReplace (lim : Nat) (e : Edit) : Ran :=
  let w := editWord e
  let n := editN w
  let d := if bits w 10 9 = 1 then (n + 3) / 4 else 0
  stdOp lim e d fun e o =>
    if !inHead e o n then ranErr e errRange else ranOk lim (putHead e o (srcBytes e n)) (1 + (n + 7) / 8) d

/-- Replace `w` bits from bit `b` (0 the most significant) of byte `o`. -/
def putBits (e : Edit) (o b w v : Nat) : Edit :=
  let nb := (b + w + 7) / 8
  let sh := 8 * nb - b - w
  let x := headNum e o nb
  let m := (2 ^ w - 1) * 2 ^ sh
  putHead e o (bytesBE nb (x - (x &&& m) + v % 2 ^ w * 2 ^ sh))

def runSet (lim : Nat) (e : Edit) : Ran :=
  let w := editWord e
  let wd := bits w 16 12 + 1
  let b := bits w 11 9
  let d := if bits w 8 7 = 1 then 1 else 0
  stdOp lim e d fun e o =>
    if !inHead e o ((b + wd + 7) / 8) then ranErr e errRange
    else
      let v := match bits w 8 7 with | 0 => e.copy.md | 1 => dataWord e 0 | 2 => e.copy.cls | _ => e.copy.colour
      ranOk lim (putBits e o b wd v) 2 d

def runCopy (lim : Nat) (e : Edit) : Ran :=
  let n := editN (editWord e)
  stdOp lim e 1 fun e o =>
    let dw := dataWord e 0
    let from_ := baseVal e (bits dw 27 25) + bits dw 24 17
    if baseAbsent e (bits dw 27 25) || !inHead e from_ n || !inHead e o n then ranErr e errRange
    else ranOk lim (putHead e o (headBytes e from_ n)) (1 + (n + 7) / 8) 1

/-- The checksum of the IPv4 header at `l3`, its checksum field counted as zero. -/
def ipChecksum (e : Edit) : Nat :=
  let ihl := headNum e e.l3 1 % 16
  65535 - onesSum ((List.range (2 * ihl)).map fun j => if j = 5 then 0 else headNum e (e.l3 + 2 * j) 2)

/-- DEDUCED, log entry 46. -/
def runCsum (lim : Nat) (e : Edit) : Ran :=
  stdOp lim e 0 fun e o =>
    if !inHead e o 2 then ranErr e errRange
    else if bits (editWord e) 16 15 = 1 then ranOk lim (putHead e o (bytesBE 2 0)) 1 0
    else
      let ihl := headNum e e.l3 1 % 16
      if e.l3 = 0 ∨ !inHead e e.l3 1 ∨ !inHead e e.l3 (4 * ihl) then ranErr e errRange
      else ranOk lim (putHead e o (bytesBE 2 (ipChecksum e))) (3 + (ihl + 1) / 2) 0

def runTtl (lim : Nat) (e : Edit) : Ran :=
  if isV4 e then
    atOffset e (e.l3 + 8) fun e =>
      if !inHead e (e.l3 + 8) 4 then ranErr e errRange
      else
        let t := headNum e (e.l3 + 8) 1
        if t = 0 then ranOk lim e 3 0
        else
          let c := onesAdd (headNum e (e.l3 + 10) 2) 0x0100
          ranOk lim (putHead (putHead e (e.l3 + 8) (bytesBE 1 (t - 1))) (e.l3 + 10) (bytesBE 2 c)) 4 0
  else if isV6 e then
    atOffset e (e.l3 + 7) fun e =>
      if !inHead e (e.l3 + 7) 1 then ranErr e errRange
      else ranOk lim (putHead e (e.l3 + 7) (bytesBE 1 (headNum e (e.l3 + 7) 1 - 1))) 2 0
  else ranOk lim e 2 0

def runPushTag (lim : Nat) (e : Edit) : Ran :=
  let w := editWord e
  let tp := bits w 16 15
  let tc := bits w 14 13
  let d := if tp = 3 ∨ tc = 1 then 1 else 0
  stdOp lim e d fun e o =>
    if e.head.length < o ∨ (tc = 2 ∧ !inHead e o 4) then ranErr e errRange
    else
      let tpid := match tp with | 0 => 0x8100 | 1 => 0x88A8 | 2 => 0x9100 | _ => bits (dataWord e 0) 31 16
      let tci := match tc with | 0 => e.copy.md % 65536 | 1 => dataWord e 0 % 65536 | _ => headNum e (o + 2) 2
      let tci := if bit w 12 then e.copy.cls * 8192 + tci % 8192 else tci
      ranOk lim (insHead e o (bytesBE 2 tpid ++ bytesBE 2 tci)) 3 d

def runPopTag (lim : Nat) (e : Edit) : Ran :=
  stdOp lim e 0 fun e o =>
    if !inHead e o 2 then ranErr e errRange
    else if editTpid (headNum e o 2) then
      if !inHead e o 4 then ranErr e errRange else ranOk lim (delHead e o 4) 2 0
    else ranOk lim e 2 0

def runSetPcp (lim : Nat) (e : Edit) : Ran :=
  let w := editWord e
  let d := if bit w 16 then 1 else 0
  stdOp lim e d fun e o =>
    if !inHead e o 2 then ranErr e errRange
    else if editTpid (headNum e o 2) then
      if !inHead e o 4 then ranErr e errRange
      else
        let c := e.copy.cls
        let pcp := if bit w 16 then bits (dataWord e 0) (3 * c + 2) (3 * c) else c
        let e := putBits e (o + 2) 0 3 pcp
        ranOk lim (if bit w 15 then putBits e (o + 2) 3 1 (if e.copy.colour = 0 then 0 else 1) else e) 2 d
    else ranOk lim e 2 d

def runSetDscp (lim : Nat) (e : Edit) : Ran :=
  let ds := bits (editWord e) 16 11
  if isV4 e then
    atOffset e (e.l3 + 1) fun e =>
      if !inHead e e.l3 12 then ranErr e errRange
      else
        let old := headNum e e.l3 2
        let e' := putBits e (e.l3 + 1) 0 6 ds
        let c := csumUpdate (headNum e (e.l3 + 10) 2) old (headNum e' e.l3 2)
        ranOk lim (putHead e' (e.l3 + 10) (bytesBE 2 c)) 4 0
  else if isV6 e then
    atOffset e e.l3 fun e =>
      if !inHead e e.l3 2 then ranErr e errRange else ranOk lim (putBits e e.l3 4 6 ds) 2 0
  else ranOk lim e 1 0

/-- PTP_CF: the offset is the first byte written, by the routine or by the MAC. -/
def runPtpCf (lim : Nat) (e : Edit) : Ran :=
  let kind := bits (editWord e) 16 15
  if e.l5 = 0 ∨ (kind ≠ 0 ∧ e.l4 = 0) then ranOk lim e 1 0
  else
    let o := if kind = 1 then min (e.l4 + 6) (e.l5 + 8) else e.l5 + 8
    atOffset e o fun e =>
      if !inHead e (e.l5 + 8) 8 ∨ (kind ≠ 0 ∧ !inHead e (e.l4 + 6) 2) then ranErr e errRange
      else
        let e' := if kind = 1 then putHead e (e.l4 + 6) (bytesBE 2 0) else e
        ranOk lim { e' with mac := e'.mac ++ [.cf kind (e.l5 + 8) e.l4] } 6 0

def runPtpTs (lim : Nat) (e : Edit) : Ran :=
  let two := bit (editWord e) 16
  stdOp lim e 0 fun e o =>
    if !two ∧ !inHead e o 10 then ranErr e errRange
    else ranOk lim { e with mac := e.mac ++ [.ts two o] } 2 0

/-- NOP moves nothing. DEDUCED, log entry 46. -/
def runNop (lim : Nat) (e : Edit) : Ran := ranOk lim e 1 0

/-- The current instruction is one that `base` and `off` place (R361). -/
def usesBase (e : Edit) : Bool := let op := editOp e; !(op = 0 || op = 0x07 || op = 0x0B || op = 0x0C || op = 0x0E)

/-- The current instruction has a base or an operand value that R361 reserves. DESIGN CHOICE, log entry 47. -/
def editReserved (e : Edit) : Bool :=
  let w := editWord e
  let based := bits w 27 25 > 4
  match editOp e with
  | 0x01 | 0x03 => based || bits w 10 9 = 3 || editN w > 32 || (bits w 10 9 = 2 && editN w > 4)
  | 0x02 | 0x04 | 0x09 | 0x0A | 0x0D => based
  | 0x05 => based || editN w > 32 || bits (dataWord e 0) 27 25 > 4
  | 0x06 => based || bits w 16 15 > 1
  | 0x08 => based || bits w 14 13 = 3
  | 0x0C => bits w 16 15 = 3
  | _ => false

/-! ## The owner's microcode (R368–R371) -/

/-- What a routine of the owner carries from one microword to the next: the next data word, the instruction's offset, and the edit. -/
structure Micro where
  edit : Edit
  o : Nat
  data : Nat := 0
  deriving DecidableEq, Repr

/-- Fields of a nanoword of 144 bits. -/
def nbits (n hi lo : Nat) : Nat := (n >>> lo) % 2 ^ (hi + 1 - lo)

/-- The addressed offset, which may lie before the frame. -/
def nanoAddr (m : Micro) (n : Nat) : Int :=
  let e := m.edit
  let base : Nat := match nbits n 103 100 with | 1 => m.o | 2 => e.l3 | 3 => e.l4 | 4 => e.l5 | 5 => e.p | _ => 0
  let off : Nat := nbits n 99 92
  (base : Int) + (if off < 128 then (off : Int) else (off : Int) - 256)

/-- The bytes of an ALU load or store. -/
def nanoLen (n : Nat) : Nat := min 8 (nbits n 91 86)

/-- The access lies within the edited head. -/
def nanoIn (m : Micro) (a : Int) (n : Nat) : Bool := decide (0 ≤ a) && inHead m.edit a.toNat n

/-- The copy word of R370. -/
def copyWord (c : Copy) : Nat :=
  c.cls + c.colour * 2 ^ 3 + c.qclass * 2 ^ 5 + c.part * 2 ^ 8 + (if c.mirror then 2 ^ 13 else 0) + c.port * 2 ^ 14

/-- An ALU operand, frame bytes at the addressed offset `a`: an error code, its value, and the micro-state after it. -/
def nanoSrc (m : Micro) (n : Nat) (a : Int) (sel : Nat) : Nat × Nat × Micro :=
  let e := m.edit
  match sel with
  | 1 =>
    if nanoIn m a (nanoLen n) then (0, headNum e a.toNat (nanoLen n), m) else (errRange, 0, m)
  | 2 => (0, nbits n 63 0, m)
  | 3 => (0, e.copy.md, m)
  | 4 => (0, bits (editWord e) 27 0, m)
  | 5 => (0, tabGet 0 e.scratch (nbits n 83 80), m)
  | 6 => if dataOk e (m.data + 1) then (0, dataWord e m.data, { m with data := m.data + 1 }) else (errData, 0, m)
  | 7 => (0, ((e.copy.rx.map fun t => stampOf t).getD 0) % 2 ^ 36, m)
  | 8 => (0, copyWord e.copy, m)
  | 9 => (0, e.head.length, m)
  | 10 => (0, e.alu, m)
  | 11 => (0, e.acc, m)
  | _ => (0, 0, m)

/-- The four 16-bit words of a 64-bit value. -/
def words16 (a : Nat) : List Nat := (List.range 4).map fun i => a / 2 ^ (16 * i) % 65536

/-- Flags of a result: zero, carry, negative, overflow. -/
def mkFlags (r : Nat) (carry ovf : Bool) : Nat :=
  (if r = 0 then 1 else 0) + (if carry then 2 else 0) + (if 2 ^ 63 ≤ r then 4 else 0) + (if ovf then 8 else 0)

/-- Flags of an addition and of a subtraction of 64-bit values. -/
def addFlags (a b : Nat) : Nat :=
  let r := (a + b) % 2 ^ 64
  mkFlags r (decide (2 ^ 64 ≤ a + b)) ((bit a 63 == bit b 63) && (bit r 63 != bit a 63))

def subFlags (a b : Nat) : Nat :=
  let r := (a + 2 ^ 64 - b) % 2 ^ 64
  mkFlags r (decide (a < b) == Config.carryIsBorrow) ((bit a 63 != bit b 63) && (bit r 63 != bit a 63))

/-- The ALU (R370): result, flags and accumulator. DEDUCED, log entry 46. -/
def nanoAlu (op a b acc : Nat) : Nat × Nat × Nat :=
  let a := a % 2 ^ 64
  let b := b % 2 ^ 64
  let plain := fun r => (r, mkFlags r false false, acc)
  match op with
  | 1 => ((a + b) % 2 ^ 64, addFlags a b, acc)
  | 2 => ((a + 2 ^ 64 - b) % 2 ^ 64, subFlags a b, acc)
  | 3 => plain (a &&& b)
  | 4 => plain (a ||| b)
  | 5 => plain (a ^^^ b)
  | 6 => plain (a * 2 ^ (b % 64) % 2 ^ 64)
  | 7 => plain (a / 2 ^ (b % 64))
  | 8 => (a, mkFlags (a &&& b) false false, acc)
  | 9 => (a, subFlags a b, acc)
  | 10 => plain (a - b)
  | 11 => plain (a / 65536 * 65536 + onesAdd a b)
  | 12 => (a, mkFlags a false false, onesSum (acc :: words16 a))
  | 13 => plain (65535 - acc % 65536)
  | _ => plain a

/-- A group of condition bits as it stands at the end of a microword (R370). -/
def nanoCond (s : State) (m : Micro) (n : Nat) : Nat :=
  let e := m.edit
  let b := fun (p : Bool) (k : Nat) => if p then 2 ^ k else 0
  match nbits n 129 126 with
  | 1 => bits (editWord e) 3 0
  | 2 => bits (editWord e) 7 4
  | 3 => e.flags
  | 4 => b (editTpid (headNum e 12 2)) 0 + b (editTpid (headNum e 16 2)) 1 + b (e.l4 ≠ 0) 2 + b (e.l5 ≠ 0) 3
  | 5 => b (e.copy.qclass = 7) 0 + b e.copy.mirror 1 + b (s.preempts e.copy.port) 2 + b (e.total ≤ e.orig + 4) 3
  | 6 =>
    let et := if e.l3 < 2 then 0 else headNum e (e.l3 - 2) 2
    b (et = 0x0800) 0 + b (et = 0x86DD) 1 + b (et = 0x8847 ∨ et = 0x8848) 2
  | 7 => b (e.loop = 0) 0 +
      b (match nbits n 103 100 with | 2 => decide (e.l3 = 0) | 3 => decide (e.l4 = 0) | 4 => decide (e.l5 = 0) | _ => false) 1
  | _ => 0

/-- The store of a nanoword's result, at the addressed offset `a`. -/
def nanoStore (m : Micro) (n : Nat) (a : Int) (r : Nat) : Nat × Micro :=
  let e := m.edit
  match nbits n 107 104 with
  | 1 =>
    if !nanoIn m a (nanoLen n) then (errRange, m)
    else if a.toNat < e.p then (errOrder, m)
    else (0, { m with edit := putHead e a.toNat (bytesBE (nanoLen n) r) })
  | 2 => (0, { m with edit := { e with scratch := tabSet 0 e.scratch (nbits n 83 80) r } })
  | 3 => (0, { m with edit := { e with macReg := r } })
  | 4 => (0, { m with edit := { e with loop := r } })
  | _ => (0, m)

/-- The mover of a nanoword at the addressed offset: an insertion from operand A, or a deletion. -/
def nanoMove (m : Micro) (n : Nat) (at_ : Int) (a : Nat) (bs : List Byte) : Nat × Micro :=
  let e := m.edit
  let k := nbits n 91 86
  match nbits n 85 84 with
  | 1 =>
    if at_ < 0 ∨ (e.head.length : Int) < at_ then (errRange, m)
    else if at_.toNat < e.p then (errOrder, m)
    else
      let e := insHead e at_.toNat (if bs = [] then bytesBE k a else bs)
      (if headGrown e then errGrow else 0, { m with edit := e })
  | 2 =>
    if !nanoIn m at_ k then (errRange, m)
    else if at_.toNat < e.p then (errOrder, m)
    else (0, { m with edit := delHead e at_.toNat k })
  | _ => (0, m)

/-- The control field: the loop counter and the accumulator. -/
def nanoCtl (m : Micro) (n : Nat) : Micro :=
  let e := m.edit
  let e := if bit n 72 then { e with loop := (e.loop + 2 ^ 64 - 1) % 2 ^ 64 } else e
  { m with edit := if bit n 73 then { e with acc := 0 } else e }

/-- One nanoword (R369): the error code and the micro-state after it. Nanoword 0 has no effect. -/
def nanoStep (m : Micro) (n : Nat) : Nat × Micro :=
  if n = 0 then (0, m)
  else if nbits n 71 64 ≠ 0 then (errTrap, m)
  else
    let w := nanoAddr m n
    let wait := nbits n 125 122 = 1
    if wait ∧ w < m.edit.p then (errOrder, m)
    else if wait ∧ (m.edit.head.length : Int) < w then (errRange, m)
    else
      let m := if wait then { m with edit := { m.edit with p := w.toNat } } else m
      let ins := nbits n 85 84 = 1 ∧ nbits n 115 112 = 6
      let k := min 32 (nbits n 91 86)
      let d := (k + 3) / 4
      if ins ∧ !dataOk m.edit (m.data + d) then (errData, m)
      else
        let bs := if ins then
          (((List.range d).flatMap fun i => bytesBE 4 (dataWord m.edit (m.data + i))).take k) else []
        let (c1, a, m) := if ins then (0, 0, { m with data := m.data + d }) else nanoSrc m n w (nbits n 115 112)
        let (c2, b, m) := nanoSrc m n w (nbits n 111 108)
        if c1 ≠ 0 ∨ c2 ≠ 0 then (if c1 ≠ 0 then c1 else c2, m)
        else
          let (r, fl, acc) := nanoAlu (nbits n 121 116) a b m.edit.acc
          let m := { m with edit := { m.edit with alu := r, flags := fl, acc := acc } }
          let (c3, m) := nanoStore m n w r
          if c3 ≠ 0 then (c3, m)
          else
            let (c4, m) := nanoMove m n w a bs
            if c4 ≠ 0 then (c4, m) else (0, nanoCtl m n)

/-- A microword of a bank of the microstore. -/
def State.microword (s : State) (bank i : Nat) : Nat := (tabGet 0 (s.plane 16 bank).words (11 * 2 ^ 28 + i)).toNat % 2 ^ 18

/-- A nanoword of a bank of the nanostore: word 0 holds [143:108]. -/
def State.nanoword (s : State) (bank i : Nat) : Nat :=
  let w := fun k => (tabGet 0 (s.plane 16 bank).words (11 * 2 ^ 28 + 16384 + 4 * i + k)).toNat
  w 0 * 2 ^ 108 + w 1 * 2 ^ 72 + w 2 * 2 ^ 36 + w 3

/-- The number of a control-store word, by which a fenced one is kept (R381): space 0 microstore, 1 nanostore, 2 edit table; the bank; the
word; and for an edit-table word its scope. -/
def storeKey (space bank scope i : Nat) : Nat := ((space * 2 + bank % 2) * 32 + scope) * 2 ^ 18 + i

/-- A control-store word is fenced in a cluster. -/
def State.wordFenced (s : State) (cluster key : Nat) : Bool := s.rwFenced.contains (cluster, key)

/-- A routine of the owner from microword `i`, with `k` microwords executed; `fuel` bounds them at `instr_max` (R366, R371). -/
def State.runMicro (s : State) (cluster : Nat) (m : Micro) (i k : Nat) : Nat → Ran
  | 0 => { code := errLoop, addr := i, edit := m.edit }
  | fuel + 1 =>
    let bank := m.edit.bank
    let w := s.microword bank i
    let nn := bits w 15 4
    if s.wordFenced cluster (storeKey 0 bank 16 i) || s.wordFenced cluster (storeKey 1 bank 16 nn) then
      { code := errFenced, addr := i, edit := m.edit }
    else
      let n := s.nanoword bank nn
      let (c, m) := nanoStep m n
      if c ≠ 0 then { code := c, addr := i, trap := nbits n 71 64, edit := m.edit }
      else
        let next := nbits n 143 130
        match bits w 17 16 with
        | 0 => s.runMicro cluster m ((i + 1) % 16384) (k + 1) fuel
        | 2 => s.runMicro cluster m next (k + 1) fuel
        | 1 => s.runMicro cluster m (next ||| (nanoCond s m n &&& bits w 3 0)) (k + 1) fuel
        | _ => { edit := { m.edit with cycles := m.edit.cycles + k + 1, word := m.edit.word + 1 + m.data } }

/-- The routine of the current instruction from its entry on: microword *x* of a standard opcode, or one of the owner region (R371). -/
def State.runEntry (s : State) (cluster entry : Nat) (e : Edit) : Ran :=
  let w := editWord e
  s.runMicro cluster { edit := e, o := baseVal e (bits w 27 25) + bits w 24 17 } entry 0 (max 8 (s.fget F.RWE_CFG.instr_max))

/-- An owner opcode's routine: its entry lies in the owner region. -/
def State.runOwner (s : State) (cluster : Nat) (e : Edit) : Ran := s.runEntry cluster (8192 + (editOp e - 0x80)) e

/-- A microcode bank holds a standard library whole: loaded, with no word of its standard region written since (R371, R378). Word 150,000 of
RWCODE's words keeps it. DEDUCED, log entry 46. -/
def State.libraryIn (s : State) (bank : Nat) : Bool := tabGet 0 (s.plane 16 bank).words (11 * 2 ^ 28 + 150000) ≠ 0

/-- A standard instruction runs (R361, R371): the effect that `run` gives with a standard library in the latched bank, and what the bank's
microwords do otherwise. The library's routine reaches the words, and an error the microword, that the bank holds. DEDUCED, log entry 46. -/
def State.stdRan (s : State) (cluster : Nat) (e : Edit) (run : Nat → Edit → Ran) : Ran :=
  let lim := max 8 (s.fget F.RWE_CFG.instr_max)
  if usesBase e && baseAbsent e (bits (editWord e) 27 25) then run lim e
  else
    let own := s.runEntry cluster (editOp e) e
    if !s.libraryIn e.bank || own.code = errFenced then own
    else if editReserved e then { code := errReserved, edit := e }
    else { run lim e with addr := own.addr }

end Sys2Proof.Machine
end

