-- ==== Sys2Proof/Machine/Rewrite.lean ====
section
/-! DEFINITION. Rewrite clusters (chapter 11): dispatch to engines, edit programs, program errors, hand-over to the egress FIFO, engine
faults and drains, and the fenced words of the control store. -/

namespace Sys2Proof.Machine

/-! ## Engines -/

/-- An engine beside `RWE_ENG`. -/
def State.eng (s : State) (c e : Nat) : Engine := tabGet {} s.engines (c * 32 + e)

/-- Change an engine. -/
def State.modEng (s : State) (c e : Nat) (g : Engine → Engine) : State :=
  { s with engines := tabMod {} s.engines (c * 32 + e) g }

/-- The unit of an engine (R11). -/
def engUnit (c e : Nat) : Nat := 0x400 + 25 * c + e

/-- A counter of a cluster (R383). -/
def State.rweCount (s : State) (c i : Nat) (n : Nat := 1) : State := s.bump F.RWE_CNT.count c i n

/-- An engine takes new copies. -/
def State.engActive (s : State) (c e : Nat) : Bool := s.fget F.RWE_ENG.state c e = 0

/-! ## Dispatch (R354, R355) -/

/-- The engines of a cluster in rotation, after the one that was last chosen. -/
def engOrder (last : Nat) : List Nat := (List.range 25).map fun i => (last + 1 + i) % 25

/-- The engine that takes a class-7 copy. -/
def State.engine7 (s : State) (c : Nat) : Option Nat :=
  let l := engOrder (tabGet {} s.clusters c).rot7
  let fast := fun e => s.engActive c e && !s.flag F.RWE_ENG.slow c e
  (l.find? fun e => fast e && engineCopies (s.eng c e) = []).orElse fun _ =>
    l.find? fun e => fast e && (s.eng c e).stalledAt.isNone && (s.eng c e).wait7.isNone

/-- The engine that takes a copy of classes 0–6. -/
def State.engineG (s : State) (c : Nat) : Option Nat :=
  (engOrder (tabGet {} s.clusters c).rot).find? fun e =>
    s.engActive c e && (s.eng c e).wait.isNone && decide ((engineCopies (s.eng c e)).length < 2)

/-- Give a copy to an engine's slot. DEDUCED, log entry 49. -/
def State.toEngine (s : State) (c e : Nat) (x : Copy) : State :=
  let s := { s with clusters := tabMod {} s.clusters c fun (k : Cluster) => if x.qclass = 7 then { k with rot7 := e } else { k with rot := e } }
  s.modEng c e fun g => if x.qclass = 7 then { g with wait7 := some x } else { g with wait := some x }

/-- Take a copy out of a cluster's input. -/
def State.fromInput (s : State) (c : Nat) (x : Copy) : State :=
  { s with clusters := tabMod {} s.clusters c fun (k : Cluster) => { k with input := k.input.filter fun y => y.id ≠ x.id } }

/-- REWRITE_DISPATCH (R354): class-7 copies first, then the others, oldest first. -/
def execRewriteDispatch (cluster : Nat) (s : State) : Host.Outcome State Fault Refusal :=
  s.act fun s =>
    let input := (tabGet {} s.clusters cluster).input
    let try7 := match input.find? (fun x => x.qclass = 7), s.engine7 cluster with
      | some x, some e => some (x, e)
      | _, _ => none
    let tryG := match input.find? (fun x => x.qclass ≠ 7), s.engineG cluster with
      | some x, some e => some (x, e)
      | _, _ => none
    match try7.orElse fun _ => tryG with
    | some (x, e) => (s.fromInput cluster x).toEngine cluster e x
    | none => s

/-- CLASS7_REDISPATCH (R355): a class-7 copy behind a stalled copy moves to the engine that R354 chooses now. -/
def execClass7Redispatch (cluster engine : Nat) (s : State) : Host.Outcome State Fault Refusal :=
  s.act fun s =>
    let g := s.eng cluster engine
    match g.wait7, g.stalledAt with
    | some x, some _ =>
      match s.engine7 cluster with
      | some e => (s.modEng cluster engine fun g => { g with wait7 := none }).toEngine cluster e x
      | none => s
    | _, _ => s

/-! ## Boundaries (R379, R380, R382) -/

/-- A copy leaves the order in which copies enter its port's egress FIFO. -/
def State.unorder (s : State) (x : Copy) : State :=
  s.modPort x.port fun p => { p with order7 := p.order7.filter (· ≠ x.id), orderG := p.orderG.filter (· ≠ x.id) }

/-- A copy is dropped as EDIT_FAULT (R31, R366). -/
def State.editFault (s : State) (c : Nat) (x : Copy) : State :=
  let s := (s.unorder x).rweCount c 1
  (s.bump F.RWE_PCNT.count x.part 0).dropCopy x 8 2

/-- The stall of an engine ends: its cycles are counted (R365). -/
def State.endStall (s : State) (c e : Nat) : State :=
  match (s.eng c e).stalledAt with
  | some t => (s.rweCount c 3 (s.time.cycles - t)).modEng c e fun g => { g with stalledAt := none }
  | none => s

/-- The engine's running copy ends without being sent; its bytes in the egress FIFO are withdrawn. -/
def State.abortRun (s : State) (c e : Nat) : State :=
  match (s.eng c e).run with
  | some r => ((s.endStall c e).modEng c e fun g => { g with run := none }).editFault c r.copy
  | none => s

/-- The copies of an engine's slot are dispatched again, ahead of every other copy of their class (R380). -/
def State.returnSlot (s : State) (c e : Nat) : State :=
  let g := s.eng c e
  let back := g.wait7.toList ++ g.wait.toList
  let s := s.modEng c e fun g => { g with wait7 := none, wait := none }
  { s with clusters := tabMod {} s.clusters c fun (k : Cluster) => { k with input := back ++ k.input } }

/-- The spare of the engine's promotion joins the rotation, and the promotion ends; the cluster's macro follows (R540). -/
def State.engineSpare (s : State) (c e : Nat) : State :=
  match s.flt.promos.find? fun p => p.unit = engUnit c e with
  | some p => ((s.fset F.RWE_ENG.state c ((p.spare - 0x400) % 25) 0).finishPromo (engUnit c e)).clusterSafe c (engUnit c e)
  | none => s.clusterSafe c (engUnit c e)

/-- A draining engine that holds no copy goes to BENCH or FENCED (R382). -/
def State.drained (s : State) (c e : Nat) : State :=
  let g := s.eng c e
  if s.fget F.RWE_ENG.state c e = 2 ∧ engineCopies g = [] then
    let s := s.fset F.RWE_ENG.state c e (if g.due = 3 then 3 else 1)
    let s := if g.due = 3 then s.countFenced 2 (engUnit c e) else s
    (s.modEng c e fun g => { g with due := 0 }).engineSpare c e
  else s

/-- An edit-instruction boundary (R379): a fault or drain pending takes effect. DEDUCED, log entry 49. -/
def State.boundary (s : State) (c e : Nat) : State :=
  match (s.eng c e).due with
  | 0 => s
  | 1 =>
    let s := (s.abortRun c e).returnSlot c e
    let s := (s.fset F.RWE_ENG.state c e 3).modEng c e fun g => { g with due := 0 }
    s.engineSpare c e
  | _ => if s.fget F.RWE_ENG.state c e = 0 then (s.fset F.RWE_ENG.state c e 2).drained c e else s.drained c e

/-! ## Starting a copy (R363, R375) -/

/-- The scope whose plane holds an edit program (R375): the tenant whose edit range holds the index, else H. -/
def State.progScope (s : State) (tag i : Nat) : Nat :=
  ((List.range 16).find? fun p =>
    bit (s.partWordT tag p 0) 0 && (let w := s.partWordT tag p 25; decide (bits w 11 0 ≤ i ∧ i < bits w 11 0 + bits w 24 12))).getD 16

/-- The key of an edit-table word. -/
def progKey (scope bank i w : Nat) : Nat := storeKey 2 bank scope (16 * i + w)

/-- The program of an edit index under a plane tag; program 0 has no instructions (R359). -/
def State.program (s : State) (tag i : Nat) : List Nat :=
  if i = 0 then []
  else (List.range 16).map fun w => s.pword (s.progScope tag i) tag 11 (65536 + 16 * i + w)

/-- A word of a running program from one up to before another is fenced in the cluster: the program reaches it (R381). -/
def State.progFenced (s : State) (c : Nat) (r : Edit) (a b : Nat) : Bool :=
  let sc := s.progScope r.copy.tag r.copy.edit
  r.copy.edit ≠ 0 && (List.range (min 16 b - a)).any fun i => s.wordFenced c (progKey sc (s.bankOf sc r.copy.tag) r.copy.edit (a + i))

/-- The edit of a copy at its start: its head is the first min(256, *L* − 4) bytes (R353). -/
def State.startEdit (s : State) (x : Copy) : Edit :=
  let total := s.copyLen x
  let n := min 256 (total - 4)
  { copy := x, head := s.bufBytes x.handle 0 n, orig := n, total := total, l3 := x.l3, l4 := x.l4, l5 := x.l5,
    prog := s.program x.tag x.edit, bank := s.bankOf 16 x.tag }

/-- REWRITE_START (R363): an idle engine starts the copy of its slot, class 7 first. A boundary comes first. -/
def execRewriteStart (cluster engine : Nat) (s : State) : Host.Outcome State Fault Refusal :=
  s.act fun s =>
    if (s.eng cluster engine).run.isSome then s
    else
      let s := if (s.eng cluster engine).due = 1 then s.boundary cluster engine else s
      let g := s.eng cluster engine
      match g.wait7.orElse fun _ => g.wait with
      | none => s.boundary cluster engine
      | some x =>
        let s := s.modEng cluster engine fun g => if g.wait7.isSome then { g with wait7 := none } else { g with wait := none }
        let x := { x with tEng := some s.time.now, engine := engUnit cluster engine }
        (s.modEng cluster engine fun g => { g with run := some (s.startEdit x) }).boundary cluster engine

/-! ## Running instructions -/

/-- A program error (R366, R384): the copy is dropped, the registers tell where, and an RWE_PROG record is written. -/
def State.programError (s : State) (c e : Nat) (r : Edit) (code addr trap : Nat) : State :=
  let s := (s.rweCount c 2).fset F.RWE_ERR.prog_err c 0 1
  let w := min 15 r.word
  let s := s.wr .RWE_ERR_LAST c 0 (BitVec.ofNat 72 (code * 2 ^ 32 + engUnit c e * 2 ^ 20 + r.copy.edit * 2 ^ 8 + w * 2 ^ 4))
  let s := s.emitBoth r.copy.part clsFault
    { code := 0x60, unit := engUnit c e, stamp := s.stamp, p3 := code + w * 2 ^ 4 + r.copy.edit * 2 ^ 8 + c * 2 ^ 20,
      p4 := addr + trap * 2 ^ 14 }
  s.abortRun c e

/-- The bytes of edited heads that a part of a port's egress FIFO holds, and its size. -/
def State.fifoUsed (s : State) (port c : Nat) : Nat × Nat :=
  let p := s.port port
  if c = 7 then ((p.fifo7.map fun t => t.head.length).sum, 1024) else ((p.fifoG.map fun t => t.head.length).sum, 2048 * s.portLanes port)

/-- The copy is the next of its part of the egress FIFO (R356). -/
def State.fifoNext (s : State) (r : Edit) : Bool :=
  let p := s.port r.copy.port
  (if r.copy.qclass = 7 then p.order7.head? else p.orderG.head?) = some r.copy.id

/-- The bytes of an edited head that are in the egress FIFO once those below `p` pass: as many as its part takes, when it is the copy's turn
(R364). -/
def State.drains (s : State) (r : Edit) (p : Nat) : Nat :=
  let (used, size) := s.fifoUsed r.copy.port r.copy.qclass
  if s.fifoNext r then max r.drained (min p (size - used)) else r.drained

/-- The mover stalls before position `p`: the output FIFO of 128 bytes is full (R364, R365). -/
def State.moverStalls (s : State) (r : Edit) (p : Nat) : Bool := decide (s.drains r p + 128 < p)

/-- The cycles that a microword waiting on the mover holds beyond its own, as the bytes from `p` to `q` pass 32 a cycle (R364, R371).
DEDUCED, log entry 49. -/
def heldCycles (p q : Nat) : Nat := (q - p + 31) / 32 - 1

/-- What a routine's run leaves: the edit goes on, an error drops the copy, a fenced word drops it without an error (R381). -/
def State.afterRoutine (s : State) (c e : Nat) (old : Edit) (r : Ran) : State :=
  let s :=
    if r.code = 0 then
      let a := r.edit.head.length
      let b := old.head.length
      (((s.rweCount c 3 (heldCycles old.p r.edit.p)).rweCount c 5 (a - b)).rweCount c 6 (b - a)).modEng c e fun g => { g with run := some r.edit }
    else if r.code = errFenced then s.abortRun c e
    else if r.code = errReserved then s.nextFree.nextFree.programError c e old (s.freeNat 4) (s.nextFree.freeNat 14) 0
    else s.programError c e old r.code r.addr r.trap
  s.boundary c e

/-- The current instruction of a running copy has run: first the bytes below its offset pass, and where the output FIFO has no room for them the
engine stalls and the instruction waits (R365). DEDUCED, log entry 49. -/
def State.runRoutine (s : State) (c e : Nat) (r : Edit) (ran : Ran) : State :=
  let p := ran.edit.p
  let d := s.drains r p
  if s.progFenced c r r.word (max (r.word + 1) ran.edit.word) then (s.abortRun c e).boundary c e
  else if s.moverStalls r p then
    s.modEng c e fun g => { g with run := some { r with drained := d, waits := p }, stalledAt := some s.time.cycles }
  else s.afterRoutine c e r { ran with edit := { ran.edit with drained := d } }

/-- A standard edit instruction runs on an engine whose current word has its opcode (R361). DEDUCED, log entry 48. -/
def State.editStep (s : State) (c e op : Nat) (run : Nat → Edit → Ran) : Host.Outcome State Fault Refusal :=
  s.act fun s => match (s.eng c e).run with
    | none => s
    | some r =>
      if r.ended ∨ editOp r ≠ op ∨ (s.eng c e).stalledAt.isSome then s
      else s.runRoutine c e r (s.stdRan c r run)

def execEditInsert (cluster engine : Nat) (s : State) : Host.Outcome State Fault Refusal := s.editStep cluster engine 0x01 runInsert
def execEditDelete (cluster engine : Nat) (s : State) : Host.Outcome State Fault Refusal := s.editStep cluster engine 0x02 runDelete
def execEditReplace (cluster engine : Nat) (s : State) : Host.Outcome State Fault Refusal := s.editStep cluster engine 0x03 runReplace
def execEditSet (cluster engine : Nat) (s : State) : Host.Outcome State Fault Refusal := s.editStep cluster engine 0x04 runSet
def execEditCopy (cluster engine : Nat) (s : State) : Host.Outcome State Fault Refusal := s.editStep cluster engine 0x05 runCopy
def execEditCsum (cluster engine : Nat) (s : State) : Host.Outcome State Fault Refusal := s.editStep cluster engine 0x06 runCsum
def execEditTtl (cluster engine : Nat) (s : State) : Host.Outcome State Fault Refusal := s.editStep cluster engine 0x07 runTtl
def execEditPushTag (cluster engine : Nat) (s : State) : Host.Outcome State Fault Refusal := s.editStep cluster engine 0x08 runPushTag
def execEditPopTag (cluster engine : Nat) (s : State) : Host.Outcome State Fault Refusal := s.editStep cluster engine 0x09 runPopTag
def execEditSetPcp (cluster engine : Nat) (s : State) : Host.Outcome State Fault Refusal := s.editStep cluster engine 0x0A runSetPcp
def execEditSetDscp (cluster engine : Nat) (s : State) : Host.Outcome State Fault Refusal := s.editStep cluster engine 0x0B runSetDscp
def execEditPtpCf (cluster engine : Nat) (s : State) : Host.Outcome State Fault Refusal := s.editStep cluster engine 0x0C runPtpCf
def execEditPtpTs (cluster engine : Nat) (s : State) : Host.Outcome State Fault Refusal := s.editStep cluster engine 0x0D runPtpTs
def execEditNop (cluster engine : Nat) (s : State) : Host.Outcome State Fault Refusal := s.editStep cluster engine 0x0E runNop

/-- OWNER_OPCODE (R362, R371): an opcode of 0x80 and above runs the owner's routine. -/
def execOwnerOpcode (cluster engine : Nat) (s : State) : Host.Outcome State Fault Refusal :=
  s.act fun s =>
    match (s.eng cluster engine).run with
    | none => s
    | some r =>
      if r.ended ∨ editOp r < 0x80 ∨ (s.eng cluster engine).stalledAt.isSome then s
      else s.runRoutine cluster engine r (s.runOwner cluster r)

/-! ## The end of a program (R356, R367) -/

/-- The copy is the next of its part, and the part has room for its head. -/
def State.mayEnter (s : State) (r : Edit) : Bool := s.fifoNext r && decide (s.drains r r.head.length = r.head.length)

/-- The engine hands a copy to the egress FIFO and is free. -/
def State.handOver (s : State) (c e : Nat) (r : Edit) : State :=
  let x := r.copy
  let t : TxCopy := { copy := x, head := r.head, orig := r.orig, mac := r.mac }
  let s := s.unorder x
  let s := s.modPort x.port fun p => if x.qclass = 7 then { p with fifo7 := p.fifo7 ++ [t] } else { p with fifoG := p.fifoG ++ [t] }
  let s := (s.endStall c e).modEng c e fun g => { g with run := none }
  (s.boundary c e).drained c e

/-- EDIT_END (R361, R367): END ends the program, a boundary (R379). The change of length is charged to the copy's shapers (R336); the head
enters the egress FIFO, or the engine holds it and stalls (R365). A reserved opcode, which the loader refuses (R362), is a program error. -/
def execEditEnd (cluster engine : Nat) (s : State) : Host.Outcome State Fault Refusal :=
  s.act fun s => match (s.eng cluster engine).run with
    | none => s
    | some r =>
      if r.ended ∨ (s.eng cluster engine).stalledAt.isSome then s
      else if s.progFenced cluster r r.word (r.word + 1) then (s.abortRun cluster engine).boundary cluster engine
      else if 0x0F ≤ editOp r ∧ editOp r < 0x80 then s.afterRoutine cluster engine r { code := errReserved, edit := r }
      else if editOp r ≠ 0 then s
      else if (s.eng cluster engine).due = 1 then s.boundary cluster engine
      else
        let h := r.head.length
        let s := (s.rweCount cluster 0).rweCount cluster 4 (max (4 + r.cycles) (3 + (h + 31) / 32))
        let s := s.shCopy r.copy ((h : Int) - r.orig)
        let r := { r with ended := true, drained := s.drains r h, waits := h }
        let s := s.modEng cluster engine fun g => { g with run := some r }
        if s.mayEnter r then s.handOver cluster engine r
        else (s.modEng cluster engine fun g => { g with stalledAt := some s.time.cycles }).boundary cluster engine

/-- MOVER_STALL_END (R365): a stalled engine goes on when its output FIFO has room: the copy enters its part of the egress FIFO at the end of its
program, and runs on within it. -/
def execMoverStallEnd (cluster engine : Nat) (s : State) : Host.Outcome State Fault Refusal :=
  s.act fun s => match (s.eng cluster engine).run with
    | none => s
    | some r =>
      if r.ended then (if s.mayEnter r then s.handOver cluster engine r else s)
      else if (s.eng cluster engine).stalledAt.isSome ∧ !s.moverStalls r r.waits then
        (s.endStall cluster engine).modEng cluster engine fun g => { g with run := some { r with drained := s.drains r r.waits } }
      else s

/-- STALL_MAX_EXPIRY (R379): a stall of `stall_max` µs with a fault or drain pending counts as a boundary. -/
def execStallMaxExpiry (cluster engine : Nat) (s : State) : Host.Outcome State Fault Refusal :=
  s.act fun s => if (s.eng cluster engine).stalledAt.isSome then s.boundary cluster engine else s

/-! ## Faults (R357, R380, R381) -/

/-- A worn engine whose promotion has stopped goes on in service. -/
def State.undrain (s : State) (p : Promo) : State :=
  let c := (p.unit - 0x400) / 25
  let e := (p.unit - 0x400) % 25
  if p.reason = 2 then s
  else
    let s := s.modEng c e fun g => { g with due := 0 }
    if s.fget F.RWE_ENG.state c e = 2 then s.fset F.RWE_ENG.state c e 0 else s

/-- A logic fault of an engine. -/
def State.engineFault (s : State) (cluster engine : Nat) : State :=
  if s.fget F.RWE_ENG.state cluster engine = 3 then s
  else
    let edit := match (s.eng cluster engine).run with | some r => r.copy.edit | none => 0
    let word := match (s.eng cluster engine).run with | some r => min 15 r.word | none => 0
    let s := s.fset F.RWE_ERR.engine cluster 0 1
    let s := s.wr .RWE_ERR_LAST cluster 0
      (BitVec.ofNat 72 (8 * 2 ^ 32 + engUnit cluster engine * 2 ^ 20 + edit * 2 ^ 8 + word * 2 ^ 4))
    let u := engUnit cluster engine
    if s.fget F.RWE_ENG.state cluster engine = 1 then 
      ((s.fencePromote 10 u 2 edit 0).fset F.RWE_ENG.state cluster engine 3).spareLost 2 u fun s p => s.undrain p
    else
      let s := if (s.eng cluster engine).run.isNone then (s.returnSlot cluster engine).fset F.RWE_ENG.state cluster engine 3 else s
      let s := s.fencePromote 10 u 2 edit 0
      if (s.eng cluster engine).run.isSome then s.modEng cluster engine fun g => { g with due := 1 } else s.clusterSafe cluster u

/-- ENGINE_LOGIC_FAULT (R380): a FENCING fault (cause 10) against the engine, which is fenced at its next boundary; an engine without a copy
is at one. -/
def execEngineLogicFault (cluster engine : Nat) (s : State) : Host.Outcome State Fault Refusal := s.act fun s => s.engineFault cluster engine

/-- An uncorrectable control-store word found by an engine (R381): a FENCING fault (cause 11), the engine's copy dropped, and the word fenced in
the cluster until it is repaired. The detail word 4 of cause 11 has the layout of `RWE_IND_ADDR`. -/
def State.storeUncorr (s : State) (c e key : Nat) : State :=
  let r := (s.eng c e).run
  let edit := match r with | some r => r.copy.edit | none => 0
  let word := match r with | some r => min 15 r.word | none => 0
  let s := s.fset F.RWE_ERR.store_uncorr c 0 1
  let s := s.wr .RWE_ERR_LAST c 0 (BitVec.ofNat 72 (7 * 2 ^ 32 + engUnit c e * 2 ^ 20 + edit * 2 ^ 8 + word * 2 ^ 4))
  let s := { s with rwFenced := if s.rwFenced.contains (c, key) then s.rwFenced else s.rwFenced ++ [(c, key)] }
  let space := key / 2 ^ 24
  let i := key % 2 ^ 18
  let d4 := match space with
    | 0 => i * 2 ^ 14
    | 1 => 2 ^ 34 + i * 2 ^ 14
    | _ => 2 ^ 35 + i / 16 * 2 ^ 14 + i % 16
  (s.fencing 11 (engUnit c e) d4 (key / 2 ^ 23 % 2) 16 true).abortRun c e

/-- CONTROL_STORE_REPAIR_DONE (R381): the word is copied from another cluster that reads it; with none it stays fenced everywhere. -/
def execControlStoreRepairDone (cluster space bank scope word : Nat) (s : State) : Host.Outcome State Fault Refusal :=
  s.act fun s =>
    let key := storeKey space bank scope word
    if !s.wordFenced cluster key then s
    else
      let good := (List.range 32).any fun c => c ≠ cluster && !s.wordFenced c key
      let s := if good then { s with rwFenced := s.rwFenced.filter (· ≠ (cluster, key)) } else s
      (List.range 25).foldl (fun s e => s.endReaction (engUnit cluster e)) s

/-- While an engine is slow, an ADVISORY of cause 12 recommends its promotion, once per minute. -/
def State.engineSlow (s : State) (cluster engine : Nat) : State :=
  if s.flag F.RWE_ENG.slow cluster engine ∧ s.fget F.RWE_ENG.state cluster engine = 0 then
    s.tellSlow (engUnit cluster engine) fun s => s.wearAdvisory 12 (engUnit cluster engine) 2 (s.fget F.RWE_ENG.freq cluster engine) 0
      (s.fget F.RWE_ENG.freq cluster engine)
  else s

/-- The `slow` flag of an engine follows its clock fraction and `slow_freq` (R357). -/
def State.refreshSlow (s : State) (c e : Nat) : State :=
  let slow := decide (s.fget F.RWE_ENG.freq c e < s.fget F.RWE_CFG.slow_freq)
  if slow = s.flag F.RWE_ENG.slow c e then s else (s.fset F.RWE_ENG.slow c e (if slow then 1 else 0)).engineSlow c e

/-- A write of `RWE_CFG` re-evaluates the engines: those whose register is not at its reset value, 16 sixteenths and not slow. -/
def State.refreshSlows (s : State) : State :=
  (s.regs.filter fun e => e.1 / 2 ^ 32 = Reg.RWE_ENG.ctorIdx).foldl
    (fun s e => s.refreshSlow (e.1 / 2 ^ 16 % 2 ^ 16) (e.1 % 2 ^ 16)) s

/-- ENGINE_SLOW_ADVISORY (R357): once a minute. -/
def execEngineSlowAdvisory (cluster engine : Nat) (s : State) : Host.Outcome State Fault Refusal := s.act fun s => s.engineSlow cluster engine

/-! ## Latched banks (R376, R377) -/

/-- The first cluster, and its engine, that holds latched a bank of a control-store space; for the edit table of a scope, one whose copy
runs a program of it. -/
def State.latchedBy (s : State) (space scope bank : Nat) : Option (Nat × Nat) :=
  (s.engines.find? fun e => match e.2.run with
    | some r =>
      if space < 2 then decide (r.bank = bank)
      else decide (r.copy.edit ≠ 0 ∧ s.progScope r.copy.tag r.copy.edit = scope ∧ s.bankOf scope r.copy.tag = bank)
    | none => false).map fun e => (e.1 / 32, e.1 % 32)

/-- A write into a latched bank is refused: what every writer's refusal leaves (R377). -/
def State.activeWrite (s : State) (c e : Nat) : State :=
  let (edit, word) := match (s.eng c e).run with | some r => (r.copy.edit, min 15 r.word) | none => (0, 0)
  let s := (s.fset F.RWE_ERR.active_write c 0 1).rweCount c 7
  s.wr .RWE_ERR_LAST c 0 (BitVec.ofNat 72 (9 * 2 ^ 32 + engUnit c e * 2 ^ 20 + edit * 2 ^ 8 + word * 2 ^ 4))

end Sys2Proof.Machine
end

