-- ==== Sys2Proof/Machine/Addr.lean ====
section
/-! DEFINITION. Where registers stand in BAR0: the slot that an address names, the copies of select registers' instances and of partitions,
and the scopes that govern RWL registers (R40, R49, R76, R87, R88, R93). -/

namespace Sys2Proof.Machine

/-- Every register of the map. -/
def Reg.all : List Reg := Reg.blocks.flatten

/-- The element of a register that a slot holds, and whether the slot is its high word (R82). -/
def Place.slot (pl : Place) (a : Nat) : Option (Nat × Bool) :=
  if a < pl.addr then none
  else
    let d := a - pl.addr
    let i := if pl.stride = 0 then 0 else d / pl.stride
    let o := if pl.stride = 0 then d else d % pl.stride
    if pl.count ≤ i then none
    else if o = 0 then some (i, false)
    else if o = 8 ∧ pl.wide then some (i, true)
    else none

/-- The register, element and half at a slot's listed address. -/
def regAt (a : Nat) : Option (Reg × Nat × Bool) :=
  Reg.all.findSome? fun r => (r.place.slot a).map fun e => (r, e.1, e.2)

/-- The blocks in the order of R76 whose registers have partition copies beside their listed addresses. -/
def windowBases : List Nat :=
  [0x0800000, 0x0C00000, 0x1400000, 0x1500000, 0x1800000, 0x2200000, 0x2400000, 0x2800000]

/-- The register that the window of a block's partition copies names, with the partition. -/
def windowAt (a : Nat) : Option (Reg × Nat × Nat × Bool) :=
  windowBases.findSome? fun b =>
    if a < b + 0x10000 ∨ b + 0x18000 ≤ a then none
    else (List.range 17).findSome? fun p =>
      if a < b + 0x10000 + 0x400 * p then none
      else match regAt (b + (a - b - 0x10000 - 0x400 * p)) with
        | some (r, i, h) => if r.place.home = Home.partition then some (r, p, i, h) else none
        | none => none

/-- The block of a slot, by its number in `GLB_BRESET`; blocks without one have a number of their own: 20 `GLB`, 21 the `AON` mirror, 22 the
CMEM window, 23 none. -/
def blockOf (a : Nat) : Nat :=
  if a < 0x0100000 then 20
  else if a < 0x0180000 then 0
  else if a < 0x01C0000 then 21
  else if a < 0x0400000 then 1
  else if a < 0x0800000 then 2
  else if a < 0x0A00000 then 3
  else if a < 0x0C00000 then 4
  else if a < 0x1000000 then 5
  else if a < 0x1400000 then 6
  else if a < 0x1500000 then 7
  else if a < 0x1800000 then 8
  else if a < 0x1C00000 then 9
  else if a < 0x2000000 then 10
  else if a < 0x2200000 then 11
  else if a < 0x2400000 then 12
  else if a < 0x2800000 then 13
  else if a < 0x2A00000 then 14
  else if a < 0x2B00000 then 15
  else if a < 0x2C00000 then 16
  else if a < 0x2E00000 then 17
  else if a < 0x2F00000 then 18
  else if a < 0x3000000 then 19
  else if a < 0x4000000 then 22
  else 23

/-- The select register of instance registers (R88). -/
def Home.sel : Home → Option Reg
  | .macPort => some .MAC_SEL
  | .sliceGroup => some .SPR_SEL
  | .searchBank => some .TCM_SEL
  | .hbmStack => some .HBC_SEL
  | .schPort => some .SCH_SEL
  | .schSet => some .SCH_SEL
  | .gtePort => some .GTE_SEL
  | .cluster => some .RWE_SEL
  | .thread => some .CCX_SEL
  | .position => some .CCX_SEL
  | .channel => some .DMA_SEL
  | .cipherLane => some .CPH_SEL
  | .counterBank => some .CNT_SEL
  | _ => none

/-- The index is in the range of the select register (R88); the banks of `CNT_SEL` stand with them. -/
def selRange (r : Reg) (n : Nat) : Bool :=
  match r with
  | .MAC_SEL => decide (n < 256)
  | .SPR_SEL => decide (n < 4)
  | .TCM_SEL => decide (n < 256 ∧ n % 64 < 34)
  | .HBC_SEL => decide (n < 4)
  | .SCH_SEL => decide (n < 256)
  | .GTE_SEL => decide (n < 256)
  | .RWE_SEL => decide (n < 32)
  | .CCX_SEL => decide (n < 144)
  | .DMA_SEL => decide (n < 80)
  | .CPH_SEL => decide (n < 8)
  | _ => true

/-- The copy of an instance register that an index selects; the set and class registers of `SCH` take the queue set too. -/
def instCopy (r : Reg) (n set : Nat) : Nat :=
  match r.place.home with
  | .schSet => n * 16 + set
  | .position => n / 8
  | .searchBank => if r = .TCM_BANK_CFG then n % 64 else n
  | _ => n

/-! ## RWL registers (R40) -/

/-- The register has the code RWL. -/
def isRwl (r : Reg) : Bool := r.fields.any fun f => f.acc = .rwl

/-- An `_IND_DATA` register shows words of a section, each with a scope of its own. -/
def isInd (r : Reg) : Bool := r = .PRS_IND_DATA || r = .TCM_IND_DATA || r = .GTE_IND_DATA || r = .RWE_IND_DATA

/-- The holder of a port in a bank of scope H: the tenant holding it exclusively, else H. `part` gives the words of PARTITION. -/
def portHolderIn (part : Nat → Nat) (port : Nat) : Nat :=
  ((List.range 16).find? fun p => bit (part (28 * p)) 0 && bit (part (28 * p + 1 + port / 32)) (port % 32)).getD 16

/-- The partition that holds a queue set of a port: the exclusive holder of the port, else H for the port's `owner_set`, else the tenant that
shares the port (R13, R328). -/
def setHolderIn (part : Nat → Nat) (ownerSet : Nat → Nat) (port set : Nat) : Nat :=
  let h := portHolderIn part port
  if h < 16 then h
  else if set = ownerSet port then 16
  else if set < 16 ∧ bit (part (28 * set)) 0 ∧ bit (part (28 * set + 9 + port / 32)) (port % 32) then set
  else 16

/-- The tenant that owns a search bank, else H. -/
def bankOwnerIn (part : Nat → Nat) (b : Nat) : Nat :=
  ((List.range 16).find? fun p => bit (part (28 * p)) 0 && bit (part (28 * p + 20)) b).getD 16

/-- The scope that governs a copy of an RWL register (R49, R246, R328, R339). -/
def rwlScopeIn (part : Nat → Nat) (ownerSet : Nat → Nat) (r : Reg) (c : Nat) : Nat :=
  match r with
  | .SCH_CLS_CFG | .SCH_CLS_BURST => setHolderIn part ownerSet (c / 16) (c % 16)
  | .GTE_CTL | .GTE_BASE | .GTE_CYCLE | .GTE_IND_DATA => portHolderIn part c
  | .TCM_BANK_CFG => bankOwnerIn part c
  | _ => 16

/-- The governing scope under the ACTIVE PARTITION and PORTMAP. -/
def State.rwlScope (s : State) (r : Reg) (c : Nat) : Nat :=
  rwlScopeIn (fun w => s.pword 16 s.tagNow 2 w) (fun n => bits (s.pword 16 s.tagNow 1 (128 + 8 * n + 1)) 6 3) r c

/-- The bits of an RWL register that no field names (R49). -/
def rwlReserved (r : Reg) : Nat :=
  let m := fun hi lo => 2 ^ (hi + 1) - 2 ^ lo
  match r with
  | .SPR_LIMIT => m 35 12
  | .SCH_PORT => m 21 21
  | .SCH_PORT_BURST => m 35 20
  | .SCH_SET_CFG => m 27 21
  | .SCH_SET_BURST => m 35 20
  | .SCH_QPROF_HI => m 35 12
  | .SCH_CLS_CFG => m 27 21
  | .SCH_CLS_BURST => m 35 20
  | .SCH_PROF_LIMIT => m 35 32
  | .SCH_PROF_RED => m 33 20
  | .GTE_CTL => m 34 9
  | .GTE_CYCLE => m 35 30
  | .CCX_T_QSHARE => m 35 32
  | .CCX_T_BSHARE => m 35 32
  | .CCX_P_QSHARE => m 35 32
  | .CCX_P_BSHARE => m 35 20
  | .FLT_POLICY => m 35 8
  | .TCM_BANK_CFG => m 35 35 + m 20 20 + m 9 0
  | _ => 0

/-- The writable bits of a register: those of its RW, RWL and WO fields. -/
def rwMask (r : Reg) : RegVal :=
  r.fields.foldl (fun a f => match f.acc with
    | .rw | .rwl => a ||| fldMask f.hi f.lo
    | _ => a) 0

/-- Bits written as one clear (R9). -/
def w1cMask (r : Reg) : RegVal :=
  r.fields.foldl (fun a f => match f.acc with
    | .w1c => a ||| fldMask f.hi f.lo
    | _ => a) 0

/-- Bits that a read clears (R9, R83). -/
def rcMask (r : Reg) : RegVal :=
  r.fields.foldl (fun a f => match f.acc with
    | .rc => a ||| fldMask f.hi f.lo
    | _ => a) 0

/-- Bits that read zero whatever was written (R9). -/
def woMask (r : Reg) : RegVal :=
  r.fields.foldl (fun a f => match f.acc with
    | .wo => a ||| fldMask f.hi f.lo
    | _ => a) 0

/-- A value written over an old one: RW and RWL bits take the new value, W1C bits clear, the rest stay. -/
def maskWrite (r : Reg) (old v : RegVal) : RegVal :=
  (old &&& ~~~(rwMask r) &&& ~~~(v &&& w1cMask r)) ||| (v &&& rwMask r)

end Sys2Proof.Machine
end

