-- ==== Sys2Proof/Machine/Sections.lean ====
section
/-! DEFINITION. The content limits of the sections of a structure image (R44, R49, R100, R101, R111–R115, R128, R174, R180, R192, R238, R266–R268,
R289, R300, R326, R347, R378, R545, R550): what the loader refuses as BAD_PAYLOAD. A payload stands here as its list of words. -/

namespace Sys2Proof.Machine

/-- Word `i` of a payload. -/
def pw (ws : List Nat) (i : Nat) : Nat := ws.getD i 0

/-- Bits [hi:lo] of a word are zero. -/
def zeroBits (w hi lo : Nat) : Bool := bits w hi lo = 0

/-- No two of a list of numbers are equal. -/
def noDup : List Nat → Bool
  | [] => true
  | a :: l => !l.contains a && noDup l

/-- Two ranges of (first, length) overlap. -/
def rangesMeet (a b : Nat × Nat) : Bool := decide (a.1 < b.1 + b.2 ∧ b.1 < a.1 + a.2)

/-- No two ranges of a list overlap. -/
def noOverlap : List (Nat × Nat) → Bool
  | [] => true
  | a :: l => !(l.any (rangesMeet a)) && noOverlap l

/-- The words that section checks take from the PARTITION, PORTMAP and POOLS of the same image or, when the image has none, of scope H's
ACTIVE bank: by section type and index. -/
abbrev SecWords := Nat → Nat → Nat

/-- The partition's record is enabled; record 16 always is. -/
def recOn (part : Nat → Nat) (p : Nat) : Bool := p = 16 || bit (part (28 * p)) 0

/-- A record sets a port in `excl_ports`. -/
def recExcl (part : Nat → Nat) (p port : Nat) : Bool := bit (part (28 * p + 1 + port / 32)) (port % 32)

/-- A record sets a port in `shared_ports`. -/
def recShared (part : Nat → Nat) (p port : Nat) : Bool := bit (part (28 * p + 9 + port / 32)) (port % 32)

/-- The sum over the enabled records of a number taken from each. -/
def sumOn (part : Nat → Nat) (f : Nat → Nat) : Nat := (((List.range 17).filter (recOn part)).map f).sum

/-! ## PORTMAP (R111–R115) -/

/-- The speed on a number of lanes is a row of R110, in the family that runs it (R109). -/
def speedRow (speed lanes family : Nat) : Bool :=
  match speed with
  | 0 | 1 => lanes = 1 && family = 0
  | 2 => lanes = 1 && family = 1
  | 3 => lanes = 1 && family = 2
  | 4 => lanes = 1 && family = 3
  | 5 => (lanes = 4 && family = 2) || (lanes = 2 && family = 3)
  | 6 => (lanes = 8 && family = 2) || (lanes = 4 && family = 3)
  | 7 => lanes = 8 && family = 3
  | _ => false

/-- The FEC choice is allowed for the speed (R110). -/
def fecOk (speed fec : Nat) : Bool :=
  match speed with
  | 0 => decide (fec ≤ 1)
  | 1 => decide (fec ≤ 2)
  | _ => fec = 3

/-- A lane map names every physical lane once (R112). -/
def laneMapOk (w : Nat) : Bool := (List.range 8).all fun l => (List.range 8).any fun i => bits w (3 * i + 2) (3 * i) = l

/-- A macro record (R112). -/
def macroOk (ws : List Nat) (m : Nat) : Bool :=
  let w := fun k => pw ws (4 * m + k)
  decide (bits (w 0) 2 0 < 4) && zeroBits (w 0) 35 19 && zeroBits (w 1) 35 24 && zeroBits (w 2) 35 24 && w 3 = 0 &&
    laneMapOk (w 1) && laneMapOk (w 2)

/-- The fields of a valid port record on their own (R111, R113, R115). DEDUCED, log entry 28. -/
def portFieldsOk (ws : List Nat) (n : Nat) : Bool :=
  let w := fun k => pw ws (128 + 8 * n + k)
  let lanes := bits (w 0) 3 0
  let speed := bits (w 0) 7 4
  let media := bits (w 0) 12 11
  let anlt := bit (w 0) 13 || bit (w 0) 14
  zeroBits (w 0) 34 27 && zeroBits (w 1) 35 32 && zeroBits (w 1) 7 7 && zeroBits (w 6) 35 16 && w 7 = 0 &&
    decide (media < 3) && decide (lanes ∈ [1, 2, 4, 8]) && n % lanes = 0 &&
    speedRow speed lanes (bits (pw ws (4 * (n / 8))) 2 0) && fecOk speed (bits (w 0) 10 8) &&
    !(anlt && (media = 2 || (speed = 0 && media = 1))) && !(bit (w 0) 15 && decide (1 < speed)) &&
    decide (1518 ≤ bits (w 6) 13 0 ∧ bits (w 6) 13 0 ≤ 10240) &&
    (List.range (lanes - 1)).all fun k => !bit (pw ws (128 + 8 * (n + k + 1))) 35

/-- A valid port on a module (R115). -/
def isModule (ws : List Nat) (n : Nat) : Bool :=
  let w := pw ws (128 + 8 * n)
  bit w 35 && (bits w 12 11 = 1 || bits w 12 11 = 2)

/-- PORTMAP's checks. -/
def portmapOk (sw : SecWords) (ws : List Nat) : Bool :=
  let ports := List.range 256
  let valid := ports.filter fun n => bit (pw ws (128 + 8 * n)) 35
  let mods := ports.filter (isModule ws)
  decide (ws.length = 2176) && (List.range 32).all (macroOk ws) &&
    ports.all (fun n => bit (pw ws (128 + 8 * n)) 35 || (List.range 8).all fun k => pw ws (128 + 8 * n + k) = 0) &&
    valid.all (portFieldsOk ws) &&
    noDup (mods.map fun n => bits (pw ws (128 + 8 * n)) 25 18) &&
    mods.all (fun n => !bit (pw ws (128 + 8 * n)) 26 ||
      mods.all fun m => m = n || bits (pw ws (128 + 8 * m)) 19 18 ≠ bits (pw ws (128 + 8 * n)) 19 18) &&
    valid.all fun n => (List.range 16).all fun t =>
      !(recOn (sw 2) t && recShared (sw 2) t n && bits (pw ws (128 + 8 * n + 1)) 6 3 = t)

/-! ## PARTITION (R100, R101) and POOLS (R266–R268, R300) -/

/-- The bits that R100 leaves unused in word `w` of a record. -/
def partUnused (w v : Nat) : Bool :=
  if w = 0 then zeroBits v 35 21 && zeroBits v 15 1
  else if w ≤ 16 then zeroBits v 35 32
  else match w with
    | 17 | 18 => zeroBits v 35 20
    | 19 => zeroBits v 35 21
    | 20 => zeroBits v 35 32
    | 21 => zeroBits v 35 22
    | 22 => zeroBits v 35 33
    | 23 => zeroBits v 35 24
    | 24 => zeroBits v 35 34
    | 25 => zeroBits v 35 25
    | 26 => zeroBits v 35 19
    | _ => v = 0

/-- The ranges of the enabled records in word `w`, base in [bh:0] and count above it up to `ch`, lie below `lim` and do not overlap. -/
def rangesOk (part : Nat → Nat) (w bl bh cl ch lim : Nat) : Bool :=
  let rs := ((List.range 17).filter (recOn part)).map fun p => (bits (part (28 * p + w)) bh bl, bits (part (28 * p + w)) ch cl)
  let used := rs.filter fun r => r.2 ≠ 0
  used.all (fun r => decide (r.1 + r.2 ≤ lim)) && noOverlap used

/-- Checks 3, 5 and 6 of R267 of a POOLS against a PARTITION. -/
def poolsFit (part pools : Nat → Nat) : Bool :=
  let packet := ((List.range 4).map fun p => bits (pools (2 * p)) 19 0 * poolCharge p).sum
  let soft := (List.range 12).filter fun k => bit (pools (12 + 4 * k)) 35
  let deep := fun k => bit (pools (12 + 4 * k)) 34
  let owner := fun k => bits (pools (12 + 4 * k)) 20 16
  let bytes := fun k => bits (pools (14 + 4 * k)) 31 0 * bits (pools (13 + 4 * k)) 16 0
  let place := fun k => (pools (15 + 4 * k), bytes k)
  let cm := soft.filter fun k => !deep k
  let dp := soft.filter deep
  decide (bits (pools 8) 19 0 + bits (pools 9) 19 0 + sumOn part (fun p => bits (part (28 * p + 17)) 19 0) ≤ packet) &&
    soft.all (fun k => decide (bytes k ≤ 2 ^ 32)) &&
    cm.all (fun k =>
      let base := 4096 * bits (part (28 * owner k + 26)) 8 0
      let len := 4096 * bits (part (28 * owner k + 26)) 18 9
      decide (base ≤ (place k).1 ∧ (place k).1 + (bytes k + 7) / 8 ≤ base + len)) &&
    noOverlap (cm.map fun k => (8 * (place k).1, bytes k)) && noOverlap (dp.map fun k => (65536 * (place k).1, bytes k)) &&
    (List.range 17).all fun p =>
      decide (((dp.filter fun k => owner k = p).map bytes).sum ≤ 65536 * bits (part (28 * p + 19)) 20 0)

/-- PARTITION's checks. `hasPools` tells whether a POOLS stands to check it against. -/
def partitionOk (sw : SecWords) (hasPools : Bool) (ws : List Nat) : Bool :=
  let part := pw ws
  let on := (List.range 16).filter (recOn part)
  decide (ws.length = 476) &&
    (List.range 17).all (fun p => bits (part (28 * p)) 20 16 = p && (List.range 28).all fun w => partUnused w (part (28 * p + w))) &&
    on.all (fun p => on.all fun q => p = q || (List.range 8).all fun i =>
      (part (28 * p + 1 + i) &&& (part (28 * q + 1 + i) ||| part (28 * q + 9 + i))) % 2 ^ 32 = 0) &&
    ((List.range 17).filter (recOn part)).all (fun p => ((List.range 17).filter (recOn part)).all fun q =>
      p = q || (part (28 * p + 20) &&& part (28 * q + 20)) % 2 ^ 32 = 0) &&
    rangesOk part 24 0 7 8 16 256 && rangesOk part 24 17 24 25 33 256 && rangesOk part 25 0 11 12 24 4096 &&
    rangesOk part 26 0 8 9 18 512 &&
    decide (sumOn part (fun p => bits (part (28 * p + 17)) 19 0) ≤ 524288) &&
    decide (sumOn part (fun p => bits (part (28 * p + 19)) 20 0) ≤ 1572864) &&
    decide (1024 * sumOn part (fun p => bits (part (28 * p + 21)) 10 0 + bits (part (28 * p + 21)) 21 11 + bits (part (28 * p + 22)) 10 0 +
      bits (part (28 * p + 22)) 21 11 + bits (part (28 * p + 22)) 32 22) ≤ 1631118) &&
    decide (1024 * sumOn part (fun p => bits (part (28 * p + 21)) 10 0) ≤ 1048576) &&
    decide (sumOn part (fun p => bits (part (28 * p + 23)) 7 0) ≤ 128) &&
    ((List.range 17).filter (recOn part)).all (fun p => decide (bits (part (28 * p + 23)) 19 16 ≤ 8)) &&
    on.all (fun p => (List.range 256).all fun n =>
      !(recShared part p n && bit (sw 1 (128 + 8 * n)) 35 && bits (sw 1 (128 + 8 * n + 1)) 6 3 = p)) &&
    (!hasPools || poolsFit part (sw 7))

/-- POOLS' checks; `fixed` gives the ACTIVE words that no later image changes (R268). -/
def poolsOk (sw : SecWords) (fixed : Option (Nat → Nat)) (ws : List Nat) : Bool :=
  let v := pw ws
  let soft := (List.range 12).filter fun k => bit (v (12 + 4 * k)) 35
  let region := fun p => (bits (v (2 * p + 1)) 19 0, bits (v (2 * p)) 19 0 * poolCharge p)
  decide (ws.length = 60) &&
    (List.range 4).all (fun p => bits (v (2 * p)) 19 0 ≠ 0 && decide ((region p).1 + (region p).2 ≤ 524288)) &&
    noOverlap ((List.range 4).map region) &&
    decide (bits (v 10) 19 0 ≤ bits (v 9) 19 0) && decide (256 * bits (v 11) 11 0 ≤ bits (v 8) 19 0) &&
    soft.all (fun k =>
      let size := bits (v (13 + 4 * k)) 16 0
      let p := bits (v (12 + 4 * k)) 20 16
      decide (p ≤ 16) && recOn (sw 2) p && decide (64 ≤ size ∧ size ≤ 65536) &&
        size % (if bit (v (12 + 4 * k)) 34 then 64 else 8) = 0) &&
    poolsFit (sw 2) v &&
    soft.all (fun k => !bit (v (12 + 4 * k)) 34 ||
      decide (v (15 + 4 * k) + (bits (v (14 + 4 * k)) 31 0 * bits (v (13 + 4 * k)) 16 0 + 65535) / 65536 ≤ 1523712)) &&
    match fixed with
    | some a => (List.range 60).all fun i => (8 ≤ i && i < 12) || v i = a i
    | none => true

/-! ## PARSE (R171–R174) -/

/-- A selector entry's reserved bits (R171). -/
def selectorOk (w : Nat → Nat) : Bool :=
  zeroBits (w 0) 21 8 && (List.range 4).all (fun k => zeroBits (w (k + 1)) 35 21) && zeroBits (w 5) 35 32 && zeroBits (w 6) 35 32 && w 7 = 0

/-- A field of a profile (R172, R174). DEDUCED, log entry 28. -/
def fieldOk (w : Nat) : Bool :=
  zeroBits w 23 23 && zeroBits w 19 18 && zeroBits w 11 0 &&
    (!bit w 35 ||
      (decide (1 ≤ bits w 17 12 ∧ bits w 17 12 ≤ 32) &&
        match bits w 34 32 with
        | 0 => decide (bits w 31 24 * 8 + bits w 22 20 + bits w 17 12 ≤ 2048)
        | 1 => decide (bits w 31 24 ≤ 3) && bits w 22 20 = 0
        | _ => false))

/-- The fields of a key fit its width (R174). -/
def keyFits (w : Nat → Nat) (code mask : Nat) : Bool :=
  code = 0 || decide ((((List.range 32).filter fun i => bit mask i && bit (w i) 35).map fun i => bits (w i) 17 12).sum ≤
    (match code with | 1 => 144 | 2 => 288 | _ => 576))

/-- A profile (R172, R174). -/
def profileOk (w : Nat → Nat) : Bool :=
  (List.range 32).all (fun i => fieldOk (w i)) && zeroBits (w 32) 35 33 && zeroBits (w 33) 35 34 && zeroBits (w 34) 35 34 &&
    zeroBits (w 35) 22 0 && zeroBits (w 36) 35 34 && zeroBits (w 37) 35 19 && w 38 = 0 && w 39 = 0 &&
    decide (1 ≤ bits (w 32) 8 0 ∧ bits (w 32) 8 0 ≤ 256) &&
    keyFits w (bits (w 33) 33 32) (bits (w 33) 31 0) && keyFits w (bits (w 34) 33 32) (bits (w 34) 31 0) &&
    keyFits w (bits (w 36) 33 32) (bits (w 36) 31 0) &&
    (!(bit (w 35) 35 && bit (w 35) 34) || (List.range 4).all fun k =>
      let i := bits (w 35) 33 29 + k
      decide (i < 32) && bit (w i) 35 && bits (w i) 17 12 = 32)

/-- PARSE's checks. -/
def parseOk (ws : List Nat) : Bool :=
  let n := bits (pw ws 0) 8 0
  let m := bits (pw ws 0) 17 9
  decide (2 ≤ ws.length ∧ ws.length = 2 + 8 * n + 40 * m) && zeroBits (pw ws 0) 35 18 && zeroBits (pw ws 1) 35 16 &&
    decide (n = 0 ∨ bits (pw ws 1) 7 0 + n ≤ 256) && decide (m = 0 ∨ bits (pw ws 1) 15 8 + m ≤ 256) &&
    (List.range n).all (fun e => selectorOk fun k => pw ws (2 + 8 * e + k)) &&
    (List.range m).all fun p => profileOk fun k => pw ws (2 + 8 * n + 40 * p + k)

/-! ## METER, CARVE, SEARCH (R180, R192, R236–R238) -/

/-- A port that a scope's stream filters may name (R180): a tenant's own exclusive ports, and H's those that no tenant holds. -/
def filterPortOk (part : Nat → Nat) (sc port : Nat) : Bool :=
  if sc < 16 then recOn part sc && recExcl part sc port else portHolderIn part port = 16

/-- METER's checks. -/
def meterOk (sw : SecWords) (sc : Nat) (ws : List Nat) : Bool :=
  let m := bits (pw ws 0) 10 0
  let f := bits (pw ws 0) 18 11
  decide (ws.length = 1 + 4 * m + 2 * f) && decide (m ≤ 1024) &&
    (List.range m).all (fun k =>
      let w := fun j => pw ws (1 + 4 * k + j)
      !bit (w 0) 35 || (decide (bits (w 0) 34 33 ≤ 1) && (bits (w 0) 34 33 ≠ 0 || decide (bits (w 1) 31 0 ≤ bits (w 2) 31 0)))) &&
    (List.range f).all fun k =>
      let w := pw ws (1 + 4 * m + 2 * k)
      !(bit w 35 && bit w 33) || filterPortOk (sw 2) sc (bits w 29 22)

/-- CARVE's checks. -/
def carveOk (ws : List Nat) : Bool :=
  let n := bits (pw ws 7) 16 8
  decide (8 ≤ ws.length ∧ ws.length = 8 + n) && (List.range 5).all (fun k => decide (bits (pw ws k) 10 0 ≤ 1591)) &&
    decide (bits (pw ws 6) 16 0 ≤ 65536) && decide (bits (pw ws 7) 7 0 + n ≤ 256) &&
    (List.range n).all fun i => bits (pw ws (8 + i)) 33 32 ≠ 3

/-- The units of a width code (R234). -/
def unitsOf (c : Nat) : Nat := match c with | 1 => 1 | 2 => 2 | _ => 4

/-- The bank records of a SEARCH payload from a word on: the word of each header, and the word after the last. -/
def searchHeads (ws : List Nat) : Nat → Nat → List Nat × Nat
  | 0, at_ => ([], at_)
  | n + 1, at_ =>
    let r := searchHeads ws n (at_ + 1 + 64 * unitsOf (bits (pw ws at_) 33 32))
    (at_ :: r.1, r.2)

/-- SEARCH's checks. -/
def searchOk (ws : List Nat) : Bool :=
  let n := bits (pw ws 0) 5 0
  let c := bits (pw ws 0) 22 14
  let h := searchHeads ws n 1
  let head := fun at_ => pw ws at_
  decide (1 ≤ ws.length ∧ ws.length = h.2 + c) && zeroBits (pw ws 0) 35 23 && decide (n ≤ 32) &&
    h.1.all (fun a => bits (head a) 33 32 ≠ 0 && zeroBits (head a) 35 35 && zeroBits (head a) 20 20 && zeroBits (head a) 9 0 &&
      decide (bits (head a) 19 10 ≤ 144 * unitsOf (bits (head a) 33 32) - 8)) &&
    noDup (h.1.map fun a => bits (head a) 31 27) && noDup (h.1.map fun a => bits (head a) 26 22) &&
    decide (bits (pw ws 0) 13 6 + c ≤ 256)

/-! ## QUEUE, GCL (R325, R326, R347) -/

/-- QUEUE's checks in a scope. -/
def queueOk (sc : Nat) (ws : List Nat) : Bool :=
  let nset := bits (pw ws 0) 28 16
  let nport := bits (pw ws 0) 15 7
  let nprof := bits (pw ws 0) 6 0
  let ncls := bits (pw ws 1) 12 0
  let prof := fun i w => pw ws (2 + 3 * i + w)
  let port := fun i w => pw ws (2 + 3 * nprof + 2 * i + w)
  let set := fun i w => pw ws (2 + 3 * nprof + 2 * nport + 5 * i + w)
  let cls := fun i w => pw ws (2 + 3 * nprof + 2 * nport + 5 * nset + 15 * i + w)
  decide (2 ≤ ws.length ∧ ws.length = 2 + 3 * nprof + 2 * nport + 5 * nset + 15 * ncls) &&
    decide (nset ≤ 4096 ∧ nport ≤ 256 ∧ nprof ≤ 64 ∧ ncls ≤ 4096) && zeroBits (pw ws 0) 35 29 && zeroBits (pw ws 1) 35 13 &&
    (sc = 16 || (nset = 0 && nport = 0 && nprof = 0 && (List.range ncls).all fun i => bits (cls i 0) 27 24 = sc)) &&
    (List.range nprof).all (fun i => zeroBits (prof i 0) 35 32 && bits (prof i 1) 35 34 ≠ 3 && zeroBits (prof i 1) 33 20 &&
      !(bits (prof i 2) 35 16 ≠ 0 && (bits (prof i 2) 15 0 = 0 || decide (bits (prof i 2) 35 16 < bits (prof i 2) 15 0)))) &&
    (List.range nport).all (fun i => zeroBits (port i 0) 27 21 && zeroBits (port i 1) 21 20) &&
    noDup ((List.range nport).map fun i => bits (port i 0) 35 28) &&
    (List.range nset).all (fun i => zeroBits (set i 0) 23 8 && bits (set i 0) 7 0 ≠ 0 && zeroBits (set i 1) 35 21 && zeroBits (set i 2) 35 20 &&
      zeroBits (set i 4) 35 12) &&
    noDup ((List.range nset).map fun i => bits (set i 0) 35 24) &&
    (List.range ncls).all (fun i => zeroBits (cls i 0) 23 0 && (List.range 7).all fun c =>
      bits (cls i (1 + 2 * c)) 35 28 ≠ 0 && zeroBits (cls i (1 + 2 * c)) 27 21 && zeroBits (cls i (2 + 2 * c)) 35 20) &&
    noDup ((List.range ncls).map fun i => bits (cls i 0) 35 24)

/-- The lists of a GCL payload from a word on: the word of each, and the word after the last. -/
def gclHeads (ws : List Nat) : Nat → Nat → List Nat × Nat
  | 0, at_ => ([], at_)
  | n + 1, at_ =>
    let r := gclHeads ws n (at_ + 4 + bits (pw ws at_) 8 0)
    (at_ :: r.1, r.2)

/-- GCL's checks. -/
def gclOk (ws : List Nat) : Bool :=
  let n := bits (pw ws 0) 8 0
  let h := gclHeads ws n 1
  decide (1 ≤ ws.length ∧ ws.length = h.2) && zeroBits (pw ws 0) 35 9 && decide (n ≤ 256) &&
    h.1.all (fun a =>
      let len := bits (pw ws a) 8 0
      decide (1 ≤ len ∧ len ≤ 256) && zeroBits (pw ws a) 26 9 && decide (bits (pw ws (a + 1)) 35 6 ≤ 999999999) &&
        zeroBits (pw ws (a + 3)) 35 30 && decide (1000 ≤ pw ws (a + 3) ∧ pw ws (a + 3) ≤ 999999999) &&
        (List.range len).all fun e => bits (pw ws (a + 4 + e)) 35 34 ≠ 3 && bits (pw ws (a + 4 + e)) 25 0 ≠ 0) &&
    noDup (h.1.map fun a => bits (pw ws a) 35 28)

/-! ## RWCODE (R360–R362, R378) -/

/-- The words that a standard instruction takes after it, and whether its operands are allowed (R361). -/
def instrOk (w : Nat) : Bool × Nat :=
  let op := bits w 35 28
  let fixed := op = 0x07 || op = 0x0B || op = 0x0C
  let baseOk := op = 0 || op = 0x0E || fixed || decide (bits w 27 25 ≤ 4)
  match op with
  | 0x01 | 0x03 =>
    let n := bits w 16 11 + 1
    let src := bits w 10 9
    (baseOk && decide (n ≤ 32) && src ≠ 3 && !(src = 2 && decide (4 < n)), if src = 1 then (n + 3) / 4 else 0)
  | 0x04 => (baseOk, if bits w 8 7 = 1 then 1 else 0)
  | 0x05 => (baseOk && decide (bits w 16 11 + 1 ≤ 32), 1)
  | 0x06 => (baseOk && decide (bits w 16 15 < 2), 0)
  | 0x08 => (baseOk && bits w 14 13 ≠ 3, if bits w 16 15 = 3 ∨ bits w 14 13 = 1 then 1 else 0)
  | 0x0A => (baseOk, if bit w 16 then 1 else 0)
  | 0x0C => (bits w 16 15 ≠ 3, 0)
  | _ => (baseOk && decide (op ≤ 0x0E), 0)

/-- The loader's walk of a program from a word on (R378): up to its END, to an owner opcode, or past word 15. -/
def programOk (v : Nat → Nat) : Nat → Nat → Bool
  | 0, _ => true
  | fuel + 1, i =>
    if 16 ≤ i then true
    else
      let op := bits (v i) 35 28
      if op = 0 then (List.range (15 - i)).all fun k => v (i + 1 + k) = 0
      else if 0x80 ≤ op then true
      else (instrOk (v i)).1 && (op ≠ 0x05 || decide (bits (v (i + 1)) 27 25 ≤ 4)) && decide (i + (instrOk (v i)).2 ≤ 15) && programOk v fuel (i + 1 + (instrOk (v i)).2)

/-- RWCODE's checks in a scope; `slots` gives the payload's bytes, for the identity of the standard region. -/
def rwcodeOk (sc : Nat) (full : Bool) (crc : List Byte → Nat) (slots : List Byte) (ws : List Nat) : Bool :=
  let code := bit (pw ws 0) 35
  let n := bits (pw ws 0) 12 0
  let base := 1 + (if code then 16384 + 4 * 4096 else 0)
  decide (1 ≤ ws.length ∧ ws.length = base + 17 * n) && (!code || sc = 16) && (!(full && sc = 16) || code) && decide (n ≤ 4095) &&
    (!code || (List.range 16384).all fun i => zeroBits (pw ws (1 + i)) 35 18) &&
    (List.range n).all (fun i => bits (pw ws (base + 17 * i)) 11 0 ≠ 0 && programOk (fun k => pw ws (base + 17 * i + 1 + k)) 17 0) &&
    noDup ((List.range n).map fun i => bits (pw ws (base + 17 * i)) 11 0) &&
    (!code || Config.libIdentity (crc (((slots.drop 8).take (8 * 8192)) ++ ((slots.drop (8 * 16385)).take (8 * 4 * 2048)))))

/-! ## MIRROR, SAFE, BENCH, DISCOVER (R128, R289, R545, R550) -/

/-- SAFE's checks. -/
def safeOk (ws : List Nat) : Bool := decide (ws.length = 2) && ws.all fun w => zeroBits w 35 32

/-- BENCH's checks. -/
def benchOk (ws : List Nat) : Bool :=
  let w := pw ws
  decide (ws.length = 8) && zeroBits (w 0) 35 8 && zeroBits (w 1) 35 21 && zeroBits (w 2) 7 6 && zeroBits (w 2) 15 11 && zeroBits (w 2) 35 32 &&
    zeroBits (w 3) 35 32 && zeroBits (w 4) 35 8 && w 5 = 0 && w 6 = 0 && w 7 = 0 &&
    (List.range 4).all (fun g => decide (bits (w 1) (4 * g + 3) (4 * g) ≤ 12)) && decide (bits (w 1) 20 16 ≤ 24)

/-- DISCOVER's checks. -/
def discoverOk (ws : List Nat) : Bool :=
  let n := ws.length / 8
  decide (ws.length % 8 = 0 ∧ 1 ≤ n ∧ n ≤ 1024) && (List.range n).all fun i =>
    let w := fun k => pw ws (8 * i + k)
    !bit (w 0) 35 ||
      (decide (bits (w 0) 8 4 ≤ 16) && decide (1 ≤ bits (w 0) 3 0 ∧ bits (w 0) 3 0 ≤ 3) &&
        (bits (w 0) 3 0 ≠ 3 || decide (1 ≤ bits (w 2) 4 0 ∧ bits (w 2) 4 0 ≤ 20)))

/-! ## REGS (R49) -/

/-- A record of REGS names an RWL register of scope H: the register, its copy, its element and whether the slot is the high word. -/
def regsTarget (sw : SecWords) (off inst : Nat) : Option (Reg × Nat × Nat × Bool) :=
  let idx := bits inst 11 0
  let set := bits inst 15 12
  let place := match regAt off with
    | some (r, i, h) => if r.place.home = Home.partition then some (r, 16, i, h) else
        match r.place.home.sel with
        | some sel => if selRange sel idx ∧ (r.place.home = Home.schSet ∨ set = 0) then some (r, instCopy r idx set, i, h) else none
        | none => if inst = 0 then some (r, 0, i, h) else none
    | none => windowAt off
  match place with
  | some (r, c, i, h) =>
    if isRwl r && !isInd r && !(r = .TCM_BANK_CFG && decide (32 ≤ bits inst 5 0)) && (r.place.home ≠ Home.partition || inst = 0) &&
        rwlScopeIn (sw 2) (fun n => bits (sw 1 (128 + 8 * n + 1)) 6 3) r c = 16 then some (r, c, i, h)
    else none
  | none => none

/-- REGS' checks. -/
def regsOk (sw : SecWords) (ws : List Nat) : Bool :=
  decide (ws.length % 3 = 0) && (List.range (ws.length / 3)).all fun k =>
    let w := fun j => pw ws (3 * k + j)
    zeroBits (w 0) 35 26 && zeroBits (w 1) 35 16 &&
      match regsTarget sw (w 0) (w 1) with
      | some (r, _, _, h) => h || (w 2 &&& rwlReserved r) = 0
      | none => false

/-! ## A section -/

/-- The content limits of a section of a type in a scope. -/
def sectionOk (sw : SecWords) (fixed : Option (Nat → Nat)) (hasPools full : Bool) (crc : List Byte → Nat) (type sc : Nat) (slots : List Byte)
    (ws : List Nat) : Bool :=
  match type with
  | 0x01 => portmapOk sw ws
  | 0x02 => partitionOk sw hasPools ws
  | 0x03 => parseOk ws
  | 0x04 => carveOk ws
  | 0x05 => searchOk ws
  | 0x06 => meterOk sw sc ws
  | 0x07 => poolsOk sw fixed ws
  | 0x08 => queueOk sc ws
  | 0x09 => gclOk ws
  | 0x0A => decide (ws.length = 288)
  | 0x0B => rwcodeOk sc full crc slots ws
  | 0x0C => safeOk ws
  | 0x0D => benchOk ws
  | 0x0E => discoverOk ws
  | 0x0F => regsOk sw ws
  | _ => true

end Sys2Proof.Machine
end

