-- ==== Sys2Proof/Machine/Transmit.lean ====
section
/-! DEFINITION. The transmit side of the MAC (R121, R136–R138, R142, R144, R149, R356, R496–R501): starting and ending copies, the PTP
commands, preemption, pause holds, and low-power idle. -/

namespace Sys2Proof.Machine

/-! ## PTP (R498–R501) -/

/-- The egress stamp of a frame whose first bit leaves at a time (R496): its first bit after the SFD, plus the port's latency, as device time
in units of 2⁻¹⁶ ns. DEDUCED, log entry 45. -/
def State.egressStamp (s : State) (port at_ : Nat) : Nat :=
  (at_ + s.wireTime port 8 + s.fget F.TIM_PORT_LAT.tx 0 port * 2 ^ 42) / 2 ^ 32

/-- Bytes of the edited head replaced. -/
def putBytes (h : List Byte) (o : Nat) (bs : List Byte) : List Byte := h.take o ++ bs ++ h.drop (o + bs.length)

/-- The timestamp of a one-step PTP_TS: 48 bits of seconds and 32 bits of whole nanoseconds. -/
def tsBytes (eg : Nat) : List Byte :=
  let sec := eg / (1000000000 * 65536)
  bytesBE 6 sec ++ bytesBE 4 (eg % (1000000000 * 65536) / 65536)

/-- The correctionField after an addition, saturated (R500). -/
def cfAdd (old : Nat) (add : Int) : Nat :=
  let v : Int := (BitVec.ofNat 64 old).toInt + add
  if 0x7FFFFFFFFFFFFFFF < v ∨ v < -0x7FFFFFFFFFFFFFFF then 0x7FFFFFFFFFFFFFFF else (v % 2 ^ 64).toNat

/-- The UDP checksum at `l4` + 6 corrected for the bytes that differ between two heads (R498). -/
def udpFix (old new : List Byte) (l4 : Nat) : List Byte :=
  let c := (List.range ((old.length - l4 + 1) / 2)).foldl (fun c i =>
    let o := l4 + 2 * i
    if i = 3 ∨ halfAt old o = halfAt new o then c else csumUpdate c (halfAt old o) (halfAt new o)) (halfAt old (l4 + 6))
  putBytes new (l4 + 6) (bytesBE 2 c)

/-- Whether a command writes the timestamp at the MAC. -/
def oneStep (m : MacCmd) : Bool := match m with | .ts two _ => !two | _ => false

/-- The correction of PTP_CF in units of 2⁻¹⁶ ns (R500). DEDUCED, log entry 45. -/
def ptpCorrection (t : TxCopy) (eg : Nat) : Int :=
  let res : Int := match t.copy.rx with | some r => (eg : Int) - (r / 2 ^ 32 : Nat) | none => 0
  res + (if t.mac.any oneStep then (eg % 65536 : Nat) else 0)

/-- The head as the MAC sends it. -/
def ptpHead (t : TxCopy) (eg : Nat) : List Byte :=
  let h := t.mac.foldl (fun h m => match m with
    | .ts false o => putBytes h o (tsBytes eg)
    | .cf _ o _ => putBytes h o (bytesBE 8 (cfAdd (numAt h o 8) (ptpCorrection t eg)))
    | _ => h) t.head
  t.mac.foldl (fun h m => match m with | .cf 2 _ l4 => udpFix t.head h l4 | _ => h) h

/-- The stamp layout of a time in units of 2⁻¹⁶ ns. -/
def stamp16 (eg : Nat) : Nat := stampOf (eg * 2 ^ 32)

/-- The records and counters of a copy's PTP commands (R499–R501). -/
def State.ptpCounts (s : State) (t : TxCopy) (eg : Nat) : State :=
  t.mac.foldl (fun s m => match m with
    | .ts true _ =>
      (s.bump F.TIM_CNT.count 0 3).emitPart t.copy.part clsTime
        { code := 0x70, unit := t.copy.port, stamp := stamp16 eg,
          p3 := t.copy.port + t.copy.qclass * 2 ^ 8 + eg / (1000000000 * 65536) / 2 ^ 36 % 4096 * 2 ^ 12, p4 := t.copy.md }
    | .cf _ _ _ =>
      let s := s.bump F.TIM_CNT.count 0 4
      let last := (s.rd .TIM_LAST_STEP).toNat
      match t.copy.rx with
      | some r => if stampOf r < last ∧ last ≤ stamp16 eg then s.bump F.TIM_CNT.count 0 5 else s
      | none => s
    | _ => s) s

/-! ## PAUSE and PFC frames (R140, R142) -/

/-- The bytes of a PAUSE or PFC frame, its FCS with it. -/
def ctlBytes : Nat := 64

/-- A control frame on the free wire of a port. -/
def State.sendCtl (s : State) (port : Nat) (f : CtlFrame) : State :=
  let fin := max s.time.now ((s.port port).lastEnd + s.wireTime port 12) + s.wireTime port (8 + ctlBytes)
  let s := s.modPort port fun q => { q with lastCtl := some { f with sa := s.fget F.MAC_SA.addr port }, lastEnd := fin }
  (s.macCount port 20).fset F.MAC_STATUS.lpi_tx port 0 0

/-- The control frames that wait at a port go ahead of data (R142): at once on a free wire, after cutting a preemptable frame at its next cut point
(R144), else at the end of the frame on the wire. A transmitter that sends no frames keeps none. -/
def State.ctlGo (s : State) (port : Nat) : State :=
  if (s.port port).ctlWait = [] then s
  else if s.portState port ≠ pUp then s.modPort port fun q => { q with ctlWait := [] }
  else if !s.txOn port then s
  else
    let s := match s.wireCuttable port with
      | some t => match s.cutPoint port t s.time.now true with
        | some d => s.cutWire port t d
        | none => s
      | none => s
    if (s.port port).wire.isSome then s
    else (s.port port).ctlWait.foldl (fun s f => s.sendCtl port f) (s.modPort port fun q => { q with ctlWait := [] })

/-- A frame joins the control frames that wait at a port; data goes on behind it. -/
def State.ctlSend (s : State) (port : Nat) (f : Option CtlFrame) : State :=
  match f with
  | some f => ((s.modPort port fun q => { q with ctlWait := q.ctlWait ++ [f] }).ctlGo port).resume port
  | none => s

/-- The 100 ns in which a port's entries to and exits from XOFF share one frame are over (R140). DEDUCED, log entry 31. -/
def State.ctlClose (s : State) (port : Nat) : State :=
  let mask := (s.port port).ctlMask
  let s := s.modPort port fun q => { q with ctlDue := none, ctlMask := 0 }
  if s.portState port = pUp then s.ctlSend port (s.windowFrame port mask) else s

/-- Close the windows that have run out by this core clock. -/
def State.ctlTick (s : State) : State :=
  (s.ports.filter fun e => e.2.ctlDue.any fun t => decide (t ≤ s.time.cycles)).foldl (fun s e => s.ctlClose e.1) s

/-- PFC_REFRESH: the PFC frame is repeated for the pre-classes still in XOFF (R140). -/
def execPfcRefresh (port : Nat) (s : State) : Host.Outcome State Fault Refusal :=
  s.act fun s =>
    if s.fget F.MAC_PAUSE.mode port = 2 ∧ s.fget F.MAC_PAUSE_STATE.xoff port ≠ 0 ∧ s.portState port = pUp then
      s.ctlSend port (s.pfcFrame port (s.fget F.MAC_PAUSE_STATE.xoff port))
    else s

/-- REMOTE_FAULT_END: the remote-fault sequence stops (R120), and what was held back goes on. -/
def execRemoteFaultEnd (port : Nat) (s : State) : Host.Outcome State Fault Refusal :=
  s.act fun s => ((s.fset F.MAC_STATUS.rem_fault port 0 0).ctlGo port).resume port

/-! ## Starting copies (R356) -/

/-- Put a copy on the wire at a time. -/
def State.startWire (s : State) (port : Nat) (t : TxCopy) (at_ : Nat) : State :=
  let eg := s.egressStamp port at_
  let c := { t.copy with tFirst := some at_ }
  let s := (s.unfifo port t.copy.id).ptpCounts t eg
  let s := s.fset F.MAC_STATUS.lpi_tx port 0 0
  s.modPort port fun p => { p with wire := some { t with copy := c, head := ptpHead t eg, first := some at_, start := at_ } }

/-- The first copy of a part whose class is not held (R136). -/
def State.firstFree (s : State) (port : Nat) (l : List TxCopy) : Option TxCopy :=
  l.find? fun t => !bit (s.fget F.MAC_PAUSE_STATE.held port) t.copy.qclass

/-- The copy may start at a time under R341 and R342. DEDUCED, log entry 44. -/
def State.mayStart (s : State) (t : TxCopy) (at_ : Nat) : Bool :=
  s.gateFits t.copy at_ && (t.copy.qclass = 7 || !s.portHold t.copy.port at_)

/-- The MAC starts the next copy of a port: class 7 first, cutting a preemptable frame on the wire; then the others, when no frame is on
the wire or held. -/
def State.startNext (s : State) (port : Nat) : State :=
  let s := s.ctlGo port
  let s := match s.firstFree port (s.port port).fifo7, s.wireCuttable port with
    | some _, some t =>
      match s.cutPoint port t s.time.now true with
      | some d => s.cutWire port t d
      | none => s
    | _, _ => s
  let p := s.port port
  let at_ := max s.time.now (p.lastEnd + s.wireTime port 12)
  if p.wire.isSome ∨ p.ctlWait ≠ [] then s
  else
    let go7 := (s.firstFree port p.fifo7).filter fun t => s.mayStart t at_
    let goG := if p.remainder.isSome then none else (s.firstFree port p.fifoG).filter fun t => s.mayStart t at_
    match go7.orElse fun _ => goG with
    | some t => s.startWire port t at_
    | none => s

/-- TX_START (R356): the MAC starts a copy whose edited head its FIFO part holds. A transmitter in the safe state or FENCED drops it (R121,
R601). -/
def execTxStart (port : Nat) (s : State) : Host.Outcome State Fault Refusal :=
  s.act fun s =>
    let p := s.port port
    if s.flag F.MAC_STATUS.safe port ∨ s.dhState port 0 then
      match p.fifo7.head?.orElse fun _ => p.fifoG.head? with
      | some t => s.txFenced port t
      | none => s
    else if !s.txOn port then s
    else s.startNext port

/-! ## Ending copies (R275, R343) -/

/-- Every byte that the copy sends has been received: its frame whole, or the first bytes of a truncated one (R275, R287). -/
def State.copySent (s : State) (c : Copy) : Bool :=
  s.copyWhole c || (decide (c.trunc ≠ 0) && match s.frame c.frame with | some f => decide (c.trunc ≤ f.len) | none => false)

/-- The copy's frame failed its check while the copy was being sent, or its buffer could not be read (R26, R556). -/
def State.stomped (s : State) (c : Copy) : Bool :=
  c.stomp || match s.frame c.frame with | some f => f.failed | none => false

/-- The copy was longer after its edit than the fit of R341 allowed, and its gate closed before its end (R343). -/
def State.overran (s : State) (t : TxCopy) : Bool :=
  let c := t.copy
  !s.holdRule c && decide (s.schedLen c + s.pget 16 c.tag F.SCH_PORT.grow c.port < s.txLen t) &&
    match t.first with
    | some at_ => match s.gateLeft c.port c.tag c.qclass at_ with
      | some left => decide (at_ + left < s.time.now)
      | none => false
    | none => false

/-- The counters of a copy sent (R350, R520). DEDUCED, log entry 33. -/
def State.countSent (s : State) (t : TxCopy) : State :=
  let c := t.copy
  let n := s.txLen t
  let set := c.port * 16 + c.set
  let s := (s.macCount c.port 15).macCount c.port 16 n
  let s := if c.qclass = 7 ∧ s.mmOn c.port then s.macCount c.port 17 else s
  let s := if 0 < t.frags then s.macCount c.port 19 else s
  let s := if s.stomped c then s.macCount c.port 21 else s
  let s := if c.qclass = 7 then (s.bump F.SCH_CNT.count set 2).bump F.SCH_CNT.count set 3 n
    else (s.bump F.SCH_CNT.count set 0).bump F.SCH_CNT.count set 1 n
  (if s.overran t then s.bump F.SCH_CNT.count set 6 else s).balAdd c.part 7

/-- TX_FRAME_END (R275): the last byte of the copy on the wire leaves, or its truncation point; one whose bytes still arrive has none. Control
frames, then a held remainder, go on. -/
def execTxFrameEnd (port : Nat) (s : State) : Host.Outcome State Fault Refusal :=
  s.act fun s =>
    match (s.port port).wire with
    | none => s
    | some t =>
      let c := t.copy
      if !s.copySent c then s
      else
        let f : SentFrame := { bytes := s.sentBytes t, bad := s.stomped c }
        let s := s.countSent t
        let s := s.modPort port fun p => { p with wire := none, lastTx := some f, lastEnd := s.time.now }
        let s := (s.leave c.port c.handle).traceTx c (if c.mirror then 1 else 0) 0 (some s.time.now)
        (((s.copyGone c).movePair port).ctlGo port).resume port

/-! ## PAUSE and PFC (R136–R138) -/

/-- PAUSE_FRAME_RX: the classes are held; a preemptable frame of one is cut at the end of its fragment; a hold that ends lets a remainder go
on. -/
def execPauseFrameRx (port time : Nat) (s : State) : Host.Outcome State Fault Refusal :=
  s.act fun s => ((s.pauseRx port time).pauseCut port).resume port

/-- PFC_FRAME_RX: as PAUSE_FRAME_RX, for the classes of the enabled priorities. -/
def execPfcFrameRx (port enables : Nat) (times : List Nat) (s : State) : Host.Outcome State Fault Refusal :=
  s.act fun s => ((s.pfcRx port enables times).pauseCut port).resume port

/-- A held class's pause timer expires (R136). -/
def execPauseTimerExpiry (port cls : Nat) (s : State) : Host.Outcome State Fault Refusal :=
  s.act fun s => (s.holdClass port cls 0).resume port

/-! ## Low-power idle (R149) -/

/-- LPI_IDLE_EXPIRY: `idle` µs without a frame in any queue of the port. -/
def execLpiIdleExpiry (port : Nat) (s : State) : Host.Outcome State Fault Refusal :=
  s.act fun s =>
    let empty := (s.queues.all fun e => e.1 / 128 ≠ port || decide (e.2.head = [] ∧ e.2.deep = [] ∧ e.2.pend = [])) && s.portIdle port
    if bit (s.portRec port) 15 ∧ s.flag F.MAC_LPI.en port ∧ (s.port port).eee ∧ s.portState port = pUp ∧ empty ∧
        !s.flag F.MAC_STATUS.lpi_tx port then
      (s.fset F.MAC_STATUS.lpi_tx port 0 1).macCount port 27
    else s

end Sys2Proof.Machine
end

