-- ==== Sys2Proof/Machine/TwinPair.lean ====
section
/-! DEFINITION. Ownership of dual-homed pairs: changes of state with their records, and decisions (R591, R601–R604, R617, R618). -/

namespace Sys2Proof.Machine

/-- The valid entries. -/
def State.pairs (s : State) : List Nat := (List.range 256).filter fun n => s.flag F.TWN_DH.valid 0 n

/-- A pair changes its state with a cause of R618. A transmitter that is FENCED cuts off what is on its wire (R121, R601). -/
def State.setDh (s : State) (n new cause : Nat) : State :=
  if s.fget F.TWN_DH.state 0 n = new then s
  else
    let s := s.dhTo n new cause
    if new = dhFenced ∧ s.flag F.TWN_CFG.en then s.cutOff n else s

/-- Cause 44 with a decision (R617): ADVISORY. DEDUCED, log entry 61. -/
def State.decide44 (s : State) (d : Nat) : State :=
  s.advisory 44 0xC40 (s.fget F.TWN_STATUS.lanes + d * 2 ^ 8) s.pairs.length

/-- Every valid entry takes a state. -/
def State.setAll (s : State) (new cause : Nat) : State := s.pairs.foldl (fun s n => s.setDh n new cause) s

/-- Every valid entry becomes OWN; those that change are TAKEOVERS (R604, R616). -/
def State.takeAll (s : State) (cause : Nat) : State :=
  let n := (s.pairs.filter fun n => s.fget F.TWN_DH.state 0 n ≠ dhOwn).length
  (s.twnCount 13 n).setAll dhOwn cause

/-- Twin operation starts, or the image becomes ready with `en` = 1 (R602): every valid entry FENCED, and the settle timer starts. -/
def State.twinStart (s : State) : State :=
  let s := s.setAll dhFenced 1
  let s := s.fset F.TWN_STATUS.decision 0 0 2
  { s with twin := { s.twin with settling := true, guarding := false, fromEn := true } }

end Sys2Proof.Machine
end

