-- ==== Sys2Proof/Machine/Image.lean ====
section
/-! DEFINITION. Structure images: the header and section table, the loader's checks, what each section writes into a SHADOW bank, restores of
SHADOW banks, approval and key fusing (R42–R61, R73, R74, R377, R628). -/

namespace Sys2Proof.Machine

/-! ## Results and records -/

/-- Codes of `IMG_RESULT.code`. -/
def imgOk : Nat := 0
def imgBusy : Nat := 1
def imgBadHeader : Nat := 2
def imgTooLarge : Nat := 3
def imgBadTable : Nat := 4
def imgCrc : Nat := 5
def imgAuth : Nat := 6
def imgScope : Nat := 7
def imgNotApproved : Nat := 8
def imgConflict : Nat := 9
def imgTooSoon : Nat := 10
def imgFar : Nat := 11
def imgDraining : Nat := 12
def imgBenchBusy : Nat := 13
def imgAbortFault : Nat := 14
def imgBusErr : Nat := 15
def imgFlashErr : Nat := 16
def imgNoCastling : Nat := 17
def imgBadPayload : Nat := 18
def imgCancelLate : Nat := 19
def imgActiveBank : Nat := 20

/-- A command of a function begins: its result is pending (R74). -/
def State.imgBegin (s : State) (f : Func) : State := s.wr .IMG_RESULT f.idx 0 0

/-- A command of a function completes: its result, and the count of those other than OK (R74). -/
def State.imgDone (s : State) (f : Func) (code detail section_ : Nat) : State :=
  let s := s.wr .IMG_RESULT f.idx 0 (BitVec.ofNat 72 (2 ^ 35 + section_ % 256 * 2 ^ 16 + detail % 64 * 2 ^ 8 + code))
  if code = imgOk then s else s.bumpSat F.IMG_REFUSED.count f.idx 0

/-- An image or castling record reaches the image ring of the function's partition and of the owner (R73, R454). -/
def State.imgRecord (s : State) (p : Nat) (r : Record) : State := s.emitBoth p clsImage { r with unit := 0xC30, stamp := s.stamp }

/-- A record of a load (R73). -/
def State.loadRecord (s : State) (p code scope result detail section_ serial length : Nat) : State :=
  s.imgRecord p { code := code, unit := 0xC30, stamp := 0, p3 := scope * 2 ^ 16 + detail * 2 ^ 8 + result, p4 := section_,
                  p5 := serial % 2 ^ 36, p7 := length % 2 ^ 26 }

/-! ## The header and the section table (R42, R43) -/

/-- A little-endian number at a byte offset. -/
def leAt (bs : List Byte) (off n : Nat) : Nat := ofLE ((bs.drop off).take n)

/-- The section types (R48). -/
def secTypes : List Nat := [1, 2, 3, 4, 5, 6, 7, 8, 9, 10, 11, 12, 13, 14, 15, 0xF0]

/-- The types that a full image must carry for scope H (R48). -/
def secRequired : List Nat := [1, 2, 3, 4, 5, 7, 8, 11, 12, 13, 14]

/-- The types that a tenant scope may hold (R48). -/
def secTenant : List Nat := [3, 4, 5, 6, 8, 9, 11, 0xF0]

/-- The entries of the section table: type, scope, offset, size and CRC. -/
def secTable (bs : List Byte) (n : Nat) : List (Nat × Nat × Nat × Nat × Nat) :=
  (List.range n).map fun i =>
    let o := 128 + 32 * i
    (leAt bs o 1, leAt bs (o + 1) 1, leAt bs (o + 8) 8, leAt bs (o + 16) 8, leAt bs (o + 24) 4)

/-- The load that a header and a section table describe. -/
def loadOf (bs : List Byte) (fn : Func) (flash : Option Nat) (boot : Bool) : Load :=
  { fn := fn, flash := flash, boot := boot, scope := leAt bs 0x14 4, length := leAt bs 0x18 8, serial := leAt bs 0x28 8,
    csig := leAt bs 0x50 16, tag := leAt bs 0x40 16, sections := secTable bs (leAt bs 0x20 4) }

/-- A full image: its header's scope is 0x1F. -/
def Load.full (l : Load) : Bool := l.scope = 0x1F

/-- Check 1 of R55: the fields of the header that lie in the bytes read. `len` is `IMG_LEN` of a load from the host (R53), as it stands when the
header is checked. DEDUCED, log entry 28. -/
def headerCode (bs : List Byte) (len : Option Nat) : Nat :=
  let got := fun (off n : Nat) (p : Nat → Bool) => decide (off + n ≤ bs.length) && p (leAt bs off n)
  let kind := leAt bs 0x10 4
  let length := leAt bs 0x18 8
  if got 0 8 (fun v => v != 0x474D495254535A4F) || got 0x0A 2 (fun v => v != 2) || got 0x0C 4 (fun v => v != 0x5120) ||
      got 0x10 4 (fun v => decide (1 < v)) || got 0x14 4 (fun v => (kind = 0 && v != 0x1F) || (kind = 1 && decide (16 < v))) then imgBadHeader
  else if got 0x18 8 (fun v => decide (50331648 < v)) then imgTooLarge
  else if got 0x18 8 (fun v => v % 64 != 0 || len.any fun k => k != length) || got 0x20 4 (fun v => decide (v < 1 ∨ 256 < v)) ||
      got 0x24 4 (fun v => v != 0x80) then imgBadHeader
  else imgOk

/-- Check 3 of R55: bounds, alignment, overlap, duplicates, type codes and, in a full image, the required sections (R43, R44, R48). -/
def tableOk (l : Load) : Bool :=
  let endTable := 128 + 32 * l.sections.length
  decide (endTable ≤ l.length) &&
    l.sections.all (fun e => secTypes.contains e.1 && e.2.2.1 % 64 = 0 && e.2.2.2.1 % 8 = 0 && decide (8 ≤ e.2.2.2.1) &&
      decide (endTable ≤ e.2.2.1 ∧ e.2.2.1 + e.2.2.2.1 ≤ l.length)) &&
    noOverlap (l.sections.map fun e => (e.2.2.1, e.2.2.2.1)) &&
    noDup (l.sections.map fun e => e.1 * 256 + e.2.1) &&
    (!l.full || secRequired.all fun t => l.sections.any fun e => e.1 = t && e.2.1 = 16)

/-- The scopes whose SHADOW banks a load writes. -/
def Load.targets (l : Load) : List Nat := if l.full then List.range 17 else [l.scope]

/-! ## Banks -/

/-- The ACTIVE bank of a scope. -/
def State.activeOf (s : State) (sc : Nat) : Nat := (s.scope sc).active % 2

/-- The engines read anew every fenced control-store word of a bank of a scope (R381). -/
def State.unfenceStore (s : State) (sc bank : Nat) : State :=
  { s with rwFenced := s.rwFenced.filter fun e =>
      let k := e.2 / 2 ^ 18
      !(k / 32 % 2 = bank % 2 && k % 32 = sc) }

/-- The scope's SHADOW bank becomes a copy of ACTIVE. -/
def State.restoreBank (s : State) (sc : Nat) : State :=
  let s := { s with image := { s.image with stagedFrom := tabErase s.image.stagedFrom sc, mirrorStaged := sc ≠ 16 && s.image.mirrorStaged } }
  (s.setPlane sc (s.shadowOf sc) (s.plane sc (s.activeOf sc))).unfenceStore sc (s.shadowOf sc)

/-- A SHADOW bank of scope H's or the scope's own control store that an engine has latched (R377): a load or a restore would write it. -/
def State.storeLatched (s : State) (sc : Nat) (code : Bool) : Option (Nat × Nat) :=
  match (if code then s.latchedBy 0 16 (s.shadowOf 16) else none) with
  | some e => some e
  | none => s.latchedBy 2 sc (s.shadowOf sc)

/-! ## What a section writes -/

/-- The plane without the words of a section type. -/
def Plane.clearType (pl : Plane) (t : Nat) : Plane := { pl with words := pl.words.filter fun e => e.1 / 2 ^ 28 ≠ t }

/-- The plane without values in some registers. -/
def Plane.clearRegs (pl : Plane) (rs : List Reg) : Plane :=
  { pl with regs := pl.regs.filter fun e => !(rs.map Reg.ctorIdx).contains (e.1 / 2 ^ 32) }

/-- The plane with a word of a section. -/
def Plane.putWord (pl : Plane) (t i w : Nat) : Plane :=
  { pl with words := tabSet 0 pl.words (t * 2 ^ 28 + i) (BitVec.ofNat 36 w) }

/-- The plane with words of a section from an index on. -/
def Plane.putList (pl : Plane) (t : Nat) : Nat → List Nat → Plane
  | _, [] => pl
  | i, w :: ws => (pl.putWord t i w).putList t (i + 1) ws

/-- The plane with a value in an RWL register. -/
def Plane.putReg (pl : Plane) (r : Reg) (c i v : Nat) : Plane := { pl with regs := regSet pl.regs r c i (BitVec.ofNat 72 v) }

/-- PARSE (R174); words 20,000 and 20,001 keep the payload's header, whose ranges a castling checks. -/
def Plane.putParse (pl : Plane) (ws : List Nat) : Plane :=
  let n := bits (pw ws 0) 8 0
  let m := bits (pw ws 0) 17 9
  let e0 := bits (pw ws 1) 7 0
  let p0 := bits (pw ws 1) 15 8
  let pl := pl.putList 3 20000 (ws.take 2)
  let pl := pl.putList 3 (8 * e0) ((ws.drop 2).take (8 * n))
  let pl := pl.putList 3 (2048 + 40 * p0) ((ws.drop (2 + 8 * n)).take (40 * m))
  (List.range m).foldl (fun pl p => pl.putWord 3 (16384 + p0 + p) 1) pl

/-- A bank record of the plane names the bank (R236): word 70,000 + *b* marks it. -/
def Plane.namesBank (pl : Plane) (b : Nat) : Bool := tabGet 0 pl.words (5 * 2 ^ 28 + 70000 + b) ≠ 0

/-- A header word in `TCM_BANK_CFG`, with the mark of a bank record (R236). -/
def Plane.putHeader (pl : Plane) (b v : Nat) : Plane := (pl.putReg .TCM_BANK_CFG b 0 v).putWord 5 (70000 + b) 1

/-- SEARCH (R236): headers into `TCM_BANK_CFG`, masks and profile words; word 131,072 keeps word 0. -/
def Plane.putSearch (pl : Plane) (ws : List Nat) : Plane :=
  let h := searchHeads ws (bits (pw ws 0) 5 0) 1
  let pl := (pl.clearRegs [.TCM_BANK_CFG]).putWord 5 131072 (pw ws 0)
  let pl := h.1.foldl (fun pl a =>
    let b := bits (pw ws a) 31 27
    let w := 4 * unitsOf (bits (pw ws a) 33 32)
    let pl := pl.putHeader b (pw ws a)
    (List.range 16).foldl (fun pl m => pl.putList 5 (b * 512 + m * 16) ((ws.drop (a + 1 + w * m)).take w)) pl) pl
  pl.putList 5 (65536 + bits (pw ws 0) 13 6) ((ws.drop h.2).take (bits (pw ws 0) 22 14))

/-- METER (R180). -/
def Plane.putMeter (pl : Plane) (ws : List Nat) : Plane :=
  let m := bits (pw ws 0) 10 0
  let f := bits (pw ws 0) 18 11
  (pl.putList 6 0 ((ws.drop 1).take (4 * m))).putList 6 (4096 + 2) ((ws.drop (1 + 4 * m)).take (2 * f))

/-- CARVE (R192). -/
def Plane.putCarve (pl : Plane) (ws : List Nat) : Plane :=
  (pl.putList 4 0 (ws.take 8)).putList 4 (16 + bits (pw ws 7) 7 0) (ws.drop 8)

/-- QUEUE (R325): the registers that hold profiles, ports, sets and classes, and a mark for each queue set that a class record names. -/
def Plane.putQueue (pl : Plane) (ws : List Nat) : Plane :=
  let nset := bits (pw ws 0) 28 16
  let nport := bits (pw ws 0) 15 7
  let nprof := bits (pw ws 0) 6 0
  let b1 := 2 + 3 * nprof
  let b2 := b1 + 2 * nport
  let b3 := b2 + 5 * nset
  let pl := pl.clearRegs [.SCH_PROF_LIMIT, .SCH_PROF_RED, .SCH_PROF_DEEP, .SCH_PORT, .SCH_PORT_BURST, .SCH_SET_CFG, .SCH_SET_BURST,
    .SCH_QPROF_LO, .SCH_QPROF_HI, .SCH_CLS_CFG, .SCH_CLS_BURST]
  let pl := (List.range nprof).foldl (fun pl i =>
    ((pl.putReg .SCH_PROF_LIMIT 0 i (pw ws (2 + 3 * i))).putReg .SCH_PROF_RED 0 i (pw ws (3 + 3 * i))).putReg .SCH_PROF_DEEP 0 i
      (pw ws (4 + 3 * i))) pl
  let pl := (List.range nport).foldl (fun pl i =>
    let w0 := pw ws (b1 + 2 * i)
    let w1 := pw ws (b1 + 2 * i + 1)
    (pl.putReg .SCH_PORT (bits w0 35 28) 0 (bits w1 35 22 * 2 ^ 22 + bits w0 20 0)).putReg .SCH_PORT_BURST (bits w0 35 28) 0 (bits w1 19 0)) pl
  let pl := (List.range nset).foldl (fun pl i =>
    let w := fun k => pw ws (b2 + 5 * i + k)
    let c := bits (w 0) 35 28 * 16 + bits (w 0) 27 24
    let pl := (pl.putReg .SCH_SET_CFG c 0 (bits (w 0) 7 0 * 2 ^ 28 + w 1)).putReg .SCH_SET_BURST c 0 (w 2)
    (pl.putReg .SCH_QPROF_LO c 0 (w 3)).putReg .SCH_QPROF_HI c 0 (w 4)) pl
  (List.range (bits (pw ws 1) 12 0)).foldl (fun pl i =>
    let w := fun k => pw ws (b3 + 15 * i + k)
    let c := bits (w 0) 35 28 * 16 + bits (w 0) 27 24
    (List.range 7).foldl (fun pl q =>
      (pl.putReg .SCH_CLS_CFG c q (w (1 + 2 * q))).putReg .SCH_CLS_BURST c q (w (2 + 2 * q))) (pl.putWord 8 c 1)) pl

/-- GCL (R347); words from 65,536 mark the ports whose lists are given. -/
def Plane.putGcl (pl : Plane) (ws : List Nat) : Plane :=
  let h := gclHeads ws (bits (pw ws 0) 8 0) 1
  h.1.foldl (fun pl a =>
    let p := bits (pw ws a) 35 28
    let pl := (pl.putWord 9 (65536 + p) 1).putReg .GTE_CTL p 0 ((if bit (pw ws a) 27 then 2 ^ 35 else 0) + bits (pw ws a) 8 0)
    let pl := (pl.putReg .GTE_BASE p 0 (pw ws (a + 2) * 2 ^ 36 + pw ws (a + 1))).putReg .GTE_CYCLE p 0 (pw ws (a + 3))
    pl.putList 9 (p * 256) ((ws.drop (a + 4)).take (bits (pw ws a) 8 0))) (pl.clearRegs [.GTE_CTL, .GTE_BASE, .GTE_CYCLE])

/-- RWCODE (R378): the programs are replaced, and with `code` the microstore and nanostore too; words from
200,000 mark the programs given, and word 150,000 that the standard region is a library's. DEDUCED, log entry 28. -/
def Plane.putRwcode (pl : Plane) (ws : List Nat) : Plane :=
  let code := bit (pw ws 0) 35
  let base := 1 + (if code then 16384 + 4 * 4096 else 0)
  let pl := { pl with words := pl.words.filter fun e =>
    !(e.1 / 2 ^ 28 = 11 && (code || decide (65536 ≤ e.1 % 2 ^ 28))) }
  let pl := if code then (pl.putList 11 0 ((ws.drop 1).take 32768)).putWord 11 150000 1 else pl
  (List.range (bits (pw ws 0) 12 0)).foldl (fun pl i =>
    let n := bits (pw ws (base + 17 * i)) 11 0
    (pl.putWord 11 (200000 + n) 1).putList 11 (65536 + 16 * n) ((ws.drop (base + 17 * i + 1)).take 16)) pl

/-- REGS (R49): each record as a write of the PF, a low word waiting for its register's high word (R82). DEDUCED, log entry 28. -/
def Plane.putRegs (sw : SecWords) (pl : Plane) (ws : List Nat) : Plane :=
  ((List.range (ws.length / 3)).foldl (fun (acc : Plane × Option (Nat × Nat)) k =>
    let w := fun j => pw ws (3 * k + j)
    match regsTarget sw (w 0) (w 1) with
    | some (r, c, i, h) =>
      let old := regGet acc.1.regs r c i
      if r.place.wide then
        if h then
          let low := match acc.2 with | some (key, v) => if key = regKey r c i then v else old.toNat % 2 ^ 36 | none => old.toNat % 2 ^ 36
          ({ acc.1 with regs := regSet acc.1.regs r c i (maskWrite r old (BitVec.ofNat 72 (w 2 * 2 ^ 36 + low))) }, none)
        else (acc.1, some (regKey r c i, w 2))
      else if r = .TCM_BANK_CFG then
        (acc.1.putHeader c (fldSet (maskWrite r old (BitVec.ofNat 72 (w 2))) 31 27 (fldGet old 31 27)).toNat, acc.2)
      else ({ acc.1 with regs := regSet acc.1.regs r c i (maskWrite r old (BitVec.ofNat 72 (w 2))) }, acc.2)
    | none => acc) (pl, none)).1

/-- A section of a type written into a plane; NOTE writes nothing. DESIGN CHOICE, log entry 29. -/
def Plane.putSection (sw : SecWords) (pl : Plane) (t : Nat) (ws : List Nat) : Plane :=
  let mark := fun (pl : Plane) => { pl with present := if pl.present.contains t then pl.present else pl.present ++ [t] }
  match t with
  | 0x03 => mark ((pl.clearType 3).putParse ws)
  | 0x04 => mark ((pl.clearType 4).putCarve ws)
  | 0x05 => mark ((pl.clearType 5).putSearch ws)
  | 0x06 => mark ((pl.clearType 6).putMeter ws)
  | 0x08 => mark ((pl.clearType 8).putQueue ws)
  | 0x09 => mark ((pl.clearType 9).putGcl ws)
  | 0x0B => mark (pl.putRwcode ws)
  | 0x0D =>
    let pl := (pl.clearType 13).putList 13 0 ws
    let pl := pl.putReg .FLT_POLICY 0 0 (pw ws 0)
    mark ((List.range 3).foldl (fun pl i => pl.putReg .FLT_WEAR_TH 0 i (pw ws (2 + i))) pl)
  | 0x0F => mark (pl.putRegs sw ws)
  | 0xF0 => pl
  | _ => mark ((pl.clearType t).putList t 0 ws)

/-! ## Payloads and check 5 -/

/-- The bytes of a payload. -/
def payload (img : List Byte) (e : Nat × Nat × Nat × Nat × Nat) : List Byte := (img.drop e.2.2.1).take e.2.2.2.1

/-- The 64-bit slots of a payload. -/
def slotsOf (bs : List Byte) : List Nat := (List.range (bs.length / 8)).map fun i => leAt bs (8 * i) 8

/-- The words that checks take from H's sections of the image, or from scope H's ACTIVE bank. -/
def State.secWords (s : State) (l : Load) (img : List Byte) : SecWords := fun t i =>
  match l.sections.find? fun e => e.1 = t && e.2.1 = 16 with
  | some e => (leAt (payload img e) (8 * i) 8) % 2 ^ 36
  | none => s.pword 16 s.tagNow t i

/-- Check 5 of R55 for one entry of a permitted scope and type. -/
def State.sectionCode (s : State) (l : Load) (img : List Byte) (e : Nat × Nat × Nat × Nat × Nat) : Nat :=
  let bs := payload img e
  if crc32c bs ≠ e.2.2.2.2 then imgCrc
  else if e.1 = 0xF0 then imgOk
  else if (slotsOf bs).any fun w => decide (2 ^ 36 ≤ w) then imgBadPayload
  else
    let active := s.flag F.IMG_STATUS.active_ok
    let fixed := if active then some (fun i => s.pword 16 s.tagNow 7 i) else none
    let hasPools := active || l.sections.any fun x => x.1 = 7 && x.2.1 = 16
    if sectionOk (s.secWords l img) fixed hasPools l.full crc32c e.1 e.2.1 bs (slotsOf bs) then imgOk else imgBadPayload

/-- The scope or the type of an entry is not permitted (check 5 of R55). -/
def Load.scopeBad (l : Load) (e : Nat × Nat × Nat × Nat × Nat) : Bool :=
  decide (16 < e.2.1) || (!l.full && e.2.1 != l.scope) || (e.2.1 != 16 && !secTenant.contains e.1)

/-- The first entry that fails check 5 on the bytes read: its index and code. Scope and type stand in the section table; what else an entry is
held to needs its payload whole. DEDUCED, log entry 28. -/
def State.firstBad (s : State) (l : Load) (img : List Byte) : List (Nat × Nat × Nat × Nat × Nat) → Nat → Option (Nat × Nat)
  | [], _ => none
  | e :: es, i =>
    if l.scopeBad e then some (i, imgScope)
    else if img.length < e.2.2.1 + e.2.2.2.1 then none
    else
      let c := s.sectionCode l img e
      if c ≠ imgOk then some (i, c) else s.firstBad l img es (i + 1)

/-! ## The end of a load -/

/-- `AON_BOOT` takes the result of a flash slot (R626). -/
def State.slotResult (s : State) (l : Load) (code : Nat) : State :=
  match l.boot, l.flash with
  | true, some 0 => s.fset F.AON_BOOT.res_a 0 0 code
  | true, some _ => s.fset F.AON_BOOT.res_b 0 0 code
  | _, _ => s

/-- A load ends other than with OK: its result, its record, its banks INVALID if it had begun to write them (R55), and during the flash boot
the next slot or the wait for the host (R626). A slot whose read is to begin is left as a load without sections. -/
def State.loadRefused (s : State) (l : Load) (code detail section_ : Nat) (banks : Bool) : State :=
  let s := { s with image := { s.image with load := none, waitRestore := [] } }.fset F.IMG_STATUS.loading 0 0 0
  let s := if banks then l.targets.foldl (fun s sc => s.setScopeState sc 7) s else s
  let s := if l.boot then s else s.imgDone l.fn code detail section_
  let s := s.loadRecord (if l.boot then 16 else l.fn.part) 0x31 l.scope code detail section_ l.serial l.length
  let s := s.slotResult l code
  if l.boot then
    if l.flash = some 0 then
      let next : Load := { fn := .pf, flash := some 1, boot := true, scope := 0x1F, length := 0, serial := 0, csig := 0, tag := 0, sections := [] }
      { s with image := { s.image with load := some next } }.fset F.IMG_STATUS.loading 0 0 1
    else s.fset F.AON_BOOT.phase 0 0 6
  else s

/-! ## The first image (R628) -/

/-- The island takes the SAFE pattern into its retention (R545). -/
def State.takeSafe (s : State) : State :=
  (List.range 2).foldl (fun s i => s.fset F.AON_SAFE.pattern 0 i (s.pword 16 s.tagNow 12 i)) s

/-- The mirror registers take the values of the MIRROR section (R289). -/
def State.takeMirror (s : State) : State :=
  let w := fun i => BitVec.ofNat 72 (s.pword 16 s.tagNow 10 i)
  let s := (List.range 16).foldl (fun s k => (s.wr .SWC_MIR_A 0 k (w (2 * k))).wr .SWC_MIR_B 0 k (w (2 * k + 1))) s
  (List.range 256).foldl (fun s n => s.wr .SWC_PMIR 0 n (w (32 + n))) s

/-- The thread slots of positions 0–15 that PARTITION gives to each partition, H first, in ascending order (R387): the partition of a static
slot, none for the common pool. -/
def slotPart (part : Nat → Nat) (t : Nat) : Option Nat :=
  let count := fun p => if recOn part p then bits (part (28 * p + 23)) 7 0 else 0
  let order := 16 :: List.range 16
  let place := order.foldl (fun (acc : Nat × Option Nat) p =>
    if acc.2.isNone ∧ acc.1 ≤ t ∧ t < acc.1 + count p then (acc.1 + count p, some p) else (acc.1 + count p, acc.2)) (0, none)
  place.2

/-- Every slot of positions 0–15 takes the partition that PARTITION gives it: a static slot IDLE, a common one FREE; a drawn thread keeps its
partition, a slot that keeps its partition its state, and a stopped slot that state (R387, R388). -/
def State.takeSlots (s : State) : State :=
  (List.range 128).foldl (fun s t =>
    if (s.thr t).drawn then s
    else
      let p := (slotPart (fun w => s.pword 16 s.tagNow 2 w) t).getD 31
      if s.thrPart t = p ∧ (p = 31 ∨ s.thrState t ≠ tFree) then s
      else
        let st := s.thrState t
        let s := s.fset F.CCX_T_STATUS.part t 0 p
        if st = tFree ∨ st = tIdle then s.fset F.CCX_T_STATUS.state t 0 (if p = 31 then tFree else tIdle) else s) s

/-- The slices of a group as the first image finds them (R629): those the self-test fenced stay FENCED, the BENCH slice is on the bench unless it
serves for one of them (R624), the two lowest others are ACTIVE and the rest ASLEEP. -/
def State.benchSlices (s : State) (g b : Nat) : State :=
  let fenced := (List.range 13).filter fun n => s.fget F.SPR_SLICE.state g n = 5
  let rest := (List.range 13).filter fun n => !fenced.contains n && (n ≠ b || fenced ≠ [])
  let s := if fenced = [] then s.setSlice g b slBench else s
  let s := rest.foldl (fun s n => s.setSlice g n (if (rest.take 2).contains n then slActive else slAsleep)) s
  s.fset F.SPR_STATUS.awake g 0 2

/-- The engines of a cluster as the first image finds them: the BENCH engine is on the bench unless it serves for one that the self-test
fenced. -/
def State.benchEngines (s : State) (c b : Nat) : State :=
  let fenced := (List.range 25).filter fun n => s.fget F.RWE_ENG.state c n = 3
  ((List.range 25).filter fun n => !fenced.contains n).foldl (fun s e =>
    s.fset F.RWE_ENG.state c e (if e = b ∧ fenced = [] then 1 else 0)) s

/-- The bench units of BENCH word 1 of the first image (R550, R629). -/
def State.takeBench (s : State) : State :=
  let w := s.pword 16 s.tagNow 13 1
  let s : State := (List.range 4).foldl (fun s g => s.benchSlices g (bits w (4 * g + 3) (4 * g))) s
  (List.range 32).foldl (fun s c => s.benchEngines c (bits w 20 16)) s

/-- The first full image after main reset becomes ACTIVE in bank 0 of every scope without castling, bank 1 is restored from it, and all that a
castling of scope H would apply is applied (R628, R629). -/
def State.firstImage (s : State) (l : Load) : State :=
  let s := (List.range 17).foldl (fun s sc =>
    let s := { s with image := { s.image with scopes := tabSet {} s.image.scopes sc { active := 0, old := 0 } } }
    (s.setPlane sc 1 (s.plane sc 0)).setScopeState sc 1) s
  let s := s.fset F.IMG_STATUS.active_ok 0 0 1
  let s := (List.range 18).foldl (fun s i => s.fset F.IMG_ACT_SERIAL.serial i 0 l.serial) s
  let s := ((s.takeSafe).takeSlots).takeBench.refreshHeadroom
  let s := if (s.plane 16 0).present.contains 10 then s.takeMirror else s
  let s := (List.range 12).foldl (fun s k =>
    s.fset F.BPM_PMIN.min 0 (k + 4) (s.poolFree (k + 4))) s
  let s := (List.range 4).foldl (fun s p => s.fset F.BPM_PMIN.min 0 p (s.poolFree p)) s
  let s := (s.fset F.AON_BOOT.phase 0 0 7).fset F.GLB_STATUS.ready 0 0 1
  let s := s.fset F.PWR_CLK.lane_lock 0 0 (2 ^ 32 - 1)
  let s := ((List.range 256).filter fun p => s.portValid p).foldl (fun s p => s.refreshSafe p) s
  let s := ((List.range 256).filter fun p => s.portAdmin p).foldl (fun s p => s.portEnable p 1) s
  let s := match s.power.exitRec with
    | some r => { s with power := { s.power with exitRec := none } }.emitPart 16 clsFault r
    | none => s
  if s.flag F.TWN_CFG.en then s.twinStart else s

/-! ## Loading (R52–R56) -/

/-- A load that ends before a header is read. -/
def noHeader (fn : Func) (flash : Option Nat) (boot : Bool) : Load :=
  { fn := fn, flash := flash, boot := boot, scope := 0x1F, length := 0, serial := 0, csig := 0, tag := 0, sections := [] }

/-- The error of a read that ends early: of the bus, or of the flash. -/
def Load.readError (l : Load) : Nat := if l.flash.isSome then imgFlashErr else imgBusErr

/-- The first target scope that check 4 of R55 refuses, and its result: a PENDING scope is in a castling's mask (R66). Before the first image
there is no ACTIVE bank, and every bank may be written. DEDUCED, log entry 28. -/
def State.targetCode (s : State) (l : Load) : Nat × Nat :=
  if !s.flag F.IMG_STATUS.active_ok then (imgOk, 0)
  else if l.targets.any fun sc => s.scopeState sc = 5 then (imgBusy, 0)
  else match l.targets.find? fun sc => s.scopeState sc = 6 || s.scopeState sc = 2 with
    | some sc => (imgDraining, sc)
    | none => (imgOk, 0)

/-- Checks 1–4 of R55 on the bytes read, with R628's rule before the first image: the load, its code and its detail.
DESIGN CHOICE, log entry 71. -/
def State.headCode (s : State) (l : Load) (head : List Byte) : Load × Nat × Nat :=
  let c := headerCode head (if l.flash.isSome then none else some (s.fget F.IMG_LEN.bytes l.fn.idx))
  if head.length < 128 then (l, if c = imgOk then l.readError else c, 0)
  else
    let h := loadOf head l.fn l.flash l.boot
    if c ≠ imgOk then ({ h with scope := if h.scope ≤ 16 then h.scope else 0x1F }, c, 0)
    else if (match l.fn with | .vf n => h.full || h.scope ≠ n | _ => false) then (h, imgScope, 0)
    else if !h.full && !s.flag F.IMG_STATUS.active_ok then (h, imgScope, 0)
    else if head.length < 128 + 32 * h.sections.length then (h, h.readError, 0)
    else if !tableOk h then (h, imgBadTable, 0)
    else (h, s.targetCode h)

/-- The DISCARDs of a scope whose restore runs complete (R57). DEDUCED, log entry 28. -/
def State.finishDiscard (s : State) (sc : Nat) : State :=
  (tabGet [] s.image.restoring sc).foldl (fun s k => s.imgDone (funcOf k) imgOk 0 0)
    { s with image := { s.image with restoring := tabErase s.image.restoring sc } }

/-- The restore of a SHADOW bank at the start of a load: one into a bank that an engine has latched waits (R56, R377). -/
def State.startRestore (s : State) (sc : Nat) : State :=
  match s.storeLatched sc (sc = 16) with
  | some (c, e) => { s with image := { s.image with waitRestore := s.image.waitRestore ++ [sc] } }.activeWrite c e
  | none => s.restoreBank sc

/-- The restores that wait for an engine are made where none holds the bank any more (R377). -/
def State.finishRestores (s : State) : State :=
  s.image.waitRestore.foldl (fun s sc =>
    if (s.storeLatched sc (sc = 16)).isSome then s
    else { s with image := { s.image with waitRestore := s.image.waitRestore.filter (· ≠ sc) } }.restoreBank sc) s

/-- The banks that a load writes go to LOADING, restored first where they are not SYNCED; a full image discards what tenants have staged
(R56, R61). -/
def State.takeBanks (s : State) (l : Load) : State :=
  let s := if l.full && s.flag F.IMG_STATUS.active_ok then
      (List.range 16).foldl (fun s t =>
        if s.scopeState t = 3 ∨ s.scopeState t = 4 then s.loadRecord t 0x31 t imgScope 0 0 l.serial l.length else s) s
    else s
  l.targets.foldl (fun s sc =>
    let s := s.finishDiscard sc
    let s := if s.scopeState sc ≠ 1 ∧ s.flag F.IMG_STATUS.active_ok then s.startRestore sc else s
    s.setScopeState sc 2) s

/-- The bytes at the front of the image have been read: checks 1–4, and the banks to LOADING. -/
def State.loadHead (s : State) (l : Load) (head : List Byte) : State :=
  let (h, c, d) := s.headCode l head
  if c ≠ imgOk then s.loadRefused h c d 0 false
  else { s.takeBanks h with image := { (s.takeBanks h).image with load := some h } }

/-- LOAD_HOST or LOAD_FLASH (R52–R54): `head` holds the bytes at the front of the image, the header and the section table, where they have
been read already. -/
def State.effLoad (s : State) (f : Func) (flash : Option Nat) (head : Option (List Byte)) : State :=
  let s := s.imgBegin f
  let l := noHeader f flash false
  let refuse := fun (code : Nat) => (s.imgDone f code 0 0).loadRecord f.part 0x31 0x1F code 0 0 0 0
  if s.image.load.isSome ∨ s.flt.fenced.contains 0xC30 then refuse imgBusy
  else if flash.isSome ∧ f ≠ .pf ∧ f ≠ .console then refuse imgScope
  else if flash.isNone ∧ s.fget F.IMG_SRC.addr f.idx % 64 ≠ 0 then refuse imgBadHeader
  else
    let s := { s with image := { s.image with load := some l } }.fset F.IMG_STATUS.loading 0 0 1
    match head with
    | some bs => s.loadHead l bs
    | none => s

/-! ## The end of an image (R46, R55, R61) -/

/-- The key under which tags are verified: the fused one, or zero bits (R47). -/
def State.imageKey (s : State) : List Byte := if s.flag F.IMG_KEY.fused then s.image.key.flatMap (bytesLE 4) else List.replicate 32 0

/-- The AES-CMAC of an image with its two tag fields taken as zero, as the number that its bytes spell, lowest first (R46). -/
def State.imageCmac (s : State) (img : List Byte) : Nat :=
  ofLE (bytesBE 16 (aesCmac s.imageKey (img.take 0x40 ++ List.replicate 32 0 ++ img.drop 0x60)).toNat)

/-- The sections of an image written into the banks of its scopes: the first image into bank 0, a later one into the SHADOW bank. REGS records
come after every other section of their scope, wherever the section table puts them. DESIGN CHOICE, log entry 71. -/
def State.applyImage (s : State) (l : Load) (img : List Byte) : State :=
  let sw := s.secWords l img
  let first := !s.flag F.IMG_STATUS.active_ok
  l.targets.foldl (fun s sc =>
    let b := if first then 0 else s.shadowOf sc
    let secs := l.sections.filter fun e => e.2.1 = sc
    let put := fun (pl : Plane) (e : Nat × Nat × Nat × Nat × Nat) => pl.putSection sw e.1 (slotsOf (payload img e))
    let pl := (secs.filter fun e => e.1 ≠ 15).foldl put (if l.full then {} else s.plane sc b)
    let pl := (secs.filter fun e => e.1 = 15).foldl put pl
    let s := s.setPlane sc b pl
    if l.full ∨ secs.any fun e => e.1 = 11 then s.unfenceStore sc b else s) s

/-- The first RWCODE entry that would be written into a latched bank, and the cluster and engine that hold it (R377). -/
def State.latchedSection (s : State) (l : Load) (img : List Byte) : Option (Nat × Nat × Nat) :=
  if !s.flag F.IMG_STATUS.active_ok then none
  else (l.sections.zipIdx).findSome? fun (e, i) =>
    if e.1 = 11 then (s.storeLatched e.2.1 (bit (leAt (payload img e) 0 8) 35)).map fun x => (i, x.1, x.2) else none

/-- The whole image has been read: checks 5–7, and the scopes STAGED or AWAITING, or the first image ACTIVE (R55, R58, R628). The load waits
while the restore of a bank of its waits for an engine (R377). -/
def State.loadEnd (s : State) (l : Load) (img : List Byte) : State :=
  match s.firstBad l img l.sections 0 with
  | some (i, c) => s.loadRefused l c 0 i true
  | none =>
    if img.length < l.length then s.loadRefused l l.readError 0 0 true
    else
      let mac := s.imageCmac (img.take l.length)
      let tenant := decide (l.scope < 16)
      let awaits := tenant && l.csig = 0
      if !awaits && mac ≠ (if tenant then l.csig else l.tag) then s.loadRefused l imgAuth 0 0 true
      else if s.finishRestores.image.waitRestore ≠ [] then s
      else match s.latchedSection l img with
      | some (i, c, e) => (s.activeWrite c e).loadRefused l imgActiveBank 0 i true
      | none =>
        let first := !s.flag F.IMG_STATUS.active_ok
        let s := s.finishRestores.applyImage l img
        let s := { s with image := { s.image with load := none } }.fset F.IMG_STATUS.loading 0 0 0
        let s := l.targets.foldl (fun s sc => s.setScopeState sc (if awaits then 3 else 4)) s
        let s := { s with image := { s.image with
          stagedFrom := l.targets.foldl (fun t sc => tabSet 0 t sc l.serial) s.image.stagedFrom
          fullStaged := s.image.fullStaged || (l.full && !first)
          mirrorStaged := if l.targets.contains 16 then !first && l.sections.any fun e => e.1 = 10 else s.image.mirrorStaged
          cmac := if awaits then tabSet 0 s.image.cmac l.scope mac else s.image.cmac
          awaitSerial := if awaits then tabSet 0 s.image.awaitSerial l.scope l.serial else s.image.awaitSerial
          awaitLength := if awaits then tabSet 0 s.image.awaitLength l.scope l.length else s.image.awaitLength } }
        let s := if first then s.firstImage l else s
        let s := (if l.boot then s else s.imgDone l.fn imgOk 0 0).slotResult l imgOk
        s.loadRecord (if l.boot then 16 else l.fn.part) (if awaits then 0x32 else 0x30) l.scope imgOk 0 0 l.serial l.length

/-- The image has been read whole (R55): where its front has not been checked yet, that first. -/
def State.imageRead (s : State) (l : Load) (img : List Byte) : State :=
  if l.sections = [] then
    let (h, c, d) := s.headCode l img
    if c ≠ imgOk then s.loadRefused h c d 0 false
    else
      let s := s.takeBanks h
      { s with image := { s.image with load := some h } }.loadEnd h img
  else s.loadEnd l img

/-- IMG_LOAD_COMPLETE (R55): the loader has read the image's bytes. -/
def execImgLoadComplete (image : List Byte) (s : State) : Host.Outcome State Fault Refusal :=
  s.act fun s => match s.image.load with
    | some l => s.imageRead l image
    | none => s

/-- A bus or flash error ends the load, after the bytes read before it: a check that has failed on them stands (R55). -/
def State.loadError (s : State) (l : Load) (img : List Byte) : State :=
  if l.sections = [] then
    let (h, c, d) := s.headCode l img
    if c ≠ imgOk then s.loadRefused h c d 0 false
    else match s.firstBad h img h.sections 0 with
      | some (i, c) => (s.takeBanks h).loadRefused h c 0 i true
      | none => (s.takeBanks h).loadRefused h h.readError 0 0 true
  else match s.firstBad l img l.sections 0 with
    | some (i, c) => s.loadRefused l c 0 i true
    | none => s.loadRefused l l.readError 0 0 true

/-- IMG_BUS_ERROR (R55): a bus or flash error during the read. -/
def execImgBusError (read : List Byte) (s : State) : Host.Outcome State Fault Refusal :=
  s.act fun s => match s.image.load with
    | some l => s.loadError l read
    | none => s

/-- The loader ends its load with BUS_ERR at once (R541, R626, R631, R632). -/
def State.loadAbort (s : State) : State :=
  match s.image.load with
  | some l => s.loadRefused l imgBusErr 0 0 (l.sections ≠ [])
  | none => s

/-! ## DISCARD, APPROVE and restores (R57–R59, R68, R377) -/

/-- DISCARD (R57): by a restore, which another DISCARD of the scope waits for as well. One that names no scope gives SCOPE.
DESIGN CHOICE, log entry 71. -/
def State.effDiscard (s : State) (f : Func) (scope : Nat) : State :=
  let s := s.imgBegin f
  let sc := match f with | .vf n => n | _ => scope
  if 16 < sc then s.imgDone f imgScope 0 0
  else match s.scopeState sc with
    | 2 => s.imgDone f imgBusy 0 0
    | 5 => s.imgDone f imgBusy 0 0
    | 6 => s.imgDone f imgDraining sc 0
    | 3 | 4 | 7 =>
      let l := tabGet [] s.image.restoring sc
      { s with image := { s.image with restoring := tabSet [] s.image.restoring sc (if l.contains f.idx then l else l ++ [f.idx]) } }
    | _ => s.imgDone f imgOk 0 0

/-- SHADOW_RESTORE_DONE (R57, R68, R377): a DISCARD's scope, or a DRAINING one once the previous generation has drained, becomes a copy of ACTIVE
and SYNCED. The restore waits while an engine holds the bank. -/
def execShadowRestoreDone (scope : Nat) (s : State) : Host.Outcome State Fault Refusal :=
  s.act fun s =>
    let s := s.finishRestores
    let due := (tabGet [] s.image.restoring scope ≠ [] && [3, 4, 7].contains (s.scopeState scope)) ||
      (s.scopeState scope = 6 && s.flag F.IMG_STATUS.drained)
    match (if due then s.storeLatched scope (scope = 16) else none) with
    | some (c, e) => s.activeWrite c e
    | none => if due then ((s.restoreBank scope).setScopeState scope 1).finishDiscard scope else s

/-- APPROVE (R58, R59, R66). -/
def State.effApprove (s : State) (f : Func) (scope : Nat) : State :=
  let s := s.imgBegin f
  if f ≠ .pf ∧ f ≠ .console then s.imgDone f imgScope 0 0
  else if scope ≤ 16 ∧ s.scopeState scope = 5 then s.imgDone f imgBusy 0 0
  else if 16 < scope ∨ s.scopeState scope ≠ 3 then s.imgDone f imgScope 0 0
  else
    let csig := ((List.range 4).map fun i => s.fget F.IMG_CSIG.bytes 0 i * 2 ^ (32 * i)).sum
    if csig = tabGet 0 s.image.cmac scope then (s.setScopeState scope 4).imgDone f imgOk 0 0
    else
      let s := (s.setScopeState scope 7).imgDone f imgAuth 0 0
      s.loadRecord scope 0x31 scope imgAuth 0 0 (tabGet 0 s.image.awaitSerial scope) (tabGet 0 s.image.awaitLength scope)

/-! ## Fusing the key (R47) -/

/-- A write of `IMG_FKEY` stores the next key word, up to eight. -/
def State.effFkey (s : State) (v : Nat) : State :=
  let k := s.image.fkey
  { s with image := { s.image with fkey := if k.length < 8 then k ++ [v % 2 ^ 32] else k, fkeyOver := s.image.fkeyOver || decide (8 ≤ k.length) } }

/-- A write of `IMG_FUSE` starts fusing, or is counted; the word index returns to 0. -/
def State.effFuse (s : State) (f : Func) (v : Nat) : State :=
  let i := s.image
  let ok := bits v 15 0 = 0x0F05 && i.fkey.length = 8 && !i.fkeyOver && !i.fusing && !s.flag F.IMG_KEY.fused
  let s := { s with image := { i with key := if ok then i.fkey else i.key, fusing := i.fusing || ok, fkey := [], fkeyOver := false } }
  if ok then s else s.bumpSat F.IMG_REFUSED.count f.idx 0

/-- FUSE_COMPLETE: fusing sets `IMG_KEY.fused`. -/
def execFuseComplete (s : State) : Host.Outcome State Fault Refusal :=
  s.act fun s =>
    if s.image.fusing then { s with image := { s.image with fusing := false } }.fset F.IMG_KEY.fused 0 0 1 else s

end Sys2Proof.Machine
end

