-- ==== Sys2Proof/Machine/Castle.lean ====
section
/-! DEFINITION. Castling: requests and their checks, the castling time, cancellation and abort, and faults of SHADOW banks (R62–R72). -/

namespace Sys2Proof.Machine

/-! ## The state that a castling would result in (R65) -/

/-- A word of a section in the resulting state: from SHADOW in the mask's scopes, from ACTIVE in the others. -/
def State.resWord (s : State) (mask sc type idx : Nat) : Nat :=
  (tabGet 0 (s.plane sc (s.resultBank mask sc)).words (type * 2 ^ 28 + idx)).toNat

/-- The scope holds a section in the resulting state. -/
def State.resHas (s : State) (mask sc type : Nat) : Bool := (s.plane sc (s.resultBank mask sc)).present.contains type

/-- A range of indexes lies in a range; an empty one always does. -/
def rangeIn (base count first n : Nat) : Bool := n = 0 || decide (base ≤ first ∧ first + n ≤ base + count)

/-- A field of a partition's record; a disabled partition holds nothing (R100). -/
def shareOf (part : Nat → Nat) (p w hi lo : Nat) : Nat := if recOn part p then bits (part (28 * p + w)) hi lo else 0

/-- The words of a plane of a section type from an index on that are not zero, by index. -/
def Plane.indices (pl : Plane) (t first : Nat) : List Nat :=
  (pl.words.filter fun e => e.1 / 2 ^ 28 = t ∧ first ≤ e.1 % 2 ^ 28).map fun e => e.1 % 2 ^ 28

/-- The parse profiles, selector entries and profile words of a scope lie in its ranges (R174, R194, R239). -/
def State.indexesFit (s : State) (mask sc : Nat) (part : Nat → Nat) : Bool :=
  let w := s.resWord mask sc
  let pb := shareOf part sc 24 7 0
  let pc := shareOf part sc 24 16 8
  rangeIn (shareOf part sc 24 24 17) (shareOf part sc 24 33 25) (bits (w 3 20001) 7 0) (bits (w 3 20000) 8 0) &&
    rangeIn pb pc (bits (w 3 20001) 15 8) (bits (w 3 20000) 17 9) &&
    rangeIn pb pc (bits (w 4 7) 7 0) (bits (w 4 7) 16 8) &&
    rangeIn pb pc (bits (w 5 131072) 13 6) (bits (w 5 131072) 22 14)

/-- The edit programs of a scope lie in its range, and scope H's in no tenant's (R359, R375). -/
def State.programsFit (s : State) (mask sc : Nat) (part : Nat → Nat) : Bool :=
  ((s.plane sc (s.resultBank mask sc)).indices 11 200000).all fun k =>
    let i := k - 200000
    let own := fun p => inRange (shareOf part p 25 11 0) (shareOf part p 25 24 12) i
    if sc < 16 then own sc else !(List.range 16).any own

/-- The bank records of a scope, and the banks that its profile words search, are its own, and the ranks of its banks differ (R239). -/
def State.banksFit (s : State) (mask sc : Nat) (part : Nat → Nat) : Bool :=
  let pl := s.plane sc (s.resultBank mask sc)
  let own := shareOf part sc 20 31 0
  let header := fun b => (regGet pl.regs .TCM_BANK_CFG b 0).toNat
  let named := (List.range 32).filter fun b => pl.namesBank b
  named.all (fun b => bit own b) &&
    (pl.indices 5 65536).all (fun k => 65792 ≤ k || (bits (s.resWord mask sc 5 k) 31 0 &&& (2 ^ 32 - 1 - own)) = 0) &&
    noDup (((List.range 32).filter fun b => bit own b).map fun b => bits (header b) 26 22)

/-- The class records of a scope name queue sets that are its own (R327). -/
def State.classesFit (s : State) (mask sc : Nat) (part : Nat → Nat) : Bool :=
  ((s.plane sc (s.resultBank mask sc)).indices 8 0).all fun k =>
    let port := k / 16
    if sc < 16 then recOn part sc && (recExcl part sc port || recShared part sc port)
    else portHolderIn part port = 16 && bit (s.resWord mask 16 1 (128 + 8 * port)) 35 &&
      bits (s.resWord mask 16 1 (128 + 8 * port + 1)) 6 3 = k % 16

/-- The groups of a scope fit its multicast-list region (R194). -/
def State.groupsFit (s : State) (mask sc : Nat) (part : Nat → Nat) : Bool :=
  decide ((bits (s.resWord mask sc 4 6) 16 0 + 3) / 4 ≤ 1024 * shareOf part sc 22 32 22)

/-- The thread slots that change their partition are FREE or IDLE, and the static ones do not exceed the slots of ACTIVE positions (R388). -/
def State.slotsFit (s : State) (part : Nat → Nat) : Bool :=
  let now := fun w => s.pword 16 s.tagNow 2 w
  let changed := (List.range 128).filter fun t => slotPart part t ≠ slotPart now t
  let active := ((List.range 18).filter fun k => s.fget F.CCX_CORE.state k = 0).length
  changed = [] || (changed.all (fun t => s.thrState t = tFree || s.thrState t = tIdle) &&
    decide (sumOn part (fun p => bits (part (28 * p + 23)) 7 0) ≤ 8 * active))

/-- Detail 1. -/
def State.check1 (s : State) (mask : Nat) (part : Nat → Nat) : Bool :=
  (List.range 17).all (fun sc => s.indexesFit mask sc part && s.programsFit mask sc part && s.banksFit mask sc part &&
      s.classesFit mask sc part && s.groupsFit mask sc part) &&
    decide (sumOn part (fun p => bits (part (28 * p + 21)) 21 11) ≤ 512) &&
    decide (sumOn part (fun p => bits (s.resWord mask p 4 6) 16 0) ≤ 65536) && s.slotsFit part

/-! ## Tables in use (R196) -/

/-- The units below a region's end that hold something, with the prefixes in `ps`: one more than the highest block of the region in use, 0 for
none. `v` are the words of all units. -/
def extentOf (v : Tab Nat) (ps : List Prefix) (p k base size : Nat) : Nat :=
  let unit := fun u => decide (base ≤ u ∧ u < base + size)
  let used : List Nat :=
    match k with
    | 0 => if v.any fun e => unit (e.1 / 4) && bucketEntries v (e.1 / 16 * 4) ≠ [] then [base + size - 1] else []
    | 1 => (ps.filter fun e => e.part = p).flatMap fun e => e.units.filter unit
    | _ => (v.filter fun e => unit (e.1 / 4)).map fun e => e.1 / 4
  used.foldl (fun n u => max n ((u - base) / 1024 + 1)) 0

/-- The blocks of a region in use as every accepted command leaves it. -/
def State.regionExtent (s : State) (p k : Nat) : Nat :=
  let r := s.region s.tagNow p k
  extentOf s.pendView s.pendPrefixes p k r.1 r.2

/-- A region in the resulting state, in units. -/
def State.resRegion (s : State) (mask : Nat) (part : Nat → Nat) (p k : Nat) : Nat × Nat :=
  if s.resHas mask p 4 ∧ recOn part p then
    (1024 * bits (s.resWord mask p 4 k) 10 0, 1024 * regionBlocks (part (28 * p + 21)) (part (28 * p + 22)) k)
  else (0, 0)

/-- The tables: a partition and a region each. -/
def allRegions : List (Nat × Nat) := (List.range 17).flatMap fun p => (List.range 5).map fun k => (p, k)

/-- Detail 2: no table that holds entries is moved, or shrunk below its extent. DEDUCED, log entry 27. -/
def State.check2 (s : State) (mask : Nat) (part : Nat → Nat) : Bool :=
  allRegions.all fun (p, k) =>
    let old := s.region s.tagNow p k
    let new := s.resRegion mask part p k
    let n := s.regionExtent p k
    old = new || n = 0 || (k ≠ 0 && old.1 = new.1 && decide (1024 * n ≤ new.2))

/-- Detail 3: the regions lie in the table pool, and none overlaps another table of either generation (R194). DEDUCED, log entry 27. -/
def State.check3 (s : State) (mask : Nat) (part : Nat → Nat) : Bool :=
  allRegions.all fun a =>
    let r := s.resRegion mask part a.1 a.2
    r.2 = 0 || (decide (r.1 + r.2 ≤ 1592 * 1024) && allRegions.all fun b =>
      a = b || !(rangesMeet r (s.resRegion mask part b.1 b.2) || rangesMeet r (s.region s.tagNow b.1 b.2)))

/-! ## Banks, ports, gates and queue sets -/

/-- The header of a bank in the resulting state. -/
def State.resHeader (s : State) (mask p b : Nat) : Nat :=
  fldGet (s.rdPlane p (s.resultBank mask p) .TCM_BANK_CFG b) 35 0

/-- Detail 4: no bank whose owner, width code or mode changes holds a valid entry (R65, R239). -/
def State.check4 (s : State) (mask : Nat) : Bool :=
  (List.range 32).all fun b =>
    let old := s.bankOwner b
    let new := s.resultOwner mask b
    (old = new && match old with
      | some p => bits (s.bankHeader s.tagNow p b) 34 32 = bits (s.resHeader mask p b) 34 32
      | none => true) || s.bankEmpty b

/-- The words of scope H's record in force differ from those in the resulting state. -/
def State.resDiffers (s : State) (mask type idx : Nat) : Bool := decide (s.resWord mask 16 type idx ≠ s.pword 16 s.tagNow type idx)

/-- Detail 5: every port whose mode, macro record or holder changes is ABSENT or administratively disabled. -/
def State.check5 (s : State) (mask : Nat) (part : Nat → Nat) : Bool :=
  (List.range 256).all fun p =>
    !(bit (s.resWord mask 16 1 (128 + 8 * p)) 35 || s.portValid p) || s.portState p = pAbsent || !s.portAdmin p ||
    !(s.resDiffers mask 1 (128 + 8 * p) || (List.range 4).any (fun w => s.resDiffers mask 1 (4 * (p / 8) + w)) ||
      portHolderIn part p ≠ s.portHolder p)

/-- A plane holds a gate control list of a port: one that its GCL section gave, or that a write of its registers or entries has begun. -/
def Plane.hasGcl (pl : Plane) (p : Nat) : Bool :=
  (pl.words.any fun e => e.1 / 2 ^ 28 = 9 ∧ (e.1 % 2 ^ 28 = 65536 + p ∨ e.1 % 2 ^ 28 / 256 = p)) ||
    [Reg.GTE_CTL, .GTE_BASE, .GTE_CYCLE].any fun r => (tabFind pl.regs (regKey r p 0)).isSome

/-- Detail 6: tenants' gate control lists, and the gates of stream filters, lie on ports that are theirs to name. DEDUCED, log entry 27. -/
def State.check6 (s : State) (mask : Nat) (part : Nat → Nat) : Bool :=
  (List.range 17).all fun sc =>
    let pl := s.plane sc (s.resultBank mask sc)
    (sc = 16 || (List.range 256).all fun p =>
      !pl.hasGcl p || (recOn part sc && recExcl part sc p)) &&
    (List.range 255).all fun f =>
      let w := s.resWord mask sc 6 (4096 + 2 * (f + 1))
      !(bit w 35 && bit w 33) || filterPortOk part sc (bits w 29 22)

/-- Detail 7: scope H has every required type, and a staged full image is castled whole (R48). -/
def State.check7 (s : State) (mask : Nat) : Bool :=
  secRequired.all (fun t => s.resHas mask 16 t) && (!s.image.fullStaged || mask % 2 ^ 17 = 2 ^ 17 - 1)

/-- The partition of a queue set (R13, R102, R280); 31 for none. -/
def setPartIn (part : Nat → Nat) (owner : Nat) (port set : Nat) : Nat :=
  if recOn part set ∧ (recExcl part set port ∨ recShared part set port) then set
  else if portHolderIn part port = 16 ∧ owner = set then 16 else 31

/-- Detail 8: no queue set that changes partition holds a frame. -/
def State.check8 (s : State) (mask : Nat) (part : Nat → Nat) : Bool :=
  s.queues.all fun e =>
    let port := e.1 / 128
    let set := e.1 / 8 % 16
    (e.2.head = [] && e.2.deep = [] && e.2.pend = []) ||
      setPartIn part (bits (s.resWord mask 16 1 (128 + 8 * port + 1)) 6 3) port set =
        setPartIn (fun w => s.pword 16 s.tagNow 2 w) (s.ownerSet s.tagNow port) port set

/-- Detail 9: no `owner_set` equals the number of a tenant that shares the port. -/
def State.check9 (s : State) (mask : Nat) (part : Nat → Nat) : Bool :=
  (List.range 256).all fun p =>
    let w := s.resWord mask 16 1 (128 + 8 * p)
    let o := bits (s.resWord mask 16 1 (128 + 8 * p + 1)) 6 3
    !(bit w 35 && recOn part o && recShared part o p)

/-- The lowest-numbered consistency check that fails; 0 for none (R65). -/
def State.conflict (s : State) (mask : Nat) : Nat :=
  let part := s.resWord mask 16 2
  if !s.check1 mask part then 1
  else if !s.check2 mask part then 2
  else if !s.check3 mask part then 3
  else if !s.check4 mask then 4
  else if !s.check5 mask part then 5
  else if !s.check6 mask part then 6
  else if !s.check7 mask then 7
  else if !s.check8 mask part then 8
  else if !s.check9 mask part then 9
  else 0

/-! ## Requests (R63, R64) -/

/-- The scopes of a mask. -/
def scopesOf (mask : Nat) : List Nat := (List.range 17).filter fun sc => bit mask sc

/-- CASTLE: the request's checks begin, or it is refused at once while another is pending or being checked. A VF's mask is its own scope. -/
def State.effCastle (s : State) (f : Func) : State :=
  let s := s.imgBegin f
  if s.image.castle.isSome then s.imgDone f imgBusy 0 0
  else
    let mask := match f with | .vf n => 2 ^ n | _ => s.fget F.IMG_CASTLE_MASK.scopes f.idx
    { s with image := { s.image with castle := some { fn := f, mask := mask, time := (s.rd .IMG_CASTLE_AT f.idx).toNat, accepted := false } } }

/-- The result of a request's checks, in the order of R64; a STAGED scope that a DISCARD is restoring is not approved.
DESIGN CHOICE, log entry 71. -/
def State.castleCode (s : State) (c : Castle) : Nat × Nat :=
  let t := s.timeAt (BitVec.ofNat 72 c.time)
  let ms := 1000000 * 2 ^ 48
  if !s.flag F.IMG_STATUS.drained then (imgDraining, 0)
  else if !(scopesOf c.mask).all fun sc => (s.scopeState sc = 4 && tabGet [] s.image.restoring sc = []) || s.scopeState sc = 1 then
    (imgNotApproved, 0)
  else if 999999999 < bits c.time 35 6 ∨ t < s.time.now + ms then (imgTooSoon, 0)
  else if s.time.now + 60000 * ms < t then (imgFar, 0)
  else if s.flt.promos ≠ [] then (imgBenchBusy, 0)
  else if s.flag F.AON_STATUS.safe_global then (imgAbortFault, 0)
  else
    let d := s.conflict c.mask
    if d = 0 then (imgOk, 0) else (imgConflict, d)

/-- A castling record, to the requester's image ring and the owner's (R72, R73). -/
def State.castleRecord (s : State) (f : Func) (code result mask stamp : Nat) (tail : Bool) : State :=
  let r : Record := { code := code, unit := 0xC30, stamp := stamp, p3 := result, p6 := mask }
  let s := s.emitBoth f.part clsImage r
  if tail then s.tailRecord f.part r else s

/-- CASTLE_CHECK_DONE (R64, R65, R72): the request is accepted, or refused and nothing changes. -/
def execCastleCheckDone (s : State) : Host.Outcome State Fault Refusal :=
  s.act fun s => match s.image.castle with
    | some c =>
      if c.accepted then s
      else
        let (code, d) := s.castleCode c
        if code ≠ imgOk then { s with image := { s.image with castle := none } }.imgDone c.fn code d 0
        else
          let t := s.timeAt (BitVec.ofNat 72 c.time)
          let s := { s with image := { s.image with castle := some { c with accepted := true, time := t } } }
          let s := (scopesOf c.mask).foldl (fun s sc => s.setScopeState sc 5) s
          let s := s.fset F.IMG_STATUS.castle_pending 0 0 1
          (s.castleRecord c.fn 0x33 imgOk c.mask s.stamp false).imgDone c.fn imgOk 0 0
    | none => s

/-! ## The castling time (R66, R67) -/

/-- The enables that R66 stored take effect with a cause of PORT_STATE. DEDUCED, log entry 27. -/
def State.takeEnables (s : State) (cause : Nat) : State :=
  let ps := s.image.storedEnables
  ps.foldl (fun s p => if s.portAdmin p then s.portEnable p cause else s) { s with image := { s.image with storedEnables := [] } }

/-- A port whose mode a castling of scope H changes goes on from DISABLED or ABSENT with its new record (R116): a lane that is no port's
lowest any more is DISABLED, a port with `media` 0 is present, and an enabled port that was none before begins its enable.
DEDUCED, log entry 27. -/
def State.takeMode (s : State) (p : Nat) : State :=
  let s := s.modPort p fun q => { q with bringup := 0, missed := 0 }
  if !s.portValid p then s.portTo p pDisabled 14
  else if s.portState p = pAbsent then
    if s.portMedia p = 0 then s.portPresent p 14
    else if bit (s.portRec p) 17 ∧ s.flag F.MAC_MOD.present_sw p then s.presenceSeen p else s
  else if s.portAdmin p then s.portEnable p 14 else s

/-- The ports whose modes a castling of scope H has changed; `mm_cap` is part of the mode (R143). -/
def State.takeModes (s : State) : State :=
  let new := (s.plane 16 (s.scope 16).active).words
  let old := (s.plane 16 (s.scope 16).old).words
  ((List.range 256).filter fun p => modeDiffers old new p).foldl (fun s p => (s.takeMode p).refreshMm p false) s

/-- The banks of the mask's scopes swap, and both tags of the others name their ACTIVE banks (R39, R67). -/
def State.swapBanks (s : State) (mask : Nat) : State :=
  (List.range 17).foldl (fun s sc =>
    let a := s.activeOf sc
    let new : Scope := if bit mask sc then { active := 1 - a, old := a } else { active := a, old := a }
    { s with image := { s.image with scopes := tabSet {} s.image.scopes sc new } }) s

/-- What a castling of scope H applies at the castling time (R103, R141, R268, R289, R387, R469, R545). -/
def State.applyH (s : State) : State :=
  let s := (s.takeSafe).takeSlots.refreshHeadroom
  let s := if s.image.mirrorStaged then s.takeMirror else s
  let s := { s with image := { s.image with mirrorStaged := false } }
  (List.range 8).foldl (fun s l => if s.holderOf l < 16 ∧ !s.partEnabled (s.holderOf l) then s.releaseLane l else s) s

/-- The meters of the mask's scopes that a castling makes valid start with both buckets full (R179): what was kept of them goes. -/
def State.freshMeters (s : State) (mask : Nat) : State :=
  { s with buckets := s.buckets.filter fun e =>
      let t := e.1 / 1024 % 32
      !(decide (e.1 < 2 ^ 24) && bit mask t && !bit (s.pword t (1 - s.tagNow) 6 (e.1 % 1024 * 4)) 35) }

/-- The castling takes place. -/
def State.doCastle (s : State) (c : Castle) : State :=
  let s := (s.swapBanks c.mask).fset F.IMG_GEN.gen 0 0 ((s.fget F.IMG_GEN.gen + 1) % 65536)
  let s := s.fset F.IMG_GEN.tag 0 0 (1 - s.tagNow)
  let s := (scopesOf c.mask).foldl (fun s sc => s.setScopeState sc 6) s
  let s := (scopesOf c.mask).foldl (fun s sc =>
    match tabFind s.image.stagedFrom sc with
    | some n =>
      let s := s.fset F.IMG_ACT_SERIAL.serial sc 0 n
      if sc = 16 then s.fset F.IMG_ACT_SERIAL.serial 17 0 n else s
    | none => s) s
  let s := { s with image := { s.image with castle := none, fullStaged := false } }
  let s := (s.fset F.IMG_STATUS.castle_pending 0 0 0).fset F.IMG_STATUS.drained 0 0 0
  let s := s.freshMeters c.mask
  let s := if bit c.mask 16 then s.applyH.takeModes else s
  let s := s.takeEnables 14
  (s.castleRecord c.fn 0x34 imgOk c.mask (stampOf c.time) true).refreshOld

/-- CASTLING_TIME (R67): device time reaches the castling time. -/
def execCastlingTime (s : State) : Host.Outcome State Fault Refusal :=
  s.act fun s => match s.image.castle with
    | some c => if c.accepted then (s.reach c.time).doCastle c else s
    | none => s

/-! ## Cancellation and abort (R69, R70) -/

/-- A pending castling ends without taking place: `bad` is the scope whose SHADOW bank failed. -/
def State.endCastle (s : State) (c : Castle) (result : Nat) (bad : Option Nat) : State :=
  let s := { s with image := { s.image with castle := none } }.fset F.IMG_STATUS.castle_pending 0 0 0
  let s := (scopesOf c.mask).foldl (fun s sc => s.setScopeState sc (if bad = some sc then 7 else 4)) s
  (s.castleRecord c.fn 0x35 result c.mask s.stamp true).takeEnables 1

/-- A castling that is pending is aborted with ABORT_FAULT (R70): the CASTLE command itself completed at its acceptance.
DEDUCED, log entry 27. -/
def State.castleAbort (s : State) (bad : Option Nat := none) : State :=
  match s.image.castle with
  | some c =>
    if c.accepted then s.endCastle c imgAbortFault bad else s
  | none => s

/-- CANCEL (R69). DEDUCED, log entry 27. -/
def State.effCancel (s : State) (f : Func) : State :=
  let s := s.imgBegin f
  match s.image.castle with
  | some c =>
    if !c.accepted then s.imgDone f imgNoCastling 0 0
    else if (match f with | .vf _ => decide (f ≠ c.fn) | _ => false) then s.imgDone f imgScope 0 0
    else if c.time < s.time.now + 100000 * 2 ^ 48 then s.imgDone f imgCancelLate 0 0
    else (s.endCastle c imgOk none).imgDone f imgOk 0 0
  | none => s.imgDone f imgNoCastling 0 0

/-- An uncorrectable error in the SHADOW bank of a scope: the scope becomes INVALID, and a castling that names it is aborted (R62, R70). -/
def State.shadowError (s : State) (sc : Nat) : State :=
  match s.scopeState sc with
  | 1 | 3 | 4 => s.setScopeState sc 7
  | 5 => s.castleAbort (some sc)
  | _ => s

end Sys2Proof.Machine
end

