-- ==== Sys2Proof/Machine/Counters.lean ====
section
/-! DEFINITION. Counter banks, views, snapshots and the switch of packet tracing (R508–R525). -/

namespace Sys2Proof.Machine

/-! ## Banks (R508) -/

/-- Counters of a bank; 0 for an index that is not listed. -/
def bankCount (b : Nat) : Nat :=
  if b < 0x100 then 32
  else if b < 0x104 then 16
  else if 0x110 ≤ b ∧ b < 0x121 then 16
  else if 0x130 ≤ b ∧ b < 0x141 then 16
  else if 0x150 ≤ b ∧ b < 0x161 then 16
  else if 0x170 ≤ b ∧ b < 0x181 then 16
  else if 0x190 ≤ b ∧ b < 0x1A1 then 8
  else if 0x1B0 ≤ b ∧ b < 0x1C1 then 1
  else if 0x1D0 ≤ b ∧ b < 0x1E1 then 8
  else if 0x1F0 ≤ b ∧ b < 0x201 then 16
  else if 0x210 ≤ b ∧ b < 0x214 then 8
  else if 0x220 ≤ b ∧ b < 0x240 then 8
  else if 0x240 ≤ b ∧ b < 0x290 then 8
  else if 0x290 ≤ b ∧ b < 0x298 then 8
  else if b = 0x2A0 then 8
  else if 0x2B0 ≤ b ∧ b < 0x2B8 then 2
  else if b = 0x2C0 then 6
  else if 0x300 ≤ b ∧ b < 0x400 then 128
  else 0

/-- Every bank index listed. -/
def allBanks : List Nat := (List.range 0x400).filter fun b => bankCount b ≠ 0

/-- Energy of a rail in nJ and its charge in nC (R523). They stand in rows 18–25 of the balance banks. -/
def State.rail (s : State) (r i : Nat) : Nat := s.bal (18 + r) i

/-- A counter of a partition's balance bank (R520): the in-flight numbers are those of R290 and R303. -/
def State.balance520 (s : State) (p i : Nat) : Nat :=
  match i with
  | 11 => (s.inflight p).1
  | 12 => (s.inflight p).2
  | 13 => (s.deepInflight p).1
  | 14 => (s.deepInflight p).2
  | _ => s.bal p i

/-- A counter of the device bank (R524). -/
def State.deviceCount (s : State) (i : Nat) : Nat :=
  match i with
  | 0 => ((List.range 256).map fun n => s.fget F.MAC_CNT.count n 16).sum % 2 ^ 72
  | 1 => ((List.range 256).map fun n => s.fget F.MAC_CNT.count n 15).sum % 2 ^ 72
  | 2 => ((List.range 8).map fun r => s.rail r 0).sum % 2 ^ 72
  | _ => s.bal 17 i

/-- The live value of counter `i` of a bank. -/
def State.bankLive (s : State) (b i : Nat) : Nat :=
  if bankCount b ≤ i then 0
  else if b < 0x100 then if i = 29 then s.heldUs b else s.fget F.MAC_CNT.count b i
  else if b < 0x110 then s.fget F.SPR_CNT.count (b - 0x100) i
  else if b < 0x130 then s.fget F.PRS_CNT.count (b - 0x110) i
  else if b < 0x150 then s.fget F.TBL_CNT.count (b - 0x130) i
  else if b < 0x170 then s.fget F.SWC_CNT.count (b - 0x150) i
  else if b < 0x190 then s.fget F.BPM_CNT.count (b - 0x170) i
  else if b < 0x1B0 then s.fget F.HBC_CNT.count (b - 0x190) i
  else if b < 0x1D0 then s.fget F.RWE_PCNT.count (b - 0x1B0) i
  else if b < 0x1F0 then s.fget F.CCX_CNT.count (b - 0x1D0) i
  else if b < 0x210 then s.balance520 (b - 0x1F0) i
  else if b < 0x220 then s.fget F.HBC_SCNT.count (b - 0x210) i
  else if b < 0x240 then s.fget F.RWE_CNT.count (b - 0x220) i
  else if b < 0x290 then s.fget F.DMA_CH_CNT.count (b - 0x240) i
  else if b < 0x2A0 then s.fget F.CPH_CNT.count (b - 0x290) i
  else if b < 0x2B0 then s.fget F.TIM_CNT.count 0 i
  else if b < 0x2C0 then s.rail (b - 0x2B0) i
  else if b < 0x300 then s.deviceCount i
  else s.fget F.SCH_CNT.count ((b - 0x300) * 16 + i / 8) (i % 8)

/-- The block whose registers a bank's counters are, by the numbers of `GLB_BRESET`; none for the gatherer's own (R515, R632). -/
def bankBlock (b : Nat) : Option Nat :=
  if b < 0x100 then some 2
  else if b < 0x110 then some 4
  else if b < 0x130 then some 3
  else if b < 0x150 then some 5
  else if b < 0x170 then some 7
  else if b < 0x190 then some 8
  else if b < 0x1B0 then some 9
  else if b < 0x1D0 then some 12
  else if b < 0x1F0 then some 13
  else if b < 0x210 then none
  else if b < 0x220 then some 9
  else if b < 0x240 then some 12
  else if b < 0x290 then some 14
  else if b < 0x2A0 then some 15
  else if b < 0x2B0 then some 16
  else if b < 0x300 then none
  else some 10

/-! ## Views (R510, R511) -/

/-- The part of a bank that a function's view holds: the first counter and how many. -/
def State.viewOf (s : State) (f : Func) (b : Nat) : Nat × Nat :=
  let n := bankCount b
  match f with
  | .vf v =>
    let mine := (b < 0x100 ∧ s.holdsPort v b) ∨
      b ∈ [0x110 + v, 0x130 + v, 0x150 + v, 0x170 + v, 0x190 + v, 0x1B0 + v, 0x1D0 + v, 0x1F0 + v] ∨
      (0x240 ≤ b ∧ b < 0x290 ∧ chanPart (b - 0x240) = v ∧ s.chanOn (b - 0x240)) ∨
      (0x290 ≤ b ∧ b < 0x298 ∧ s.holderOf (b - 0x290) = v) ∨ b = 0x2A0
    if mine then (0, n)
    else if 0x300 ≤ b ∧ b < 0x400 ∧ s.holdsSet v (b - 0x300) then (8 * v, 8)
    else (0, 0)
  | _ => (0, n)

/-- The banks of a function's view, each with its first open counter and their number. -/
def State.view (s : State) (f : Func) : List (Nat × Nat × Nat) :=
  (allBanks.map fun b => (b, s.viewOf f b)).filter fun e => e.2.2 ≠ 0

/-- Bytes of a function's view (R516). -/
def viewBytes (v : List (Nat × Nat × Nat)) : Nat := 64 + (v.map fun e => 16 + 16 * e.2.2).sum

/-- What `CNT_ENTRY`*i* reads (R511). -/
def State.entryRead (s : State) (f : Func) (b i : Nat) : Nat :=
  if s.flag F.CNT_VIEW.shadow f.idx then (if i < bankCount b then tabGet 0 s.snap.shadow (b * 128 + i) else 0) else s.bankLive b i

/-! ## Snapshots (R512–R519) -/

/-- The snapshot destination of a function. -/
def State.snapDst (s : State) (i : Nat) : Nat := s.fget F.CNT_SNAP_DST.addr i / 64 * 64

/-- The destination is no host, CMEM or BUFFER address, or a CMEM range beyond reach (R512). -/
def State.snapRange (s : State) (f : Func) : Bool :=
  match s.spaceOf f.part (s.snapDst f.idx) with
  | .host _ => false
  | .cmem a => !s.cmemReach f.part a (viewBytes (s.view f))
  | .buffer _ _ => false
  | _ => true

/-- Answer a snapshot request. -/
def State.snapAnswer (s : State) (i code : Nat) : State :=
  (s.fset F.CNT_SNAP_RES.done i 0 1).fset F.CNT_SNAP_RES.code i 0 code

/-- A function takes part in the snapshot. -/
def State.snapJoin (s : State) (i : Nat) : State :=
  let s := { s with snap := { s.snap with parts := s.snap.parts ++ [i] } }
  ((((s.fset F.CNT_SNAP_RES.done i 0 0).fset F.CNT_SNAP_RES.seq i 0 s.snap.seq).fset F.CNT_SNAP_RES.pending i 0 1).fset
    F.CNT_SNAP_RES.code i 0 0)

/-- SNAP (R512); a fenced gatherer refuses as BUSY (R531). -/
def State.snapReq (s : State) (f : Func) : State :=
  let i := f.idx
  let v := s.rd .CNT_SNAP_AT i
  let t := s.timeAt v
  let denied := match f with | .vf n => !bit (s.fget F.CNT_CFG.vf_snap) n | _ => false
  if denied then s.snapAnswer i 4
  else if s.snap.time.isSome ∨ s.flt.fenced.contains 0xC20 then s.snapAnswer i 1
  else if t < s.time.now + 2000 * 2 ^ 48 ∨ 999999999 < s.fget F.CNT_SNAP_AT.ns i then s.snapAnswer i 2
  else if s.time.now + 10 * secUnits < t then s.snapAnswer i 3
  else if s.fget F.CNT_SNAP_LEN.bytes i < viewBytes (s.view f) then s.snapAnswer i 5
  else if s.snapRange f then s.snapAnswer i 6
  else
    let s := { s with snap := { s.snap with time := some t, parts := [], captured := false, seq := (s.snap.seq + 1) % 4096 } }
    (s.wr .CNT_SNAP_TIME 0 0 (BitVec.ofNat 72 (stampOf t))).snapJoin i

/-- JOIN (R513). -/
def State.snapJoinReq (s : State) (f : Func) : State :=
  let i := f.idx
  match s.snap.time with
  | none => s.snapAnswer i 11
  | some t =>
    if s.snap.captured then s.snapAnswer i 11
    else if t < s.time.now + 2000 * 2 ^ 48 then s.snapAnswer i 2
    else if s.snap.parts.contains i then s.snapAnswer i 1
    else if s.fget F.CNT_SNAP_LEN.bytes i < viewBytes (s.view f) then s.snapAnswer i 5
    else if s.snapRange f then s.snapAnswer i 6
    else s.snapJoin i

/-- A write of `CNT_SNAP_CTL`. -/
def State.effSnapCtl (s : State) (f : Func) (v : Nat) : State :=
  match bits v 1 0 with
  | 1 => s.snapReq f
  | 2 => s.snapJoinReq f
  | _ => s

/-- Every bank as its shadow holds it: zeros where its block is in block reset (R514, R515). -/
def State.captureBanks (s : State) : Tab Nat :=
  allBanks.flatMap fun b =>
    if (bankBlock b).any fun k => s.held.contains k then []
    else ((List.range (bankCount b)).map fun i => (b * 128 + i, s.bankLive b i)).filter fun e => e.2 ≠ 0

/-- SNAP_CAPTURE (R514): at the snapshot time every bank copies itself into its shadow. -/
def execSnapCapture (s : State) : Host.Outcome State Fault Refusal :=
  s.act fun s =>
    match s.snap.time with
    | none => s
    | some t =>
      if s.snap.captured then s
      else
        let s := s.reach t
        { s with snap := { s.snap with
          captured := true, shadow := s.captureBanks, gen := s.fget F.IMG_GEN.gen
          flags := allBanks.filter fun b => (bankBlock b).any fun k => s.held.contains k } }

/-- Words as 8-byte little-endian slots. -/
def slotBytes (ws : List Nat) : List Byte := ws.flatMap fun w => bytesLE 8 (w % 2 ^ 36)

/-- One bank as it is gathered: its header and its open counters (R516). -/
def State.bankBytes (s : State) (b first n : Nat) : List Byte :=
  let h := b + n * 2 ^ 12 + first * 2 ^ 20 + (if s.snap.flags.contains b then 2 ^ 27 else 0)
  slotBytes ([h, 0] ++ (List.range n).flatMap fun i =>
    let v := tabGet 0 s.snap.shadow (b * 128 + first + i)
    [v % 2 ^ 36, v / 2 ^ 36])

/-- A function's snapshot as it is gathered. -/
def State.snapBytes (s : State) (f : Func) (t : Nat) (v : List (Nat × Nat × Nat)) : List Byte :=
  slotBytes [2 ^ 32 + f.part * 2 ^ 16 + s.snap.seq, stampOf t % 2 ^ 36, stampOf t / 2 ^ 36, v.length, (v.map fun e => e.2.2).sum,
             viewBytes v, s.snap.gen, 0] ++ v.flatMap fun e => s.bankBytes e.1 e.2.1 e.2.2

/-- A SNAP_DONE record and its result (R518, R529). -/
def State.snapDone (s : State) (i code stamp bytes banks : Nat) : State :=
  let s := s.emitPart (funcOf i).part clsCounter
    { code := 0x78, unit := 0xC20, stamp := stamp, p3 := code + s.snap.seq * 2 ^ 6, p4 := bytes, p5 := banks }
  (s.snapAnswer i code).fset F.CNT_SNAP_RES.pending i 0 0

/-- How many of `n` bytes reach a place in order, in whole slots, before a write fails (R517). DEDUCED, log entry 57. -/
def State.slotsWritten (s : State) (p : Nat) (sp : Space) (n : Nat) : Nat :=
  if (s.spaceError p sp 0 n).code = 0 then n
  else 8 * (((List.range (n / 8)).reverse.find? fun k => (s.spaceError p sp 0 (8 * k)).code = 0).getD 0)

/-- The banks of a view that the first `n` bytes of it hold whole. -/
def banksWritten (v : List (Nat × Nat × Nat)) (n : Nat) : Nat :=
  (v.foldl (fun (a : Nat × Nat) e => (a.1 + 16 + 16 * e.2.2, if a.1 + 16 + 16 * e.2.2 ≤ n then a.2 + 1 else a.2)) (64, 0)).2

/-- The view of the next participant of the snapshot is gathered to its destination; what was written before a write that fails stands
(R516, R517). DEDUCED, log entry 57. -/
def State.gatherNext (s : State) : State :=
  match s.snap.time, s.snap.parts with
  | some t, i :: rest =>
    if !s.snap.captured then s
    else
      let f := funcOf i
      let v := s.view f
      let n := viewBytes v
      let sp := s.spaceOf f.part (s.snapDst i)
      let e := s.spaceError f.part sp 0 n
      let code := match e.code with | 0 => 0 | 6 => 7 | 7 => 8 | 9 => 9 | _ => 6
      let m := s.slotsWritten f.part sp n
      let s := (s.spaceWrite f.part sp 0 ((s.snapBytes f t v).take m)).countRefusal f.part e
      let s := match e.handle with | some h => s.badHandle 0xC20 0 h | none => s
      let s := s.snapDone i code (stampOf t) m (banksWritten v m)
      { s with snap := { s.snap with parts := rest, time := if rest = [] then none else some t } }
  | _, _ => s

/-- GATHER_DONE (R516–R518): the first participant's share has been written. -/
def execGatherDone (s : State) : Host.Outcome State Fault Refusal := s.act fun s => s.gatherNext

/-- A snapshot pending or being gathered is aborted (R519): each participant receives ABORTED. -/
def State.snapAbort (s : State) : State :=
  let s := s.snap.parts.foldl (fun s i => s.snapDone i 10 s.stamp 0 0) s
  { s with snap := { s.snap with time := none, parts := [], captured := false } }

/-- A function-level reset withdraws a VF from a snapshot without a record (R519). -/
def State.snapWithdraw (s : State) (i : Nat) : State :=
  if s.snap.parts.contains i then
    let rest := s.snap.parts.filter (· ≠ i)
    { s with snap := { s.snap with parts := rest, time := if rest = [] then none else s.snap.time } }
  else s

/-! ## Tracing and energy -/

/-- After a write of `CNT_TRACE`: setting `en` reseeds the LFSR (R525). -/
def State.effCntTrace (s : State) (was : Bool) : State :=
  if s.flag F.CNT_TRACE.en ∧ !was then
    let s := { s with trace := { s.trace with lfsr := 0x5AC3E1 } }
    { s with trace := { s.trace with gap := s.traceGap } }
  else s

end Sys2Proof.Machine
end

