-- ==== Sys2Proof/Machine/Rest.lean ====
section
/-! DEFINITION. Changes of power state: their record, entry to REST and its end (R562, R563, R567–R571, R573, R574, R590). -/

namespace Sys2Proof.Machine

/-! ## The real-time counter (R580) -/

/-- The real-time counter, in ticks of 2⁻¹⁵ s. -/
def State.rtc (s : State) : Nat := (s.rd .AON_RTC).toNat % 2 ^ 63

/-- Ticks since an earlier value of the counter. -/
def State.rtcSince (s : State) (t : Nat) : Nat := (s.rtc + 2 ^ 63 - t) % 2 ^ 63

/-! ## Power states -/

/-- Change the power state's part beside the registers. -/
def State.modPower (s : State) (g : PowerSt → PowerSt) : State := { s with power := g s.power }

/-- The power state by its code (R562). -/
def State.pstate (s : State) : Nat := s.fget F.AON_STATUS.pstate

/-- Codes of R562. -/
def psService : Nat := 0
def psDoze : Nat := 1
def psRest : Nat := 2
def psStandby : Nat := 3

/-- The PWR_STATE record of a change (R574, R590): into the tailings log, and to the rings, but for STANDBY; the record of a STANDBY exit waits
until the main domains forward. -/
def State.pwrRecord (s : State) (old new cause : Nat) : State :=
  let ms := min (s.rtcSince s.power.since * 1000 / 32768) 0xFFFFFFFF
  let r : Record := { code := 0x88, unit := 0xF00, stamp := s.stamp, p3 := old + new * 4 + cause * 16,
                      p4 := s.fget F.AON_WAKE.cause, p5 := ms }
  let s := s.tailRecord 16 r
  if new = psStandby then s
  else if old = psStandby then (s.modPower fun p => { p with exitRec := some r })
  else s.emitPart 16 clsFault r

/-- The power state is another from now on. DEDUCED, log entry 23. -/
def State.setPstate (s : State) (new : Nat) : State :=
  (s.fset F.AON_STATUS.pstate 0 0 new).modPower fun p => { p with since := s.rtc }

/-- A change of power state with its record. -/
def State.pwrTo (s : State) (new cause : Nat) : State := (s.pwrRecord s.pstate new cause).setPstate new

/-- A change is in progress, or no longer (R588). -/
def State.setMoving (s : State) (on : Bool) : State := s.fset F.PWR_STATUS.moving 0 0 (if on then 1 else 0)

/-- The last write of `target` completes with a result (R566, R588). -/
def State.targetDone (s : State) (code : Nat) : State := (s.fset F.PWR_STATUS.done 0 0 1).fset F.PWR_STATUS.result 0 0 code

/-! ## Wakes (R580) -/

/-- REST begins to end for the causes of a wake. -/
def State.leaveRest (s : State) (causes : Nat) : State :=
  ((s.fset F.AON_WAKE.cause 0 0 causes).setMoving true).modPower fun p => { p with leaving := true, wake := 0 }

/-! ## REST entry (R568) -/

/-- The table engine completes every command accepted, and answers those not yet accepted with BUSY. -/
def State.flushTables (s : State) : State :=
  let s := s.commitAll
  let w := s.tbl.waiting
  w.foldl (fun s r => s.complete r 1 0 false [] false) { s with tbl := { s.tbl with waiting := [] } }

/-- The gathering under way completes. -/
def State.finishGather (s : State) : State :=
  if s.snap.captured then s.snap.parts.foldl (fun s _ => s.gatherNext) s else s

/-- The core, HBM and lane-macro PLLs run locked, or are off (R567, R569). -/
def State.plls (s : State) (on : Bool) : State :=
  let b := if on then 1 else 0
  ((s.fset F.PWR_CLK.core_lock 0 0 b).fset F.PWR_CLK.hbm_lock 0 0 b).fset F.PWR_CLK.lane_lock 0 0 (b * (2 ^ 32 - 1))

/-- Device time and the counter are stored. -/
def State.storeTime (s : State) : State :=
  s.modPower fun p => { p with entering := false, restTime := s.time.now, restRtc := s.rtc }

/-- A wake that came during entry begins the exit. -/
def State.wakeKept (s : State) : State := if s.power.wake ≠ 0 then s.leaveRest s.power.wake else s

/-- Entry ends: lock ends, device time is stored, the PLLs stop; a wake that came meanwhile begins the exit. -/
def State.restEnter (s : State) : State :=
  let s := (((s.flushTables).finishGather).endLock 6).storeTime
  (((((s.plls false).setPstate psRest).setMoving false).targetDone 0).refreshPps).wakeKept

/-! ## REST exit (R569–R571) -/

/-- A thread's timer over the time spent in REST, in core clocks: expired, or resumed with the time that remains. -/
def State.restTimer (s : State) (t clocks : Nat) : State :=
  match (s.thr t).timer with
  | none => s
  | some e =>
    if e ≤ s.time.cycles + clocks then (s.modThr t fun h => { h with timer := none }).setEvents t (2 ^ 8)
    else s.modThr t fun h => { h with timer := some (e - clocks) }

/-- At least `min_awake` slices of a group are ACTIVE. -/
def State.restSlices (s : State) (g : Nat) : State :=
  let need := s.minAwake g - (s.slicesIn g slActive).length
  (((s.slicesIn g slAsleep).take need).foldl (fun s n => s.setSlice g n slActive) s).showGroup g

/-- Device time is the time stored plus the counter's ticks since (R570). -/
def State.reloadTime (s : State) (ticks : Nat) : State :=
  { s.modPower fun p => { p with leaving := false } with
    time := { s.time with now := wrapTime (s.power.restTime + ticks * (secUnits / 32768)) } }

/-- Exit ends: device time is reloaded, slices and threads resume, and the state is SERVICE. DEDUCED, log entry 23. -/
def State.restExit (s : State) : State :=
  let ticks := s.rtcSince s.power.restRtc
  let s := s.reloadTime ticks
  let s := (List.range 4).foldl (fun s g => s.restSlices g) s
  let s := threadSlots.foldl (fun s t => s.restTimer t (ticks * 390625 / 8)) s
  let s := s.plls true
  let target := bit (s.fget F.AON_WAKE.cause) 6
  let s := (s.pwrTo psService (if target then 1 else 3)).setMoving false
  if target then s.targetDone 0 else s

/-- A GRAVE fault during a change completes the change (R573). -/
def State.finishChange (s : State) : State :=
  let s := if s.power.entering then s.restEnter else s
  if s.power.leaving then s.restExit else s

/-- A sequencer operation abandons the change in progress (R573). -/
def State.abandonChange (s : State) : State :=
  (s.setMoving false).modPower fun p => { p with entering := false, leaving := false, wake := 0 }

/-! ## Commands -/

/-- REST_ENTRY_COMPLETE (R568). -/
def execRestEntryComplete (s : State) : Host.Outcome State Fault Refusal :=
  s.act fun s => if s.power.entering then s.restEnter else s

/-- REST_EXIT_COMPLETE (R569). -/
def execRestExitComplete (s : State) : Host.Outcome State Fault Refusal :=
  s.act fun s => if s.power.leaving then s.restExit else s

/-! ## Targets (R563, R564, R566) -/

/-- A reaction, a promotion, a load or a change of power state is in progress. -/
def State.restBusy (s : State) : Bool :=
  s.flag F.PWR_STATUS.moving || s.image.load.isSome || decide (s.flt.promos ≠ []) || s.flt.recs.any fun r => r.busy

/-- A DMA channel or a cipher lane is RUNNING or WAITING. -/
def State.enginesActive (s : State) : Bool :=
  ((tabKeys s.chans).any fun ch => s.chanState ch = 2 || s.chanState ch = 4) ||
    (List.range 8).any fun l => s.laneState l = 2

/-- The result of a request for REST (R566). -/
def State.restCode (s : State) : Nat :=
  if s.restBusy then 1
  else if (List.range 256).any fun p => s.portState p = pTraining || s.portState p = pUp then 2
  else if s.castlePending then 3
  else if s.enginesActive then 4
  else 0

/-- REST entry begins: its record is written, and a pending snapshot is aborted. DEDUCED, log entry 23. -/
def State.restBegin (s : State) : State :=
  let s := if s.snap.captured then s else s.snapAbort
  let s := (s.pwrRecord s.pstate psRest 1).setMoving true
  (s.modPower fun p => { p with entering := true, wake := 0, lowMs := 0, adapting := [] })

/-- Between SERVICE and DOZE with a cause (R563, R564). DEDUCED, log entry 23. -/
def State.dozeTo (s : State) (new cause : Nat) : State :=
  (s.pwrTo new cause).modPower fun p => { p with lowMs := 0, adapting := [] }

/-- A write of `PWR_CTL.target`: 1 SERVICE, 2 DOZE, 3 REST; BUSY while a change is in progress. -/
def State.effTarget (s : State) (t : Nat) : State :=
  if t = 0 then s
  else
    let s := s.fset F.PWR_STATUS.done 0 0 0
    if s.flag F.PWR_STATUS.moving then s.targetDone 1
    else if t = 3 then
      if s.pstate = psRest then s.targetDone 0
      else if s.restCode ≠ 0 then s.targetDone s.restCode
      else s.restBegin
    else if t = 1 then
      if s.pstate = psRest then s.leaveRest (2 ^ 6)
      else if s.pstate = psDoze then (s.dozeTo psService 1).targetDone 0
      else s.targetDone 0
    else if s.pstate = psService then (s.dozeTo psDoze 1).targetDone 0
    else s.targetDone 0

end Sys2Proof.Machine
end

