-- ==== Sys2Proof/Machine/Safe.lean ====
section
/-! DEFINITION. The global safe state and GRAVE faults (R541–R547). -/

namespace Sys2Proof.Machine

/-- Every DMA channel abandons its descriptor without writing a status, and is IDLE. -/
def State.stopChannels (s : State) : State :=
  (tabKeys s.chans).foldl (fun s ch => if 2 ≤ s.chanState ch ∧ s.chanState ch ≤ 5 then s.chanIdle ch else s) s

/-- Every cipher lane abandons its job under R481, and is IDLE. -/
def State.stopLanes (s : State) : State :=
  (List.range 8).foldl (fun s l =>
    let st := s.laneState l
    if 2 ≤ st ∧ st ≤ 4 then
      let s := match (s.lane l).desc with
        | some d => if st = 2 then s.finishJob l d { code := 16 } else s
        | none => s
      s.laneIdle l
    else s) s

/-- The valid ports. -/
def State.validPorts (s : State) : List Nat := (List.range 256).filter fun p => s.portValid p

/-- The global safe state comes into force (R541, items 1–5), with a cause of SAFE_STATE. -/
def State.enterGlobal (s : State) (cause unit : Nat) : State :=
  if s.flag F.AON_STATUS.safe_global then s
  else
    let s := s.fset F.AON_STATUS.safe_global 0 0 1
    let s := s.validPorts.foldl (fun s p => s.refreshSafe p) s
    let s := (List.range 4).foldl (fun s i => s.squelch i 4) s.refreshPps
    let s := { s with flt := { s.flt with gpioSafe := true } }
    let s := (s.stopChannels.stopLanes).loadAbort.castleAbort
    s.safeRecord 2 true cause unit 0 0

/-- The global safe state ends. -/
def State.leaveGlobal (s : State) (cause unit : Nat) : State :=
  if !s.flag F.AON_STATUS.safe_global then s
  else
    let s := { s.fset F.AON_STATUS.safe_global 0 0 0 with flt := { s.flt with gpioSafe := false } }
    (s.validPorts.foldl (fun s p => s.refreshSafe p) s).safeRecord 2 false cause unit 0 0

/-- A GRAVE fault (R541, R544): the latch with its cause and unit, and the global safe state. Its reaction is in progress until the main
domains are powered down (R536). A change of power state under way completes first (R573). -/
def State.grave (s : State) (cause unit d4 d5 : Nat) : State :=
  let s := s.finishChange
  let s := s.raise { cls := 4, cause := cause, unit := unit, part := 16, stamp := 0, slot := 127, d4 := d4, d5 := d5, busy := true, safe := 2 }
  let s := if s.flag F.AON_STATUS.grave then s
    else ((s.fset F.AON_GRAVE.cause 0 0 cause).fset F.AON_GRAVE.unit 0 0 unit).fset F.AON_STATUS.grave 0 0 1
  s.refreshFaultN.enterGlobal 1 unit

/-- The safe state that `SAFE_REQ_N` asked for ends, unless a GRAVE fault stands (R543). -/
def State.endRequest (s : State) : State :=
  let s := { s with flt := { s.flt with safeHold := false } }
  if s.flag F.AON_STATUS.grave ∨ s.flt.safeReq then s else s.leaveGlobal 3 0xFFF

/-- SAFE_REQ_ASSERT (R543): a low level of 100 ns on `SAFE_REQ_N`. -/
def execSafeReqAssert (s : State) : Host.Outcome State Fault Refusal :=
  s.act fun s => { s with flt := { s.flt with safeReq := true, safeHold := false } }.enterGlobal 3 0xFFF

/-- SAFE_REQ_RELEASE (R543): the pin rises, and the hold runs. -/
def execSafeReqRelease (s : State) : Host.Outcome State Fault Refusal :=
  s.act fun s => if s.flt.safeReq then { s with flt := { s.flt with safeReq := false, safeHold := true } } else s

/-- SAFE_REQ_HOLD_EXPIRY (R543). -/
def execSafeReqHoldExpiry (s : State) : Host.Outcome State Fault Refusal :=
  s.act fun s => if s.flt.safeHold then s.endRequest else s

end Sys2Proof.Machine
end

