-- ==== Sys2Proof/Machine/Faults.lean ====
section
/-! DEFINITION. The fault collector: detected errors and their reactions, clearing, the bench commands, wear monitors and row repairs
(R530–R561). -/

namespace Sys2Proof.Machine

/-! ## Reactions that no other chapter holds -/

/-- Mark copies as read across an uncorrectable buffer line: they are sent, or read back, with a stomped FCS (R556). -/
def State.stompCopies (s : State) (ids : List Nat) : State :=
  let mark := fun (c : Copy) => if ids.contains c.id then { c with stomp := true } else c
  let tx := fun (t : TxCopy) => { t with copy := mark t.copy }
  let ports := s.ports.map fun (e : Nat × PortSt) =>
    (e.1, { e.2 with fifo7 := e.2.fifo7.map tx, fifoG := e.2.fifoG.map tx, wire := e.2.wire.map tx, remainder := e.2.remainder.map tx })
  let queues := s.queues.map fun (e : Nat × Queue) =>
    (e.1, { e.2 with head := e.2.head.map mark, pend := e.2.pend.map mark,
                     deep := e.2.deep.map fun (d : DeepRec) => { d with copy := mark d.copy } })
  { s with ports := ports, queues := queues }

/-- An error of a buffer memory line (cause 18, R556): `d4` the macro row, `d5` the line. -/
def State.bufferLine (s : State) (unit d4 d5 : Nat) (corr : Bool) (copies : List Nat) : State :=
  if corr then s.corrected 18 unit d4 d5
  else (((s.stompCopies copies).rowFenced).fencing 18 unit d4 d5 16 true 0 2)

/-- Every copy of a queue leaves as FENCED, and the queue restarts empty (R557). -/
def State.loseQueue (s : State) (n : Nat) : State :=
  let q := s.queue n
  let s := { s with queues := tabSet {} s.queues n {} }
  let s := match q.staging with | some h => s.freeBuf h | none => s
  let s := (q.head ++ q.pend).foldl (fun s c => (s.macCount c.port 22).dropCopy c 8 3) s
  q.deep.foldl (fun s d => ((((s.macCount d.copy.port 22).balAdd d.copy.part 8).traceTx d.copy (if d.copy.mirror then 1 else 0) 3 none)).copyGone d.copy) s

/-- An error of a scheduler memory row (cause 20, R557): `d4` the row, `d5` the port, `lost` the queues whose state the row held.
DEDUCED, log entry 58. -/
def State.schedRow (s : State) (unit d4 d5 : Nat) (corr : Bool) (lost : List Nat) : State :=
  if corr then s.corrected 20 unit d4 d5
  else
    let s := lost.foldl (fun s n => s.loseQueue n) s.rowFenced
    s.fencing 20 unit d4 d5 16 true 0 2

/-- Fence a unit that has no spare. -/
def State.markFenced (s : State) (u : Nat) : State :=
  { s with flt := { s.flt with fenced := if s.flt.fenced.contains u then s.flt.fenced else s.flt.fenced ++ [u] } }

/-- The PLL that serves a lane macro is locked, or not (R588). -/
def State.setLaneLock (s : State) (m : Nat) (on : Bool) : State :=
  let v := s.fget F.PWR_CLK.lane_lock
  if bit v m = on then s else s.fset F.PWR_CLK.lane_lock 0 0 (if on then v + 2 ^ m else v - 2 ^ m)

/-- A transmit PLL lost lock or a clock spine failed (causes 22 and 24, R540, R558): the local safe state first, then the promotion. -/
def State.macroClock (s : State) (cause u k d4 d5 : Nat) : State :=
  let s := if k = 6 then s.setLaneLock (u / 8) false else s
  (s.enterLocal (u / 8) u).fencePromote cause u k d4 d5 1 (s.macroPorts (u / 8))

/-- Time unit logic (cause 32): `PPS_OUT` low, the SyncE outputs squelched, lock ended; the count runs on. The LOCK record's
cause is none of R507's list, and left open. DEDUCED, log entry 56. -/
def State.timeFault (s : State) (d4 d5 : Nat) : State :=
  let s := if s.flt.fenced.contains 0xC10 then s else (s.markFenced 0xC10).safeRecord 1 true 2 0xC10 0 0
  let s := (List.range 4).foldl (fun s i => s.squelch i 4) s.refreshPps
  ((s.fencing 32 0xC10 d4 d5 16 false 1).endLock (s.freeNat 4)).nextFree

/-- Image loader logic (cause 34): loads are refused as BUSY, the one under way ends, a castling is aborted (R70).
DESIGN CHOICE, log entry 59. -/
def State.loaderFault (s : State) (d4 d5 : Nat) : State :=
  ((((s.markFenced 0xC30).fencing 34 0xC30 d4 d5)).loadAbort).castleAbort

/-- An entry of the tailings log fails its retention parity (cause 42, R538). DEDUCED, log entry 62. -/
def State.tailParity (s : State) (n : Nat) : State :=
  { s with flt := { s.flt with tail := s.flt.tail.mapIdx fun i (e : TailEntry) => if i = n then { e with valid := false } else e } }

/-- SRAM read margin below the level (cause 27): under AUTO a preventive row repair starts where a repair row is left. -/
def State.marginFault (s : State) (unit d4 d5 : Nat) : State :=
  let go := s.autoKind 5 && decide (s.rowsUsed unit < rowsTotal unit)
  s.raise { cls := 1, cause := 27, unit := unit, part := 16, stamp := 0, slot := 127, d4 := d4, d5 := d5, wear := d4,
            action := if go then 2 else 0, busy := go }

/-- A search bank that failed has no promotion: with no bank on the bench of its replica its logical bank is withdrawn (R257). -/
def State.bankLeaves (s : State) (u : Nat) : State :=
  if s.promoting u ∨ (s.flt.deferred.any fun p => p.unit = u) ∨ s.benchUnits 1 (unitScope 1 u) ≠ [] then s
  else match s.logicalOf ((u - 0x200) / 64) ((u - 0x200) % 64) with
    | some b => s.withdrawBank ((u - 0x200) / 64) b
    | none => s

/-- A search bank fails as a whole (R256, R257). One that serves no logical bank is fenced, and a promotion that copies into it begins anew with
another spare, where there is one. DESIGN CHOICE, log entry 71. -/
def State.bankFault (s : State) (u d4 : Nat) : State :=
  let g := (u - 0x200) / 64
  match s.logicalOf g ((u - 0x200) % 64) with
  | some _ => (s.fencePromote 2 u 1 d4 g).bankLeaves u
  | none => ((s.fencePromote 2 u 1 d4 g).fset F.TCM_BANK.state (u - 0x200) 0 3).spareLost 1 u fun s p => if p.reason = 2 then s.bankLeaves p.unit else s

/-- A pseudo-channel fails as a whole: with no bench in its stack it leaves (R317, R318); `reads` tells whether it still reads. One that serves
no logical place is fenced. DESIGN CHOICE, log entry 71. -/
def State.pcFault (s : State) (u d4 d5 : Nat) (reads : Bool) : State :=
  let h := (u - 0x900) / 32
  let st := s.fget F.HBC_PC.state h ((u - 0x900) % 32)
  let s := s.fencePromote 3 u 4 d4 d5
  if st = 1 ∨ st = 2 ∨ st = 4 then
    ((s.fset F.HBC_PC.state h ((u - 0x900) % 32) 3).spareLost 4 u fun s p =>
      if p.reason = 2 then s.pcLeave p.unit (!s.hbm.mute.contains p.unit) else s).showBench h
  else
  let s := if reads then s else { s with hbm := { s.hbm with mute := s.hbm.mute.filter (· ≠ u) ++ [u] } }
  if s.promoting u ∨ (s.flt.deferred.any fun p => p.unit = u) then
    if reads then s else s.loseChannel ((u - 0x900) / 32) (s.fget F.HBC_PC.logical ((u - 0x900) / 32) ((u - 0x900) % 32))
  else s.pcLeave u reads

/-! ## Detection (R531) -/

/-- Causes 1–16: tables, search banks, the deep buffer, slices, rewriting and control cores. -/
def State.detectLow (s : State) (cause u d4 d5 : Nat) (corr : Bool) (items : List Nat) : State :=
  match cause with
  | 1 =>
    if corr then s.tblCorrected d5 d4
    else if items ≠ [] then { s with tbl := { s.tbl with met := s.tbl.met ++ [(d5, d4)] } }
    else s.tblUncorr d5 d4
  | 2 =>
    let phys := (u - 0x200) % 64
    if corr then s.tcmCorrected d5 phys d4 else if items ≠ [] then s.bankFault u d4 else s.tcmRowFail d5 phys d4 true
  | 3 => if corr ∨ items.length ≠ 2 then s.hbmLineError d4 (items.headD 0) (!corr) else s.pcFault u d4 d5 (items.headD 0 ≠ 0)
  | 4 => s.wearAdvisory 4 u 4 d4 d5 0
  | 6 => s.wearAdvisory 6 u 4 d4 d5 d4
  | 5 | 26 | 28 | 39 | 43 => s.advisory cause u d4 d5
  | 7 => s.wearAdvisory 7 u 0 d4 d5 d5
  | 8 => ((s.fencePromote 8 u 0 d4 d5).fenceSlice ((u - 0x110) / 16) ((u - 0x110) % 16)).spareLost 0 u fun s _ => s
  | 9 => s.wearAdvisory 9 u 1 d4 d5 d4
  | 10 => s.engineFault ((u - 0x400) / 25) ((u - 0x400) % 25)
  | 11 => if corr then s.corrected 11 u d4 d5 else s.storeUncorr ((u - 0x400) / 25) ((u - 0x400) % 25) (items.headD 0)
  | 12 => s.wearAdvisory 12 u 2 d4 d5 d4
  | 13 => s.badHandle u d5 d4
  | 14 => (if s.thrFences (u - 0x800) then s.threadFault (u - 0x800) fStore d4 0 tFenced else s).fencing 14 u d4 d5 (s.thrPart (u - 0x800))
  | 15 => s.coreFault ((u - 0x800) / 8)
  | _ => s.wearAdvisory 16 u 3 d4 d5 d4

/-- Causes 17–44. In REST only rails, `PGOOD`, temperature and the watchdog raise a GRAVE fault (R573). -/
def State.detectHigh (s : State) (cause u d4 d5 : Nat) (corr : Bool) (items : List Nat) : State :=
  match cause with
  | 17 => s.cipherFault (u - 0xB80) d5
  | 18 => s.bufferLine u d4 d5 corr items
  | 20 => s.schedRow u d4 d5 corr items
  | 21 => ((s.markFenced u).enterLocal (u - 0xA60) u).fencing 21 u d4 d5 16 false 1 0 0 (s.macroPorts (u - 0xA60))
  | 22 => s.macroClock 22 u 6 d4 d5
  | 23 => s.wearAdvisory 23 u 6 d4 d5 d4
  | 24 => s.macroClock 24 u 7 d4 d5
  | 25 => s.wearAdvisory 25 u 7 d4 d5 d4
  | 27 => s.marginFault u d4 d5
  | 29 => (s.fenceUnit u).fencing 29 u d4 d5 (s.unitPart u)
  | 30 => ((s.markFenced 0xC00).fencing 30 0xC00 d4 d5).stopChannels.stopLanes
  | 31 => s.i2cStuck (u - 0xC03)
  | 32 => s.timeFault d4 d5
  | 33 => ((s.markFenced 0xC20).fencing 33 0xC20 d4 d5).snapAbort
  | 34 => s.loaderFault d4 d5
  | 35 => (s.markFenced u).fencing 35 u d4 d5
  | 42 => (s.tailParity d4).advisory 42 0xF00 d4 d5
  | 44 => s.advisory 44 0xC40 d4 d5
  | 26 | 28 | 39 | 43 => s.advisory cause u d4 d5
  | 37 | 38 | 40 => s.grave cause u d4 d5
  | 19 | 36 | 41 => if s.frozen then s else (if cause = 36 then s.fset F.PWR_CLK.core_lock 0 0 0 else s).grave cause u d4 d5
  | _ => s

/-- FAULT_DETECTED (R531): an error of a source, with the unit it names, the details of its record, and whether it was corrected. `shadow` is
the scope of a SHADOW bank in which it was found (R62). `items` are the copies that met a buffer line (cause 18), the queues whose state a
row held (cause 20), the line of the block (cause 3), the control-store word (cause 11), for cause 1 a word that says that the plan in hand
meets the unit, so that its end reports it, or, for causes 2 and 3, what says that the unit fails as a whole: a word, and for cause 3 two, the
first not zero while it still reads. A unit that R14 does not assign names no source. -/
def execFaultDetected (cause unit d4 d5 : Nat) (corr : Bool) (shadow : Option Nat) (items : List Nat) (s : State) :
    Host.Outcome State Fault Refusal :=
  s.act fun s => if !unitAssigned unit then s else
    let s := if cause ≤ 16 then s.detectLow cause unit d4 d5 corr items else s.detectHigh cause unit d4 d5 corr items
    match shadow with
    | some sc => if corr then s else s.shadowError sc
    | none => s

/-! ## Clearing (R546) -/

/-- A unit whose fault is cleared is treated by its kind. -/
def State.returnUnit (s : State) (f : FaultRec) : State :=
  let u := f.unit
  if 0x800 ≤ u ∧ u < 0x890 ∧ f.cause ≠ 15 then
    if s.thrState (u - 0x800) = tFenced then (s.orphan (u - 0x800)).releaseThread (u - 0x800) else s
  else if 0xB00 ≤ u ∧ u < 0xB50 then
    if s.chanState (u - 0xB00) = 6 then s.chanIdle (u - 0xB00) else s
  else if 0xB80 ≤ u ∧ u < 0xB88 then
    if s.flag F.CPH_LOCK.fenced (u - 0xB80) then
      ((s.laneRegs (u - 0xB80)).fset F.CPH_LOCK.fenced (u - 0xB80) 0 0).setLane (u - 0xB80) 0
    else s
  else if 0xC00 ≤ u ∧ u < 0xD00 then
    let s := { s with flt := { s.flt with fenced := s.flt.fenced.filter (· ≠ u) } }
    if u = 0xC10 then s.safeRecord 1 false 2 u 0 0 else s
  else s

/-- A function may clear a slot: the PF and the console any, a VF those of its threads and channels. -/
def State.mayClear (s : State) (f : Func) (r : Option FaultRec) : Bool :=
  match f with
  | .vf n => match r with
    | some r => (0x800 ≤ r.unit && r.unit < 0x890 && s.thrPart (r.unit - 0x800) = n) || (0xB00 + 4 * n ≤ r.unit && r.unit < 0xB04 + 4 * n)
    | none => false
  | _ => true

/-- The result of a clear in `FLT_CLEAR_RES`. -/
def State.clearResult (s : State) (f : Func) (code : Nat) : State :=
  (s.fset F.FLT_CLEAR_RES.done f.idx 0 1).fset F.FLT_CLEAR_RES.result f.idx 0 code

/-- The result of clearing a slot, in the order of R546. -/
def State.clearCode (s : State) (f : Func) (r : Option FaultRec) : Nat :=
  if !s.mayClear f r then 1
  else match r with
    | none => 2
    | some r => if r.cls = 4 then 3 else if r.busy then 4 else 0

/-- The open record in a slot. -/
def State.slotRec (s : State) (slot : Nat) : Option FaultRec := s.flt.recs.find? fun r => r.slot = slot

/-- Clear a slot. -/
def State.clearSlot (s : State) (f : Func) (slot : Nat) : State :=
  let r := s.slotRec slot
  let c := s.clearCode f r
  let s := match r with
    | some r =>
      if c ≠ 0 then s
      else
        let s := { s with flt := { s.flt with recs := s.flt.recs.filter fun x => x.slot ≠ slot } }
        let e : Record := { code := 0x82, unit := r.unit, stamp := s.stamp, p3 := slot + r.cause * 2 ^ 8 + r.cls * 2 ^ 16,
                            p4 := f.part + (if f = Func.console then 32 else 0) }
        let s := ((s.emitBoth r.part clsFault e).tailRecord r.part e).bump F.FLT_CNT.count 0 6
        (s.returnUnit r).refreshFaultN
    | none => s
  s.clearResult f c

/-- Clear the overflow: the PF and the console may. -/
def State.clearOverflow (s : State) (f : Func) : State :=
  if f.part < 16 then s.clearResult f 1
  else ((s.fset F.FLT_STATUS.overflow 0 0 0).refreshFaultN).clearResult f 0

/-- A write of `FLT_CLEAR`. -/
def State.effFltClear (s : State) (f : Func) (v : Nat) : State :=
  if !bit v 35 then s else if bit v 34 then s.clearOverflow f else s.clearSlot f (bits v 5 0)

/-! ## The bench (R553, R558) -/

/-- The result of a request for a promotion, in the order of R553. -/
def State.benchCode (s : State) (u : Nat) : Nat :=
  match unitKind u with
  | none => 1
  | some k =>
    if !s.inService k u then 1
    else if s.benchUnits k (unitScope k u) = [] then 2
    else if s.scopeBusy k (unitScope k u) then 3
    else if s.castlePending then 4
    else 0

/-- A write of `FLT_BENCH_CMD` with `go`: MANUAL takes the lowest-numbered bench unit, a retired one too. DEDUCED, log entry 58. -/
def State.effBenchCmd (s : State) (v : Nat) : State :=
  if !bit v 35 then s
  else
    let u := bits v 11 0
    let c := s.benchCode u
    let s := if c = 0 then
        match unitKind u with
        | some k => s.startPromo k u ((s.benchUnits k (unitScope k u)).headD 0) 3
        | none => s
      else s
    (s.fset F.FLT_BENCH_CMD.done 0 0 1).fset F.FLT_BENCH_CMD.result 0 0 c

/-- DEFERRED_PROMOTION (R553): a deferred promotion starts when its cause is gone; a failed search bank that finds no spare leaves (R257). -/
def execDeferredPromotion (unit : Nat) (s : State) : Host.Outcome State Fault Refusal :=
  s.act fun s => match s.flt.deferred.find? fun p => p.unit = unit with
    | none => s
    | some p =>
      if s.castlePending ∨ s.scopeBusy p.kind (unitScope p.kind unit) then s
      else match s.autoSpare p.kind unit with
        | some b => s.startPromo p.kind unit b p.reason
        | none =>
          let s := { s with flt := { s.flt with deferred := s.flt.deferred.filter fun q => q.unit ≠ unit } }
          if p.reason ≠ 2 then s
          else if p.kind = 1 then s.bankLeaves unit
          else if p.kind = 4 then s.pcLeave unit (!s.hbm.mute.contains unit)
          else s

/-- PLL_PROMOTE_LOCK (R558): the spare PLL of a macro is locked and its lanes have switched, or its spare spine has taken over; a local safe
state ends with the promotion (R539). -/
def execPllPromoteLock (port : Nat) (s : State) : Host.Outcome State Fault Refusal :=
  s.act fun s =>
    if s.flt.promos.any fun p => p.unit = port ∧ (p.kind = 6 ∨ p.kind = 7) then
      let s := if s.flt.promos.any fun p => p.unit = port ∧ p.kind = 6 then s.setLaneLock (port / 8) true else s
      let s := s.finishPromo port
      (s.leaveLocal (port / 8) port)
    else s

/-! ## Row repairs (R556, R557) -/

/-- A reaction is in progress for a unit. -/
def State.reacting (s : State) (u : Nat) : Bool := s.flt.recs.any fun r => r.busy && r.unit = u

/-- The buffers of the packet pools that hold a line of a row of a buffer memory macro. -/
def State.rowBuffers (s : State) (m row : Nat) : List Nat :=
  let lines := (List.range 4).map fun i => (4 * row + i) * 64 + m
  (List.range 4).flatMap fun p =>
    let base := bits (s.poolWord (2 * p + 1)) 19 0
    let u := poolCharge p
    (lines.filter fun l => decide (base ≤ l ∧ l < base + s.poolCount p * u)).map fun l => p * 2 ^ 32 + (l - base) / u * s.poolSize p

/-- BUFFER_ROW_REPAIR (R556): the row is remapped, or its buffers are withdrawn at their next FREE or RECLAIM. -/
def execBufferRowRepair (mem row : Nat) (s : State) : Host.Outcome State Fault Refusal :=
  s.act fun s =>
    let u := 0xA00 + mem
    if !s.reacting u then s
    else match s.takeRow u with
      | some s => s.rowsDone u
      | none =>
        let new := (s.rowBuffers mem row).filter fun h => !s.flt.withdrawn.contains h && !s.flt.withdrawn.contains (2 ^ 40 + h)
        { s with flt := { s.flt with withdrawn := s.flt.withdrawn ++ new.dedup } }.rowsDone u

/-- SCHED_ROW_REPAIR (R557): the row is remapped, or the port whose queues lie in it enters the local safe state. -/
def execSchedRowRepair (bank : Nat) (s : State) : Host.Outcome State Fault Refusal :=
  s.act fun s =>
    let u := 0xA40 + bank
    match s.flt.recs.find? fun r => r.busy && r.unit = u with
    | none => s
    | some r => match s.takeRow u with
      | some s => s.rowsDone u
      | none => if r.cause = 20 then (s.enterPort (r.d5 % 256) u).rowsDone u else s.rowsDone u

/-! ## Wear monitors (R549) -/

/-- The key of a monitor's value: monitor, unit and lane. -/
def wearKey (mon unit lane : Nat) : Nat := mon * 2 ^ 16 + unit * 8 + lane % 8

/-- The level of a monitor is passed by a value: below it for the margins and the eye, at or above it for the trend, above it for jitter and
skew. DEDUCED, log entry 58. -/
def State.wearPast (s : State) (mon v : Nat) : Bool :=
  let th := fun i => (s.rdPlane 16 (s.bankOf 16 s.tagNow) .FLT_WEAR_TH 0 i).toNat
  match mon with
  | 1 => decide (v < bits (th 0) 5 0)
  | 2 => decide (bits (th 0) 10 8 ≤ v)
  | 3 => decide (v < bits (th 1) 7 0)
  | 4 => decide (bits (th 1) 19 8 < v)
  | 5 => decide (bits (th 2) 7 0 < v)
  | 6 => decide (v < bits (th 1) 31 20)
  | _ => false

/-- The ADVISORY of a crossed monitor, with the promotion or repair of AUTO (R531, R549). -/
def State.wearRaise (s : State) (mon u lane v row : Nat) : State :=
  match mon with
  | 1 => s.wearAdvisory 9 u 1 v ((u - 0x200) / 64) v
  | 2 => s.wearAdvisory 6 u 4 v 0 v
  | 3 => s.marginFault u v row
  | 4 => s.wearAdvisory 23 u 6 v (u / 8) v
  | 5 => s.wearAdvisory 25 u 7 v (u / 8) v
  | 6 => s.advisory 26 u v lane 16 v
  | _ => s

/-- The clock fraction of a slice, an engine or a core position (R158, R357, R421). -/
def State.setFreq (s : State) (u v : Nat) : State :=
  match unitKind u with
  | some 0 => s.fset F.SPR_SLICE.freq ((u - 0x110) / 16) ((u - 0x110) % 16) v
  | some 2 =>
    let c := (u - 0x400) / 25
    let e := (u - 0x400) % 25
    (s.fset F.RWE_ENG.freq c e v).refreshSlow c e
  | some 3 => (s.fset F.CCX_CORE.freq ((u - 0x800) / 8) 0 v).coreSlow ((u - 0x800) / 8)
  | _ => s

/-- The registers of a unit that show its monitor's value. -/
def State.showWear (s : State) (mon u v : Nat) : State :=
  match mon with
  | 1 => match s.logicalOf ((u - 0x200) / 64) ((u - 0x200) % 64) with
    | some b => s.fset F.TCM_BANK.margin ((u - 0x200) / 64 * 64 + b) 0 v
    | none => if 32 ≤ (u - 0x200) % 64 then s.fset F.TCM_BANK.margin (u - 0x200) 0 v else s
  | 2 => s.fset F.HBC_PC.trend ((u - 0x900) / 32) ((u - 0x900) % 32) v
  | _ => s

/-- WEAR_LEVEL_CROSSED (R549): a monitor takes a value; where it passes its level, the ADVISORY is raised once. `row` is the memory row of an
SRAM margin. A unit that R14 does not assign has no monitor. -/
def execWearLevelCrossed (mon unit lane value row : Nat) (s : State) : Host.Outcome State Fault Refusal :=
  s.act fun s => if !unitAssigned unit then s else
    let k := wearKey mon unit lane
    let was := s.flt.crossed.contains k
    let past := s.wearPast mon value
    let s := { s with flt := { s.flt with
      wear := tabSet 0 s.flt.wear k value
      crossed := if past then (if was then s.flt.crossed else s.flt.crossed ++ [k]) else s.flt.crossed.filter (· ≠ k) } }
    if mon = 0 then s.setFreq unit value
    else
      let s := s.showWear mon unit value
      if past && !was then s.wearRaise mon unit lane value row else s

/-- WEAR_ADVISORY_REPEAT (R549): once a minute while a level stays crossed. -/
def execWearAdvisoryRepeat (mon unit lane row : Nat) (s : State) : Host.Outcome State Fault Refusal :=
  s.act fun s =>
    let k := wearKey mon unit lane
    if s.flt.crossed.contains k then s.wearRaise mon unit lane (tabGet 0 s.flt.wear k) row else s

/-! ## The tailings log (R538) -/

/-- The log is emptied and ARMED. -/
def State.rearm (s : State) : State :=
  let s := { s with flt := { s.flt with tail := [] } }
  ((s.fset F.AON_TAIL_STATUS.entries 0 0 0).fset F.AON_TAIL_STATUS.dropped 0 0 0).fset F.AON_TAIL_STATUS.frozen 0 0 0

end Sys2Proof.Machine
end

