-- ==== Sys2Proof/Machine/Reset.lean ====
section
/-! DEFINITION. Resets: the select registers' reset indices, main reset, function-level reset, `PERST_N` and block resets (R88, R89, R98, R99,
R434, R519, R630–R633). -/

namespace Sys2Proof.Machine

/-! ## Selection (R88–R91) -/

/-- An index of a select register is open to a function now. -/
def State.selOpen (s : State) (f : Func) (r : Reg) (n : Nat) : Bool :=
  let inRange := if r = .CNT_SEL then allBanks.contains n else selRange r n
  match f with
  | .vf p => inRange && match r with
    | .MAC_SEL | .GTE_SEL => s.holdsPort p n
    | .TCM_SEL => decide (n % 64 < 32) && s.bankOwner (n % 64) == some p
    | .SCH_SEL => s.holdsSet p n
    | .CCX_SEL => s.thrPart n = p
    | .DMA_SEL => decide (4 * p ≤ n ∧ n < 4 * p + 4)
    | .CPH_SEL => true
    | .CNT_SEL => (s.view f).any fun e => e.1 = n
    | _ => false
  | _ => inRange

/-- The indices that a select register can hold, in the order in which a lowest one is sought. -/
def selIndices (r : Reg) : List Nat := if r = .CNT_SEL then allBanks else List.range 256

/-- A function's copy of a select register takes its reset value (R89). -/
def State.resetSel (s : State) (f : Func) (r : Reg) : State :=
  match f with
  | .vf _ => match (selIndices r).find? fun n => s.selOpen f r n with
    | some n => s.wr r f.idx 0 (BitVec.ofNat 72 n)
    | none => s.wr r f.idx 0 (BitVec.ofNat 72 (2 ^ 12))
  | _ => s.wr r f.idx 0 0

/-- The select registers. -/
def selRegs : List Reg :=
  [.MAC_SEL, .SPR_SEL, .TCM_SEL, .HBC_SEL, .SCH_SEL, .GTE_SEL, .RWE_SEL, .CCX_SEL, .DMA_SEL, .CPH_SEL, .CNT_SEL]

/-- Every function. -/
def allFuncs : List Func := (List.range 16).map Func.vf ++ [.pf, .console]

/-! ## Registers -/

/-- Registers return to their reset values. -/
def State.eraseRegs (s : State) (rs : List Reg) : State :=
  let ks := rs.map Reg.ctorIdx
  { s with regs := s.regs.filter fun e => !ks.contains (e.1 / 2 ^ 32) }

/-- One copy of some registers returns to its reset values. -/
def State.eraseCopy (s : State) (rs : List Reg) (c : Nat) : State :=
  let ks := rs.map Reg.ctorIdx
  { s with regs := s.regs.filter fun e => !(ks.contains (e.1 / 2 ^ 32) && e.1 / 2 ^ 16 % 2 ^ 16 = c) }

/-! ## Main reset (R489, R630) -/

/-- The registers that a main reset keeps. -/
def keptRegs : List Reg := Reg.listAON ++ [.IMG_KEY, .GLB_STRAP]

/-- Everything of the main domains takes its value after main reset. The island, its log and the pins keep theirs. -/
def State.mainReset (s : State) : State :=
  let ks := keptRegs.map Reg.ctorIdx
  let r : State := { State.reset with
    pending := s.pending, free := s.free, hostMem := s.hostMem, power := s.power
    regs := s.regs.filter fun e => ks.contains (e.1 / 2 ^ 32)
    image := { key := s.image.key }
    pcie := { perst := s.pcie.perst }
    time := { now := s.time.now, cycles := s.time.cycles, coreBase := s.time.cycles }
    flt := { tail := s.flt.tail, gpioSafe := s.flt.gpioSafe, safeReq := s.flt.safeReq, safeHold := s.flt.safeHold }
    twin := { chkOut := s.twin.chkOut, chkIn := s.twin.chkIn, silent := s.twin.silent } }
  (r.fset F.FLT_CFG.grave_cycle 0 0 (s.fget F.FLT_CFG.grave_cycle)).refreshFaultN

/-! ## Function-level reset (R99, R434, R469, R518, R519) -/

/-- The channels of a function. -/
def funcChans (f : Func) : List Nat :=
  match f with
  | .vf n => (List.range 4).map (4 * n + ·)
  | _ => (List.range 16).map (64 + ·)

/-- The registers of a channel's ring. -/
def ringRegs : List Reg := [.DMA_RING_BASE, .DMA_RING_CFG, .DMA_RING_PROD, .DMA_RING_CONS, .DMA_RING_WB, .DMA_RING_IRQ, .DMA_RING_STAT]

/-- Buffers that a channel holds are released once each. -/
def State.dropHeld (s : State) (unit : Nat) : State :=
  (s.bufs.filter fun e => e.2.tag = unit && !e.2.quar).foldl (fun s e =>
    if e.2.count ≤ 1 then s.freeBuf e.1 else s.setBuf e.1 { e.2 with count := e.2.count - 1 }) s

/-- Items 1–3 of R434 for a channel: it stops, its ring is disabled, and what it holds is released. -/
def State.stopChannel (s : State) (ch : Nat) : State :=
  let s := if s.chanState ch = 6 then s else s.chanIdle ch
  let s := (s.eraseCopy ringRegs ch).modChan ch fun c => { c with pendingRecs := 0, lostSince := 0 }
  s.dropHeld (chanUnit ch)

/-- Item 4 of R434: the function's load ends, and its table commands not yet accepted are discarded. -/
def State.stopRequests (s : State) (f : Func) : State :=
  let s := match s.image.load with
    | some l => if l.fn = f ∧ !l.boot ∧ l.flash.isNone then s.loadAbort else s
    | none => s
  { s with tbl := { s.tbl with waiting := s.tbl.waiting.filter fun r => r.issuer ≠ .fn f } }

/-- The MSI-X table of a function is reset. -/
def State.resetMsix (s : State) (fn : Nat) : State := { s with msix := s.msix.filter fun e => e.1 / 512 ≠ fn }

/-- R99 for a function. -/
def State.resetFunc (s : State) (f : Func) : State :=
  let s := selRegs.foldl (fun s r => s.resetSel f r) s
  let s := (({ s with fns := tabErase s.fns f.idx }.wr .GLB_REFUSED f.idx 0 0).wr .GLB_REFUSED_LAST f.idx 0 0)
  s.fset F.IMG_VIEW.shadow f.idx 0 0

/-- The lanes that a tenant holds are released (R469). -/
def State.releaseLanes (s : State) (p : Nat) : State :=
  (List.range 8).foldl (fun s l => if s.holderOf l = p then s.releaseLane l else s) s

/-- FUNCTION_LEVEL_RESET (R434) of the PF or a VF. -/
def execFunctionLevelReset (fn : Func) (s : State) : Host.Outcome State Fault Refusal :=
  s.act fun s => match fn with
    | .console => s
    | _ =>
      let s := (funcChans fn).foldl (fun s ch => s.stopChannel ch) s
      let s := match fn with
        | .vf n => (s.releaseLanes n).snapWithdraw fn.idx
        | _ => s
      ((s.stopRequests fn).resetMsix fn.idx).resetFunc fn

/-! ## The endpoint (R428, R623, R631) -/

/-- The endpoint is held in reset, and its link is down. -/
def State.linkDown (s : State) : State := { s with pcie := { s.pcie with perst := true, detect := false, l0 := false } }

/-- PERST_ASSERT (R623, R631): the endpoint is reset, and every function takes items 1–4 of R434; while the main domains are off or before the
end of boot step 2 it only delays Detect. -/
def execPerstAssert (s : State) : Host.Outcome State Fault Refusal :=
  s.act fun s =>
    if !s.pcie.endpointUp then s.linkDown
    else
      let s := (List.range 80).foldl (fun s ch => s.stopChannel ch) s
      let s := allFuncs.foldl (fun s f => s.stopRequests f) s
      { s.linkDown with msix := [] }

/-- PERST_RELEASE (R623): the endpoint enters Detect once it is out of reset. -/
def execPerstRelease (s : State) : Host.Outcome State Fault Refusal :=
  s.act fun s => { s with pcie := { s.pcie with perst := false, detect := s.pcie.endpointUp } }

/-- The link trains to a speed and width (R428, R465). -/
def State.linkTrained (s : State) (speed width : Nat) : State :=
  (s.fset F.DMA_LINK.speed 0 0 speed).fset F.DMA_LINK.width 0 0 width

/-- LINK_L0 (R623): the link reaches L0 at a speed and width. -/
def execLinkL0 (speed width : Nat) (s : State) : Host.Outcome State Fault Refusal :=
  s.act fun s => if s.pcie.detect then { s with pcie := { s.pcie with l0 := true } }.linkTrained speed width else s

/-- PCIE_LINK_RETRAIN (R465): the link leaves L0 and retrains. -/
def execPcieLinkRetrain (speed width : Nat) (s : State) : Host.Outcome State Fault Refusal :=
  s.act fun s => if s.pcie.l0 then (s.linkTrained speed width).bumpSat F.DMA_LINK.retrains 0 0 else s

end Sys2Proof.Machine
end

