-- ==== Sys2Proof/Machine/Power.lean ====
section
/-! DEFINITION. The always-on island: supervision, the watchdog, wakes, the sequencer and the supplies, and the power states between SERVICE and
STANDBY (R563–R566, R576–R582, R619–R621). -/

namespace Sys2Proof.Machine

/-- A one-bit field for a truth value. -/
def ofBool (b : Bool) : Nat := if b then 1 else 0

/-! ## Supervision (R523, R576, R577) -/

/-- The window of a rail in mV (R576), in the order of R523. DESIGN CHOICE, log entry 24. -/
def State.railWindow (s : State) (rail : Nat) : Nat × Nat :=
  match rail with
  | 0 =>
    let v := s.fget F.PWR_AVS.applied
    if v = 0 then (660, 840) else (v - 40, v + 40)
  | 1 => (780, 860)
  | 2 | 4 => (710, 790)
  | 3 => (1140, 1260)
  | 5 => (1045, 1155)
  | 6 => (380, 420)
  | _ => (1710, 1890)

/-- RAIL_OUT_OF_WINDOW (R576): a rail has stood for 10 µs at a voltage outside its window. -/
def execRailOutOfWindow (rail mv : Nat) (s : State) : Host.Outcome State Fault Refusal :=
  s.act fun s =>
    let (lo, hi) := s.railWindow rail
    if s.pstate ≠ psStandby ∧ (mv < lo ∨ hi < mv) then s.grave 37 (0xC50 + rail) rail mv else s

/-- PGOOD_LOST (R576): a `PGOOD` whose `PWR_EN` bit is set falls. -/
def execPgoodLost (pgood : Nat) (s : State) : Host.Outcome State Fault Refusal :=
  s.act fun s =>
    let pg := s.fget F.AON_SEQ.pgood
    let s := if bit pg pgood then s.fset F.AON_SEQ.pgood 0 0 (pg - 2 ^ pgood) else s
    if s.pstate ≠ psStandby ∧ bit s.power.pwrEn pgood then s.grave 37 0xF00 pgood 0 else s

/-- RAIL_SAMPLE (R523, R588): the µs sample of a rail: its voltage, energy in nJ and charge in nC. The means of `PWR_RAIL` are those of the last
whole ms; energy per µs in nJ is power in mW. A fenced monitor's counters stop. -/
def execRailSample (rail mv nj nc : Nat) (s : State) : Host.Outcome State Fault Refusal :=
  s.act fun s =>
    if s.flt.fenced.contains (0xC50 + rail) then s
    else
      let s := (s.balAdd (18 + rail) 0 nj).balAdd (18 + rail) 1 nc
      let a := tabGet (0, 0, 0) s.power.rails rail
      let b := (a.1 + 1, a.2.1 + mv, a.2.2 + nj)
      if b.1 < 1000 then (s.modPower fun p => { p with rails := tabSet (0, 0, 0) p.rails rail b })
      else
        let s := (s.modPower fun p => { p with rails := tabErase p.rails rail })
        (s.fset F.PWR_RAIL.mv 0 rail (min 4095 (b.2.1 / 1000))).fset F.PWR_RAIL.mw 0 rail (min 0xFFFFFF (b.2.2 / 1000))

/-- A temperature in two's complement. -/
def celsius (v : Nat) : Int := if v % 256 < 128 then (v % 256 : Nat) else (v % 256 : Nat) - (256 : Int)

/-- The critical and the warning limit (R588). -/
def State.critLimit (s : State) : Nat := max 105 (min 125 (s.fget F.PWR_THERM.crit))
def State.warnLimit (s : State) : Nat := max 60 (min s.critLimit (s.fget F.PWR_THERM.warn))

/-- The first sensor with the highest temperature. -/
def hottest (temps : List Nat) : Nat :=
  ((List.range temps.length).foldl (fun (b : Nat) i =>
    if celsius (temps.getD b 0) < celsius (temps.getD i 0) then i else b) 0)

/-- The warning: cause 39 when the hottest sensor reaches `warn`, and once per minute while it lasts. -/
def State.warnTemp (s : State) (t n : Nat) : State :=
  if celsius t < s.warnLimit then (s.modPower fun p => { p with warnAt := none })
  else
    let due := match s.power.warnAt with
      | none => true
      | some c => decide (c + 60 * 1600000000 ≤ s.time.cycles)
    if due then (s.modPower fun p => { p with warnAt := some s.time.cycles }).advisory 39 0xFFF (t % 256) n else s

/-- The critical limit: cause 38 for a sensor at or above it at two readings, 1 ms apart; once while it stays there. `hotBefore` keeps 16 +
its index once raised. DEDUCED, log entry 25. -/
def State.critTemp (s : State) (temps : List Nat) : State :=
  let hot := (List.range (min 16 temps.length)).filter fun i => decide ((s.critLimit : Int) ≤ celsius (temps.getD i 0))
  let before := s.power.hotBefore
  let now := hot.filter fun i => before.contains i && !before.contains (16 + i)
  let kept := before.filter fun i => decide (16 ≤ i) && hot.contains (i - 16)
  let s := (s.modPower fun p => { p with hotBefore := hot ++ kept ++ now.map (16 + ·) })
  now.foldl (fun s i => s.grave 38 0xFFF (temps.getD i 0 % 256) i) s

/-- TEMP_SAMPLE (R577): the sixteen sensors are read, in °C in two's complement. -/
def execTempSample (temps : List Nat) (s : State) : Host.Outcome State Fault Refusal :=
  s.act fun s =>
    if s.pstate = psStandby then s
    else
      let n := hottest temps
      let t := temps.getD n 0
      let s := (s.fset F.PWR_THERM.hot 0 0 (t % 256)).fset F.PWR_THERM.sensor 0 0 n
      (s.warnTemp t n).critTemp temps

/-! ## Load and DOZE (R563–R565) -/

/-- The percentage of the slice pool's 76.8 Gpps that the jobs of a ms are. -/
def loadPercent (jobs : Nat) : Nat := min 255 (jobs * 100 / 76800000)

/-- `PWR_DOZE.in` as R588 takes it. -/
def State.dozeIn (s : State) : Nat := min (s.fget F.PWR_DOZE.in_) (s.fget F.PWR_DOZE.out - 1)

/-- LOAD_SAMPLE (R565): the load of the last ms, and under `auto` the change that it calls for (R563). -/
def execLoadSample (s : State) : Host.Outcome State Fault Refusal :=
  s.act fun s =>
    if psDoze < s.pstate then s
    else
      let load := loadPercent (((List.range 4).map fun g => (s.group g).jobsMs).sum)
      let s := (List.range 4).foldl (fun s g => s.modGroup g fun q => { q with jobsMs := 0 }) s
      let s := s.fset F.PWR_STATUS.load 0 0 load
      let n := if load < s.dozeIn then s.power.lowMs + 1 else 0
      let s := (s.modPower fun p => { p with lowMs := n })
      if !s.flag F.PWR_CTL.auto ∨ s.flag F.PWR_STATUS.moving then s
      else if s.pstate = psService ∧ max 1 (s.fget F.PWR_DOZE.hold) ≤ n then s.dozeTo psDoze 2
      else if s.pstate = psDoze ∧ s.fget F.PWR_DOZE.out < load then s.dozeTo psService 2
      else s

/-- EYE_READAPT (R564): in DOZE the eye of a lane of a port in UP has fallen 10 mV, and the lane adapts for 1 ms. -/
def execEyeReadapt (port lane : Nat) (s : State) : Host.Outcome State Fault Refusal :=
  s.act fun s =>
    let k := port * 8 + lane % 8
    if s.pstate ≠ psDoze ∨ s.portState port ≠ pUp ∨ s.power.adapting.contains k then s
    else (s.modPower fun p => { p with adapting := p.adapting ++ [k] })

/-- EYE_READAPT_END (R564). -/
def execEyeReadaptEnd (port lane : Nat) (s : State) : Host.Outcome State Fault Refusal :=
  s.act fun s => (s.modPower fun p => { p with adapting := p.adapting.filter (· ≠ port * 8 + lane % 8) })

/-! ## The watchdog (R581) -/

/-- The full count. -/
def State.wdtFull (s : State) : Nat := max 1 (s.fget F.AON_WDT_CFG.timeout)

/-- The watchdog counts: enabled, with the main domains on, in SERVICE or DOZE. -/
def State.wdtRuns (s : State) : Bool := s.flag F.AON_WDT_CFG.en && s.flag F.AON_STATUS.main_on && decide (s.pstate ≤ psDoze)

/-- A write of `AON_WDT_KICK.code`. -/
def State.effKick (s : State) (code : Nat) : State :=
  if code % 256 = 0xC3 then s.fset F.AON_WDT_KICK.left 0 0 s.wdtFull else s.bumpSat F.AON_WDT_KICK.bad 0 0

/-- A write of `AON_WDT_CFG` over the value `old`: `en`, `lock` and `timeout` ignore it once `lock` is set; the count starts with the full
timeout when `en` rises. DEDUCED, log entry 26. -/
def State.effWdtCfg (s : State) (old : RegVal) : State :=
  if fldGet old 34 34 = 1 then
    ((s.fset F.AON_WDT_CFG.en 0 0 (fldGet old 35 35)).fset F.AON_WDT_CFG.lock 0 0 1).fset F.AON_WDT_CFG.timeout 0 0 (fldGet old 15 0)
  else if fldGet old 35 35 = 0 ∧ s.flag F.AON_WDT_CFG.en then
    (s.modPower fun p => { p with wdtAcc := 0 }).fset F.AON_WDT_KICK.left 0 0 s.wdtFull
  else s

/-- WATCHDOG_EXPIRY (R581): the count reaches 0. -/
def execWatchdogExpiry (s : State) : Host.Outcome State Fault Refusal :=
  s.act fun s => if s.wdtRuns then (s.fset F.AON_WDT_KICK.left 0 0 0).grave 40 0xF00 0 0 else s

/-! ## The sequencer (R582, R621, R622)

`power.op` is 1–4 as `AON_SEQ.op` has it, 5 for a CYCLE that follows a GRAVE fault and 6 for a POWER_UP that a wake starts. -/

/-- An operation starts or ends. -/
def State.setOp (s : State) (op : Option Nat) : State :=
  (s.modPower fun p => { p with op := op }).fset F.AON_SEQ.busy 0 0 (ofBool op.isSome)

/-- A boot begins (R635). -/
def State.bootBegin (s : State) (phase : Nat) : State :=
  let s := (s.fset F.AON_BOOT.phase 0 0 phase).bumpSat F.AON_BOOT.boots 0 0
  let s := ((s.fset F.AON_BOOT.res_a 0 0 63).fset F.AON_BOOT.res_b 0 0 63).fset F.AON_BOOT.stacks 0 0 0
  (s.fset F.AON_BOOT.fail 0 0 0).fset F.AON_BOOT.fail_bit 0 0 0

/-- POWER_UP begins: `PWR_EN` bit 0 (R621). -/
def State.beginUp (s : State) : State :=
  (s.bootBegin 1).modPower fun p => { p with pwrEn := 1, bit := 0, offWait := false }

/-- The cause of PWR_STATE for the operation that runs (R590). -/
def State.opCause (s : State) : Nat := match s.power.op with | some 5 => 5 | some 6 => 3 | _ => 4

/-- The island's power-on reset (R579, R620): all its state but the key fuse is lost. -/
def State.islandReset (s : State) : State :=
  let r : State := { State.reset with
    pending := s.pending, free := s.free, hostMem := s.hostMem
    regs := s.regs.filter fun e => e.1 / 2 ^ 32 = Reg.IMG_KEY.ctorIdx
    image := { key := s.image.key }
    pcie := { perst := s.pcie.perst }
    twin := { chkIn := s.twin.chkIn } }
  r

/-- POWER_DOWN has ended in STANDBY: the state of the main domains is gone, and what waits for it follows. DEDUCED, log entry 23. -/
def State.downEnd (s : State) : State :=
  let s := if s.pstate = psStandby then s else s.pwrTo psStandby s.opCause
  let s := s.mainReset
  let s := if s.fget F.AON_BOOT.phase = 8 then s else s.fset F.AON_BOOT.phase 0 0 0
  let cycle := !s.power.failed && (s.power.op = some 3 || s.power.op = some 5)
  let s := s.modPower fun p => { p with down := false, failed := false, wasOff := true, offWait := cycle, selftest := none }
  if s.power.porWait then s.islandReset
  else if cycle then s else s.setOp none

/-- The highest `PWR_EN` bit that is set is cleared. -/
def State.clearTop (s : State) : State :=
  match (List.range 8).reverse.find? fun b => bit s.power.pwrEn b with
  | some b => (s.modPower fun p => { p with pwrEn := p.pwrEn - 2 ^ b, bit := b })
  | none => s

/-- POWER_DOWN begins: items 1–3 of R541 without the latch, and `PWR_EN` bit 7. DEDUCED, log entry 23. -/
def State.beginDown (s : State) : State :=
  let s := s.abandonChange.fset F.AON_STATUS.main_on 0 0 0
  let s := s.modPower fun p => { p with down := true }
  let s := { s with flt := { s.flt with gpioSafe := true } }
  let s := s.validPorts.foldl (fun s p => s.refreshSafe p) s
  let s : State := (List.range 4).foldl (fun s i => s.squelch i 4) s.refreshPps
  if s.power.pwrEn = 0 then s.downEnd else s.clearTop

/-- Main reset is held from now on, and the boot begins at step 2. -/
def State.beginMainReset (s : State) : State :=
  let s := s.abandonChange.fset F.AON_STATUS.main_on 0 0 0
  let s := if s.pstate = psService then s else s.pwrTo psService s.opCause
  let s := s.mainReset.bootBegin 2
  (s.modPower fun p => { p with wasOff := false, selftest := none })

/-- An operation of `AON_SEQ.op` is requested (R582); 5 is the CYCLE of R547. -/
def State.seqStart (s : State) (op : Nat) : State :=
  let result := fun (s : State) (c : Nat) => s.fset F.AON_SEQ.result 0 0 c
  let on := s.power.pwrEn = 0xFF
  if s.power.op.isSome then result s 1
  else match op with
    | 1 | 3 | 5 => ((result s 0).setOp (some op)).beginDown
    | 2 => if s.power.pwrEn ≠ 0 then result s 2 else (((result s 0).setOp (some 2)).fset F.AON_WAKE.cause 0 0 (2 ^ 7)).beginUp
    | 4 => if on then ((result s 0).setOp (some 4)).beginMainReset else result s 2
    | _ => (result s (s.freeNat 3)).nextFree

/-- A write of `AON_SEQ`. DESIGN CHOICE, log entry 24. -/
def State.effSeq (s : State) (v : Nat) : State := if bit v 35 then s.seqStart (bits v 33 31) else s

/-- GRAVE_CYCLE_TIMER (R547): `grave_cycle` seconds after the latch was set. -/
def execGraveCycleTimer (s : State) : Host.Outcome State Fault Refusal :=
  s.act fun s =>
    if s.flag F.AON_STATUS.grave ∧ s.fget F.AON_GRAVE.cycle ≠ 0 ∧ s.power.op.isNone then s.seqStart 5 else s

/-- POWER_DOWN_STEP (R582): 100 µs after the `PGOOD` of the last bit cleared has fallen, or 5 ms have passed. -/
def execPowerDownStep (fallen : Bool) (s : State) : Host.Outcome State Fault Refusal :=
  s.act fun s =>
    if !s.power.down then s
    else
      let pg := s.fget F.AON_SEQ.pgood
      let s := if fallen && bit pg s.power.bit then s.fset F.AON_SEQ.pgood 0 0 (pg - 2 ^ s.power.bit) else s
      if s.power.pwrEn = 0 then s.downEnd else s.clearTop

/-- CYCLE_OFF_EXPIRY (R582): `off` ms, at least 10, after POWER_DOWN. -/
def execCycleOffExpiry (s : State) : Host.Outcome State Fault Refusal :=
  s.act fun s => if s.power.offWait then s.beginUp else s

/-- The supplies are up: the operation ends, and boot step 2 begins. -/
def State.railsUp (s : State) : State :=
  let s := if s.pstate = psStandby then s.pwrTo psService s.opCause else s
  (s.setOp none).fset F.AON_BOOT.phase 0 0 2

/-- PGOOD_RISE (R621): 100 µs after a `PGOOD` has risen; with the last one the supplies are up. -/
def execPgoodRise (pgood : Nat) (s : State) : Host.Outcome State Fault Refusal :=
  s.act fun s =>
    if s.fget F.AON_BOOT.phase ≠ 1 ∨ s.power.down ∨ pgood ≠ s.power.bit then s
    else
      let s := s.fset F.AON_SEQ.pgood 0 0 (s.fget F.AON_SEQ.pgood ||| 2 ^ pgood)
      if pgood = 7 then s.railsUp
      else (s.modPower fun p => { p with pwrEn := p.pwrEn + 2 ^ (pgood + 1), bit := pgood + 1 })

/-- PGOOD_TIMEOUT (R621): the `PGOOD` of the last bit set has not risen for 20 ms. -/
def execPgoodTimeout (s : State) : Host.Outcome State Fault Refusal :=
  s.act fun s =>
    if s.fget F.AON_BOOT.phase ≠ 1 ∨ s.power.down then s
    else
      let b := s.power.bit
      let s := s.grave 37 0xF00 b 0
      let s := ((s.fset F.AON_BOOT.phase 0 0 8).fset F.AON_BOOT.fail 0 0 1).fset F.AON_BOOT.fail_bit 0 0 b
      (s.modPower fun p => { p with failed := true }).beginDown

/-! ## Wakes (R580) -/

/-- A wake for causes of `AON_WAKE.cause`: REST begins to end, now or after its entry; STANDBY powers up. -/
def State.wakeFor (s : State) (causes : Nat) : State :=
  if s.power.entering then (s.modPower fun p => { p with wake := p.wake ||| causes })
  else if s.pstate = psRest then (if s.power.leaving ∨ s.power.op.isSome then s else s.leaveRest causes)
  else if s.pstate = psStandby ∧ s.power.op.isNone ∧ !s.power.inPor then
    ((s.setOp (some 6)).fset F.AON_WAKE.cause 0 0 causes).beginUp
  else s

/-- WAKE_PIN (R580): a `WAKE`*i*`_N` has been low for 1 ms. -/
def execWakePin (pin : Nat) (s : State) : Host.Outcome State Fault Refusal :=
  s.act fun s => if pin < 4 ∧ bit (s.fget F.AON_WAKE.pin_en) pin then s.wakeFor (2 ^ pin) else s

/-- RTC_ALARM (R580): the low 36 bits of the counter's seconds equal `AON_ALARM`. -/
def execRtcAlarm (s : State) : Host.Outcome State Fault Refusal :=
  s.act fun s =>
    let a := s.fget F.AON_ALARM.sec
    if s.flag F.AON_WAKE.alarm_en ∧ a ≠ 0 ∧ s.fget F.AON_RTC.sec % 2 ^ 36 = a then s.wakeFor (2 ^ 4) else s

/-- SIGNAL_DETECT (R118, R580): a receiver of a port without AN sees signal; in REST it is a wake for a port not DISABLED. -/
def execSignalDetect (port : Nat) (s : State) : Host.Outcome State Fault Refusal :=
  s.act fun s =>
    let s := s.modPort port fun p => { p with signal := true }
    if s.pstate = psRest ∨ s.power.entering then
      if s.flag F.AON_WAKE.sig_en ∧ s.portState port ≠ pDisabled then s.wakeFor (2 ^ 5) else s
    else if s.portState port = pPresent ∧ !bit (s.portRec port) 13 then s.portTo port pTraining 4 else s

/-! ## The supplies (R579, R619, R620) -/

/-- The island runs from the other supply: counted, with cause 43. -/
def State.switchSupply (s : State) (bkup : Bool) : State :=
  if s.flag F.AON_STATUS.bkup = bkup then s
  else
    let s := (s.fset F.AON_STATUS.bkup 0 0 (ofBool bkup)).bumpSat F.AON_SUPPLY.switches 0 0
    s.advisory 43 0xF00 (if bkup then 1 else 2) 0

/-- SUPPLY_SWITCH (R579): `VAON_MAIN` falls below 1.62 V. -/
def execSupplySwitch (s : State) : Host.Outcome State Fault Refusal :=
  s.act fun s => (s.fset F.AON_SUPPLY.main_ok 0 0 0).switchSupply true

/-- SUPPLY_RETURN (R579): `VAON_MAIN` has stayed above 1.68 V for 10 ms. -/
def execSupplyReturn (s : State) : Host.Outcome State Fault Refusal :=
  s.act fun s => (s.fset F.AON_SUPPLY.main_ok 0 0 1).switchSupply false

/-- BKUP_SUPPLY_LOST (R579): `VAON_BKUP` falls below 1.62 V while selected, with `VAON_MAIN` above 1.68 V. -/
def execBkupSupplyLost (s : State) : Host.Outcome State Fault Refusal :=
  s.act fun s =>
    if s.flag F.AON_STATUS.bkup then ((s.fset F.AON_SUPPLY.bkup_ok 0 0 0).fset F.AON_SUPPLY.main_ok 0 0 1).switchSupply false
    else s.fset F.AON_SUPPLY.bkup_ok 0 0 0

/-- ISLAND_POR (R579): the selected supply falls below 1.55 V and the other does not qualify. -/
def execIslandPor (s : State) : Host.Outcome State Fault Refusal := s.act fun s => s.islandReset

/-- POR_N_ASSERT (R620): `POR_N` is low for 10 µs; with the main domains on, POWER_DOWN runs to its end first. -/
def execPorNAssert (s : State) : Host.Outcome State Fault Refusal :=
  s.act fun s =>
    if s.power.inPor then s
    else if s.power.pwrEn = 0 ∧ !s.power.down then s.islandReset
    else
      let s := (s.modPower fun p => { p with porWait := true })
      if s.power.down then s else (s.setOp (some 1)).beginDown

/-- ISLAND_RELEASE (R619): the island leaves power-on reset, samples `PAIR_ID`, and starts POWER_UP. -/
def execIslandRelease (pair : Nat) (mainOk bkupOk : Bool) (s : State) : Host.Outcome State Fault Refusal :=
  s.act fun s =>
    if !s.power.inPor then s
    else
      let s := (s.modPower fun p => { p with inPor := false }).fset F.GLB_STRAP.pair_id 0 0 pair
      let s := (s.fset F.AON_SUPPLY.main_ok 0 0 (ofBool mainOk)).fset F.AON_SUPPLY.bkup_ok 0 0 (ofBool bkupOk)
      let s := s.fset F.AON_STATUS.bkup 0 0 (ofBool !mainOk)
      (s.setOp (some 2)).beginUp

/-- CRYSTAL_STABLE (R619): the counter, the watchdog and the check line start. -/
def execCrystalStable (s : State) : Host.Outcome State Fault Refusal :=
  s.act fun s => (s.modPower fun p => { p with crystal := true })

end Sys2Proof.Machine
end

