-- ==== Sys2Proof/Machine/Boot.lean ====
section
/-! DEFINITION. The boot (R622–R629): fuses and PLLs, the self-test, main reset release, HBM training and the flash boot. -/

namespace Sys2Proof.Machine

/-! ## Steps 2 and 3 -/

/-- The boot ends FAILED, with the latch set. -/
def State.bootFail (s : State) (code cause unit : Nat) : State :=
  ((s.grave cause unit 0 0).fset F.AON_BOOT.phase 0 0 8).fset F.AON_BOOT.fail 0 0 code

/-- BOOT_FUSES_DONE (R622, R623): step 2 ends. The core, HBM and PCI Express PLLs are locked, and the endpoint is out of reset. -/
def execBootFusesDone (s : State) : Host.Outcome State Fault Refusal :=
  s.act fun s =>
    if s.fget F.AON_BOOT.phase ≠ 2 ∨ s.power.down then s
    else
      let s := ((s.fset F.PWR_CLK.core_lock 0 0 1).fset F.PWR_CLK.hbm_lock 0 0 1).fset F.PWR_CLK.pcie_lock 0 0 1
      let s := { s with pcie := { s.pcie with endpointUp := true, detect := !s.pcie.perst } }
      let s := if s.power.op = some 4 then s.setOp none else s
      s.fset F.AON_BOOT.phase 0 0 3

/-- PLL_LOCK_TIMEOUT (R624): a PLL has not locked 5 ms into step 2. -/
def execPllLockTimeout (s : State) : Host.Outcome State Fault Refusal :=
  s.act fun s =>
    if s.fget F.AON_BOOT.phase ≠ 2 ∨ s.power.down then s
    else
      let s := if s.power.op = some 4 then s.setOp none else s
      s.bootFail 2 36 0xFFF

/-- SELFTEST_DONE (R624): the self-test ends. `bsm`: the buffer state memory cannot be repaired; `other`: CMEM, an image bank or a switch core
plane cannot. `failed` names the other units and rows that cannot be repaired, each as the cause, the unit and the details of its record; for
cause 2 a second detail of 4 or more says that the bank fails as a whole. -/
def execSelftestDone (bsm other : Bool) (failed : List (Nat × Nat × Nat × Nat)) (s : State) : Host.Outcome State Fault Refusal :=
  s.act fun s =>
    if s.fget F.AON_BOOT.phase ≠ 3 ∨ s.power.down then s
    else if bsm then s.bootFail 3 19 0xA00
    else if other then s.bootFail 3 41 0xFFF
    else s.modPower fun p => { p with selftest := some failed }

/-! ## Step 4 (R624, R625, R630) -/

/-- A pseudo-channel is FENCED before use, and its stack's bench one serves its logical place. -/
def State.pcBeforeUse (s : State) (h p : Nat) : State :=
  let lp := s.fget F.HBC_PC.logical h p
  let was := s.fget F.HBC_PC.state h p
  let s := (s.countFenced 4 (pcUnit h p)).fset F.HBC_PC.state h p 3
  if was = 1 then (s.drop F.FLT_SPARE.left 0 4).showBench h
  else match s.benchPc h with
    | some b =>
      let s := ((s.fset F.HBC_PC.logical h b lp).fset F.HBC_PC.state h b 0).fset F.HBC_PC.logical h p 31
      (s.drop F.FLT_SPARE.left 0 4).showBench h
    | none => s

/-- A whole unit that the self-test could not repair: FENCED before first use, its record, and its spare's promotion. A slice's spare is named
by the first image. -/
def State.fenceBeforeUse (s : State) (cause u k d4 d5 : Nat) : State :=
  if k = 4 then (s.pcBeforeUse ((u - 0x900) / 32) ((u - 0x900) % 32)).fencing cause u d4 d5
  else if k = 0 then
    let first := (s.slicesIn ((u - 0x110) / 16) 5) = []
    let s := (s.countFenced 0 u).setSlice ((u - 0x110) / 16) ((u - 0x110) % 16) 5
    let s := if first then s.drop F.FLT_SPARE.left 0 0 else s
    s.fencing cause u d4 d5 16 false 0 4
  else
    let s := s.countFenced k u
    let s := if k = 2 then s.fset F.RWE_ENG.state ((u - 0x400) / 25) ((u - 0x400) % 25) 3 else s
    match s.autoSpare k u with
    | some b => (s.fencing cause u d4 d5 16 true 0 1 b [b]).startPromo k u b 2
    | none => s.fencing cause u d4 d5 16 false 0 3

/-- A row that the self-test could not repair: no repair row of its bank is left, so that its repair withdraws it (R227, R255, R556, R557). -/
def State.rowBeforeUse (s : State) (cause u d4 d5 : Nat) : State :=
  let left := rowsTotal u - s.rowsUsed u
  let s := { s with flt := { s.flt with repairLeft := tabInsert s.flt.repairLeft (5 * 4096 + u) (rowsTotal u) } }
  let s := s.drop F.FLT_SPARE.left 0 5 left
  if cause ≤ 16 then s.detectLow cause u d4 d5 false [] else s.detectHigh cause u d4 d5 false []

/-- A failure that a passed self-test found takes effect once step 4 begins. DEDUCED, log entry 21. -/
def State.selftestFailure (s : State) (f : Nat × Nat × Nat × Nat) : State :=
  let (cause, u, d4, d5) := f
  if cause = 1 ∨ cause = 18 ∨ cause = 20 ∨ (cause = 2 ∧ d5 < 4) then s.rowBeforeUse cause u d4 d5
  else match unitKind u with
    | some k => s.fenceBeforeUse cause u k d4 d5
    | none => s.fencing cause u d4 d5

/-- The latch clears when the main supplies were off before the boot (R547, R630), and the global safe state ends with it unless
`SAFE_REQ_N` holds it. -/
def State.clearLatch (s : State) : State :=
  if !s.power.wasOff then s
  else
    let s := s.fset F.AON_STATUS.grave 0 0 0
    if s.flt.safeReq ∨ s.flt.safeHold then s else s.leaveGlobal 1 (s.fget F.AON_GRAVE.unit)

/-- Device time takes the seconds of the real-time counter (R489). -/
def State.loadTime (s : State) : State :=
  { s with time := { s.time with now := s.fget F.AON_RTC.sec % 2 ^ 48 * secUnits } }

/-- Main reset as it is released: what step 2 and the host have set up of the endpoint stays. DEDUCED, log entry 21. -/
def State.releaseReset (s : State) : State :=
  let pcie := s.pcie
  let msix := s.msix
  let clk := s.rd .PWR_CLK
  let link := s.rd .DMA_LINK
  let s := { s.mainReset with pcie := pcie, msix := msix }
  (s.wr .PWR_CLK 0 0 clk).wr .DMA_LINK 0 0 link

/-- Step 4 begins: the island, its safe pattern and its watchdog. -/
def State.stepFour (s : State) : State :=
  let s := { s with flt := { s.flt with gpioSafe := s.flag F.AON_STATUS.safe_global } }
  let s := (s.fset F.AON_STATUS.main_on 0 0 1).fset F.AON_BOOT.phase 0 0 4
  let s := s.modPower fun p => { p with wdtAcc := 0, selftest := none, wasOff := false }
  s.fset F.AON_WDT_KICK.left 0 0 s.wdtFull

/-- MAIN_RESET_RELEASE (R489, R581, R624, R630): main reset is released once the self-test has passed. -/
def execMainResetRelease (s : State) : Host.Outcome State Fault Refusal :=
  s.act fun s => match s.power.selftest with
    | none => s
    | some failed =>
      if s.fget F.AON_BOOT.phase ≠ 3 ∨ s.power.down then s
      else
        let s := (s.clearLatch.releaseReset.loadTime).stepFour
        (byUnit (fun f => f.2.1) failed).foldl (fun s f => s.selftestFailure f) s.refreshFaultN

/-- A training failure's record (R625). -/
def State.trainFailed (s : State) (h p : Nat) : State := s.fencing 3 (pcUnit h p) 0x1FFFFF 0

/-- The flash boot begins: the loader reads slot A (R626). DEDUCED, log entry 21. -/
def State.flashBoot (s : State) : State :=
  let s := (s.fset F.AON_BOOT.phase 0 0 5).fset F.IMG_STATUS.loading 0 0 1
  { s with image := { s.image with load := some (noHeader .pf (some 0) true) } }

/-- A stack's training ends (R313, R625). `failed` are the physical pseudo-channels that failed. -/
def State.trainStack (s : State) (h : Nat) (ok : Bool) (failed : List Nat) : State :=
  let low := failed.foldl min (failed.headD 0)
  if !ok ∨ 2 ≤ failed.length then (s.fset F.HBC_STACK.state h 0 4).trainFailed h low
  else
    let s := if failed = [] then s else (s.pcBeforeUse h low).trainFailed h low
    let s := s.fset F.HBC_STACK.state h 0 1
    s.fset F.AON_BOOT.stacks 0 0 (s.fget F.AON_BOOT.stacks ||| 2 ^ h)

/-- HBM_TRAINING_DONE (R313, R625, R626): a stack's interface has trained (`ok`) or failed, and so have its pseudo-channels. With the last stack
the flash boot begins. -/
def execHbmTrainingDone (stack : Nat) (ok : Bool) (failed : List Nat) (s : State) : Host.Outcome State Fault Refusal :=
  s.act fun s =>
    if s.fget F.AON_BOOT.phase ≠ 4 ∨ 4 ≤ stack ∨ s.fget F.HBC_STACK.state stack ≠ 0 then s
    else
      let s := s.trainStack stack ok ((failed.filter (· < 32)).eraseDups)
      if (List.range 4).any fun h => s.fget F.HBC_STACK.state h = 0 then s else s.flashBoot

end Sys2Proof.Machine
end

