-- ==== Sys2Proof/Machine/Twin.lean ====
section
/-! DEFINITION. The twin link: lanes and cells, losses, the check line, ownership, redirected copies, synchronisation, cross DMA and time
(R591–R618). -/

namespace Sys2Proof.Machine

/-- Codes of `TWN_STATUS.link`. -/
def lkOff : Nat := 0
def lkTraining : Nat := 1
def lkUp : Nat := 2
def lkLost : Nat := 3
def lkMismatch : Nat := 4

/-- Codes of `TWN_LANE.state`. -/
def lnDown : Nat := 0
def lnTraining : Nat := 1
def lnUp : Nat := 2
def lnFenced : Nat := 3

/-- The state of the cross link. -/
def State.link (s : State) : Nat := s.fget F.TWN_STATUS.link

/-- The state of a cross lane. -/
def State.xlane (s : State) (i : Nat) : Nat := s.fget F.TWN_LANE.state 0 i

/-- The lanes in UP. -/
def State.lanesUp (s : State) : List Nat := (List.range 4).filter fun i => s.xlane i = lnUp

/-- The state of the cross link changes. -/
def State.setLink (s : State) (n : Nat) : State := s.fset F.TWN_STATUS.link 0 0 n

/-- A cross lane is in another state; `TWN_STATUS.lanes` shows the lanes in UP. -/
def State.setXlane (s : State) (i n : Nat) : State :=
  let s := s.fset F.TWN_LANE.state 0 i n
  s.fset F.TWN_STATUS.lanes 0 0 (s.lanesUp.map (2 ^ ·)).sum

/-- A control message (R595, R616). -/
def State.control (s : State) (m : TwinMsg) : State := (s.twinSend m).twnCount 4

/-- The link carries control: UP, or MISMATCH (R596). -/
def State.linkControl (s : State) : Bool := s.flag F.TWN_CFG.en && (s.link = lkUp || s.link = lkMismatch)

/-- The die number of this device. -/
def State.die (_ : State) : Nat := Config.dieSerial.toNat

/-! ## Lanes and cells (R593–R597) -/

/-- A lane leaves UP for another state: with other lanes in UP the link stays, and `note` says whether cause 44 tells it; with none it is UP
no longer. DEDUCED, log entry 61. -/
def State.leaveUp (s : State) (i new : Nat) (note : Bool) : State :=
  let was := s.xlane i
  let s := { s with twin := { s.twin with inRow := tabErase s.twin.inRow i } }.setXlane i new
  if was ≠ lnUp then s
  else if s.lanesUp ≠ [] then (if note ∧ s.link = lkUp then s.decide44 1 else s)
  else if s.link = lkUp then s.setLink lkTraining else s

/-- CROSS_LANE_UP (R593): a lane has trained and exchanged identity. With the first lane the link is UP. -/
def execCrossLaneUp (lane : Nat) (s : State) : Host.Outcome State Fault Refusal :=
  s.act fun s =>
    if !s.flag F.TWN_CFG.en ∨ 4 ≤ lane ∨ !s.flag F.TWN_LANE.lane_en 0 lane ∨ s.xlane lane ≠ lnTraining then s
    else
      let s := s.setXlane lane lnUp
      if s.link = lkTraining ∨ s.link = lkLost then (s.setLink lkUp).control (.identity s.die s.isBlack) else s

/-- CROSS_LANE_LOSS (R617): a lane loses signal or lock, and trains again. -/
def execCrossLaneLoss (lane : Nat) (s : State) : Host.Outcome State Fault Refusal :=
  s.act fun s => if lane < 4 ∧ s.xlane lane = lnUp then s.leaveUp lane lnTraining true else s

/-- CROSS_LANE_FAULT (R597): a lane's own logic check fails. -/
def execCrossLaneFault (lane : Nat) (s : State) : Host.Outcome State Fault Refusal :=
  s.act fun s =>
    if 4 ≤ lane ∨ s.xlane lane = lnFenced then s
    else
      let s := s.leaveUp lane lnFenced false
      s.fencing 44 0xC40 (s.fget F.TWN_STATUS.lanes + 9 * 2 ^ 8) s.pairs.length

/-- Messages whose cells all come before a sequence number have been acknowledged. -/
def acked (seq : Nat) : List TwinCell → List TwinCell
  | [] => []
  | e :: l => if e.cells ≤ (seq + 4096 - e.seq) % 4096 then acked seq l else e :: l

/-- Everything before a sequence number has been acknowledged; new progress ends a row of resends. -/
def State.ackTo (s : State) (seq : Nat) : State :=
  let out := acked seq s.twin.out
  { s with twin := { s.twin with out := out, inRow := if out.length < s.twin.out.length then [] else s.twin.inRow } }

/-- A cell is resent on a lane; 16 in a row retrain it. -/
def State.resend (s : State) (lane seq : Nat) : State :=
  if 4 ≤ lane ∨ s.xlane lane ≠ lnUp then s
  else
    let s := s.ackTo seq
    if s.twin.out = [] then s
    else
      let s := (s.bumpSat F.TWN_LANE.resends 0 lane).twnCount 10
      let n := tabGet 0 s.twin.inRow lane + 1
      let s := { s with twin := { s.twin with inRow := tabSet 0 s.twin.inRow lane n } }
      if 16 ≤ n then s.leaveUp lane lnTraining true else s

/-- CELL_RESEND_TIMER (R594): the cell with a sequence number has been unacknowledged for 20 µs. -/
def execCellResendTimer (lane seq : Nat) (s : State) : Host.Outcome State Fault Refusal := s.act fun s => s.resend lane seq

/-- CELL_NAK_RX (R594): the peer has not received the cell with a sequence number. -/
def execCellNakRx (lane seq : Nat) (s : State) : Host.Outcome State Fault Refusal := s.act fun s => s.resend lane seq

/-- KEEPALIVE_TIMER (R595): a keepalive on every lane in UP. -/
def execKeepaliveTimer (s : State) : Host.Outcome State Fault Refusal :=
  s.act fun s => if s.linkControl then s.lanesUp.foldl (fun s _ => s.control .keepalive) s else s

/-! ## Decisions (R596, R602, R604) -/

/-- Every pair is taken with BOTH_LOST (R604, steps 2 and 4). -/
def State.bothLost (s : State) : State :=
  let s := { s with twin := { s.twin with settling := false, guarding := false, fromEn := false } }.fset F.TWN_STATUS.decision 0 0 4
  (s.decide44 4).takeAll 6

/-- The cells held are discarded: each redirected copy among them is lost (R595). -/
def State.dropCells (s : State) : State :=
  let n := (s.twin.out.filter fun e => match e.msg with | .copy _ _ _ => true | _ => false).length
  { s.twnCount 3 n with twin := { s.twin with out := [], inRow := [] } }

/-- The device decides who owns the pairs (R604, steps 1 and 2): PEER entries are FENCED, decision 2 is raised, and the settle timer runs unless the
check line is silent. DEDUCED, log entry 61. -/
def State.beginSettle (s : State) : State :=
  let s := (s.pairs.filter fun n => s.fget F.TWN_DH.state 0 n = dhPeer).foldl (fun s n => s.setDh n dhFenced 4) s
  let s := s.decide44 2
  if s.twin.silent then s.bothLost
  else { s with twin := { s.twin with settling := true, guarding := false, fromEn := false } }.fset F.TWN_STATUS.decision 0 0 2

/-- The link is LOST (R595, R604, R632). -/
def State.loseLink (s : State) : State :=
  let s := s.lanesUp.foldl (fun s i => s.setXlane i lnTraining) s
  let s := ((s.setLink lkLost).twnCount 11).dropCells
  let s := (s.fset F.TWN_PEER_TIME.peer_locked 0 0 0)
  (if s.twin.moving.isSome then s.moveDone 3 else s).beginSettle

/-- CROSS_LINK_LOST (R595): no cell has arrived for `link_to`; `seq` is the first sequence number not acknowledged. -/
def execCrossLinkLost (seq : Nat) (s : State) : Host.Outcome State Fault Refusal :=
  s.act fun s =>
    if !s.flag F.TWN_CFG.en ∨ s.link = lkOff ∨ s.link = lkLost ∨ s.link = lkMismatch then s else (s.ackTo seq).loseLink

/-- SETTLE_EXPIRY (R604): the settle timer ends. At the end of one that `en` started the device begins to decide, as at the loss of the link, and
the timer runs again. -/
def execSettleExpiry (s : State) : Host.Outcome State Fault Refusal :=
  s.act fun s =>
    if !s.twin.settling then s
    else if s.twin.fromEn then s.beginSettle
    else if s.twin.silent then s.bothLost
    else
      let s := { s with twin := { s.twin with settling := false, guarding := !s.isBlack } }.fset F.TWN_STATUS.decision 0 0 3
      let s := s.decide44 3
      if s.isBlack then s.setAll dhFenced 5 else s

/-- GUARD_EXPIRY (R604): the white device takes every pair. -/
def execGuardExpiry (s : State) : Host.Outcome State Fault Refusal :=
  s.act fun s => if s.twin.guarding then { s with twin := { s.twin with guarding := false } }.takeAll 5 else s

/-- CHK_IN_EDGE (R599). -/
def execChkInEdge (s : State) : Host.Outcome State Fault Refusal :=
  s.act fun s => { s with twin := { s.twin with chkIn := !s.twin.chkIn, silent := false } }.fset F.AON_CHK.alive 0 0 1

/-- What a silence of the check line decides (R600, R604). A settle timer that `en` started decides at its end. -/
def State.silence (s : State) : State :=
  if !s.flag F.TWN_CFG.en ∨ s.link = lkMismatch then s
  else if s.link = lkUp then s.decide44 8
  else if s.twin.fromEn ∨ s.fget F.TWN_STATUS.decision = 4 then s
  else if s.link = lkLost ∨ s.twin.settling ∨ s.fget F.TWN_STATUS.decision = 3 then s.bothLost
  else s

/-- CHECK_LINE_SILENT (R599): no edge for 4 ms. -/
def execCheckLineSilent (s : State) : Host.Outcome State Fault Refusal :=
  s.act fun s =>
    if s.twin.silent then s
    else
      let s := { s with twin := { s.twin with silent := true } }
      let s := (s.fset F.AON_CHK.alive 0 0 0).bumpSat F.AON_CHK.lost 0 0
      if s.flag F.AON_STATUS.main_on then (s.twnCount 12).silence else s

/-- CHECK_SILENT_ADVISORY (R600): once per minute while the line is silent and the link UP. -/
def execCheckSilentAdvisory (s : State) : Host.Outcome State Fault Refusal :=
  s.act fun s => if s.linkUp ∧ s.twin.silent then s.decide44 8 else s

/-! ## Ownership at link UP (R596, R602, R605) -/

/-- What the peer reports of the entry that pairs with a local port: its state, and its `pref`. -/
def State.peerEntry (s : State) (n : Nat) (states : List (Nat × Nat)) : Option (Nat × Nat) :=
  (states.find? fun e => e.1 = s.fget F.TWN_DH.peer_port 0 n).map fun e => (e.2 % 4, e.2 / 4 % 2)

/-- A pair that both sides show as OWN (R602): white keeps it. -/
def State.dual (s : State) (n : Nat) : State :=
  let s := s.twnCount 14
  if s.isBlack then s.setDh n dhPeer 7 else s

/-- One pair at link UP. The white device's `pref` names the owner of a pair that neither owns. DEDUCED, log entry 61. -/
def State.settlePair (s : State) (n theirs pref : Nat) : State :=
  let mine := s.fget F.TWN_DH.state 0 n
  if mine = dhOwn ∧ theirs = dhOwn then s.dual n
  else if mine = dhOwn then s
  else if theirs = dhOwn then s.setDh n dhPeer 2
  else
    let black := if s.isBlack then pref else s.fget F.TWN_DH.pref 0 n
    s.setDh n (if (black = 1) = (s.isBlack = true) then dhOwn else dhPeer) 2

/-- LINK_UP_EXCHANGE (R596, R602): the peer's die number and role, and each of its entries as its port, its state in [1:0] and its `pref` in
[2]. -/
def execLinkUpExchange (serial : Nat) (black : Bool) (states : List (Nat × Nat)) (s : State) : Host.Outcome State Fault Refusal :=
  s.act fun s =>
    if !s.flag F.TWN_CFG.en ∨ s.link ≠ lkUp then s
    else
      let s := (s.wr .TWN_PEER_ID 0 0 (BitVec.ofNat 72 (serial % 2 ^ 64)))
      let s := { s with twin := { s.twin with settling := false, guarding := false, fromEn := false } }
      if black = s.isBlack then ((s.setLink lkMismatch).setAll dhFenced 2).decide44 7
      else
        let twice := s.pairs.any fun n => s.fget F.TWN_DH.state 0 n = dhOwn && match s.peerEntry n states with | some e => e.1 = dhOwn | none => false
        let s : State := s.pairs.foldl (fun s n => match s.peerEntry n states with
          | some (st, pf) => s.settlePair n st pf
          | none => s) s
        let s := s.fset F.TWN_STATUS.decision 0 0 1
        let s := if twice then s.decide44 6 else s
        let s := s.decide44 5
        if s.twin.silent then s.decide44 8 else s

/-- This device's ownership report: each valid entry's port with its state and `pref`. -/
def State.ownReport (s : State) : List Nat :=
  s.pairs.map fun n => n + s.fget F.TWN_DH.state 0 n * 2 ^ 8 + s.fget F.TWN_DH.pref 0 n * 2 ^ 10

/-- OWNERSHIP_REPORT (R602): every 1 ms each side sends its report; a pair that both show as OWN is resolved. -/
def execOwnershipReport (states : List (Nat × Nat)) (s : State) : Host.Outcome State Fault Refusal :=
  s.act fun s =>
    if !s.linkUp then s
    else
      let s := s.control (.ownership s.ownReport)
      let twice := s.pairs.filter fun n => s.fget F.TWN_DH.state 0 n = dhOwn && match s.peerEntry n states with | some e => e.1 = dhOwn | none => false
      if twice = [] then s else (twice.foldl (fun s n => s.dual n) s).decide44 6

/-- A write of `TWN_MOVE` with `go` (R605): `to` 1 hands the pair to the peer, 0 takes it. -/
def State.effMove (s : State) (port to_ : Nat) : State :=
  let answer := fun (c : Nat) => (s.fset F.TWN_MOVE.done 0 0 1).fset F.TWN_MOVE.result 0 0 c
  let own := s.fget F.TWN_DH.state 0 port = dhOwn
  if s.twin.moving.isSome then answer 1
  else if !s.linkUp then answer 3
  else if !s.flag F.TWN_DH.valid 0 port ∨ (own ∧ to_ = 0) ∨ (¬own ∧ to_ = 1) then answer 2
  else
    let s := { s with twin := { s.twin with moving := some (port + 256 * (to_ % 2)) } }
    let s := ((s.fset F.TWN_MOVE.done 0 0 0).fset F.TWN_MOVE.port 0 0 port).fset F.TWN_MOVE.to_ 0 0 to_
    if to_ = 1 then (if (s.port port).wire.isNone then s.movePair port else s)
    else s.control (.take (s.fget F.TWN_DH.peer_port 0 port))

/-- HANDOVER_RX (R605): the peer hands a pair over. -/
def execHandoverRx (port : Nat) (s : State) : Host.Outcome State Fault Refusal :=
  s.act fun s =>
    if !s.linkUp ∨ !s.flag F.TWN_DH.valid 0 port then s
    else
      let s := s.setDh port dhOwn 3
      if s.twin.moving = some port then s.moveDone 0 else s

/-! ## Redirected copies (R603) -/

/-- A redirected copy is given a buffer of its tenant's and enqueued on the port, with the queue set that it carries; one without is dropped as
NO_BUFFER or QUOTA (R31). DEDUCED, log entry 41. -/
def State.takeRedirect (s : State) (c : Copy) (bytes : List Byte) : State :=
  let pool := poolFor bytes.length
  match s.pickBuf pool, s.admitPart s.tagNow c.part (poolCharge pool) with
  | none, _ => s.bpmCount c.part 2
  | some _, none => s.swcCount c.part 5
  | some h, some a =>
    let s := (s.nextFree.hold h 0xC40 c.part a).bpmCount c.part 0
    let id := s.nextFrame
    let f : Frame := { port := 0, owner := c.part, group := c.port / 64, express := false, tag := s.tagNow, pre := 0, injected := some c.part,
                       len := bytes.length, known := bytes.length, ended := true, alloc := true, handle := h, rx := c.rx, switched := true }
    let s := { s with frames := tabInsert s.frames id f, nextFrame := id + 1 }
    let (why, s) := (s.bufWrite h 0 bytes).enqueue { c with frame := id, handle := h, len := bytes.length, tag := s.tagNow } c.part none
    if why = 0 then s.refreshOld else ({ s with frames := tabErase s.frames id }.freeDropped h).refreshOld

/-- REDIRECT_RX (R603): a redirected copy arrives for a local port with its result fields and its bytes. -/
def execRedirectRx (port tenant set cls colour qclass edit md l3 l4 l5 : Nat) (rx : Option Nat) (bytes : List Byte) (s : State) :
    Host.Outcome State Fault Refusal :=
  s.act fun s =>
    if !s.linkUp then s
    else
      let s := s.twnCount 1
      if !s.flag F.TWN_DH.valid 0 port ∨ s.fget F.TWN_DH.state 0 port ≠ dhOwn then s.twnCount 2
      else s.takeRedirect
        { id := 0, frame := 0, handle := 0, len := 0, part := tenant, port := port, set := set, qclass := qclass, cls := cls, colour := colour,
          tag := 0, edit := edit, md := md, l3 := l3, l4 := l4, l5 := l5, rx := rx } bytes

/-! ## Synchronisation (R606, R607) -/

/-- The record that its eight words spell (R453). -/
def recordOf (w : List Nat) : Record :=
  let at_ := fun i => w.getD i 0 % 2 ^ 36
  { code := at_ 0 / 2 ^ 28, unit := at_ 0 / 2 ^ 16 % 2 ^ 12, stamp := at_ 1 + at_ 2 * 2 ^ 36,
    p3 := at_ 3, p4 := at_ 4, p5 := at_ 5, p6 := at_ 6, p7 := at_ 7 }

/-- PEER_LEARN_RX (R606): the record goes to the partition's own sink with word 6 [28] set. -/
def execPeerLearnRx (part : Nat) (words : List Nat) (s : State) : Host.Outcome State Fault Refusal :=
  s.act fun s =>
    if !s.linkUp ∨ 16 < part then s
    else
      let r := recordOf words
      s.sinkSend part { r with p6 := r.p6 ||| 2 ^ 28 }

/-- REPLAY_RX (R607): a command of the peer's partition is issued against this device's, with the twin link as issuer. For a table command
`cmd` and `arg` are as `TBL_CMD` and `TBL_ARG` have them, and `keys` its key words; for a search-bank command `cmd` is as `TCM_CMD` has it,
`arg` the bank and `keys` the action. -/
def execReplayRx (part : Nat) (tcm : Bool) (op cmd arg : Nat) (keys val care : List Nat) (s : State) : Host.Outcome State Fault Refusal :=
  s.act fun s =>
    if !s.linkUp ∨ 16 < part then s
    else if tcm then
      s.issue { issuer := .twin, tcm := true, op := op, part := part, bank := arg % 64, entry := bits cmd 29 20, act := keys.headD 0,
                val := (List.range 16).map fun i => val.getD i 0, care := (List.range 16).map fun i => care.getD i 0 }
    else
      s.issue { tblReqOf .twin op cmd part arg ((List.range 15).map fun i => keys.getD i 0) with notify := false }

/-! ## Cross DMA and time (R608–R611) -/

/-- PEER_DMA_ACCESS (R608–R610): the peer writes or reads bytes at an offset of a partition's range. -/
def execPeerDmaAccess (part off : Nat) (write : Bool) (len : Nat) (bytes : List Byte) (s : State) : Host.Outcome State Fault Refusal :=
  s.act fun s =>
    if !s.linkUp then s
    else
      let a := off + (if part < 16 then 8 * s.cmemBase part else 0)
      let n := if write then bytes.length else len
      if 16 < part ∨ !bit (s.fget F.TWN_XDMA.parts) part ∨ !s.cmemReach part a n then s.twinSend (.refused 5)
      else if write then (s.cmemWrite a bytes).twnCount 9 n
      else (s.twinSend (.dmaData ((List.range n).map fun i => s.cmemByte (a + i)))).twnCount 8 n

/-- PEER_TIME_REPORT (R611): every 1 ms each side reports its `TIM_SYNC_ERR`. -/
def execPeerTimeReport (locked : Bool) (err : Nat) (s : State) : Host.Outcome State Fault Refusal :=
  s.act fun s =>
    if !s.linkUp then s
    else
      let s := s.control (.time (s.flag F.TIM_SYNC_ERR.locked) (s.fget F.TIM_SYNC_ERR.err))
      { s.fset F.TWN_PEER_TIME.peer_locked 0 0 (if locked then 1 else 0) with twin := { s.twin with peerErr := err % 2 ^ 20 } }

/-! ## Registers (R592, R602) -/

/-- A write of `TWN_CFG` over an old value: twin operation starts when `en` rises, and ends when it falls. -/
def State.effTwnCfg (s : State) (old : RegVal) : State :=
  let was := fldGet old 35 35 = 1
  let on := s.flag F.TWN_CFG.en
  let running := (List.range 4).filter fun i => s.xlane i ≠ lnFenced && s.flag F.TWN_LANE.lane_en 0 i
  if on ∧ !was then
    let s : State := running.foldl (fun s i => s.setXlane i lnTraining) s
    (s.setLink lkTraining).twinStart
  else if was ∧ !on then
    let s : State := running.foldl (fun s i => s.setXlane i lnDown) s
    let s := if s.twin.moving.isSome then s.moveDone 3 else s
    let s := { s with twin := { s.twin with settling := false, guarding := false, fromEn := false } }.dropCells
    (((s.setLink lkOff).fset F.TWN_STATUS.decision 0 0 0).fset F.TWN_PEER_TIME.peer_locked 0 0 0)
  else s

/-- A write of `TWN_LANE`: `lane_en` holds the lane DOWN, or lets it train. -/
def State.effTwnLane (s : State) (i : Nat) : State :=
  if s.xlane i = lnFenced ∨ !s.flag F.TWN_CFG.en then s
  else if !s.flag F.TWN_LANE.lane_en 0 i then s.leaveUp i lnDown true
  else if s.xlane i = lnDown then s.setXlane i lnTraining else s

/-- A write of `TWN_DH` over an old value: `valid` and `peer_port` only while the port is DISABLED. DEDUCED, log entry 61. -/
def State.effTwnDh (s : State) (n : Nat) (old : RegVal) : State :=
  let new := s.rd .TWN_DH 0 n
  let same := fldGet old 35 35 = fldGet new 35 35 ∧ fldGet old 31 24 = fldGet new 31 24
  if s.portState n = pDisabled ∨ same then s
  else
    let s := (s.fset F.TWN_DH.valid 0 n (fldGet old 35 35)).fset F.TWN_DH.peer_port 0 n (fldGet old 31 24)
    s.fset F.TWN_STATUS.dh_err 0 0 1

end Sys2Proof.Machine
end

