-- ==== Sys2Proof/Machine/Blocks.lean ====
section
/-! DEFINITION. Block resets (R98, R519, R632, R633). -/

namespace Sys2Proof.Machine

/-- The registers of a block, by its number in `GLB_BRESET`. -/
def blockRegs : Nat → List Reg
  | 0 => Reg.listIMG
  | 1 => Reg.listPWR
  | 2 => Reg.listMAC
  | 3 => Reg.listPRS
  | 4 => Reg.listSPR
  | 5 => Reg.listTBL
  | 6 => Reg.listTCM
  | 7 => Reg.listSWC
  | 8 => Reg.listBPM
  | 9 => Reg.listHBC
  | 10 => Reg.listSCH
  | 11 => Reg.listGTE
  | 12 => Reg.listRWE
  | 13 => Reg.listCCX
  | 14 => Reg.listDMA
  | 15 => Reg.listCPH
  | 16 => Reg.listTIM
  | 17 => Reg.listCNT
  | 18 => Reg.listFLT
  | 19 => Reg.listTWN
  | _ => []

/-- The registers of a block that show state which its reset keeps. -/
def blockKeep : Nat → List Reg
  | 0 => [.IMG_STATUS, .IMG_GEN, .IMG_OLD_FRAMES, .IMG_SCOPE_STATE0, .IMG_SCOPE_STATE1, .IMG_ACT_SERIAL, .IMG_KEY]
  | 1 => [.PWR_CLK, .PWR_RAIL]
  | 2 => [.MAC_STATUS, .MAC_PFC_OCC]
  | 4 => [.SPR_SLICE]
  | 6 => [.TCM_BANK]
  | 8 => [.BPM_ACCT, .BPM_OCC, .BPM_COCC, .BPM_QUAR, .BPM_PORTUSE, .BPM_PFREE]
  | 9 => [.HBC_STACK, .HBC_PC]
  | 10 => [.SCH_VT_NOW, .SCH_SET_VT]
  | 12 => [.RWE_ENG]
  | 13 => [.CCX_T_STATUS, .CCX_CORE]
  | 14 => [.DMA_LINK]
  | 15 => [.CPH_LOCK]
  | 18 => [.FLT_STATUS, .FLT_SPARE, .FLT_WEAR, .FLT_TAIL_DATA, .FLT_TAIL_STATUS]
  | 19 => [.TWN_CFG, .TWN_DH, .TWN_STATUS, .TWN_LANE]
  | _ => []

/-- The select register of a block. -/
def blockSel (b : Nat) : List Reg := selRegs.filter fun r => (blockRegs b).contains r

/-- The registers of a block return to their reset values, and every function's copy of its select register to that of R89. -/
def State.resetBlockRegs (s : State) (b : Nat) : State :=
  let s := s.eraseRegs ((blockRegs b).filter fun r => !(blockKeep b).contains r)
  (blockSel b).foldl (fun s r => allFuncs.foldl (fun s f => s.resetSel f r) s) s

/-! ## What each block does besides (R632) -/

/-- `IMG`: the load and the castling end; key words written are dropped. -/
def State.preImg (s : State) : State :=
  let s := (s.loadAbort).castleAbort
  { s with image := { s.image with fkey := [], fkeyOver := false } }

/-- `MAC`: every port goes to DISABLED. -/
def State.preMac (s : State) : State := s.validPorts.foldl (fun s p => s.portDisable p) s

/-- The ports whose I²C transaction is under way. -/
def State.i2cBusy (s : State) : List Nat := s.validPorts.filter fun p => s.flag F.MAC_I2C_CMD.busy p

/-- `PRS`: admission and punt buckets refill, and filters are unblocked. -/
def State.prePrs (s : State) : State := { s with buckets := s.buckets.filter (fun e => e.1 < 2 ^ 24), blocked := [] }

/-- `SPR`: every job in the reorder stores is declared late; a result that is back is dropped with it. -/
def State.preSpr (s : State) : State :=
  (List.range 4).foldl (fun s g => (s.group g).store.foldl (fun s id => (s.modFrame id fun f => { f with result := none }).lateJob id) s) s

/-- `TBL`, `TCM`: commands not yet accepted are discarded, and the learn filter is emptied. -/
def State.preTbl (s : State) (tcm : Bool) : State :=
  { s with tbl := { s.tbl with waiting := s.tbl.waiting.filter (fun r => r.tcm != tcm), filter := [] } }

/-- `SWC`: mirror sessions and the watch list are cleared. -/
def State.preSwc (s : State) : State := { s with watch := [], mirrors := [] }

/-- `HBC`: a retraining copy is abandoned (R317). -/
def State.preHbc (s : State) : State :=
  let s := s.hbm.visits.foldl (fun s v => (s.fset F.HBC_PC.state v.stack v.dst 1).showBench v.stack) s
  { s with hbm := { s.hbm with visits := [], round := [] } }

/-- The thread runs, waits or has stopped. -/
def State.threadLive (s : State) (t : Nat) : Bool :=
  let st := s.thrState t
  st = tRunning || st = tWaiting || st = tHalted || st = tExited || st = tMigrating

/-- `CCX`: every thread ends with exit value 1 (R403). -/
def State.preCcx (s : State) : State :=
  threadSlots.foldl (fun s t => if s.threadLive t then s.endThread t 1 else s) s

/-- `DMA`: items 1–3 of R434 for every channel. A FENCED channel stays FENCED. -/
def State.resetDma (s : State) : State :=
  let fenced := (List.range 80).filter fun ch => s.chanState ch = 6
  let s : State := (List.range 80).foldl (fun s ch => s.stopChannel ch) s
  (fenced.foldl (fun s ch => s.setChan ch 6) (s.resetBlockRegs 14)).fset F.DMA_LINK.retrains 0 0 0

/-- `CPH`: every lane is released. -/
def State.preCph (s : State) : State := (List.range 8).foldl (fun s l => s.releaseLane l) s

/-- `TIM`: lock ends, a pending step is dropped, and the outputs stop. The cause of the lock's end is open. DEDUCED, log entry 22. -/
def State.resetTim (s : State) : State :=
  let valid := s.fget F.TIM_STATUS.valid
  let s := if s.flag F.TIM_STATUS.lock then (s.endLock (s.freeNat 4)).nextFree else s
  let s : State := (List.range 4).foldl (fun s i => s.squelch i (s.freeNat 4)) s
  let s := { s.nextFree with time := { s.time with step := none, stepReq := false, syncDue := [], syncConf := [] } }
  ((s.resetBlockRegs 16).fset F.TIM_STATUS.valid 0 0 valid).refreshPps

/-- `CNT`: the snapshot ends, and the shadows are cleared. -/
def State.preCnt (s : State) : State :=
  let s := s.snapAbort
  { s with snap := { s.snap with shadow := [], flags := [] } }

/-- `TWN`: every lane is enabled again, and what it counts starts anew. -/
def State.resetTwn (s : State) : State :=
  let s := (s.fset F.TWN_STATUS.dh_err 0 0 0)
  (List.range 4).foldl (fun s i => ((s.fset F.TWN_LANE.resends 0 i 0).fset F.TWN_LANE.lane_en 0 i 1).effTwnLane i) s

/-- `BPM`: the least numbers of free buffers start from the present ones. -/
def State.postBpm (s : State) : State := (List.range 16).foldl (fun s p => s.fset F.BPM_PMIN.min 0 p (s.poolFree p)) s

/-- A block is reset. DEDUCED, log entry 22. -/
def State.resetBlock (s : State) (b : Nat) : State :=
  match b with
  | 0 => s.preImg.resetBlockRegs 0
  | 1 => s.finishChange.resetBlockRegs 1
  | 2 =>
    let busy := s.i2cBusy
    let s := s.preMac.resetBlockRegs 2
    let s : State := busy.foldl (fun s p => s.fset F.MAC_I2C_CMD.result p 0 4) s
    s.refreshHeadroom
  | 3 => s.prePrs.resetBlockRegs 3
  | 4 =>
    let s := s.preSpr.resetBlockRegs 4
    (List.range 4).foldl (fun s g => s.showGroup g) s
  | 5 => (s.preTbl false).resetBlockRegs 5
  | 6 => (s.preTbl true).resetBlockRegs 6
  | 7 => s.preSwc.resetBlockRegs 7
  | 8 => (s.resetBlockRegs 8).postBpm
  | 9 => (List.range 4).foldl (fun s h => s.fset F.HBC_STACK.mask_err h 0 0) (s.preHbc.resetBlockRegs 9)
  | 13 =>
    let s := s.preCcx.resetBlockRegs 13
    { s with time := { s.time with coreBase := s.time.cycles } }
  | 14 => s.resetDma
  | 15 => s.preCph.resetBlockRegs 15
  | 16 => s.resetTim
  | 17 => s.preCnt.resetBlockRegs 17
  | 19 => ((if s.flag F.TWN_CFG.en ∧ s.link ≠ lkMismatch then s.loseLink else s).resetBlockRegs 19).resetTwn
  | b => s.resetBlockRegs b

/-- A write of `GLB_BRESET`: each block named is in reset from now on, whatever others are. -/
def State.effBreset (s : State) (blocks : Nat) : State :=
  let s : State := (List.range 20).foldl (fun s b => if bit blocks b then s.resetBlock b else s) s
  { s with held := (List.range 20).filter fun b => s.held.contains b || bit blocks b }

/-- BLOCK_RESET_END (R98): at most 10 µs after the write. -/
def execBlockResetEnd (block : Nat) (s : State) : Host.Outcome State Fault Refusal :=
  s.act fun s => { s with held := s.held.filter (· ≠ block) }

end Sys2Proof.Machine
end

