-- ==== Sys2Proof/Machine/Shown.lean ====
section
/-! DEFINITION. What a register shows when it is read: the fields that the device computes at the read, from the state that they describe. -/

namespace Sys2Proof.Machine

/-- A register value with one field replaced. -/
def setFld (v : RegVal) (f : Fld) (n : Nat) : RegVal := fldSet v f.hi f.lo n

/-- A one-bit field from a condition. -/
def oneIf (b : Bool) : Nat := if b then 1 else 0

/-! ## Views of RWL registers (R40) -/

/-- The function reads the SHADOW copies of RWL registers. -/
def State.seesShadow (s : State) (f : Func) : Bool := s.flag F.IMG_VIEW.shadow f.idx

/-- The bank of a scope that a function's reads of RWL registers see. -/
def State.viewBank (s : State) (f : Func) (scope : Nat) : Nat :=
  if s.seesShadow f then s.shadowOf scope else (s.scope scope).active % 2

/-- The state in which a scope's SHADOW bank stands in place of its ACTIVE one, for functions that judge a list by its plane tag. -/
def State.withShadow (s : State) (scope : Nat) : State :=
  let x : Scope := { active := s.shadowOf scope, old := (s.scope scope).old }
  { s with image := { s.image with scopes := tabSet {} s.image.scopes scope x } }

/-! ## Indirect spaces (R188, R259, R351, R383) -/

/-- The scope that an index of a range of partitions belongs to: the tenant whose range of the record word holds it, else H. -/
def State.rangeScope (s : State) (w bl bh cl ch i : Nat) : Nat :=
  ((List.range 16).find? fun p =>
    s.partEnabled p && (let v := s.partWord p w; decide (bits v bh bl ≤ i ∧ i < bits v bh bl + bits v ch cl))).getD 16

/-- The word that `PRS_IND_ADDR` of a function addresses: its space, scope, section type and word index; none when the address is out of range
or not open to the function. -/
def State.prsInd (s : State) (f : Func) : Option (Nat × Nat × Nat × Nat) :=
  let a := (s.rd .PRS_IND_ADDR f.idx).toNat
  let sp := bits a 35 33
  let i := bits a 25 16
  let w := bits a 5 0
  let part := bits a 30 26
  let own := fun (sc : Nat) => match f with | .vf n => sc = n | _ => true
  let tenant : Bool := match f with | .vf _ => true | _ => false
  match sp with
  | 0 =>
    let sc := s.rangeScope 24 17 24 25 33 i
    if 256 ≤ i ∨ 8 ≤ w ∨ !own sc then none else some (0, sc, 3, i * 8 + w)
  | 1 =>
    let sc := s.rangeScope 24 0 7 8 16 i
    if 256 ≤ i ∨ 40 ≤ w ∨ !own sc then none else some (1, sc, 3, 2048 + 40 * i + w)
  | 2 => if tenant ∨ 16 < part ∨ 4 ≤ w then none else some (2, part, 6, i * 4 + w)
  | 3 => if tenant ∨ 16 < part ∨ i = 0 ∨ 256 ≤ i ∨ 2 ≤ w then none else some (3, part, 6, 4096 + 2 * i + w)
  | 4 => if tenant ∨ 16 < part ∨ i = 0 ∨ 256 ≤ i ∨ w ≠ 0 then none else some (4, part, 0, part * 256 + i)
  | _ => none

/-- The word that `TCM_IND_ADDR` of a function addresses, of the selected bank's masks or of the profiles: its scope and word index in
SEARCH. -/
def State.tcmInd (s : State) (f : Func) : Option (Nat × Nat) :=
  let a := (s.rd .TCM_IND_ADDR f.idx).toNat
  let b := s.fget F.TCM_SEL.index f.idx % 64
  let prof := bits a 15 8
  if !bit a 35 then
    let sc := (s.bankOwner b).getD 16
    let w := fldGet (s.rdPlane sc (s.viewBank f sc) .TCM_BANK_CFG b) 33 32
    if 32 ≤ b ∨ 4 * 2 ^ (max 1 w - 1) ≤ bits a 3 0 then none else some (sc, b * 512 + bits a 7 4 * 16 + bits a 3 0)
  else
    let sc := s.rangeScope 24 0 7 8 16 prof
    match f with
    | .vf n => if sc = n then some (sc, 65536 + prof) else none
    | _ => some (sc, 65536 + prof)

/-- The entry that `GTE_IND_ADDR` of a function addresses in a port's list: its scope and word index; none at or above the length of the list
in the function's view. -/
def State.gteInd (s : State) (f : Func) : Option (Nat × Nat) :=
  let p := s.fget F.GTE_SEL.index f.idx
  let e := s.fget F.GTE_IND_ADDR.entry f.idx
  let sc := s.portHolder p
  let len := max 1 (min 256 (fldGet (s.rdPlane sc (s.viewBank f sc) .GTE_CTL p) 8 0))
  if s.selOpen f .GTE_SEL p && decide (e < len) then some (sc, p * 256 + e) else none

/-- The word that `RWE_IND_ADDR` of a function addresses: its space, scope, word index in RWCODE and store word. -/
def State.rweInd (s : State) (f : Func) : Option (Nat × Nat × Nat × Nat) :=
  let a := (s.rd .RWE_IND_ADDR f.idx).toNat
  let i := bits a 27 14
  let w := bits a 3 0
  match bits a 35 34 with
  | 0 => some (0, 16, i, i)
  | 1 => if 4096 ≤ i ∨ 4 ≤ w then none else some (1, 16, 16384 + 4 * i + w, i)
  | 2 => if 4096 ≤ i ∨ i = 0 then none else some (2, s.progScope s.tagNow i, 65536 + 16 * i + w, 16 * i + w)
  | _ => none

/-- A word of a section as a function's view shows it. -/
def State.viewWord (s : State) (f : Func) (scope type i : Nat) : RegVal :=
  BitVec.ofNat 72 (tabGet 0 (s.plane scope (s.viewBank f scope)).words (type * 2 ^ 28 + i)).toNat

/-- What an `_IND_DATA` register shows a function; zero when the address is refused. What a fenced control-store word reads is open (R381).
DESIGN CHOICE, log entry 71. -/
def State.indData (s : State) (f : Func) (r : Reg) : RegVal :=
  match r with
  | .PRS_IND_DATA => match s.prsInd f with
    | some (4, _, _, k) => if tabGet 0 s.blocked k = 0 then 0 else 1
    | some (_, sc, t, i) => s.viewWord f sc t i
    | none => 0
  | .TCM_IND_DATA => match s.tcmInd f with | some (sc, i) => s.viewWord f sc 5 i | none => 0
  | .GTE_IND_DATA => match s.gteInd f with | some (sc, i) => s.viewWord f sc 9 i | none => 0
  | .RWE_IND_DATA => match s.rweInd f with
    | some (sp, sc, i, j) =>
      if s.wordFenced (s.fget F.RWE_SEL.index f.idx) (storeKey sp (s.viewBank f sc) sc j) then BitVec.ofNat 72 (s.freeNat 36)
      else s.viewWord f sc 11 i
    | none => 0
  | _ => 0

/-! ## GLB, select registers and IMG -/

/-- `GLB` and the select registers. -/
def State.shownGlb (s : State) (f : Func) (r : Reg) (raw : RegVal) : RegVal :=
  match r with
  | .GLB_ID => setFld raw F.GLB_ID.variant Config.variant.toNat
  | .GLB_SERIAL => setFld raw F.GLB_SERIAL.die Config.dieSerial.toNat
  | .GLB_FUNC => setFld (setFld raw F.GLB_FUNC.console (oneIf (f = .console))) F.GLB_FUNC.part f.part
  | .GLB_STATUS =>
    let v := setFld raw F.GLB_STATUS.breset (oneIf (s.held ≠ []))
    let v := setFld v F.GLB_STATUS.pstate (if s.pstate ≤ 2 then s.pstate else 0)
    let v := setFld v F.GLB_STATUS.safe_global (s.fget F.AON_STATUS.safe_global)
    setFld v F.GLB_STATUS.fault (s.fget F.AON_STATUS.fault_n)
  | .IMG_SCOPE_STATE0 => match f with
    | .vf n => if n < 12 then raw &&& fldMask (3 * n + 2) (3 * n) else 0
    | _ => raw
  | .IMG_SCOPE_STATE1 => match f with
    | .vf n => if 12 ≤ n then raw &&& fldMask (3 * (n - 12) + 2) (3 * (n - 12)) else 0
    | _ => raw
  | _ => if selRegs.contains r && !s.selOpen f r (fldGet raw 11 0) then fldSet raw 12 12 1 else raw

/-! ## MAC, TBL and TCM -/

/-- Exact-match units of a partition that hold valid entries. -/
def State.emUsed (s : State) (p : Nat) : Nat :=
  ((s.usedBuckets p).map fun b => ((bucketEntries s.tbl.units b).map fun e => e.w).sum).sum

/-- Units that a partition's prefixes use. -/
def State.lpmUsed (s : State) (p : Nat) : Nat :=
  ((s.tbl.prefixes.filter fun e => e.part = p).map fun e => prefixUnits e.v6).sum

/-- The highest block in use of a partition's region. -/
def State.regionHigh (s : State) (p k : Nat) : Nat :=
  let r := s.region s.tagNow p k
  extentOf s.tbl.units s.tbl.prefixes p k r.1 r.2 - 1

/-- `MAC`, `TBL` and `TCM`. -/
def State.shownTables (s : State) (f : Func) (r : Reg) (c i : Nat) (raw : RegVal) : RegVal :=
  match r with
  | .MAC_PARTNER =>
    let seen := tabGet s.time.cycles (s.port c).timers (100 + i)
    if fldGet raw 35 35 = 1 then setFld raw F.MAC_PARTNER.age (min 1023 ((s.time.cycles - seen) / (1000000 * clocksPerUs))) else raw
  | .MAC_CNT => if i = 29 then setFld raw F.MAC_CNT.count (s.heldUs c) else raw
  | .MAC_MODE => setFld raw F.MAC_MODE.record (if s.portValid c then s.portWord s.tagNow c 0 else 0)
  | .TBL_STATUS => setFld raw F.TBL_STATUS.em_used (s.emUsed c)
  | .TBL_LPM_STATUS => setFld (setFld raw F.TBL_LPM_STATUS.lpm_hi (s.regionHigh c 1)) F.TBL_LPM_STATUS.lpm_used (s.lpmUsed c)
  | .TBL_EXTENT =>
    setFld (setFld (setFld raw F.TBL_EXTENT.act_hi (s.regionHigh c 2)) F.TBL_EXTENT.nh_hi (s.regionHigh c 3))
      F.TBL_EXTENT.mcl_hi (s.regionHigh c 4)
  | .TCM_BANK =>
    match (if 32 ≤ c % 64 then s.logicalOf (c / 64) (c % 64) else some (c % 64)) with
    | none => raw
    | some b =>
      let owner := s.bankOwner b
      let v := setFld (setFld raw F.TCM_BANK.owner (owner.getD 31)) F.TCM_BANK.valid (s.bankValid b)
      if owner.isNone && decide (fldGet raw 35 33 = 0) then setFld v F.TCM_BANK.state 4 else v
  | .TCM_IND_ADDR => setFld raw F.TCM_IND_ADDR.err (oneIf (s.tcmInd f).isNone)
  | .PRS_IND_ADDR => setFld raw F.PRS_IND_ADDR.err (oneIf (s.prsInd f).isNone)
  | _ => raw

/-! ## SWC, BPM and HBC -/

/-- The state of an HBM stack as `HBC_STACK` shows it: an OPEN or CLOSED stack is in self-refresh in REST, an OPEN one in DOZE while it holds no block (R564).
DEDUCED, log entry 18. -/
def State.stackState (s : State) (h : Nat) : Nat :=
  let st := s.fget F.HBC_STACK.state h
  if (st = 1 ∨ st = 2) ∧ (s.pstate = psRest ∨ (st = 1 ∧ s.pstate = psDoze ∧ !s.stackUsed h)) then 3 else st

/-- `SWC`, `BPM` and `HBC`. -/
def State.shownMemory (s : State) (r : Reg) (c i : Nat) (raw : RegVal) : RegVal :=
  match r with
  | .SWC_STATUS =>
    let n := fun g => (s.group g).copyFifo.length
    setFld (setFld (setFld (setFld raw F.SWC_STATUS.cf0 (n 0)) F.SWC_STATUS.cf1 (n 1)) F.SWC_STATUS.cf2 (n 2)) F.SWC_STATUS.cf3 (n 3)
  | .SWC_INFLIGHT => setFld (setFld raw F.SWC_INFLIGHT.copies (s.inflight c).1) F.SWC_INFLIGHT.bytes (s.inflight c).2
  | .BPM_PFREE => setFld raw F.BPM_PFREE.free (if s.poolExists i then s.poolFree i else 0)
  | .HBC_STACK =>
    let v := setFld (setFld raw F.HBC_STACK.state (s.stackState c)) F.HBC_STACK.free (s.stackFree c)
    if fldGet raw 35 33 = 0 ∨ fldGet raw 35 33 = 4 then v else setFld v F.HBC_STACK.temp (Config.stackTemp c s.time.cycles).toNat
  | .HBC_REFRESH =>
    let st := s.fget F.HBC_STACK.state c
    if st = 0 ∨ st = 4 then raw else setFld raw F.HBC_REFRESH.rate (Config.refreshRate (Config.stackTemp c s.time.cycles)).toNat
  | .HBC_PC =>
    let lp := s.fget F.HBC_PC.logical c i
    setFld (setFld raw F.HBC_PC.used (if lp < 31 then s.pcUsed c lp else 0)) F.HBC_PC.credits (s.writeCredits c i)
  | .HBC_USE => setFld raw F.HBC_USE.blocks (s.deepUse s.tagNow c)
  | .HBC_INFLIGHT => setFld (setFld raw F.HBC_INFLIGHT.copies (s.deepInflight c).1) F.HBC_INFLIGHT.bytes (s.deepInflight c).2
  | .HBC_FREE => setFld raw F.HBC_FREE.free s.hbmFree
  | _ => raw

/-! ## SCH, GTE and RWE -/

/-- A shaper's credit in whole bytes, two's complement; zero at rate 0. -/
def State.creditBytes (s : State) (n : Nat) : Nat :=
  if s.shRate n = 0 then 0 else ((s.credit n / 400) % (2 ^ 36 : Int)).toNat

/-- The classes of a port with an eligible head. -/
def State.readyClasses (s : State) (port : Nat) : Nat :=
  ((List.range 8).map fun c =>
    if (List.range 16).any fun set => s.queueEligible (queueNo port set c) then 2 ^ c else 0).sum

/-- `SCH`. -/
def State.shownSch (s : State) (f : Func) (r : Reg) (c i : Nat) (raw : RegVal) : RegVal :=
  let port := c / 16
  let set := c % 16
  match r with
  | .SCH_SET => match f with | .vf n => setFld raw F.SCH_SET.set_ n | _ => raw
  | .SCH_PORT_STATUS =>
    let up := s.portState c = pUp && !s.flag F.MAC_STATUS.rem_fault c
    let v := setFld (setFld raw F.SCH_PORT_STATUS.serving (oneIf up)) F.SCH_PORT_STATUS.hold (oneIf (s.portHold c s.time.now))
    setFld v F.SCH_PORT_STATUS.ready (s.readyClasses c)
  | .SCH_PORT_CREDIT => setFld raw F.SCH_PORT_CREDIT.credit (s.creditBytes (shPort c))
  | .SCH_SET_CREDIT => setFld raw F.SCH_SET_CREDIT.credit (s.creditBytes (shSet port set))
  | .SCH_CREDIT => setFld raw F.SCH_CREDIT.credit (s.creditBytes (shCls port set i))
  | .SCH_Q =>
    let n := queueNo port set i
    let v := setFld (setFld raw F.SCH_Q.deep (oneIf (s.queue n).isDeep)) F.SCH_Q.eligible (oneIf (s.queueEligible n))
    setFld v F.SCH_Q.occ ((s.queueBytes (s.queue n) + 63) / 64)
  | _ => raw

/-- `GTE_STATE` of a port's list in force under a plane tag: a list not in use shows every gate open. DEDUCED, log entry 18. -/
def State.gteState (s : State) (port tag : Nat) (raw : RegVal) : RegVal :=
  if !s.gclOn port tag then raw
  else
    let e := s.gclEntry port tag s.time.now
    let v := setFld (setFld raw F.GTE_STATE.gates (entryGates e.2)) F.GTE_STATE.hold (oneIf (s.listHold port tag s.time.now))
    setFld (setFld v F.GTE_STATE.started (oneIf (s.gclStarted port tag s.time.now))) F.GTE_STATE.entry e.1

/-- `GTE`: the status registers follow the function's view, and a list that is not running reads zero (R351). -/
def State.shownGte (s : State) (f : Func) (r : Reg) (c i : Nat) (raw : RegVal) : RegVal :=
  let sc := s.portHolder c
  let shadow := s.seesShadow f
  match r with
  | .GTE_IND_ADDR => setFld raw F.GTE_IND_ADDR.err (oneIf (s.gteInd f).isNone)
  | .GTE_STATE =>
    if !shadow then s.gteState c s.tagNow raw
    else if s.holdsOld c ∧ (s.scope sc).old % 2 = s.shadowOf sc then s.gteState c (1 - s.tagNow) raw
    else 0
  | .GTE_WIN =>
    let q := if shadow then s.withShadow sc else s
    match q.gateWindow c s.tagNow i with
    | none => setFld raw F.GTE_WIN.always 1
    | some w => setFld (setFld raw F.GTE_WIN.always 0) F.GTE_WIN.window w
  | _ => raw

/-- The CRC-32C of the standard library in scope H's ACTIVE bank (R378); zero before an image gives one. -/
def State.libCrc (s : State) : Nat :=
  if (s.plane 16 (s.activeOf 16)).present.contains 11 then
    crc32c (((List.range 8192).flatMap fun i => bytesLE 8 (s.pword 16 s.tagNow 11 i)) ++
      ((List.range 8192).flatMap fun i => bytesLE 8 (s.pword 16 s.tagNow 11 (16384 + i))))
  else 0

/-- Engines of a cluster, as their numbers satisfy a condition. -/
def State.countEngines (s : State) (c : Nat) (p : Nat → Engine → Bool) : Nat :=
  ((List.range 25).filter fun e => p e (s.eng c e)).length

/-- `RWE`. -/
def State.shownRwe (s : State) (f : Func) (r : Reg) (c i : Nat) (raw : RegVal) : RegVal :=
  match r with
  | .RWE_LIB =>
    let crc := s.libCrc
    setFld (setFld raw F.RWE_LIB.crc crc) F.RWE_LIB.release (if crc = 0 then 0 else (Config.libRelease crc).toNat)
  | .RWE_IND_ADDR => setFld raw F.RWE_IND_ADDR.err (oneIf (s.rweInd f).isNone)
  | .RWE_STATUS =>
    let runs := fun (b : Nat) => s.countEngines c fun _ g => match g.run with | some x => x.bank = b | none => false
    let v := setFld (setFld raw F.RWE_STATUS.active (s.countEngines c fun e _ => s.engActive c e)) F.RWE_STATUS.busy
      (s.countEngines c fun _ g => engineCopies g ≠ [])
    let v := setFld v F.RWE_STATUS.stalled (s.countEngines c fun _ g => g.stalledAt.isSome)
    let v := setFld (setFld v F.RWE_STATUS.lat_b0 (runs 0)) F.RWE_STATUS.lat_b1 (runs 1)
    setFld v F.RWE_STATUS.waiting (tabGet {} s.clusters c).input.length
  | .RWE_ENG =>
    let g := s.eng c i
    let v := setFld (setFld raw F.RWE_ENG.credits (2 - (engineCopies g).length)) F.RWE_ENG.stalled (oneIf g.stalledAt.isSome)
    match g.run with
    | some x => setFld (setFld (setFld v F.RWE_ENG.bank x.bank) F.RWE_ENG.busy 1) F.RWE_ENG.edit x.copy.edit
    | none => v
  | _ => raw

/-! ## CCX -/

/-- The thread is in the common pool, FREE. -/
def State.freePool (s : State) : Nat := (threadSlots.filter fun t => s.thrState t = tFree).length

/-- Static slots of a partition in service. -/
def State.staticSlots (s : State) (p : Nat) : Nat :=
  (threadSlots.filter fun t => s.thrPart t = p && !(s.thr t).drawn &&
    decide (s.thrState t ≠ tFenced ∧ s.thrState t ≠ tBench ∧ s.thrState t ≠ tFree)).length

/-- Slots of a position that are neither FREE nor IDLE. -/
def State.busySlots (s : State) (k : Nat) : Nat :=
  ((List.range 8).map fun t => if s.thrState (8 * k + t) = tFree ∨ s.thrState (8 * k + t) = tIdle then 0 else 2 ^ t).sum

/-- `CCX`. What `CCX_T_PC` shows of a thread that is RUNNING is open, since it is sampled otherwise. A sample record whose slot belongs to another partition reads zero through a VF. -/
def State.shownCcx (s : State) (f : Func) (r : Reg) (c i : Nat) (raw : RegVal) : RegVal :=
  match r with
  | .CCX_T_STATUS => setFld raw F.CCX_T_STATUS.super (oneIf (s.supervisor (s.thrPart c) = some c))
  | .CCX_T_PC => if s.thrState c = tRunning then BitVec.ofNat 72 (s.freeNat 36) else raw
  | .CCX_T_BSHARE => setFld raw F.CCX_T_BSHARE.held (s.heldBy c)
  | .CCX_T_REG =>
    let t := s.fget F.CCX_SEL.index f.idx
    if s.thrState t = tHalted ∨ s.thrState t = tExited then
      BitVec.ofNat 72 (s.greg t (s.fget F.CCX_CFG.reg_sel f.idx)).toNat
    else 0
  | .CCX_CORE =>
    let slow := s.fget F.CCX_CORE.freq c < s.fget F.CCX_CFG.slow_freq
    setFld (setFld raw F.CCX_CORE.slow (oneIf slow)) F.CCX_CORE.busy (s.busySlots c)
  | .CCX_CYCLE => BitVec.ofNat 72 (s.time.cycles - s.time.coreBase)
  | .CCX_SAMPLE => match f with
    | .vf n => if fldGet (s.rd .CCX_SAMPLE c (i / 4 * 4)) 31 27 = n then raw else 0
    | _ => raw
  | .CCX_CFG => setFld raw F.CCX_CFG.reg_sel (s.fget F.CCX_CFG.reg_sel f.idx)
  | .CCX_FREE => setFld raw F.CCX_FREE.free s.freePool
  | .CCX_P_STATUS =>
    let v := setFld (setFld raw F.CCX_P_STATUS.static (s.staticSlots c)) F.CCX_P_STATUS.drawn (s.drawn c)
    setFld v F.CCX_P_STATUS.dyn_used (s.dynUsed c)
  | _ => raw

/-! ## DMA, CPH, TIM and CNT -/

/-- `DMA`, `CPH`, `TIM` and `CNT`. -/
def State.shownUnits (s : State) (f : Func) (r : Reg) (c i : Nat) (raw : RegVal) : RegVal :=
  match r with
  | .DMA_CH_STATUS => setFld raw F.DMA_CH_STATUS.state (s.chanState c)
  | .CPH_FREE =>
    let mask := fun (p : Nat → Bool) => ((List.range 8).map fun l => if p l then 2 ^ l else 0).sum
    let v := setFld (setFld raw F.CPH_FREE.held (s.lanesHeld f.part)) F.CPH_FREE.fenced (mask fun l => s.flag F.CPH_LOCK.fenced l)
    setFld v F.CPH_FREE.free (mask fun l => s.laneFree l)
  | .TIM_NOW => s.stamp
  | .CNT_BANK =>
    let w := s.viewOf f c
    let v := setFld (setFld (setFld raw F.CNT_BANK.count (bankCount c)) F.CNT_BANK.open_first w.1) F.CNT_BANK.open_count w.2
    setFld v F.CNT_BANK.reset (oneIf (s.snap.flags.contains c))
  | .CNT_VIEW_SIZE => setFld raw F.CNT_VIEW_SIZE.bytes (viewBytes (s.view f))
  | .CNT_ENTRY =>
    let w := s.viewOf f c
    if w.1 ≤ i ∧ i < w.1 + w.2 then BitVec.ofNat 72 (s.entryRead f c i) else 0
  | _ => raw

/-! ## FLT, PWR, AON and TWN -/

/-- A partition's unit, as R93, R434 and R546 let a VF see faults of it: its threads and its channels, and the lanes and ports that it holds. -/
def State.holdsUnit (s : State) (p u : Nat) : Bool :=
  (0x800 ≤ u && u < 0x890 && s.thrPart (u - 0x800) = p) || (0xB00 + 4 * p ≤ u && u < 0xB04 + 4 * p) ||
    (0xB80 ≤ u && u < 0xB88 && s.holderOf (u - 0xB80) = p) || (u < 0x100 && s.exclusiveT s.tagNow u = some p)

/-- The words of a slot's record as merged; zero for a free slot. -/
def State.slotWord (s : State) (slot w : Nat) : Nat :=
  match s.slotRec slot with
  | some x => (offRing (faultPayload x) x.part)[w]?.getD 0
  | none => 0

/-- A word of the tailings log: words 0–7 the record, word 8 the real-time counter. What an entry of failed parity reads is open.
DESIGN CHOICE, log entry 19. -/
def State.tailWord (s : State) (e w : Nat) : Nat :=
  match s.flt.tail[e]? with
  | some x =>
    if !x.valid then (Config.freeValue (s.free + 16 * e + w)).toNat % 2 ^ 36
    else if w < 8 then x.words[w]?.getD 0 else if w = 8 then x.rtc else 0
  | none => 0

/-- The tailings address of a path: `FLT_TAIL_ADDR` of a function, or `AON_TAIL_ADDR`. -/
def State.tailAt (s : State) (v : RegVal) : RegVal := BitVec.ofNat 72 (s.tailWord (fldGet v 8 4) (fldGet v 3 0))

/-- The unit has a monitor (R549). -/
def hasMonitor (mon u : Nat) : Bool :=
  match mon with
  | 0 => unitKind u = some 0 || unitKind u = some 2 || unitKind u = some 3
  | 1 => unitKind u = some 1
  | 2 => unitKind u = some 4
  | 3 => (0x200 ≤ u && u < 0x400 && u % 64 < 34) || (0xA00 ≤ u && u < 0xA60)
  | 4 | 5 => u < 256 && u % 8 = 0
  | 6 => u < 256
  | _ => false

/-- The value of a monitor: the clock fraction of monitor 0, the last reading of the others; what a monitor not yet read shows is open.
DESIGN CHOICE, log entry 19. -/
def State.monitorValue (s : State) (mon u lane : Nat) : Nat :=
  match mon with
  | 0 => match unitKind u with
    | some 0 => s.fget F.SPR_SLICE.freq ((u - 0x110) / 16) ((u - 0x110) % 16)
    | some 2 => s.fget F.RWE_ENG.freq ((u - 0x400) / 25) ((u - 0x400) % 25)
    | _ => s.fget F.CCX_CORE.freq ((u - 0x800) / 8)
  | _ => (tabFind s.flt.wear (wearKey mon u lane)).getD ((Config.freeValue (2 ^ 64 + wearKey mon u lane)).toNat % 2 ^ 16)

/-- The value is past its level (R549). -/
def State.monitorPast (s : State) (mon u lane : Nat) : Bool :=
  match mon with
  | 0 => match unitKind u with
    | some 0 => s.flag F.SPR_SLICE.slow ((u - 0x110) / 16) ((u - 0x110) % 16)
    | some 2 => s.flag F.RWE_ENG.slow ((u - 0x400) / 25) ((u - 0x400) % 25)
    | _ => decide (s.fget F.CCX_CORE.freq ((u - 0x800) / 8) < s.fget F.CCX_CFG.slow_freq)
  | _ => s.flt.crossed.contains (wearKey mon u lane)

/-- `FLT_WEAR` for the unit and monitor that a function selects. -/
def State.shownWear (s : State) (f : Func) : RegVal :=
  let v := (s.rd .FLT_WEAR_SEL f.idx).toNat
  let mon := bits v 19 16
  let u := bits v 11 0
  let lane := if mon = 6 then bits v 22 20 else 0
  if !hasMonitor mon u then 0
  else setFld (setFld (setFld 0 F.FLT_WEAR.valid 1) F.FLT_WEAR.crossed (oneIf (s.monitorPast mon u lane))) F.FLT_WEAR.value
    (s.monitorValue mon u lane)

/-- `FLT`. -/
def State.shownFlt (s : State) (f : Func) (r : Reg) (i : Nat) (raw : RegVal) : RegVal :=
  match r with
  | .FLT_STATUS =>
    let v := setFld (setFld raw F.FLT_STATUS.grave (s.fget F.AON_STATUS.grave)) F.FLT_STATUS.fault_n (s.fget F.AON_STATUS.fault_n)
    let v := setFld (setFld v F.FLT_STATUS.safe_global (s.fget F.AON_STATUS.safe_global)) F.FLT_STATUS.safe_req (oneIf s.flt.safeReq)
    setFld v F.FLT_STATUS.open_ (s.flt.recs.filter fun x => x.slot < 64).length
  | .FLT_SLOT_DATA => BitVec.ofNat 72 (s.slotWord (s.fget F.FLT_SLOT_ADDR.slot f.idx) i)
  | .FLT_WEAR => s.shownWear f
  | .FLT_TAIL_DATA => s.tailAt (s.rd .FLT_TAIL_ADDR f.idx)
  | .FLT_TAIL_STATUS => s.rd .AON_TAIL_STATUS
  | _ => raw

/-- `TWN_PEER_TIME.both`: both devices report locked (R611). -/
def State.bothLocked (s : State) : Bool :=
  s.linkUp && s.flag F.TWN_PEER_TIME.peer_locked && s.flag F.TIM_SYNC_ERR.locked

/-- `PWR`, `AON` and `TWN`. -/
def State.shownIsland (s : State) (f : Func) (r : Reg) (raw : RegVal) : RegVal :=
  match r with
  | .PWR_STATUS => setFld raw F.PWR_STATUS.state (if s.pstate ≤ 2 then s.pstate else 0)
  | .PWR_AVS => setFld raw F.PWR_AVS.target (700 + Config.avsTarget.toNat % 101)
  | .AON_STATUS => setFld raw F.AON_STATUS.log_frozen (s.fget F.AON_TAIL_STATUS.frozen)
  | .AON_TAIL_DATA => s.tailAt (s.rd .AON_TAIL_ADDR f.idx)
  | .TWN_STATUS => setFld (setFld raw F.TWN_STATUS.role (oneIf s.isBlack)) F.TWN_STATUS.alive (s.fget F.AON_CHK.alive)
  | .TWN_PEER_TIME =>
    let both := s.bothLocked
    setFld (setFld raw F.TWN_PEER_TIME.both (oneIf both)) F.TWN_PEER_TIME.bound
      (if both then min 1048575 (s.fget F.TIM_SYNC_ERR.err + s.twin.peerErr) else 1048575)
  | _ => raw

/-- What a register shows a function: `raw` is what the register file or the plane in view holds. DEDUCED, log entry 18. -/
def State.shown (s : State) (f : Func) (r : Reg) (c i : Nat) (raw : RegVal) : RegVal :=
  match blockOf r.place.addr with
  | 20 | 0 => s.shownGlb f r raw
  | 2 | 3 | 5 | 6 => s.shownTables f r c i (s.shownGlb f r raw)
  | 7 | 8 | 9 => s.shownMemory r c i (s.shownGlb f r raw)
  | 10 => s.shownSch f r c i (s.shownGlb f r raw)
  | 11 => s.shownGte f r c i (s.shownGlb f r raw)
  | 12 => s.shownRwe f r c i (s.shownGlb f r raw)
  | 13 => s.shownCcx f r c i (s.shownGlb f r raw)
  | 14 | 15 | 16 | 17 => s.shownUnits f r c i (s.shownGlb f r raw)
  | 18 => s.shownFlt f r i raw
  | 1 | 19 | 21 => s.shownIsland f r raw
  | _ => s.shownGlb f r raw

end Sys2Proof.Machine
end

