-- ==== Sys2Proof/Machine/Access.lean ====
section
/-! DEFINITION. Which register, CMEM word or refusal an address of BAR0 leads to, and reads of it (R75–R95, R104–R107, R567, R623). -/

namespace Sys2Proof.Machine

/-- Where an access to a slot leads: a register's copy and element, and whether the slot is its high word; a CMEM word; a slot that reads zero
and ignores writes; a refusal with a reason of R95. -/
inductive Target where
  | reg (r : Reg) (c i : Nat) (high : Bool)
  | cmem (w : Nat)
  | nothing
  | refused (reason : Nat)
  deriving DecidableEq, Repr

/-! ## Power and resets -/

/-- Blocks served before boot step 4 and in REST: `GLB`, `PWR`, `FLT` and the `AON` mirror (R567, R623). -/
def alwaysServed (b : Nat) : Bool := b = 20 || b = 1 || b = 18 || b = 21

/-- Why a block refuses every access of a function now; 0 when it does not: 5 RESET, 6 POWER. -/
def State.blockCode (s : State) (f : Func) (b : Nat) : Nat :=
  let on := s.flag F.AON_STATUS.main_on
  if b = 21 ∧ f = .console then 0
  else if !on ∧ f = .console then 6
  else if !on ∧ !alwaysServed b then 5
  else if s.pstate = psRest ∧ !alwaysServed b then 6
  else if s.held.contains b then 5
  else 0

/-! ## Rights (R91–R94) -/

/-- Registers with one copy per function that address the instance selected (R259, R351, R383, R425). -/
def selOfFunction (r : Reg) : Option Reg :=
  match r with
  | .TCM_CMD | .TCM_RESULT | .TCM_COMMIT_AT | .TCM_ACT | .TCM_HIT | .TCM_VAL | .TCM_CARE | .TCM_IND_ADDR | .TCM_IND_DATA => some .TCM_SEL
  | .GTE_IND_ADDR => some .GTE_SEL
  | .RWE_IND_DATA => some .RWE_SEL
  | .CCX_T_REG => some .CCX_SEL
  | _ => none

/-- The select register that chooses the instance of a register. -/
def regSel (r : Reg) : Option Reg := (r.place.home.sel).orElse fun _ => selOfFunction r

/-- The function's index in a select register. -/
def State.selIndex (s : State) (f : Func) (r : Reg) : Nat := fldGet (s.rd r f.idx) 11 0

/-- `sel_err` of a function's select register reads 1 (R90, R91). -/
def State.selErr (s : State) (f : Func) (r : Reg) : Bool :=
  fldGet (s.rd r f.idx) 12 12 = 1 || !s.selOpen f r (s.selIndex f r)

/-- The queue set that a function addresses: its own through a VF (R350). -/
def State.setOf (s : State) (f : Func) : Nat := match f with | .vf n => n | _ => s.fget F.SCH_SET.set_ f.idx

/-- The copy of a register that an access of a function reaches; `part` is the partition that a window address names. -/
def State.copyOf (s : State) (f : Func) (r : Reg) (part : Option Nat) : Nat :=
  match r.place.home with
  | .one => match r with | .AON_TAIL_ADDR => f.idx | _ => 0
  | .function => f.idx
  | .partition => part.getD f.part
  | _ => match r.place.home.sel with
    | some q => instCopy r (s.selIndex f q) (s.setOf f)
    | none => 0

/-- A VF does not reach the register at all: its column in the register table, a window of partition copies, or a partition that is not
enabled. -/
def State.vfClosed (s : State) (n : Nat) (r : Reg) (part : Option Nat) : Bool :=
  let b := blockOf r.place.addr
  part.isSome || r.place.who = .owner || (b ≠ 20 && b ≠ 0 && !s.partEnabled n)

/-- What a VF may not reach in a register open to it: a lane that its partition does not hold, a pool or a fault slot that is not its own, a
counter outside its view (R292, R485, R510, R560), and writes to `TIM` (R506). -/
def State.vfForeign (s : State) (n : Nat) (r : Reg) (c i : Nat) (write : Bool) : Bool :=
  match r with
  | .BPM_PFREE => !(s.poolExists i && 4 ≤ i && s.poolPart i = n)
  | .CNT_ENTRY => let w := s.viewOf (.vf n) c; decide (i < bankCount c ∧ ¬(w.1 ≤ i ∧ i < w.1 + w.2))
  | .FLT_SLOT_DATA => match s.slotRec (s.fget F.FLT_SLOT_ADDR.slot n) with
    | some x => !s.holdsUnit n x.unit
    | none => true
  | _ => (r.place.who = .holder && s.holderOf c ≠ n) || (write && blockOf r.place.addr = 16)

/-- The address behind an `_IND_DATA` register is refused (R188, R259, R351, R383). -/
def State.indClosed (s : State) (f : Func) (r : Reg) : Bool :=
  match r with
  | .PRS_IND_DATA => (s.prsInd f).isNone
  | .TCM_IND_DATA => (s.tcmInd f).isNone
  | .GTE_IND_DATA => (s.gteInd f).isNone
  | .RWE_IND_DATA => (s.rweInd f).isNone
  | _ => false

/-- Through indexes 32 and 33 of a replica only `TCM_BANK` answers (R259); a command through them is issued and refused (R248). -/
def State.benchIndex (s : State) (f : Func) (r : Reg) : Bool :=
  regSel r = some .TCM_SEL && r ≠ .TCM_BANK && r ≠ .TCM_CMD && decide (32 ≤ s.selIndex f .TCM_SEL % 64)

/-- Where an access to a register leads: rights, then the block's power and reset, then the selected instance. -/
def State.openReg (s : State) (f : Func) (r : Reg) (part : Option Nat) (i : Nat) (high write : Bool) : Target :=
  let c := s.copyOf f r part
  let code := s.blockCode f (blockOf r.place.addr)
  let vf := fun (p : Nat → Bool) => match f with | .vf n => p n | _ => false
  let badSel := match regSel r with | some q => s.selErr f q | none => false
  if vf (fun n => s.vfClosed n r part) then .refused 1
  else if code ≠ 0 then .refused code
  else if badSel then .refused 2
  else if s.benchIndex f r then .nothing
  else if vf (fun n => s.vfForeign n r c i write) || s.indClosed f r then .refused 1
  else .reg r c i high

/-- A word of CMEM is open to a function: a tenant's own range (R93, R100). -/
def State.openCmem (s : State) (f : Func) (w : Nat) : Target :=
  match f with
  | .vf n =>
    let r := s.partWord n 26
    if !s.partEnabled n ∨ w < 4096 * bits r 8 0 ∨ 4096 * (bits r 8 0 + bits r 18 9) ≤ w then .refused 1
    else if s.blockCode f 22 ≠ 0 then .refused (s.blockCode f 22) else .cmem w
  | _ => if s.blockCode f 22 ≠ 0 then .refused (s.blockCode f 22) else .cmem w

/-- Where an access of a function to the slot at an address of BAR0 leads. DEDUCED, log entry 13. -/
def State.target (s : State) (f : Func) (a : Nat) (write : Bool) : Target :=
  let undefined : Target := match f with
    | .vf _ => .refused 1
    | .console => if s.flag F.AON_STATUS.main_on ∨ blockOf a = 21 then .nothing else .refused 6
    | .pf => .nothing
  match regAt a with
  | some (r, i, h) => s.openReg f r none i h write
  | none => match windowAt a with
    | some (r, p, i, h) => s.openReg f r (some p) i h write
    | none => if blockOf a = 22 then s.openCmem f ((a - 0x3000000) / 8) else undefined

/-! ## Refusals (R95) -/

/-- A refused access is counted, while the main domains can hold the counts. -/
def State.refuse (s : State) (f : Func) (reason : Nat) (write : Bool) (a : Nat) : State :=
  if s.flag F.AON_STATUS.main_on ∨ s.pcie.endpointUp then
    let s := s.bumpSat F.GLB_REFUSED.count f.idx 0
    let s := match f with | .vf n => s.bumpSat F.GLB_TREF.count 0 n | _ => s
    s.wr .GLB_REFUSED_LAST f.idx 0 (BitVec.ofNat 72 (reason * 2 ^ 32 + (if write then 2 ^ 31 else 0) + a % 2 ^ 26))
  else s

/-- A function's reply to a read. -/
def State.replyWith (s : State) (f : Func) (v : Nat) : State := s.modFn f fun x => { x with reply := v }

/-! ## Reads -/

/-- What the register file, or the plane in the function's view, holds of a register. -/
def State.rawReg (s : State) (f : Func) (r : Reg) (c i : Nat) : RegVal :=
  if isInd r then s.indData f r
  else if isRwl r then
    let sc := s.rwlScope r c
    s.rdPlane sc (s.viewBank f sc) r c i
  else s.rd r c i

/-- What a read of a register returns. -/
def State.readReg (s : State) (f : Func) (r : Reg) (c i : Nat) : RegVal := s.shown f r c i (s.rawReg f r c i) &&& ~~~(woMask r)

/-- The side effects of the read that returns bits [31:0] of a register's low word (R83): read-clear fields clear, a pool's least number of free
buffers starts again from the present one, and `TIM_NOW` latches the upper seconds (R506). -/
def State.readEffect (s : State) (f : Func) (r : Reg) (c i : Nat) : State :=
  match r with
  | .BPM_PMIN => s.fset F.BPM_PMIN.min c i (s.poolFree i)
  | .TIM_NOW => s.fset F.TIM_SEC_HI.sec_hi f.idx 0 (s.time.now / secUnits / 2 ^ 36)
  | _ => if rcMask r = 0 then s else s.wr r c i (s.rd r c i &&& ~~~(rcMask r))

/-- What names a 72-bit register's copy in a word stage or latch: its low slot and its copy. -/
def wordKey (a c : Nat) (high : Bool) : Nat := (if high then a - 8 else a) * 2 ^ 16 + c

/-- The word of a slot that a read of a register returns now (R79, R82). -/
def State.slotNow (s : State) (f : Func) (a : Nat) (r : Reg) (c i : Nat) (high : Bool) : Nat :=
  if high then
    match (s.fn f).wlatch with
    | some (k, w) => if k = wordKey a c true then w else (s.readReg f r c i).toNat / 2 ^ 36
    | none => (s.readReg f r c i).toNat / 2 ^ 36
  else (s.readReg f r c i).toNat % 2 ^ 36

/-- The effect of a read of bits [31:0] of a slot: the word latch, and the side effects of the low word's read. -/
def State.slotRead (s : State) (f : Func) (a : Nat) (r : Reg) (c i : Nat) (high : Bool) : State :=
  if high then s
  else
    let v := (s.readReg f r c i).toNat
    let s := if r.place.wide then s.modFn f fun x => { x with wlatch := some (wordKey a c false, v / 2 ^ 36) } else s
    s.readEffect f r c i

/-- A 64-bit read of a slot (R79). -/
def State.readWord (s : State) (f : Func) (a : Nat) : State :=
  match s.target f a false with
  | .refused code => (s.refuse f code false a).replyWith f 0
  | .nothing => s.replyWith f 0
  | .cmem w => s.replyWith f (s.cget w).toNat
  | .reg r c i h => (s.slotRead f a r c i h).replyWith f (s.slotNow f a r c i h)

/-- A 32-bit read of a slot's low half, which latches its bits [35:32] (R81). -/
def State.readLow (s : State) (f : Func) (a : Nat) : State :=
  let give := fun (s : State) (w : Nat) => (s.modFn f fun x => { x with latch := some (a, w / 2 ^ 32) }).replyWith f (w % 2 ^ 32)
  match s.target f a false with
  | .refused code => (s.refuse f code false a).replyWith f 0
  | .nothing => s.replyWith f 0
  | .cmem w => give s (s.cget w).toNat
  | .reg r c i h => give (s.slotRead f a r c i h) (s.slotNow f a r c i h)

/-- A 32-bit read of a slot's high half: the latched bits where the latch holds the slot (R81). DESIGN CHOICE, log entry 71. -/
def State.readHigh (s : State) (f : Func) (a : Nat) : State :=
  let give := fun (now : Nat) => match (s.fn f).latch with
    | some (k, b) => s.replyWith f (if k = a then b else now / 2 ^ 32)
    | none => s.replyWith f (now / 2 ^ 32)
  match s.target f a false with
  | .refused code => (s.refuse f code false (a + 4)).replyWith f 0
  | .nothing => s.replyWith f 0
  | .cmem w => give (s.cget w).toNat
  | .reg r c i h => give (s.slotNow f a r c i h)

/-! ## BAR2: the MSI-X table and pending bits (R430, R432) -/

/-- The bytes of a function's MSI-X table entry. -/
def State.msixBytes (s : State) (fn v : Nat) : List Byte :=
  let e := s.vec fn v
  bytesLE 8 e.addr ++ bytesLE 4 e.data ++ bytesLE 4 (oneIf e.masked)

/-- A byte of BAR2. -/
def State.bar2Byte (s : State) (fn a : Nat) : Nat :=
  if a < 16 * msixCount fn then ((s.msixBytes fn (a / 16))[a % 16]?.getD 0).toNat
  else if 0x8000 ≤ a ∧ a < 0x8000 + msixCount fn / 8 then
    ((List.range 8).map fun b => if (s.vec fn (8 * (a - 0x8000) + b)).pend then 2 ^ b else 0).sum
  else 0

/-- A read of up to eight bytes of BAR2. -/
def State.bar2Read (s : State) (f : Func) (a n : Nat) : State :=
  s.replyWith f ((List.range n).map fun i => s.bar2Byte f.idx (a + i) * 256 ^ i).sum

/-- A vector takes new table bytes: one that is unmasked with its pending bit set sends its message. -/
def State.msixPut (s : State) (fn v : Nat) (bs : List Byte) : State :=
  let addr := ofLE (bs.take 8) / 4 * 4
  let masked := ofLE ((bs.drop 12).take 1) % 2 = 1
  let s := s.modVec fn v fun e => { e with addr := addr, data := ofLE ((bs.drop 8).take 4), masked := masked }
  if (s.vec fn v).pend ∧ !masked then s.sendVec fn v else s

/-- A write to BAR2 of the bytes of a slot that `be` enables. DEDUCED, log entry 16. -/
def State.bar2Write (s : State) (f : Func) (a be v : Nat) : State :=
  let fn := f.idx
  if a < 16 * msixCount fn then
    let old := s.msixBytes fn (a / 16)
    s.msixPut fn (a / 16) ((List.range 16).map fun i =>
      if a % 16 ≤ i ∧ i < a % 16 + 8 ∧ bit be (i - a % 16) then BitVec.ofNat 8 (v / 256 ^ (i - a % 16)) else old[i]?.getD 0)
  else s

/-! ## Reads by commands -/

/-- A function's accesses have an effect: the console's always, the others' while the link is in L0. DEDUCED, log entry 15. -/
def State.reachable (s : State) (f : Func) : Bool :=
  match f with
  | .console => true
  | _ => s.pcie.l0

/-- The access is to BAR2, which the console does not have. -/
def toBar2 (f : Func) (bar : Nat) : Bool := bar = 2 && f ≠ .console

/-- READ_CLEAR_ACCESS (R79, R83, R84): a read of a slot with the byte enables `be`. -/
def execReadClearAccess (fn : Func) (bar be addr : Nat) (s : State) : Host.Outcome State Fault Refusal :=
  s.act fun s =>
    let a := addr / 8 * 8
    if !s.reachable fn then s
    else if toBar2 fn bar then s.bar2Read fn a 8
    else match be with
      | 0xFF => s.readWord fn a
      | 0x0F => s.readLow fn a
      | 0xF0 => s.readHigh fn a
      | _ => (s.refuse fn 4 false a).replyWith fn 0

/-- LOW_HALF_READ (R81). -/
def execLowHalfRead (fn : Func) (bar addr : Nat) (s : State) : Host.Outcome State Fault Refusal :=
  s.act fun s =>
    if !s.reachable fn then s else if toBar2 fn bar then s.bar2Read fn (addr / 8 * 8) 4 else s.readLow fn (addr / 8 * 8)

/-- HIGH_HALF_READ (R81). -/
def execHighHalfRead (fn : Func) (bar addr : Nat) (s : State) : Host.Outcome State Fault Refusal :=
  s.act fun s =>
    if !s.reachable fn then s else if toBar2 fn bar then s.bar2Read fn (addr / 8 * 8 + 4) 4 else s.readHigh fn (addr / 8 * 8)

/-- GLB_FENCE_READ (R97): `late` when writes posted earlier had not taken effect within 100 µs; here every write has. -/
def execGlbFenceRead (fn : Func) (late : Bool) (s : State) : Host.Outcome State Fault Refusal :=
  s.act fun s =>
    if !s.reachable fn then s
    else match s.target fn 0x30 false with
      | .reg .. => s.replyWith fn (oneIf late)
      | .refused code => (s.refuse fn code false 0x30).replyWith fn 0
      | _ => s.replyWith fn 0

end Sys2Proof.Machine
end

