-- ==== Sys2Proof/Machine/Writes.lean ====
section
/-! DEFINITION. Writes to registers: the access codes, RWL writes to SHADOW banks, and what each register's write does (R9, R40, R79–R82, R90,
R377). -/

namespace Sys2Proof.Machine

/-! ## RWL writes (R40) -/

/-- A scope's SHADOW bank takes RWL writes: SYNCED, or STAGED for scope H. -/
def State.rwlOpen (s : State) (sc : Nat) : Bool := s.scopeState sc = 1 || (sc = 16 && s.scopeState sc = 4)

/-- The scope that a write of an RWL register goes to. -/
def State.rwlTarget (s : State) (f : Func) (r : Reg) (c : Nat) : Nat :=
  match r with
  | .PRS_IND_DATA => match s.prsInd f with | some (_, sc, _, _) => sc | none => 16
  | .TCM_IND_DATA => match s.tcmInd f with | some (sc, _) => sc | none => 16
  | .RWE_IND_DATA => match s.rweInd f with | some (_, sc, _, _) => sc | none => 16
  | _ => s.rwlScope r c

/-- The write of `PRS_IND_DATA` is to filter state, which is no RWL copy. -/
def State.filterState (s : State) (f : Func) (r : Reg) : Bool :=
  r = .PRS_IND_DATA && match s.prsInd f with | some (4, _, _, _) => true | _ => false

/-- The engine that has latched the control-store bank that `RWE_IND_DATA` of a function would write (R377). -/
def State.latchedInd (s : State) (f : Func) (r : Reg) : Option (Nat × Nat) :=
  if r = .RWE_IND_DATA then
    match s.rweInd f with
    | some (sp, sc, _, _) => s.latchedBy sp sc (s.shadowOf sc)
    | none => none
  else none

/-- Why a write that would reach a register is refused: LOCKED for an RWL register through a VF or of a scope that takes none (R40, R377), and
NOT_OWNED for `CPH_LOCK.rel` by a tenant not holding the lane (R469); 0 when it is taken. DEDUCED, log entry 13. -/
def State.writeCode (s : State) (f : Func) (r : Reg) (c : Nat) (v : RegVal) : Nat :=
  let tenant : Bool := match f with | .vf _ => true | _ => false
  if isRwl r ∧ !s.filterState f r ∧ (tenant ∨ !s.rwlOpen (s.rwlTarget f r c) ∨ (s.latchedInd f r).isSome) then 3
  else if r = .CPH_LOCK ∧ tenant ∧ fldGet v 34 34 = 1 ∧ s.holderOf c ≠ f.part then 1
  else 0

/-- A section's word in a scope's SHADOW bank. -/
def State.shadowWord (s : State) (sc t i : Nat) (v : RegVal) : State :=
  let b := s.shadowOf sc
  s.setPlane sc b ((s.plane sc b).putWord t i (v.toNat % 2 ^ 36))

/-- An RWL write goes to the SHADOW copy. A profile or program written becomes one of its section. -/
def State.rwlPut (s : State) (f : Func) (r : Reg) (c i : Nat) (v : RegVal) : State :=
  match r with
  | .PRS_IND_DATA => match s.prsInd f with
    | some (1, sc, t, k) => (s.shadowWord sc t k v).shadowWord sc t (16384 + (k - 2048) / 40) 1
    | some (_, sc, t, k) => s.shadowWord sc t k v
    | none => s
  | .TCM_IND_DATA => match s.tcmInd f with | some (sc, k) => s.shadowWord sc 5 k v | none => s
  | .GTE_IND_DATA => match s.gteInd f with | some (sc, k) => s.shadowWord sc 9 k v | none => s
  | .RWE_IND_DATA => match s.rweInd f with
    | some (2, sc, k, _) => (s.shadowWord sc 11 k v).shadowWord sc 11 (200000 + (k - 65536) / 16) 1
    | some (_, sc, k, _) => if k < 8192 ∨ (16384 ≤ k ∧ k < 24576) then (s.shadowWord sc 11 k v).shadowWord sc 11 150000 0 else s.shadowWord sc 11 k v
    | none => s
  | _ =>
    let sc := s.rwlScope r c
    let b := s.shadowOf sc
    let pl := s.plane sc b
    let old := regGet pl.regs r c i
    let new := maskWrite r old v
    if r = .TCM_BANK_CFG then s.setPlane sc b (pl.putHeader c (fldSet new 31 27 (fldGet old 31 27)).toNat)
    else s.setPlane sc b { pl with regs := regSet pl.regs r c i new }

/-- The scope of an RWL write is STAGED from then on (R61). DEDUCED, log entry 14. -/
def State.rwlStage (s : State) (f : Func) (r : Reg) (c i : Nat) (v : RegVal) : State :=
  (s.rwlPut f r c i v).setScopeState (s.rwlTarget f r c) 4

/-! ## What writes do -/

/-- A write of `IMG_CMD` (R52–R69, R74). -/
def State.effImgCmd (s : State) (f : Func) (v : Nat) (head : Option (List Byte)) : State :=
  let scope := bits v 8 4
  match bits v 3 0 with
  | 0 => s
  | 1 => s.effLoad f none head
  | 2 => s.effLoad f (some (bits v 9 9)) head
  | 3 => s.effDiscard f scope
  | 4 => s.effApprove f (match f with | .vf n => n | _ => scope)
  | 5 => s.effCastle f
  | 6 => s.effCancel f
  | _ => (s.imgBegin f).imgDone f imgBadHeader 0 0

/-- `IMG`. -/
def State.wroteImg (s : State) (f : Func) (r : Reg) (i : Nat) (v : RegVal) (head : Option (List Byte)) : State :=
  match r with
  | .IMG_CMD => s.effImgCmd f v.toNat head
  | .IMG_CSIG => s.fset F.IMG_CSIG.bytes 0 i (fldGet v 31 0)
  | .IMG_CASTLE_MASK => match f with
    | .vf n => s.fset F.IMG_CASTLE_MASK.scopes f.idx 0 (fldGet v 16 0 &&& 2 ^ n)
    | _ => s
  | .IMG_FKEY => s.effFkey (fldGet v 31 0)
  | .IMG_FUSE => s.effFuse f (fldGet v 15 0)
  | _ => s

/-- `MAC`; `old` is the value before the write. DEDUCED, log entry 20. -/
def State.wroteMac (s : State) (r : Reg) (c i : Nat) (old v : RegVal) (was : Bool) : State :=
  match r with
  | .MAC_CTL => s.effMacCtl c was v.toNat
  | .MAC_MM => s.refreshMm c (fldGet v 1 1 = 1)
  | .MAC_PAUSE => if s.flag F.MAC_PAUSE.express_pause c then s else (s.holdClass c 7 0).resume c
  | .MAC_MOD => if fldGet old 28 28 = fldGet v 28 28 then s else s.effMacMod c
  | .MAC_I2C_CMD => s.effI2cCmd c v.toNat
  | .MAC_PFC => (s.pfcCount c i true 0).refreshHeadroom
  | .MAC_PARTNER => if fldGet v 35 35 = 1 then (s.wr .MAC_PARTNER c i old).partnerFree c i else s
  | _ => s

/-- `PRS`: a write refills the buckets that it sets (R181, R183); space 4 of the indirect data unblocks a filter (R187).
DESIGN CHOICE, log entry 71. -/
def State.wrotePrs (s : State) (f : Func) (r : Reg) (c i : Nat) (v : RegVal) : State :=
  match r with
  | .PRS_ADMIT => { s with buckets := tabErase s.buckets (2 ^ 24 + i * 32 + c) }
  | .PRS_PUNT => { s with buckets := tabErase s.buckets (2 ^ 25 + c * 8 + i + 1) }
  | .PRS_IND_DATA => match s.prsInd f with
    | some (4, _, _, k) => if fldGet v 0 0 = 1 then { s with blocked := tabErase s.blocked k } else s
    | _ => s
  | _ => s

/-- `TBL`, `TCM`, `SWC`, `BPM` and `HBC`. -/
def State.wroteMemory (s : State) (f : Func) (r : Reg) (c i : Nat) (old v : RegVal) : State :=
  match r with
  | .TBL_CMD => if fldGet v 35 32 = 0 then s else s.tblFn f (fldGet v 35 32) v.toNat
  | .TCM_CMD => s.effTcmCmd f v.toNat
  | .SWC_WATCH_CMD => s.effWatchCmd f v.toNat
  | .BPM_INSPECT => s.effBpmInspect f (fldGet v 35 0)
  | .BPM_RECLAIM => s.effBpmReclaim f (fldGet v 35 0)
  | .HBC_CTL => s.effHbcCtl c v.toNat
  | .HBC_BMASK => s.effHbcBmask c i old
  | _ => s

/-- `CCX`. -/
def State.wroteCcx (s : State) (f : Func) (r : Reg) (c i : Nat) (old v : RegVal) : State :=
  match r with
  | .CCX_T_CTL => s.effCcxCtl c v.toNat
  | .CCX_T_REG =>
    let s := s.wr r c i old
    s.effCcxReg (s.selIndex f .CCX_SEL) (s.fget F.CCX_CFG.reg_sel f.idx) (fldGet v 35 0)
  | .CCX_PMSEL => (s.wr r c i old).writePmsel c i v.toNat true
  | .CCX_TAG => s.effCcxTag c (fldGet old 35 35 = 1)
  | .CCX_CFG =>
    let s := (s.fset F.CCX_CFG.reg_sel c i (fldGet old 4 0)).fset F.CCX_CFG.reg_sel f.idx 0 (fldGet v 4 0)
    (List.range 18).foldl (fun s k => s.coreSlow k) s
  | .CCX_MIG => s.effCcxMig v.toNat
  | _ => s

/-- `DMA` and `CPH`; `host` is what the host's memory answers when a parked list re-reads its `next`. -/
def State.wroteLists (s : State) (f : Func) (r : Reg) (c i : Nat) (old v : RegVal) (host : Nat) : State :=
  match r with
  | .DMA_CH_CTL => s.effDmaCtl c v.toNat host
  | .DMA_RING_CFG => s.effRingCfg c
  | .DMA_RING_CONS => s.effRingCons c (fldGet old 15 0)
  | .DMA_RING_IRQ => if (s.chan c).pendingRecs = 0 then s else s.moderate c
  | .CPH_LOCK => s.effCphLock c f.part v.toNat
  | .CPH_CTL => s.effCphCtl c v.toNat host
  | .CPH_KEY_CTL => if fldGet v 35 35 = 1 then s.keyLoad c else s
  | .CPH_KEY => s.effCphKey c i (fldGet v 31 0)
  | _ => s

/-- `TIM`, `CNT` and `FLT`. -/
def State.wroteTime (s : State) (f : Func) (r : Reg) (i : Nat) (old v : RegVal) : State :=
  match r with
  | .TIM_CFG => s.effTimCfg
  | .TIM_STEP_CTL => s.effTimStepCtl v.toNat
  | .TIM_PPS_OUT => s.refreshPps
  | .TIM_LOCK => s.effTimLock v.toNat
  | .TIM_SYNCE => s.effTimSynce i old
  | .CNT_SNAP_CTL => s.effSnapCtl f v.toNat
  | .CNT_TRACE => s.effCntTrace (fldGet old 35 35 = 1)
  | .FLT_CFG => s.fset F.AON_GRAVE.cycle 0 0 (s.fget F.FLT_CFG.grave_cycle)
  | .FLT_CLEAR => s.effFltClear f v.toNat
  | .FLT_BENCH_CMD => s.effBenchCmd v.toNat
  | .FLT_TAIL_ADDR => if fldGet v 35 35 = 1 then s.rearm else s
  | _ => s

/-- The real-time counter takes a new value: what the island measures with it moves by the same amount. DEDUCED, log entry 26. -/
def State.movedRtc (s : State) (old : RegVal) : State :=
  let d := (s.rd .AON_RTC).toNat + (2 ^ 63 - old.toNat % 2 ^ 63)
  s.modPower fun p => { p with since := (p.since + d) % 2 ^ 63, restRtc := (p.restRtc + d) % 2 ^ 63 }

/-- `PWR`, `AON` and `TWN`. -/
def State.wroteIsland (s : State) (r : Reg) (i : Nat) (old v : RegVal) : State :=
  match r with
  | .PWR_CTL => s.effTarget (fldGet v 1 0)
  | .AON_RTC => s.movedRtc old
  | .AON_WDT_CFG => s.effWdtCfg old
  | .AON_WDT_KICK => s.effKick (fldGet v 7 0)
  | .AON_SEQ => s.effSeq v.toNat
  | .AON_TAIL_ADDR => if fldGet v 35 35 = 1 then s.rearm else s
  | .TWN_CFG => s.effTwnCfg old
  | .TWN_MOVE => if fldGet v 35 35 = 1 then s.effMove (fldGet v 7 0) (fldGet v 8 8) else s
  | .TWN_LANE => s.effTwnLane i
  | .TWN_DH => s.effTwnDh i old
  | _ => s

/-- A write of a select register stores the index and sets or clears `sel_err` (R90). -/
def State.wroteSel (s : State) (f : Func) (r : Reg) (v : RegVal) : State :=
  let n := fldGet v 11 0
  s.wr r f.idx 0 (BitVec.ofNat 72 (n + (if s.selOpen f r n then 0 else 2 ^ 12)))

/-- What a write has done once the register file holds it: `old` is the value before, `was` whether the port was enabled before. -/
def State.wrote (s : State) (f : Func) (r : Reg) (c i : Nat) (old v : RegVal) (was : Bool) (host : Nat) (head : Option (List Byte)) : State :=
  if selRegs.contains r then s.wroteSel f r v
  else match blockOf r.place.addr with
  | 20 => if r = .GLB_BRESET then s.effBreset (fldGet v 19 0) else s
  | 0 => s.wroteImg f r i v head
  | 2 => s.wroteMac r c i old v was
  | 3 => s.wrotePrs f r c i v
  | 5 | 6 | 7 | 8 | 9 => s.wroteMemory f r c i old v
  | 12 => if r = .RWE_CFG then s.refreshSlows else s
  | 13 => s.wroteCcx f r c i old v
  | 14 | 15 => s.wroteLists f r c i old v host
  | 16 | 17 | 18 => s.wroteTime f r i old v
  | 1 | 19 | 21 => s.wroteIsland r i old v
  | _ => s

/-- The value written, as the function may write it: a VF leaves the owner's enable of a port, and its own queue set, unchanged (R150, R350).
DEDUCED, log entry 14. -/
def State.asWritten (s : State) (f : Func) (r : Reg) (c i : Nat) (v : RegVal) : RegVal :=
  match f with
  | .vf _ => match r with
    | .MAC_CTL => fldSet v 1 1 (s.fget F.MAC_CTL.admin_owner c i)
    | .SCH_SET => s.rd r c i
    | _ => v
  | _ => v

/-- A write reaches a register. -/
def State.putReg (s : State) (f : Func) (r : Reg) (c i : Nat) (v : RegVal) (host : Nat) (head : Option (List Byte)) : State :=
  if isRwl r && !s.filterState f r then s.rwlStage f r c i v
  else
    let v := s.asWritten f r c i v
    let old := s.rd r c i
    let was := s.portAdmin c
    let t := if isInd r then s else s.wr r c i (maskWrite r old v)
    t.wrote f r c i old v was host head

/-! ## Slots (R79–R82) -/

/-- The half stage is emptied by the commit of the slot that it holds (R80). -/
def State.emptyHalf (s : State) (f : Func) (a : Nat) : State :=
  s.modFn f fun x => { x with half := match x.half with | some (k, w) => if k = a then none else some (k, w) | none => none }

/-- The value that the commit of a slot writes: of a 72-bit register, the high slot's word beside the staged low one, or the present low word
where the stage holds another register (R82). -/
def State.commitValue (s : State) (f : Func) (a : Nat) (r : Reg) (c i w : Nat) : RegVal :=
  if r.place.wide then
    let low := match (s.fn f).wstage with
      | some (k, x) => if k = wordKey a c true then x else (s.readReg f r c i).toNat % 2 ^ 36
      | none => (s.readReg f r c i).toNat % 2 ^ 36
    BitVec.ofNat 72 (w % 2 ^ 36 * 2 ^ 36 + low)
  else BitVec.ofNat 72 (w % 2 ^ 36)

/-- The commit of a slot's 36-bit word. -/
def State.commit (s : State) (f : Func) (a : Nat) (r : Reg) (c i : Nat) (high : Bool) (w : Nat) (host : Nat := 0)
    (head : Option (List Byte) := none) : State :=
  if r.place.wide && !high then (s.emptyHalf f a).modFn f fun x => { x with wstage := some (wordKey a c false, w % 2 ^ 36) }
  else
    let v := s.commitValue f a r c i w
    let code := s.writeCode f r c v
    if code ≠ 0 then
      let s := match s.latchedInd f r with
        | some (cl, e) => if f.part = 16 ∧ s.rwlOpen (s.rwlTarget f r c) then s.activeWrite cl e else s
        | none => s
      s.refuse f code true a
    else (s.emptyHalf f a).putReg f r c i v host head

/-- A 64-bit write of a slot (R79); bits [63:36] are ignored (R78). -/
def State.writeWord (s : State) (f : Func) (a v : Nat) (host : Nat := 0) (head : Option (List Byte) := none) : State :=
  match s.target f a true with
  | .refused code => s.refuse f code true a
  | .nothing => s
  | .cmem w => (s.emptyHalf f a).cput w (BitVec.ofNat 36 v)
  | .reg r c i h => s.commit f a r c i h v host head

/-- A 32-bit write of a slot's low half is staged; a write staged for another slot is discarded and counted (R80). DEDUCED, log entry 14. -/
def State.stageHalf (s : State) (f : Func) (a v : Nat) : State :=
  let t := s.modFn f fun x => { x with half := some (a, v % 2 ^ 32) }
  match (s.fn f).half with
  | some (k, _) => if k = a then t else t.refuse f 7 true k
  | none => t

/-- A 32-bit write of a slot's low half (R80). -/
def State.writeLow (s : State) (f : Func) (a v : Nat) : State :=
  match s.target f a true with
  | .refused code => s.refuse f code true a
  | .nothing => s
  | _ => s.stageHalf f a v

/-- Bits [31:0] of a slot that a high-half write commits: those staged for it, or the present ones (R80). -/
def State.lowHalf (s : State) (f : Func) (a now : Nat) : Nat :=
  match (s.fn f).half with
  | some (k, w) => if k = a then w else now % 2 ^ 32
  | none => now % 2 ^ 32

/-- A 32-bit write of a slot's high half commits the word (R80). DESIGN CHOICE, log entry 71. -/
def State.writeHigh (s : State) (f : Func) (a v : Nat) : State :=
  match s.target f a true with
  | .refused code => s.refuse f code true (a + 4)
  | .nothing => s
  | .cmem w => (s.emptyHalf f a).cput w (BitVec.ofNat 36 (v % 16 * 2 ^ 32 + s.lowHalf f a (s.cget w).toNat))
  | .reg r c i h =>
    let now := (s.readReg f r c i).toNat
    s.commit f a r c i h (v % 16 * 2 ^ 32 + s.lowHalf f a (if h then now / 2 ^ 36 else now))

/-! ## Writes by commands -/

/-- A write of a whole slot by a function that can reach the device. -/
def State.regWrite (s : State) (f : Func) (a v : Nat) (host : Nat := 0) (head : Option (List Byte) := none) : State :=
  if s.reachable f then s.writeWord f (a / 8 * 8) (v % 2 ^ 64) host head else s

/-- WORD_WRITE (R79, R84): a write of a slot with the byte enables `be`. DESIGN CHOICE, log entry 71. -/
def execWordWrite (fn : Func) (bar be addr value : Nat) (s : State) : Host.Outcome State Fault Refusal :=
  s.act fun s =>
    let a := addr / 8 * 8
    if !s.reachable fn then s
    else if toBar2 fn bar then s.bar2Write fn a be value
    else match be with
      | 0xFF => s.writeWord fn a (value % 2 ^ 64)
      | 0x0F => s.writeLow fn a value
      | 0xF0 => s.writeHigh fn a (value / 2 ^ 32)
      | _ => s.refuse fn 4 true a

/-- LOW_HALF_WRITE (R80). -/
def execLowHalfWrite (fn : Func) (bar addr value : Nat) (s : State) : Host.Outcome State Fault Refusal :=
  s.act fun s =>
    let a := addr / 8 * 8
    if !s.reachable fn then s else if toBar2 fn bar then s.bar2Write fn a 0x0F value else s.writeLow fn a value

/-- HIGH_HALF_WRITE (R80). -/
def execHighHalfWrite (fn : Func) (bar addr value : Nat) (s : State) : Host.Outcome State Fault Refusal :=
  s.act fun s =>
    let a := addr / 8 * 8
    if !s.reachable fn then s else if toBar2 fn bar then s.bar2Write fn a 0xF0 (value * 2 ^ 32) else s.writeHigh fn a value

/-- REGISTER_WRITE (R79): a 64-bit write of a slot. -/
def execRegisterWrite (fn : Func) (addr value : Nat) (s : State) : Host.Outcome State Fault Refusal :=
  s.act fun s => s.regWrite fn addr value

/-- RWL_WRITE (R40): a 64-bit write of a slot of an RWL register. -/
def execRwlWrite (fn : Func) (addr value : Nat) (s : State) : Host.Outcome State Fault Refusal :=
  s.act fun s => s.regWrite fn addr value

end Sys2Proof.Machine
end

