-- ==== Sys2Proof/Machine/Console.lean ====
section
/-! DEFINITION. The console: its requests and responses, and what it discards (R106, R583–R586). -/

namespace Sys2Proof.Machine

/-! ## Frames -/

/-- One bit of the CRC-8 with polynomial 0x07. -/
def crc8Shift (c : Byte) : Byte := if c.msb then (c <<< 1) ^^^ 0x07#8 else c <<< 1

/-- One byte of the CRC-8 (R585). -/
def crc8Byte (c b : Byte) : Byte :=
  let c := c ^^^ b
  crc8Shift (crc8Shift (crc8Shift (crc8Shift (crc8Shift (crc8Shift (crc8Shift (crc8Shift c)))))))

/-- The CRC-8 of a frame's bytes: initial value 0, no reflection, no final XOR. -/
def crc8 (bs : List Byte) : Byte := bs.foldl crc8Byte 0

/-- The bytes of a request of an op: WRITE carries a word. -/
def requestLength (op : Nat) : Nat := if op = 2 then 12 else 7

/-- What a request asks: its op, address field and word. -/
structure Request where
  op : Nat
  addr : Nat
  word : Nat
  deriving DecidableEq, Repr

/-- The fields of a request's bytes, from 0xA5 to the CRC. -/
def requestOf (bs : List Byte) : Request :=
  { op := ofLE ((bs.drop 1).take 1), addr := ofLE ((bs.drop 2).take 4), word := ofLE ((bs.drop 6).take 5) }

/-- The request is one of R585: a known op, an aligned address and no reserved bit set. -/
def Request.good (q : Request) : Bool :=
  decide (1 ≤ q.op ∧ q.op ≤ 3) && decide (q.addr % 8 = 0) && decide (bits q.addr 30 26 = 0) && (q.op ≠ 2 || decide (q.word < 2 ^ 36))

/-- The address is in the island's space. -/
def Request.island (q : Request) : Bool := bit q.addr 31

/-- The slot of BAR0 that a request names; the island's registers stand at their mirror (R107). -/
def Request.slot (q : Request) : Nat := (if q.island then 0x0180000 else 0) + q.addr % 2 ^ 26

/-- A response: the status code, the refusal's reason and five bytes of data (R585). -/
def responseOf (code reason data : Nat) : List Byte :=
  let body := BitVec.ofNat 8 (code + reason * 16) :: bytesLE 5 data
  0x5A#8 :: (body ++ [crc8 body])

/-- The island answers a request. -/
def State.respond (s : State) (code reason data : Nat) : State :=
  s.modPower fun p => { p with response := responseOf code reason data }

/-- The answer to a request that is not carried out; the spec gives its data bytes no value. -/
def State.respondOpen (s : State) (code : Nat) : State := (s.respond code 0 (s.freeNat 40)).nextFree

/-! ## Requests -/

/-- Why a read of a slot through the console is refused; 0 when it is not. -/
def State.readCode (s : State) (a : Nat) : Nat :=
  match s.target .console a false with | .refused c => c | _ => 0

/-- Why a write of a slot through the console is refused; 0 when it is not. -/
def State.slotCode (s : State) (a v : Nat) : Nat :=
  match s.target .console a true with
  | .refused c => c
  | .reg r c i h => if r.place.wide && !h then 0 else s.writeCode .console r c (s.commitValue .console a r c i v)
  | _ => 0

/-- A slot of the island's space that holds one of its registers. -/
def islandSlot (a : Nat) : Bool := (regAt a).isSome && blockOf a = 21

/-- A READ carried out. DEDUCED, log entry 12. -/
def State.consoleGet (s : State) (q : Request) : State :=
  if q.island && !islandSlot q.slot then s.respond 0 0 0
  else
    let c := s.readCode q.slot
    let s := s.readWord .console q.slot
    if c = 0 then s.respond 0 0 (s.fn .console).reply else s.respond 3 c 0

/-- A WRITE carried out. -/
def State.consolePut (s : State) (q : Request) : State :=
  if q.island && !islandSlot q.slot then s.respond 0 0 q.word
  else
    let c := s.slotCode q.slot q.word
    let s := s.writeWord .console q.slot q.word
    if c = 0 then s.respond 0 0 q.word else s.respond 3 c 0

/-- A BAR0 access with no completion within 1 ms: a write may or may not have taken effect (R585). DEDUCED, log entry 12. -/
def State.consoleLate (s : State) (q : Request) : State :=
  let s := if q.op = 2 ∧ s.freeNat 1 = 1 then s.nextFree.writeWord .console q.slot q.word else s.nextFree
  s.respondOpen 4

/-- A whole request (R585, R586): its CRC, then its fields, then the access. `late` is a BAR0 access that has no completion in time.
DEDUCED, log entry 11. -/
def State.request (s : State) (bs : List Byte) (late : Bool) : State :=
  let q := requestOf bs
  if crc8 ((bs.drop 1).take (requestLength q.op - 2)) ≠ bs[requestLength q.op - 1]?.getD 0 then
    (s.bumpSat F.AON_CON_STAT.crc_err 0 0).respondOpen 1
  else if !q.good then s.respondOpen 2
  else if q.op = 3 then (s.respond 0 0 (q.addr + s.freeNat 8 * 2 ^ 32)).nextFree
  else if late && !q.island then s.consoleLate q
  else if q.op = 1 then s.consoleGet q
  else s.consolePut q

/-- The bytes that the console takes of those sent: a character that finds the fast oscillator stopped is lost (R583), and bytes before 0xA5
are ignored (R585). -/
def takenBytes (osc : Bool) (bs : List Byte) : List Byte := (if osc then bs else bs.drop 1).dropWhile (· ≠ 0xA5#8)

/-- A request's characters reach the console of a powered island, after those of a partial request; the divider written before it applies from
here (R586). The character that starts the oscillator drops a partial request. DEDUCED, log entry 11. -/
def State.consoleFrame (s : State) (bs : List Byte) (late : Bool) : State :=
  if s.power.inPor then s
  else
    let taken := if s.power.conRx = [] ∨ !s.power.osc then takenBytes s.power.osc bs else s.power.conRx ++ bs
    let s := if s.power.osc then s else s.bumpSat F.AON_CON_STAT.wake_chars 0 0
    let short := decide (taken.length < requestLength (ofLE ((taken.drop 1).take 1)))
    let s := s.modPower fun p => { p with osc := true, div := max 16 (s.fget F.AON_CON_CFG.div), conRx := if short then taken else [] }
    if short then s else s.request taken late

/-- CONSOLE_READ (R585). -/
def execConsoleRead (req : List Byte) (late : Bool) (s : State) : Host.Outcome State Fault Refusal := s.act fun s => s.consoleFrame req late

/-- CONSOLE_WRITE (R585). -/
def execConsoleWrite (req : List Byte) (late : Bool) (s : State) : Host.Outcome State Fault Refusal := s.act fun s => s.consoleFrame req late

/-- CONSOLE_ECHO (R585). -/
def execConsoleEcho (req : List Byte) (s : State) : Host.Outcome State Fault Refusal := s.act fun s => s.consoleFrame req false

/-! ## The receiver (R584) -/

/-- What the receiver makes of a character: its byte, least significant bit first, and whether it is flagged FRAMING and BREAK. -/
structure UartChar where
  byte : Byte
  framing : Bool
  brk : Bool
  deriving DecidableEq, Repr

/-- The majority of three samples. -/
def majority (l : List Bool) : Bool := decide (2 ≤ (l.filter id).length)

/-- The character of ten decided bits. -/
def uartChar (l : List Bool) : UartChar :=
  { byte := BitVec.ofNat 8 (((l.drop 1).take 8).foldr (fun b a => 2 * a + (if b then 1 else 0)) 0)
    framing := !l.getD 9 false
    brk := l.all (! ·) }

/-- After sample 9 of the stop bit (item 2): when the line reads low, the next start bit's sample 1 is the first tick from sample 7 that did. -/
def nextStart (l : List Bool) : Nat :=
  if l.getD 2 true then 0 else if !l.getD 0 true then 3 else if !l.getD 1 true then 2 else 1

/-- One tick of the receiver at a level of the line. -/
def Uart.step (u : Uart) (high : Bool) : Uart × Option UartChar :=
  if u.hold then ({ u with hold := !high }, none)
  else if u.tick = 0 then ({ u with tick := if high then 0 else 1, seen := [], decided := [] }, none)
  else
    let n := u.tick + 1
    let k := n % 16
    let u := { u with tick := n, seen := if 7 ≤ k ∧ k ≤ 9 then u.seen ++ [high] else u.seen }
    if k ≠ 9 then (u, none)
    else
      let bs := u.decided ++ [majority u.seen]
      if bs = [true] then ({}, none)
      else if bs.length < 10 then ({ u with seen := [], decided := bs }, none)
      else
        let c := uartChar bs
        ({ tick := if c.brk then 0 else nextStart u.seen, hold := c.brk }, some c)

/-! ## What is discarded -/

/-- A partial request is discarded and counted (R586). -/
def State.dropRequest (s : State) : State :=
  (s.bumpSat F.AON_CON_STAT.framing 0 0).modPower fun p => { p with conRx := [] }

/-- CONSOLE_GAP_TIMEOUT (R586): the partial request is discarded and counted. -/
def execConsoleGapTimeout (s : State) : Host.Outcome State Fault Refusal :=
  s.act fun s => if s.power.inPor then s else s.dropRequest

/-- A tick of the receiver: a character flagged FRAMING discards the partial request, any other joins it. -/
def State.uartTick (s : State) (high : Bool) : State :=
  let (u, c) := s.power.uart.step high
  let s := s.modPower fun p => { p with uart := u }
  match c with
  | none => s
  | some c => if c.framing then s.dropRequest else s.consoleFrame [c.byte] false

/-- CONSOLE_CHARACTER_DISCARD (R583, R584, R586): the line at the receiver's ticks, high or low. The character that starts the stopped oscillator is
lost; otherwise the receiver takes the ticks, and discards what it flags FRAMING. DEDUCED, log entry 11. -/
def execConsoleCharacterDiscard (line : List Bool) (s : State) : Host.Outcome State Fault Refusal :=
  s.act fun s =>
    if s.power.inPor then s
    else if !s.power.osc then
      if line.all id then s
      else (s.bumpSat F.AON_CON_STAT.wake_chars 0 0).modPower fun p => { p with osc := true, uart := {}, conRx := [] }
    else line.foldl (fun s high => s.uartTick high) s

/-- CONSOLE_LINGER_EXPIRY (R583): the fast oscillator stops. -/
def execConsoleLingerExpiry (s : State) : Host.Outcome State Fault Refusal :=
  s.act fun s => s.modPower fun p => { p with osc := false }

end Sys2Proof.Machine
end

