-- ==== Sys2Proof/Machine/RegRows.lean ====
section
/-! DEFINITION. The commands that are writes of one register: each writes its value at the register's address of BAR0, with the rights, refusals
and effects of any write (R79, R95). -/

namespace Sys2Proof.Machine

/-- A 64-bit write of element `i` of a register at its listed address (an element number past the last counts round). -/
def State.writeTo (s : State) (f : Func) (r : Reg) (i v : Nat) (host : Nat := 0) (head : Option (List Byte) := none) : State :=
  s.regWrite f (r.place.addr + r.place.stride * (i % r.place.count)) v host head

/-- A 64-bit write of element `i` of partition `p`'s copy of a register: at its listed address for the function's own partition, else in the
window of partition copies (R93). -/
def State.writePart (s : State) (f : Func) (r : Reg) (p i v : Nat) : State :=
  let a := r.place.addr + r.place.stride * (i % r.place.count)
  s.regWrite f (if p = f.part then a else a / 0x10000 * 0x10000 + 0x10000 + 0x400 * p + a % 0x10000) v

/-- A one-bit field of a written value, in place. -/
def flagAt (b : Bool) (n : Nat) : Nat := if b then 2 ^ n else 0

/-! ## Every block (R90, R98) -/

/-- The select register of a block, by the block's number in `GLB_BRESET`. -/
def selOfBlock (b : Nat) : Option Reg :=
  match b with
  | 2 => some .MAC_SEL
  | 4 => some .SPR_SEL
  | 6 => some .TCM_SEL
  | 9 => some .HBC_SEL
  | 10 => some .SCH_SEL
  | 11 => some .GTE_SEL
  | 12 => some .RWE_SEL
  | 13 => some .CCX_SEL
  | 14 => some .DMA_SEL
  | 15 => some .CPH_SEL
  | 17 => some .CNT_SEL
  | _ => none

/-- SEL_WRITE (R90). -/
def execSelWrite (fn : Func) (block value : Nat) (s : State) : Host.Outcome State Fault Refusal :=
  s.act fun s => match selOfBlock block with
    | some r => s.writeTo fn r 0 value
    | none => s

/-- GLB_BRESET_WRITE (R98). -/
def execGlbBresetWrite (fn : Func) (blocks : Nat) (s : State) : Host.Outcome State Fault Refusal := s.act fun s => s.writeTo fn .GLB_BRESET 0 blocks

/-! ## `IMG` (R47–R74) -/

/-- LOAD_HOST (R53). -/
def execLoadHost (fn : Func) (head : List Byte) (s : State) : Host.Outcome State Fault Refusal :=
  s.act fun s => s.writeTo fn .IMG_CMD 0 1 0 (some head)

/-- LOAD_FLASH (R54). -/
def execLoadFlash (fn : Func) (slot : Nat) (head : List Byte) (s : State) : Host.Outcome State Fault Refusal :=
  s.act fun s => s.writeTo fn .IMG_CMD 0 (2 + slot % 2 * 2 ^ 9) 0 (some head)

/-- DISCARD (R57). -/
def execDiscard (fn : Func) (scope : Nat) (s : State) : Host.Outcome State Fault Refusal :=
  s.act fun s => s.writeTo fn .IMG_CMD 0 (3 + scope % 32 * 2 ^ 4)

/-- APPROVE (R58). -/
def execApprove (fn : Func) (scope : Nat) (s : State) : Host.Outcome State Fault Refusal :=
  s.act fun s => s.writeTo fn .IMG_CMD 0 (4 + scope % 32 * 2 ^ 4)

/-- CASTLE (R63). -/
def execCastle (fn : Func) (s : State) : Host.Outcome State Fault Refusal := s.act fun s => s.writeTo fn .IMG_CMD 0 5

/-- CANCEL (R69). -/
def execCancel (fn : Func) (s : State) : Host.Outcome State Fault Refusal := s.act fun s => s.writeTo fn .IMG_CMD 0 6

/-- IMG_CMD_INVALID_OP (R74: an op of 0x7–0xF). -/
def execImgCmdInvalidOp (fn : Func) (op : Nat) (s : State) : Host.Outcome State Fault Refusal :=
  s.act fun s => s.writeTo fn .IMG_CMD 0 (max 7 (op % 16))

/-- IMG_FKEY_WRITE (R47). -/
def execImgFkeyWrite (fn : Func) (value : Nat) (s : State) : Host.Outcome State Fault Refusal := s.act fun s => s.writeTo fn .IMG_FKEY 0 value

/-- IMG_FUSE_WRITE (R47). -/
def execImgFuseWrite (fn : Func) (value : Nat) (s : State) : Host.Outcome State Fault Refusal := s.act fun s => s.writeTo fn .IMG_FUSE 0 value

/-! ## `MAC` (R118–R130) -/

/-- MAC_ADMIN_WRITE (R118). DEDUCED, log entry 17. -/
def execMacAdminWrite (fn : Func) (owner tenant : Bool) (s : State) : Host.Outcome State Fault Refusal :=
  s.act fun s => s.writeTo fn .MAC_CTL 0 (flagAt owner 1 + flagAt tenant 0)

/-- MAC_RESTART (R118). -/
def execMacRestart (fn : Func) (owner tenant : Bool) (s : State) : Host.Outcome State Fault Refusal :=
  s.act fun s => s.writeTo fn .MAC_CTL 0 (flagAt owner 1 + flagAt tenant 0 + 2 ^ 3)

/-- MAC_CLR_FAULT (R118). -/
def execMacClrFault (fn : Func) (owner tenant : Bool) (s : State) : Host.Outcome State Fault Refusal :=
  s.act fun s => s.writeTo fn .MAC_CTL 0 (flagAt owner 1 + flagAt tenant 0 + 2 ^ 4)

/-- I2C_TRANSACTION_GO (R126). -/
def execI2cTransactionGo (fn : Func) (value : Nat) (s : State) : Host.Outcome State Fault Refusal := s.act fun s => s.writeTo fn .MAC_I2C_CMD 0 value

/-- PARTNER_SLOT_FREE (R130). -/
def execPartnerSlotFree (fn : Func) (slot : Nat) (s : State) : Host.Outcome State Fault Refusal :=
  s.act fun s => s.writeTo fn .MAC_PARTNER slot (2 ^ 35)

/-! ## `PRS` (R178–R187) -/

/-- PRS_ADMIT_WRITE (R181). DEDUCED, log entry 17. -/
def execPrsAdmitWrite (fn : Func) (part group value : Nat) (s : State) : Host.Outcome State Fault Refusal :=
  s.act fun s => s.writePart fn .PRS_ADMIT part group value

/-- PRS_PUNT_WRITE (R183: reasons count from 1). -/
def execPrsPuntWrite (fn : Func) (part reason value : Nat) (s : State) : Host.Outcome State Fault Refusal :=
  s.act fun s => s.writePart fn .PRS_PUNT part (reason - 1) value

/-- FILTER_UNBLOCK (R178). -/
def execFilterUnblock (fn : Func) (value : Nat) (s : State) : Host.Outcome State Fault Refusal := s.act fun s => s.writeTo fn .PRS_IND_DATA 0 value

/-! ## `TBL` and `TCM` (R211, R247) -/

/-- TBL_INSERT (R211). -/
def execTblInsert (fn : Func) (cmd : Nat) (s : State) : Host.Outcome State Fault Refusal :=
  s.act fun s => s.writeTo fn .TBL_CMD 0 (1 * 2 ^ 32 + cmd % 2 ^ 32)

/-- TBL_DELETE (R211). -/
def execTblDelete (fn : Func) (cmd : Nat) (s : State) : Host.Outcome State Fault Refusal :=
  s.act fun s => s.writeTo fn .TBL_CMD 0 (2 * 2 ^ 32 + cmd % 2 ^ 32)

/-- TBL_UPDATE (R211). -/
def execTblUpdate (fn : Func) (cmd : Nat) (s : State) : Host.Outcome State Fault Refusal :=
  s.act fun s => s.writeTo fn .TBL_CMD 0 (3 * 2 ^ 32 + cmd % 2 ^ 32)

/-- TBL_READ (R211). -/
def execTblRead (fn : Func) (cmd : Nat) (s : State) : Host.Outcome State Fault Refusal :=
  s.act fun s => s.writeTo fn .TBL_CMD 0 (4 * 2 ^ 32 + cmd % 2 ^ 32)

/-- PFX_INSERT (R211). -/
def execPfxInsert (fn : Func) (cmd : Nat) (s : State) : Host.Outcome State Fault Refusal :=
  s.act fun s => s.writeTo fn .TBL_CMD 0 (5 * 2 ^ 32 + cmd % 2 ^ 32)

/-- PFX_DELETE (R211). -/
def execPfxDelete (fn : Func) (cmd : Nat) (s : State) : Host.Outcome State Fault Refusal :=
  s.act fun s => s.writeTo fn .TBL_CMD 0 (6 * 2 ^ 32 + cmd % 2 ^ 32)

/-- PFX_READ (R211). -/
def execPfxRead (fn : Func) (cmd : Nat) (s : State) : Host.Outcome State Fault Refusal :=
  s.act fun s => s.writeTo fn .TBL_CMD 0 (7 * 2 ^ 32 + cmd % 2 ^ 32)

/-- WRITE_UNIT (R211). -/
def execWriteUnit (fn : Func) (cmd : Nat) (s : State) : Host.Outcome State Fault Refusal :=
  s.act fun s => s.writeTo fn .TBL_CMD 0 (8 * 2 ^ 32 + cmd % 2 ^ 32)

/-- READ_UNIT (R211). -/
def execReadUnit (fn : Func) (cmd : Nat) (s : State) : Host.Outcome State Fault Refusal :=
  s.act fun s => s.writeTo fn .TBL_CMD 0 (9 * 2 ^ 32 + cmd % 2 ^ 32)

/-- TCM_INVALIDATE (R247). -/
def execTcmInvalidate (fn : Func) (entry : Nat) (notify : Bool) (s : State) : Host.Outcome State Fault Refusal :=
  s.act fun s => s.writeTo fn .TCM_CMD 0 (1 * 2 ^ 32 + flagAt notify 31 + entry % 1024 * 2 ^ 20)

/-- TCM_WRITE (R247). -/
def execTcmWrite (fn : Func) (entry : Nat) (notify : Bool) (s : State) : Host.Outcome State Fault Refusal :=
  s.act fun s => s.writeTo fn .TCM_CMD 0 (2 * 2 ^ 32 + flagAt notify 31 + entry % 1024 * 2 ^ 20)

/-- TCM_VALIDATE (R247). -/
def execTcmValidate (fn : Func) (entry : Nat) (notify : Bool) (s : State) : Host.Outcome State Fault Refusal :=
  s.act fun s => s.writeTo fn .TCM_CMD 0 (3 * 2 ^ 32 + flagAt notify 31 + entry % 1024 * 2 ^ 20)

/-- TCM_SET_ACTION (R247). -/
def execTcmSetAction (fn : Func) (entry : Nat) (notify : Bool) (s : State) : Host.Outcome State Fault Refusal :=
  s.act fun s => s.writeTo fn .TCM_CMD 0 (4 * 2 ^ 32 + flagAt notify 31 + entry % 1024 * 2 ^ 20)

/-- TCM_READ (R247). -/
def execTcmRead (fn : Func) (entry : Nat) (notify : Bool) (s : State) : Host.Outcome State Fault Refusal :=
  s.act fun s => s.writeTo fn .TCM_CMD 0 (5 * 2 ^ 32 + flagAt notify 31 + entry % 1024 * 2 ^ 20)

/-- TCM_HIT_READ (R247). -/
def execTcmHitRead (fn : Func) (entry : Nat) (notify : Bool) (s : State) : Host.Outcome State Fault Refusal :=
  s.act fun s => s.writeTo fn .TCM_CMD 0 (6 * 2 ^ 32 + flagAt notify 31 + entry % 1024 * 2 ^ 20)

/-- TCM_HIT_CLEAR (R247). -/
def execTcmHitClear (fn : Func) (entry : Nat) (notify : Bool) (s : State) : Host.Outcome State Fault Refusal :=
  s.act fun s => s.writeTo fn .TCM_CMD 0 (7 * 2 ^ 32 + flagAt notify 31 + entry % 1024 * 2 ^ 20)

/-! ## `SWC`, `BPM` and `HBC` (R276–R319) -/

/-- SWC_WATCH_READ (R288). -/
def execSwcWatchRead (fn : Func) (index : Nat) (s : State) : Host.Outcome State Fault Refusal :=
  s.act fun s => s.writeTo fn .SWC_WATCH_CMD 0 (2 ^ 35 + index % 2 ^ 12)

/-- SWC_WATCH_WRITE (R288). -/
def execSwcWatchWrite (fn : Func) (index : Nat) (s : State) : Host.Outcome State Fault Refusal :=
  s.act fun s => s.writeTo fn .SWC_WATCH_CMD 0 (2 ^ 35 + 2 ^ 34 + index % 2 ^ 12)

/-- BPM_INSPECT_WRITE (R292). -/
def execBpmInspectWrite (fn : Func) (handle : Nat) (s : State) : Host.Outcome State Fault Refusal :=
  s.act fun s => s.writeTo fn .BPM_INSPECT 0 handle

/-- BPM_RECLAIM_WRITE (R276). -/
def execBpmReclaimWrite (fn : Func) (handle : Nat) (s : State) : Host.Outcome State Fault Refusal :=
  s.act fun s => s.writeTo fn .BPM_RECLAIM 0 handle

/-- HBC_CLOSE (R319). -/
def execHbcClose (fn : Func) (s : State) : Host.Outcome State Fault Refusal := s.act fun s => s.writeTo fn .HBC_CTL 0 1

/-- HBC_OPEN (R319). -/
def execHbcOpen (fn : Func) (s : State) : Host.Outcome State Fault Refusal := s.act fun s => s.writeTo fn .HBC_CTL 0 2

/-- HBC_RETRAIN (R314). -/
def execHbcRetrain (fn : Func) (pc : Nat) (s : State) : Host.Outcome State Fault Refusal :=
  s.act fun s => s.writeTo fn .HBC_CTL 0 (3 + pc % 32 * 2 ^ 2)

/-- HBC_BMASK_WRITE (R308). -/
def execHbcBmaskWrite (fn : Func) (i value : Nat) (s : State) : Host.Outcome State Fault Refusal := s.act fun s => s.writeTo fn .HBC_BMASK i value

/-! ## `RWE` and `CCX` (R377, R389, R401, R420, R422) -/

/-- RWE_IND_WRITE (R377). -/
def execRweIndWrite (fn : Func) (value : Nat) (s : State) : Host.Outcome State Fault Refusal := s.act fun s => s.writeTo fn .RWE_IND_DATA 0 value

/-- CCX_START (R401). -/
def execCcxStart (fn : Func) (mode pc : Nat) (s : State) : Host.Outcome State Fault Refusal :=
  s.act fun s => s.writeTo fn .CCX_T_CTL 0 (2 ^ 22 + mode % 2 * 2 ^ 21 + pc % 2 ^ 21)

/-- CCX_KILL (R389). -/
def execCcxKill (fn : Func) (s : State) : Host.Outcome State Fault Refusal := s.act fun s => s.writeTo fn .CCX_T_CTL 0 (2 * 2 ^ 22)

/-- CCX_RESUME (R389). -/
def execCcxResume (fn : Func) (mode pc : Nat) (s : State) : Host.Outcome State Fault Refusal :=
  s.act fun s => s.writeTo fn .CCX_T_CTL 0 (3 * 2 ^ 22 + mode % 2 * 2 ^ 21 + pc % 2 ^ 21)

/-- CCX_CLEAR (R389). -/
def execCcxClear (fn : Func) (s : State) : Host.Outcome State Fault Refusal := s.act fun s => s.writeTo fn .CCX_T_CTL 0 (4 * 2 ^ 22)

/-- CCX_MIG_WRITE (R422). -/
def execCcxMigWrite (fn : Func) (value : Nat) (s : State) : Host.Outcome State Fault Refusal := s.act fun s => s.writeTo fn .CCX_MIG 0 value

/-- CCX_TAG_WRITE (R420). -/
def execCcxTagWrite (fn : Func) (value : Nat) (s : State) : Host.Outcome State Fault Refusal := s.act fun s => s.writeTo fn .CCX_TAG 0 value

/-! ## `DMA` (R436, R437, R453, R456) -/

/-- DMA_GO (R437). -/
def execDmaGo (fn : Func) (s : State) : Host.Outcome State Fault Refusal := s.act fun s => s.writeTo fn .DMA_CH_CTL 0 8

/-- DMA_BELL (R437: `next` is what the host's memory answers). -/
def execDmaBell (fn : Func) (next : Nat) (s : State) : Host.Outcome State Fault Refusal := s.act fun s => s.writeTo fn .DMA_CH_CTL 0 4 next

/-- DMA_STOP (R436). -/
def execDmaStop (fn : Func) (s : State) : Host.Outcome State Fault Refusal := s.act fun s => s.writeTo fn .DMA_CH_CTL 0 2

/-- DMA_CLEAR (R436). -/
def execDmaClear (fn : Func) (s : State) : Host.Outcome State Fault Refusal := s.act fun s => s.writeTo fn .DMA_CH_CTL 0 1

/-- RING_CONS_WRITE (R456). -/
def execRingConsWrite (fn : Func) (index : Nat) (s : State) : Host.Outcome State Fault Refusal := s.act fun s => s.writeTo fn .DMA_RING_CONS 0 index

/-- RING_CFG_WRITE (R453). -/
def execRingCfgWrite (fn : Func) (value : Nat) (s : State) : Host.Outcome State Fault Refusal := s.act fun s => s.writeTo fn .DMA_RING_CFG 0 value

/-! ## `CPH` (R468–R475) -/

/-- CPH_LOCK_REQ (R468). -/
def execCphLockReq (fn : Func) (s : State) : Host.Outcome State Fault Refusal := s.act fun s => s.writeTo fn .CPH_LOCK 0 (2 ^ 35)

/-- CPH_LOCK_REL (R469). -/
def execCphLockRel (fn : Func) (s : State) : Host.Outcome State Fault Refusal := s.act fun s => s.writeTo fn .CPH_LOCK 0 (2 ^ 34)

/-- CPH_KEY_LOAD (R472). -/
def execCphKeyLoad (fn : Func) (alg klen : Nat) (s : State) : Host.Outcome State Fault Refusal :=
  s.act fun s => s.writeTo fn .CPH_KEY_CTL 0 (2 ^ 35 + alg % 16 * 2 ^ 8 + klen % 128)

/-- CPH_GO (R475). -/
def execCphGo (fn : Func) (s : State) : Host.Outcome State Fault Refusal := s.act fun s => s.writeTo fn .CPH_CTL 0 8

/-- CPH_BELL (R475: `next` is what the host's memory answers). -/
def execCphBell (fn : Func) (next : Nat) (s : State) : Host.Outcome State Fault Refusal := s.act fun s => s.writeTo fn .CPH_CTL 0 4 next

/-- CPH_STOP (R475). -/
def execCphStop (fn : Func) (s : State) : Host.Outcome State Fault Refusal := s.act fun s => s.writeTo fn .CPH_CTL 0 2

/-- CPH_CLEAR (R475). -/
def execCphClear (fn : Func) (s : State) : Host.Outcome State Fault Refusal := s.act fun s => s.writeTo fn .CPH_CTL 0 1

/-! ## `TIM` and `CNT` (R491–R525) -/

/-- STEP_SET (R492). -/
def execStepSet (fn : Func) (secHi : Nat) (s : State) : Host.Outcome State Fault Refusal :=
  s.act fun s => s.writeTo fn .TIM_STEP_CTL 0 (1 * 2 ^ 34 + secHi % 2 ^ 12)

/-- STEP_ADD (R492). -/
def execStepAdd (fn : Func) (secHi : Nat) (s : State) : Host.Outcome State Fault Refusal :=
  s.act fun s => s.writeTo fn .TIM_STEP_CTL 0 (2 * 2 ^ 34 + secHi % 2 ^ 12)

/-- STEP_SUB (R492). -/
def execStepSub (fn : Func) (secHi : Nat) (s : State) : Host.Outcome State Fault Refusal :=
  s.act fun s => s.writeTo fn .TIM_STEP_CTL 0 (3 * 2 ^ 34 + secHi % 2 ^ 12)

/-- TIM_RATE_WRITE (R491). -/
def execTimRateWrite (fn : Func) (rate : Nat) (s : State) : Host.Outcome State Fault Refusal := s.act fun s => s.writeTo fn .TIM_RATE 0 rate

/-- LOCK_RENEW (R504). -/
def execLockRenew (fn : Func) (bound : Nat) (s : State) : Host.Outcome State Fault Refusal :=
  s.act fun s => s.writeTo fn .TIM_LOCK 0 (2 ^ 35 + bound % 2 ^ 20)

/-- LOCK_DROP (R504). -/
def execLockDrop (fn : Func) (s : State) : Host.Outcome State Fault Refusal := s.act fun s => s.writeTo fn .TIM_LOCK 0 (2 ^ 34)

/-- TIM_SYNCE_WRITE (R503). -/
def execTimSynceWrite (fn : Func) (out value : Nat) (s : State) : Host.Outcome State Fault Refusal :=
  s.act fun s => s.writeTo fn .TIM_SYNCE out value

/-- SNAP (R512). -/
def execSnap (fn : Func) (s : State) : Host.Outcome State Fault Refusal := s.act fun s => s.writeTo fn .CNT_SNAP_CTL 0 1

/-- SNAP_JOIN (R513). -/
def execSnapJoin (fn : Func) (s : State) : Host.Outcome State Fault Refusal := s.act fun s => s.writeTo fn .CNT_SNAP_CTL 0 2

/-- CNT_TRACE_WRITE (R525). -/
def execCntTraceWrite (fn : Func) (value : Nat) (s : State) : Host.Outcome State Fault Refusal := s.act fun s => s.writeTo fn .CNT_TRACE 0 value

/-! ## `FLT` (R538, R546, R553) -/

/-- FLT_CLEAR_SLOT (R546). -/
def execFltClearSlot (fn : Func) (slot : Nat) (s : State) : Host.Outcome State Fault Refusal :=
  s.act fun s => s.writeTo fn .FLT_CLEAR 0 (2 ^ 35 + slot % 64)

/-- FLT_CLEAR_OVERFLOW (R546). -/
def execFltClearOverflow (fn : Func) (s : State) : Host.Outcome State Fault Refusal := s.act fun s => s.writeTo fn .FLT_CLEAR 0 (2 ^ 35 + 2 ^ 34)

/-- FLT_BENCH_CMD (R553). -/
def execFltBenchCmd (fn : Func) (value : Nat) (s : State) : Host.Outcome State Fault Refusal := s.act fun s => s.writeTo fn .FLT_BENCH_CMD 0 value

/-- TAIL_REARM (R538: `aon` through the island's own address register). -/
def execTailRearm (fn : Func) (aon : Bool) (s : State) : Host.Outcome State Fault Refusal :=
  s.act fun s => if aon then s.writeTo fn .AON_TAIL_ADDR 0 (2 ^ 35) else s.writeTo fn .FLT_TAIL_ADDR 0 (2 ^ 35)

/-! ## `PWR`, `AON` and `TWN` (R563–R605) -/

/-- WDT_KICK (R581). -/
def execWdtKick (fn : Func) (code : Nat) (s : State) : Host.Outcome State Fault Refusal := s.act fun s => s.writeTo fn .AON_WDT_KICK 0 (code % 256)

/-- WDT_CFG_WRITE (R581). -/
def execWdtCfgWrite (fn : Func) (value : Nat) (s : State) : Host.Outcome State Fault Refusal := s.act fun s => s.writeTo fn .AON_WDT_CFG 0 value

/-- The value of `PWR_CTL` that names a target and leaves `auto` as it is. -/
def State.targetValue (s : State) (t : Nat) : Nat := flagAt (s.flag F.PWR_CTL.auto) 3 + t

/-- PWR_TARGET_SERVICE (R563). DEDUCED, log entry 17. -/
def execPwrTargetService (fn : Func) (s : State) : Host.Outcome State Fault Refusal := s.act fun s => s.writeTo fn .PWR_CTL 0 (s.targetValue 1)

/-- PWR_TARGET_DOZE (R563). -/
def execPwrTargetDoze (fn : Func) (s : State) : Host.Outcome State Fault Refusal := s.act fun s => s.writeTo fn .PWR_CTL 0 (s.targetValue 2)

/-- PWR_TARGET_REST (R566). -/
def execPwrTargetRest (fn : Func) (s : State) : Host.Outcome State Fault Refusal := s.act fun s => s.writeTo fn .PWR_CTL 0 (s.targetValue 3)

/-- SEQ_POWER_DOWN (R582). -/
def execSeqPowerDown (fn : Func) (off : Nat) (s : State) : Host.Outcome State Fault Refusal :=
  s.act fun s => s.writeTo fn .AON_SEQ 0 (2 ^ 35 + 1 * 2 ^ 31 + off % 2 ^ 16 * 2 ^ 8)

/-- SEQ_POWER_UP (R582). -/
def execSeqPowerUp (fn : Func) (off : Nat) (s : State) : Host.Outcome State Fault Refusal :=
  s.act fun s => s.writeTo fn .AON_SEQ 0 (2 ^ 35 + 2 * 2 ^ 31 + off % 2 ^ 16 * 2 ^ 8)

/-- SEQ_CYCLE (R582). -/
def execSeqCycle (fn : Func) (off : Nat) (s : State) : Host.Outcome State Fault Refusal :=
  s.act fun s => s.writeTo fn .AON_SEQ 0 (2 ^ 35 + 3 * 2 ^ 31 + off % 2 ^ 16 * 2 ^ 8)

/-- SEQ_MAIN_RESET (R582). -/
def execSeqMainReset (fn : Func) (off : Nat) (s : State) : Host.Outcome State Fault Refusal :=
  s.act fun s => s.writeTo fn .AON_SEQ 0 (2 ^ 35 + 4 * 2 ^ 31 + off % 2 ^ 16 * 2 ^ 8)

/-- TWN_EN_WRITE (R602). -/
def execTwnEnWrite (fn : Func) (value : Nat) (s : State) : Host.Outcome State Fault Refusal := s.act fun s => s.writeTo fn .TWN_CFG 0 value

/-- TWN_DH_WRITE (R602). -/
def execTwnDhWrite (fn : Func) (port value : Nat) (s : State) : Host.Outcome State Fault Refusal := s.act fun s => s.writeTo fn .TWN_DH port value

/-- TWN_MOVE (R605). DESIGN CHOICE, log entry 69. -/
def execTwnMove (fn : Func) (port to_ : Nat) (s : State) : Host.Outcome State Fault Refusal :=
  s.act fun s => s.writeTo fn .TWN_MOVE 0 (2 ^ 35 + to_ % 2 * 2 ^ 8 + port % 256)

end Sys2Proof.Machine
end

