-- ==== Sys2Proof/Machine/Dispatch.lean ====
section
/-! DEFINITION. One arm per command. -/

namespace Sys2Proof.Machine

open Host

/-- DESIGN CHOICE, log entry 65. -/
def exec (i : Instr) (s : State) : Host.Outcome State Fault Refusal :=
  match i with
  | .wordWrite fn bar be addr value => Sys2Proof.Machine.execWordWrite fn bar be addr value s
  | .lowHalfWrite fn bar addr value => Sys2Proof.Machine.execLowHalfWrite fn bar addr value s
  | .highHalfWrite fn bar addr value => Sys2Proof.Machine.execHighHalfWrite fn bar addr value s
  | .lowHalfRead fn bar addr => Sys2Proof.Machine.execLowHalfRead fn bar addr s
  | .highHalfRead fn bar addr => Sys2Proof.Machine.execHighHalfRead fn bar addr s
  | .readClearAccess fn bar be addr => Sys2Proof.Machine.execReadClearAccess fn bar be addr s
  | .selWrite fn block value => Sys2Proof.Machine.execSelWrite fn block value s
  | .glbFenceRead fn late => Sys2Proof.Machine.execGlbFenceRead fn late s
  | .glbBresetWrite fn blocks => Sys2Proof.Machine.execGlbBresetWrite fn blocks s
  | .blockResetEnd block => Sys2Proof.Machine.execBlockResetEnd block s
  | .registerWrite fn addr value => Sys2Proof.Machine.execRegisterWrite fn addr value s
  | .rwlWrite fn addr value => Sys2Proof.Machine.execRwlWrite fn addr value s
  | .functionLevelReset fn => Sys2Proof.Machine.execFunctionLevelReset fn s
  | .perstAssert => Sys2Proof.Machine.execPerstAssert s
  | .perstRelease => Sys2Proof.Machine.execPerstRelease s
  | .linkL0 speed width => Sys2Proof.Machine.execLinkL0 speed width s
  | .loadHost fn head => Sys2Proof.Machine.execLoadHost fn head s
  | .loadFlash fn slot head => Sys2Proof.Machine.execLoadFlash fn slot head s
  | .discard fn scope => Sys2Proof.Machine.execDiscard fn scope s
  | .approve fn scope => Sys2Proof.Machine.execApprove fn scope s
  | .castle fn => Sys2Proof.Machine.execCastle fn s
  | .cancel fn => Sys2Proof.Machine.execCancel fn s
  | .imgCmdInvalidOp fn op => Sys2Proof.Machine.execImgCmdInvalidOp fn op s
  | .imgLoadComplete image => Sys2Proof.Machine.execImgLoadComplete image s
  | .imgBusError read => Sys2Proof.Machine.execImgBusError read s
  | .shadowRestoreDone scope => Sys2Proof.Machine.execShadowRestoreDone scope s
  | .castleCheckDone => Sys2Proof.Machine.execCastleCheckDone s
  | .castlingTime => Sys2Proof.Machine.execCastlingTime s
  | .imgFkeyWrite fn value => Sys2Proof.Machine.execImgFkeyWrite fn value s
  | .imgFuseWrite fn value => Sys2Proof.Machine.execImgFuseWrite fn value s
  | .fuseComplete => Sys2Proof.Machine.execFuseComplete s
  | .macAdminWrite fn owner tenant => Sys2Proof.Machine.execMacAdminWrite fn owner tenant s
  | .macRestart fn owner tenant => Sys2Proof.Machine.execMacRestart fn owner tenant s
  | .macClrFault fn owner tenant => Sys2Proof.Machine.execMacClrFault fn owner tenant s
  | .presencePoll port ack modFault => Sys2Proof.Machine.execPresencePoll port ack modFault s
  | .moduleBringupStep port reply => Sys2Proof.Machine.execModuleBringupStep port reply s
  | .moduleBringupTimeout port => Sys2Proof.Machine.execModuleBringupTimeout port s
  | .anPageRx port => Sys2Proof.Machine.execAnPageRx port s
  | .signalDetect port => Sys2Proof.Machine.execSignalDetect port s
  | .linkConditionsMet port eee => Sys2Proof.Machine.execLinkConditionsMet port eee s
  | .trainToExpiry port => Sys2Proof.Machine.execTrainToExpiry port s
  | .linkLossBegin port lane kind => Sys2Proof.Machine.execLinkLossBegin port lane kind s
  | .linkLossEnd port => Sys2Proof.Machine.execLinkLossEnd port s
  | .downHoldExpiry port => Sys2Proof.Machine.execDownHoldExpiry port s
  | .remoteFaultRx port => Sys2Proof.Machine.execRemoteFaultRx port s
  | .i2cTransactionGo fn value => Sys2Proof.Machine.execI2cTransactionGo fn value s
  | .i2cTransactionDone port result data => Sys2Proof.Machine.execI2cTransactionDone port result data s
  | .i2cBusStuck master => Sys2Proof.Machine.execI2cBusStuck master s
  | .partnerAgeExpiry port slot => Sys2Proof.Machine.execPartnerAgeExpiry port slot s
  | .partnerSlotFree fn slot => Sys2Proof.Machine.execPartnerSlotFree fn slot s
  | .pauseFrameRx port time => Sys2Proof.Machine.execPauseFrameRx port time s
  | .pfcFrameRx port enables times => Sys2Proof.Machine.execPfcFrameRx port enables times s
  | .rxCtlDiscard port => Sys2Proof.Machine.execRxCtlDiscard port s
  | .pauseTimerExpiry port cls => Sys2Proof.Machine.execPauseTimerExpiry port cls s
  | .pfcRefresh port => Sys2Proof.Machine.execPfcRefresh port s
  | .mmVerifyTimer port => Sys2Proof.Machine.execMmVerifyTimer port s
  | .mmRespondRx port => Sys2Proof.Machine.execMmRespondRx port s
  | .fragmentRx port first count bytes crcOk final => Sys2Proof.Machine.execFragmentRx port first count bytes crcOk final s
  | .lpiIdleExpiry port => Sys2Proof.Machine.execLpiIdleExpiry port s
  | .frameStart port pmac bytes => Sys2Proof.Machine.execFrameStart port pmac bytes s
  | .bufferAllocRx frame bytes => Sys2Proof.Machine.execBufferAllocRx frame bytes s
  | .frameEnd port pmac bytes check => Sys2Proof.Machine.execFrameEnd port pmac bytes check s
  | .jobHandover frame => Sys2Proof.Machine.execJobHandover frame s
  | .jobDispatch group => Sys2Proof.Machine.execJobDispatch group s
  | .wakeMarkRetry group => Sys2Proof.Machine.execWakeMarkRetry group s
  | .sliceTake group slice => Sys2Proof.Machine.execSliceTake group slice s
  | .sliceResult group slice bad rd => Sys2Proof.Machine.execSliceResult group slice bad rd s
  | .learnDeliver => Sys2Proof.Machine.execLearnDeliver s
  | .jobLate frame => Sys2Proof.Machine.execJobLate frame s
  | .reorderRelease group => Sys2Proof.Machine.execReorderRelease group s
  | .switchResult group => Sys2Proof.Machine.execSwitchResult group s
  | .copyEngineResult group => Sys2Proof.Machine.execCopyEngineResult group s
  | .sprayerTarget group => Sys2Proof.Machine.execSprayerTarget group s
  | .sliceReady group slice => Sys2Proof.Machine.execSliceReady group slice s
  | .sliceDrained group slice => Sys2Proof.Machine.execSliceDrained group slice s
  | .slownessWindowEnd group slice => Sys2Proof.Machine.execSlownessWindowEnd group slice s
  | .deepWrite => Sys2Proof.Machine.execDeepWrite s
  | .stagingFlush queue => Sys2Proof.Machine.execStagingFlush queue s
  | .headRefill queue => Sys2Proof.Machine.execHeadRefill queue s
  | .deepRecordReturn => Sys2Proof.Machine.execDeepRecordReturn s
  | .hbmRowClose unit bank => Sys2Proof.Machine.execHbmRowClose unit bank s
  | .hbmRefresh unit bank => Sys2Proof.Machine.execHbmRefresh unit bank s
  | .hbmPowerDown unit => Sys2Proof.Machine.execHbmPowerDown unit s
  | .hbmRetrainTimer stack => Sys2Proof.Machine.execHbmRetrainTimer stack s
  | .hbmCopyDone stack => Sys2Proof.Machine.execHbmCopyDone stack s
  | .hbmTrainDone stack => Sys2Proof.Machine.execHbmTrainDone stack s
  | .hbmReadError block line uncorr => Sys2Proof.Machine.execHbmReadError block line uncorr s
  | .hbmRowRepairDone unit => Sys2Proof.Machine.execHbmRowRepairDone unit s
  | .hbmPcDrained unit => Sys2Proof.Machine.execHbmPcDrained unit s
  | .hbcClose fn => Sys2Proof.Machine.execHbcClose fn s
  | .hbcOpen fn => Sys2Proof.Machine.execHbcOpen fn s
  | .hbcRetrain fn pc => Sys2Proof.Machine.execHbcRetrain fn pc s
  | .hbcBmaskWrite fn word value => Sys2Proof.Machine.execHbcBmaskWrite fn word value s
  | .schedSelect port => Sys2Proof.Machine.execSchedSelect port s
  | .shaperRefillTick => Sys2Proof.Machine.execShaperRefillTick s
  | .gateEntryChange port => Sys2Proof.Machine.execGateEntryChange port s
  | .rewriteDispatch cluster => Sys2Proof.Machine.execRewriteDispatch cluster s
  | .class7Redispatch cluster engine => Sys2Proof.Machine.execClass7Redispatch cluster engine s
  | .rewriteStart cluster engine => Sys2Proof.Machine.execRewriteStart cluster engine s
  | .editEnd cluster engine => Sys2Proof.Machine.execEditEnd cluster engine s
  | .editInsert cluster engine => Sys2Proof.Machine.execEditInsert cluster engine s
  | .editDelete cluster engine => Sys2Proof.Machine.execEditDelete cluster engine s
  | .editReplace cluster engine => Sys2Proof.Machine.execEditReplace cluster engine s
  | .editSet cluster engine => Sys2Proof.Machine.execEditSet cluster engine s
  | .editCopy cluster engine => Sys2Proof.Machine.execEditCopy cluster engine s
  | .editCsum cluster engine => Sys2Proof.Machine.execEditCsum cluster engine s
  | .editTtl cluster engine => Sys2Proof.Machine.execEditTtl cluster engine s
  | .editPushTag cluster engine => Sys2Proof.Machine.execEditPushTag cluster engine s
  | .editPopTag cluster engine => Sys2Proof.Machine.execEditPopTag cluster engine s
  | .editSetPcp cluster engine => Sys2Proof.Machine.execEditSetPcp cluster engine s
  | .editSetDscp cluster engine => Sys2Proof.Machine.execEditSetDscp cluster engine s
  | .editPtpCf cluster engine => Sys2Proof.Machine.execEditPtpCf cluster engine s
  | .editPtpTs cluster engine => Sys2Proof.Machine.execEditPtpTs cluster engine s
  | .editNop cluster engine => Sys2Proof.Machine.execEditNop cluster engine s
  | .ownerOpcode cluster engine => Sys2Proof.Machine.execOwnerOpcode cluster engine s
  | .moverStallEnd cluster engine => Sys2Proof.Machine.execMoverStallEnd cluster engine s
  | .stallMaxExpiry cluster engine => Sys2Proof.Machine.execStallMaxExpiry cluster engine s
  | .engineLogicFault cluster engine => Sys2Proof.Machine.execEngineLogicFault cluster engine s
  | .controlStoreRepairDone cluster space bank scope word => Sys2Proof.Machine.execControlStoreRepairDone cluster space bank scope word s
  | .rweIndWrite fn value => Sys2Proof.Machine.execRweIndWrite fn value s
  | .engineSlowAdvisory cluster engine => Sys2Proof.Machine.execEngineSlowAdvisory cluster engine s
  | .txStart port => Sys2Proof.Machine.execTxStart port s
  | .txFrameEnd port => Sys2Proof.Machine.execTxFrameEnd port s
  | .integerOp thread => Sys2Proof.Machine.execIntegerOp thread s
  | .immediateOp thread => Sys2Proof.Machine.execImmediateOp thread s
  | .lui thread => Sys2Proof.Machine.execLui thread s
  | .bitFieldOp thread => Sys2Proof.Machine.execBitFieldOp thread s
  | .pairOp thread => Sys2Proof.Machine.execPairOp thread s
  | .multiply thread => Sys2Proof.Machine.execMultiply thread s
  | .divide thread => Sys2Proof.Machine.execDivide thread s
  | .lw thread => Sys2Proof.Machine.execLw thread s
  | .sw thread => Sys2Proof.Machine.execSw thread s
  | .lp thread => Sys2Proof.Machine.execLp thread s
  | .sp thread => Sys2Proof.Machine.execSp thread s
  | .amoadd thread => Sys2Proof.Machine.execAmoadd thread s
  | .amoswap thread => Sys2Proof.Machine.execAmoswap thread s
  | .cas thread => Sys2Proof.Machine.execCas thread s
  | .branch thread => Sys2Proof.Machine.execBranch thread s
  | .jal thread => Sys2Proof.Machine.execJal thread s
  | .jalr thread => Sys2Proof.Machine.execJalr thread s
  | .fork thread => Sys2Proof.Machine.execFork thread s
  | .join thread => Sys2Proof.Machine.execJoin thread s
  | .exit thread => Sys2Proof.Machine.execExit thread s
  | .wfe thread => Sys2Proof.Machine.execWfe thread s
  | .sev thread => Sys2Proof.Machine.execSev thread s
  | .sevDelivery => Sys2Proof.Machine.execSevDelivery s
  | .yield thread => Sys2Proof.Machine.execYield thread s
  | .threadTimerExpiry thread => Sys2Proof.Machine.execThreadTimerExpiry thread s
  | .qpop thread => Sys2Proof.Machine.execQpop thread s
  | .qpush thread => Sys2Proof.Machine.execQpush thread s
  | .bget thread => Sys2Proof.Machine.execBget thread s
  | .bput thread => Sys2Proof.Machine.execBput thread s
  | .brel thread => Sys2Proof.Machine.execBrel thread s
  | .bret thread => Sys2Proof.Machine.execBret thread s
  | .bgive thread => Sys2Proof.Machine.execBgive thread s
  | .brcl thread => Sys2Proof.Machine.execBrcl thread s
  | .bwin thread => Sys2Proof.Machine.execBwin thread s
  | .binfo thread => Sys2Proof.Machine.execBinfo thread s
  | .tlook thread => Sys2Proof.Machine.execTlook thread s
  | .tins thread => Sys2Proof.Machine.execTins thread s
  | .tsrch thread => Sys2Proof.Machine.execTsrch thread s
  | .csrr thread => Sys2Proof.Machine.execCsrr thread s
  | .csrw thread => Sys2Proof.Machine.execCsrw thread s
  | .trap thread => Sys2Proof.Machine.execTrap thread s
  | .rets thread => Sys2Proof.Machine.execRets thread s
  | .fence thread => Sys2Proof.Machine.execFence thread s
  | .iflush thread => Sys2Proof.Machine.execIflush thread s
  | .thrKill thread => Sys2Proof.Machine.execThrKill thread s
  | .thrStart thread => Sys2Proof.Machine.execThrStart thread s
  | .thrResume thread => Sys2Proof.Machine.execThrResume thread s
  | .thrRdreg thread => Sys2Proof.Machine.execThrRdreg thread s
  | .thrWrreg thread => Sys2Proof.Machine.execThrWrreg thread s
  | .breakpoint thread => Sys2Proof.Machine.execBreakpoint thread s
  | .ccxStart fn mode pc => Sys2Proof.Machine.execCcxStart fn mode pc s
  | .ccxKill fn => Sys2Proof.Machine.execCcxKill fn s
  | .ccxResume fn mode pc => Sys2Proof.Machine.execCcxResume fn mode pc s
  | .ccxClear fn => Sys2Proof.Machine.execCcxClear fn s
  | .ccxMigWrite fn value => Sys2Proof.Machine.execCcxMigWrite fn value s
  | .threadMigrate thread => Sys2Proof.Machine.execThreadMigrate thread s
  | .migrationComplete position => Sys2Proof.Machine.execMigrationComplete position s
  | .coreLogicFault position => Sys2Proof.Machine.execCoreLogicFault position s
  | .coreSlowAdvisory position => Sys2Proof.Machine.execCoreSlowAdvisory position s
  | .ccxTagWrite fn value => Sys2Proof.Machine.execCcxTagWrite fn value s
  | .dmaGo fn => Sys2Proof.Machine.execDmaGo fn s
  | .dmaBell fn next => Sys2Proof.Machine.execDmaBell fn next s
  | .dmaStop fn => Sys2Proof.Machine.execDmaStop fn s
  | .dmaClear fn => Sys2Proof.Machine.execDmaClear fn s
  | .descriptorFetchFail lane n code => Sys2Proof.Machine.execDescriptorFetchFail lane n code s
  | .dmaCopy ch fields table data err => Sys2Proof.Machine.execDmaCopy ch fields table data err s
  | .dmaSend ch fields data err => Sys2Proof.Machine.execDmaSend ch fields data err s
  | .dmaInject ch fields data err => Sys2Proof.Machine.execDmaInject ch fields data err s
  | .dmaRecv ch fields => Sys2Proof.Machine.execDmaRecv ch fields s
  | .recvPuntReady ch => Sys2Proof.Machine.execRecvPuntReady ch s
  | .descriptorComplete ch => Sys2Proof.Machine.execDescriptorComplete ch s
  | .ringModerationTimer ch => Sys2Proof.Machine.execRingModerationTimer ch s
  | .ringConsWrite fn index => Sys2Proof.Machine.execRingConsWrite fn index s
  | .ringCfgWrite fn value => Sys2Proof.Machine.execRingCfgWrite fn value s
  | .cphLockReq fn => Sys2Proof.Machine.execCphLockReq fn s
  | .cphLockRel fn => Sys2Proof.Machine.execCphLockRel fn s
  | .zeroiseDone lane => Sys2Proof.Machine.execZeroiseDone lane s
  | .cphKeyLoad fn alg klen => Sys2Proof.Machine.execCphKeyLoad fn alg klen s
  | .keyLoadDone lane => Sys2Proof.Machine.execKeyLoadDone lane s
  | .cphGo fn => Sys2Proof.Machine.execCphGo fn s
  | .cphBell fn next => Sys2Proof.Machine.execCphBell fn next s
  | .cphStop fn => Sys2Proof.Machine.execCphStop fn s
  | .cphClear fn => Sys2Proof.Machine.execCphClear fn s
  | .cphEncrypt lane fields input iv err => Sys2Proof.Machine.execCphEncrypt lane fields input iv err s
  | .cphDecrypt lane fields input iv tag err => Sys2Proof.Machine.execCphDecrypt lane fields input iv tag err s
  | .cphGenerate lane fields input err => Sys2Proof.Machine.execCphGenerate lane fields input err s
  | .cphVerify lane fields input tag err => Sys2Proof.Machine.execCphVerify lane fields input tag err s
  | .cphJobComplete lane => Sys2Proof.Machine.execCphJobComplete lane s
  | .cipherFault lane kind => Sys2Proof.Machine.execCipherFault lane kind s
  | .stepSet fn secHi => Sys2Proof.Machine.execStepSet fn secHi s
  | .stepAdd fn secHi => Sys2Proof.Machine.execStepAdd fn secHi s
  | .stepSub fn secHi => Sys2Proof.Machine.execStepSub fn secHi s
  | .stepApply => Sys2Proof.Machine.execStepApply s
  | .timRateWrite fn rate => Sys2Proof.Machine.execTimRateWrite fn rate s
  | .lockRenew fn bound => Sys2Proof.Machine.execLockRenew fn bound s
  | .lockDrop fn => Sys2Proof.Machine.execLockDrop fn s
  | .lockErrUpdate => Sys2Proof.Machine.execLockErrUpdate s
  | .refLost => Sys2Proof.Machine.execRefLost s
  | .refRelock => Sys2Proof.Machine.execRefRelock s
  | .ppsOutRise => Sys2Proof.Machine.execPpsOutRise s
  | .ppsOutFall => Sys2Proof.Machine.execPpsOutFall s
  | .ppsInEdge falling => Sys2Proof.Machine.execPpsInEdge falling s
  | .ppsInTimeout => Sys2Proof.Machine.execPpsInTimeout s
  | .synceRelease out => Sys2Proof.Machine.execSynceRelease out s
  | .timSynceWrite fn out value => Sys2Proof.Machine.execTimSynceWrite fn out value s
  | .snap fn => Sys2Proof.Machine.execSnap fn s
  | .snapJoin fn => Sys2Proof.Machine.execSnapJoin fn s
  | .snapCapture => Sys2Proof.Machine.execSnapCapture s
  | .gatherDone => Sys2Proof.Machine.execGatherDone s
  | .cntTraceWrite fn value => Sys2Proof.Machine.execCntTraceWrite fn value s
  | .railSample rail mv nj nc => Sys2Proof.Machine.execRailSample rail mv nj nc s
  | .faultDetected cause unit d4 d5 corr shadow items => Sys2Proof.Machine.execFaultDetected cause unit d4 d5 corr shadow items s
  | .fltClearSlot fn slot => Sys2Proof.Machine.execFltClearSlot fn slot s
  | .fltClearOverflow fn => Sys2Proof.Machine.execFltClearOverflow fn s
  | .fltBenchCmd fn value => Sys2Proof.Machine.execFltBenchCmd fn value s
  | .tailRearm fn aon => Sys2Proof.Machine.execTailRearm fn aon s
  | .safeReqAssert => Sys2Proof.Machine.execSafeReqAssert s
  | .safeReqHoldExpiry => Sys2Proof.Machine.execSafeReqHoldExpiry s
  | .graveCycleTimer => Sys2Proof.Machine.execGraveCycleTimer s
  | .wearLevelCrossed mon unit lane value row => Sys2Proof.Machine.execWearLevelCrossed mon unit lane value row s
  | .wearAdvisoryRepeat mon unit lane row => Sys2Proof.Machine.execWearAdvisoryRepeat mon unit lane row s
  | .deferredPromotion unit => Sys2Proof.Machine.execDeferredPromotion unit s
  | .tableRowRepair replica unit => Sys2Proof.Machine.execTableRowRepair replica unit s
  | .tcmRowRepair replica bank row => Sys2Proof.Machine.execTcmRowRepair replica bank row s
  | .tcmPromotionDone unit => Sys2Proof.Machine.execTcmPromotionDone unit s
  | .bufferRowRepair mem row => Sys2Proof.Machine.execBufferRowRepair mem row s
  | .schedRowRepair bank => Sys2Proof.Machine.execSchedRowRepair bank s
  | .pllPromoteLock port => Sys2Proof.Machine.execPllPromoteLock port s
  | .tempSample temps => Sys2Proof.Machine.execTempSample temps s
  | .railOutOfWindow rail mv => Sys2Proof.Machine.execRailOutOfWindow rail mv s
  | .pgoodLost pgood => Sys2Proof.Machine.execPgoodLost pgood s
  | .watchdogExpiry => Sys2Proof.Machine.execWatchdogExpiry s
  | .wdtKick fn code => Sys2Proof.Machine.execWdtKick fn code s
  | .wdtCfgWrite fn value => Sys2Proof.Machine.execWdtCfgWrite fn value s
  | .pwrTargetService fn => Sys2Proof.Machine.execPwrTargetService fn s
  | .pwrTargetDoze fn => Sys2Proof.Machine.execPwrTargetDoze fn s
  | .pwrTargetRest fn => Sys2Proof.Machine.execPwrTargetRest fn s
  | .loadSample => Sys2Proof.Machine.execLoadSample s
  | .eyeReadapt port lane => Sys2Proof.Machine.execEyeReadapt port lane s
  | .eyeReadaptEnd port lane => Sys2Proof.Machine.execEyeReadaptEnd port lane s
  | .restEntryComplete => Sys2Proof.Machine.execRestEntryComplete s
  | .wakePin pin => Sys2Proof.Machine.execWakePin pin s
  | .rtcAlarm => Sys2Proof.Machine.execRtcAlarm s
  | .restExitComplete => Sys2Proof.Machine.execRestExitComplete s
  | .seqPowerDown fn off => Sys2Proof.Machine.execSeqPowerDown fn off s
  | .seqPowerUp fn off => Sys2Proof.Machine.execSeqPowerUp fn off s
  | .seqCycle fn off => Sys2Proof.Machine.execSeqCycle fn off s
  | .seqMainReset fn off => Sys2Proof.Machine.execSeqMainReset fn off s
  | .powerDownStep fallen => Sys2Proof.Machine.execPowerDownStep fallen s
  | .cycleOffExpiry => Sys2Proof.Machine.execCycleOffExpiry s
  | .pgoodRise pgood => Sys2Proof.Machine.execPgoodRise pgood s
  | .pgoodTimeout => Sys2Proof.Machine.execPgoodTimeout s
  | .mainResetRelease => Sys2Proof.Machine.execMainResetRelease s
  | .supplySwitch => Sys2Proof.Machine.execSupplySwitch s
  | .supplyReturn => Sys2Proof.Machine.execSupplyReturn s
  | .islandPor => Sys2Proof.Machine.execIslandPor s
  | .porNAssert => Sys2Proof.Machine.execPorNAssert s
  | .islandRelease pair mainOk bkupOk => Sys2Proof.Machine.execIslandRelease pair mainOk bkupOk s
  | .crystalStable => Sys2Proof.Machine.execCrystalStable s
  | .consoleRead req late => Sys2Proof.Machine.execConsoleRead req late s
  | .consoleWrite req late => Sys2Proof.Machine.execConsoleWrite req late s
  | .consoleEcho req => Sys2Proof.Machine.execConsoleEcho req s
  | .consoleGapTimeout => Sys2Proof.Machine.execConsoleGapTimeout s
  | .consoleLingerExpiry => Sys2Proof.Machine.execConsoleLingerExpiry s
  | .bootFusesDone => Sys2Proof.Machine.execBootFusesDone s
  | .pllLockTimeout => Sys2Proof.Machine.execPllLockTimeout s
  | .selftestDone bsm other failed => Sys2Proof.Machine.execSelftestDone bsm other failed s
  | .hbmTrainingDone stack ok failed => Sys2Proof.Machine.execHbmTrainingDone stack ok failed s
  | .crossLaneUp lane => Sys2Proof.Machine.execCrossLaneUp lane s
  | .cellResendTimer lane seq => Sys2Proof.Machine.execCellResendTimer lane seq s
  | .cellNakRx lane seq => Sys2Proof.Machine.execCellNakRx lane seq s
  | .linkUpExchange serial black states => Sys2Proof.Machine.execLinkUpExchange serial black states s
  | .keepaliveTimer => Sys2Proof.Machine.execKeepaliveTimer s
  | .crossLinkLost seq => Sys2Proof.Machine.execCrossLinkLost seq s
  | .crossLaneFault lane => Sys2Proof.Machine.execCrossLaneFault lane s
  | .chkInEdge => Sys2Proof.Machine.execChkInEdge s
  | .checkLineSilent => Sys2Proof.Machine.execCheckLineSilent s
  | .checkSilentAdvisory => Sys2Proof.Machine.execCheckSilentAdvisory s
  | .settleExpiry => Sys2Proof.Machine.execSettleExpiry s
  | .guardExpiry => Sys2Proof.Machine.execGuardExpiry s
  | .ownershipReport states => Sys2Proof.Machine.execOwnershipReport states s
  | .twnMove fn port to_ => Sys2Proof.Machine.execTwnMove fn port to_ s
  | .handoverRx port => Sys2Proof.Machine.execHandoverRx port s
  | .redirectRx port tenant set cls colour qclass edit md l3 l4 l5 rx bytes => Sys2Proof.Machine.execRedirectRx port tenant set cls colour qclass edit md l3 l4 l5 rx bytes s
  | .peerLearnRx part words => Sys2Proof.Machine.execPeerLearnRx part words s
  | .replayRx part tcm op cmd arg keys val care => Sys2Proof.Machine.execReplayRx part tcm op cmd arg keys val care s
  | .peerDmaAccess part off write len bytes => Sys2Proof.Machine.execPeerDmaAccess part off write len bytes s
  | .peerTimeReport locked err => Sys2Proof.Machine.execPeerTimeReport locked err s
  | .twnEnWrite fn value => Sys2Proof.Machine.execTwnEnWrite fn value s
  | .twnDhWrite fn port value => Sys2Proof.Machine.execTwnDhWrite fn port value s
  | .tblInsert fn cmd => Sys2Proof.Machine.execTblInsert fn cmd s
  | .tblDelete fn cmd => Sys2Proof.Machine.execTblDelete fn cmd s
  | .tblUpdate fn cmd => Sys2Proof.Machine.execTblUpdate fn cmd s
  | .tblRead fn cmd => Sys2Proof.Machine.execTblRead fn cmd s
  | .pfxInsert fn cmd => Sys2Proof.Machine.execPfxInsert fn cmd s
  | .pfxDelete fn cmd => Sys2Proof.Machine.execPfxDelete fn cmd s
  | .pfxRead fn cmd => Sys2Proof.Machine.execPfxRead fn cmd s
  | .writeUnit fn cmd => Sys2Proof.Machine.execWriteUnit fn cmd s
  | .readUnit fn cmd => Sys2Proof.Machine.execReadUnit fn cmd s
  | .tblAccept => Sys2Proof.Machine.execTblAccept s
  | .tblCommit => Sys2Proof.Machine.execTblCommit s
  | .agerVisit part => Sys2Proof.Machine.execAgerVisit part s
  | .tblScrub replica unit err => Sys2Proof.Machine.execTblScrub replica unit err s
  | .tblBankRetention replica bank => Sys2Proof.Machine.execTblBankRetention replica bank s
  | .tcmInvalidate fn entry notify => Sys2Proof.Machine.execTcmInvalidate fn entry notify s
  | .tcmWrite fn entry notify => Sys2Proof.Machine.execTcmWrite fn entry notify s
  | .tcmValidate fn entry notify => Sys2Proof.Machine.execTcmValidate fn entry notify s
  | .tcmSetAction fn entry notify => Sys2Proof.Machine.execTcmSetAction fn entry notify s
  | .tcmRead fn entry notify => Sys2Proof.Machine.execTcmRead fn entry notify s
  | .tcmHitRead fn entry notify => Sys2Proof.Machine.execTcmHitRead fn entry notify s
  | .tcmHitClear fn entry notify => Sys2Proof.Machine.execTcmHitClear fn entry notify s
  | .tcmCommit => Sys2Proof.Machine.execTcmCommit s
  | .tcmScrub replica bank row err => Sys2Proof.Machine.execTcmScrub replica bank row err s
  | .tcmBankRetention replica bank => Sys2Proof.Machine.execTcmBankRetention replica bank s
  | .bpmAlloc unit pool => Sys2Proof.Machine.execBpmAlloc unit pool s
  | .bpmRetain unit handle n => Sys2Proof.Machine.execBpmRetain unit handle n s
  | .bpmRelease unit handle => Sys2Proof.Machine.execBpmRelease unit handle s
  | .bpmFree unit handle => Sys2Proof.Machine.execBpmFree unit handle s
  | .bpmGive unit handle to_ => Sys2Proof.Machine.execBpmGive unit handle to_ s
  | .bpmReclaim unit handle => Sys2Proof.Machine.execBpmReclaim unit handle s
  | .bpmLeave port handle => Sys2Proof.Machine.execBpmLeave port handle s
  | .bpmInspectWrite fn handle => Sys2Proof.Machine.execBpmInspectWrite fn handle s
  | .bpmReclaimWrite fn handle => Sys2Proof.Machine.execBpmReclaimWrite fn handle s
  | .swcWatchRead fn index => Sys2Proof.Machine.execSwcWatchRead fn index s
  | .swcWatchWrite fn index => Sys2Proof.Machine.execSwcWatchWrite fn index s
  | .prsAdmitWrite fn part group value => Sys2Proof.Machine.execPrsAdmitWrite fn part group value s
  | .prsPuntWrite fn part reason value => Sys2Proof.Machine.execPrsPuntWrite fn part reason value s
  | .filterUnblock fn value => Sys2Proof.Machine.execFilterUnblock fn value s
  | .remoteFaultEnd port => Sys2Proof.Machine.execRemoteFaultEnd port s
  | .partnerLowPowerIdle port enter => Sys2Proof.Machine.execPartnerLowPowerIdle port enter s
  | .safeReqRelease => Sys2Proof.Machine.execSafeReqRelease s
  | .bkupSupplyLost => Sys2Proof.Machine.execBkupSupplyLost s
  | .consoleCharacterDiscard line => Sys2Proof.Machine.execConsoleCharacterDiscard line s
  | .pcieLinkRetrain speed width => Sys2Proof.Machine.execPcieLinkRetrain speed width s
  | .crossLaneLoss lane => Sys2Proof.Machine.execCrossLaneLoss lane s

end Sys2Proof.Machine
end

