-- ==== Sys2Proof/Machine/Slow.lean ====
section
/-! DEFINITION. The passing of one core clock: device time (R487), the control cores' cycle events (R419), and the island's own counts: the
real-time counter (R580), the watchdog (R581) and the check line (R598). -/

namespace Sys2Proof.Machine

/-- Core clocks per tick of the real-time counter, in eighths: 1.6 GHz over 32,768 Hz. DEDUCED, log entry 4. -/
def rtcEighths : Nat := 390625

/-- Core clocks per count of the watchdog, at 1,024 Hz. DEDUCED, log entry 4. -/
def wdtClocks : Nat := 1562500

/-- Core clocks per half period of the 1 kHz wave on `CHK_OUT`. DEDUCED, log entry 4. -/
def chkClocks : Nat := 800000

/-- The core clock runs: the main domains are on and not in REST (R562, R567). DESIGN CHOICE, log entry 66. -/
def State.coreRuns (s : State) : Bool := s.flag F.AON_STATUS.main_on && decide (s.pstate ≠ psRest)

/-- The real-time counter's share of a core clock (R580). -/
def State.rtcClock (s : State) : State :=
  let n := s.power.rtcAcc + 8
  if n < rtcEighths then s.modPower fun p => { p with rtcAcc := n }
  else (s.wr .AON_RTC 0 0 (BitVec.ofNat 72 ((s.rtc + 1) % 2 ^ 63))).modPower fun p => { p with rtcAcc := n - rtcEighths }

/-- The watchdog's share of a core clock (R581): it counts in SERVICE and DOZE while enabled, down to 0. -/
def State.wdtClock (s : State) : State :=
  if !s.flag F.AON_WDT_CFG.en ∨ !s.coreRuns ∨ s.fget F.AON_WDT_KICK.left = 0 then s
  else
    let n := s.power.wdtAcc + 1
    if n < wdtClocks then s.modPower fun p => { p with wdtAcc := n }
    else (s.drop F.AON_WDT_KICK.left 0 0).modPower fun p => { p with wdtAcc := 0 }

/-- The check line carries the heartbeat (R598). -/
def State.heartbeat (s : State) : Bool :=
  s.flag F.AON_CHK.en && !s.flag F.AON_STATUS.grave && !s.flag F.AON_STATUS.safe_global && s.flag F.AON_STATUS.main_on

/-- The check line's share of a core clock (R598): an edge every half period, the level held and the period started anew while there is no
heartbeat. -/
def State.chkClock (s : State) : State :=
  if !s.heartbeat then s.modPower fun p => { p with chkAcc := 0 }
  else
    let n := s.power.chkAcc + 1
    if n < chkClocks then s.modPower fun p => { p with chkAcc := n }
    else ({ s with twin := { s.twin with chkOut := !s.twin.chkOut } } : State).modPower fun p => { p with chkAcc := 0 }

/-- The main domains' share of a core clock: the cores' events, device time, lookups answered, the control frames that fall due (R140), and the HBM
controller (R309). -/
def State.mainClock (s : State) : State := if s.coreRuns then s.cycleEvents.clockTick.lookTick.ctlTick.hbmTick else s

/-- The island's share of a core clock, once it is out of its power-on reset and its crystal is stable (R580, R619). -/
def State.islandClock (s : State) : State :=
  if s.power.inPor || !s.power.crystal then s else s.rtcClock.wdtClock.chkClock

/-- Nothing is commanded: one core clock passes. DESIGN CHOICE, log entry 3. -/
def State.idle (s : State) : State := s.mainClock.islandClock.withQueue s.pending

end Sys2Proof.Machine
end

