-- ==== Sys2Proof/WellFormed.lean ====
section
/-! DEFINITION. Which commands are well formed: operands that name a function, a port, a unit, a lane, a thread, a channel or another instance
name one that the device has (R75, R88), and written values fit their registers (R78). -/

namespace Sys2Proof

/-- A function that the device has: sixteen virtual ones (R75). -/
def Func.wf : Func → Bool
  | .vf n => decide (n < 16)
  | _ => true

/-- A port (R88). -/
def portOk (n : Nat) : Bool := decide (n < 256)

/-- A control thread (R88). -/
def threadOk (n : Nat) : Bool := decide (n < 144)

/-- A rewrite cluster (R88). -/
def clusterOk (n : Nat) : Bool := decide (n < 32)

/-- A rewrite engine of a cluster (R385). -/
def engineOk (n : Nat) : Bool := decide (n < 25)

/-- A unit ID of R14. -/
def unitOk (n : Nat) : Bool := Machine.unitAssigned n

/-- A slice group (R88). -/
def groupOk (n : Nat) : Bool := decide (n < 4)

/-- A DMA channel (R88). -/
def channelOk (n : Nat) : Bool := decide (n < 80)

/-- A slice of a group (R11). -/
def sliceOk (n : Nat) : Bool := decide (n < 13)

/-- A scope (R49). -/
def scopeOk (n : Nat) : Bool := decide (n < 17)

/-- An HBM stack (R88). -/
def stackOk (n : Nat) : Bool := decide (n < 4)

/-- A core position (R88). -/
def positionOk (n : Nat) : Bool := decide (n < 18)

/-- A replica of the tables. -/
def replicaOk (n : Nat) : Bool := decide (n < 4)

/-- The unit ID of a pseudo-channel (R525): 32 in each of four stacks. -/
def hbmUnitOk (n : Nat) : Bool := decide (0x900 ≤ n ∧ n < 0x980)

/-- A unit of a replica of the table memory: 1,631,118 (R189). -/
def tableUnitOk (n : Nat) : Bool := decide (n < 1631118)

/-- A physical search bank of a replica: 32 and two spares (R232). -/
def searchBankOk (n : Nat) : Bool := decide (n < 34)

/-- A partition: sixteen tenants and H (R75). -/
def partOk (n : Nat) : Bool := decide (n < 17)

/-- An address of a base address register's space (R76). -/
def addrOk (n : Nat) : Bool := decide (n < 2 ^ 26)

/-- The operands of a command name what the device has. -/
def Instr.wf : Instr → Bool
  | .wordWrite fn bar be addr value => fn.wf && decide (bar < 3) && decide (be < 2 ^ 8) && addrOk addr && decide (value < 2 ^ 64)
  | .lowHalfWrite fn bar addr value => fn.wf && decide (bar < 3) && addrOk addr && decide (value < 2 ^ 32)
  | .highHalfWrite fn bar addr value => fn.wf && decide (bar < 3) && addrOk addr && decide (value < 2 ^ 32)
  | .lowHalfRead fn bar addr => fn.wf && decide (bar < 3) && addrOk addr
  | .highHalfRead fn bar addr => fn.wf && decide (bar < 3) && addrOk addr
  | .readClearAccess fn bar be addr => fn.wf && decide (bar < 3) && decide (be < 2 ^ 8) && addrOk addr
  | .selWrite fn block value => fn.wf && decide (block < 20) && decide (value < 2 ^ 36)
  | .glbFenceRead fn _ => fn.wf
  | .glbBresetWrite fn blocks => fn.wf && decide (blocks < 2 ^ 36)
  | .blockResetEnd block => decide (block < 20)
  | .registerWrite fn addr value => fn.wf && addrOk addr && decide (value < 2 ^ 64)
  | .rwlWrite fn addr value => fn.wf && addrOk addr && decide (value < 2 ^ 64)
  | .functionLevelReset fn => fn.wf
  | .perstAssert => true
  | .perstRelease => true
  | .linkL0 _ _ => true
  | .loadHost fn _ => fn.wf
  | .loadFlash fn slot _ => fn.wf && decide (slot < 2)
  | .discard fn scope => fn.wf && scopeOk scope
  | .approve fn scope => fn.wf && scopeOk scope
  | .castle fn => fn.wf
  | .cancel fn => fn.wf
  | .imgCmdInvalidOp fn op => fn.wf && decide (7 ≤ op ∧ op < 16)
  | .imgLoadComplete _ => true
  | .imgBusError _ => true
  | .shadowRestoreDone scope => scopeOk scope
  | .castleCheckDone => true
  | .castlingTime => true
  | .imgFkeyWrite fn value => fn.wf && decide (value < 2 ^ 36)
  | .imgFuseWrite fn value => fn.wf && decide (value < 2 ^ 36)
  | .fuseComplete => true
  | .macAdminWrite fn _ _ => fn.wf
  | .macRestart fn _ _ => fn.wf
  | .macClrFault fn _ _ => fn.wf
  | .presencePoll port _ _ => portOk port
  | .moduleBringupStep port reply => portOk port && decide (reply.1 < 8)
  | .moduleBringupTimeout port => portOk port
  | .anPageRx port => portOk port
  | .signalDetect port => portOk port
  | .linkConditionsMet port _ => portOk port
  | .trainToExpiry port => portOk port
  | .linkLossBegin port lane _ => portOk port && decide (lane < 8)
  | .linkLossEnd port => portOk port
  | .downHoldExpiry port => portOk port
  | .remoteFaultRx port => portOk port
  | .i2cTransactionGo fn value => fn.wf && decide (value < 2 ^ 36)
  | .i2cTransactionDone port _ _ => portOk port
  | .i2cBusStuck master => decide (master < 4)
  | .partnerAgeExpiry port slot => portOk port && decide (slot < 4)
  | .partnerSlotFree fn slot => fn.wf && decide (slot < 4)
  | .pauseFrameRx port time => portOk port && decide (time < 2 ^ 16)
  | .pfcFrameRx port enables _ => portOk port && decide (enables < 2 ^ 16)
  | .rxCtlDiscard port => portOk port
  | .pauseTimerExpiry port cls => portOk port && decide (cls < 8)
  | .pfcRefresh port => portOk port
  | .mmVerifyTimer port => portOk port
  | .mmRespondRx port => portOk port
  | .fragmentRx port _ _ _ _ _ => portOk port
  | .lpiIdleExpiry port => portOk port
  | .frameStart port _ _ => portOk port
  | .bufferAllocRx _ _ => true
  | .frameEnd port _ _ _ => portOk port
  | .jobHandover _ => true
  | .jobDispatch group => groupOk group
  | .wakeMarkRetry group => groupOk group
  | .sliceTake group slice => groupOk group && sliceOk slice
  | .sliceResult group slice _ _ => groupOk group && sliceOk slice
  | .learnDeliver => true
  | .jobLate _ => true
  | .reorderRelease group => groupOk group
  | .switchResult group => groupOk group
  | .copyEngineResult group => groupOk group
  | .sprayerTarget group => groupOk group
  | .sliceReady group slice => groupOk group && sliceOk slice
  | .sliceDrained group slice => groupOk group && sliceOk slice
  | .slownessWindowEnd group slice => groupOk group && sliceOk slice
  | .deepWrite => true
  | .stagingFlush _ => true
  | .headRefill _ => true
  | .deepRecordReturn => true
  | .hbmRowClose unit bank => hbmUnitOk unit && decide (bank < 64)
  | .hbmRefresh unit bank => hbmUnitOk unit && decide (bank < 64)
  | .hbmPowerDown unit => hbmUnitOk unit
  | .hbmRetrainTimer stack => stackOk stack
  | .hbmCopyDone stack => stackOk stack
  | .hbmTrainDone stack => stackOk stack
  | .hbmReadError _ _ _ => true
  | .hbmRowRepairDone unit => hbmUnitOk unit
  | .hbmPcDrained unit => hbmUnitOk unit
  | .hbcClose fn => fn.wf
  | .hbcOpen fn => fn.wf
  | .hbcRetrain fn pc => fn.wf && decide (pc < 2 ^ 5)
  | .hbcBmaskWrite fn word value => fn.wf && decide (word < 4) && decide (value < 2 ^ 36)
  | .schedSelect port => portOk port
  | .shaperRefillTick => true
  | .gateEntryChange port => portOk port
  | .rewriteDispatch cluster => clusterOk cluster
  | .class7Redispatch cluster engine => clusterOk cluster && engineOk engine
  | .rewriteStart cluster engine => clusterOk cluster && engineOk engine
  | .editEnd cluster engine => clusterOk cluster && engineOk engine
  | .editInsert cluster engine => clusterOk cluster && engineOk engine
  | .editDelete cluster engine => clusterOk cluster && engineOk engine
  | .editReplace cluster engine => clusterOk cluster && engineOk engine
  | .editSet cluster engine => clusterOk cluster && engineOk engine
  | .editCopy cluster engine => clusterOk cluster && engineOk engine
  | .editCsum cluster engine => clusterOk cluster && engineOk engine
  | .editTtl cluster engine => clusterOk cluster && engineOk engine
  | .editPushTag cluster engine => clusterOk cluster && engineOk engine
  | .editPopTag cluster engine => clusterOk cluster && engineOk engine
  | .editSetPcp cluster engine => clusterOk cluster && engineOk engine
  | .editSetDscp cluster engine => clusterOk cluster && engineOk engine
  | .editPtpCf cluster engine => clusterOk cluster && engineOk engine
  | .editPtpTs cluster engine => clusterOk cluster && engineOk engine
  | .editNop cluster engine => clusterOk cluster && engineOk engine
  | .ownerOpcode cluster engine => clusterOk cluster && engineOk engine
  | .moverStallEnd cluster engine => clusterOk cluster && engineOk engine
  | .stallMaxExpiry cluster engine => clusterOk cluster && engineOk engine
  | .engineLogicFault cluster engine => clusterOk cluster && engineOk engine
  | .controlStoreRepairDone cluster _ bank scope _ => clusterOk cluster && decide (bank < 2) && scopeOk scope
  | .rweIndWrite fn value => fn.wf && decide (value < 2 ^ 36)
  | .engineSlowAdvisory cluster engine => clusterOk cluster && engineOk engine
  | .txStart port => portOk port
  | .txFrameEnd port => portOk port
  | .integerOp thread => threadOk thread
  | .immediateOp thread => threadOk thread
  | .lui thread => threadOk thread
  | .bitFieldOp thread => threadOk thread
  | .pairOp thread => threadOk thread
  | .multiply thread => threadOk thread
  | .divide thread => threadOk thread
  | .lw thread => threadOk thread
  | .sw thread => threadOk thread
  | .lp thread => threadOk thread
  | .sp thread => threadOk thread
  | .amoadd thread => threadOk thread
  | .amoswap thread => threadOk thread
  | .cas thread => threadOk thread
  | .branch thread => threadOk thread
  | .jal thread => threadOk thread
  | .jalr thread => threadOk thread
  | .fork thread => threadOk thread
  | .join thread => threadOk thread
  | .exit thread => threadOk thread
  | .wfe thread => threadOk thread
  | .sev thread => threadOk thread
  | .sevDelivery => true
  | .yield thread => threadOk thread
  | .threadTimerExpiry thread => threadOk thread
  | .qpop thread => threadOk thread
  | .qpush thread => threadOk thread
  | .bget thread => threadOk thread
  | .bput thread => threadOk thread
  | .brel thread => threadOk thread
  | .bret thread => threadOk thread
  | .bgive thread => threadOk thread
  | .brcl thread => threadOk thread
  | .bwin thread => threadOk thread
  | .binfo thread => threadOk thread
  | .tlook thread => threadOk thread
  | .tins thread => threadOk thread
  | .tsrch thread => threadOk thread
  | .csrr thread => threadOk thread
  | .csrw thread => threadOk thread
  | .trap thread => threadOk thread
  | .rets thread => threadOk thread
  | .fence thread => threadOk thread
  | .iflush thread => threadOk thread
  | .thrKill thread => threadOk thread
  | .thrStart thread => threadOk thread
  | .thrResume thread => threadOk thread
  | .thrRdreg thread => threadOk thread
  | .thrWrreg thread => threadOk thread
  | .breakpoint thread => threadOk thread
  | .ccxStart fn mode pc => fn.wf && decide (mode < 2 ^ 1) && decide (pc < 2 ^ 21)
  | .ccxKill fn => fn.wf
  | .ccxResume fn mode pc => fn.wf && decide (mode < 2 ^ 1) && decide (pc < 2 ^ 21)
  | .ccxClear fn => fn.wf
  | .ccxMigWrite fn value => fn.wf && decide (value < 2 ^ 36)
  | .threadMigrate thread => threadOk thread
  | .migrationComplete position => positionOk position
  | .coreLogicFault position => positionOk position
  | .coreSlowAdvisory position => positionOk position
  | .ccxTagWrite fn value => fn.wf && decide (value < 2 ^ 36)
  | .dmaGo fn => fn.wf
  | .dmaBell fn next => fn.wf && decide (next < 2 ^ 64)
  | .dmaStop fn => fn.wf
  | .dmaClear fn => fn.wf
  | .descriptorFetchFail lane n code => (if lane then decide (n < 8) else channelOk n) && decide (code < 2 ^ 6)
  | .dmaCopy ch _ _ _ _ => channelOk ch
  | .dmaSend ch _ _ _ => channelOk ch
  | .dmaInject ch _ _ _ => channelOk ch
  | .dmaRecv ch _ => channelOk ch
  | .recvPuntReady ch => channelOk ch
  | .descriptorComplete ch => channelOk ch
  | .ringModerationTimer ch => channelOk ch
  | .ringConsWrite fn index => fn.wf && decide (index < 2 ^ 16)
  | .ringCfgWrite fn value => fn.wf && decide (value < 2 ^ 36)
  | .cphLockReq fn => fn.wf
  | .cphLockRel fn => fn.wf
  | .zeroiseDone lane => decide (lane < 8)
  | .cphKeyLoad fn alg klen => fn.wf && decide (alg < 2 ^ 4) && decide (klen < 2 ^ 7)
  | .keyLoadDone lane => decide (lane < 8)
  | .cphGo fn => fn.wf
  | .cphBell fn next => fn.wf && decide (next < 2 ^ 64)
  | .cphStop fn => fn.wf
  | .cphClear fn => fn.wf
  | .cphEncrypt lane _ _ _ _ => decide (lane < 8)
  | .cphDecrypt lane _ _ _ _ _ => decide (lane < 8)
  | .cphGenerate lane _ _ _ => decide (lane < 8)
  | .cphVerify lane _ _ _ _ => decide (lane < 8)
  | .cphJobComplete lane => decide (lane < 8)
  | .cipherFault lane _ => decide (lane < 8)
  | .stepSet fn secHi => fn.wf && decide (secHi < 2 ^ 12)
  | .stepAdd fn secHi => fn.wf && decide (secHi < 2 ^ 12)
  | .stepSub fn secHi => fn.wf && decide (secHi < 2 ^ 12)
  | .stepApply => true
  | .timRateWrite fn rate => fn.wf && decide (rate < 2 ^ 36)
  | .lockRenew fn bound => fn.wf && decide (bound < 2 ^ 20)
  | .lockDrop fn => fn.wf
  | .lockErrUpdate => true
  | .refLost => true
  | .refRelock => true
  | .ppsOutRise => true
  | .ppsOutFall => true
  | .ppsInEdge _ => true
  | .ppsInTimeout => true
  | .synceRelease out => decide (out < 4)
  | .timSynceWrite fn out value => fn.wf && decide (out < 4) && decide (value < 2 ^ 36)
  | .snap fn => fn.wf
  | .snapJoin fn => fn.wf
  | .snapCapture => true
  | .gatherDone => true
  | .cntTraceWrite fn value => fn.wf && decide (value < 2 ^ 36)
  | .railSample rail mv _ _ => decide (rail < 8) && decide (mv < 2 ^ 16)
  | .faultDetected cause unit _ _ _ _ _ => decide (cause < 64) && unitOk unit
  | .fltClearSlot fn slot => fn.wf && decide (slot < 64)
  | .fltClearOverflow fn => fn.wf
  | .fltBenchCmd fn value => fn.wf && decide (value < 2 ^ 36)
  | .tailRearm fn _ => fn.wf
  | .safeReqAssert => true
  | .safeReqHoldExpiry => true
  | .graveCycleTimer => true
  | .wearLevelCrossed mon unit lane value _ => decide (mon < 16) && unitOk unit && decide (lane < 8) && decide (value < 2 ^ 36)
  | .wearAdvisoryRepeat mon unit lane _ => decide (mon < 16) && unitOk unit && decide (lane < 8)
  | .deferredPromotion unit => unitOk unit
  | .tableRowRepair replica unit => replicaOk replica && tableUnitOk unit
  | .tcmRowRepair replica bank row => replicaOk replica && searchBankOk bank && decide (row < 2 ^ 10)
  | .tcmPromotionDone unit => unitOk unit
  | .bufferRowRepair mem _ => decide (mem < 64)
  | .schedRowRepair bank => decide (bank < 32)
  | .pllPromoteLock port => portOk port
  | .tempSample temps => decide (temps.length = 16)
  | .railOutOfWindow rail mv => decide (rail < 8) && decide (mv < 2 ^ 16)
  | .pgoodLost pgood => decide (pgood < 8)
  | .watchdogExpiry => true
  | .wdtKick fn code => fn.wf && decide (code < 2 ^ 8)
  | .wdtCfgWrite fn value => fn.wf && decide (value < 2 ^ 36)
  | .pwrTargetService fn => fn.wf
  | .pwrTargetDoze fn => fn.wf
  | .pwrTargetRest fn => fn.wf
  | .loadSample => true
  | .eyeReadapt port lane => portOk port && decide (lane < 8)
  | .eyeReadaptEnd port lane => portOk port && decide (lane < 8)
  | .restEntryComplete => true
  | .wakePin pin => decide (pin < 2 ^ 2)
  | .rtcAlarm => true
  | .restExitComplete => true
  | .seqPowerDown fn off => fn.wf && decide (off < 2 ^ 16)
  | .seqPowerUp fn off => fn.wf && decide (off < 2 ^ 16)
  | .seqCycle fn off => fn.wf && decide (off < 2 ^ 16)
  | .seqMainReset fn off => fn.wf && decide (off < 2 ^ 16)
  | .powerDownStep _ => true
  | .cycleOffExpiry => true
  | .pgoodRise pgood => decide (pgood < 8)
  | .pgoodTimeout => true
  | .mainResetRelease => true
  | .supplySwitch => true
  | .supplyReturn => true
  | .islandPor => true
  | .porNAssert => true
  | .islandRelease _ _ _ => true
  | .crystalStable => true
  | .consoleRead _ _ => true
  | .consoleWrite _ _ => true
  | .consoleEcho _ => true
  | .consoleGapTimeout => true
  | .consoleLingerExpiry => true
  | .bootFusesDone => true
  | .pllLockTimeout => true
  | .selftestDone _ _ _ => true
  | .hbmTrainingDone stack _ _ => stackOk stack
  | .crossLaneUp lane => decide (lane < 4)
  | .cellResendTimer lane _ => decide (lane < 4)
  | .cellNakRx lane _ => decide (lane < 4)
  | .linkUpExchange _ _ _ => true
  | .keepaliveTimer => true
  | .crossLinkLost _ => true
  | .crossLaneFault lane => decide (lane < 4)
  | .chkInEdge => true
  | .checkLineSilent => true
  | .checkSilentAdvisory => true
  | .settleExpiry => true
  | .guardExpiry => true
  | .ownershipReport _ => true
  | .twnMove fn port to_ => fn.wf && portOk port && decide (to_ < 2 ^ 1)
  | .handoverRx port => portOk port
  | .redirectRx port tenant set cls colour qclass edit md _ _ _ _ _ => portOk port && partOk tenant && partOk set && decide (cls < 8) && decide (colour < 4) &&
      decide (qclass < 8) && decide (edit < 2 ^ 12) && decide (md < 2 ^ 36)
  | .peerLearnRx part _ => partOk part
  | .replayRx part _ op _ _ _ _ _ => partOk part && decide (op < 16)
  | .peerDmaAccess part off _ _ _ => partOk part && decide (off < 2 ^ 64)
  | .peerTimeReport _ _ => true
  | .twnEnWrite fn value => fn.wf && decide (value < 2 ^ 36)
  | .twnDhWrite fn port value => fn.wf && portOk port && decide (value < 2 ^ 36)
  | .tblInsert fn cmd => fn.wf && decide (cmd < 2 ^ 32)
  | .tblDelete fn cmd => fn.wf && decide (cmd < 2 ^ 32)
  | .tblUpdate fn cmd => fn.wf && decide (cmd < 2 ^ 32)
  | .tblRead fn cmd => fn.wf && decide (cmd < 2 ^ 32)
  | .pfxInsert fn cmd => fn.wf && decide (cmd < 2 ^ 32)
  | .pfxDelete fn cmd => fn.wf && decide (cmd < 2 ^ 32)
  | .pfxRead fn cmd => fn.wf && decide (cmd < 2 ^ 32)
  | .writeUnit fn cmd => fn.wf && decide (cmd < 2 ^ 32)
  | .readUnit fn cmd => fn.wf && decide (cmd < 2 ^ 32)
  | .tblAccept => true
  | .tblCommit => true
  | .agerVisit part => partOk part
  | .tblScrub replica unit err => replicaOk replica && tableUnitOk unit && decide (err < 3)
  | .tblBankRetention replica bank => replicaOk replica && decide (bank < 50)
  | .tcmInvalidate fn entry _ => fn.wf && decide (entry < 2 ^ 10)
  | .tcmWrite fn entry _ => fn.wf && decide (entry < 2 ^ 10)
  | .tcmValidate fn entry _ => fn.wf && decide (entry < 2 ^ 10)
  | .tcmSetAction fn entry _ => fn.wf && decide (entry < 2 ^ 10)
  | .tcmRead fn entry _ => fn.wf && decide (entry < 2 ^ 10)
  | .tcmHitRead fn entry _ => fn.wf && decide (entry < 2 ^ 10)
  | .tcmHitClear fn entry _ => fn.wf && decide (entry < 2 ^ 10)
  | .tcmCommit => true
  | .tcmScrub replica bank row err => replicaOk replica && searchBankOk bank && decide (row < 2 ^ 10) && decide (err < 4)
  | .tcmBankRetention replica bank => replicaOk replica && searchBankOk bank
  | .bpmAlloc unit _ => unitOk unit
  | .bpmRetain unit handle _ => unitOk unit && decide (handle < 2 ^ 36)
  | .bpmRelease unit handle => unitOk unit && decide (handle < 2 ^ 36)
  | .bpmFree unit handle => unitOk unit && decide (handle < 2 ^ 36)
  | .bpmGive unit handle _ => unitOk unit && decide (handle < 2 ^ 36)
  | .bpmReclaim unit handle => unitOk unit && decide (handle < 2 ^ 36)
  | .bpmLeave port handle => portOk port && decide (handle < 2 ^ 36)
  | .bpmInspectWrite fn handle => fn.wf && decide (handle < 2 ^ 36)
  | .bpmReclaimWrite fn handle => fn.wf && decide (handle < 2 ^ 36)
  | .swcWatchRead fn index => fn.wf && decide (index < 2 ^ 12)
  | .swcWatchWrite fn index => fn.wf && decide (index < 2 ^ 12)
  | .prsAdmitWrite fn part group value => fn.wf && partOk part && decide (group < 4) && decide (value < 2 ^ 36)
  | .prsPuntWrite fn part reason value => fn.wf && partOk part && decide (reason < 16) && decide (value < 2 ^ 36)
  | .filterUnblock fn value => fn.wf && decide (value < 2 ^ 36)
  | .remoteFaultEnd port => portOk port
  | .partnerLowPowerIdle port _ => portOk port
  | .safeReqRelease => true
  | .bkupSupplyLost => true
  | .consoleCharacterDiscard _ => true
  | .pcieLinkRetrain _ _ => true
  | .crossLaneLoss lane => decide (lane < 4)

end Sys2Proof
end

