-- ==== Sys2Proof/Safety.lean ====
section
/-! DEFINITION. What counts as a safe step, and the terms in which claims speak of commands: where a command goes on to, which register a write
reaches, and which instruction a thread runs next. -/

namespace Sys2Proof

open Machine

/-- The outcome is a next state. -/
def goesOn : Host.Outcome State Fault Refusal → Prop
  | .next _ => True
  | .fault _ => False
  | .refused _ => False

/-- A step of the block goes on. -/
def stepSafe (s : State) : Prop := goesOn (step s)

/-- The outcome is a next state of which something holds. -/
def goesTo (o : Host.Outcome State Fault Refusal) (P : State → Prop) : Prop := ∃ t, o = .next t ∧ P t

/-- `n` steps, each going on, reach a state. -/
def stepsTo : Nat → State → State → Prop
  | 0, s, t => s = t
  | n + 1, s, t => ∃ u, step s = .next u ∧ stepsTo n u t

/-- Commands run one after another, each with the commands after it and `rest` waiting, reach a state. -/
def served : List Instr → List Instr → State → State → Prop
  | [], _, s, t => s = t
  | c :: cs, rest, s, t => ∃ u, exec c (s.withQueue (cs ++ rest)) = .next u ∧ served cs rest u t

/-- Every waiting command is well-formed. -/
def queueWf (s : State) : Prop := ∀ c ∈ s.pending, c.wf = true

/-- The memories are in their canonical form: addresses strictly rising, and in CMEM and in the buffers no entry equal to what an unlisted
address reads as, zero. Host memory lists every byte that the device has written. -/
def Machine.Memory.wf (s : State) : Bool := tabWf 0 s.cmem && tabWf 0 s.bufMem && tabSorted 0 s.hostMem

/-- The address of element `i` of a register. -/
def slotOf (r : Reg) (i : Nat) : Nat := (r.place.addr + r.place.stride * (i % r.place.count)) / 8 * 8

/-- A write by a function to element `i` of a register is taken by the register's copy `c`: the function reaches the device, has the right, and the
block is powered, out of reset and has a selected instance where it needs one (R75–R95). -/
def opens (s : State) (f : Func) (r : Reg) (i c : Nat) : Prop :=
  s.reachable f = true ∧ s.target f (slotOf r i) true = .reg r c i false

/-- The address of element `i` of partition `p`'s copy of a register for a function: its listed address, or the window of partition copies. -/
def partAddr (f : Func) (r : Reg) (p i : Nat) : Nat :=
  let a := r.place.addr + r.place.stride * (i % r.place.count)
  if p = f.part then a else a / 0x10000 * 0x10000 + 0x10000 + 0x400 * p + a % 0x10000

/-- A write by a function to element `i` of partition `p`'s copy of a register is taken by it (R93). -/
def opensPart (s : State) (f : Func) (r : Reg) (p i : Nat) : Prop :=
  s.reachable f = true ∧ s.target f (partAddr f r p i / 8 * 8) true = .reg r p i false

/-- A counter of a register has gone up by `n`, wrapping at its width. -/
def countedUp (s t : State) (f : Fld) (c i n : Nat) : Prop := t.fget f c i = (s.fget f c i + n) % 2 ^ (f.hi + 1 - f.lo)

/-- A counter of a register has gone up by one, stopping at its largest value. -/
def countedSat (s t : State) (f : Fld) (c i : Nat) : Prop := t.fget f c i = min (s.fget f c i + 1) f.top

/-- Registers whose write does more than store its value. -/
def effectRegs : List Reg :=
  [.GLB_BRESET, .IMG_CMD, .IMG_CSIG, .IMG_CASTLE_MASK, .IMG_FKEY, .IMG_FUSE, .MAC_CTL, .MAC_MM, .MAC_MOD, .MAC_I2C_CMD, .MAC_PFC, .MAC_PAUSE,
   .MAC_PARTNER, .PRS_ADMIT, .PRS_PUNT, .PRS_IND_DATA, .TBL_CMD, .TCM_CMD, .SWC_WATCH_CMD, .BPM_INSPECT, .BPM_RECLAIM, .HBC_CTL, .HBC_BMASK,
   .RWE_CFG, .CCX_T_CTL, .CCX_T_REG, .CCX_PMSEL, .CCX_TAG, .CCX_CFG, .CCX_MIG, .DMA_CH_CTL, .DMA_RING_CFG, .DMA_RING_CONS, .DMA_RING_IRQ,
   .CPH_LOCK, .CPH_CTL, .CPH_KEY_CTL, .CPH_KEY, .TIM_CFG, .TIM_STEP_CTL, .TIM_PPS_OUT, .TIM_LOCK, .TIM_SYNCE, .CNT_SNAP_CTL, .CNT_TRACE,
   .FLT_CFG, .FLT_CLEAR, .FLT_BENCH_CMD, .FLT_TAIL_ADDR, .PWR_CTL, .AON_RTC, .AON_WDT_CFG, .AON_WDT_KICK, .AON_SEQ, .AON_TAIL_ADDR, .TWN_CFG,
   .TWN_MOVE, .TWN_LANE, .TWN_DH, .SCH_SET]

/-- A register of one word that a write only stores to: no select register, no RWL copy, no window on a section, no effect of its own. -/
def storesOnly (r : Reg) : Bool :=
  !r.place.wide && !isRwl r && !isInd r && !selRegs.contains r && !effectRegs.contains r

/-! ## Control threads -/

/-- A RUNNING thread's next instruction is a word: the device is not in REST, the program counter names a CMEM word that it may fetch, and the word
fetched from there is `i` (R395, R396, R568). -/
def nextInstr (s : State) (t i : Nat) : Prop :=
  s.frozen = false ∧ t < 144 ∧ s.thrState t = tRunning ∧ ∃ w, s.fetchPlace t = some w ∧ (s.fetchWord t w).1.toNat = i

/-- Registers that every instruction may change: the performance counters and samples of the thread's core. -/
def threadRegs : List Reg := [.CCX_PMC, .CCX_PMSEL, .CCX_TAG, .CCX_SAMPLE]

/-- From `s` to `u`, nothing has changed but a thread's program counter and `g` registers, its core's cache and tagging, and the counters and
samples of its core. -/
def onlyThread (s u : State) (t : Nat) : Prop :=
  u = { s with regs := u.regs, free := u.free, icache := u.icache, tags := u.tags, threads := u.threads } ∧
  (∀ x, x ≠ t → u.thr x = s.thr x) ∧ u.thr t = { s.thr t with g := (u.thr t).g } ∧
  ∀ q c i, q ∉ threadRegs → regKey q c i ≠ regKey .CCX_T_PC t 0 → u.rd q c i = s.rd q c i

/-- A thread's registers are as they were, but for one that has taken a value; `g0` takes none (R390). -/
def gregSet (s u : State) (t r : Nat) (v : Word) : Prop :=
  ∀ x, u.greg t x = if x = r ∧ r ≠ 0 then v else s.greg t x

/-- An instruction has written one register, moved the program counter on to `pc`, and left everything else as it was. -/
def wroteReg (s u : State) (t r : Nat) (v : Word) (pc : Nat) : Prop :=
  onlyThread s u t ∧ gregSet s u t r v ∧ u.pc t = pc % 2 ^ 36

/-- An instruction has written a pair, its low word in the even register, and gone on to the next word (R390). -/
def wrotePair (s u : State) (t r : Nat) (v : BitVec 72) : Prop :=
  onlyThread s u t ∧ u.pc t = (s.pc t + 1) % 2 ^ 36 ∧
  ∀ x, u.greg t x = if x = r then v.setWidth 36 else if x = r + 1 then (v >>> 36).setWidth 36 else s.greg t x

/-- A thread has stopped with a fault of a code, in HALTED (R414, R415). -/
def halted (u : State) (t code : Nat) : Prop := u.thrState t = tHalted ∧ u.fget F.CCX_T_FAULT.code t = code

/-- The address of a load or store: `rs1` + the sign-extended immediate. -/
def dataAddr (s : State) (t i : Nat) : Nat := (s.greg t (iRs1 i) + (BitVec.ofNat 20 (iImm i)).signExtend 36).toNat

/-- An address of region 0 that a thread reaches is CMEM word `w` of its partition (R395). -/
def inRegion0 (s : State) (t a w : Nat) : Prop :=
  a < 4096 * bits (s.partWord (s.thrPart t) 26) 18 9 ∧ w = 4096 * bits (s.partWord (s.thrPart t) 26) 8 0 + a ∧
  (s.supMode t = false → s.csr t 2 ≤ a ∧ a < s.csr t 2 + s.csr t 3)

/-- An address of region 2 is word `w` of a buffer that a thread has open in window `k`: a packet buffer of its partition, which
it has not left since (R398). -/
def inWindow (s : State) (t a k w h : Nat) : Prop :=
  k < 4 ∧ w < 2 ^ 24 ∧ a = 2 ^ 33 + k * 2 ^ 24 + w ∧ h ≠ 0 ∧ h = s.csr t (0x50 + k) ∧ (s.thr t).windows.contains k = true ∧ s.handleOk h = true ∧
  s.poolDeep (handlePool h) = false ∧ 4 * w + 4 ≤ s.poolSize (handlePool h) ∧ ∃ b, s.buf h = some b ∧ b.part = s.thrPart t

/-- A CMEM word has taken a value, and no other word has changed. -/
def storedWord (s u : State) (w : Nat) (v : Word) : Prop := ∀ x, u.cget x = if x = w then v else s.cget x

/-! ## Host memory, channels and lanes -/

/-- Bytes stand in host memory at an address of a function. -/
def hostHolds (t : State) (p a : Nat) (bs : List Byte) : Prop :=
  ∀ j, j < bs.length → tabFind t.hostMem (p * 2 ^ 64 + (a + j) % 2 ^ 64) = bs[j]?

/-- No byte of host memory has changed outside `n` bytes at an address of a function. -/
def hostOnly (s t : State) (p a n : Nat) : Prop :=
  ∀ k, (∀ j, j < n → k ≠ p * 2 ^ 64 + (a + j) % 2 ^ 64) → tabFind t.hostMem k = tabFind s.hostMem k

/-- A RUNNING channel in service has a descriptor before it that has not ended: under way, or in host memory with the eight fields given. -/
def chanHas (s : State) (ch : Nat) (fields : List Nat) (d : Desc) : Prop :=
  s.chanOn ch = true ∧ s.chanState ch = 2 ∧ (s.chan ch).ended = none ∧
  ((s.chan ch).desc = some d ∨
    (s.chan ch).desc = none ∧ (s.chan ch).fetch < 2 ^ 63 ∧ d = descOf (s.chan ch).fetch fun i => fields.getD i 0 % 2 ^ 64)

/-- A RUNNING lane has a job before it that has not ended. -/
def laneHas (s : State) (l : Nat) (fields : List Nat) (d : Desc) : Prop :=
  s.laneState l = 2 ∧ (s.lane l).ended = none ∧
  ((s.lane l).desc = some d ∨
    (s.lane l).desc = none ∧ (s.lane l).fetch < 2 ^ 63 ∧ d = descOf (s.lane l).fetch fun i => fields.getD i 0 % 2 ^ 64)

end Sys2Proof
end

