-- ==== Sys2Proof/Certificates/Slice0/Obligations.lean ====
section
/-! DEFINITION. The statements about the OZ5120 for the provers, from the numbered rules of its spec. -/

open Sys2Proof Sys2Proof.Machine



/-- R79, R41. A 64-bit write of a whole slot stores bits [35:0] in the writable bits of the register it reaches, clears the bits that clear on
ones, leaves its other bits, and leaves every other register as it was: WORD_WRITE with all byte enables, and REGISTER_WRITE. -/
def Obligations.WordWritesStoreTheirSlot : Prop :=
  ∀ (s : State) (f : Func) (bar a v : Nat) (r : Reg) (c i : Nat),
    storesOnly r = true → s.reachable f = true → (bar ≠ 2 ∨ f = .console) → s.target f (a / 8 * 8) true = .reg r c i false →
    let stored : State → Prop := fun t =>
      (∀ b, (t.rd r c i).getLsbD b =
        if (rwMask r).getLsbD b then decide (b < 36) && v.testBit b
        else (s.rd r c i).getLsbD b && !((w1cMask r).getLsbD b && decide (b < 36) && v.testBit b)) ∧
      (∀ q d j, regKey q d j ≠ regKey r c i → t.rd q d j = s.rd q d j)
    goesTo (exec (.wordWrite f bar 0xFF a v) s) stored ∧ goesTo (exec (.registerWrite f a v) s) stored

/-- R80. LOW_HALF_WRITE has no effect on registers but the count of the write it replaces; HIGH_HALF_WRITE commits the word. -/
def Obligations.HalfWritesStageAndCommit : Prop :=
  (∀ (s : State) (f : Func) (bar a v : Nat) (r : Reg) (c i : Nat) (h : Bool),
    s.reachable f = true → (bar ≠ 2 ∨ f = .console) → s.target f (a / 8 * 8) true = .reg r c i h →
    (∀ k w, (s.fn f).half = some (k, w) → k = a / 8 * 8) →
    goesTo (exec (.lowHalfWrite f bar a v) s) fun t => (t.fn f).half = some (a / 8 * 8, v % 2 ^ 32) ∧ t.regs = s.regs) ∧
  (∀ (s : State) (f : Func) (bar a v : Nat) (r : Reg) (c i : Nat) (h : Bool) (k w : Nat),
    s.reachable f = true → (bar ≠ 2 ∨ f = .console) → s.target f (a / 8 * 8) true = .reg r c i h →
    (s.fn f).half = some (k, w) → k ≠ a / 8 * 8 → s.flag F.AON_STATUS.main_on = true →
    goesTo (exec (.lowHalfWrite f bar a v) s) fun t =>
      (t.fn f).half = some (a / 8 * 8, v % 2 ^ 32) ∧
      t.fget F.GLB_REFUSED.count f.idx = min (s.fget F.GLB_REFUSED.count f.idx + 1) F.GLB_REFUSED.count.top ∧
      t.fget F.GLB_REFUSED_LAST.reason f.idx = 7 ∧ t.fget F.GLB_REFUSED_LAST.addr f.idx = k % 2 ^ 26) ∧
  (∀ (s : State) (f : Func) (bar a v : Nat) (r : Reg) (c i : Nat),
    storesOnly r = true → s.reachable f = true → (bar ≠ 2 ∨ f = .console) → s.target f (a / 8 * 8) true = .reg r c i false →
    let now := (s.readReg f r c i).toNat
    let low := match (s.fn f).half with | some (k, w) => if k = a / 8 * 8 then w else now | none => now
    goesTo (exec (.highHalfWrite f bar a v) s) fun t =>
      (∀ b, b < 32 → (rwMask r).getLsbD b → (t.rd r c i).getLsbD b = low.testBit b) ∧
      (∀ b, 32 ≤ b → b < 36 → (rwMask r).getLsbD b → (t.rd r c i).getLsbD b = v.testBit (b - 32)) ∧
      (∀ q d j, regKey q d j ≠ regKey r c i → t.rd q d j = s.rd q d j) ∧
      (t.fn f).half = match (s.fn f).half with | some (k, w) => if k = a / 8 * 8 then none else some (k, w) | none => none)

/-- R81. LOW_HALF_READ answers the low half and latches the rest of the word; HIGH_HALF_READ answers from the latch, or the present bits. -/
def Obligations.HalfReadsLatchTheHighBits : Prop :=
  (∀ (s : State) (f : Func) (bar a : Nat) (r : Reg) (c i : Nat),
    s.reachable f = true → (bar ≠ 2 ∨ f = .console) → s.target f (a / 8 * 8) false = .reg r c i false →
    let w := (s.readReg f r c i).toNat % 2 ^ 36
    goesTo (exec (.lowHalfRead f bar a) s) fun t => (t.fn f).reply = w % 2 ^ 32 ∧ (t.fn f).latch = some (a / 8 * 8, w / 2 ^ 32)) ∧
  (∀ (s : State) (f : Func) (bar a : Nat) (r : Reg) (c i : Nat) (b : Nat),
    s.reachable f = true → (bar ≠ 2 ∨ f = .console) → s.target f (a / 8 * 8) false = .reg r c i false →
    (s.fn f).latch = some (a / 8 * 8, b) →
    goesTo (exec (.highHalfRead f bar a) s) fun t => (t.fn f).reply = b ∧ t.regs = s.regs) ∧
  (∀ (s : State) (f : Func) (bar a : Nat) (r : Reg) (c i : Nat),
    s.reachable f = true → (bar ≠ 2 ∨ f = .console) → s.target f (a / 8 * 8) false = .reg r c i false →
    (∀ b, (s.fn f).latch ≠ some (a / 8 * 8, b)) →
    goesTo (exec (.highHalfRead f bar a) s) fun t => (t.fn f).reply = (s.readReg f r c i).toNat % 2 ^ 36 / 2 ^ 32 ∧ t.regs = s.regs)

/-- R79, R83: READ_CLEAR_ACCESS. R97: GLB_FENCE_READ, whose operand says whether 100 µs passed first.
Model's own readings in it: log entry 15. -/
def Obligations.ReadsClearOnceAndFencesAnswer : Prop :=
  (∀ (s : State) (f : Func) (bar a : Nat) (r : Reg) (c i : Nat),
    s.reachable f = true → (bar ≠ 2 ∨ f = .console) → s.target f (a / 8 * 8) false = .reg r c i false → r ≠ .BPM_PMIN → r ≠ .TIM_NOW →
    goesTo (exec (.readClearAccess f bar 0xFF a) s) fun t =>
      (t.fn f).reply = (s.readReg f r c i).toNat % 2 ^ 36 ∧
      (∀ b, (t.rd r c i).getLsbD b = ((s.rd r c i).getLsbD b && !(rcMask r).getLsbD b)) ∧
      (∀ q d j, regKey q d j ≠ regKey r c i → t.rd q d j = s.rd q d j)) ∧
  (∀ (s : State) (f : Func) (late : Bool) (r : Reg) (c i : Nat) (h : Bool),
    s.reachable f = true → s.target f 0x30 false = .reg r c i h →
    goesTo (exec (.glbFenceRead f late) s) fun t => (t.fn f).reply = (if late then 1 else 0) ∧ t.regs = s.regs)

/-- R40. RWL_WRITE. -/
def Obligations.RwlWritesGoToTheShadowCopy : Prop :=
  (∀ (s : State) (f : Func) (a v : Nat) (r : Reg) (c i : Nat),
    f.part = 16 → isRwl r = true → isInd r = false → r.place.wide = false → r ≠ .TCM_BANK_CFG → s.reachable f = true →
    s.target f (a / 8 * 8) true = .reg r c i false →
    let sc := s.rwlScope r c
    (s.scopeState sc = 1 ∨ (sc = 16 ∧ s.scopeState sc = 4)) →
    goesTo (exec (.rwlWrite f a v) s) fun t =>
      (∀ b, b < 36 → (rwMask r).getLsbD b → (t.rdPlane sc (s.shadowOf sc) r c i).getLsbD b = v.testBit b) ∧
      (∀ x y, planeKey x y ≠ planeKey sc (s.shadowOf sc) → t.plane x y = s.plane x y) ∧ (sc ≤ 16 → t.scopeState sc = 4) ∧
      (∀ q d j, q ≠ .IMG_SCOPE_STATE0 → q ≠ .IMG_SCOPE_STATE1 → t.rd q d j = s.rd q d j)) ∧
  (∀ (s : State) (f : Func) (a v : Nat) (r : Reg) (c i : Nat),
    isRwl r = true → isInd r = false → r.place.wide = false → s.reachable f = true → s.flag F.AON_STATUS.main_on = true →
    s.target f (a / 8 * 8) true = .reg r c i false →
    let sc := s.rwlScope r c
    (f.part < 16 ∨ (s.scopeState sc ≠ 1 ∧ ¬(sc = 16 ∧ s.scopeState sc = 4))) →
    goesTo (exec (.rwlWrite f a v) s) fun t => t.planes = s.planes ∧ t.fget F.GLB_REFUSED_LAST.reason f.idx = 3)

/-- R90. SEL_WRITE stores the index, and sets or clears `sel_err`. -/
def Obligations.SelectWritesChooseAnInstance : Prop :=
  ∀ (s : State) (f : Func) (b v : Nat) (r : Reg), selOfBlock b = some r → opens s f r 0 f.idx →
    goesTo (exec (.selWrite f b v) s) fun t =>
      fldGet (t.rd r f.idx) 11 0 = v % 2 ^ 12 ∧ (fldGet (t.rd r f.idx) 12 12 = 0 ↔ s.selOpen f r (v % 2 ^ 12) = true)

/-- R98, R632: GLB_BRESET_WRITE and BLOCK_RESET_END. R99, R434: FUNCTION_LEVEL_RESET. R623, R631: PERST_ASSERT, PERST_RELEASE, LINK_L0.
R465: PCIE_LINK_RETRAIN. Model's own readings in it: log entries 22, 63. -/
def Obligations.BlockFunctionAndEndpointResets : Prop :=
  (∀ (s : State) (f : Func) (blocks : Nat), opens s f .GLB_BRESET 0 0 →
    goesTo (exec (.glbBresetWrite f blocks) s) fun t => ∀ b, b < 20 → blocks.testBit b = true → b ∈ t.held) ∧
  (∀ (s : State) (f : Func), opens s f .GLB_BRESET 0 0 →
    goesTo (exec (.glbBresetWrite f (2 ^ 3)) s) fun t =>
      t.blocked = [] ∧ ∀ r ∈ Reg.listPRS, ∀ c i, t.rd r c i = regReset r c i) ∧
  (∀ (s : State) (b : Nat),
    goesTo (exec (.blockResetEnd b) s) fun t => b ∉ t.held ∧ (∀ x, x ≠ b → (x ∈ t.held ↔ x ∈ s.held)) ∧ t.regs = s.regs) ∧
  (∀ (s : State) (f : Func), f ≠ .console →
    goesTo (exec (.functionLevelReset f) s) fun t =>
      t.fn f = {} ∧ t.fget F.GLB_REFUSED.count f.idx = 0 ∧ t.rd .GLB_REFUSED_LAST f.idx = 0 ∧ t.fget F.IMG_VIEW.shadow f.idx = 0 ∧
      ∀ v, v < 512 → t.vec f.idx v = {}) ∧
  (∀ s : State, goesTo (exec .perstAssert s) fun t =>
    t.pcie.perst = true ∧ t.pcie.l0 = false ∧ t.pcie.detect = false ∧ (s.pcie.endpointUp = true → t.msix = [])) ∧
  (∀ s : State, goesTo (exec .perstRelease s) fun t => t.pcie.perst = false ∧ t.pcie.detect = s.pcie.endpointUp ∧ t.regs = s.regs) ∧
  (∀ (s : State) (speed width : Nat), s.pcie.detect = true →
    goesTo (exec (.linkL0 speed width) s) fun t =>
      t.pcie.l0 = true ∧ t.fget F.DMA_LINK.speed = speed % 2 ^ (F.DMA_LINK.speed.hi + 1 - F.DMA_LINK.speed.lo) ∧
      t.fget F.DMA_LINK.width = width % 2 ^ (F.DMA_LINK.width.hi + 1 - F.DMA_LINK.width.lo)) ∧
  (∀ (s : State) (speed width : Nat), s.pcie.l0 = true →
    goesTo (exec (.pcieLinkRetrain speed width) s) fun t =>
      t.pcie.l0 = true ∧ t.fget F.DMA_LINK.speed = speed % 2 ^ (F.DMA_LINK.speed.hi + 1 - F.DMA_LINK.speed.lo) ∧
      t.fget F.DMA_LINK.width = width % 2 ^ (F.DMA_LINK.width.hi + 1 - F.DMA_LINK.width.lo) ∧
      t.fget F.DMA_LINK.retrains = min (s.fget F.DMA_LINK.retrains + 1) F.DMA_LINK.retrains.top)

/-- R53, R54: LOAD_HOST and LOAD_FLASH. R55, R58: IMG_LOAD_COMPLETE and IMG_BUS_ERROR after check 4.
Model's own readings in it: log entries 28, 71. -/
def Obligations.ImageLoadsStartAndEnd : Prop :=
  (∀ (s : State) (f : Func) (head : List Byte) (h : Load),
    opens s f .IMG_CMD 0 f.idx → s.image.load = none → 0xC30 ∉ s.flt.fenced → s.fget F.IMG_SRC.addr f.idx % 64 = 0 →
    s.headCode (noHeader f none false) head = (h, imgOk, 0) →
    goesTo (exec (.loadHost f head) s) fun t => t.image.load = some h) ∧
  (∀ (s : State) (f : Func) (slot : Nat) (head : List Byte) (h : Load),
    (f = .pf ∨ f = .console) → opens s f .IMG_CMD 0 f.idx → s.image.load = none → 0xC30 ∉ s.flt.fenced →
    s.headCode (noHeader f (some (slot % 2)) false) head = (h, imgOk, 0) →
    goesTo (exec (.loadFlash f slot head) s) fun t => t.image.load = some h) ∧
  (∀ (s : State) (l : Load) (img : List Byte),
    s.image.load = some l → l.sections ≠ [] → l.boot = false → l.scope < 17 → s.flag F.IMG_STATUS.active_ok = true →
    s.firstBad l img l.sections 0 = none → l.length ≤ img.length → s.latchedSection l img = none → s.image.waitRestore = [] →
    let awaits := decide (l.scope < 16) && decide (l.csig = 0)
    (awaits = false → s.imageCmac (img.take l.length) = if l.scope < 16 then l.csig else l.tag) →
    goesTo (exec (.imgLoadComplete img) s) fun t =>
      t.image.load = none ∧ t.scopeState l.scope = (if awaits then 3 else 4) ∧ tabGet 0 t.image.stagedFrom l.scope = l.serial) ∧
  (∀ (s : State) (l : Load) (img : List Byte),
    s.image.load = some l → l.sections ≠ [] → l.boot = false → l.scope < 17 → s.firstBad l img l.sections 0 = none →
    goesTo (exec (.imgBusError img) s) fun t => t.image.load = none ∧ t.scopeState l.scope = 7)

/-- R57: DISCARD. R58: APPROVE. R68: SHADOW_RESTORE_DONE. R74: IMG_CMD_INVALID_OP. Model's own readings in it: log entries 28, 71. -/
def Obligations.ShadowBanksAreRestoredAndApproved : Prop :=
  (∀ (s : State) (f : Func) (scope : Nat), opens s f .IMG_CMD 0 f.idx →
    let sc := match f with | .vf n => n | _ => scope % 32
    sc ≤ 16 → (s.scopeState sc = 3 ∨ s.scopeState sc = 4 ∨ s.scopeState sc = 7) →
    goesTo (exec (.discard f scope) s) fun t =>
      f.idx ∈ tabGet [] t.image.restoring sc ∧ (∀ k ∈ tabGet [] s.image.restoring sc, k ∈ tabGet [] t.image.restoring sc) ∧
      t.fget F.IMG_RESULT.done f.idx = 0) ∧
  (∀ (s : State) (f : Func) (scope : Nat), opens s f .IMG_CMD 0 f.idx →
    let sc := match f with | .vf n => n | _ => scope % 32
    sc ≤ 16 → s.scopeState sc = 1 →
    goesTo (exec (.discard f scope) s) fun t =>
      t.fget F.IMG_RESULT.done f.idx = 1 ∧ t.fget F.IMG_RESULT.code f.idx = 0 ∧ t.planes = s.planes) ∧
  (∀ (s : State) (f : Func) (scope : Nat), (f = .pf ∨ f = .console) → opens s f .IMG_CMD 0 f.idx → scope ≤ 16 → s.scopeState scope = 3 →
    ((List.range 4).map fun i => s.fget F.IMG_CSIG.bytes 0 i * 2 ^ (32 * i)).sum = tabGet 0 s.image.cmac scope →
    goesTo (exec (.approve f scope) s) fun t =>
      t.scopeState scope = 4 ∧ t.fget F.IMG_RESULT.done f.idx = 1 ∧ t.fget F.IMG_RESULT.code f.idx = 0) ∧
  (∀ (s : State) (sc : Nat), sc ≤ 16 → s.scopeState sc = 6 → s.flag F.IMG_STATUS.drained = true → tabGet [] s.image.restoring sc = [] →
    s.storeLatched sc (sc = 16) = none → s.image.waitRestore = [] →
    goesTo (exec (.shadowRestoreDone sc) s) fun t =>
      t.scopeState sc = 1 ∧ t.plane sc (s.shadowOf sc) = s.plane sc (s.activeOf sc)) ∧
  (∀ (s : State) (sc k : Nat), sc ≤ 16 → (s.scopeState sc = 3 ∨ s.scopeState sc = 4 ∨ s.scopeState sc = 7) → k < 18 →
    tabGet [] s.image.restoring sc = [k] → s.storeLatched sc (sc = 16) = none → s.image.waitRestore = [] →
    goesTo (exec (.shadowRestoreDone sc) s) fun t =>
      t.scopeState sc = 1 ∧ t.plane sc (s.shadowOf sc) = s.plane sc (s.activeOf sc) ∧ t.fget F.IMG_RESULT.done k = 1 ∧
      t.fget F.IMG_RESULT.code k = 0 ∧ tabGet [] t.image.restoring sc = []) ∧
  (∀ (s : State) (f : Func) (op : Nat), 7 ≤ op → op < 16 → opens s f .IMG_CMD 0 f.idx →
    goesTo (exec (.imgCmdInvalidOp f op) s) fun t => t.fget F.IMG_RESULT.done f.idx = 1 ∧ t.fget F.IMG_RESULT.code f.idx = 2)

/-- R47. IMG_FKEY_WRITE, IMG_FUSE_WRITE and FUSE_COMPLETE. -/
def Obligations.KeyFusingTakesEightWords : Prop :=
  (∀ (s : State) (f : Func) (v : Nat), opens s f .IMG_FKEY 0 0 →
    goesTo (exec (.imgFkeyWrite f v) s) fun t =>
      t.image.fkey = (if s.image.fkey.length < 8 then s.image.fkey ++ [v % 2 ^ 32] else s.image.fkey) ∧ t.image.key = s.image.key) ∧
  (∀ (s : State) (f : Func), opens s f .IMG_FUSE 0 0 → s.image.fkey.length = 8 → s.image.fkeyOver = false → s.image.fusing = false →
    s.flag F.IMG_KEY.fused = false →
    goesTo (exec (.imgFuseWrite f 0x0F05) s) fun t => t.image.fusing = true ∧ t.image.key = s.image.fkey ∧ t.image.fkey = []) ∧
  (∀ (s : State) (f : Func) (v : Nat), opens s f .IMG_FUSE 0 0 →
    (v % 2 ^ 16 ≠ 0x0F05 ∨ s.image.fkey.length ≠ 8 ∨ s.image.fkeyOver = true ∨ s.image.fusing = true ∨ s.flag F.IMG_KEY.fused = true) →
    goesTo (exec (.imgFuseWrite f v) s) fun t =>
      t.image.key = s.image.key ∧ t.image.fkey = [] ∧
      t.fget F.IMG_REFUSED.count f.idx = min (s.fget F.IMG_REFUSED.count f.idx + 1) F.IMG_REFUSED.count.top) ∧
  (∀ s : State, s.image.fusing = true →
    goesTo (exec .fuseComplete s) fun t => t.fget F.IMG_KEY.fused = 1 ∧ t.image.fusing = false ∧ t.image.key = s.image.key)

/-- R63: CASTLE. R64, R66: CASTLE_CHECK_DONE. R69: CANCEL. Model's own readings in it: log entries 27, 71. -/
def Obligations.CastlingsAreRequestedAcceptedAndCancelled : Prop :=
  (∀ (s : State) (f : Func), opens s f .IMG_CMD 0 f.idx → s.image.castle = none →
    goesTo (exec (.castle f) s) fun t => t.image.castle =
      some { fn := f, mask := (match f with | .vf n => 2 ^ n | _ => s.fget F.IMG_CASTLE_MASK.scopes f.idx),
             time := (s.rd .IMG_CASTLE_AT f.idx).toNat, accepted := false }) ∧
  (∀ (s : State) (c : Castle), s.image.castle = some c → c.accepted = false → s.castleCode c = (imgOk, 0) →
    goesTo (exec .castleCheckDone s) fun t =>
      t.image.castle = some { c with accepted := true, time := s.timeAt (BitVec.ofNat 72 c.time) } ∧
      (∀ sc, sc ≤ 16 → c.mask.testBit sc = true → t.scopeState sc = 5) ∧ t.flag F.IMG_STATUS.castle_pending = true) ∧
  (∀ (s : State) (f : Func) (c : Castle), opens s f .IMG_CMD 0 f.idx → s.image.castle = some c → c.accepted = true →
    s.time.now + 100000 * 2 ^ 48 ≤ c.time → (f.part = 16 ∨ f = c.fn) →
    goesTo (exec (.cancel f) s) fun t => t.image.castle = none)

/-- R67. CASTLING_TIME. -/
def Obligations.CastlingSwapsTheMaskedScopes : Prop :=
  ∀ (s : State) (c : Castle), s.image.castle = some c → c.accepted = true →
    goesTo (exec .castlingTime s) fun t =>
      t.fget F.IMG_GEN.gen = (s.fget F.IMG_GEN.gen + 1) % 2 ^ 16 ∧ t.tagNow = 1 - s.tagNow ∧
      (∀ sc, sc ≤ 16 → t.scope sc =
        if c.mask.testBit sc then { active := 1 - s.activeOf sc, old := s.activeOf sc } else { active := s.activeOf sc, old := s.activeOf sc }) ∧
      t.image.castle = none

/-- R118, R119. MAC_ADMIN_WRITE, MAC_RESTART and MAC_CLR_FAULT. Model's own readings in it: log entries 17, 30. -/
def Obligations.PortStatesFollowAdministration : Prop :=
  (∀ (s : State) (f : Func) (p : Nat), f.part = 16 → opens s f .MAC_CTL 0 p → s.portAdmin p = false → s.portState p = pDisabled →
    s.portValid p = true → s.image.castle = none → s.portMedia p ≠ 0 → bit (s.portRec p) 17 = false →
    goesTo (exec (.macAdminWrite f true true) s) fun t => t.portState p = pAbsent ∧ t.portAdmin p = true) ∧
  (∀ (s : State) (f : Func) (p : Nat), f.part = 16 → opens s f .MAC_CTL 0 p → s.portAdmin p = false → s.portState p = pDisabled →
    s.portValid p = true → s.image.castle = none → s.portMedia p = 0 → bit (s.portRec p) 13 = true →
    goesTo (exec (.macAdminWrite f true true) s) fun t => t.portState p = pPresent ∧ t.portAdmin p = true) ∧
  (∀ (s : State) (f : Func) (owner : Bool) (p : Nat), opens s f .MAC_CTL 0 p → s.portAdmin p = true →
    goesTo (exec (.macAdminWrite f owner false) s) fun t => t.portState p = pDisabled ∧ t.fget F.MAC_STATUS.retries p = 0) ∧
  (∀ (s : State) (f : Func) (p : Nat), opens s f .MAC_CTL 0 p → s.portAdmin p = true → (s.portState p = pTraining ∨ s.portState p = pUp) →
    goesTo (exec (.macRestart f true true) s) fun t =>
      t.portState p = (if bit (s.portRec p) 13 = false ∧ (s.port p).signal = true then pTraining else pPresent)) ∧
  (∀ (s : State) (f : Func) (p : Nat), opens s f .MAC_CTL 0 p → s.portAdmin p = true → s.portState p = pFault →
    s.flag F.MAC_STATUS.safe p = false → s.portMedia p ≠ 0 → s.flag F.MAC_MOD.present p = false →
    goesTo (exec (.macClrFault f true true) s) fun t => t.portState p = pAbsent ∧ t.fget F.MAC_STATUS.retries p = 0)

/-- R118, R120, R124, R125. The events of the port state machine. Model's own readings in it: log entries 30, 63, 71. -/
def Obligations.ModulesAndLinksMoveThePort : Prop :=
  (∀ (s : State) (p : Nat), s.frozen = false → s.portState p = pAbsent → s.portMedia p ≠ 0 → s.i2cUnit p ∉ s.flt.fenced → bit (s.portRec p) 17 = false →
    (s.port p).bringup = 0 → (s.master (s.i2cNo p)).jobs = [] →
    goesTo (exec (.presencePoll p true false) s) fun t => t.flag F.MAC_MOD.present p = true ∧ (t.port p).bringup = 1) ∧
  (∀ (s : State) (p cmis : Nat) (apps : List (Nat × Nat × Nat)), s.frozen = false → s.portState p = pAbsent → (s.master (s.i2cNo p)).jobs = [] →
    let fits : Nat × Nat × Nat → Prop := fun a => 0 < a.1 ∧ a.2.1 = s.portSpeed p ∧ a.2.2 = s.portLanes p
    (cmis ≠ 5 →
      ((s.port p).bringup = 1 → goesTo (exec (.moduleBringupStep p (cmis, apps)) s) fun t =>
        (t.port p).bringup = 2 ∧ t.fget F.MAC_MOD.cmis_st p = cmis % 2 ^ 4) ∧
      ((s.port p).bringup = 2 → goesTo (exec (.moduleBringupStep p (cmis, apps)) s) fun t =>
        (t.port p).bringup = 3 ∧ t.fget F.MAC_MOD.cmis_st p = 3) ∧
      (∀ a ∈ apps, (s.port p).bringup = 3 → fits a → (∀ b ∈ apps, fits b → a.1 ≤ b.1) →
        goesTo (exec (.moduleBringupStep p (cmis, apps)) s) fun t => (t.port p).bringup = 4 ∧ t.fget F.MAC_MOD.app p = a.1 % 2 ^ 8) ∧
      ((s.port p).bringup = 3 → (∀ a ∈ apps, ¬fits a) → goesTo (exec (.moduleBringupStep p (cmis, apps)) s) fun t => t.portState p = pFault) ∧
      ((s.port p).bringup = 4 → bit (s.portRec p) 13 = true →
        goesTo (exec (.moduleBringupStep p (cmis, apps)) s) fun t => t.portState p = pPresent)) ∧
    ((s.port p).bringup ≠ 0 → cmis = 5 → goesTo (exec (.moduleBringupStep p (cmis, apps)) s) fun t => t.portState p = pFault)) ∧
  (∀ (s : State) (p : Nat), s.frozen = false → (s.port p).bringup ≠ 0 →
    goesTo (exec (.moduleBringupTimeout p) s) fun t => t.portState p = pFault) ∧
  (∀ (s : State) (p : Nat), s.portState p = pPresent → bit (s.portRec p) 13 = true →
    goesTo (exec (.anPageRx p) s) fun t => t.portState p = pTraining) ∧
  (∀ (s : State) (p : Nat), s.portState p = pPresent → bit (s.portRec p) 13 = false → s.pstate ≠ psRest → s.power.entering = false →
    goesTo (exec (.signalDetect p) s) fun t => t.portState p = pTraining ∧ (t.port p).signal = true) ∧
  (∀ (s : State) (p : Nat) (eee : Bool), s.portState p = pTraining →
    goesTo (exec (.linkConditionsMet p eee) s) fun t => t.portState p = pUp ∧ (t.port p).eee = eee) ∧
  (∀ (s : State) (p : Nat), s.portState p = pTraining → bit (s.portRec p) 13 = true →
    goesTo (exec (.trainToExpiry p) s) fun t => t.portState p =
      if s.fget F.MAC_TIMERS.retry_max p ≠ 0 ∧ s.fget F.MAC_TIMERS.retry_max p ≤ s.fget F.MAC_STATUS.retries p + 1 then pFault else pPresent) ∧
  (∀ (s : State) (p lane kind : Nat), s.portState p = pUp → kind ≠ 0 → s.rxFrame p true = none → s.rxFrame p false = none →
    goesTo (exec (.linkLossBegin p lane kind) s) fun t => (t.port p).lossOn = true ∧ t.portState p = pUp) ∧
  (∀ (s : State) (p : Nat), goesTo (exec (.linkLossEnd p) s) fun t => (t.port p).lossOn = false ∧ t.regs = s.regs) ∧
  (∀ (s : State) (p : Nat), s.portState p = pUp → (s.port p).lossOn = true → bit (s.portRec p) 13 = true →
    goesTo (exec (.downHoldExpiry p) s) fun t => t.portState p = pPresent) ∧
  (∀ (s : State) (p : Nat), s.portState p = pUp →
    goesTo (exec (.remoteFaultRx p) s) fun t => t.flag F.MAC_STATUS.rem_fault p = true) ∧
  (∀ (s : State) (p : Nat), goesTo (exec (.remoteFaultEnd p) s) fun t => t.flag F.MAC_STATUS.rem_fault p = false)

/-- R126: I2C_TRANSACTION_GO and I2C_TRANSACTION_DONE. R531: I2C_BUS_STUCK. R130: PARTNER_SLOT_FREE and PARTNER_AGE_EXPIRY.
Model's own readings in it: log entries 30, 63, 67. -/
def Obligations.ModuleTransactionsAndPartnerSlots : Prop :=
  (∀ (s : State) (f : Func) (v p : Nat), opens s f .MAC_I2C_CMD 0 p → v.testBit 35 = true → v.testBit 30 = false → 1 ≤ bits v 29 26 →
    bits v 29 26 ≤ 8 → s.flag F.MAC_I2C_CMD.busy p = false → s.i2cUnit p ∉ s.flt.fenced → s.flag F.MAC_MOD.present p = true →
    goesTo (exec (.i2cTransactionGo f v) s) fun t => t.flag F.MAC_I2C_CMD.busy p = true ∧ t.fget F.MAC_I2C_CMD.offset p = bits v 7 0 ∧
      (t.master (s.i2cNo p)).jobs = (s.master (s.i2cNo p)).jobs ++ [.software p]) ∧
  (∀ (s : State) (p result : Nat) (data : List Byte), s.frozen = false → (s.master (s.i2cNo p)).jobs = [.software p] →
    goesTo (exec (.i2cTransactionDone p result data) s) fun t =>
      t.flag F.MAC_I2C_CMD.busy p = false ∧ t.fget F.MAC_I2C_CMD.result p = result % 2 ^ 3) ∧
  (∀ (s : State) (m : Nat), s.frozen = false → goesTo (exec (.i2cBusStuck m) s) fun t => 0xC03 + m % 4 ∈ t.flt.fenced) ∧
  (∀ (s : State) (f : Func) (p slot : Nat), opens s f .MAC_PARTNER slot p → s.flag F.MAC_PARTNER.valid p slot = true →
    goesTo (exec (.partnerSlotFree f slot) s) fun t => t.rd .MAC_PARTNER p slot = 0) ∧
  (∀ (s : State) (p slot : Nat), s.fget F.MAC_TIMERS.partner_age p ≠ 0 → s.flag F.MAC_PARTNER.valid p slot = true →
    goesTo (exec (.partnerAgeExpiry p slot) s) fun t => t.rd .MAC_PARTNER p slot = 0)

/-- R134: RX_CTL_DISCARD. R140: PFC_REFRESH. R143: MM_VERIFY_TIMER, MM_RESPOND_RX. R149, R150: LPI_IDLE_EXPIRY, PARTNER_LOW_POWER_IDLE.
Model's own readings in it: log entries 31, 63. -/
def Obligations.ControlFramesAndMergeVerification : Prop :=
  (∀ (s : State) (p : Nat), s.portState p = pUp → goesTo (exec (.rxCtlDiscard p) s) fun t => countedUp s t F.MAC_CNT.count p 10 1) ∧
  (∀ (s : State) (p c : Nat), s.fget F.MAC_PAUSE.mode p = 2 → c < 8 → (s.fget F.MAC_PAUSE_STATE.xoff p).testBit c = true → s.prioritiesOf p c ≠ 0 →
    s.portState p = pUp →
    (s.flag F.MAC_STATUS.rem_fault p = false → (s.port p).wire = none → (s.port p).ctlWait = [] →
      goesTo (exec (.pfcRefresh p) s) fun t =>
        countedUp s t F.MAC_CNT.count p 20 1 ∧ ∃ x, (t.port p).lastCtl = some x ∧ x.pfc = true) ∧
    ((s.port p).wire.isSome = true → s.wireCuttable p = none →
      goesTo (exec (.pfcRefresh p) s) fun t => ∃ x, (t.port p).ctlWait = (s.port p).ctlWait ++ [x] ∧ x.pfc = true)) ∧
  (∀ (s : State) (p : Nat), s.portState p = pUp →
    (s.fget F.MAC_MM.verify_st p = 1 → goesTo (exec (.mmVerifyTimer p) s) fun t =>
      t.fget F.MAC_MM.verify_st p = 2 ∧ (t.port p).verifySent = 1) ∧
    (s.fget F.MAC_MM.verify_st p = 2 → (s.port p).verifySent < 3 → goesTo (exec (.mmVerifyTimer p) s) fun t =>
      t.fget F.MAC_MM.verify_st p = 2 ∧ (t.port p).verifySent = (s.port p).verifySent + 1) ∧
    (s.fget F.MAC_MM.verify_st p = 2 → 3 ≤ (s.port p).verifySent → goesTo (exec (.mmVerifyTimer p) s) fun t =>
      t.fget F.MAC_MM.verify_st p = 4)) ∧
  (∀ (s : State) (p : Nat), s.fget F.MAC_MM.verify_st p = 2 →
    goesTo (exec (.mmRespondRx p) s) fun t => t.fget F.MAC_MM.verify_st p = 3) ∧
  (∀ (s : State) (p : Nat) (enter : Bool),
    goesTo (exec (.partnerLowPowerIdle p enter) s) fun t => t.flag F.MAC_STATUS.lpi_rx p = enter) ∧
  (∀ (s : State) (p : Nat), bit (s.portRec p) 15 = true → s.flag F.MAC_LPI.en p = true → (s.port p).eee = true → s.portState p = pUp →
    (∀ e ∈ s.queues, e.1 / 128 = p → e.2.head = [] ∧ e.2.deep = [] ∧ e.2.pend = []) → s.portIdle p = true → s.flag F.MAC_STATUS.lpi_tx p = false →
    goesTo (exec (.lpiIdleExpiry p) s) fun t => t.flag F.MAC_STATUS.lpi_tx p = true ∧ countedUp s t F.MAC_CNT.count p 27 1)

/-- R134, R136, R138. PAUSE_FRAME_RX, PFC_FRAME_RX and PAUSE_TIMER_EXPIRY. Model's own readings in it: log entry 63. -/
def Obligations.PausesHoldAndReleaseClasses : Prop :=
  let rest : State → State → Nat → Prop := fun s t p =>
    (∀ q, q ≠ p → t.port q = s.port q) ∧ t.queues = s.queues ∧ t.bufs = s.bufs ∧ t.cmem = s.cmem
  (∀ (s : State) (p time : Nat), s.portState p = pUp → s.fget F.MAC_PAUSE.mode p = 1 →
    goesTo (exec (.pauseFrameRx p time) s) fun t =>
      (∀ c, c < 7 → bit (t.fget F.MAC_PAUSE_STATE.held p) c = decide (time ≠ 0)) ∧ rest s t p) ∧
  (∀ (s : State) (p enables : Nat) (times : List Nat), s.portState p = pUp → s.fget F.MAC_PAUSE.mode p = 2 →
    goesTo (exec (.pfcFrameRx p enables times) s) fun t =>
      (∀ c, c < 7 →
        let pr := bits (s.fget F.MAC_PFC_MAP.map p) (3 * c + 2) (3 * c)
        bit (t.fget F.MAC_PAUSE_STATE.held p) c =
          if bit enables pr ∧ bit (s.fget F.MAC_PFC_MAP.rx_en p) pr then decide (times.getD pr 0 ≠ 0)
          else bit (s.fget F.MAC_PAUSE_STATE.held p) c) ∧ rest s t p) ∧
  (∀ (s : State) (p c : Nat), c < 8 →
    goesTo (exec (.pauseTimerExpiry p c) s) fun t =>
      (∀ d, d < 8 → bit (t.fget F.MAC_PAUSE_STATE.held p) d = (decide (d ≠ c) && bit (s.fget F.MAC_PAUSE_STATE.held p) d)) ∧ rest s t p)

/-- R356, R136, R341, R144, R26. TX_START and TX_FRAME_END. Model's own readings in it: log entries 33, 44. -/
def Obligations.CopiesGoOnTheWireAndLeave : Prop :=
  let idle : State → Nat → Prop := fun s p =>
    s.flag F.MAC_STATUS.safe p = false ∧ s.dhState p 0 = false ∧ s.portState p = pUp ∧ s.flag F.MAC_STATUS.rem_fault p = false ∧
    (s.port p).wire = none ∧ (s.port p).ctlWait = []
  let begins : State → Nat → Nat := fun s p => max s.time.now ((s.port p).lastEnd + s.wireTime p 12)
  (∀ (s : State) (p : Nat) (x : TxCopy), idle s p → s.firstFree p (s.port p).fifo7 = some x → s.mayStart x (begins s p) = true →
    goesTo (exec (.txStart p) s) fun t =>
      ∃ w, (t.port p).wire = some w ∧ w.copy.id = x.copy.id ∧ w.start = begins s p ∧ w.first = some (begins s p) ∧ w.sent = x.sent) ∧
  (∀ (s : State) (p : Nat) (x : TxCopy), idle s p → (s.port p).fifo7 = [] → (s.port p).remainder = none →
    s.firstFree p (s.port p).fifoG = some x → s.mayStart x (begins s p) = true →
    goesTo (exec (.txStart p) s) fun t =>
      ∃ w, (t.port p).wire = some w ∧ w.copy.id = x.copy.id ∧ w.start = begins s p ∧ w.first = some (begins s p) ∧ w.sent = x.sent) ∧
  (∀ (s : State) (p : Nat) (x : TxCopy), (s.port p).wire = some x → s.copySent x.copy = true → (s.port p).ctlWait = [] →
    goesTo (exec (.txFrameEnd p) s) fun t =>
      (t.port p).lastTx = some { bytes := s.sentBytes x, bad := s.stomped x.copy } ∧ (t.port p).lastEnd = s.time.now)

/-- R16, R17, R39, R131, R263, R275. FRAME_START and BUFFER_ALLOC_RX. Model's own readings in it: log entry 32. -/
def Obligations.FramesAreReceivedIntoTheirPath : Prop :=
  (∀ (s : State) (p : Nat) (pmac : Bool) (bytes : List Byte), s.portState p = pUp → p < 256 →
    halfAt bytes 12 ≠ 0x8808 → s.rxFrame p pmac = none → bytes.length ≤ s.maxFrame s.tagNow p →
    let express := (s.mmOn p && !pmac) || decide (s.preClass s.tagNow p bytes = 7)
    let f : Frame := { port := p, owner := s.portHolder p, group := p / 64, express := express, tag := s.tagNow, pre := s.preClass s.tagNow p bytes,
                       pmac := pmac }
    let pool := poolFor (s.ruleLength s.tagNow p bytes)
    (pmac = true → s.mmOn p = true ∧ (∀ n, ({ s with free := n }.pickBuf pool).isSome = true) ∧ (s.admitFrame f (poolCharge pool)).isSome = true ∧
      ∀ h, handlePool h = pool → bytes.length ≤ s.bufSizeOf h) →
    goesTo (exec (.frameStart p pmac bytes) s) fun t =>
      t.nextFrame = s.nextFrame + 1 ∧ t.rxFrame p pmac = some s.nextFrame ∧
      ∃ f, t.frame s.nextFrame = some f ∧ f.port = p ∧ f.owner = s.portHolder p ∧ f.tag = s.tagNow ∧ f.pre = s.preClass s.tagNow p bytes ∧
        f.bytes = bytes ∧ f.len = bytes.length ∧ f.alloc = pmac ∧ f.ended = false ∧ f.pmac = pmac ∧
        f.express = express ∧
        (pmac = true → handlePool f.handle = pool ∧ ∃ b, t.buf f.handle = some b ∧ b.count = 1 ∧ b.part = f.owner ∧ b.quar = false)) ∧
  (∀ (s : State) (id : Nat) (f : Frame) (bytes : List Byte) (h : Nat) (a : Acct), s.frame id = some f → f.alloc = false → f.failed = false →
    f.injected = none → f.ended = false → 256 ≤ f.len + bytes.length → f.len + bytes.length ≤ s.maxFrame f.tag f.port →
    let g : Frame := { f with bytes := f.bytes ++ bytes, len := f.len + bytes.length }
    let l := s.ruleLength f.tag f.port g.bytes
    s.pickBuf (poolFor l) = some h → s.admitFrame g (poolCharge (poolFor l)) = some a → g.len ≤ s.bufSizeOf h →
    goesTo (exec (.bufferAllocRx id bytes) s) fun t =>
      (∃ x, t.frame id = some x ∧ x.alloc = true ∧ x.handle = h ∧ x.known = l ∧ x.bytes = g.bytes) ∧
      ∃ b, t.buf h = some b ∧ b.count = 1 ∧ b.part = f.owner ∧ b.quar = false) ∧
  (∀ (s : State) (id : Nat) (f : Frame) (bytes : List Byte) (h : Nat) (a : Acct), s.frame id = some f → f.alloc = false → f.failed = false →
    f.injected = none → f.ended = true → s.pickBuf (poolFor f.len) = some h → s.admitFrame f (poolCharge (poolFor f.len)) = some a →
    f.len ≤ s.bufSizeOf h →
    goesTo (exec (.bufferAllocRx id bytes) s) fun t =>
      (∃ x, t.frame id = some x ∧ x.alloc = true ∧ x.handle = h ∧ x.bytes = f.bytes) ∧
      ∃ b, t.buf h = some b ∧ b.count = 1 ∧ b.part = f.owner ∧ b.quar = false)

/-- R133, R146, R148, R150, R283. FRAME_END and FRAGMENT_RX. Model's own readings in it: log entries 32, 34. -/
def Obligations.FrameEndsAndFragmentsAreCounted : Prop :=
  (∀ (s : State) (p id n m : Nat) (pmac : Bool) (bytes : List Byte) (f : Frame), s.rxFrame p pmac = some id → s.frame id = some f →
    f.failed = false → f.ended = false → f.switched = false → 64 ≤ f.len + bytes.length → f.len + bytes.length ≤ s.maxFrame f.tag f.port →
    (f.alloc = true → f.len + bytes.length ≤ s.bufSizeOf f.handle) →
    goesTo (exec (.frameEnd p pmac bytes (true, n, m)) s) fun t =>
      countedUp s t F.MAC_CNT.count f.port 0 1 ∧ countedUp s t F.MAC_CNT.count f.port 1 (f.len + bytes.length) ∧
      (s.portState p = pUp → countedUp s t F.MAC_CNT.count p 23 n ∧ countedUp s t F.MAC_CNT.count p 24 m) ∧
      ∃ g, t.frame id = some g ∧ g.ended = true ∧ g.bytes = f.bytes ++ bytes ∧ g.len = f.len + bytes.length) ∧
  (∀ (s : State) (p id n m : Nat) (pmac : Bool) (bytes : List Byte) (f : Frame), s.rxFrame p pmac = some id → s.frame id = some f →
    f.failed = false → f.ended = false → f.switched = false → f.len + bytes.length ≤ s.maxFrame f.tag f.port →
    (f.alloc = true → f.len + bytes.length ≤ s.bufSizeOf f.handle) →
    goesTo (exec (.frameEnd p pmac bytes (false, n, m)) s) fun t =>
      countedUp s t F.MAC_CNT.count f.port (if f.pmac then 5 else if f.len + bytes.length < 64 then 4 else 2) 1) ∧
  (∀ (s : State) (p count : Nat) (crcOk final : Bool) (bytes : List Byte), s.portState p = pUp → s.mmOn p = true →
    (s.port p).reasm = none →
    goesTo (exec (.fragmentRx p false count bytes crcOk final) s) fun t =>
      countedUp s t F.MAC_CNT.count p 8 1 ∧ countedUp s t F.MAC_CNT.count p 5 1 ∧ t.frames = s.frames) ∧
  (∀ (s : State) (p id : Nat) (bytes : List Byte) (f : Frame), s.portState p = pUp → s.mmOn p = true → (s.port p).reasm = some id →
    s.frame id = some f → 60 ≤ bytes.length → f.len + bytes.length ≤ s.maxFrame f.tag f.port →
    (f.alloc = true → f.len + bytes.length ≤ s.bufSizeOf f.handle) →
    goesTo (exec (.fragmentRx p false (s.port p).fragCount bytes true false) s) fun t =>
      countedUp s t F.MAC_CNT.count p 8 1 ∧ (t.port p).fragCount = ((s.port p).fragCount + 1) % 4 ∧
      ∃ g, t.frame id = some g ∧ g.bytes = f.bytes ++ bytes ∧ g.ended = f.ended)

/-- R155, R157, R158, R165, R555. WAKE_MARK_RETRY, SPRAYER_TARGET, SLICE_READY, SLICE_DRAINED and SLOWNESS_WINDOW_END.
Model's own readings in it: log entries 37, 63, 71. -/
def Obligations.SlicesWakeAndSleep : Prop :=
  (∀ (s : State) (g n : Nat) (l : List Nat), s.belowMark g = true → s.slicesIn g slAsleep = n :: l → s.upSlices g < s.maxSlices g →
    goesTo (exec (.wakeMarkRetry g) s) fun t => t.sliceState g n = slWaking ∧ countedUp s t F.SPR_CNT.count g 7 1) ∧
  (∀ (s : State) (g : Nat), goesTo (exec (.sprayerTarget g) s) fun t =>
    t.fget F.SPR_STATUS.target g = s.sliceTarget g (s.group g).accepted % 2 ^ (F.SPR_STATUS.target.hi + 1 - F.SPR_STATUS.target.lo) ∧
    (t.group g).accepted = 0) ∧
  (∀ (s : State) (g n : Nat), g < 4 → n < 13 → s.sliceState g n = slWaking → (∀ p ∈ s.flt.promos, p.spare ≠ sliceUnit g n) →
    goesTo (exec (.sliceReady g n) s) fun t => t.sliceState g n = slActive) ∧
  (∀ (s : State) (g n : Nat), g < 4 → n < 13 → s.sliceState g n = slDraining → (s.slice g n).fifoE = [] → (s.slice g n).fifoG = [] → (s.slice g n).pipe = [] →
    (s.slice g n).drainTo ≠ slBench →
    goesTo (exec (.sliceDrained g n) s) fun t => t.sliceState g n = slAsleep) ∧
  (∀ (s : State) (g n : Nat), g < 4 → n < 13 → goesTo (exec (.slownessWindowEnd g n) s) fun t =>
    t.fget F.SPR_SLICE.slowness g n = 0 ∧ (t.slice g n).marked = false ∧ (t.slice g n).advised = false ∧
    t.flag F.SPR_SLICE.slow g n = ((s.slice g n).marked && s.flag F.SPR_SLICE.slow g n))

/-- R152, R153, R154, R161, R162. JOB_HANDOVER, JOB_DISPATCH, SLICE_TAKE and REORDER_RELEASE.
Model's own readings in it: log entries 37, 71. -/
def Obligations.JobsAreHandedOverInOrder : Prop :=
  (∀ (s : State) (id : Nat) (f : Frame), s.frame id = some f → f.hand = none → f.failed = false →
    (id ∈ (s.group f.group).inject ∨ (f.alloc = true ∧ (256 ≤ f.len ∨ f.ended = true))) → (s.storeOf f.group f.express).length < (if f.express then 1024 else 15360) →
    goesTo (exec (.jobHandover id) s) fun t =>
      (t.group f.group).store = (s.group f.group).store ++ [id] ∧
      (if f.express then (t.group f.group).waitE = (s.group f.group).waitE ++ [id]
        else (t.group f.group).waitG = (s.group f.group).waitG ++ [id]) ∧
      (∃ h, t.frame id = some h ∧ h.seq = tabGet 0 s.seqs (seqKey f) ∧ h.hand = some s.time.cycles) ∧
      tabGet 0 t.seqs (seqKey f) = (tabGet 0 s.seqs (seqKey f) + 1) % 16384) ∧
  (∀ (s : State) (g id n : Nat) (slow : Bool) (f : Frame), (s.group g).waitE = [] → (s.group g).waitG = [id] →
    s.pickSlice g false = some (n, slow) → s.frame id = some f →
    goesTo (exec (.jobDispatch g) s) fun t =>
      (t.group g).waitG = [] ∧ (t.slice g n).fifoG = (s.slice g n).fifoG ++ [id] ∧ ∃ h, t.frame id = some h ∧ h.slice = some n) ∧
  (∀ (s : State) (g id n : Nat) (slow : Bool) (f : Frame), (s.group g).waitE = [id] → (s.group g).waitG = [] →
    s.pickSlice g true = some (n, slow) → s.frame id = some f →
    goesTo (exec (.jobDispatch g) s) fun t =>
      (t.group g).waitE = [] ∧ (t.slice g n).fifoE = (s.slice g n).fifoE ++ [id] ∧ ∃ h, t.frame id = some h ∧ h.slice = some n) ∧
  (∀ (s : State) (g n id : Nat) (l : List Nat), g < 4 → n < 13 → (s.sliceState g n = slActive ∨ s.sliceState g n = slDraining) →
    ((s.slice g n).fifoE = id :: l →
      goesTo (exec (.sliceTake g n) s) fun t => (t.slice g n).fifoE = l ∧ (t.slice g n).pipe = (s.slice g n).pipe ++ [id]) ∧
    ((s.slice g n).fifoE = [] → (s.slice g n).fifoG = id :: l →
      goesTo (exec (.sliceTake g n) s) fun t => (t.slice g n).fifoG = l ∧ (t.slice g n).pipe = (s.slice g n).pipe ++ [id])) ∧
  (∀ (s : State) (g id : Nat), (s.group g).copyFifo.length < 256 → (s.group g).store = [id] → s.releasable g id = true →
    goesTo (exec (.reorderRelease g) s) fun t =>
      (t.group g).released = (s.group g).released ++ [id] ∧ (t.group g).store = [])

/-- R164, R168, R170, R177, R185. SLICE_RESULT and JOB_LATE. Model's own readings in it: log entries 32, 35, 36. -/
def Obligations.SlicesDecideResults : Prop :=
  (∀ (s : State) (g n id : Nat) (l bad : List Nat) (rd : MatchRead) (f : Frame), (s.slice g n).pipe = id :: l → s.frame id = some f →
    id ∈ (s.group g).store →
    goesTo (exec (.sliceResult g n bad rd) s) fun t => ∃ h, t.frame id = some h ∧ h.result.isSome = true ∧ h.slice = some n) ∧
  (∀ (s : State) (g n id : Nat) (l : List Nat) (rd : MatchRead) (f : Frame), (s.slice g n).pipe = id :: l → s.frame id = some f →
    id ∈ (s.group g).store → f.failed = false → f.lldp = false → s.time.cycles - f.took.getD s.time.cycles ≤ max 352 (s.fget F.SPR_SLOW.mark g) →
    s.selectProfile f.tag (s.frameTenant f) (if f.injected.isSome then 255 else f.port) f.pre f.bytes = none →
    s.flag F.PRS_TEN.nomatch_punt (s.frameTenant f) = false →
    goesTo (exec (.sliceResult g n [] rd) s) fun t =>
      ∃ h r, t.frame id = some h ∧ h.result = some r ∧ r.kind = 3 ∧ r.dest = 1 ∧ r.tenant = s.frameTenant f) ∧
  (∀ (s : State) (g n id : Nat) (l : List Nat) (rd : MatchRead) (f : Frame), (s.slice g n).pipe = id :: l → s.frame id = some f →
    id ∉ (s.group g).store → f.lldp = false → s.time.cycles - f.took.getD s.time.cycles ≤ max 352 (s.fget F.SPR_SLOW.mark g) →
    goesTo (exec (.sliceResult g n [] rd) s) fun t => countedUp s t F.SPR_CNT.count g 5 1 ∧ t.frame id = none) ∧
  (∀ (s : State) (id : Nat) (f : Frame), s.frame id = some f → id ∈ (s.group f.group).store → f.result = none →
    goesTo (exec (.jobLate id) s) fun t => id ∉ (t.group f.group).store)

/-- R277, R279, R281, R284, R520. SWITCH_RESULT and COPY_ENGINE_RESULT. Model's own readings in it: log entry 41. -/
def Obligations.SwitchTakesReleasedResults : Prop :=
  let charged : State → Frame → Result → Prop := fun s f r => ∀ b, s.buf f.handle = some b → b.quar = true ∨ acctOf r.tenant b.acct = true
  let own : Nat → Frame → Result → Copy := fun id f r => copyFor id f r r.dest r.qset r.qclass r.edit
  (∀ (s : State) (g id : Nat) (l : List Nat) (f : Frame) (r : Result), (s.group g).released = id :: l → s.frame id = some f →
    f.result = some r → f.failed = false →
    (∀ x ∈ (s.group g).copyFifo, ∀ h, s.frame x = some h → seqKey h ≠ seqKey f) →
    (r.kind = 3 → goesTo (exec (.switchResult g) s) fun t =>
      id ∉ (t.group g).released ∧ t.bal f.owner 2 = (s.bal f.owner 2 + 1) % 2 ^ 72) ∧
    (r.kind ≠ 3 → (s.group g).copyFifo.length < 256 → goesTo (exec (.switchResult g) s) fun t =>
      id ∉ (t.group g).released ∧ t.bal f.owner 3 = (s.bal f.owner 3 + 1) % 2 ^ 72) ∧
    (charged s f r → s.needsEngine f r = true → (s.group g).copyFifo.length < 256 → goesTo (exec (.switchResult g) s) fun t =>
      id ∉ (t.group g).released ∧ (t.group g).copyFifo = (s.group g).copyFifo ++ [id]) ∧
    (charged s f r → r.kind = 0 → s.needsEngine f r = false → s.enqueueCheck (own id f r) r.tenant = 0 →
      goesTo (exec (.switchResult g) s) fun t =>
        id ∉ (t.group g).released ∧ t.nextCopy = s.nextCopy + 1 ∧ countedUp s t F.SWC_CNT.count r.tenant 0 1 ∧
        ∃ h, t.frame id = some h ∧ h.switched = true ∧ h.copies = f.copies + 1)) ∧
  (∀ (s : State) (g id : Nat) (a l : List Nat) (f : Frame) (r : Result), (s.group g).copyFifo = a ++ id :: l → s.frame id = some f →
    f.result = some r → f.failed = false →
    (∀ x ∈ a, ∀ h, s.frame x = some h → h.express = false) →
    (f.express = true ∨ (a = [] ∧ ∀ x ∈ l, ∀ h, s.frame x = some h → h.express = false)) →
    (goesTo (exec (.copyEngineResult g) s) fun t => (t.group g).copyFifo = (s.group g).copyFifo.filter (· ≠ id)) ∧
    (r.kind = 0 → s.enqueueCheck (own id f r) r.tenant = 0 → goesTo (exec (.copyEngineResult g) s) fun t =>
      (t.group g).copyFifo = (s.group g).copyFifo.filter (· ≠ id) ∧ s.nextCopy + 1 ≤ t.nextCopy ∧
      ∃ h, t.frame id = some h ∧ f.copies + 1 ≤ h.copies) ∧
    (∀ w ws, r.kind = 1 → s.groupList g f.tag r.tenant r.dest = some (w, ws) → bit w 35 = true →
      goesTo (exec (.copyEngineResult g) s) fun t =>
        (t.group g).copyFifo = (s.group g).copyFifo.filter (· ≠ id) ∧ countedUp s t F.SWC_CNT.count r.tenant 1 1))

/-- R295–R298, R301, R309, R310. DEEP_WRITE, STAGING_FLUSH, HEAD_REFILL and DEEP_RECORD_RETURN.
Model's own readings in it: log entries 42, 43. -/
def Obligations.DeepQueuesWriteAndReadBack : Prop :=
  (∀ (s : State) (n hb : Nat) (c : Copy) (l : List Copy), tabWf {} s.queues = true →
    (∀ e ∈ s.queues, e.1 ≠ n → s.deepReady e.1 = false) →
    let q := s.queue n
    let size := recordSize (s.storedLen c)
    q.isDeep = true → q.pend = c :: l → s.copyWhole c = true → (∀ f, s.frame c.frame = some f → f.failed = false) → q.staging = some hb →
    s.writeRoom n = true →
    let wrote : State → Nat → Nat → Prop := fun t b off =>
      (t.queue n).pend = l ∧ (t.queue n).woff = off + size ∧ ∃ d, (t.queue n).deep = q.deep ++ [d] ∧ d.copy.id = c.id ∧ d.block = b ∧ d.off = off ∧
        d.bytes = s.bufBytes c.handle 0 (s.storedLen c) ∧ d.staged = true ∧ d.headerOk = true
    (q.woff + size ≤ 65536 → goesTo (exec .deepWrite s) fun t => wrote t (q.blocks.getLastD 0) q.woff) ∧
    (q.blocks = [] → q.woff = 65536 → s.deepUse c.tag (s.queuePart n c) < bits (s.partWordT c.tag (s.queuePart n c) 19) 20 0 →
      s.takeBlock.isSome = true → goesTo (exec .deepWrite s) fun t => ∃ b, wrote t b 0 ∧ (t.queue n).blocks = [b])) ∧
  (∀ (s : State) (n : Nat), (s.queue n).woff % 256 ≠ 0 →
    goesTo (exec (.stagingFlush n) s) fun t =>
      (t.queue n).woff = ((s.queue n).woff / 256 + 1) * 256 ∧ (t.queue n).staging = none ∧ (t.queue n).deep = (s.queue n).deep ∧
      ∀ k, s.blockPc ((s.queue n).blocks.getLastD 0) = some k → (s.reqs true k).length < 64 → s.late true k = [] →
        ∃ r, t.reqs true k = s.reqs true k ++ [r] ∧ r.line = (s.queue n).woff / 256 ∧ r.queue = some n) ∧
  (∀ (s : State) (n : Nat) (d : DeepRec) (l : List DeepRec), (s.queue n).deep = d :: l → (s.queue n).isDeep = true →
    s.copiesBytes (s.queue n).head < s.queueRefill d.copy.tag (n / 128) (n / 8 % 16) (n % 8) →
    goesTo (exec (.headRefill n) s) fun t => (t.queue n).reading = true ∧ (t.queue n).deep = d :: l ∧ (t.queue n).head = (s.queue n).head) ∧
  (∀ (s : State) (n : Nat) (d : DeepRec) (l : List DeepRec), tabWf {} s.queues = true → (∀ e ∈ s.queues, e.1 ≠ n → e.2.reading = false) →
    (s.queue n).reading = true → (s.queue n).deep = d :: l →
    (inStaging (s.queue n) d = true ∨ ((d.staged = true ∨ d.headerOk = true) ∧
      ∀ i, i < d.lines.2 - d.lines.1 → (d.block, d.lines.1 + i) ∈ (s.queue n).asked ∧ s.lineWaits false n d.block (d.lines.1 + i) = false)) →
    ∀ h a, s.returnBuf n d = some (h, a) →
      goesTo (exec .deepRecordReturn s) fun t =>
        (t.queue n).deep = l ∧ ∃ c later, (t.queue n).head = (s.queue n).head ++ c :: later ∧ c.handle = h ∧ c.id = d.copy.id)

/-- R311–R313. HBM_ROW_CLOSE, HBM_REFRESH and HBM_POWER_DOWN. Model's own readings in it: log entry 42. -/
def Obligations.HbmRowsRefreshAndPower : Prop :=
  (∀ (s : State) (u b : Nat), goesTo (exec (.hbmRowClose u b) s) fun t =>
    tabGet 0 t.hbm.rows ((u - 0x900) * 64 + b) = 0 ∧ t.regs = s.regs ∧ t.queues = s.queues) ∧
  (∀ (s : State) (u b : Nat), b < 64 →
    let k := (u - 0x900) * 64 + b
    let asked := ∃ r ∈ s.reqs false (u - 0x900) ++ s.reqs true (u - 0x900), (s.reqRow (u - 0x900) r).1 = k
    let same : State → Prop := fun t => t.regs = s.regs ∧ t.queues = s.queues
    (s.flag F.HBC_REFRESH.all_bank ((u - 0x900) / 32) = true → goesTo (exec (.hbmRefresh u b) s) fun t =>
      (∀ c, c < 64 → tabGet 0 t.hbm.rows ((u - 0x900) * 64 + c) = 0) ∧ same t) ∧
    (s.flag F.HBC_REFRESH.all_bank ((u - 0x900) / 32) = false →
      (¬asked ∨ Config.refreshPostpone ≤ tabGet 0 s.hbm.postponed k → goesTo (exec (.hbmRefresh u b) s) fun t =>
        tabGet 0 t.hbm.rows k = 0 ∧ same t) ∧
      (asked → tabGet 0 s.hbm.postponed k < Config.refreshPostpone → goesTo (exec (.hbmRefresh u b) s) fun t =>
        tabGet 0 t.hbm.postponed k = tabGet 0 s.hbm.postponed k + 1 ∧ t.hbm.rows = s.hbm.rows ∧ same t))) ∧
  (∀ (s : State) (u : Nat), s.fget F.HBC_CFG.pd_idle ≠ 0 → s.pcIdle (u - 0x900) = true →
    goesTo (exec (.hbmPowerDown u) s) fun t => u ∈ t.hbm.asleep ∧ t.regs = s.regs ∧ t.queues = s.queues)

/-- R314, R316, R318, R320. HBM_RETRAIN_TIMER, HBM_COPY_DONE, HBM_TRAIN_DONE, HBM_READ_ERROR, HBM_ROW_REPAIR_DONE and HBM_PC_DRAINED.
Model's own readings in it: log entries 42, 63. -/
def Obligations.HbmRetrainsRepairsAndDrains : Prop :=
  (∀ (s : State) (h b p : Nat), s.frozen = false → s.fget F.HBC_CFG.retrain ≠ 0 → s.fget F.HBC_STACK.state h = 1 → s.benchPc h = some b → s.hbmCopying h = false →
    tabFind s.hbm.round h = none → p < 32 → s.fget F.HBC_PC.state h p = 0 → s.fget F.HBC_PC.logical h p < 31 →
    goesTo (exec (.hbmRetrainTimer h) s) fun t => t.fget F.HBC_PC.state h b = 2) ∧
  (∀ (s : State) (h : Nat) (v : HbmVisit), (∀ p ∈ s.flt.promos, ¬(p.kind = 4 ∧ (p.unit - 0x900) / 32 = h)) →
    (s.hbm.visits.find? fun v => decide (v.stack = h)) = some v → v.src < 32 → v.dst < 32 → v.src ≠ v.dst →
    goesTo (exec (.hbmCopyDone h) s) fun t =>
      t.fget F.HBC_PC.state h v.src = 4 ∧ t.fget F.HBC_PC.state h v.dst = 0 ∧
      t.fget F.HBC_PC.logical h v.dst = s.fget F.HBC_PC.logical h v.src ∧ v ∉ t.hbm.visits) ∧
  (∀ (s : State) (h p : Nat), ((List.range 32).find? fun p => decide (s.fget F.HBC_PC.state h p = 4)) = some p → tabFind s.hbm.round h = none →
    goesTo (exec (.hbmTrainDone h) s) fun t => t.fget F.HBC_PC.state h p = 1) ∧
  (∀ (s : State) (b j : Nat), goesTo (exec (.hbmReadError b j false) s) fun t => countedUp s t F.HBC_SCNT.count (blockStack b) 4 1) ∧
  (∀ (s : State) (b j : Nat), goesTo (exec (.hbmReadError b j true) s) fun t =>
    ∃ e ∈ t.hbm.repairing, e.1 = pcUnit (blockStack b) (s.lineHome b j).2.1) ∧
  (∀ (s : State) (u k : Nat), (s.hbm.repairing.find? fun e => decide (e.1 = u)) = some (u, k) → tabGet 0 s.hbm.repairs (k / 16384) < 14 →
    goesTo (exec (.hbmRowRepairDone u) s) fun t =>
      countedUp s t F.HBC_SCNT.count ((u - 0x900) / 32) 6 1 ∧ (u, k) ∉ t.hbm.repairing) ∧
  (∀ (s : State) (u : Nat), s.fget F.HBC_PC.state ((u - 0x900) / 32) ((u - 0x900) % 32) = 5 →
    (∀ e ∈ s.queues, ∀ b ∈ e.2.blocks,
      ¬(blockStack b = (u - 0x900) / 32 ∧ blockLogical b = s.fget F.HBC_PC.logical ((u - 0x900) / 32) ((u - 0x900) % 32))) →
    goesTo (exec (.hbmPcDrained u) s) fun t => t.fget F.HBC_PC.state ((u - 0x900) / 32) ((u - 0x900) % 32) = 3)

/-- R361, R363, R364, R366. EDIT_INSERT, EDIT_DELETE, EDIT_REPLACE, EDIT_COPY, EDIT_PUSH_TAG and EDIT_POP_TAG.
Model's own readings in it: log entries 46, 48. -/
def Obligations.EditsInsertAndDelete : Prop :=
  ∀ (s : State) (c e : Nat) (r : Edit), (s.eng c e).run = some r → r.ended = false → (s.eng c e).stalledAt = none → (s.eng c e).due = 0 →
    s.libraryIn r.bank = true → (∀ k, (c, k) ∉ s.rwFenced) →
    editReserved r = false → baseAbsent r (bits (editWord r) 27 25) = false → r.head.length ≤ r.orig + 128 →
    let w := editWord r
    let o := baseVal r (bits w 27 25) + bits w 24 17
    r.p ≤ o → s.moverStalls r o = false →
    let gave : Nat → List Byte → (Edit → Prop) → State → Prop := fun d head more t =>
      ∃ x, (t.eng c e).run = some x ∧ x.head = head ∧ x.p = o ∧ x.word = r.word + 1 + d ∧ more x
    let data := fun (n : Nat) => if bits w 10 9 = 1 then (n + 3) / 4 else 0
    let n := bits w 16 11 + 1
    (editOp r = 0x01 → o ≤ r.head.length → r.head.length + n ≤ r.orig + 128 → r.word + data n ≤ 15 →
      goesTo (exec (.editInsert c e) s) (gave (data n) (r.head.take o ++ srcBytes r n ++ r.head.drop o) fun x =>
        x.l3 = (if o < r.l3 then r.l3 + n else r.l3) ∧ x.l4 = (if o < r.l4 then r.l4 + n else r.l4) ∧
        x.l5 = if o < r.l5 then r.l5 + n else r.l5)) ∧
    (editOp r = 0x02 → o + (bits w 16 9 + 1) ≤ r.head.length →
      goesTo (exec (.editDelete c e) s) (gave 0 (r.head.take o ++ r.head.drop (o + (bits w 16 9 + 1))) fun x =>
        x.l3 = if o + (bits w 16 9 + 1) ≤ r.l3 then r.l3 - (bits w 16 9 + 1) else if o < r.l3 then o else r.l3)) ∧
    (editOp r = 0x03 → o + n ≤ r.head.length → r.word + data n ≤ 15 →
      goesTo (exec (.editReplace c e) s) (gave (data n) (r.head.take o ++ srcBytes r n ++ r.head.drop (o + n)) fun x => x.l3 = r.l3)) ∧
    (editOp r = 0x05 → o + n ≤ r.head.length → r.word + 1 ≤ 15 →
      let dw := dataWord r 0
      let from_ := (if bits dw 27 25 = 4 then o else baseVal r (bits dw 27 25)) + bits dw 24 17
      baseAbsent r (bits dw 27 25) = false → from_ + n ≤ r.head.length →
      goesTo (exec (.editCopy c e) s) (gave 1 (r.head.take o ++ (r.head.drop from_).take n ++ r.head.drop (o + n)) fun x => x.l3 = r.l3)) ∧
    (editOp r = 0x08 → bits w 16 15 ≠ 3 → bits w 14 13 = 0 → bit w 12 = false → o ≤ r.head.length → r.head.length + 4 ≤ r.orig + 128 →
      goesTo (exec (.editPushTag c e) s) (gave 0 (r.head.take o ++ bytesBE 2 (if bits w 16 15 = 0 then 0x8100 else if bits w 16 15 = 1 then 0x88A8 else 0x9100) ++
          bytesBE 2 (r.copy.md % 65536) ++ r.head.drop o) fun _ => True)) ∧
    (editOp r = 0x09 → o + 4 ≤ r.head.length →
      goesTo (exec (.editPopTag c e) s) (gave 0 (if editTpid (headNum r o 2) then r.head.take o ++ r.head.drop (o + 4) else r.head) fun _ => True))

/-- R361, R363, R366. EDIT_SET, EDIT_CSUM, EDIT_SET_PCP, EDIT_TTL and EDIT_SET_DSCP. Model's own readings in it: log entries 46, 48. -/
def Obligations.EditsChangeFields : Prop :=
  ∀ (s : State) (c e : Nat) (r : Edit), (s.eng c e).run = some r → r.ended = false → (s.eng c e).stalledAt = none → (s.eng c e).due = 0 →
    s.libraryIn r.bank = true → (∀ k, (c, k) ∉ s.rwFenced) →
    editReserved r = false → r.head.length ≤ r.orig + 128 →
    let w := editWord r
    let o := baseVal r (bits w 27 25) + bits w 24 17
    let based := baseAbsent r (bits w 27 25) = false ∧ r.p ≤ o ∧ s.moverStalls r o = false
    let reach := fun (n : Nat) => r.p ≤ n ∧ s.moverStalls r n = false
    let gave : Nat → (Edit → Prop) → State → Prop := fun d more t =>
      ∃ x, (t.eng c e).run = some x ∧ x.head.length = r.head.length ∧ x.word = r.word + 1 + d ∧ more x
    let only : Edit → Nat → Nat → Prop := fun x a n => ∀ i, (i < a ∨ a + n ≤ i) → x.head[i]? = r.head[i]?
    (editOp r = 0x04 → based →
      let wd := bits w 16 12 + 1
      let b := bits w 11 9
      let nb := (b + wd + 7) / 8
      let d := if bits w 8 7 = 1 then 1 else 0
      let v := match bits w 8 7 with | 0 => r.copy.md | 1 => dataWord r 0 | 2 => r.copy.cls | _ => r.copy.colour
      o + nb ≤ r.head.length → r.word + d ≤ 15 →
      goesTo (exec (.editSet c e) s) (gave d fun x =>
        only x o nb ∧ headNum x o nb / 2 ^ (8 * nb - b - wd) % 2 ^ wd = v % 2 ^ wd ∧
        headNum x o nb % 2 ^ (8 * nb - b - wd) = headNum r o nb % 2 ^ (8 * nb - b - wd) ∧
        headNum x o nb / 2 ^ (8 * nb - b) = headNum r o nb / 2 ^ (8 * nb - b))) ∧
    (editOp r = 0x06 → based → o + 2 ≤ r.head.length → bits w 16 15 = 1 →
      goesTo (exec (.editCsum c e) s) (gave 0 fun x => headNum x o 2 = 0 ∧ only x o 2)) ∧
    (editOp r = 0x06 → based → o + 2 ≤ r.head.length → bits w 16 15 = 0 → r.l3 ≠ 0 →
      let ihl := headNum r r.l3 1 % 16
      r.l3 + 1 ≤ r.head.length → r.l3 + 4 * ihl ≤ r.head.length → 3 + (ihl + 1) / 2 ≤ max 8 (s.fget F.RWE_CFG.instr_max) →
      goesTo (exec (.editCsum c e) s) (gave 0 fun x => headNum x o 2 = ipChecksum r ∧ only x o 2)) ∧
    (editOp r = 0x0A → based → o + 4 ≤ r.head.length → r.word + (if bit w 16 then 1 else 0) ≤ 15 → r.copy.cls < 8 →
      goesTo (exec (.editSetPcp c e) s) (gave (if bit w 16 then 1 else 0) fun x =>
        only x (o + 2) 1 ∧
        (editTpid (headNum r o 2) = true → headNum x (o + 2) 1 / 32 =
          if bit w 16 then bits (dataWord r 0) (3 * r.copy.cls + 2) (3 * r.copy.cls) else r.copy.cls) ∧
        (editTpid (headNum r o 2) = false → x.head = r.head))) ∧
    (editOp r = 0x07 → isV4 r = true → reach (r.l3 + 8) → r.l3 + 12 ≤ r.head.length → headNum r (r.l3 + 8) 1 ≠ 0 →
      goesTo (exec (.editTtl c e) s) (gave 0 fun x =>
        headNum x (r.l3 + 8) 1 = headNum r (r.l3 + 8) 1 - 1 ∧ headNum x (r.l3 + 9) 1 = headNum r (r.l3 + 9) 1 ∧
        headNum x (r.l3 + 10) 2 = onesAdd (headNum r (r.l3 + 10) 2) 0x0100 ∧ only x (r.l3 + 8) 4)) ∧
    (editOp r = 0x07 → isV4 r = true → reach (r.l3 + 8) → r.l3 + 12 ≤ r.head.length → headNum r (r.l3 + 8) 1 = 0 →
      goesTo (exec (.editTtl c e) s) (gave 0 fun x => x.head = r.head)) ∧
    (editOp r = 0x07 → isV4 r = false → isV6 r = true → reach (r.l3 + 7) → r.l3 + 8 ≤ r.head.length →
      goesTo (exec (.editTtl c e) s) (gave 0 fun x => headNum x (r.l3 + 7) 1 = headNum r (r.l3 + 7) 1 - 1 ∧ only x (r.l3 + 7) 1)) ∧
    (editOp r = 0x0B → isV4 r = true → reach (r.l3 + 1) → r.l3 + 12 ≤ r.head.length →
      goesTo (exec (.editSetDscp c e) s) (gave 0 fun x =>
        headNum x (r.l3 + 1) 1 = bits w 16 11 * 4 + headNum r (r.l3 + 1) 1 % 4 ∧
        ∀ i, i ≠ r.l3 + 1 → i ≠ r.l3 + 10 → i ≠ r.l3 + 11 → x.head[i]? = r.head[i]?)) ∧
    (editOp r = 0x0B → isV4 r = false → isV6 r = true → reach r.l3 → r.l3 + 2 ≤ r.head.length →
      goesTo (exec (.editSetDscp c e) s) (gave 0 fun x => headNum x r.l3 2 / 64 % 64 = bits w 16 11 ∧ only x r.l3 2))

/-- R361, R362, R365, R366, R371, R378, R498. EDIT_PTP_CF, EDIT_PTP_TS, EDIT_NOP, OWNER_OPCODE; and the reserved words of R361 and R362, whose end as a
program error is the model's choice (log entry 47). Model's own readings in it: log entries 46, 47, 48. -/
def Obligations.EditsForTheMacAndTheOwner : Prop :=
  ∀ (s : State) (c e : Nat) (r : Edit), (s.eng c e).run = some r → r.ended = false → (s.eng c e).stalledAt = none → (s.eng c e).due = 0 →
    (∀ k, (c, k) ∉ s.rwFenced) →
    let w := editWord r
    let o := baseVal r (bits w 27 25) + bits w 24 17
    let kind := bits w 16 15
    let plain := s.libraryIn r.bank = true ∧ editReserved r = false ∧ r.head.length ≤ r.orig + 128
    let first := if kind = 1 then min (r.l4 + 6) (r.l5 + 8) else r.l5 + 8
    let ran : Ran → State → Prop := fun x t => ∃ d, (t.eng c e).run = some { x.edit with drained := d }
    let dropped : State → Prop := fun t =>
      (t.eng c e).run = none ∧ t.flag F.RWE_ERR.prog_err c = true ∧ countedUp s t F.RWE_CNT.count c 2 1
    (plain → editOp r = 0x0C → r.l5 ≠ 0 → (kind ≠ 0 → r.l4 ≠ 0 ∧ r.l4 + 8 ≤ r.head.length) → r.p ≤ first → s.moverStalls r first = false →
      r.l5 + 16 ≤ r.head.length →
      goesTo (exec (.editPtpCf c e) s) fun t => ∃ x, (t.eng c e).run = some x ∧ x.mac = r.mac ++ [.cf kind (r.l5 + 8) r.l4] ∧
        x.word = r.word + 1 ∧ x.head.length = r.head.length) ∧
    (plain → editOp r = 0x0D → baseAbsent r (bits w 27 25) = false → r.p ≤ o → (bit w 16 = false → o + 10 ≤ r.head.length) →
      (s.moverStalls r o = false → goesTo (exec (.editPtpTs c e) s) fun t => ∃ x, (t.eng c e).run = some x ∧
        x.mac = r.mac ++ [.ts (bit w 16) o] ∧ x.word = r.word + 1 ∧ x.head = r.head) ∧
      (s.moverStalls r o = true → goesTo (exec (.editPtpTs c e) s) fun t => (t.eng c e).stalledAt = some s.time.cycles ∧
        ∃ x, (t.eng c e).run = some x ∧ x.word = r.word ∧ x.head = r.head ∧ x.mac = r.mac)) ∧
    (plain → editOp r = 0x0E → s.moverStalls r r.p = false →
      goesTo (exec (.editNop c e) s) fun t => ∃ x, (t.eng c e).run = some x ∧ x.word = r.word + 1 ∧ x.head = r.head ∧ x.p = r.p) ∧
    (s.libraryIn r.bank = false → editOp r = 0x0E → (s.runEntry c 0x0E r).code = 0 → s.moverStalls r (s.runEntry c 0x0E r).edit.p = false →
      goesTo (exec (.editNop c e) s) (ran (s.runEntry c 0x0E r))) ∧
    (0x80 ≤ editOp r → (s.runOwner c r).code = 0 → s.moverStalls r (s.runOwner c r).edit.p = false →
      goesTo (exec (.ownerOpcode c e) s) (ran (s.runOwner c r))) ∧
    (s.libraryIn r.bank = true → editReserved r = true → baseAbsent r (bits w 27 25) = false → s.moverStalls r r.p = false →
      (editOp r = 0x01 → goesTo (exec (.editInsert c e) s) dropped) ∧ (editOp r = 0x02 → goesTo (exec (.editDelete c e) s) dropped) ∧
      (editOp r = 0x03 → goesTo (exec (.editReplace c e) s) dropped) ∧ (editOp r = 0x04 → goesTo (exec (.editSet c e) s) dropped) ∧
      (editOp r = 0x05 → goesTo (exec (.editCopy c e) s) dropped) ∧ (editOp r = 0x06 → goesTo (exec (.editCsum c e) s) dropped) ∧
      (editOp r = 0x08 → goesTo (exec (.editPushTag c e) s) dropped) ∧ (editOp r = 0x09 → goesTo (exec (.editPopTag c e) s) dropped) ∧
      (editOp r = 0x0A → goesTo (exec (.editSetPcp c e) s) dropped) ∧ (editOp r = 0x0C → goesTo (exec (.editPtpCf c e) s) dropped) ∧
      (editOp r = 0x0D → goesTo (exec (.editPtpTs c e) s) dropped)) ∧
    (0x0F ≤ editOp r → editOp r < 0x80 → goesTo (exec (.editEnd c e) s) dropped)

/-- R353–R356, R363, R365. REWRITE_DISPATCH, CLASS7_REDISPATCH, REWRITE_START, EDIT_END and MOVER_STALL_END.
Model's own readings in it: log entries 48, 49. -/
def Obligations.EnginesTakeCopiesAndHandThemOver : Prop :=
  let handed : State → State → Nat → Nat → Edit → Prop := fun s t c e r =>
    (t.eng c e).run = none ∧ (t.eng c e).stalledAt = none ∧
    let x : TxCopy := { copy := r.copy, head := r.head, orig := r.orig, mac := r.mac }
    if r.copy.qclass = 7 then (t.port r.copy.port).fifo7 = (s.port r.copy.port).fifo7 ++ [x]
    else (t.port r.copy.port).fifoG = (s.port r.copy.port).fifoG ++ [x]
  (∀ (s : State) (c e : Nat) (x : Copy), ((tabGet {} s.clusters c).input.find? fun y => decide (y.qclass = 7)) = some x →
    s.engine7 c = some e →
    goesTo (exec (.rewriteDispatch c) s) fun t =>
      (t.eng c e).wait7 = some x ∧ (tabGet {} t.clusters c).input = (tabGet {} s.clusters c).input.filter (fun y => y.id ≠ x.id)) ∧
  (∀ (s : State) (c e : Nat) (x : Copy) (l : List Copy), (tabGet {} s.clusters c).input = x :: l → (∀ y ∈ x :: l, y.qclass ≠ 7) →
    s.engineG c = some e →
    goesTo (exec (.rewriteDispatch c) s) fun t =>
      (t.eng c e).wait = some x ∧ (tabGet {} t.clusters c).input = (tabGet {} s.clusters c).input.filter (fun y => y.id ≠ x.id)) ∧
  (∀ (s : State) (c e d at_ : Nat) (x : Copy), (s.eng c e).wait7 = some x → x.qclass = 7 → (s.eng c e).stalledAt = some at_ →
    s.engine7 c = some d →
    goesTo (exec (.class7Redispatch c e) s) fun t => (t.eng c d).wait7 = some x ∧ (t.eng c e).wait7 = none) ∧
  (∀ (s : State) (c e : Nat) (x : Copy), (s.eng c e).run = none → (s.eng c e).due = 0 →
    ((s.eng c e).wait7 = some x ∨ ((s.eng c e).wait7 = none ∧ (s.eng c e).wait = some x)) →
    goesTo (exec (.rewriteStart c e) s) fun t =>
      ∃ r, (t.eng c e).run = some r ∧ r.copy.id = x.id ∧ r.p = 0 ∧ r.word = 0 ∧ r.ended = false ∧
        r.head = s.bufBytes x.handle 0 (min 256 (s.copyLen x - 4))) ∧
  (∀ (s : State) (c e : Nat) (r : Edit), (s.eng c e).run = some r → r.ended = false → editOp r = 0 → (s.eng c e).due = 0 →
    (s.eng c e).stalledAt = none → s.fget F.RWE_ENG.state c e ≠ 2 → (∀ k, (c, k) ∉ s.rwFenced) →
    (s.mayEnter r = true → goesTo (exec (.editEnd c e) s) fun t => handed s t c e r) ∧
    (s.mayEnter r = false → goesTo (exec (.editEnd c e) s) fun t =>
      (t.eng c e).stalledAt = some s.time.cycles ∧ ∃ x, (t.eng c e).run = some x ∧ x.ended = true ∧ x.head = r.head)) ∧
  (∀ (s : State) (c e : Nat) (r : Edit), (s.eng c e).run = some r → r.ended = true → (s.eng c e).due = 0 → s.fget F.RWE_ENG.state c e ≠ 2 →
    s.mayEnter r = true → goesTo (exec (.moverStallEnd c e) s) fun t => handed s t c e r) ∧
  (∀ (s : State) (c e at_ : Nat) (r : Edit), (s.eng c e).run = some r → r.ended = false → (s.eng c e).stalledAt = some at_ →
    s.moverStalls r r.waits = false → goesTo (exec (.moverStallEnd c e) s) fun t =>
      (t.eng c e).stalledAt = none ∧ ∃ x, (t.eng c e).run = some x ∧ x.word = r.word ∧ x.head = r.head)

/-- R357, R379–R382. ENGINE_LOGIC_FAULT, STALL_MAX_EXPIRY, ENGINE_SLOW_ADVISORY and CONTROL_STORE_REPAIR_DONE.
Model's own readings in it: log entries 49, 63. -/
def Obligations.EngineFaultsAndRepairs : Prop :=
  (∀ (s : State) (c e : Nat) (r : Edit), s.fget F.RWE_ENG.state c e ≠ 3 → (s.eng c e).run = some r →
    goesTo (exec (.engineLogicFault c e) s) fun t => (t.eng c e).due = 1 ∧ t.flag F.RWE_ERR.engine c = true) ∧
  (∀ (s : State) (c e : Nat), s.fget F.RWE_ENG.state c e ≠ 3 → (s.eng c e).run = none → s.autoKind 2 = false →
    goesTo (exec (.engineLogicFault c e) s) fun t => t.fget F.RWE_ENG.state c e = 3) ∧
  (∀ (s : State) (c e at_ : Nat) (r : Edit), (s.eng c e).stalledAt = some at_ → (s.eng c e).due = 2 → s.fget F.RWE_ENG.state c e = 0 →
    (s.eng c e).run = some r →
    goesTo (exec (.stallMaxExpiry c e) s) fun t => t.fget F.RWE_ENG.state c e = 2) ∧
  (∀ (s : State) (c e : Nat), s.flag F.RWE_ENG.slow c e = true → s.fget F.RWE_ENG.state c e = 0 →
    mergeInto s.flt.recs (engUnit c e) = none → s.slowToldOf (engUnit c e) = false →
    goesTo (exec (.engineSlowAdvisory c e) s) fun t => countedUp s t F.FLT_CNT.count 0 3 1) ∧
  (∀ (s : State) (c d space bank scope word : Nat), s.wordFenced c (storeKey space bank scope word) = true → d < 32 → d ≠ c →
    s.wordFenced d (storeKey space bank scope word) = false →
    goesTo (exec (.controlStoreRepairDone c space bank scope word) s) fun t => t.wordFenced c (storeKey space bank scope word) = false)

/-- R329, R335, R338, R341, R342, R344, R356. SHAPER_REFILL_TICK, SCHED_SELECT and GATE_ENTRY_CHANGE.
Model's own readings in it: log entries 35, 44. -/
def Obligations.ShapersGatesAndSelection : Prop :=
  (∀ s : State, goesTo (exec .shaperRefillTick s) fun t => ∀ n, n ∈ s.shapers → s.shRate n ≠ 0 →
    tabGet 0 t.rates n = s.shRate n ∧ t.credit n = min ((s.shBurst n : Int) * 64 * 400) (s.credit n + s.shRate n)) ∧
  (∀ (s : State) (n : Nat) (q : Queue) (c : Copy), s.serving (n / 128) = true → s.queues = [(n, q)] → q.head = [c] → q.pend = [] → q.deep = [] →
    c.port = n / 128 → c.set = n / 8 % 16 → c.qclass = n % 8 → s.copyWhole c = true → s.neverFits c = false → s.headEligible c = true →
    (s.port c.port).remainder = none → s.dhState c.port 2 = false → s.fifoRoom c.port c.qclass = true → s.noneWaits c.port c.qclass = true →
    (c.qclass ≠ 7 → s.shAllows (shPort c.port) = true ∧ s.shAllows (shSet c.port c.set) = true) →
    goesTo (exec (.schedSelect c.port) s) fun t =>
      (t.queue n).head = [] ∧ (∃ x ∈ (tabGet {} t.clusters (c.port / 8)).input, x.id = c.id) ∧
      if c.qclass = 7 then (t.port c.port).order7 = (s.port c.port).order7 ++ [c.id]
      else (t.port c.port).orderG = (s.port c.port).orderG ++ [c.id]) ∧
  (∀ (s : State) (p d : Nat) (x : TxCopy), s.wireCuttable p = some x →
    ((s.portHold p s.time.now = true ∧ s.cutPoint p x s.time.now true = some d) ∨
      (s.holdRule x.copy = true ∧ s.gateOpen p x.copy.tag x.copy.qclass s.time.now = false ∧ s.cutPoint p x s.time.now false = some d)) →
    goesTo (exec (.gateEntryChange p) s) fun t =>
      countedUp s t F.MAC_CNT.count p 18 1 ∧ countedUp s t F.SCH_CNT.count (x.copy.port * 16 + x.copy.set) 5 1) ∧
  (∀ (s : State) (p : Nat) (x : TxCopy), (s.port p).wire = none → (s.port p).remainder = some x → (s.port p).fifo7 = [] →
    (s.port p).ctlWait = [] → s.portState p = pUp → s.flag F.MAC_STATUS.rem_fault p = false →
    let at_ := max s.time.now ((s.port p).lastEnd + s.wireTime p 12)
    s.mayResume p x at_ = true →
    goesTo (exec (.gateEntryChange p) s) fun t =>
      (t.port p).wire = some { x with start := at_ } ∧ (t.port p).remainder = none)

/-- R270, R272, R273, R275–R277. BPM_ALLOC, BPM_RETAIN, BPM_RELEASE, BPM_FREE, BPM_GIVE, BPM_RECLAIM and BPM_LEAVE.
Model's own readings in it: log entry 41. -/
def Obligations.BufferOperationsAnswer : Prop :=
  (∀ (s : State) (u pool h : Nat), s.pickBuf pool = some h → s.poolExists pool = true →
    (pool < 4 → (s.admitPart s.tagNow (s.unitPart u) (poolCharge pool)).isSome = true) → (4 ≤ pool → s.poolPart pool = s.unitPart u) →
    goesTo (exec (.bpmAlloc u pool) s) fun t =>
      t.bpmReply = (0, h) ∧ ∃ b, t.buf h = some b ∧ b.count = 1 ∧ b.tag = u ∧ b.part = s.unitPart u ∧ b.quar = false) ∧
  (∀ (s : State) (u pool : Nat), s.pickBuf pool = none → goesTo (exec (.bpmAlloc u pool) s) fun t => t.bpmReply = (1, 0) ∧ t.bufs = s.bufs) ∧
  (∀ (s : State) (u h : Nat) (b : Buf), s.handleOk h = true → s.buf h = some b → (b.part = s.unitPart u ∨ s.unitPart u = 16) →
    (∀ n, b.quar = false → b.count + n ≤ 16383 → goesTo (exec (.bpmRetain u h n) s) fun t =>
      t.bpmReply = (0, h) ∧ t.buf h = some { b with count := b.count + n }) ∧
    (b.count ≠ 1 → goesTo (exec (.bpmRelease u h) s) fun t => t.bpmReply = (0, h) ∧ t.buf h = some { b with count := b.count - 1 }) ∧
    (b.count = 1 → goesTo (exec (.bpmRelease u h) s) fun t => t.bpmReply = (8, h) ∧ t.buf h = some { b with quar := true }) ∧
    (b.quar = false → b.count = 1 → b.tag = u → goesTo (exec (.bpmFree u h) s) fun t => t.bpmReply = (0, h) ∧ t.buf h = none) ∧
    (∀ v, b.quar = false → b.tag = u → (s.unitPart v = b.part ∨ s.unitPart v = 16) →
      goesTo (exec (.bpmGive u h v) s) fun t => t.bpmReply = (0, h) ∧ t.buf h = some { b with tag := v }) ∧
    (b.quar = true → b.count = 1 → goesTo (exec (.bpmReclaim u h) s) fun t => t.bpmReply = (0, h) ∧ t.buf h = none)) ∧
  (∀ (s : State) (p h : Nat) (b : Buf), s.handleOk h = true → s.buf h = some b →
    (1 < b.count → goesTo (exec (.bpmLeave p h) s) fun t => t.bpmReply = (0, h) ∧ t.buf h = some { b with count := b.count - 1 }) ∧
    (b.count ≤ 1 → b.quar = false → goesTo (exec (.bpmLeave p h) s) fun t => t.bpmReply = (0, h) ∧ t.buf h = none))

/-- R178, R181, R183, R288, R292, R308, R314, R319, R377. Model's own readings in it: log entry 17. -/
def Obligations.MemoryBlocksObeyTheirRegisters : Prop :=
  (∀ (s : State) (f : Func) (p g v : Nat), opensPart s f .PRS_ADMIT p g →
    goesTo (exec (.prsAdmitWrite f p g v) s) fun t =>
      t.rd .PRS_ADMIT p g = maskWrite .PRS_ADMIT (s.rd .PRS_ADMIT p g) (BitVec.ofNat 72 (v % 2 ^ 36)) ∧
      tabFind t.buckets (2 ^ 24 + g * 32 + p) = none) ∧
  (∀ (s : State) (f : Func) (p n v : Nat), opensPart s f .PRS_PUNT p (n - 1) →
    goesTo (exec (.prsPuntWrite f p n v) s) fun t =>
      t.rd .PRS_PUNT p (n - 1) = maskWrite .PRS_PUNT (s.rd .PRS_PUNT p (n - 1)) (BitVec.ofNat 72 (v % 2 ^ 36)) ∧
      tabFind t.buckets (2 ^ 25 + p * 8 + (n - 1) + 1) = none) ∧
  (∀ (s : State) (f : Func) (v c sc ty k : Nat), opens s f .PRS_IND_DATA 0 c → s.prsInd f = some (4, sc, ty, k) → v.testBit 0 = true →
    goesTo (exec (.filterUnblock f v) s) fun t => tabGet 0 t.blocked k = 0) ∧
  (∀ (s : State) (f : Func) (i c : Nat), opens s f .SWC_WATCH_CMD 0 c → bits (s.rd .SWC_WATCH0 f.idx).toNat 30 26 < 17 →
    goesTo (exec (.swcWatchWrite f i) s) fun t =>
      tabGet (0, 0) t.watch (i % 4096) = ((s.rd .SWC_WATCH0 f.idx).toNat, (s.rd .SWC_WATCH1 f.idx).toNat) ∧
      t.fget F.SWC_WATCH_CMD.result f.idx = 0) ∧
  (∀ (s : State) (f : Func) (i c : Nat), opens s f .SWC_WATCH_CMD 0 c →
    goesTo (exec (.swcWatchRead f i) s) fun t =>
      t.rd .SWC_WATCH0 f.idx = BitVec.ofNat 72 (tabGet (0, 0) s.watch (i % 4096)).1 ∧
      t.rd .SWC_WATCH1 f.idx = BitVec.ofNat 72 (tabGet (0, 0) s.watch (i % 4096)).2 ∧ t.fget F.SWC_WATCH_CMD.result f.idx = 0) ∧
  (∀ (s : State) (f : Func) (h c : Nat), opens s f .BPM_INSPECT 0 c → f.part = 16 →
    goesTo (exec (.bpmInspectWrite f h) s) fun t =>
      t.rd .BPM_OPRES f.idx = BitVec.ofNat 72 (2 ^ 35 + if s.handleOk (h % 2 ^ 36) then 0 else 2) ∧ t.bufs = s.bufs) ∧
  (∀ (s : State) (f : Func) (h c : Nat) (b : Buf), opens s f .BPM_RECLAIM 0 c → f.part = 16 → s.handleOk (h % 2 ^ 36) = true →
    s.buf (h % 2 ^ 36) = some b → b.quar = true → b.count = 1 →
    goesTo (exec (.bpmReclaimWrite f h) s) fun t => t.rd .BPM_OPRES f.idx = BitVec.ofNat 72 (2 ^ 35) ∧ t.buf (h % 2 ^ 36) = none) ∧
  (∀ (s : State) (f : Func) (h : Nat), opens s f .HBC_CTL 0 h → s.fget F.HBC_STACK.state h = 1 →
    goesTo (exec (.hbcClose f) s) fun t => t.fget F.HBC_STACK.state h = 2) ∧
  (∀ (s : State) (f : Func) (h : Nat), opens s f .HBC_CTL 0 h → s.fget F.HBC_STACK.state h = 2 →
    goesTo (exec (.hbcOpen f) s) fun t => t.fget F.HBC_STACK.state h = 1) ∧
  (∀ (s : State) (f : Func) (h p b : Nat), opens s f .HBC_CTL 0 h → s.fget F.HBC_PC.state h (p % 32) = 0 → s.hbmCopying h = false →
    s.benchPc h = some b → goesTo (exec (.hbcRetrain f p) s) fun t => t.fget F.HBC_PC.state h b = 2) ∧
  (∀ (s : State) (f : Func) (i v h : Nat), opens s f .HBC_BMASK i h →
    goesTo (exec (.hbcBmaskWrite f i v) s) fun t =>
      if s.stackUsed h then t.rd .HBC_BMASK h i = s.rd .HBC_BMASK h i ∧ t.flag F.HBC_STACK.mask_err h = true
      else t.rd .HBC_BMASK h i = maskWrite .HBC_BMASK (s.rd .HBC_BMASK h i) (BitVec.ofNat 72 (v % 2 ^ 36))) ∧
  (∀ (s : State) (f : Func) (v c sp sc k n : Nat), f.part = 16 → opens s f .RWE_IND_DATA 0 c → s.rweInd f = some (sp, sc, k, n) → sp ≠ 2 →
    s.rwlOpen sc = true → s.latchedBy sp sc (s.shadowOf sc) = none →
    goesTo (exec (.rweIndWrite f v) s) fun t =>
      tabGet 0 (t.plane sc (s.shadowOf sc)).words (11 * 2 ^ 28 + k) = BitVec.ofNat 36 v)

/-- R211, R212, R217, R247, R248. TBL_INSERT to READ_UNIT, and TCM_INVALIDATE to TCM_HIT_CLEAR. Model's own readings in it: log entry 39. -/
def Obligations.TableCommandsAreIssued : Prop :=
  (∀ (s : State) (f : Func) (c cmd : Nat), opens s f .TBL_CMD 0 c →
    let issued : Nat → State → Prop := fun op t =>
      (s.issuerBusy (.fn f) false = false → s.power.entering = false →
        t.flag F.TBL_RESULT.done f.idx = false ∧
          ∃ r, t.tbl.waiting = s.tbl.waiting ++ [r] ∧ r.tcm = false ∧ r.op = op ∧ r.issuer = .fn f ∧
            r.part = (if f.part < 16 then f.part else bits cmd 25 21) ∧ r.notify = cmd.testBit 31 ∧ r.seq = (s.nextSeq (.fn f) false).1) ∧
      (s.issuerBusy (.fn f) false = true →
        t.flag F.TBL_RESULT.done f.idx = true ∧ t.fget F.TBL_RESULT.status f.idx = 1 ∧ t.tbl.waiting = s.tbl.waiting)
    goesTo (exec (.tblInsert f cmd) s) (issued 1) ∧ goesTo (exec (.tblDelete f cmd) s) (issued 2) ∧
    goesTo (exec (.tblUpdate f cmd) s) (issued 3) ∧ goesTo (exec (.tblRead f cmd) s) (issued 4) ∧
    goesTo (exec (.pfxInsert f cmd) s) (issued 5) ∧ goesTo (exec (.pfxDelete f cmd) s) (issued 6) ∧
    goesTo (exec (.pfxRead f cmd) s) (issued 7) ∧ goesTo (exec (.writeUnit f cmd) s) (issued 8) ∧
    goesTo (exec (.readUnit f cmd) s) (issued 9)) ∧
  (∀ (s : State) (f : Func) (c e : Nat) (n : Bool), opens s f .TCM_CMD 0 c →
    let issued : Nat → State → Prop := fun op t =>
      (s.issuerBusy (.fn f) true = false → s.power.entering = false →
        t.flag F.TCM_RESULT.done f.idx = false ∧
          ∃ r, t.tbl.waiting = s.tbl.waiting ++ [r] ∧ r.tcm = true ∧ r.op = op ∧ r.issuer = .fn f ∧
            r.bank = s.fget F.TCM_SEL.index f.idx % 64 ∧ r.entry = e % 1024 ∧ r.notify = n) ∧
      (s.issuerBusy (.fn f) true = true →
        t.flag F.TCM_RESULT.done f.idx = true ∧ t.fget F.TCM_RESULT.status f.idx = 1 ∧ t.tbl.waiting = s.tbl.waiting)
    goesTo (exec (.tcmInvalidate f e n) s) (issued 1) ∧ goesTo (exec (.tcmWrite f e n) s) (issued 2) ∧
    goesTo (exec (.tcmValidate f e n) s) (issued 3) ∧ goesTo (exec (.tcmSetAction f e n) s) (issued 4) ∧
    goesTo (exec (.tcmRead f e n) s) (issued 5) ∧ goesTo (exec (.tcmHitRead f e n) s) (issued 6) ∧
    goesTo (exec (.tcmHitClear f e n) s) (issued 7))

/-- R213, R217, R249, R250. TBL_ACCEPT, TBL_COMMIT and TCM_COMMIT. Model's own readings in it: log entry 38. -/
def Obligations.TableEngineAcceptsAndCommits : Prop :=
  (∀ (s : State) (r : TblReq), s.repairsWait = false → s.tbl.met = [] → s.nextPlan = some r → r.issuer ≠ .ager →
    let u : State := { s with tbl := { s.tbl with waiting := dropFirst r s.tbl.waiting, agerTurn := min 7 (s.tbl.agerTurn + 1) } }
    let o := if r.tcm then u.planTcm r else (u.wakeRegion r.part r.kind).planTbl r
    o.status = 0 →
    goesTo (exec .tblAccept s) fun t => t.tbl.waiting = dropFirst r s.tbl.waiting ∧ t.tbl.ops = s.tbl.ops ++ [o]) ∧
  (∀ s : State, s.repairsWait = true → goesTo (exec .tblAccept s) fun t => t = s) ∧
  (∀ (s : State) (o : TblOp) (l : List TblOp), s.tbl.ops = o :: l → o.req.tcm = false →
    goesTo (exec .tblCommit s) fun t =>
      t.tbl.ops = l ∧ t.tbl.units = applyWrites s.tbl.units o.writes ∧
      ∀ f, o.req.issuer = .fn f →
        t.rd .TBL_RESULT f.idx = BitVec.ofNat 72 (2 ^ 35 + o.req.seq * 2 ^ 23 + o.moves * 2 ^ 13)) ∧
  (∀ (s : State) (o : TblOp) (l : List TblOp), s.tbl.ops = o :: l → o.req.tcm = true →
    let h := s.headerNow o.req.bank
    (o.req.op = 2 → o.req.val.length = 4 * widthUnits (bits h 33 32) ∧ o.req.care.length = if bit h 34 then 4 * widthUnits (bits h 33 32) else 0) →
    goesTo (exec .tcmCommit s) fun t =>
      t.tbl.ops = l ∧ t.tcmEntry o.req.bank o.req.entry = tcmApply o.req (s.tcmEntry o.req.bank o.req.entry) ∧ t.tbl.units = s.tbl.units)

/-- R221, R223, R224. LEARN_DELIVER and AGER_VISIT. Model's own readings in it: log entry 38. -/
def Obligations.LearningAndAgeing : Prop :=
  (∀ (s : State) (p : Nat) (r : Record) (l : List (Nat × Record)), s.learned = (p, r) :: l →
    goesTo (exec .learnDeliver s) fun t =>
      t.learned = l ∧ (s.fget F.TBL_LEARN.sink p = 0 → t.regs = s.regs ∧ t.events = s.events) ∧
      (s.fget F.TBL_LEARN.sink p = 2 → (tabGet [] s.events (p * 16 + s.fget F.TBL_LEARN.queue p)).length < 256 →
        tabGet [] t.events (p * 16 + s.fget F.TBL_LEARN.queue p) =
          tabGet [] s.events (p * 16 + s.fget F.TBL_LEARN.queue p) ++ [offRing r p])) ∧
  (∀ (s : State) (p b : Nat) (e : EmEntry), s.frozen = false → s.fget F.TBL_AGE.period p ≠ 0 → s.usedBuckets p = [b] → bucketEntries s.tbl.units b = [e] →
    bit e.ctl 34 = false →
    (tabGet 0 s.tbl.hits (b + e.off) ≠ 0 →
      goesTo (exec (.agerVisit p) s) fun t => tabGet 0 t.tbl.hits (b + e.off) = 0 ∧ t.regs = s.regs ∧ t.tbl.units = s.tbl.units) ∧
    (tabGet 0 s.tbl.hits (b + e.off) = 0 → s.fget F.TBL_LEARN.sink p = 0 →
      goesTo (exec (.agerVisit p) s) fun t => countedUp s t F.TBL_CNT.count p 11 1 ∧ t.tbl.units = s.tbl.units))

/-- R225, R226, R228, R229, R253–R256, R258. Model's own readings in it: log entries 38, 40, 63. -/
def Obligations.TableMemoryIsScrubbedAndRepaired : Prop :=
  (∀ (s : State) (g u : Nat), s.frozen = false →
    goesTo (exec (.tblScrub g u 1) s) fun t => countedSat s t F.TBL_ECC.corr 0 0 ∧ tblBankUnit g (unitBank u) ∉ t.tbl.asleep) ∧
  (∀ (s : State) (g u : Nat), s.frozen = false → goesTo (exec (.tblScrub g u 2) s) fun t =>
    countedSat s t F.TBL_ECC.uncorr 0 0 ∧ (g, u / 2 * 2) ∈ t.tbl.bad ∧ (g, u / 2 * 2 + 1) ∈ t.tbl.bad) ∧
  (∀ (s : State) (g b : Nat), s.fget F.TBL_CFG.idle ≠ 0 →
    goesTo (exec (.tblBankRetention g b) s) fun t => (s.tblOff b = false → tblBankUnit g b ∈ t.tbl.asleep) ∧ t.regs = s.regs) ∧
  (∀ (s : State) (g u : Nat), goesTo (exec (.tableRowRepair g u) s) fun t =>
    (g, u / 2 * 2) ∉ t.tbl.bad ∧ (g, u / 2 * 2 + 1) ∉ t.tbl.bad) ∧
  (∀ (s : State) (g p row : Nat), s.frozen = false → goesTo (exec (.tcmScrub g p row 1) s) fun t =>
    countedSat s t F.TCM_ERR.corr 0 0 ∧ tcmUnit g p ∉ t.tbl.tcmSleep) ∧
  (∀ (s : State) (g p row : Nat), s.frozen = false → goesTo (exec (.tcmScrub g p row 2) s) fun t =>
    countedSat s t F.TCM_ERR.rows 0 0 ∧ (g, p, row) ∈ t.tbl.tcmBad) ∧
  (∀ (s : State) (g p : Nat), s.fget F.TCM_CFG.idle ≠ 0 →
    goesTo (exec (.tcmBankRetention g p) s) fun t => (s.tcmOff g p = false → tcmUnit g p ∈ t.tbl.tcmSleep) ∧ t.regs = s.regs) ∧
  (∀ (s : State) (g p row : Nat), (s.takeRow (tcmUnit g p)).isSome = true →
    (∀ b, s.logicalOf g p = some b → ∃ h, h < 4 ∧ s.rowReads h (s.physOf h b) row = true) →
    goesTo (exec (.tcmRowRepair g p row) s) fun t => (g, p, row) ∉ t.tbl.tcmBad) ∧
  (∀ (s : State) (g p row b : Nat), (g, p, row) ∈ s.tbl.tcmBad → s.tbl.ops = [] → s.logicalOf g p = some b →
    (∀ h, h < 4 → s.rowReads h (s.physOf h b) row = false) →
    goesTo (exec (.tcmRowRepair g p row) s) fun t =>
      (g, p, row) ∈ t.tbl.tcmDead ∧ (t.tcmEntry b (row / rowsPer (s.headerNow b))).valid = false) ∧
  (∀ (s : State) (g p row : Nat), (g, p, row) ∉ s.tbl.tcmBad → goesTo (exec (.tcmRowRepair g p row) s) fun t => t = s) ∧
  (∀ (s : State) (u b : Nat) (p : Promo), (s.flt.promos.find? fun x => decide (x.unit = u ∧ x.kind = 1)) = some p →
    s.logicalOf ((u - 0x200) / 64) ((u - 0x200) % 64) = some b →
    goesTo (exec (.tcmPromotionDone u) s) fun t => t.physOf ((u - 0x200) / 64) b = (p.spare - 0x200) % 64)

/-- R390–R393. The integer, immediate, LUI and bit-field commands write `rd` and step the program counter by one. -/
def Obligations.IntegerInstructionsWriteRd : Prop :=
  ∀ (s : State) (t i : Nat), nextInstr s t i →
    let a := s.greg t (iRs1 i)
    let b := s.greg t (iRs2 i)
    let did : Word → State → Prop := fun v u => wroteReg s u t (iRd i) v (s.pc t + 1)
    let z : Word := BitVec.ofNat 36 (iImm i)
    let x : Word := (BitVec.ofNat 20 (iImm i)).signExtend 36
    let n := bits i 5 0
    (iOp i = 0 → bits i 14 6 = 0 →
      (iFunc i = 0 → goesTo (exec (.integerOp t) s) (did (a + b))) ∧ (iFunc i = 1 → goesTo (exec (.integerOp t) s) (did (a - b))) ∧
      (iFunc i = 2 → goesTo (exec (.integerOp t) s) (did (a &&& b))) ∧ (iFunc i = 3 → goesTo (exec (.integerOp t) s) (did (a ||| b))) ∧
      (iFunc i = 4 → goesTo (exec (.integerOp t) s) (did (a ^^^ b))) ∧ (iFunc i = 5 → goesTo (exec (.integerOp t) s) (did (a <<< b.toNat))) ∧
      (iFunc i = 6 → goesTo (exec (.integerOp t) s) (did (a >>> b.toNat))) ∧ (iFunc i = 7 → goesTo (exec (.integerOp t) s) (did (a.sshiftRight b.toNat))) ∧
      (iFunc i = 8 → goesTo (exec (.integerOp t) s) (did (if a.toInt < b.toInt then 1 else 0))) ∧
      (iFunc i = 9 → goesTo (exec (.integerOp t) s) (did (if a.toNat < b.toNat then 1 else 0))) ∧
      (iFunc i = 10 → a = 0 → goesTo (exec (.integerOp t) s) (did 36)) ∧
      (iFunc i = 10 → ∀ k, k < 36 → a.getLsbD (35 - k) = true → a.toNat < 2 ^ (36 - k) → goesTo (exec (.integerOp t) s) (did (BitVec.ofNat 36 k))) ∧
      (iFunc i = 11 → goesTo (exec (.integerOp t) s) (did (BitVec.ofNat 36 ((List.range 36).filter fun k => a.getLsbD k).length)))) ∧
    (iOp i = 1 → goesTo (exec (.immediateOp t) s) (did (a + x))) ∧ (iOp i = 2 → goesTo (exec (.immediateOp t) s) (did (a &&& z))) ∧
    (iOp i = 3 → goesTo (exec (.immediateOp t) s) (did (a ||| z))) ∧ (iOp i = 4 → goesTo (exec (.immediateOp t) s) (did (a ^^^ z))) ∧
    (iOp i = 5 → goesTo (exec (.immediateOp t) s) (did (if a.toInt < x.toInt then 1 else 0))) ∧
    (iOp i = 6 → bits i 7 6 = 0 → goesTo (exec (.immediateOp t) s) (did (a <<< n))) ∧ (iOp i = 6 → bits i 7 6 = 1 → goesTo (exec (.immediateOp t) s) (did (a >>> n))) ∧
    (iOp i = 6 → bits i 7 6 = 2 → goesTo (exec (.immediateOp t) s) (did (a.sshiftRight n))) ∧
    (iOp i = 7 → goesTo (exec (.lui t) s) (did (BitVec.ofNat 36 (bits i 24 0 * 2 ^ 11)))) ∧
    (iOp i = 0x19 → bit i 12 = false → goesTo (exec (.bitFieldOp t) s) (did (BitVec.ofNat 36 (a.toNat / 2 ^ bits i 11 6 % 2 ^ (n + 1))))) ∧
    (iOp i = 0x19 → bit i 12 = true → ∀ v : Word,
      (∀ k, k < 36 → v.getLsbD k =
        if bits i 11 6 ≤ k ∧ k < bits i 11 6 + n + 1 then a.getLsbD (k - bits i 11 6) else (s.greg t (iRd i)).getLsbD k) →
      goesTo (exec (.bitFieldOp t) s) (did v))

/-- R390, R392, R393. MULTIPLY, DIVIDE and PAIR_OP; and the ILLEGAL fault of a pair that is none. -/
def Obligations.ProductsQuotientsAndPairs : Prop :=
  ∀ (s : State) (t i : Nat), nextInstr s t i →
    let a := s.greg t (iRs1 i)
    let b := s.greg t (iRs2 i)
    let did : Word → State → Prop := fun v u => wroteReg s u t (iRd i) v (s.pc t + 1)
    let didPair : BitVec 72 → State → Prop := fun v u => wrotePair s u t (iRd i) v
    let even : Nat → Prop := fun r => r % 2 = 0 ∧ r ≠ 0
    let p : BitVec 72 := s.greg t (iRs1 i + 1) ++ a
    let q : BitVec 72 := s.greg t (iRs2 i + 1) ++ b
    bits i 14 6 = 0 →
    (iOp i = 0x18 → iFunc i = 0 → goesTo (exec (.multiply t) s) (did (a * b))) ∧
    (iOp i = 0x18 → iFunc i = 1 → goesTo (exec (.multiply t) s) (did (BitVec.ofNat 36 (a.toNat * b.toNat / 2 ^ 36)))) ∧
    (iOp i = 0x18 → iFunc i = 2 → even (iRd i) → goesTo (exec (.multiply t) s) (didPair (BitVec.ofInt 72 (a.toInt * b.toInt)))) ∧
    (iOp i = 0x18 → iFunc i ∈ [3, 4] → b = 0 → goesTo (exec (.divide t) s) (did (BitVec.allOnes 36))) ∧
    (iOp i = 0x18 → iFunc i ∈ [5, 6] → b = 0 → goesTo (exec (.divide t) s) (did a)) ∧
    (iOp i = 0x18 → iFunc i = 4 → b ≠ 0 → goesTo (exec (.divide t) s) (did (a / b))) ∧
    (iOp i = 0x18 → iFunc i = 6 → b ≠ 0 → goesTo (exec (.divide t) s) (did (a % b))) ∧
    (b ≠ 0 → ∃ d : Int, (d = a.toInt.tdiv b.toInt ∨ d = a.toInt.fdiv b.toInt) ∧
      (iOp i = 0x18 → iFunc i = 3 → goesTo (exec (.divide t) s) (did (BitVec.ofInt 36 d))) ∧
      (iOp i = 0x18 → iFunc i = 5 → goesTo (exec (.divide t) s) (did (BitVec.ofInt 36 (a.toInt - d * b.toInt))))) ∧
    (iOp i = 0x1A → even (iRd i) → even (iRs1 i) →
      (iFunc i = 0 → even (iRs2 i) → goesTo (exec (.pairOp t) s) (didPair (p + q))) ∧ (iFunc i = 1 → even (iRs2 i) → goesTo (exec (.pairOp t) s) (didPair (p - q))) ∧
      (iFunc i = 2 → goesTo (exec (.pairOp t) s) (didPair (p <<< b.toNat))) ∧ (iFunc i = 3 → goesTo (exec (.pairOp t) s) (didPair (p >>> b.toNat))) ∧
      (iFunc i = 4 → goesTo (exec (.pairOp t) s) (didPair p))) ∧
    (iOp i = 0x1A → (¬even (iRd i) ∨ ¬even (iRs1 i) ∨ 5 ≤ iFunc i ∨ iFunc i < 2 ∧ ¬even (iRs2 i)) →
      goesTo (exec (.pairOp t) s) fun u => halted u t 1 ∧ u.thr t = { s.thr t with wait := none })

/-- R393, R395, R398. LW, SW, LP, SP, AMOADD, AMOSWAP and CAS. -/
def Obligations.LoadsStoresAndAtomics : Prop :=
  ∀ (s : State) (t i : Nat), nextInstr s t i →
    let a := dataAddr s t i
    let d := s.greg t (iRd i)
    let r := (s.greg t (iRs1 i)).toNat
    let b := s.greg t (iRs2 i)
    let even : Nat → Prop := fun r => r % 2 = 0 ∧ r ≠ 0
    let stored : State → Nat → Word → Prop := fun u w v =>
      storedWord s u w v ∧ u.threads = s.threads ∧ u.pc t = (s.pc t + 1) % 2 ^ 36 ∧ u.hostMem = s.hostMem ∧ u.bufMem = s.bufMem
    let swaps : Nat → Option Word → State → Prop := fun w v u =>
      (∀ x, u.cget x = match v with | some v => if x = w then v else s.cget x | none => s.cget x) ∧
      gregSet s u t (iRd i) (s.cget w) ∧ u.pc t = (s.pc t + 1) % 2 ^ 36 ∧ (∀ y, y ≠ t → u.thr y = s.thr y)
    let stops : Instr → Nat → Prop := fun c code => goesTo (exec c s) fun u => halted u t code ∧ (∀ x, u.greg t x = s.greg t x) ∧ u.pc t = s.pc t
    (∀ w, inRegion0 s t a w →
      (iOp i = 8 → goesTo (exec (.lw t) s) fun u => wroteReg s u t (iRd i) (s.cget w) (s.pc t + 1)) ∧
      (iOp i = 9 → goesTo (exec (.sw t) s) fun u => stored u w d)) ∧
    (∀ w, a % 2 = 0 → inRegion0 s t a w → inRegion0 s t (a + 1) (w + 1) → even (iRd i) →
      (iOp i = 10 → goesTo (exec (.lp t) s) fun u => wrotePair s u t (iRd i) (s.cget (w + 1) ++ s.cget w)) ∧
      (iOp i = 11 → goesTo (exec (.sp t) s) fun u =>
        ∀ x, u.cget x = if x = w then d else if x = w + 1 then s.greg t (iRd i + 1) else s.cget x)) ∧
    (∀ k w h, inWindow s t a k w h →
      (iOp i = 8 → goesTo (exec (.lw t) s) fun u => ∃ v : Word, wroteReg s u t (iRd i) v (s.pc t + 1) ∧
        v.toNat = ((s.bufByte h (4 * w)).toNat * 256 + (s.bufByte h (4 * w + 1)).toNat) * 65536 +
          (s.bufByte h (4 * w + 2)).toNat * 256 + (s.bufByte h (4 * w + 3)).toNat) ∧
      (iOp i = 9 → handlePool h < 4 → goesTo (exec (.sw t) s) fun u =>
        (∀ j, j < 4 → (u.bufByte h (4 * w + j)).toNat = d.toNat / 2 ^ (24 - 8 * j) % 256) ∧ u.cmem = s.cmem)) ∧
    (∀ w, inRegion0 s t r w → bits i 14 6 = 0 → iOp i = 12 →
      (iFunc i = 0 → goesTo (exec (.amoadd t) s) (swaps w (some (s.cget w + b)))) ∧ (iFunc i = 1 → goesTo (exec (.amoswap t) s) (swaps w (some b))) ∧
      (iFunc i = 2 → goesTo (exec (.cas t) s) (swaps w (if s.cget w = d then some b else none)))) ∧
    (a % 2 = 1 → even (iRd i) → (iOp i = 10 → stops (.lp t) 4) ∧ (iOp i = 11 → stops (.sp t) 4)) ∧
    (2 ^ 33 + 4 * 2 ^ 24 ≤ a ∨ 2 ^ 32 + 2097152 ≤ a ∧ a < 2 ^ 33 → (iOp i = 8 → stops (.lw t) 3) ∧ (iOp i = 9 → stops (.sw t) 3)) ∧
    (2 ^ 32 ≤ a → a < 2 ^ 32 + 2097152 → s.supMode t = false → (iOp i = 8 → stops (.lw t) 2) ∧ (iOp i = 9 → stops (.sw t) 2))

/-- R391, R393, R396, R397, R399, R414, R426. BRANCH, JAL, JALR, TRAP, RETS, FENCE, YIELD, IFLUSH, CSRR, CSRW and BREAKPOINT. -/
def Obligations.ControlAndSystemInstructions : Prop :=
  ∀ (s : State) (t i : Nat), nextInstr s t i →
    let a := s.greg t (iRd i)
    let b := s.greg t (iRs1 i)
    let next := s.pc t + 1
    let goesOn : Nat → State → Prop := fun pc u => wroteReg s u t 0 0 pc
    let x := (BitVec.ofNat 20 (iImm i)).toInt
    let off := ((Int.ofNat (s.pc t) + x) % 2 ^ 36).toNat
    let joff := ((Int.ofNat (s.pc t) + (BitVec.ofNat 25 (bits i 24 0)).toInt) % 2 ^ 36).toNat
    let stops : Instr → Nat → Prop := fun c code => goesTo (exec c s) fun u => halted u t code ∧ u.pc t = s.pc t
    let sysOp : Nat → Prop := fun f => iOp i = 0x2C ∧ iFunc i = f ∧ bits i 14 6 = 0
    let n := bits i 11 0
    (iOp i = 0x10 → goesTo (exec (.branch t) s) (goesOn (if a = b then off else next))) ∧ (iOp i = 0x11 → goesTo (exec (.branch t) s) (goesOn (if a ≠ b then off else next))) ∧
    (iOp i = 0x12 → goesTo (exec (.branch t) s) (goesOn (if a.toInt < b.toInt then off else next))) ∧
    (iOp i = 0x13 → goesTo (exec (.branch t) s) (goesOn (if b.toInt ≤ a.toInt then off else next))) ∧
    (iOp i = 0x14 → goesTo (exec (.branch t) s) (goesOn (if a.toNat < b.toNat then off else next))) ∧
    (iOp i = 0x15 → goesTo (exec (.branch t) s) (goesOn (if b.toNat ≤ a.toNat then off else next))) ∧
    (iOp i = 0x16 → goesTo (exec (.jal t) s) fun u => wroteReg s u t (iRd i) (BitVec.ofNat 36 next) joff) ∧
    (iOp i = 0x17 → goesTo (exec (.jalr t) s) fun u => wroteReg s u t (iRd i) (BitVec.ofNat 36 next) (dataAddr s t i)) ∧
    (sysOp 0 → s.csr t 4 ≠ 0 → goesTo (exec (.trap t) s) fun u =>
      u.csr t 5 = next % 2 ^ 36 ∧ u.csr t 6 = iRs2 i ∧ u.supMode t = true ∧ u.pc t = s.csr t 4 ∧ ∀ r, u.greg t r = s.greg t r) ∧
    (sysOp 0 → s.csr t 4 = 0 → stops (.trap t) 11) ∧
    (sysOp 1 → s.supMode t = true → goesTo (exec (.rets t) s) fun u =>
      u.pc t = s.csr t 5 ∧ u.supMode t = false ∧ u.threads = s.threads) ∧
    (sysOp 1 → s.supMode t = false → stops (.rets t) 2) ∧
    (sysOp 2 → goesTo (exec (.fence t) s) (goesOn next)) ∧ (iOp i = 0x20 → iFunc i = 5 → bits i 14 6 = 0 → goesTo (exec (.yield t) s) (goesOn next)) ∧
    (sysOp 3 → goesTo (exec (.iflush t) s) fun u => wroteReg s u t 0 0 next ∧
      ∀ w, s.cmemBase (s.thrPart t) ≤ w → w < s.cmemBase (s.thrPart t) + s.cmemWords (s.thrPart t) → w < 2 ^ 21 →
        tabFind u.icache (t / 8 * 2 ^ 21 + w) = none) ∧
    (sysOp 9 → goesTo (exec (.breakpoint t) s) fun u => halted u t 13 ∧ u.pc t = s.pc t) ∧
    (iOp i = 0x28 →
      (n = 0 → goesTo (exec (.csrr t) s) fun u => wroteReg s u t (iRd i)
        (BitVec.ofNat 36 (0x800 + t + s.thrPart t * 2 ^ 12 + (if s.supMode t then 2 ^ 17 else 0))) next) ∧
      (n = 8 → goesTo (exec (.csrr t) s) fun u => wroteReg s u t (iRd i) (BitVec.ofNat 36 (s.fget F.CCX_T_STATUS.evpend t)) next) ∧
      (n ∈ [2, 3, 4, 5, 6, 0x11, 0x21] → goesTo (exec (.csrr t) s) fun u => wroteReg s u t (iRd i) (BitVec.ofNat 36 (s.csr t n)) next)) ∧
    (iOp i = 0x29 → n ∈ [2, 3, 4, 5, 6] →
      (s.supMode t = true → goesTo (exec (.csrw t) s) fun u =>
        u.csr t n = a.toNat ∧ (∀ k, k ≠ n → u.csr t k = s.csr t k) ∧ (∀ r, u.greg t r = s.greg t r) ∧ u.pc t = next % 2 ^ 36) ∧
      (s.supMode t = false → stops (.csrw t) 2))

/-- R389, R399, R402, R403, R417, R425. FORK, JOIN, EXIT, the THR_ instructions and the operations of `CCX_T_CTL`.
Model's own readings in it: log entries 48, 50. -/
def Obligations.ThreadsStartEndAndAnswer : Prop :=
  (∀ (s : State) (t i : Nat), nextInstr s t i → bits i 14 6 = 0 →
    let a := s.greg t (iRs1 i)
    let b := s.greg t (iRs2 i)
    let next := (s.pc t + 1) % 2 ^ 36
    let idle : State → Nat → Prop := fun u x => u.thrState x = tIdle ∧ (u.thr x).parent = none
    let stops : Instr → Nat → Prop := fun c code => goesTo (exec c s) fun u => halted u t code ∧ u.pc t = s.pc t
    let thr : Nat → Nat → Prop := fun f x => iOp i = 0x2C ∧ iFunc i = f ∧ s.supMode t = true ∧ a.toNat = 0x800 + x ∧ x < 144 ∧
      s.thrPart x = s.thrPart t ∧ x ≠ t
    (iOp i = 0x20 → iFunc i = 0 →
      (∀ c, c < 144 → s.thrPart c = s.thrPart t → s.thrState c = tIdle → (∀ x, x < c → ¬(s.thrPart x = s.thrPart t ∧ s.thrState x = tIdle)) →
        goesTo (exec (.fork t) s) fun u =>
          u.thrState c = tRunning ∧ u.pc c = a.toNat ∧ u.supMode c = s.supMode t ∧ (u.thr c).parent = some t ∧
          (∀ r, u.greg c r = if r = 1 then b else if r = 2 then BitVec.ofNat 36 (0x800 + t) else 0) ∧
          (∀ n, u.csr c n = if 1 ≤ n ∧ n ≤ 4 then s.csr t n else 0) ∧
          gregSet s u t (iRd i) (BitVec.ofNat 36 (0x800 + c)) ∧ u.pc t = next ∧ (∀ x, x ≠ t → x ≠ c → u.thr x = s.thr x)) ∧
      ((∀ x, x < 144 → ¬(s.thrPart x = s.thrPart t ∧ s.thrState x = tIdle)) → bits (s.partWord (s.thrPart t) 23) 15 8 ≤ s.drawn (s.thrPart t) →
        goesTo (exec (.fork t) s) fun u =>
          gregSet s u t (iRd i) 0 ∧ u.pc t = next ∧ countedUp s u F.CCX_CNT.count (s.thrPart t) 1 1 ∧ ∀ x, x ≠ t → u.thr x = s.thr x)) ∧
    (iOp i = 0x20 → iFunc i = 1 →
      (∀ c, c < 144 → a.toNat = 0x800 + c → (s.thr c).parent = some t →
        (s.thrState c = tExited → (s.thr c).drawn = false → goesTo (exec (.join t) s) fun u =>
          gregSet s u t (iRd i) (BitVec.ofNat 36 (s.thr c).exitVal) ∧ u.pc t = next ∧ idle u c) ∧
        (s.thrState c ≠ tExited → goesTo (exec (.join t) s) fun u =>
          u.thrState t = tWaiting ∧ (u.thr t).wait = some (.join (iRd i) c) ∧ u.pc t = next)) ∧
      ((∀ c, c < 144 → a.toNat = 0x800 + c → (s.thr c).parent ≠ some t) → stops (.join t) 8)) ∧
    (iOp i = 0x20 → iFunc i = 2 →
      ((s.thr t).parent = none → (s.thr t).drawn = false → goesTo (exec (.exit t) s) fun u => idle u t) ∧
      (∀ p, (s.thr t).parent = some p → p ≠ t → s.thrState p = tRunning → (s.thr p).wait = none → goesTo (exec (.exit t) s) fun u =>
        u.thrState t = tExited ∧ (u.thr t).exitVal = a.toNat % 2 ^ 35 ∧ (u.fget F.CCX_T_STATUS.evpend p).testBit 11 = true) ∧
      (∀ p rd, (s.thr t).parent = some p → p ≠ t → s.thrState p = tWaiting → (s.thr p).wait = some (.join rd t) → (s.thr t).drawn = false →
        goesTo (exec (.exit t) s) fun u =>
          idle u t ∧ u.thrState p = tRunning ∧ gregSet s u p rd (BitVec.ofNat 36 (a.toNat % 2 ^ 35)))) ∧
    (∀ x, thr 4 x → s.killable x = true → (s.thr x).parent = none → (s.thr x).drawn = false →
      goesTo (exec (.thrKill t) s) fun u => idle u x ∧ u.pc t = next) ∧
    (∀ x, thr 5 x → s.thrState x = tIdle → goesTo (exec (.thrStart t) s) fun u =>
      u.thrState x = tRunning ∧ u.pc x = b.toNat ∧ u.supMode x = true ∧ (∀ r, u.greg x r = 0) ∧ (∀ n, u.csr x n = 0) ∧ u.pc t = next) ∧
    (∀ x, thr 6 x → s.thrState x = tHalted → goesTo (exec (.thrResume t) s) fun u =>
      u.thrState x = tRunning ∧ u.pc x = s.pc x ∧ u.threads = s.threads ∧ u.pc t = next) ∧
    (∀ x, thr 7 x → (s.thrState x = tHalted ∨ s.thrState x = tExited) → goesTo (exec (.thrRdreg t) s) fun u =>
      wroteReg s u t (iRd i) (s.greg x (iRs2 i)) next) ∧
    (∀ x, thr 8 x → s.thrState x = tHalted → goesTo (exec (.thrWrreg t) s) fun u =>
      gregSet s u x (iRd i) b ∧ (∀ r, u.greg t r = s.greg t r) ∧ u.pc t = next) ∧
    (iOp i = 0x2C → s.supMode t = false →
      (iFunc i = 4 → stops (.thrKill t) 2) ∧ (iFunc i = 5 → stops (.thrStart t) 2) ∧ (iFunc i = 6 → stops (.thrResume t) 2) ∧
      (iFunc i = 7 → stops (.thrRdreg t) 2) ∧ (iFunc i = 8 → stops (.thrWrreg t) 2)) ∧
    (iOp i = 0x2C → iFunc i = 4 → s.supMode t = true → a.toNat < 0x800 → stops (.thrKill t) 9)) ∧
  (∀ (s : State) (f : Func) (x : Nat), x < 144 → opens s f .CCX_T_CTL 0 x →
    (∀ m pc, s.thrState x = tIdle → goesTo (exec (.ccxStart f m pc) s) fun u =>
      u.thrState x = tRunning ∧ u.pc x = pc % 2 ^ 21 ∧ (u.supMode x = true ↔ m % 2 = 1) ∧ (∀ r, u.greg x r = 0) ∧ ∀ n, u.csr x n = 0) ∧
    (s.killable x = true → (s.thr x).parent = none → (s.thr x).drawn = false →
      goesTo (exec (.ccxKill f) s) fun u => u.thrState x = tIdle) ∧
    (∀ p, s.killable x = true → (s.thr x).parent = some p → p ≠ x → s.thrState p = tRunning → (s.thr p).wait = none →
      goesTo (exec (.ccxKill f) s) fun u =>
        u.thrState x = tExited ∧ (u.thr x).exitVal = 2 ^ 35 + s.fget F.CCX_T_FAULT.code x) ∧
    (∀ m pc, s.thrState x = tHalted → goesTo (exec (.ccxResume f m pc) s) fun u =>
      u.thrState x = tRunning ∧ u.pc x = s.pc x ∧ u.threads = s.threads) ∧
    ((s.thrState x = tHalted ∧ (s.thr x).parent = none ∨ s.thrState x = tExited) → (s.thr x).drawn = false →
      goesTo (exec (.ccxClear f) s) fun u => u.thrState x = tIdle))

/-- R404–R411. WFE, SEV, SEV_DELIVERY, THREAD_TIMER_EXPIRY, QPOP and QPUSH. Model's own readings in it: log entries 48, 50. -/
def Obligations.EventsAndQueuesServeThreads : Prop :=
  (∀ (s : State) (t i : Nat), nextInstr s t i →
    let a := s.greg t (iRs1 i)
    let b := s.greg t (iRs2 i)
    let p := s.thrPart t
    let q := bits i 3 0
    let next := (s.pc t + 1) % 2 ^ 36
    let mask := if a.toNat % 2 ^ 16 = 0 then 0xFFFF else a.toNat % 2 ^ 16
    let ev := s.fget F.CCX_T_STATUS.evpend t
    let stops : Instr → Nat → Prop := fun c code => goesTo (exec c s) fun u => halted u t code ∧ u.pc t = s.pc t
    let reports : State → Nat → Prop := fun u v => gregSet s u t (iRd i) (BitVec.ofNat 36 v) ∧ u.pc t = next
    let block : Nat → Nat → Prop := fun w n => ∀ j, j < n → inRegion0 s t (a.toNat + j) (w + j)
    let holds : State → Nat → List Nat → Prop := fun u w ws =>
      (∀ j, j < ws.length → u.cget (w + j) = BitVec.ofNat 36 (ws.getD j 0)) ∧
      ∀ x, (x < w ∨ w + ws.length ≤ x) → u.cget x = s.cget x
    (iOp i = 0x20 → iFunc i = 3 → bits i 14 6 = 0 →
      (ev &&& mask ≠ 0 → goesTo (exec (.wfe t) s) fun u => reports u (ev &&& mask) ∧ u.fget F.CCX_T_STATUS.evpend t = ev - (ev &&& mask)) ∧
      (ev &&& mask = 0 → goesTo (exec (.wfe t) s) fun u =>
        u.thrState t = tWaiting ∧ (u.thr t).wait = some (.wfe (iRd i) mask) ∧ u.pc t = next ∧ u.fget F.CCX_T_STATUS.evpend t = ev)) ∧
    (iOp i = 0x20 → iFunc i = 4 → bits i 14 6 = 0 →
      (∀ x, x < 144 → a.toNat % 4096 = 0x800 + x → s.thrPart x = p → goesTo (exec (.sev t) s) fun u =>
        u.sevs = s.sevs ++ [(x, b.toNat % 256)] ∧ u.threads = s.threads ∧ u.pc t = next) ∧
      (a.toNat % 4096 < 0x800 → stops (.sev t) 9)) ∧
    (iOp i = 0x21 →
      (bits i 15 12 = 0 → s.mayPop t q = true → s.flag F.CCX_PQ.sink p q = false →
        (tabGet [] s.punts (p * 16 + q) = [] → goesTo (exec (.qpop t) s) fun u => reports u 1 ∧ countedUp s u F.CCX_CNT.count p 5 1) ∧
        (∀ x rest b w, tabGet [] s.punts (p * 16 + q) = x :: rest → x.words.length = 4 → x.trace = none → s.pastShare t = false → s.buf x.handle = some b →
          b.quar = false → block w 8 → goesTo (exec (.qpop t) s) fun u =>
            reports u 0x80 ∧ holds u w ([x.handle] ++ x.words ++ [x.inPort + x.len * 2 ^ 8] ++
              (if x.rx.isSome then [stampOf (x.rx.getD 0) % 2 ^ 36, stampOf (x.rx.getD 0) / 2 ^ 36] else [0, 0])) ∧
            tabGet [] u.punts (p * 16 + q) = rest ∧ u.buf x.handle = some { b with tag := 0x800 + t } ∧
            countedUp s u F.CCX_CNT.count p 4 1)) ∧
      (bits i 15 12 = 0 → s.mayPop t q = false → goesTo (exec (.qpop t) s) fun u => reports u 2 ∧ u.punts = s.punts) ∧
      (bits i 15 12 = 1 → s.mayPop t (16 + q) = true → ∀ ws rest w, tabGet [] s.events (p * 16 + q) = ws :: rest → ws.length = 8 → block w 8 →
        goesTo (exec (.qpop t) s) fun u => reports u 0x80 ∧ holds u w ws ∧ tabGet [] u.events (p * 16 + q) = rest) ∧
      (bits i 15 12 = 2 → ∀ ws rest w, tabGet [] s.mail (p * 16 + q) = ws :: rest → 0 < ws.length → ws.length ≤ bits i 6 4 + 1 →
        block w ws.length →
        goesTo (exec (.qpop t) s) fun u => reports u (ws.length * 16) ∧ holds u w ws ∧ tabGet [] u.mail (p * 16 + q) = rest) ∧
      (bits i 15 12 = 5 → s.supMode t = true → ∀ ws rest w, tabGet [] s.faultQ t = ws :: rest → ws.length = 8 → block w 8 →
        goesTo (exec (.qpop t) s) fun u => reports u 0x80 ∧ holds u w ws ∧ tabGet [] u.faultQ t = rest) ∧
      (bits i 15 12 = 5 → s.supMode t = false → stops (.qpop t) 10) ∧
      (bits i 15 12 ∈ [3, 4, 6, 7, 8, 9, 10, 11, 12, 13, 14, 15] → stops (.qpop t) 10)) ∧
    (iOp i = 0x22 →
      (∀ w, bits i 15 12 = 2 → block w (bits i 6 4 + 1) →
        ((tabGet [] s.mail (p * 16 + q)).length < 64 → goesTo (exec (.qpush t) s) fun u =>
          reports u 0 ∧ tabGet [] u.mail (p * 16 + q) =
            tabGet [] s.mail (p * 16 + q) ++ [(List.range (bits i 6 4 + 1)).map fun j => (s.cget (w + j)).toNat]) ∧
        (64 ≤ (tabGet [] s.mail (p * 16 + q)).length → goesTo (exec (.qpush t) s) fun u => reports u 4 ∧ u.mail = s.mail)) ∧
      (∀ w b, block w 4 → s.handleOk (s.cget w).toNat = true → s.buf (s.cget w).toNat = some b → (b.part = p ∨ p = 16) → b.quar = false →
        b.tag = 0x800 + t → 64 ≤ bits (s.cget (w + 1)).toNat 13 0 → bits (s.cget (w + 1)).toNat 13 0 ≤ s.bufSizeOf (s.cget w).toNat →
        (bits i 15 12 = 4 → (s.group (bits i 1 0)).inject.length < 64 → goesTo (exec (.qpush t) s) fun u =>
          reports u 0 ∧ (u.group (bits i 1 0)).inject = (s.group (bits i 1 0)).inject ++ [s.nextFrame] ∧
          ∃ f, u.frame s.nextFrame = some f ∧ f.handle = (s.cget w).toNat ∧ f.len = bits (s.cget (w + 1)).toNat 13 0 ∧ f.injected = some p) ∧
        (bits i 15 12 = 3 → s.setFor s.tagNow p (bits i 7 0) = none → goesTo (exec (.qpush t) s) fun u =>
          reports u 0x105 ∧ u.bufs = s.bufs ∧ countedUp s u F.CCX_CNT.count p 6 1) ∧
        (bits i 15 12 = 3 → ∀ k, s.setFor s.tagNow p (bits i 7 0) = some k →
          s.editOk s.tagNow p ((s.cget (w + 2)).toNat % 4096) = true → s.setCovered (bits i 7 0) k = false →
          bits (s.cget (w + 1)).toNat 18 17 ≠ 2 → bits i 10 8 < 7 → (s.cget (w + 2)).toNat % 4096 = 0 →
          s.queueBytes (s.queue (queueNo (bits i 7 0) k (bits i 10 8))) + bits (s.cget (w + 1)).toNat 13 0 ≤
            s.queueLimit s.tagNow (bits i 7 0) k (bits i 10 8) →
          (∀ c ∈ (s.queue (queueNo (bits i 7 0) k (bits i 10 8))).head ++ (s.queue (queueNo (bits i 7 0) k (bits i 10 8))).pend,
            c.frame ≠ s.nextFrame) →
          (∀ d ∈ (s.queue (queueNo (bits i 7 0) k (bits i 10 8))).deep, d.copy.frame ≠ s.nextFrame) →
          goesTo (exec (.qpush t) s) fun u => reports u 0 ∧ ∃ f, u.frame s.nextFrame = some f ∧ f.handle = (s.cget w).toNat ∧
            f.len = bits (s.cget (w + 1)).toNat 13 0 ∧ 1 ≤ f.copies)) ∧
      (bits i 15 12 ∈ [0, 1, 5, 6, 7, 8, 9, 10, 11, 12, 13, 14, 15] → stops (.qpush t) 10))) ∧
  (∀ (s : State) (x b : Nat) (rest : List (Nat × Nat)), s.sevs = (x, b) :: rest →
    let ev := s.fget F.CCX_T_STATUS.evpend x ||| b % 2 ^ 16
    (s.thrState x = tRunning → (s.thr x).wait = none → b < 2 ^ 16 → goesTo (exec .sevDelivery s) fun u =>
      u.sevs = rest ∧ u.fget F.CCX_T_STATUS.evpend x = ev) ∧
    ((s.thrState x = tFree ∨ s.thrState x = tIdle) → goesTo (exec .sevDelivery s) fun u => u = { s with sevs := rest }) ∧
    (∀ rd mask, s.thrState x = tWaiting → (s.thr x).wait = some (.wfe rd mask) → b < 2 ^ 16 → ev &&& mask ≠ 0 →
      goesTo (exec .sevDelivery s) fun u => u.thrState x = tRunning ∧ (u.thr x).wait = none ∧
        gregSet s u x rd (BitVec.ofNat 36 (ev &&& mask)) ∧ u.fget F.CCX_T_STATUS.evpend x = ev - (ev &&& mask))) ∧
  (∀ (s : State) (t : Nat), s.frozen = false → (s.thr t).timer.isSome = true → s.thrState t = tRunning → (s.thr t).wait = none →
    goesTo (exec (.threadTimerExpiry t) s) fun u =>
      (u.thr t).timer = none ∧ u.fget F.CCX_T_STATUS.evpend t = s.fget F.CCX_T_STATUS.evpend t ||| 2 ^ 8)

/-- R398, R410, R412, R413. BGET, BPUT, BREL, BRET, BGIVE, BRCL, BWIN, BINFO, TLOOK, TINS and TSRCH.
Model's own readings in it: log entries 48, 50. -/
def Obligations.BufferAndTableInstructionsAnswer : Prop :=
  ∀ (s : State) (t i : Nat), nextInstr s t i →
    let a := (s.greg t (iRs1 i)).toNat
    let b := (s.greg t (iRs2 i)).toNat
    let p := s.thrPart t
    let next := (s.pc t + 1) % 2 ^ 36
    let stops : Instr → Nat → Prop := fun c code => goesTo (exec c s) fun u => halted u t code ∧ u.pc t = s.pc t
    let reports : State → Nat → Prop := fun u v => gregSet s u t (iRd i) (BitVec.ofNat 36 v) ∧ u.pc t = next
    let block : Nat → Nat → Prop := fun w n => ∀ j, j < n → inRegion0 s t (a + j) (w + j)
    (iOp i = 0x23 → bits i 14 6 = 0 →
      (iFunc i = 0 → iRd i % 2 = 0 → iRd i ≠ 0 →
        (s.pastShare t = true → goesTo (exec (.bget t) s) fun u => u.greg t (iRd i) = 0 ∧ u.greg t (iRd i + 1) = 3 ∧ u.bufs = s.bufs) ∧
        (s.pastShare t = false → (∀ n, ({ s with free := n }.pickBuf a).isSome = true) → s.poolExists a = true →
          (a < 4 → (s.admitPart s.tagNow p (poolCharge a)).isSome = true) → (4 ≤ a → s.poolPart a = p) →
          goesTo (exec (.bget t) s) fun u => ∃ h, u.greg t (iRd i) = BitVec.ofNat 36 h ∧ u.greg t (iRd i + 1) = 0 ∧ u.pc t = next ∧
            s.buf h = none ∧ handlePool h = a ∧ ∃ x, u.buf h = some x ∧ x.count = 1 ∧ x.tag = 0x800 + t ∧ x.part = p ∧ x.quar = false)) ∧
      (∀ x, s.handleOk a = true → s.buf a = some x → x.part = p →
        (x.quar = false → x.tag = 0x800 + t →
          (iFunc i = 1 → x.count = 1 → goesTo (exec (.bput t) s) fun u => reports u 0 ∧ u.buf a = none) ∧
          (iFunc i = 3 → x.count + b ≤ 16383 → goesTo (exec (.bret t) s) fun u => reports u 0 ∧ u.buf a = some { x with count := x.count + b }) ∧
          (iFunc i = 4 → s.unitPart b = p → unitThr b = none → goesTo (exec (.bgive t) s) fun u => reports u 0 ∧ u.buf a = some { x with tag := b })) ∧
        (iFunc i = 2 → x.count ≠ 1 → goesTo (exec (.brel t) s) fun u => reports u 0 ∧ u.buf a = some { x with count := x.count - 1 }) ∧
        (iFunc i = 5 → s.supMode t = true → x.quar = true → x.count = 1 → goesTo (exec (.brcl t) s) fun u => reports u 0 ∧ u.buf a = none) ∧
        (iFunc i = 6 → goesTo (exec (.bwin t) s) fun u => reports u 0 ∧ u.csr t (0x50 + b % 4) = a ∧ u.bufs = s.bufs) ∧
        (iFunc i = 7 → goesTo (exec (.binfo t) s) fun u => wroteReg s u t (iRd i)
          (BitVec.ofNat 36 ((if x.quar then 2 else 1) * 2 ^ 34 + x.count * 2 ^ 20 + x.tag * 2 ^ 8 + x.part)) next)) ∧
      (iFunc i = 5 → s.supMode t = false → stops (.brcl t) 2) ∧
      (s.handleOk a = false →
        let fenced : Instr → Prop := fun c => goesTo (exec c s) fun u => u.thrState t = tFenced ∧ u.fget F.CCX_T_FAULT.code t = 7
        (iFunc i = 1 → fenced (.bput t)) ∧ (iFunc i = 2 → fenced (.brel t)) ∧ (iFunc i = 3 → fenced (.bret t)) ∧
        (iFunc i = 6 → fenced (.bwin t)) ∧ (iFunc i = 7 → fenced (.binfo t)))) ∧
    (∀ w, iOp i = 0x24 → bits i 1 0 ≠ 0 → block w (keyWords (bits i 1 0)) →
      let key := wordsNat ((List.range (keyWords (bits i 1 0))).map fun j => (s.cget (w + j)).toNat)
      goesTo (exec (.tlook t) s) fun u => u.thrState t = tWaiting ∧ u.pc t = next ∧ (∀ r, u.greg t r = s.greg t r) ∧
        (u.thr t).wait = some (.look (iRd i)
          (match s.emLookup 0 s.tagNow p (bits i 1 0) key with | some (_, e) => 2 ^ 35 + bits e.ctl 20 0 | none => 0))) ∧
    (iOp i = 0x25 → bits i 14 0 = 0 →
      (∀ w, s.supMode t = true → block w (if bits (s.cget w).toNat 35 32 ∈ [4, 7, 9] then 21 else 17) →
          s.issuerBusy (.thread t) false = false → s.power.entering = false →
        goesTo (exec (.tins t) s) fun u => u.thrState t = tWaiting ∧ (u.thr t).wait = some (.table (iRd i) w) ∧ u.pc t = next ∧
          ∃ r, u.tbl.waiting = s.tbl.waiting ++ [r] ∧ r.issuer = .thread t ∧ r.op = bits (s.cget w).toNat 35 32 ∧ r.tcm = false ∧
            (p < 16 → r.part = p)) ∧
      (s.supMode t = false → stops (.tins t) 2)) ∧
    (iOp i = 0x26 → bits i 14 0 = 0 →
      (∀ w, s.supMode t = true → block w (if bits (s.cget w).toNat 35 32 = 6 then 36 else 34) →
          s.issuerBusy (.thread t) true = false → s.power.entering = false →
        goesTo (exec (.tsrch t) s) fun u => u.thrState t = tWaiting ∧ (u.thr t).wait = some (.table (iRd i) w) ∧ u.pc t = next ∧
          ∃ r, u.tbl.waiting = s.tbl.waiting ++ [r] ∧ r.issuer = .thread t ∧ r.op = bits (s.cget w).toNat 35 32 ∧ r.tcm = true ∧ r.part = p) ∧
      (s.supMode t = false → stops (.tsrch t) 2))

/-- R415, R420–R424, R427. CCX_TAG_WRITE, CCX_MIG_WRITE, THREAD_MIGRATE, MIGRATION_COMPLETE, CORE_LOGIC_FAULT and CORE_SLOW_ADVISORY.
Model's own readings in it: log entry 51. -/
def Obligations.CoresAreTaggedAndReplaced : Prop :=
  (∀ (s : State) (f : Func) (v k : Nat), opens s f .CCX_TAG 0 k →
    goesTo (exec (.ccxTagWrite f v) s) fun t => ∃ x, (t.rd .CCX_TAG k = x ∧ x = maskWrite .CCX_TAG (s.rd .CCX_TAG k) (BitVec.ofNat 72 (v % 2 ^ 36))) ∧
      (s.flag F.CCX_TAG.en k = false → t.flag F.CCX_TAG.en k = true → (tabGet (0x5AC3E1, 0) t.tags k).1 = 0x5AC3E1)) ∧
  (∀ (s : State) (f : Func) (v b : Nat) (rest : List Nat), f.part = 16 → opens s f .CCX_MIG 0 0 → v.testBit 35 = true → bits v 30 26 < 18 →
    s.fget F.CCX_CORE.state (bits v 30 26) = 0 → (∀ x ∈ s.flt.promos, x.kind ≠ 3) → s.benchUnits 3 0x800 = b :: rest → s.castlePending = false →
    goesTo (exec (.ccxMigWrite f v) s) fun t =>
      t.fget F.CCX_MIG.pos = bits v 30 26 ∧ t.fget F.CCX_MIG.done = 0 ∧
      ∃ x ∈ t.flt.promos, x.kind = 3 ∧ x.unit = 0x800 + 8 * bits v 30 26 ∧ x.spare = b) ∧
  (∀ (s : State) (t : Nat), t < 144 → s.thrState t = tMigrating → (∀ rd w, (s.thr t).wait ≠ some (.table rd w)) →
    (s.thr t).before ∈ [tRunning, tWaiting] →
    goesTo (exec (.threadMigrate t) s) fun u => u.thrState t = (s.thr t).before ∧ ∀ r, u.greg t r = s.greg t r) ∧
  (∀ (s : State) (k : Nat) (x : Promo), k < 18 → s.flt.promos.find? (fun y => y.kind = 3 ∧ y.unit = 0x800 + 8 * k) = some x → x.reason ≠ 2 →
    (∀ n, n < 8 → s.thrState (8 * k + n) ≠ tMigrating) → ∀ b, b < 18 → b ≠ k → x.spare = 0x800 + 8 * b →
    goesTo (exec (.migrationComplete k) s) fun t =>
      t.fget F.CCX_CORE.phys k = s.fget F.CCX_CORE.phys b ∧ t.fget F.CCX_CORE.phys b = s.fget F.CCX_CORE.phys k ∧
      t.fget F.CCX_CORE.state k = 0 ∧ t.fget F.CCX_CORE.state b = 3) ∧
  (∀ (s : State) (k : Nat), k < 18 → s.fget F.CCX_CORE.state k = 0 → (s.benchUnits 3 0x800) = [] → s.flag F.AON_STATUS.main_on = true →
    goesTo (exec (.coreLogicFault k) s) fun t =>
      t.fget F.CCX_CORE.state k = 3 ∧
      ∀ n, n < 8 → t.thrState (8 * k + n) = tFenced ∧ (s.thrState (8 * k + n) = tRunning → t.fget F.CCX_T_FAULT.code (8 * k + n) = 15)) ∧
  (∀ (s : State) (k : Nat), goesTo (exec (.coreSlowAdvisory k) s) fun t =>
    (s.fget F.CCX_CFG.slow_freq ≤ s.fget F.CCX_CORE.freq k → t = s) ∧ ∀ x, t.pc x = s.pc x)

/-- R436–R456. The commands of the DMA channels and their rings. Model's own readings in it: log entries 53, 54. -/
def Obligations.ChannelsRunTheirDescriptors : Prop :=
  (∀ (s : State) (f : Func) (ch : Nat), opens s f .DMA_CH_CTL 0 ch →
    (s.chanOn ch = true → s.chanState ch = 1 → 0xC00 ∉ s.flt.fenced → goesTo (exec (.dmaGo f) s) fun t => t.chanState ch = 2 ∧ (t.chan ch).desc = none ∧
      (t.chan ch).fetch = if s.fget F.DMA_CH_HEAD.addr ch < 2 ^ 63 then s.fget F.DMA_CH_HEAD.addr ch / 64 * 64 else s.fget F.DMA_CH_HEAD.addr ch) ∧
    (∀ d next, s.chanOn ch = true → s.chanState ch = 3 → 0xC00 ∉ s.flt.fenced → (s.chan ch).desc = some d → d.addr < 2 ^ 63 →
      goesTo (exec (.dmaBell f next) s) fun t =>
        if next = 0 then t.chanState ch = 3 ∧ (t.chan ch).desc = some d
        else t.chanState ch = 2 ∧ (t.chan ch).desc = none ∧ (next < 2 ^ 63 → (t.chan ch).fetch = next / 64 * 64)) ∧
    (∀ d, s.chanState ch = 2 → (s.chan ch).desc = some d → goesTo (exec (.dmaStop f) s) fun t =>
      t.chanState ch = 2 ∧ (t.chan ch).desc = some d ∧ (t.chan ch).stopping = true) ∧
    (s.chanState ch = 3 ∨ s.chanState ch = 4 → goesTo (exec (.dmaStop f) s) fun t => t.chanState ch = 1 ∧ (t.chan ch).desc = none) ∧
    (s.chanState ch = 5 → goesTo (exec (.dmaClear f) s) fun t => t.chanState ch = 1 ∧ (t.chan ch).desc = none)) ∧
  (∀ (s : State) (ch code : Nat), s.chanOn ch = true → s.chanState ch = 2 → (s.chan ch).desc = none →
    goesTo (exec (.descriptorFetchFail false ch code) s) fun t =>
      t.chanState ch = 5 ∧ t.fget F.DMA_CH_STATUS.code ch = code % 64 ∧ countedUp s t F.DMA_CH_CNT.count ch 7 1) ∧
  (∀ (s : State) (ch : Nat) (fields : List Nat) (d : Desc), chanHas s ch fields d →
    (∀ table data, data.length = d.len → d.mode < 2 ^ 9 → d.mode % 16 = 0 → d.src < 2 ^ 63 → d.len < 2 ^ 32 →
      (bits d.mode 5 4 = 0 → d.dst < 2 ^ 63 → goesTo (exec (.dmaCopy ch fields table data 0) s) fun t =>
        (t.chan ch).ended = some { bytes := d.len } ∧ hostHolds t (chanPart ch) d.dst data ∧ hostOnly s t (chanPart ch) d.dst d.len ∧
        t.cmem = s.cmem) ∧
      (∀ n, bits d.mode 5 4 = 1 → d.dst < 2 ^ 63 → d.index < 2 ^ 63 → 0 < d.esize → d.esize ≤ 65536 → d.len = n * d.esize → table.length = 4 * n →
        goesTo (exec (.dmaCopy ch fields table data 0) s) fun t =>
          (t.chan ch).ended = some { bytes := d.len } ∧ hostHolds t (chanPart ch) d.dst data ∧ hostOnly s t (chanPart ch) d.dst d.len) ∧
      (∀ a, bits d.mode 5 4 = 0 → d.dst = 2 ^ 63 + a → a < 2 ^ 52 → 64 ≤ ch → a + d.len ≤ 2 ^ 24 →
        goesTo (exec (.dmaCopy ch fields table data 0) s) fun t =>
          (t.chan ch).ended = some { bytes := d.len } ∧ t.hostMem = s.hostMem ∧
          (∀ j, j < d.len → (a + j) % 8 < 4 → t.cmemByte (a + j) = data.getD j 0) ∧
          (∀ j, j < d.len → (a + j) % 8 = 4 → (t.cmemByte (a + j)).toNat = (data.getD j 0).toNat % 16) ∧
          ∀ w, (8 * w + 8 ≤ a ∨ a + d.len ≤ 8 * w) → t.cget w = s.cget w)) ∧
    (d.mode % 16 = 0 → 2 ^ 9 ≤ d.mode → ∀ table data, goesTo (exec (.dmaCopy ch fields table data 0) s) fun t =>
      (t.chan ch).ended = some { code := 8 } ∧ t.hostMem = s.hostMem ∧ t.cmem = s.cmem) ∧
    (∀ w data, d.mode < 2 ^ 9 → d.mode % 64 = 1 → d.dst = 2 ^ 63 + 2 * 2 ^ 59 + w → w < 2 ^ 52 → d.src < 2 ^ 63 → data.length = d.len →
      60 ≤ d.len → d.len ≤ 10236 → (s.pickBuf (poolFor (d.len + 4))).isSome = true →
      (s.admitPart s.tagNow (chanPart ch) (poolCharge (poolFor (d.len + 4)))).isSome = true →
      goesTo (exec (.dmaSend ch fields data 0) s) fun t =>
        countedUp s t F.DMA_CH_CNT.count ch 6 1 ∧ ∃ e, (t.chan ch).ended = some e ∧ e.bytes = d.len ∧ (e.code = 0 ∨ e.code = 10) ∧
          (s.setFor s.tagNow (chanPart ch) (bits w 7 0) = none → e.code = 10 ∧ e.sub = 1)) ∧
    (∀ g data, d.mode < 2 ^ 9 → d.mode % 64 = 2 → d.dst = 2 ^ 63 + 3 * 2 ^ 59 + g → g < 4 → d.src < 2 ^ 63 → data.length = d.len →
      60 ≤ d.len → d.len ≤ 10236 → (s.pickBuf (poolFor (d.len + 4))).isSome = true →
      (s.admitPart s.tagNow (chanPart ch) (poolCharge (poolFor (d.len + 4)))).isSome = true →
      goesTo (exec (.dmaInject ch fields data 0) s) fun t =>
        if 64 ≤ (s.group g).inject.length then (t.chan ch).ended = none ∧ t.groups = s.groups ∧ t.bufs = s.bufs
        else (t.chan ch).ended = some { bytes := d.len } ∧ (t.group g).inject = (s.group g).inject ++ [s.nextFrame] ∧
          ∃ x, t.frame s.nextFrame = some x ∧ x.len = d.len + 4 ∧ x.bytes.take d.len = data ∧ x.injected = some (chanPart ch)) ∧
    (d.mode < 2 ^ 9 → d.mode % 64 = 3 → d.dst < 2 ^ 63 → d.len < 2 ^ 32 →
      (s.puntReady ch = none → goesTo (exec (.dmaRecv ch fields) s) fun t =>
        t.chanState ch = 4 ∧ (t.chan ch).desc = some d ∧ t.hostMem = s.hostMem) ∧
      (∀ q x b, s.puntReady ch = some (q, x) → x.len ≠ 0 → x.trace = none → s.buf x.handle = some b → b.quar = false →
        goesTo (exec (.dmaRecv ch fields) s) fun t =>
          hostHolds t (chanPart ch) d.dst (s.bufBytes x.handle 0 (min x.len d.len)) ∧
          tabGet [] t.punts (chanPart ch * 16 + q) = (tabGet [] s.punts (chanPart ch * 16 + q)).drop 1 ∧
          ∃ e, (t.chan ch).ended = some e ∧ e.code = 0 ∧ e.bytes = min x.len d.len ∧ (e.trunc = true ↔ d.len < x.len)))) ∧
  (∀ (s : State) (ch q : Nat) (d : Desc) (x : Punt) (b : Buf), s.chanOn ch = true → s.chanState ch = 4 → (s.chan ch).desc = some d →
    s.puntReady ch = some (q, x) → d.mode < 2 ^ 9 → d.mode % 64 = 3 → d.dst < 2 ^ 63 → d.len < 2 ^ 32 → x.len ≠ 0 → x.trace = none →
    s.buf x.handle = some b → b.quar = false →
    goesTo (exec (.recvPuntReady ch) s) fun t =>
      t.chanState ch = 2 ∧ hostHolds t (chanPart ch) d.dst (s.bufBytes x.handle 0 (min x.len d.len)) ∧
      ∃ e, (t.chan ch).ended = some e ∧ e.code = 0 ∧ e.bytes = min x.len d.len) ∧
  (∀ (s : State) (ch : Nat) (d : Desc) (e : DescEnd), s.chanState ch = 2 → (s.chan ch).desc = some d → (s.chan ch).ended = some e →
    d.addr < 2 ^ 63 → e.code = 0 → e.handle = none → e.punt = [] → bits d.mode 8 6 = 0 →
    goesTo (exec (.descriptorComplete ch) s) fun t =>
      hostHolds t (chanPart ch) (d.addr + 0x38)
        (bytesLE 8 (2 ^ 63 + e.sub * 2 ^ 52 + (if e.trunc then 2 ^ 51 else 0) + e.bytes % 2 ^ 32)) ∧
      hostOnly s t (chanPart ch) (d.addr + 0x38) 8 ∧ countedUp s t F.DMA_CH_STATUS.done ch 0 1 ∧ countedUp s t F.DMA_CH_CNT.count ch 0 1 ∧
      countedUp s t F.DMA_CH_CNT.count ch 2 e.bytes ∧ (t.chan ch).ended = none ∧
      if (s.chan ch).stopping then t.chanState ch = 1 ∧ (t.chan ch).desc = none
      else if d.next = 0 then t.chanState ch = 3 ∧ (t.chan ch).desc = some d
      else t.chanState ch = 2 ∧ (t.chan ch).desc = none ∧ (d.next < 2 ^ 63 → (t.chan ch).fetch = d.next / 64 * 64)) ∧
  (∀ (s : State) (ch : Nat), s.frozen = false → goesTo (exec (.ringModerationTimer ch) s) fun t =>
    (t.chan ch).pendingRecs = 0 ∧ ((s.chan ch).pendingRecs = 0 → t = s)) ∧
  (∀ (s : State) (f : Func) (ch v : Nat), opens s f .DMA_RING_CONS 0 ch → (s.chan ch).lostSince = 0 →
    goesTo (exec (.ringConsWrite f v) s) fun t => t.fget F.DMA_RING_CONS.index ch = v % 2 ^ 16 ∧ t.chans = s.chans) ∧
  (∀ (s : State) (f : Func) (ch v : Nat), opens s f .DMA_RING_CFG 0 ch →
    goesTo (exec (.ringCfgWrite f v) s) fun t =>
      t.fget F.DMA_RING_CFG.en ch = bits v 35 35 ∧ t.fget F.DMA_RING_CFG.size ch = bits v 34 31 ∧ t.fget F.DMA_RING_CFG.vec ch = bits v 30 20 ∧
      (v.testBit 35 = false → t.fget F.DMA_RING_PROD.index ch = 0 ∧ t.fget F.DMA_RING_CONS.index ch = 0))

/-- R468–R482. The commands of the cipher lanes. Model's own readings in it: log entries 10, 55. -/
def Obligations.CipherLanesServeTheirHolders : Prop :=
  (∀ (s : State) (f : Func) (l : Nat), l < 8 → opens s f .CPH_LOCK 0 l →
    (s.holderOf l = 31 → s.flag F.CPH_LOCK.fenced l = false → s.flag F.CPH_LOCK.zeroising l = false →
      s.lanesHeld f.part < bits (s.partWord f.part 23) 19 16 →
      goesTo (exec (.cphLockReq f) s) fun t =>
        t.holderOf l = f.part ∧ t.laneState l = 1 ∧ (∀ i, i < 8 → t.fget F.CPH_CNT.count l i = 0) ∧ t.lanes = s.lanes) ∧
    (s.holderOf l ≠ 31 → goesTo (exec (.cphLockReq f) s) fun t => t.holderOf l = s.holderOf l ∧ t.lanes = s.lanes) ∧
    (s.holderOf l = f.part → f.part < 17 → s.flag F.CPH_LOCK.zeroising l = false → (s.lane l).desc = none →
      goesTo (exec (.cphLockRel f) s) fun t =>
        t.flag F.CPH_LOCK.zeroising l = true ∧ t.laneState l = 0 ∧ (t.lane l).key = [] ∧ (t.lane l).staged = [] ∧
        t.flag F.CPH_KEY_CTL.ready l = false)) ∧
  (∀ (s : State) (l : Nat), s.flag F.CPH_LOCK.zeroising l = true → goesTo (exec (.zeroiseDone l) s) fun t =>
    t.holderOf l = 31 ∧ t.flag F.CPH_LOCK.zeroising l = false ∧ t.rd .CPH_HEAD l = 0) ∧
  (∀ (s : State) (f : Func) (l a k : Nat), opens s f .CPH_KEY_CTL 0 l → a < 16 → k < 128 →
    ((s.laneState l = 1 ∨ s.laneState l = 3) → klenOk a k = true → (∀ i, i < (k + 3) / 4 → (s.lane l).written.testBit i = true) →
      goesTo (exec (.cphKeyLoad f a k) s) fun t =>
        t.fget F.CPH_KEY_CTL.done l = 0 ∧ (t.lane l).loading = some (a, stagedKey (s.lane l) k) ∧ (t.lane l).staged = [] ∧
        (t.lane l).written = 0) ∧
    (s.laneState l = 2 → goesTo (exec (.cphKeyLoad f a k) s) fun t =>
      t.fget F.CPH_KEY_CTL.done l = 1 ∧ t.fget F.CPH_KEY_CTL.result l = 1 ∧ (t.lane l).key = (s.lane l).key)) ∧
  (∀ (s : State) (l a : Nat) (key : List Byte), (s.lane l).loading = some (a, key) → goesTo (exec (.keyLoadDone l) s) fun t =>
    (t.lane l).key = key ∧ (t.lane l).loading = none ∧ t.fget F.CPH_STATUS.alg l = a % 16 ∧ t.flag F.CPH_KEY_CTL.ready l = true ∧
    t.fget F.CPH_KEY_CTL.done l = 1) ∧
  (∀ (s : State) (f : Func) (l : Nat), opens s f .CPH_CTL 0 l →
    (s.laneState l = 1 → s.flag F.AON_STATUS.safe_global = false → 0xC00 ∉ s.flt.fenced → goesTo (exec (.cphGo f) s) fun t =>
      t.laneState l = 2 ∧ (t.lane l).desc = none ∧ (s.fget F.CPH_HEAD.addr l < 2 ^ 63 → (t.lane l).fetch = s.fget F.CPH_HEAD.addr l / 64 * 64)) ∧
    (∀ d next, s.laneState l = 3 → 0xC00 ∉ s.flt.fenced → (s.lane l).desc = some d → d.addr < 2 ^ 63 → next ≠ 0 → next < 2 ^ 63 →
      goesTo (exec (.cphBell f next) s) fun t => t.laneState l = 2 ∧ (t.lane l).desc = none ∧ (t.lane l).fetch = next / 64 * 64) ∧
    (s.laneState l = 3 → goesTo (exec (.cphStop f) s) fun t => t.laneState l = 1 ∧ (t.lane l).desc = none) ∧
    (s.laneState l = 4 → goesTo (exec (.cphClear f) s) fun t => t.laneState l = 1 ∧ (t.lane l).desc = none)) ∧
  (∀ (s : State) (l : Nat) (fields : List Nat) (d : Desc), laneHas s l fields d →
    let p := s.holderOf l
    let alg := s.fget F.CPH_STATUS.alg l
    let key := (s.lane l).key
    let n := jobLen d
    (s.jobCheck p alg d).code = 0 → d.src < 2 ^ 63 → d.dst < 2 ^ 63 → d.index < 2 ^ 63 → d.esize < 2 ^ 63 →
    (∀ input iv, d.mode % 16 = 0 → alg = 2 → input.length = jobAad d + n → iv.length = 16 →
      goesTo (exec (.cphEncrypt l fields input iv 0) s) fun t =>
        ∃ out, hostHolds t p d.dst out ∧ hostOnly s t p d.dst n ∧ (t.lane l).ended = some { bytes := n, input := jobAad d + n } ∧ out.length = n ∧
          ∀ j, j < n → out.getD j 0 = (input.drop (jobAad d)).getD j 0 ^^^
            (bytesBE 16 (aesEnc key (BitVec.ofNat 128 (ofBE iv + j / 16))).toNat).getD (j % 16) 0) ∧
    (∀ input iv, d.mode % 16 = 0 → alg = 3 → input.length = jobAad d + n → iv.length = 12 → jobTag d = 16 →
      goesTo (exec (.cphEncrypt l fields input iv 0) s) fun t =>
        let out := cipherOut 3 true key iv (input.drop (jobAad d))
        hostHolds t p d.dst out ∧ hostHolds t p d.esize (bytesBE 16 (gcmTag key iv (input.take (jobAad d)) out).toNat) ∧
        (t.lane l).ended = some { bytes := n, input := jobAad d + n }) ∧
    (∀ input iv tag, d.mode % 16 = 1 → alg = 3 → input.length = jobAad d + n → iv.length = 12 → jobTag d = 16 → tag.length = 16 →
      goesTo (exec (.cphDecrypt l fields input iv tag 0) s) fun t =>
        let good := decide (bytesBE 16 (gcmTag key iv (input.take (jobAad d)) (input.drop (jobAad d))).toNat = tag)
        (t.lane l).ended = some { bytes := n, input := jobAad d + n, code := if good then 0 else 12 }) ∧
    (∀ input, d.mode % 16 = 2 → alg = 4 → input.length = jobAad d + n → jobTag d = 16 →
      goesTo (exec (.cphGenerate l fields input 0) s) fun t =>
        hostHolds t p d.esize (bytesBE 16 (aesCmac key (input.drop (jobAad d))).toNat) ∧ hostOnly s t p d.esize 16 ∧
        (t.lane l).ended = some { input := jobAad d + n }) ∧
    (∀ input tag, d.mode % 16 = 3 → alg = 4 → input.length = jobAad d + n → jobTag d = 16 → tag.length = 16 →
      goesTo (exec (.cphVerify l fields input tag 0) s) fun t =>
        let good := decide (bytesBE 16 (aesCmac key (input.drop (jobAad d))).toNat = tag)
        t.hostMem = s.hostMem ∧ (t.lane l).ended = some { input := jobAad d + n, code := if good then 0 else 12 })) ∧
  (∀ (s : State) (l : Nat) (d : Desc) (e : DescEnd), s.laneState l = 2 → (s.lane l).desc = some d → (s.lane l).ended = some e →
    d.addr < 2 ^ 63 → e.handle = none → s.flag F.CPH_CFG.chan_en l = false →
    (e.code = 0 → bits d.mode 8 6 = 0 → goesTo (exec (.cphJobComplete l) s) fun t =>
      hostHolds t (s.holderOf l) (d.addr + 0x38) (bytesLE 8 (2 ^ 63 + e.bytes % 2 ^ 32)) ∧ countedUp s t F.CPH_CNT.count l 0 1 ∧
      countedUp s t F.CPH_STATUS.done l 0 1 ∧ (t.lane l).ended = none ∧ ((s.lane l).stopping = false → d.next = 0 → t.laneState l = 3)) ∧
    (e.code = 12 → s.fget F.CPH_STATUS.alg l = 3 → descOp d = 1 → d.dst < 2 ^ 63 → d.dst + jobLen d ≤ d.addr →
      goesTo (exec (.cphJobComplete l) s) fun t =>
        hostHolds t (s.holderOf l) d.dst (List.replicate (jobLen d) 0) ∧ countedUp s t F.CPH_CNT.count l 1 1 ∧
        countedUp s t F.CPH_CNT.count l 4 1 ∧ t.fget F.CPH_STATUS.code l = 12)) ∧
  (∀ (s : State) (l code : Nat), s.laneState l = 2 → (s.lane l).desc = none →
    goesTo (exec (.descriptorFetchFail true l code) s) fun t => t.laneState l = 4 ∧ t.fget F.CPH_STATUS.code l = code % 64) ∧
  (∀ (s : State) (l k : Nat), l < 8 → s.laneState l ≠ 5 → goesTo (exec (.cipherFault l k) s) fun t =>
    t.laneState l = 5 ∧ t.holderOf l = 31 ∧ t.flag F.CPH_LOCK.fenced l = true ∧ (t.lane l).key = [])

/-- R487–R525. The commands of device time, SyncE, the pulse per second, snapshots, tracing and energy.
Model's own readings in it: log entries 24, 56, 57. -/
def Obligations.TimeAndCountersFollowTheirCommands : Prop :=
  (∀ (s : State) (f : Func) (c : Nat), opens s f .TIM_STEP_CTL 0 c → s.fget F.TIM_STEP.ns ≤ 999999999 →
    let held : Nat → Nat → State → Prop := fun op hi t =>
      t.time.step = some (op, timeOf (hi % 2 ^ 12) (s.rd .TIM_STEP)) ∧ t.fget F.TIM_STEP_CTL.done = 0 ∧ t.time.now = s.time.now
    (s.time.step = none →
      (∀ hi, goesTo (exec (.stepSet f hi) s) (held 1 hi)) ∧ (∀ hi, goesTo (exec (.stepAdd f hi) s) (held 2 hi)) ∧
      ∀ hi, goesTo (exec (.stepSub f hi) s) (held 3 hi)) ∧
    (s.time.step ≠ none → ∀ hi, goesTo (exec (.stepSet f hi) s) fun t =>
      t.time.step = s.time.step ∧ t.fget F.TIM_STEP_CTL.done = 1 ∧ t.fget F.TIM_STEP_CTL.result = 1)) ∧
  (∀ (s : State) (op n : Nat), s.time.step = some (op, n) → goesTo (exec .stepApply s) fun t =>
    let whole := 2 ^ 48 * secUnits
    t.time.step = none ∧ t.flag F.TIM_STATUS.valid = true ∧ t.flag F.TIM_STATUS.lock = false ∧
    countedUp s t F.TIM_STATUS.steps 0 0 1 ∧ countedUp s t F.TIM_CNT.count 0 2 1 ∧ (t.rd .TIM_LAST_STEP).toNat = stampOf t.time.now ∧
    (op = 1 → t.time.now = n % whole) ∧ (op = 2 → t.time.now = (s.time.now + n) % whole) ∧
    (op = 3 → n ≤ s.time.now → s.time.now < whole → t.time.now = s.time.now - n)) ∧
  (∀ (s : State) (f : Func) (c v : Nat), opens s f .TIM_RATE 0 c → goesTo (exec (.timRateWrite f v) s) fun t =>
    t.fget F.TIM_RATE.rate c = v % 2 ^ 36 ∧ t.time = s.time) ∧
  (∀ (s : State) (f : Func) (c b : Nat), opens s f .TIM_LOCK 0 c →
    (0xC10 ∉ s.flt.fenced → goesTo (exec (.lockRenew f b) s) fun t =>
      t.flag F.TIM_STATUS.lock = true ∧ t.flag F.TIM_SYNC_ERR.locked = true ∧ t.fget F.TIM_SYNC_ERR.err = b % 2 ^ 20 ∧
      t.time.renewBound = b % 2 ^ 20 ∧ t.time.renewCycles = s.time.cycles) ∧
    (s.flag F.TIM_STATUS.lock = true → goesTo (exec (.lockDrop f) s) fun t =>
      t.flag F.TIM_STATUS.lock = false ∧ t.flag F.TIM_SYNC_ERR.locked = false ∧ t.fget F.TIM_SYNC_ERR.err = 1048575)) ∧
  (∀ (s : State) (e : Nat), s.flag F.TIM_STATUS.lock = true →
    s.time.renewBound * 25600000000 + s.fget F.TIM_LOCK_CFG.drift * (s.time.cycles - s.time.renewCycles) ≤ e * 25600000000 →
    (e - 1) * 25600000000 < s.time.renewBound * 25600000000 + s.fget F.TIM_LOCK_CFG.drift * (s.time.cycles - s.time.renewCycles) → 0 < e →
    goesTo (exec .lockErrUpdate s) fun t =>
      if e ≤ s.fget F.TIM_LOCK_CFG.max_err then t.flag F.TIM_STATUS.lock = true ∧ t.fget F.TIM_SYNC_ERR.err = min e 1048575
      else t.flag F.TIM_STATUS.lock = false ∧ t.fget F.TIM_SYNC_ERR.err = 1048575) ∧
  (∀ s : State, s.flag F.TIM_CFG.ref = true →
    (goesTo (exec .refLost s) fun t => t.flag F.TIM_STATUS.ref_ok = false ∧ t.flag F.TIM_STATUS.holdover = true ∧
      t.flag F.TIM_STATUS.lock = false ∧ countedUp s t F.TIM_CNT.count 0 7 1) ∧
    goesTo (exec .refRelock s) fun t => t.flag F.TIM_STATUS.ref_ok = true ∧ t.flag F.TIM_STATUS.holdover = false) ∧
  (∀ s : State,
    (goesTo (exec .ppsOutRise s) fun t => t.time.ppsOut = (s.time.ppsOut || !s.ppsHeld) ∧ t.regs = s.regs) ∧
    (goesTo (exec .ppsOutFall s) fun t => t.time.ppsOut = false ∧ t.regs = s.regs) ∧
    goesTo (exec .ppsInTimeout s) fun t => t.flag F.TIM_STATUS.pps_ok = false) ∧
  (∀ (s : State) (falling : Bool), s.flag F.TIM_CFG.pps_in_en = true → falling = s.flag F.TIM_CFG.pps_edge →
    ((∀ n, s.time.ppsInLast = some n → n + 800000000 ≤ s.time.cycles) → goesTo (exec (.ppsInEdge falling) s) fun t =>
      (t.rd .TIM_PPS_CAP).toNat = stampOf s.time.now ∧ t.flag F.TIM_STATUS.pps_ok = true ∧ t.time.ppsInLast = some s.time.cycles) ∧
    (∀ n, s.time.ppsInLast = some n → s.time.cycles < n + 800000000 → goesTo (exec (.ppsInEdge falling) s) fun t =>
      countedUp s t F.TIM_CNT.count 0 1 1 ∧ t.rd .TIM_PPS_CAP = s.rd .TIM_PPS_CAP)) ∧
  (∀ (s : State) (i : Nat), i < 4 → s.flag F.TIM_SYNCE.squelched 0 i = true → goesTo (exec (.synceRelease i) s) fun t =>
    t.flag F.TIM_SYNCE.squelched 0 i = !s.synceClear i) ∧
  (∀ (s : State) (f : Func) (i c v : Nat), i < 4 → opens s f .TIM_SYNCE i c → v.testBit 35 = false →
    goesTo (exec (.timSynceWrite f i v) s) fun t => t.flag F.TIM_SYNCE.squelched 0 i = true ∧ t.flag F.TIM_SYNCE.en 0 i = false) ∧
  (∀ (s : State) (f : Func) (c : Nat), f.part = 16 → opens s f .CNT_SNAP_CTL 0 c →
    let at_ := s.timeAt (s.rd .CNT_SNAP_AT f.idx)
    (s.snap.time = none → 0xC20 ∉ s.flt.fenced → s.fget F.CNT_SNAP_AT.ns f.idx ≤ 999999999 → s.time.now + 2000 * 2 ^ 48 ≤ at_ → at_ ≤ s.time.now + 10 * secUnits →
      viewBytes (s.view f) ≤ s.fget F.CNT_SNAP_LEN.bytes f.idx → s.snapRange f = false →
      goesTo (exec (.snap f) s) fun t =>
        t.snap.time = some at_ ∧ t.snap.parts = [f.idx] ∧ t.snap.captured = false ∧ t.snap.seq = (s.snap.seq + 1) % 4096 ∧
        (t.rd .CNT_SNAP_TIME).toNat = stampOf at_ ∧ t.fget F.CNT_SNAP_RES.pending f.idx = 1) ∧
    (s.snap.time ≠ none → goesTo (exec (.snap f) s) fun t =>
      t.snap = s.snap ∧ t.fget F.CNT_SNAP_RES.done f.idx = 1 ∧ t.fget F.CNT_SNAP_RES.code f.idx = 1) ∧
    (∀ n, s.snap.time = some n → s.snap.captured = false → s.time.now + 2000 * 2 ^ 48 ≤ n → f.idx ∉ s.snap.parts →
      viewBytes (s.view f) ≤ s.fget F.CNT_SNAP_LEN.bytes f.idx → s.snapRange f = false →
      goesTo (exec (.snapJoin f) s) fun t => t.snap.parts = s.snap.parts ++ [f.idx] ∧ t.fget F.CNT_SNAP_RES.pending f.idx = 1)) ∧
  (∀ (s : State) (n : Nat), s.snap.time = some n → s.snap.captured = false → goesTo (exec .snapCapture s) fun t =>
    t.snap.captured = true ∧ max s.time.now n = t.time.now ∧ t.regs = s.regs ∧
    ∀ b i, i < bankCount b → (∀ k, bankBlock b = some k → k ∉ s.held) → tabGet 0 t.snap.shadow (b * 128 + i) = s.bankLive b i) ∧
  (∀ (s : State) (n i : Nat) (rest : List Nat), s.snap.time = some n → s.snap.captured = true → s.snap.parts = i :: rest → i < 18 →
    s.fget F.CNT_SNAP_DST.addr i < 2 ^ 63 → goesTo (exec .gatherDone s) fun t =>
      t.snap.parts = rest ∧ t.snap.time = (if rest = [] then none else some n) ∧ t.fget F.CNT_SNAP_RES.done i = 1 ∧
      t.fget F.CNT_SNAP_RES.code i = 0 ∧ t.fget F.CNT_SNAP_RES.pending i = 0) ∧
  (∀ (s : State) (f : Func) (c v : Nat), opens s f .CNT_TRACE 0 c → goesTo (exec (.cntTraceWrite f v) s) fun t =>
    t.rd .CNT_TRACE c = maskWrite .CNT_TRACE (s.rd .CNT_TRACE c) (BitVec.ofNat 72 (v % 2 ^ 36)) ∧
    (s.flag F.CNT_TRACE.en = false → t.flag F.CNT_TRACE.en = true → t.trace.lfsr = 0x5AC3E1)) ∧
  (∀ (s : State) (r mv nj nc : Nat), r < 8 → (0xC50 + r) ∉ s.flt.fenced → goesTo (exec (.railSample r mv nj nc) s) fun t =>
    t.rail r 0 = (s.rail r 0 + nj) % 2 ^ 72 ∧ t.rail r 1 = (s.rail r 1 + nc) % 2 ^ 72 ∧ ∀ q, q < 8 → q ≠ r → ∀ i, i < 2 → t.rail q i = s.rail q i)

/-- R531–R561. FAULT_DETECTED, the commands of `FLT`, `SAFE_REQ_N`, the wear monitors, the promotions and the row repairs.
Model's own readings in it: log entries 58, 60, 63. -/
def Obligations.FaultsAreRecordedClearedAndRepaired : Prop :=
  (∀ (s : State) (cause u d4 d5 : Nat) (corr : Bool) (sc : Option Nat) (items : List Nat), unitAssigned u = false →
    goesTo (exec (.faultDetected cause u d4 d5 corr sc items) s) fun t => t = s) ∧
  (∀ (s : State) (cause u d4 d5 : Nat), unitAssigned u = true →
    (cause ∈ [5, 26, 28, 39, 43] → (∀ r ∈ s.flt.recs, r.busy = false) →
      goesTo (exec (.faultDetected cause u d4 d5 false none []) s) fun t => countedUp s t F.FLT_CNT.count 0 3 1 ∧ t.flt.recs = s.flt.recs) ∧
    (∀ r, cause ∈ [5, 26, 28, 39, 43] → s.flt.recs = [r] → r.busy = true → r.unit = u → r.cls ≤ 4 →
      goesTo (exec (.faultDetected cause u d4 d5 false none []) s) fun t =>
        countedUp s t F.FLT_CNT.count 0 4 1 ∧ ∃ x, t.flt.recs = [x] ∧ x.merged = min (r.merged + 1) 255 ∧ x.mUnit = u ∧ x.mCause = cause) ∧
    (goesTo (exec (.faultDetected 18 u d4 d5 true none []) s) fun t => countedUp s t F.FLT_CNT.count 0 2 1 ∧ t.flt.recs = s.flt.recs) ∧
    (0xC50 ≤ u → u < 0xC58 → goesTo (exec (.faultDetected 35 u d4 d5 false none []) s) fun t => u ∈ t.flt.fenced) ∧
    (cause ∈ [19, 36, 37, 38, 40, 41] → (cause ∈ [19, 36, 41] → s.frozen = false) → goesTo (exec (.faultDetected cause u d4 d5 false none []) s) fun t =>
      t.flag F.AON_STATUS.safe_global = true ∧ t.flag F.AON_STATUS.grave = true ∧
      (s.flag F.AON_STATUS.grave = false → t.fget F.AON_GRAVE.cause = cause))) ∧
  (∀ (s : State) (f : Func) (c n : Nat), opens s f .FLT_CLEAR 0 c → f.part = 16 → n < 64 →
    (s.slotRec n = none → goesTo (exec (.fltClearSlot f n) s) fun t =>
      t.fget F.FLT_CLEAR_RES.done f.idx = 1 ∧ t.fget F.FLT_CLEAR_RES.result f.idx = 2 ∧ t.flt = s.flt) ∧
    (∀ r, s.slotRec n = some r →
      (r.cls = 4 → goesTo (exec (.fltClearSlot f n) s) fun t => t.fget F.FLT_CLEAR_RES.result f.idx = 3 ∧ t.flt = s.flt) ∧
      (r.cls = 3 → r.busy = true → goesTo (exec (.fltClearSlot f n) s) fun t => t.fget F.FLT_CLEAR_RES.result f.idx = 4 ∧ t.flt = s.flt) ∧
      (r.cls = 3 → r.busy = false → goesTo (exec (.fltClearSlot f n) s) fun t =>
        t.fget F.FLT_CLEAR_RES.done f.idx = 1 ∧ t.fget F.FLT_CLEAR_RES.result f.idx = 0 ∧ t.slotRec n = none ∧
        countedUp s t F.FLT_CNT.count 0 6 1))) ∧
  (∀ (s : State) (f : Func) (c : Nat), opens s f .FLT_CLEAR 0 c → goesTo (exec (.fltClearOverflow f) s) fun t =>
    if f.part = 16 then t.flag F.FLT_STATUS.overflow = false ∧ t.fget F.FLT_CLEAR_RES.result f.idx = 0
    else t.flag F.FLT_STATUS.overflow = s.flag F.FLT_STATUS.overflow ∧ t.fget F.FLT_CLEAR_RES.result f.idx = 1) ∧
  (∀ (s : State) (f : Func) (c v : Nat), opens s f .FLT_BENCH_CMD 0 c → v.testBit 35 = true →
    (unitKind (bits v 11 0) = none → goesTo (exec (.fltBenchCmd f v) s) fun t =>
      t.fget F.FLT_BENCH_CMD.done = 1 ∧ t.fget F.FLT_BENCH_CMD.result = 1 ∧ t.flt = s.flt) ∧
    (∀ k b rest, unitKind (bits v 11 0) = some k → k ≠ 2 → s.inService k (bits v 11 0) = true →
      s.benchUnits k (unitScope k (bits v 11 0)) = b :: rest → s.scopeBusy k (unitScope k (bits v 11 0)) = false → s.castlePending = false →
      goesTo (exec (.fltBenchCmd f v) s) fun t =>
        t.fget F.FLT_BENCH_CMD.result = 0 ∧ ∃ x ∈ t.flt.promos, x.unit = bits v 11 0 ∧ x.spare = b ∧ x.kind = k)) ∧
  (∀ (s : State) (f : Func) (aon : Bool) (c : Nat), (if aon then opens s f .AON_TAIL_ADDR 0 c else opens s f .FLT_TAIL_ADDR 0 c) →
    goesTo (exec (.tailRearm f aon) s) fun t =>
      t.flt.tail = [] ∧ t.fget F.AON_TAIL_STATUS.entries = 0 ∧ t.fget F.AON_TAIL_STATUS.dropped = 0 ∧
      t.flag F.AON_TAIL_STATUS.frozen = false) ∧
  (∀ s : State,
    (goesTo (exec .safeReqAssert s) fun t => t.flt.safeReq = true ∧ t.flt.safeHold = false ∧ t.flag F.AON_STATUS.safe_global = true) ∧
    (goesTo (exec .safeReqRelease s) fun t =>
      t.flt.safeReq = false ∧ t.flt.safeHold = (s.flt.safeReq || s.flt.safeHold) ∧ t.regs = s.regs) ∧
    (s.flt.safeHold = true → goesTo (exec .safeReqHoldExpiry s) fun t =>
      t.flt.safeHold = false ∧ t.flag F.AON_STATUS.safe_global =
        (s.flag F.AON_STATUS.safe_global && (s.flag F.AON_STATUS.grave || s.flt.safeReq))) ∧
    (s.flag F.AON_STATUS.grave = true → s.fget F.AON_GRAVE.cycle ≠ 0 → s.power.op = none → s.power.pwrEn = 255 → s.power.porWait = false →
      goesTo (exec .graveCycleTimer s) fun t =>
        t.power.op = some 5 ∧ t.power.down = true ∧ t.power.pwrEn = 127 ∧ t.flag F.AON_STATUS.main_on = false) ∧
    (s.flag F.AON_STATUS.grave = false → goesTo (exec .graveCycleTimer s) fun t => t = s)) ∧
  (∀ (s : State) (m u l v r : Nat),
    (unitAssigned u = true → goesTo (exec (.wearLevelCrossed m u l v r) s) fun t =>
      tabGet 0 t.flt.wear (wearKey m u l) = v ∧ (wearKey m u l ∈ t.flt.crossed ↔ s.wearPast m v = true)) ∧
    (wearKey m u l ∉ s.flt.crossed → goesTo (exec (.wearAdvisoryRepeat m u l r) s) fun t => t = s) ∧
    (m = 6 → wearKey m u l ∈ s.flt.crossed → (∀ x ∈ s.flt.recs, x.busy = false) → goesTo (exec (.wearAdvisoryRepeat m u l r) s) fun t =>
      countedUp s t F.FLT_CNT.count 0 3 1 ∧ t.flt.crossed = s.flt.crossed)) ∧
  (∀ (s : State) (u : Nat),
    (s.flt.deferred.find? (fun p => p.unit = u) = none → goesTo (exec (.deferredPromotion u) s) fun t => t = s) ∧
    (∀ p b, s.flt.deferred.find? (fun p => p.unit = u) = some p → p.kind ≠ 2 → s.castlePending = false →
      s.scopeBusy p.kind (unitScope p.kind u) = false → s.autoSpare p.kind u = some b →
      goesTo (exec (.deferredPromotion u) s) fun t =>
        (∃ x ∈ t.flt.promos, x.unit = u ∧ x.spare = b ∧ x.reason = p.reason) ∧ ∀ x ∈ t.flt.deferred, x.unit ≠ u)) ∧
  (∀ (s : State) (m row : Nat), m < 64 → s.reacting (0xA00 + m) = true →
    (s.rowsUsed (0xA00 + m) < 32 → goesTo (exec (.bufferRowRepair m row) s) fun t =>
      t.rowsUsed (0xA00 + m) = s.rowsUsed (0xA00 + m) + 1 ∧ t.flt.withdrawn = s.flt.withdrawn) ∧
    (32 ≤ s.rowsUsed (0xA00 + m) → goesTo (exec (.bufferRowRepair m row) s) fun t =>
      ∀ h ∈ s.rowBuffers m row, h ∈ t.flt.withdrawn ∨ 2 ^ 40 + h ∈ t.flt.withdrawn)) ∧
  (∀ (s : State) (b : Nat) (r : FaultRec), b < 32 → s.flt.recs.find? (fun r => r.busy && r.unit = 0xA40 + b) = some r →
    (s.rowsUsed (0xA40 + b) < 16 → goesTo (exec (.schedRowRepair b) s) fun t =>
      t.rowsUsed (0xA40 + b) = s.rowsUsed (0xA40 + b) + 1 ∧ t.flt.safePorts = s.flt.safePorts) ∧
    (16 ≤ s.rowsUsed (0xA40 + b) → r.cause = 20 → goesTo (exec (.schedRowRepair b) s) fun t => r.d5 % 256 ∈ t.flt.safePorts)) ∧
  (∀ (s : State) (p : Nat), s.flt.promos.any (fun x => x.unit = p ∧ (x.kind = 6 ∨ x.kind = 7)) = true →
    goesTo (exec (.pllPromoteLock p) s) fun t => (∀ x ∈ t.flt.promos, x.unit ≠ p) ∧ (p / 8, p) ∉ t.flt.safeMacros)

/-- R562–R581. The commands of `PWR`, the wakes, the watchdog, the rails and the sensors.
Model's own readings in it: log entries 23, 25, 26. -/
def Obligations.PowerStatesAndSensorsRespond : Prop :=
  (∀ (s : State) (f : Func) (c : Nat), opens s f .PWR_CTL 0 c →
    let done : Nat → State → Prop := fun r t => t.fget F.PWR_STATUS.done = 1 ∧ t.fget F.PWR_STATUS.result = r
    (s.flag F.PWR_STATUS.moving = false →
      (s.pstate = psService → goesTo (exec (.pwrTargetDoze f) s) fun t => t.pstate = psDoze ∧ done 0 t) ∧
      (s.pstate = psDoze → goesTo (exec (.pwrTargetService f) s) fun t => t.pstate = psService ∧ done 0 t) ∧
      (s.pstate = psService → s.restCode = 0 → goesTo (exec (.pwrTargetRest f) s) fun t =>
        t.power.entering = true ∧ t.flag F.PWR_STATUS.moving = true ∧ t.fget F.PWR_STATUS.done = 0)) ∧
    (s.flag F.PWR_STATUS.moving = true →
      (goesTo (exec (.pwrTargetDoze f) s) fun t => t.pstate = s.pstate ∧ done 1 t) ∧
      (goesTo (exec (.pwrTargetService f) s) fun t => t.pstate = s.pstate ∧ done 1 t) ∧
      goesTo (exec (.pwrTargetRest f) s) fun t => t.pstate = s.pstate ∧ done 1 t)) ∧
  (∀ s : State, s.pstate ≤ psDoze → goesTo (exec .loadSample s) fun t =>
    t.fget F.PWR_STATUS.load = min 255 (((s.group 0).jobsMs + (s.group 1).jobsMs + (s.group 2).jobsMs + (s.group 3).jobsMs) * 100 / 76800000) ∧
    ∀ g, g < 4 → (t.group g).jobsMs = 0) ∧
  (∀ (s : State) (p l : Nat), l < 8 →
    (s.pstate = psDoze → s.portState p = pUp → goesTo (exec (.eyeReadapt p l) s) fun t => p * 8 + l ∈ t.power.adapting) ∧
    goesTo (exec (.eyeReadaptEnd p l) s) fun t => p * 8 + l ∉ t.power.adapting ∧ t.regs = s.regs) ∧
  (∀ s : State, s.power.entering = true → s.power.wake = 0 → goesTo (exec .restEntryComplete s) fun t =>
    t.pstate = psRest ∧ t.power.entering = false ∧ t.flag F.PWR_STATUS.moving = false ∧ t.fget F.PWR_STATUS.done = 1 ∧
    t.fget F.PWR_STATUS.result = 0 ∧ t.flag F.TIM_STATUS.lock = false ∧ t.tbl.waiting = []) ∧
  (∀ s : State, s.power.leaving = true → goesTo (exec .restExitComplete s) fun t =>
    t.pstate = psService ∧ t.power.leaving = false ∧ t.flag F.PWR_STATUS.moving = false ∧ t.fget F.PWR_CLK.core_lock = 1) ∧
  (∀ (s : State) (i : Nat), i < 4 → (s.fget F.AON_WAKE.pin_en).testBit i = true → s.power.entering = false → s.pstate = psRest →
    s.power.leaving = false → s.power.op = none →
    goesTo (exec (.wakePin i) s) fun t => t.power.leaving = true ∧ t.flag F.PWR_STATUS.moving = true ∧ t.fget F.AON_WAKE.cause = 2 ^ i) ∧
  (∀ s : State, s.flag F.AON_WAKE.alarm_en = true → s.fget F.AON_ALARM.sec ≠ 0 → s.fget F.AON_RTC.sec % 2 ^ 36 = s.fget F.AON_ALARM.sec →
    s.power.entering = false → s.pstate = psRest → s.power.leaving = false → s.power.op = none →
    goesTo (exec .rtcAlarm s) fun t => t.power.leaving = true ∧ t.fget F.AON_WAKE.cause = 16) ∧
  (∀ (s : State) (f : Func) (c : Nat), opens s f .AON_WDT_KICK 0 c →
    (goesTo (exec (.wdtKick f 0xC3) s) fun t =>
      t.fget F.AON_WDT_KICK.left = max 1 (s.fget F.AON_WDT_CFG.timeout) ∧ t.fget F.AON_WDT_KICK.bad = s.fget F.AON_WDT_KICK.bad) ∧
    ∀ k, k < 256 → k ≠ 0xC3 → goesTo (exec (.wdtKick f k) s) fun t =>
      t.fget F.AON_WDT_KICK.left = s.fget F.AON_WDT_KICK.left ∧ countedSat s t F.AON_WDT_KICK.bad 0 0) ∧
  (∀ (s : State) (f : Func) (c v : Nat), opens s f .AON_WDT_CFG 0 c →
    (s.flag F.AON_WDT_CFG.lock = true → goesTo (exec (.wdtCfgWrite f v) s) fun t =>
      t.flag F.AON_WDT_CFG.lock = true ∧ t.flag F.AON_WDT_CFG.en = s.flag F.AON_WDT_CFG.en ∧
      t.fget F.AON_WDT_CFG.timeout = s.fget F.AON_WDT_CFG.timeout) ∧
    (s.flag F.AON_WDT_CFG.lock = false → goesTo (exec (.wdtCfgWrite f v) s) fun t =>
      t.fget F.AON_WDT_CFG.en = bits v 35 35 ∧ t.fget F.AON_WDT_CFG.lock = bits v 34 34 ∧ t.fget F.AON_WDT_CFG.timeout = bits v 15 0)) ∧
  (∀ s : State, s.wdtRuns = true → goesTo (exec .watchdogExpiry s) fun t =>
    t.fget F.AON_WDT_KICK.left = 0 ∧ t.flag F.AON_STATUS.grave = true ∧ (s.flag F.AON_STATUS.grave = false → t.fget F.AON_GRAVE.cause = 40)) ∧
  (∀ (s : State) (r mv : Nat), s.pstate ≠ psStandby →
    ((mv < (s.railWindow r).1 ∨ (s.railWindow r).2 < mv) → goesTo (exec (.railOutOfWindow r mv) s) fun t =>
      t.flag F.AON_STATUS.grave = true ∧ t.flag F.AON_STATUS.safe_global = true) ∧
    ((s.railWindow r).1 ≤ mv → mv ≤ (s.railWindow r).2 → goesTo (exec (.railOutOfWindow r mv) s) fun t => t = s)) ∧
  (∀ (s : State) (b : Nat), b < 8 → s.pstate ≠ psStandby → s.power.pwrEn.testBit b = true → goesTo (exec (.pgoodLost b) s) fun t =>
    (t.fget F.AON_SEQ.pgood).testBit b = false ∧ t.flag F.AON_STATUS.grave = true) ∧
  (∀ (s : State) (temps : List Nat), temps.length = 16 → (∀ x ∈ temps, x < 128) → s.pstate ≠ psStandby →
    goesTo (exec (.tempSample temps) s) fun t =>
      (∀ x ∈ temps, x ≤ t.fget F.PWR_THERM.hot) ∧ t.fget F.PWR_THERM.hot ∈ temps ∧
      ((∃ i, i < 16 ∧ i ∈ s.power.hotBefore ∧ 16 + i ∉ s.power.hotBefore ∧ s.critLimit ≤ temps.getD i 0) →
        t.flag F.AON_STATUS.grave = true))

/-- R579, R582, R619–R626. The sequencer, the supplies and the boot. Model's own readings in it: log entries 1, 21, 23. -/
def Obligations.SequencerAndBootRunInOrder : Prop :=
  (∀ (s : State) (f : Func) (c off : Nat), opens s f .AON_SEQ 0 c →
    (s.power.op = none → s.power.pwrEn = 255 → s.power.porWait = false →
      (goesTo (exec (.seqPowerDown f off) s) fun t =>
        t.power.op = some 1 ∧ t.power.down = true ∧ t.power.pwrEn = 127 ∧ t.flag F.AON_STATUS.main_on = false ∧ t.fget F.AON_SEQ.result = 0) ∧
      (goesTo (exec (.seqCycle f off) s) fun t =>
        t.power.op = some 3 ∧ t.power.down = true ∧ t.power.pwrEn = 127 ∧ t.flag F.AON_STATUS.main_on = false ∧ t.fget F.AON_SEQ.off = off % 2 ^ 16) ∧
      (goesTo (exec (.seqMainReset f off) s) fun t =>
        t.power.op = some 4 ∧ t.fget F.AON_BOOT.phase = 2 ∧ t.flag F.AON_STATUS.main_on = false ∧ t.pstate = psService) ∧
      goesTo (exec (.seqPowerUp f off) s) fun t => t.fget F.AON_SEQ.result = 2 ∧ t.power.pwrEn = 255) ∧
    (s.power.op = none → s.power.pwrEn = 0 → goesTo (exec (.seqPowerUp f off) s) fun t =>
      t.power.op = some 2 ∧ t.power.pwrEn = 1 ∧ t.fget F.AON_BOOT.phase = 1 ∧ t.fget F.AON_SEQ.busy = 1 ∧ t.fget F.AON_WAKE.cause = 2 ^ 7) ∧
    (s.power.op ≠ none → goesTo (exec (.seqPowerUp f off) s) fun t => t.fget F.AON_SEQ.result = 1 ∧ t.power = s.power)) ∧
  (∀ s : State, s.power.down = true →
    (s.power.pwrEn = 0 → s.power.porWait = false → goesTo (exec (.powerDownStep true) s) fun t =>
      t.pstate = psStandby ∧ t.power.down = false ∧ (s.power.op = some 1 → t.power.op = none ∧ t.power.offWait = false) ∧
      (s.power.op = some 3 → s.power.failed = false → t.power.op = some 3 ∧ t.power.offWait = true)) ∧
    ∀ b, b < 8 → 2 ^ b ≤ s.power.pwrEn → s.power.pwrEn < 2 ^ (b + 1) → goesTo (exec (.powerDownStep false) s) fun t =>
      t.power.pwrEn = s.power.pwrEn - 2 ^ b ∧ t.power.bit = b) ∧
  (∀ s : State, s.power.offWait = true → goesTo (exec .cycleOffExpiry s) fun t =>
    t.power.pwrEn = 1 ∧ t.power.offWait = false ∧ t.fget F.AON_BOOT.phase = 1) ∧
  (∀ s : State, s.fget F.AON_BOOT.phase = 1 → s.power.down = false →
    (∀ b, b < 7 → s.power.bit = b → s.power.pwrEn = 2 ^ (b + 1) - 1 → goesTo (exec (.pgoodRise b) s) fun t =>
      t.power.pwrEn = 2 ^ (b + 2) - 1 ∧ t.power.bit = b + 1 ∧ (t.fget F.AON_SEQ.pgood).testBit b = true) ∧
    (s.power.bit = 7 → goesTo (exec (.pgoodRise 7) s) fun t =>
      t.fget F.AON_BOOT.phase = 2 ∧ t.power.op = none ∧ t.fget F.AON_SEQ.busy = 0 ∧ t.pstate ≠ psStandby) ∧
    (s.power.pwrEn ≠ 0 → goesTo (exec .pgoodTimeout s) fun t =>
      t.flag F.AON_STATUS.grave = true ∧ t.fget F.AON_BOOT.phase = 8 ∧ t.fget F.AON_BOOT.fail = 1 ∧ t.power.down = true)) ∧
  (∀ s : State, s.power.down = false →
    (s.fget F.AON_BOOT.phase = 2 →
      (goesTo (exec .bootFusesDone s) fun t => t.fget F.AON_BOOT.phase = 3 ∧ t.fget F.PWR_CLK.core_lock = 1 ∧ t.pcie.endpointUp = true) ∧
      goesTo (exec .pllLockTimeout s) fun t => t.fget F.AON_BOOT.phase = 8 ∧ t.fget F.AON_BOOT.fail = 2 ∧ t.flag F.AON_STATUS.grave = true) ∧
    (s.fget F.AON_BOOT.phase = 3 → ∀ failed,
      (goesTo (exec (.selftestDone false false failed) s) fun t => t.power.selftest = some failed ∧ t.regs = s.regs) ∧
      ∀ other, goesTo (exec (.selftestDone true other failed) s) fun t =>
        t.fget F.AON_BOOT.phase = 8 ∧ t.fget F.AON_BOOT.fail = 3 ∧ t.flag F.AON_STATUS.grave = true) ∧
    (s.fget F.AON_BOOT.phase = 3 → s.power.selftest = some [] → goesTo (exec .mainResetRelease s) fun t =>
      t.fget F.AON_BOOT.phase = 4 ∧ t.flag F.AON_STATUS.main_on = true ∧ t.time.now = s.fget F.AON_RTC.sec % 2 ^ 48 * secUnits ∧
      t.frames = [] ∧ t.bufs = [] ∧ t.cmem = [])) ∧
  (∀ (s : State) (h : Nat), s.fget F.AON_BOOT.phase = 4 → h < 4 → s.fget F.HBC_STACK.state h = 0 →
    (∀ x, x < 4 → x ≠ h → s.fget F.HBC_STACK.state x ≠ 0) → goesTo (exec (.hbmTrainingDone h true []) s) fun t =>
      t.fget F.HBC_STACK.state h = 1 ∧ (t.fget F.AON_BOOT.stacks).testBit h = true ∧ t.fget F.AON_BOOT.phase = 5 ∧
      t.fget F.IMG_STATUS.loading = 1 ∧ t.image.load.isSome = true) ∧
  (∀ s : State, goesTo (exec .islandPor s) fun t =>
    t.power = State.reset.power ∧ t.cmem = [] ∧ t.fget F.AON_BOOT.boots = 0 ∧ t.image.key = s.image.key ∧ t.pending = s.pending) ∧
  (∀ s : State, s.power.inPor = false → s.power.porWait = false →
    (s.power.pwrEn = 0 → s.power.down = false → goesTo (exec .porNAssert s) fun t => t.power = State.reset.power) ∧
    (s.power.pwrEn = 255 → s.power.down = false → goesTo (exec .porNAssert s) fun t => t.power.porWait = true ∧ t.power.down = true)) ∧
  (∀ (s : State) (pair : Nat) (m b : Bool), s.power.inPor = true → goesTo (exec (.islandRelease pair m b) s) fun t =>
    t.power.inPor = false ∧ t.power.op = some 2 ∧ t.power.pwrEn = 1 ∧ t.fget F.AON_BOOT.phase = 1 ∧
    t.fget F.GLB_STRAP.pair_id = pair % 2 ∧ (t.flag F.AON_STATUS.bkup = true ↔ m = false)) ∧
  (∀ s : State,
    (goesTo (exec .crystalStable s) fun t => t.power.crystal = true ∧ t.regs = s.regs) ∧
    (s.flag F.AON_STATUS.bkup = false → goesTo (exec .supplySwitch s) fun t =>
      t.flag F.AON_STATUS.bkup = true ∧ countedSat s t F.AON_SUPPLY.switches 0 0 ∧ t.fget F.AON_SUPPLY.main_ok = 0) ∧
    (s.flag F.AON_STATUS.bkup = true →
      (goesTo (exec .supplyReturn s) fun t => t.flag F.AON_STATUS.bkup = false ∧ t.fget F.AON_SUPPLY.main_ok = 1) ∧
      goesTo (exec .bkupSupplyLost s) fun t => t.flag F.AON_STATUS.bkup = false ∧ t.fget F.AON_SUPPLY.bkup_ok = 0))

/-- R583–R586. CONSOLE_READ, CONSOLE_WRITE, CONSOLE_ECHO and the characters that the console discards. The request is 0xA5, the op, the
address field, for WRITE five bytes of the word, and the CRC-8 of what follows 0xA5. Model's own readings in it: log entries 11, 12. -/
def Obligations.ConsoleAnswersItsRequests : Prop :=
  let frame : Nat → Nat → List Byte → List Byte := fun op a word =>
    let body := BitVec.ofNat 8 op :: (bytesLE 4 a ++ word)
    0xA5#8 :: (body ++ [crc8 body])
  (∀ s : State, s.power.inPor = false → s.power.osc = true → s.power.conRx = [] →
    (∀ a, a < 2 ^ 32 → a % 8 = 0 → bits a 30 26 = 0 →
      (goesTo (exec (.consoleEcho (frame 3 a [])) s) fun t =>
        (t.power.response.take 6) = [0x5A#8, 0x00#8] ++ bytesLE 4 a ∧ t.power.response.length = 8 ∧ t.regs = s.regs) ∧
      (∀ r c i, a < 2 ^ 26 → s.reachable .console = true → s.target .console a false = .reg r c i false → r ≠ .BPM_PMIN → r ≠ .TIM_NOW →
        goesTo (exec (.consoleRead (frame 1 a []) false) s) fun t =>
          t.power.response = responseOf 0 0 ((s.readReg .console r c i).toNat % 2 ^ 36)) ∧
      (∀ n, a < 2 ^ 26 → s.target .console a false = .refused n → n < 16 →
        goesTo (exec (.consoleRead (frame 1 a []) false) s) fun t => t.power.response = responseOf 3 n 0) ∧
      (∀ r c i v, a < 2 ^ 26 → v < 2 ^ 36 → storesOnly r = true → s.reachable .console = true → s.target .console a true = .reg r c i false →
        goesTo (exec (.consoleWrite (frame 2 a (bytesLE 5 v)) false) s) fun t =>
          t.rd r c i = maskWrite r (s.rd r c i) (BitVec.ofNat 72 v) ∧ t.power.response = responseOf 0 0 v) ∧
      (2 ^ 31 ≤ a → islandSlot (0x0180000 + a % 2 ^ 26) = false →
        goesTo (exec (.consoleRead (frame 1 a []) false) s) fun t => t.power.response = responseOf 0 0 0 ∧ t.regs = s.regs)) ∧
    (∀ op a v, op ∈ [1, 3] → a < 2 ^ 32 → v ≠ crc8 (BitVec.ofNat 8 op :: bytesLE 4 a) →
      goesTo (exec (.consoleRead ([0xA5#8, BitVec.ofNat 8 op] ++ bytesLE 4 a ++ [v]) false) s) fun t =>
        countedSat s t F.AON_CON_STAT.crc_err 0 0 ∧ (t.power.response.take 2) = [0x5A#8, 0x01#8] ∧ t.fns = s.fns) ∧
    (∀ op a, (3 < op ∨ op = 0 ∨ a % 8 ≠ 0) → op < 256 → op ≠ 2 → a < 2 ^ 32 →
      goesTo (exec (.consoleEcho (frame op a [])) s) fun t => (t.power.response.take 2) = [0x5A#8, 0x02#8] ∧ t.regs = s.regs)) ∧
  (∀ s : State, s.power.inPor = false →
    let line : Byte → Bool → List Bool := fun v stop =>
      (false :: (List.range 8).map fun k => v.getLsbD k).flatMap (List.replicate 16) ++ List.replicate 9 stop
    (goesTo (exec .consoleGapTimeout s) fun t =>
      countedSat s t F.AON_CON_STAT.framing 0 0 ∧ t.power = { s.power with conRx := [] }) ∧
    (s.power.osc = true → s.power.uart = {} → ∀ v : Byte,
      (goesTo (exec (.consoleCharacterDiscard (line v false)) s) fun t =>
        countedSat s t F.AON_CON_STAT.framing 0 0 ∧ t.power.conRx = [] ∧ t.power.uart.hold = decide (v = 0)) ∧
      (s.power.conRx = [] → goesTo (exec (.consoleCharacterDiscard (line v true)) s) fun t =>
        t.regs = s.regs ∧ t.power.uart = {} ∧ t.power.conRx = if v = 0xA5#8 then [v] else []) ∧
      (goesTo (exec (.consoleCharacterDiscard (List.replicate 7 false ++ [true, true])) s) fun t => t = s)) ∧
    (s.power.osc = false → ∀ l : List Bool,
      (false ∈ l → goesTo (exec (.consoleCharacterDiscard l) s) fun t =>
        countedSat s t F.AON_CON_STAT.wake_chars 0 0 ∧ t.power.osc = true ∧ t.power.conRx = []) ∧
      (false ∉ l → goesTo (exec (.consoleCharacterDiscard l) s) fun t => t = s))) ∧
  (∀ s : State, goesTo (exec .consoleLingerExpiry s) fun t => t.power.osc = false ∧ t.regs = s.regs)

/-- R593–R611. The commands of the twin link. Model's own readings in it: log entries 61, 63, 69. -/
def Obligations.TwinPairsDecideAndExchange : Prop :=
  (∀ (s : State) (l : Nat), l < 4 →
    (s.flag F.TWN_CFG.en = true → s.flag F.TWN_LANE.lane_en 0 l = true → s.xlane l = lnTraining → goesTo (exec (.crossLaneUp l) s) fun t =>
      t.xlane l = lnUp ∧ ((s.link = lkTraining ∨ s.link = lkLost) → t.link = lkUp)) ∧
    (s.xlane l = lnUp → goesTo (exec (.crossLaneLoss l) s) fun t => t.xlane l = lnTraining ∧ ∀ k, k < 4 → k ≠ l → t.xlane k = s.xlane k) ∧
    (s.xlane l ≠ lnFenced → goesTo (exec (.crossLaneFault l) s) fun t => t.xlane l = lnFenced ∧ ∀ k, k < 4 → k ≠ l → t.xlane k = s.xlane k) ∧
    (∀ n, s.xlane l = lnUp → acked n s.twin.out ≠ [] →
      (goesTo (exec (.cellResendTimer l n) s) fun t => countedSat s t F.TWN_LANE.resends 0 l ∧ t.twin.out = acked n s.twin.out) ∧
      goesTo (exec (.cellNakRx l n) s) fun t => countedSat s t F.TWN_LANE.resends 0 l ∧ t.twin.out = acked n s.twin.out)) ∧
  (∀ s : State, s.linkControl = true → goesTo (exec .keepaliveTimer s) fun t =>
    t.twin.seq = (s.twin.seq + s.lanesUp.length) % 4096 ∨ s.lanesUp = [] ∧ t = s) ∧
  (∀ (s : State) (n : Nat), s.flag F.TWN_CFG.en = true → (s.link = lkUp ∨ s.link = lkTraining) → goesTo (exec (.crossLinkLost n) s) fun t =>
    t.link = lkLost ∧ t.twin.out = [] ∧ t.fget F.TWN_PEER_TIME.peer_locked = 0 ∧
    (s.twin.silent = false → t.twin.settling = true ∧ t.fget F.TWN_STATUS.decision = 2 ∧
      ∀ p ∈ s.pairs, t.fget F.TWN_DH.state 0 p = if s.fget F.TWN_DH.state 0 p = dhPeer then dhFenced else s.fget F.TWN_DH.state 0 p) ∧
    (s.twin.silent = true → t.fget F.TWN_STATUS.decision = 4 ∧ ∀ p ∈ s.pairs, t.fget F.TWN_DH.state 0 p = dhOwn)) ∧
  (∀ s : State, s.twin.settling = true → s.twin.fromEn = true → s.twin.silent = false → goesTo (exec .settleExpiry s) fun t =>
    t.twin.settling = true ∧ t.twin.fromEn = false ∧ t.fget F.TWN_STATUS.decision = 2 ∧
    ∀ p ∈ s.pairs, t.fget F.TWN_DH.state 0 p = if s.fget F.TWN_DH.state 0 p = dhPeer then dhFenced else s.fget F.TWN_DH.state 0 p) ∧
  (∀ s : State, s.twin.settling = true → s.twin.fromEn = false → s.twin.silent = false → goesTo (exec .settleExpiry s) fun t =>
    t.twin.settling = false ∧ t.fget F.TWN_STATUS.decision = 3 ∧ t.twin.guarding = !s.isBlack ∧
    (s.isBlack = true → ∀ p ∈ s.pairs, t.fget F.TWN_DH.state 0 p = dhFenced)) ∧
  (∀ s : State, s.twin.guarding = true → goesTo (exec .guardExpiry s) fun t =>
    t.twin.guarding = false ∧ ∀ p ∈ s.pairs, t.fget F.TWN_DH.state 0 p = dhOwn) ∧
  (∀ s : State,
    (goesTo (exec .chkInEdge s) fun t => t.twin.chkIn = !s.twin.chkIn ∧ t.twin.silent = false ∧ t.fget F.AON_CHK.alive = 1) ∧
    (s.twin.silent = false → goesTo (exec .checkLineSilent s) fun t =>
      t.twin.silent = true ∧ t.fget F.AON_CHK.alive = 0 ∧ countedSat s t F.AON_CHK.lost 0 0 ∧
      (s.flag F.AON_STATUS.main_on = true → s.flag F.TWN_CFG.en = true → s.link = lkLost → s.twin.fromEn = false →
        s.fget F.TWN_STATUS.decision ≠ 4 →
        ∀ p ∈ s.pairs, t.fget F.TWN_DH.state 0 p = dhOwn)) ∧
    (goesTo (exec .checkSilentAdvisory s) fun t => t.twin = s.twin ∧ ∀ p, t.fget F.TWN_DH.state 0 p = s.fget F.TWN_DH.state 0 p) ∧
    ∀ states, s.linkUp = true → (∀ p ∈ s.pairs, ∀ e, s.peerEntry p states = some e → e.1 ≠ dhOwn) →
      goesTo (exec (.ownershipReport states) s) fun t =>
        t.twin.seq = (s.twin.seq + 1) % 4096 ∧ ∀ p, t.fget F.TWN_DH.state 0 p = s.fget F.TWN_DH.state 0 p) ∧
  (∀ (s : State) (serial : Nat) (black : Bool) (states : List (Nat × Nat)), s.flag F.TWN_CFG.en = true → s.link = lkUp →
    goesTo (exec (.linkUpExchange serial black states) s) fun t =>
      (t.rd .TWN_PEER_ID).toNat = serial % 2 ^ 64 ∧ t.twin.settling = false ∧
      (black = s.isBlack → t.link = lkMismatch ∧ ∀ p ∈ s.pairs, t.fget F.TWN_DH.state 0 p = dhFenced) ∧
      (black ≠ s.isBlack → t.link = lkUp ∧ t.fget F.TWN_STATUS.decision = 1 ∧ ∀ p ∈ s.pairs, ∀ e, s.peerEntry p states = some e →
        t.fget F.TWN_DH.state 0 p =
          if s.fget F.TWN_DH.state 0 p = dhOwn then (if e.1 = dhOwn ∧ s.isBlack then dhPeer else dhOwn)
          else if e.1 = dhOwn then dhPeer
          else if ((if s.isBlack then e.2 else s.fget F.TWN_DH.pref 0 p) = 1) = (s.isBlack = true) then dhOwn else dhPeer)) ∧
  (∀ (s : State) (f : Func) (p c : Nat), p < 256 → opens s f .TWN_MOVE 0 c →
    (s.twin.moving ≠ none → ∀ d, goesTo (exec (.twnMove f p d) s) fun t => t.fget F.TWN_MOVE.result = 1 ∧ t.twin = s.twin) ∧
    (s.twin.moving = none → s.linkUp = false → ∀ d, goesTo (exec (.twnMove f p d) s) fun t => t.fget F.TWN_MOVE.result = 3 ∧ t.twin = s.twin) ∧
    (s.twin.moving = none → s.linkUp = true → s.flag F.TWN_DH.valid 0 p = true →
      (s.fget F.TWN_DH.state 0 p = dhOwn → (s.port p).wire = none → goesTo (exec (.twnMove f p 1) s) fun t =>
        t.fget F.TWN_DH.state 0 p = dhPeer ∧ t.twin.moving = none ∧ t.fget F.TWN_MOVE.done = 1 ∧ t.fget F.TWN_MOVE.result = 0) ∧
      (s.fget F.TWN_DH.state 0 p ≠ dhOwn → goesTo (exec (.twnMove f p 0) s) fun t =>
        t.twin.moving = some p ∧ t.fget F.TWN_MOVE.done = 0 ∧ t.twin.seq = (s.twin.seq + 1) % 4096))) ∧
  (∀ (s : State) (p : Nat), s.linkUp = true → s.flag F.TWN_DH.valid 0 p = true → goesTo (exec (.handoverRx p) s) fun t =>
    t.fget F.TWN_DH.state 0 p = dhOwn ∧ (s.twin.moving = some p → t.twin.moving = none ∧ t.fget F.TWN_MOVE.done = 1)) ∧
  (∀ (s : State) (p tenant set cls col qc edit md l3 l4 l5 : Nat) (rx : Option Nat) (bytes : List Byte), s.linkUp = true →
    (s.fget F.TWN_DH.state 0 p ≠ dhOwn → goesTo (exec (.redirectRx p tenant set cls col qc edit md l3 l4 l5 rx bytes) s) fun t =>
      countedUp s t F.TWN_CNT.count 0 1 1 ∧ countedUp s t F.TWN_CNT.count 0 2 1 ∧ t.bufs = s.bufs ∧ t.frames = s.frames) ∧
    (s.flag F.TWN_DH.valid 0 p = true → s.fget F.TWN_DH.state 0 p = dhOwn → s.setFor s.tagNow tenant p = some set →
      edit = 0 → s.setCovered p set = false → col ≠ 2 → s.queueBytes (s.queue (queueNo p set qc)) + bytes.length ≤ s.queueLimit s.tagNow p set qc →
      (∀ c ∈ (s.queue (queueNo p set qc)).head ++ (s.queue (queueNo p set qc)).pend, c.frame ≠ s.nextFrame) →
      (∀ d ∈ (s.queue (queueNo p set qc)).deep, d.copy.frame ≠ s.nextFrame) →
      (s.pickBuf (poolFor bytes.length)).isSome = true → (s.admitPart s.tagNow tenant (poolCharge (poolFor bytes.length))).isSome = true →
      goesTo (exec (.redirectRx p tenant set cls col qc edit md l3 l4 l5 rx bytes) s) fun t =>
        countedUp s t F.TWN_CNT.count 0 1 1 ∧ ∃ g, t.frame s.nextFrame = some g ∧ g.len = bytes.length ∧ g.copies = 1)) ∧
  (∀ (s : State) (p : Nat) (words : List Nat), s.linkUp = true → p ≤ 16 → goesTo (exec (.peerLearnRx p words) s) fun t =>
    ∃ r, r.p6.testBit 28 = true ∧ r.p3 = words.getD 3 0 % 2 ^ 36 ∧ t = s.sinkSend p r) ∧
  (∀ (s : State) (p op cmd arg : Nat) (keys val care : List Nat), s.linkUp = true → p ≤ 16 → s.power.entering = false →
    (s.issuerBusy .twin false = false → goesTo (exec (.replayRx p false op cmd arg keys val care) s) fun t =>
      ∃ r, t.tbl.waiting = s.tbl.waiting ++ [r] ∧ r.issuer = .twin ∧ r.part = p ∧ r.op = op ∧ r.tcm = false) ∧
    (s.issuerBusy .twin true = false → goesTo (exec (.replayRx p true op cmd arg keys val care) s) fun t =>
      ∃ r, t.tbl.waiting = s.tbl.waiting ++ [r] ∧ r.issuer = .twin ∧ r.part = p ∧ r.op = op ∧ r.tcm = true)) ∧
  (∀ (s : State) (off : Nat) (bytes : List Byte), s.linkUp = true →
    ((s.fget F.TWN_XDMA.parts).testBit 16 = true → off + bytes.length ≤ 2 ^ 24 →
      goesTo (exec (.peerDmaAccess 16 off true 0 bytes) s) fun t =>
        (∀ j, j < bytes.length → (off + j) % 8 < 4 → t.cmemByte (off + j) = bytes.getD j 0) ∧
        ∀ w, (8 * w + 8 ≤ off ∨ off + bytes.length ≤ 8 * w) → t.cget w = s.cget w) ∧
    ((s.fget F.TWN_XDMA.parts).testBit 16 = false → goesTo (exec (.peerDmaAccess 16 off true 0 bytes) s) fun t =>
      t.cmem = s.cmem ∧ t.twin.seq = (s.twin.seq + 1) % 4096)) ∧
  (∀ (s : State) (locked : Bool) (err : Nat), s.linkUp = true → goesTo (exec (.peerTimeReport locked err) s) fun t =>
    t.fget F.TWN_PEER_TIME.peer_locked = (if locked then 1 else 0) ∧ t.twin.peerErr = err % 2 ^ 20 ∧ t.twin.seq = (s.twin.seq + 1) % 4096) ∧
  (∀ (s : State) (f : Func) (c v : Nat), opens s f .TWN_CFG 0 c →
    (s.flag F.TWN_CFG.en = false → v.testBit 35 = true → goesTo (exec (.twnEnWrite f v) s) fun t =>
      t.link = lkTraining ∧ t.twin.settling = true ∧ t.fget F.TWN_STATUS.decision = 2 ∧
      ∀ p ∈ s.pairs, t.fget F.TWN_DH.state 0 p = dhFenced) ∧
    (s.flag F.TWN_CFG.en = true → v.testBit 35 = false → goesTo (exec (.twnEnWrite f v) s) fun t =>
      t.link = lkOff ∧ t.twin.settling = false ∧ t.twin.out = [] ∧ t.fget F.TWN_STATUS.decision = 0)) ∧
  (∀ (s : State) (f : Func) (p c v : Nat), p < 256 → opens s f .TWN_DH p c →
    (s.portState p = pDisabled → goesTo (exec (.twnDhWrite f p v) s) fun t =>
      t.fget F.TWN_DH.valid 0 p = bits v 35 35 ∧ t.fget F.TWN_DH.peer_port 0 p = bits v 31 24) ∧
    (s.portState p ≠ pDisabled → bits v 35 35 ≠ s.fget F.TWN_DH.valid 0 p → goesTo (exec (.twnDhWrite f p v) s) fun t =>
      t.fget F.TWN_DH.valid 0 p = s.fget F.TWN_DH.valid 0 p ∧ t.fget F.TWN_DH.peer_port 0 p = s.fget F.TWN_DH.peer_port 0 p ∧
      t.flag F.TWN_STATUS.dh_err = true))

/-- A step with a command waiting is that command's effect, with the rest of the queue left waiting. The queue is the model's own, the host's
form of a block. Model's own readings in it: log entry 2. -/
def Obligations.StepRunsFrontCommand : Prop :=
  ∀ (s : State) (c : Instr) (rest : List Instr), s.pending = c :: rest →
    step s = exec c (s.withQueue rest) ∧ ∀ t, step s = .next t → t.pending = rest

/-- R487, R580, R581, R598: what the clocks do while nothing is commanded. That an idle step is one period of `CLK_CORE` is the model's choice.
Model's own readings in it: log entries 3, 4. -/
def Obligations.IdlePassesOneCoreClock : Prop :=
  ∀ s : State, s.pending = [] →
    goesTo (step s) fun t =>
      t.pending = [] ∧
      (∀ x rd v, s.coreRuns = true → s.hbm.writes = [] → tabSorted 0 s.threads = true → x < 144 → s.thrState x = tWaiting →
        (s.thr x).wait = some (.look rd v) → (s.thr x).since + 200 ≤ s.time.cycles + 1 →
        t.thrState x = tRunning ∧ (t.thr x).wait = none ∧ gregSet s t x rd (BitVec.ofNat 36 v)) ∧
      (s.hbm.writes = [] →
        t.cmem = s.cmem ∧ t.hostMem = s.hostMem ∧ t.bufMem = s.bufMem ∧
        (s.coreRuns = true →
          t.time = { s.time with now := wrapTime (s.time.now + (5 * 2 ^ 45 + 160 * s.rate)), cycles := s.time.cycles + 1 }) ∧
        (s.coreRuns = false → t.time = s.time) ∧
        (s.power.inPor = true ∨ s.power.crystal = false → t.rtc = s.rtc ∧ t.twin = s.twin ∧ t.power = s.power) ∧
        (s.power.inPor = false → s.power.crystal = true →
          (s.rtc + 1 < 2 ^ 63 → 390625 * t.rtc + t.power.rtcAcc = 390625 * s.rtc + s.power.rtcAcc + 8) ∧
          (s.flag F.AON_WDT_CFG.en = true → s.coreRuns = true → s.power.wdtAcc < 1562500 → 0 < s.fget F.AON_WDT_KICK.left →
            1562500 * t.fget F.AON_WDT_KICK.left + s.power.wdtAcc + 1 = 1562500 * s.fget F.AON_WDT_KICK.left + t.power.wdtAcc) ∧
          (s.flag F.AON_WDT_CFG.en = false ∨ s.coreRuns = false →
            t.fget F.AON_WDT_KICK.left = s.fget F.AON_WDT_KICK.left ∧ t.power.wdtAcc = s.power.wdtAcc) ∧
          (s.heartbeat = true → s.power.chkAcc < 800000 →
            (t.twin.chkOut = if s.power.chkAcc + 1 = 800000 then !s.twin.chkOut else s.twin.chkOut)) ∧
          (s.heartbeat = false → t.twin.chkOut = s.twin.chkOut)))

/-- The block never stops: every command completes in every state, and keeps the queue. Model's own readings in it: log entry 47. -/
def Obligations.EveryCommandGoesOn : Prop :=
  ∀ (c : Instr) (s : State), goesTo (exec c s) fun t => t.pending = s.pending

/-- The queue's order, over every run of steps; and that its commands stay well-formed is kept by every step.
Model's own readings in it: log entries 2, 47. -/
def Obligations.QueueIsServedInOrder : Prop :=
  (∀ (cs rest : List Instr) (s t : State), s.pending = cs ++ rest →
    (stepsTo cs.length s t ↔ served cs rest s t) ∧ (stepsTo cs.length s t → t.pending = rest)) ∧
  ∀ s t : State, queueWf s → step s = .next t → queueWf t

/-- What the island's power-on reset leaves. Model's own readings in it: log entries 1, 6, 7, 8. -/
def Obligations.PowerOnResetState : Prop :=
  let s := State.reset
  s.pending = [] ∧ queueWf s ∧ (∀ r c i, s.rd r c i = regReset r c i) ∧ s.flag F.AON_STATUS.main_on = false ∧ s.pstate = psStandby ∧
  s.power.inPor = true ∧ s.power.pwrEn = 0 ∧ s.cmem = [] ∧ s.hostMem = [] ∧ s.bufs = [] ∧ s.queues = []
end

