-- ==== Sys2Proof/Laws/Tab.lean ====
section
/-! SUPPORT. Sparse tables: reading after writing, and the canonical form kept by every operation. -/

namespace Sys2Proof.Machine

variable {α : Type}

/-! ## Reading -/

@[simp] theorem tabGet_nil (d : α) (k : Nat) : tabGet d ([] : Tab α) k = d := rfl

@[simp] theorem tabGet_erase_same (d : α) (t : Tab α) (k : Nat) : tabGet d (tabErase t k) k = d := by
  induction t with
  | nil => rfl
  | cons e t ih => by_cases h : e.1 = k <;> simp [tabErase, tabGet, h, ih]

theorem tabGet_erase_ne (d : α) (t : Tab α) {k j : Nat} (h : j ≠ k) : tabGet d (tabErase t k) j = tabGet d t j := by
  induction t with
  | nil => rfl
  | cons e t ih =>
    by_cases hk : e.1 = k
    · simp [tabErase, tabGet, hk, ih, Ne.symm h]
    · simp only [tabErase, if_neg hk, tabGet, ih]

@[simp] theorem tabGet_insert_same (d : α) (t : Tab α) (k : Nat) (v : α) : tabGet d (tabInsert t k v) k = v := by
  induction t with
  | nil => simp [tabInsert, tabGet]
  | cons e t ih =>
    by_cases h1 : k < e.1
    · simp [tabInsert, tabGet, h1]
    · by_cases h2 : e.1 = k <;> simp [tabInsert, tabGet, h1, h2, ih]

theorem tabGet_insert_ne (d : α) (t : Tab α) {k j : Nat} (v : α) (h : j ≠ k) :
    tabGet d (tabInsert t k v) j = tabGet d t j := by
  induction t with
  | nil => simp [tabInsert, tabGet, Ne.symm h]
  | cons e t ih =>
    by_cases h1 : k < e.1
    · simp [tabInsert, tabGet, h1, Ne.symm h]
    · by_cases h2 : e.1 = k
      · simp [tabInsert, tabGet, h2, Ne.symm h]
      · simp only [tabInsert, if_neg h1, if_neg h2, tabGet, ih]

variable [DecidableEq α]

@[simp] theorem tabGet_set_same (d : α) (t : Tab α) (k : Nat) (v : α) : tabGet d (tabSet d t k v) k = v := by
  unfold tabSet; split <;> simp_all

theorem tabGet_set_ne (d : α) (t : Tab α) {k j : Nat} (v : α) (h : j ≠ k) : tabGet d (tabSet d t k v) j = tabGet d t j := by
  unfold tabSet; split
  · exact tabGet_erase_ne d t h
  · exact tabGet_insert_ne d t v h

/-- Reading any key after a write. -/
theorem tabGet_set (d : α) (t : Tab α) (k j : Nat) (v : α) :
    tabGet d (tabSet d t k v) j = if j = k then v else tabGet d t j := by
  by_cases h : j = k
  · subst h; simp
  · simp [h, tabGet_set_ne d t v h]

@[simp] theorem tabGet_mod_same (d : α) (t : Tab α) (k : Nat) (f : α → α) : tabGet d (tabMod d t k f) k = f (tabGet d t k) := by
  simp [tabMod]

theorem tabGet_mod_ne (d : α) (t : Tab α) {k j : Nat} (f : α → α) (h : j ≠ k) : tabGet d (tabMod d t k f) j = tabGet d t j :=
  tabGet_set_ne d t _ h

/-- Reading any key after a change. -/
theorem tabGet_mod (d : α) (t : Tab α) (k j : Nat) (f : α → α) :
    tabGet d (tabMod d t k f) j = if j = k then f (tabGet d t k) else tabGet d t j := by
  unfold tabMod; rw [tabGet_set]

/-! ## The canonical form -/

omit [DecidableEq α] in
theorem tabSorted_mono {lo hi : Nat} (h : lo ≤ hi) {t : Tab α} (ht : tabSorted hi t = true) : tabSorted lo t = true := by
  cases t with
  | nil => rfl
  | cons e t =>
    simp only [tabSorted, Bool.and_eq_true, decide_eq_true_eq] at ht ⊢
    exact ⟨Nat.le_trans h ht.1, ht.2⟩

omit [DecidableEq α] in
theorem tabSorted_erase {lo : Nat} {t : Tab α} (k : Nat) (ht : tabSorted lo t = true) : tabSorted lo (tabErase t k) = true := by
  induction t generalizing lo with
  | nil => rfl
  | cons e t ih =>
    simp only [tabSorted, Bool.and_eq_true, decide_eq_true_eq] at ht
    unfold tabErase; split
    · exact tabSorted_mono (by omega) (ih ht.2)
    · simp only [tabSorted, Bool.and_eq_true, decide_eq_true_eq]
      exact ⟨ht.1, ih ht.2⟩

omit [DecidableEq α] in
theorem tabSorted_insert {lo : Nat} {t : Tab α} {k : Nat} (v : α) (hk : lo ≤ k) (ht : tabSorted lo t = true) :
    tabSorted lo (tabInsert t k v) = true := by
  induction t generalizing lo with
  | nil => simp [tabInsert, tabSorted, hk]
  | cons e t ih =>
    simp only [tabSorted, Bool.and_eq_true, decide_eq_true_eq] at ht
    unfold tabInsert; split
    · rename_i h
      simp only [tabSorted, Bool.and_eq_true, decide_eq_true_eq]
      exact ⟨hk, by omega, ht.2⟩
    · split
      · rename_i h1 h2
        simp only [tabSorted, Bool.and_eq_true, decide_eq_true_eq]
        exact ⟨hk, h2 ▸ ht.2⟩
      · rename_i h1 h2
        simp only [tabSorted, Bool.and_eq_true, decide_eq_true_eq]
        exact ⟨ht.1, ih (by omega) ht.2⟩

omit [DecidableEq α] in
theorem mem_erase {t : Tab α} {k : Nat} {e : Nat × α} (h : e ∈ tabErase t k) : e ∈ t := by
  induction t with
  | nil => exact h
  | cons x t ih =>
    unfold tabErase at h; split at h
    · exact List.mem_cons_of_mem _ (ih h)
    · rcases List.mem_cons.1 h with h | h
      · exact h ▸ List.mem_cons_self
      · exact List.mem_cons_of_mem _ (ih h)

omit [DecidableEq α] in
theorem mem_insert {t : Tab α} {k : Nat} {v : α} {e : Nat × α} (h : e ∈ tabInsert t k v) : e = (k, v) ∨ e ∈ t := by
  induction t with
  | nil => simpa [tabInsert] using h
  | cons x t ih =>
    unfold tabInsert at h; split at h
    · rcases List.mem_cons.1 h with h | h
      · exact .inl h
      · exact .inr h
    · split at h
      · rcases List.mem_cons.1 h with h | h
        · exact .inl h
        · exact .inr (List.mem_cons_of_mem _ h)
      · rcases List.mem_cons.1 h with h | h
        · exact .inr (h ▸ List.mem_cons_self)
        · exact (ih h).imp id (List.mem_cons_of_mem _)

/-- A write keeps the canonical form. -/
theorem tabWf_set (d : α) {t : Tab α} (k : Nat) (v : α) (h : tabWf d t = true) : tabWf d (tabSet d t k v) = true := by
  simp only [tabWf, Bool.and_eq_true, List.all_eq_true, decide_eq_true_eq] at h ⊢
  unfold tabSet; split
  · exact ⟨tabSorted_erase k h.1, fun e he => h.2 e (mem_erase he)⟩
  · rename_i hv
    refine ⟨tabSorted_insert v (Nat.zero_le k) h.1, fun e he => ?_⟩
    rcases mem_insert he with rfl | he
    · exact hv
    · exact h.2 e he

/-- A change of one entry keeps the canonical form. -/
theorem tabWf_mod (d : α) {t : Tab α} (k : Nat) (f : α → α) (h : tabWf d t = true) : tabWf d (tabMod d t k f) = true :=
  tabWf_set d k _ h

@[simp] theorem tabWf_nil (d : α) : tabWf d ([] : Tab α) = true := rfl

omit [DecidableEq α] in
theorem tabGet_of_lt (d : α) {lo k : Nat} {t : Tab α} (ht : tabSorted lo t = true) (h : k < lo) : tabGet d t k = d := by
  induction t generalizing lo with
  | nil => rfl
  | cons e t ih =>
    simp only [tabSorted, Bool.and_eq_true, decide_eq_true_eq] at ht
    have : e.1 ≠ k := by omega
    simp [tabGet, this, ih ht.2 (by omega)]

/-- Two canonical tables that read alike are the same table. -/
theorem tab_ext (d : α) {t u : Tab α} (ht : tabWf d t = true) (hu : tabWf d u = true)
    (h : ∀ k, tabGet d t k = tabGet d u k) : t = u := by
  have main : ∀ (t u : Tab α) (lo : Nat), tabSorted lo t = true → tabSorted lo u = true →
      (∀ e ∈ t, e.2 ≠ d) → (∀ e ∈ u, e.2 ≠ d) → (∀ k, tabGet d t k = tabGet d u k) → t = u := by
    intro t
    induction t with
    | nil =>
      intro u lo _ hu _ du hg
      cases u with
      | nil => rfl
      | cons e u => exact absurd (by simpa [tabGet] using (hg e.1).symm) (du e List.mem_cons_self)
    | cons a t ih =>
      intro u lo ht hu dt du hg
      cases u with
      | nil => exact absurd (by simpa [tabGet] using hg a.1) (dt a List.mem_cons_self)
      | cons b u =>
        simp only [tabSorted, Bool.and_eq_true, decide_eq_true_eq] at ht hu
        have hab : a.1 = b.1 := by
          rcases Nat.lt_trichotomy a.1 b.1 with h1 | h1 | h1
          · have := hg a.1
            simp only [tabGet, if_true, if_neg (Nat.ne_of_gt h1), tabGet_of_lt d hu.2 (Nat.lt_succ_of_lt h1)] at this
            exact absurd this (dt a List.mem_cons_self)
          · exact h1
          · have := hg b.1
            simp only [tabGet, if_true, if_neg (Nat.ne_of_gt h1), tabGet_of_lt d ht.2 (Nat.lt_succ_of_lt h1)] at this
            exact absurd this.symm (du b List.mem_cons_self)
        have hv : a.2 = b.2 := by simpa [tabGet, hab] using hg a.1
        have hrest : t = u := by
          refine ih u (a.1 + 1) ht.2 (hab ▸ hu.2) (fun e he => dt e (List.mem_cons_of_mem _ he))
            (fun e he => du e (List.mem_cons_of_mem _ he)) fun k => ?_
          by_cases hk : a.1 = k
          · subst hk
            rw [tabGet_of_lt d ht.2 (Nat.lt_succ_self _), tabGet_of_lt d hu.2 (by omega)]
          · simpa [tabGet, hk, hab ▸ hk] using hg k
        rw [hrest, Prod.ext hab hv]
  simp only [tabWf, Bool.and_eq_true, List.all_eq_true, decide_eq_true_eq] at ht hu
  exact main t u 0 ht.1 hu.1 ht.2 hu.2 h

end Sys2Proof.Machine
end

