-- ==== Sys2Proof/Laws/RegFile.lean ====
section
/-! SUPPORT. The register file: reading after writing, for registers and for their fields. -/

namespace Sys2Proof.Machine

/-! ## Keys -/

theorem ctorIdx_inj {r q : Reg} (h : r.ctorIdx = q.ctorIdx) : r = q := by
  rw [← Reg.ofNat_ctorIdx r, h, Reg.ofNat_ctorIdx]

/-- Two keys agree when the register, the copy and the element do. -/
theorem regKey_eq_iff (r q : Reg) (c i d j : Nat) :
    regKey r c i = regKey q d j ↔ r.ctorIdx = q.ctorIdx ∧ c % 2 ^ 16 = d % 2 ^ 16 ∧ i % 2 ^ 16 = j % 2 ^ 16 := by
  unfold regKey; omega

theorem regKey_ne {r q : Reg} (c i d j : Nat) (h : r.ctorIdx ≠ q.ctorIdx) : regKey r c i ≠ regKey q d j := by
  intro e; exact h ((regKey_eq_iff r q c i d j).1 e).1

/-! ## Registers -/

@[simp] theorem regGet_regSet_same (f : RegFile) (r : Reg) (c i : Nat) (v : RegVal) : regGet (regSet f r c i v) r c i = v := by
  simp [regGet, regSet]

theorem regGet_regSet_ne (f : RegFile) {r q : Reg} (c i d j : Nat) (v : RegVal) (h : regKey q d j ≠ regKey r c i) :
    regGet (regSet f r c i v) q d j = regGet f q d j := by
  unfold regGet regSet tabSet
  split
  · exact tabGet_erase_ne _ _ h
  · exact tabGet_insert_ne _ _ _ h

/-- A write to one register leaves every other as it was. -/
theorem regGet_regSet_reg (f : RegFile) {r q : Reg} (c i d j : Nat) (v : RegVal) (h : q.ctorIdx ≠ r.ctorIdx) :
    regGet (regSet f r c i v) q d j = regGet f q d j := regGet_regSet_ne f c i d j v (regKey_ne d j c i h)

/-- A write to one copy or element leaves the others as they were. -/
theorem regGet_regSet_copy (f : RegFile) (r : Reg) {c i d j : Nat} (v : RegVal)
    (h : d % 2 ^ 16 ≠ c % 2 ^ 16 ∨ j % 2 ^ 16 ≠ i % 2 ^ 16) : regGet (regSet f r c i v) r d j = regGet f r d j := by
  refine regGet_regSet_ne f c i d j v ?_
  rw [Ne, regKey_eq_iff]; tauto

/-! ## Fields -/

/-- A bit of a field mask. -/
theorem getLsbD_fldMask (hi lo b : Nat) : (fldMask hi lo).getLsbD b = (decide (b < 72) && decide (lo ≤ b) && decide (b ≤ hi)) := by
  unfold fldMask
  rw [BitVec.getLsbD_shiftLeft, BitVec.getLsbD_ofNat, Nat.testBit_two_pow_sub_one]
  rw [Bool.eq_iff_iff]
  simp only [Bool.and_eq_true, decide_eq_true_eq, Bool.not_eq_true', decide_eq_false_iff_not]
  omega

/-- A bit of a value with a field replaced. -/
theorem getLsbD_fldSet (v : RegVal) (hi lo n b : Nat) :
    (fldSet v hi lo n).getLsbD b =
      if lo ≤ b ∧ b ≤ hi ∧ b < 72 then n.testBit (b - lo) else v.getLsbD b := by
  unfold fldSet
  simp only [BitVec.getLsbD_or, BitVec.getLsbD_and, BitVec.getLsbD_not, getLsbD_fldMask, BitVec.getLsbD_shiftLeft, BitVec.getLsbD_ofNat]
  by_cases h : b < 72
  · have hs : b - lo < 72 := by omega
    by_cases h1 : lo ≤ b
    · by_cases h2 : b ≤ hi <;> simp [h, h1, h2, hs, Nat.not_lt.2 h1]
    · simp [h, h1, Nat.lt_of_not_le h1]
  · have : v.getLsbD b = false := BitVec.getLsbD_of_ge v b (by omega)
    simp [h, this]

/-- A bit of a field's value. -/
theorem testBit_fldGet (v : RegVal) (hi lo b : Nat) :
    (fldGet v hi lo).testBit b = (decide (b < hi + 1 - lo) && v.getLsbD (lo + b)) := by
  unfold fldGet
  rw [Nat.testBit_mod_two_pow, Nat.testBit_shiftRight]; rfl

/-- A field reads as it was written, as far as its width goes. -/
theorem fldGet_fldSet_same (v : RegVal) (hi lo n : Nat) (h : hi < 72) : fldGet (fldSet v hi lo n) hi lo = n % 2 ^ (hi + 1 - lo) := by
  apply Nat.eq_of_testBit_eq; intro b
  rw [testBit_fldGet, getLsbD_fldSet, Nat.testBit_mod_two_pow]
  by_cases hb : b < hi + 1 - lo
  · rw [if_pos ⟨by omega, by omega, by omega⟩]; simp [hb]
  · simp [hb]

/-- Writing a field leaves the fields beside it as they were. -/
theorem fldGet_fldSet_ne (v : RegVal) (hi lo hi' lo' n : Nat) (h : hi < lo' ∨ hi' < lo) :
    fldGet (fldSet v hi lo n) hi' lo' = fldGet v hi' lo' := by
  apply Nat.eq_of_testBit_eq; intro b
  rw [testBit_fldGet, testBit_fldGet, getLsbD_fldSet]
  by_cases hb : b < hi' + 1 - lo'
  · rw [if_neg (by omega)]
  · simp [hb]

/-- A field's value fits its width. -/
theorem fldGet_lt (v : RegVal) (hi lo : Nat) : fldGet v hi lo < 2 ^ (hi + 1 - lo) :=
  Nat.mod_lt _ (Nat.pow_pos (by decide))

/-- The register file stays canonical. A reset value is what an unlisted key of its register reads as. -/
def regsWf (f : RegFile) : Bool := tabSorted 0 f

theorem regsWf_set {f : RegFile} (r : Reg) (c i : Nat) (v : RegVal) (h : regsWf f = true) : regsWf (regSet f r c i v) = true := by
  unfold regsWf regSet tabSet at *
  split
  · exact tabSorted_erase _ h
  · exact tabSorted_insert _ (Nat.zero_le _) h

end Sys2Proof.Machine
end

