-- ==== Sys2Proof/Laws/State.lean ====
section
/-! SUPPORT. The state: what each update leaves as it was, field by field, and what registers, planes and tables read after it. -/

namespace Sys2Proof.Machine

variable (s : State)

/-! ## Fields that an update leaves as they were -/

@[simp] theorem State.withQueue_free (q : List Instr) : (s.withQueue q).free = s.free := rfl
@[simp] theorem State.withQueue_regs (q : List Instr) : (s.withQueue q).regs = s.regs := rfl
@[simp] theorem State.withQueue_fns (q : List Instr) : (s.withQueue q).fns = s.fns := rfl
@[simp] theorem State.withQueue_planes (q : List Instr) : (s.withQueue q).planes = s.planes := rfl
@[simp] theorem State.withQueue_image (q : List Instr) : (s.withQueue q).image = s.image := rfl
@[simp] theorem State.withQueue_cmem (q : List Instr) : (s.withQueue q).cmem = s.cmem := rfl
@[simp] theorem State.withQueue_hostMem (q : List Instr) : (s.withQueue q).hostMem = s.hostMem := rfl
@[simp] theorem State.withQueue_chans (q : List Instr) : (s.withQueue q).chans = s.chans := rfl
@[simp] theorem State.withQueue_lanes (q : List Instr) : (s.withQueue q).lanes = s.lanes := rfl
@[simp] theorem State.withQueue_msix (q : List Instr) : (s.withQueue q).msix = s.msix := rfl
@[simp] theorem State.withQueue_pcie (q : List Instr) : (s.withQueue q).pcie = s.pcie := rfl
@[simp] theorem State.withQueue_time (q : List Instr) : (s.withQueue q).time = s.time := rfl
@[simp] theorem State.withQueue_flt (q : List Instr) : (s.withQueue q).flt = s.flt := rfl
@[simp] theorem State.withQueue_ports (q : List Instr) : (s.withQueue q).ports = s.ports := rfl
@[simp] theorem State.withQueue_i2c (q : List Instr) : (s.withQueue q).i2c = s.i2c := rfl
@[simp] theorem State.withQueue_bufs (q : List Instr) : (s.withQueue q).bufs = s.bufs := rfl
@[simp] theorem State.withQueue_bufMem (q : List Instr) : (s.withQueue q).bufMem = s.bufMem := rfl
@[simp] theorem State.withQueue_expUsed (q : List Instr) : (s.withQueue q).expUsed = s.expUsed := rfl
@[simp] theorem State.withQueue_hdrmUsed (q : List Instr) : (s.withQueue q).hdrmUsed = s.hdrmUsed := rfl
@[simp] theorem State.withQueue_frames (q : List Instr) : (s.withQueue q).frames = s.frames := rfl
@[simp] theorem State.withQueue_nextFrame (q : List Instr) : (s.withQueue q).nextFrame = s.nextFrame := rfl
@[simp] theorem State.withQueue_nextCopy (q : List Instr) : (s.withQueue q).nextCopy = s.nextCopy := rfl
@[simp] theorem State.withQueue_seqs (q : List Instr) : (s.withQueue q).seqs = s.seqs := rfl
@[simp] theorem State.withQueue_groups (q : List Instr) : (s.withQueue q).groups = s.groups := rfl
@[simp] theorem State.withQueue_slices (q : List Instr) : (s.withQueue q).slices = s.slices := rfl
@[simp] theorem State.withQueue_buckets (q : List Instr) : (s.withQueue q).buckets = s.buckets := rfl
@[simp] theorem State.withQueue_blocked (q : List Instr) : (s.withQueue q).blocked = s.blocked := rfl
@[simp] theorem State.withQueue_queues (q : List Instr) : (s.withQueue q).queues = s.queues := rfl
@[simp] theorem State.withQueue_engines (q : List Instr) : (s.withQueue q).engines = s.engines := rfl
@[simp] theorem State.withQueue_clusters (q : List Instr) : (s.withQueue q).clusters = s.clusters := rfl
@[simp] theorem State.withQueue_rwFenced (q : List Instr) : (s.withQueue q).rwFenced = s.rwFenced := rfl
@[simp] theorem State.withQueue_sets (q : List Instr) : (s.withQueue q).sets = s.sets := rfl
@[simp] theorem State.withQueue_hbm (q : List Instr) : (s.withQueue q).hbm = s.hbm := rfl
@[simp] theorem State.withQueue_credits (q : List Instr) : (s.withQueue q).credits = s.credits := rfl
@[simp] theorem State.withQueue_rates (q : List Instr) : (s.withQueue q).rates = s.rates := rfl
@[simp] theorem State.withQueue_threads (q : List Instr) : (s.withQueue q).threads = s.threads := rfl
@[simp] theorem State.withQueue_sevs (q : List Instr) : (s.withQueue q).sevs = s.sevs := rfl
@[simp] theorem State.withQueue_mail (q : List Instr) : (s.withQueue q).mail = s.mail := rfl
@[simp] theorem State.withQueue_faultQ (q : List Instr) : (s.withQueue q).faultQ = s.faultQ := rfl
@[simp] theorem State.withQueue_icache (q : List Instr) : (s.withQueue q).icache = s.icache := rfl
@[simp] theorem State.withQueue_tags (q : List Instr) : (s.withQueue q).tags = s.tags := rfl
@[simp] theorem State.withQueue_bpmReply (q : List Instr) : (s.withQueue q).bpmReply = s.bpmReply := rfl
@[simp] theorem State.withQueue_punts (q : List Instr) : (s.withQueue q).punts = s.punts := rfl
@[simp] theorem State.withQueue_events (q : List Instr) : (s.withQueue q).events = s.events := rfl
@[simp] theorem State.withQueue_learned (q : List Instr) : (s.withQueue q).learned = s.learned := rfl
@[simp] theorem State.withQueue_mirrors (q : List Instr) : (s.withQueue q).mirrors = s.mirrors := rfl
@[simp] theorem State.withQueue_watch (q : List Instr) : (s.withQueue q).watch = s.watch := rfl
@[simp] theorem State.withQueue_balance (q : List Instr) : (s.withQueue q).balance = s.balance := rfl
@[simp] theorem State.withQueue_trace (q : List Instr) : (s.withQueue q).trace = s.trace := rfl
@[simp] theorem State.withQueue_snap (q : List Instr) : (s.withQueue q).snap = s.snap := rfl
@[simp] theorem State.withQueue_held (q : List Instr) : (s.withQueue q).held = s.held := rfl
@[simp] theorem State.withQueue_tbl (q : List Instr) : (s.withQueue q).tbl = s.tbl := rfl
@[simp] theorem State.withQueue_twin (q : List Instr) : (s.withQueue q).twin = s.twin := rfl
@[simp] theorem State.withQueue_power (q : List Instr) : (s.withQueue q).power = s.power := rfl
@[simp] theorem State.withQueue_tap (q : List Instr) : (s.withQueue q).tap = s.tap := rfl

@[simp] theorem State.wr_pending (r : Reg) (c i : Nat) (v : RegVal) : (s.wr r c i v).pending = s.pending := rfl
@[simp] theorem State.wr_free (r : Reg) (c i : Nat) (v : RegVal) : (s.wr r c i v).free = s.free := rfl
@[simp] theorem State.wr_fns (r : Reg) (c i : Nat) (v : RegVal) : (s.wr r c i v).fns = s.fns := rfl
@[simp] theorem State.wr_planes (r : Reg) (c i : Nat) (v : RegVal) : (s.wr r c i v).planes = s.planes := rfl
@[simp] theorem State.wr_image (r : Reg) (c i : Nat) (v : RegVal) : (s.wr r c i v).image = s.image := rfl
@[simp] theorem State.wr_cmem (r : Reg) (c i : Nat) (v : RegVal) : (s.wr r c i v).cmem = s.cmem := rfl
@[simp] theorem State.wr_hostMem (r : Reg) (c i : Nat) (v : RegVal) : (s.wr r c i v).hostMem = s.hostMem := rfl
@[simp] theorem State.wr_chans (r : Reg) (c i : Nat) (v : RegVal) : (s.wr r c i v).chans = s.chans := rfl
@[simp] theorem State.wr_lanes (r : Reg) (c i : Nat) (v : RegVal) : (s.wr r c i v).lanes = s.lanes := rfl
@[simp] theorem State.wr_msix (r : Reg) (c i : Nat) (v : RegVal) : (s.wr r c i v).msix = s.msix := rfl
@[simp] theorem State.wr_pcie (r : Reg) (c i : Nat) (v : RegVal) : (s.wr r c i v).pcie = s.pcie := rfl
@[simp] theorem State.wr_time (r : Reg) (c i : Nat) (v : RegVal) : (s.wr r c i v).time = s.time := rfl
@[simp] theorem State.wr_flt (r : Reg) (c i : Nat) (v : RegVal) : (s.wr r c i v).flt = s.flt := rfl
@[simp] theorem State.wr_ports (r : Reg) (c i : Nat) (v : RegVal) : (s.wr r c i v).ports = s.ports := rfl
@[simp] theorem State.wr_i2c (r : Reg) (c i : Nat) (v : RegVal) : (s.wr r c i v).i2c = s.i2c := rfl
@[simp] theorem State.wr_bufs (r : Reg) (c i : Nat) (v : RegVal) : (s.wr r c i v).bufs = s.bufs := rfl
@[simp] theorem State.wr_bufMem (r : Reg) (c i : Nat) (v : RegVal) : (s.wr r c i v).bufMem = s.bufMem := rfl
@[simp] theorem State.wr_expUsed (r : Reg) (c i : Nat) (v : RegVal) : (s.wr r c i v).expUsed = s.expUsed := rfl
@[simp] theorem State.wr_hdrmUsed (r : Reg) (c i : Nat) (v : RegVal) : (s.wr r c i v).hdrmUsed = s.hdrmUsed := rfl
@[simp] theorem State.wr_frames (r : Reg) (c i : Nat) (v : RegVal) : (s.wr r c i v).frames = s.frames := rfl
@[simp] theorem State.wr_nextFrame (r : Reg) (c i : Nat) (v : RegVal) : (s.wr r c i v).nextFrame = s.nextFrame := rfl
@[simp] theorem State.wr_nextCopy (r : Reg) (c i : Nat) (v : RegVal) : (s.wr r c i v).nextCopy = s.nextCopy := rfl
@[simp] theorem State.wr_seqs (r : Reg) (c i : Nat) (v : RegVal) : (s.wr r c i v).seqs = s.seqs := rfl
@[simp] theorem State.wr_groups (r : Reg) (c i : Nat) (v : RegVal) : (s.wr r c i v).groups = s.groups := rfl
@[simp] theorem State.wr_slices (r : Reg) (c i : Nat) (v : RegVal) : (s.wr r c i v).slices = s.slices := rfl
@[simp] theorem State.wr_buckets (r : Reg) (c i : Nat) (v : RegVal) : (s.wr r c i v).buckets = s.buckets := rfl
@[simp] theorem State.wr_blocked (r : Reg) (c i : Nat) (v : RegVal) : (s.wr r c i v).blocked = s.blocked := rfl
@[simp] theorem State.wr_queues (r : Reg) (c i : Nat) (v : RegVal) : (s.wr r c i v).queues = s.queues := rfl
@[simp] theorem State.wr_engines (r : Reg) (c i : Nat) (v : RegVal) : (s.wr r c i v).engines = s.engines := rfl
@[simp] theorem State.wr_clusters (r : Reg) (c i : Nat) (v : RegVal) : (s.wr r c i v).clusters = s.clusters := rfl
@[simp] theorem State.wr_rwFenced (r : Reg) (c i : Nat) (v : RegVal) : (s.wr r c i v).rwFenced = s.rwFenced := rfl
@[simp] theorem State.wr_sets (r : Reg) (c i : Nat) (v : RegVal) : (s.wr r c i v).sets = s.sets := rfl
@[simp] theorem State.wr_hbm (r : Reg) (c i : Nat) (v : RegVal) : (s.wr r c i v).hbm = s.hbm := rfl
@[simp] theorem State.wr_credits (r : Reg) (c i : Nat) (v : RegVal) : (s.wr r c i v).credits = s.credits := rfl
@[simp] theorem State.wr_rates (r : Reg) (c i : Nat) (v : RegVal) : (s.wr r c i v).rates = s.rates := rfl
@[simp] theorem State.wr_threads (r : Reg) (c i : Nat) (v : RegVal) : (s.wr r c i v).threads = s.threads := rfl
@[simp] theorem State.wr_sevs (r : Reg) (c i : Nat) (v : RegVal) : (s.wr r c i v).sevs = s.sevs := rfl
@[simp] theorem State.wr_mail (r : Reg) (c i : Nat) (v : RegVal) : (s.wr r c i v).mail = s.mail := rfl
@[simp] theorem State.wr_faultQ (r : Reg) (c i : Nat) (v : RegVal) : (s.wr r c i v).faultQ = s.faultQ := rfl
@[simp] theorem State.wr_icache (r : Reg) (c i : Nat) (v : RegVal) : (s.wr r c i v).icache = s.icache := rfl
@[simp] theorem State.wr_tags (r : Reg) (c i : Nat) (v : RegVal) : (s.wr r c i v).tags = s.tags := rfl
@[simp] theorem State.wr_bpmReply (r : Reg) (c i : Nat) (v : RegVal) : (s.wr r c i v).bpmReply = s.bpmReply := rfl
@[simp] theorem State.wr_punts (r : Reg) (c i : Nat) (v : RegVal) : (s.wr r c i v).punts = s.punts := rfl
@[simp] theorem State.wr_events (r : Reg) (c i : Nat) (v : RegVal) : (s.wr r c i v).events = s.events := rfl
@[simp] theorem State.wr_learned (r : Reg) (c i : Nat) (v : RegVal) : (s.wr r c i v).learned = s.learned := rfl
@[simp] theorem State.wr_mirrors (r : Reg) (c i : Nat) (v : RegVal) : (s.wr r c i v).mirrors = s.mirrors := rfl
@[simp] theorem State.wr_watch (r : Reg) (c i : Nat) (v : RegVal) : (s.wr r c i v).watch = s.watch := rfl
@[simp] theorem State.wr_balance (r : Reg) (c i : Nat) (v : RegVal) : (s.wr r c i v).balance = s.balance := rfl
@[simp] theorem State.wr_trace (r : Reg) (c i : Nat) (v : RegVal) : (s.wr r c i v).trace = s.trace := rfl
@[simp] theorem State.wr_snap (r : Reg) (c i : Nat) (v : RegVal) : (s.wr r c i v).snap = s.snap := rfl
@[simp] theorem State.wr_held (r : Reg) (c i : Nat) (v : RegVal) : (s.wr r c i v).held = s.held := rfl
@[simp] theorem State.wr_tbl (r : Reg) (c i : Nat) (v : RegVal) : (s.wr r c i v).tbl = s.tbl := rfl
@[simp] theorem State.wr_twin (r : Reg) (c i : Nat) (v : RegVal) : (s.wr r c i v).twin = s.twin := rfl
@[simp] theorem State.wr_power (r : Reg) (c i : Nat) (v : RegVal) : (s.wr r c i v).power = s.power := rfl
@[simp] theorem State.wr_tap (r : Reg) (c i : Nat) (v : RegVal) : (s.wr r c i v).tap = s.tap := rfl

@[simp] theorem State.fset_pending (f : Fld) (c i n : Nat) : (s.fset f c i n).pending = s.pending := rfl
@[simp] theorem State.fset_free (f : Fld) (c i n : Nat) : (s.fset f c i n).free = s.free := rfl
@[simp] theorem State.fset_fns (f : Fld) (c i n : Nat) : (s.fset f c i n).fns = s.fns := rfl
@[simp] theorem State.fset_planes (f : Fld) (c i n : Nat) : (s.fset f c i n).planes = s.planes := rfl
@[simp] theorem State.fset_image (f : Fld) (c i n : Nat) : (s.fset f c i n).image = s.image := rfl
@[simp] theorem State.fset_cmem (f : Fld) (c i n : Nat) : (s.fset f c i n).cmem = s.cmem := rfl
@[simp] theorem State.fset_hostMem (f : Fld) (c i n : Nat) : (s.fset f c i n).hostMem = s.hostMem := rfl
@[simp] theorem State.fset_chans (f : Fld) (c i n : Nat) : (s.fset f c i n).chans = s.chans := rfl
@[simp] theorem State.fset_lanes (f : Fld) (c i n : Nat) : (s.fset f c i n).lanes = s.lanes := rfl
@[simp] theorem State.fset_msix (f : Fld) (c i n : Nat) : (s.fset f c i n).msix = s.msix := rfl
@[simp] theorem State.fset_pcie (f : Fld) (c i n : Nat) : (s.fset f c i n).pcie = s.pcie := rfl
@[simp] theorem State.fset_time (f : Fld) (c i n : Nat) : (s.fset f c i n).time = s.time := rfl
@[simp] theorem State.fset_flt (f : Fld) (c i n : Nat) : (s.fset f c i n).flt = s.flt := rfl
@[simp] theorem State.fset_ports (f : Fld) (c i n : Nat) : (s.fset f c i n).ports = s.ports := rfl
@[simp] theorem State.fset_i2c (f : Fld) (c i n : Nat) : (s.fset f c i n).i2c = s.i2c := rfl
@[simp] theorem State.fset_bufs (f : Fld) (c i n : Nat) : (s.fset f c i n).bufs = s.bufs := rfl
@[simp] theorem State.fset_bufMem (f : Fld) (c i n : Nat) : (s.fset f c i n).bufMem = s.bufMem := rfl
@[simp] theorem State.fset_expUsed (f : Fld) (c i n : Nat) : (s.fset f c i n).expUsed = s.expUsed := rfl
@[simp] theorem State.fset_hdrmUsed (f : Fld) (c i n : Nat) : (s.fset f c i n).hdrmUsed = s.hdrmUsed := rfl
@[simp] theorem State.fset_frames (f : Fld) (c i n : Nat) : (s.fset f c i n).frames = s.frames := rfl
@[simp] theorem State.fset_nextFrame (f : Fld) (c i n : Nat) : (s.fset f c i n).nextFrame = s.nextFrame := rfl
@[simp] theorem State.fset_nextCopy (f : Fld) (c i n : Nat) : (s.fset f c i n).nextCopy = s.nextCopy := rfl
@[simp] theorem State.fset_seqs (f : Fld) (c i n : Nat) : (s.fset f c i n).seqs = s.seqs := rfl
@[simp] theorem State.fset_groups (f : Fld) (c i n : Nat) : (s.fset f c i n).groups = s.groups := rfl
@[simp] theorem State.fset_slices (f : Fld) (c i n : Nat) : (s.fset f c i n).slices = s.slices := rfl
@[simp] theorem State.fset_buckets (f : Fld) (c i n : Nat) : (s.fset f c i n).buckets = s.buckets := rfl
@[simp] theorem State.fset_blocked (f : Fld) (c i n : Nat) : (s.fset f c i n).blocked = s.blocked := rfl
@[simp] theorem State.fset_queues (f : Fld) (c i n : Nat) : (s.fset f c i n).queues = s.queues := rfl
@[simp] theorem State.fset_engines (f : Fld) (c i n : Nat) : (s.fset f c i n).engines = s.engines := rfl
@[simp] theorem State.fset_clusters (f : Fld) (c i n : Nat) : (s.fset f c i n).clusters = s.clusters := rfl
@[simp] theorem State.fset_rwFenced (f : Fld) (c i n : Nat) : (s.fset f c i n).rwFenced = s.rwFenced := rfl
@[simp] theorem State.fset_sets (f : Fld) (c i n : Nat) : (s.fset f c i n).sets = s.sets := rfl
@[simp] theorem State.fset_hbm (f : Fld) (c i n : Nat) : (s.fset f c i n).hbm = s.hbm := rfl
@[simp] theorem State.fset_credits (f : Fld) (c i n : Nat) : (s.fset f c i n).credits = s.credits := rfl
@[simp] theorem State.fset_rates (f : Fld) (c i n : Nat) : (s.fset f c i n).rates = s.rates := rfl
@[simp] theorem State.fset_threads (f : Fld) (c i n : Nat) : (s.fset f c i n).threads = s.threads := rfl
@[simp] theorem State.fset_sevs (f : Fld) (c i n : Nat) : (s.fset f c i n).sevs = s.sevs := rfl
@[simp] theorem State.fset_mail (f : Fld) (c i n : Nat) : (s.fset f c i n).mail = s.mail := rfl
@[simp] theorem State.fset_faultQ (f : Fld) (c i n : Nat) : (s.fset f c i n).faultQ = s.faultQ := rfl
@[simp] theorem State.fset_icache (f : Fld) (c i n : Nat) : (s.fset f c i n).icache = s.icache := rfl
@[simp] theorem State.fset_tags (f : Fld) (c i n : Nat) : (s.fset f c i n).tags = s.tags := rfl
@[simp] theorem State.fset_bpmReply (f : Fld) (c i n : Nat) : (s.fset f c i n).bpmReply = s.bpmReply := rfl
@[simp] theorem State.fset_punts (f : Fld) (c i n : Nat) : (s.fset f c i n).punts = s.punts := rfl
@[simp] theorem State.fset_events (f : Fld) (c i n : Nat) : (s.fset f c i n).events = s.events := rfl
@[simp] theorem State.fset_learned (f : Fld) (c i n : Nat) : (s.fset f c i n).learned = s.learned := rfl
@[simp] theorem State.fset_mirrors (f : Fld) (c i n : Nat) : (s.fset f c i n).mirrors = s.mirrors := rfl
@[simp] theorem State.fset_watch (f : Fld) (c i n : Nat) : (s.fset f c i n).watch = s.watch := rfl
@[simp] theorem State.fset_balance (f : Fld) (c i n : Nat) : (s.fset f c i n).balance = s.balance := rfl
@[simp] theorem State.fset_trace (f : Fld) (c i n : Nat) : (s.fset f c i n).trace = s.trace := rfl
@[simp] theorem State.fset_snap (f : Fld) (c i n : Nat) : (s.fset f c i n).snap = s.snap := rfl
@[simp] theorem State.fset_held (f : Fld) (c i n : Nat) : (s.fset f c i n).held = s.held := rfl
@[simp] theorem State.fset_tbl (f : Fld) (c i n : Nat) : (s.fset f c i n).tbl = s.tbl := rfl
@[simp] theorem State.fset_twin (f : Fld) (c i n : Nat) : (s.fset f c i n).twin = s.twin := rfl
@[simp] theorem State.fset_power (f : Fld) (c i n : Nat) : (s.fset f c i n).power = s.power := rfl
@[simp] theorem State.fset_tap (f : Fld) (c i n : Nat) : (s.fset f c i n).tap = s.tap := rfl

@[simp] theorem State.bump_pending (f : Fld) (c i n : Nat) : (s.bump f c i n).pending = s.pending := rfl
@[simp] theorem State.bump_free (f : Fld) (c i n : Nat) : (s.bump f c i n).free = s.free := rfl
@[simp] theorem State.bump_fns (f : Fld) (c i n : Nat) : (s.bump f c i n).fns = s.fns := rfl
@[simp] theorem State.bump_planes (f : Fld) (c i n : Nat) : (s.bump f c i n).planes = s.planes := rfl
@[simp] theorem State.bump_image (f : Fld) (c i n : Nat) : (s.bump f c i n).image = s.image := rfl
@[simp] theorem State.bump_cmem (f : Fld) (c i n : Nat) : (s.bump f c i n).cmem = s.cmem := rfl
@[simp] theorem State.bump_hostMem (f : Fld) (c i n : Nat) : (s.bump f c i n).hostMem = s.hostMem := rfl
@[simp] theorem State.bump_chans (f : Fld) (c i n : Nat) : (s.bump f c i n).chans = s.chans := rfl
@[simp] theorem State.bump_lanes (f : Fld) (c i n : Nat) : (s.bump f c i n).lanes = s.lanes := rfl
@[simp] theorem State.bump_msix (f : Fld) (c i n : Nat) : (s.bump f c i n).msix = s.msix := rfl
@[simp] theorem State.bump_pcie (f : Fld) (c i n : Nat) : (s.bump f c i n).pcie = s.pcie := rfl
@[simp] theorem State.bump_time (f : Fld) (c i n : Nat) : (s.bump f c i n).time = s.time := rfl
@[simp] theorem State.bump_flt (f : Fld) (c i n : Nat) : (s.bump f c i n).flt = s.flt := rfl
@[simp] theorem State.bump_ports (f : Fld) (c i n : Nat) : (s.bump f c i n).ports = s.ports := rfl
@[simp] theorem State.bump_i2c (f : Fld) (c i n : Nat) : (s.bump f c i n).i2c = s.i2c := rfl
@[simp] theorem State.bump_bufs (f : Fld) (c i n : Nat) : (s.bump f c i n).bufs = s.bufs := rfl
@[simp] theorem State.bump_bufMem (f : Fld) (c i n : Nat) : (s.bump f c i n).bufMem = s.bufMem := rfl
@[simp] theorem State.bump_expUsed (f : Fld) (c i n : Nat) : (s.bump f c i n).expUsed = s.expUsed := rfl
@[simp] theorem State.bump_hdrmUsed (f : Fld) (c i n : Nat) : (s.bump f c i n).hdrmUsed = s.hdrmUsed := rfl
@[simp] theorem State.bump_frames (f : Fld) (c i n : Nat) : (s.bump f c i n).frames = s.frames := rfl
@[simp] theorem State.bump_nextFrame (f : Fld) (c i n : Nat) : (s.bump f c i n).nextFrame = s.nextFrame := rfl
@[simp] theorem State.bump_nextCopy (f : Fld) (c i n : Nat) : (s.bump f c i n).nextCopy = s.nextCopy := rfl
@[simp] theorem State.bump_seqs (f : Fld) (c i n : Nat) : (s.bump f c i n).seqs = s.seqs := rfl
@[simp] theorem State.bump_groups (f : Fld) (c i n : Nat) : (s.bump f c i n).groups = s.groups := rfl
@[simp] theorem State.bump_slices (f : Fld) (c i n : Nat) : (s.bump f c i n).slices = s.slices := rfl
@[simp] theorem State.bump_buckets (f : Fld) (c i n : Nat) : (s.bump f c i n).buckets = s.buckets := rfl
@[simp] theorem State.bump_blocked (f : Fld) (c i n : Nat) : (s.bump f c i n).blocked = s.blocked := rfl
@[simp] theorem State.bump_queues (f : Fld) (c i n : Nat) : (s.bump f c i n).queues = s.queues := rfl
@[simp] theorem State.bump_engines (f : Fld) (c i n : Nat) : (s.bump f c i n).engines = s.engines := rfl
@[simp] theorem State.bump_clusters (f : Fld) (c i n : Nat) : (s.bump f c i n).clusters = s.clusters := rfl
@[simp] theorem State.bump_rwFenced (f : Fld) (c i n : Nat) : (s.bump f c i n).rwFenced = s.rwFenced := rfl
@[simp] theorem State.bump_sets (f : Fld) (c i n : Nat) : (s.bump f c i n).sets = s.sets := rfl
@[simp] theorem State.bump_hbm (f : Fld) (c i n : Nat) : (s.bump f c i n).hbm = s.hbm := rfl
@[simp] theorem State.bump_credits (f : Fld) (c i n : Nat) : (s.bump f c i n).credits = s.credits := rfl
@[simp] theorem State.bump_rates (f : Fld) (c i n : Nat) : (s.bump f c i n).rates = s.rates := rfl
@[simp] theorem State.bump_threads (f : Fld) (c i n : Nat) : (s.bump f c i n).threads = s.threads := rfl
@[simp] theorem State.bump_sevs (f : Fld) (c i n : Nat) : (s.bump f c i n).sevs = s.sevs := rfl
@[simp] theorem State.bump_mail (f : Fld) (c i n : Nat) : (s.bump f c i n).mail = s.mail := rfl
@[simp] theorem State.bump_faultQ (f : Fld) (c i n : Nat) : (s.bump f c i n).faultQ = s.faultQ := rfl
@[simp] theorem State.bump_icache (f : Fld) (c i n : Nat) : (s.bump f c i n).icache = s.icache := rfl
@[simp] theorem State.bump_tags (f : Fld) (c i n : Nat) : (s.bump f c i n).tags = s.tags := rfl
@[simp] theorem State.bump_bpmReply (f : Fld) (c i n : Nat) : (s.bump f c i n).bpmReply = s.bpmReply := rfl
@[simp] theorem State.bump_punts (f : Fld) (c i n : Nat) : (s.bump f c i n).punts = s.punts := rfl
@[simp] theorem State.bump_events (f : Fld) (c i n : Nat) : (s.bump f c i n).events = s.events := rfl
@[simp] theorem State.bump_learned (f : Fld) (c i n : Nat) : (s.bump f c i n).learned = s.learned := rfl
@[simp] theorem State.bump_mirrors (f : Fld) (c i n : Nat) : (s.bump f c i n).mirrors = s.mirrors := rfl
@[simp] theorem State.bump_watch (f : Fld) (c i n : Nat) : (s.bump f c i n).watch = s.watch := rfl
@[simp] theorem State.bump_balance (f : Fld) (c i n : Nat) : (s.bump f c i n).balance = s.balance := rfl
@[simp] theorem State.bump_trace (f : Fld) (c i n : Nat) : (s.bump f c i n).trace = s.trace := rfl
@[simp] theorem State.bump_snap (f : Fld) (c i n : Nat) : (s.bump f c i n).snap = s.snap := rfl
@[simp] theorem State.bump_held (f : Fld) (c i n : Nat) : (s.bump f c i n).held = s.held := rfl
@[simp] theorem State.bump_tbl (f : Fld) (c i n : Nat) : (s.bump f c i n).tbl = s.tbl := rfl
@[simp] theorem State.bump_twin (f : Fld) (c i n : Nat) : (s.bump f c i n).twin = s.twin := rfl
@[simp] theorem State.bump_power (f : Fld) (c i n : Nat) : (s.bump f c i n).power = s.power := rfl
@[simp] theorem State.bump_tap (f : Fld) (c i n : Nat) : (s.bump f c i n).tap = s.tap := rfl

@[simp] theorem State.bumpSat_pending (f : Fld) (c i n : Nat) : (s.bumpSat f c i n).pending = s.pending := rfl
@[simp] theorem State.bumpSat_free (f : Fld) (c i n : Nat) : (s.bumpSat f c i n).free = s.free := rfl
@[simp] theorem State.bumpSat_fns (f : Fld) (c i n : Nat) : (s.bumpSat f c i n).fns = s.fns := rfl
@[simp] theorem State.bumpSat_planes (f : Fld) (c i n : Nat) : (s.bumpSat f c i n).planes = s.planes := rfl
@[simp] theorem State.bumpSat_image (f : Fld) (c i n : Nat) : (s.bumpSat f c i n).image = s.image := rfl
@[simp] theorem State.bumpSat_cmem (f : Fld) (c i n : Nat) : (s.bumpSat f c i n).cmem = s.cmem := rfl
@[simp] theorem State.bumpSat_hostMem (f : Fld) (c i n : Nat) : (s.bumpSat f c i n).hostMem = s.hostMem := rfl
@[simp] theorem State.bumpSat_chans (f : Fld) (c i n : Nat) : (s.bumpSat f c i n).chans = s.chans := rfl
@[simp] theorem State.bumpSat_lanes (f : Fld) (c i n : Nat) : (s.bumpSat f c i n).lanes = s.lanes := rfl
@[simp] theorem State.bumpSat_msix (f : Fld) (c i n : Nat) : (s.bumpSat f c i n).msix = s.msix := rfl
@[simp] theorem State.bumpSat_pcie (f : Fld) (c i n : Nat) : (s.bumpSat f c i n).pcie = s.pcie := rfl
@[simp] theorem State.bumpSat_time (f : Fld) (c i n : Nat) : (s.bumpSat f c i n).time = s.time := rfl
@[simp] theorem State.bumpSat_flt (f : Fld) (c i n : Nat) : (s.bumpSat f c i n).flt = s.flt := rfl
@[simp] theorem State.bumpSat_ports (f : Fld) (c i n : Nat) : (s.bumpSat f c i n).ports = s.ports := rfl
@[simp] theorem State.bumpSat_i2c (f : Fld) (c i n : Nat) : (s.bumpSat f c i n).i2c = s.i2c := rfl
@[simp] theorem State.bumpSat_bufs (f : Fld) (c i n : Nat) : (s.bumpSat f c i n).bufs = s.bufs := rfl
@[simp] theorem State.bumpSat_bufMem (f : Fld) (c i n : Nat) : (s.bumpSat f c i n).bufMem = s.bufMem := rfl
@[simp] theorem State.bumpSat_expUsed (f : Fld) (c i n : Nat) : (s.bumpSat f c i n).expUsed = s.expUsed := rfl
@[simp] theorem State.bumpSat_hdrmUsed (f : Fld) (c i n : Nat) : (s.bumpSat f c i n).hdrmUsed = s.hdrmUsed := rfl
@[simp] theorem State.bumpSat_frames (f : Fld) (c i n : Nat) : (s.bumpSat f c i n).frames = s.frames := rfl
@[simp] theorem State.bumpSat_nextFrame (f : Fld) (c i n : Nat) : (s.bumpSat f c i n).nextFrame = s.nextFrame := rfl
@[simp] theorem State.bumpSat_nextCopy (f : Fld) (c i n : Nat) : (s.bumpSat f c i n).nextCopy = s.nextCopy := rfl
@[simp] theorem State.bumpSat_seqs (f : Fld) (c i n : Nat) : (s.bumpSat f c i n).seqs = s.seqs := rfl
@[simp] theorem State.bumpSat_groups (f : Fld) (c i n : Nat) : (s.bumpSat f c i n).groups = s.groups := rfl
@[simp] theorem State.bumpSat_slices (f : Fld) (c i n : Nat) : (s.bumpSat f c i n).slices = s.slices := rfl
@[simp] theorem State.bumpSat_buckets (f : Fld) (c i n : Nat) : (s.bumpSat f c i n).buckets = s.buckets := rfl
@[simp] theorem State.bumpSat_blocked (f : Fld) (c i n : Nat) : (s.bumpSat f c i n).blocked = s.blocked := rfl
@[simp] theorem State.bumpSat_queues (f : Fld) (c i n : Nat) : (s.bumpSat f c i n).queues = s.queues := rfl
@[simp] theorem State.bumpSat_engines (f : Fld) (c i n : Nat) : (s.bumpSat f c i n).engines = s.engines := rfl
@[simp] theorem State.bumpSat_clusters (f : Fld) (c i n : Nat) : (s.bumpSat f c i n).clusters = s.clusters := rfl
@[simp] theorem State.bumpSat_rwFenced (f : Fld) (c i n : Nat) : (s.bumpSat f c i n).rwFenced = s.rwFenced := rfl
@[simp] theorem State.bumpSat_sets (f : Fld) (c i n : Nat) : (s.bumpSat f c i n).sets = s.sets := rfl
@[simp] theorem State.bumpSat_hbm (f : Fld) (c i n : Nat) : (s.bumpSat f c i n).hbm = s.hbm := rfl
@[simp] theorem State.bumpSat_credits (f : Fld) (c i n : Nat) : (s.bumpSat f c i n).credits = s.credits := rfl
@[simp] theorem State.bumpSat_rates (f : Fld) (c i n : Nat) : (s.bumpSat f c i n).rates = s.rates := rfl
@[simp] theorem State.bumpSat_threads (f : Fld) (c i n : Nat) : (s.bumpSat f c i n).threads = s.threads := rfl
@[simp] theorem State.bumpSat_sevs (f : Fld) (c i n : Nat) : (s.bumpSat f c i n).sevs = s.sevs := rfl
@[simp] theorem State.bumpSat_mail (f : Fld) (c i n : Nat) : (s.bumpSat f c i n).mail = s.mail := rfl
@[simp] theorem State.bumpSat_faultQ (f : Fld) (c i n : Nat) : (s.bumpSat f c i n).faultQ = s.faultQ := rfl
@[simp] theorem State.bumpSat_icache (f : Fld) (c i n : Nat) : (s.bumpSat f c i n).icache = s.icache := rfl
@[simp] theorem State.bumpSat_tags (f : Fld) (c i n : Nat) : (s.bumpSat f c i n).tags = s.tags := rfl
@[simp] theorem State.bumpSat_bpmReply (f : Fld) (c i n : Nat) : (s.bumpSat f c i n).bpmReply = s.bpmReply := rfl
@[simp] theorem State.bumpSat_punts (f : Fld) (c i n : Nat) : (s.bumpSat f c i n).punts = s.punts := rfl
@[simp] theorem State.bumpSat_events (f : Fld) (c i n : Nat) : (s.bumpSat f c i n).events = s.events := rfl
@[simp] theorem State.bumpSat_learned (f : Fld) (c i n : Nat) : (s.bumpSat f c i n).learned = s.learned := rfl
@[simp] theorem State.bumpSat_mirrors (f : Fld) (c i n : Nat) : (s.bumpSat f c i n).mirrors = s.mirrors := rfl
@[simp] theorem State.bumpSat_watch (f : Fld) (c i n : Nat) : (s.bumpSat f c i n).watch = s.watch := rfl
@[simp] theorem State.bumpSat_balance (f : Fld) (c i n : Nat) : (s.bumpSat f c i n).balance = s.balance := rfl
@[simp] theorem State.bumpSat_trace (f : Fld) (c i n : Nat) : (s.bumpSat f c i n).trace = s.trace := rfl
@[simp] theorem State.bumpSat_snap (f : Fld) (c i n : Nat) : (s.bumpSat f c i n).snap = s.snap := rfl
@[simp] theorem State.bumpSat_held (f : Fld) (c i n : Nat) : (s.bumpSat f c i n).held = s.held := rfl
@[simp] theorem State.bumpSat_tbl (f : Fld) (c i n : Nat) : (s.bumpSat f c i n).tbl = s.tbl := rfl
@[simp] theorem State.bumpSat_twin (f : Fld) (c i n : Nat) : (s.bumpSat f c i n).twin = s.twin := rfl
@[simp] theorem State.bumpSat_power (f : Fld) (c i n : Nat) : (s.bumpSat f c i n).power = s.power := rfl
@[simp] theorem State.bumpSat_tap (f : Fld) (c i n : Nat) : (s.bumpSat f c i n).tap = s.tap := rfl

@[simp] theorem State.drop_pending (f : Fld) (c i n : Nat) : (s.drop f c i n).pending = s.pending := rfl
@[simp] theorem State.drop_free (f : Fld) (c i n : Nat) : (s.drop f c i n).free = s.free := rfl
@[simp] theorem State.drop_fns (f : Fld) (c i n : Nat) : (s.drop f c i n).fns = s.fns := rfl
@[simp] theorem State.drop_planes (f : Fld) (c i n : Nat) : (s.drop f c i n).planes = s.planes := rfl
@[simp] theorem State.drop_image (f : Fld) (c i n : Nat) : (s.drop f c i n).image = s.image := rfl
@[simp] theorem State.drop_cmem (f : Fld) (c i n : Nat) : (s.drop f c i n).cmem = s.cmem := rfl
@[simp] theorem State.drop_hostMem (f : Fld) (c i n : Nat) : (s.drop f c i n).hostMem = s.hostMem := rfl
@[simp] theorem State.drop_chans (f : Fld) (c i n : Nat) : (s.drop f c i n).chans = s.chans := rfl
@[simp] theorem State.drop_lanes (f : Fld) (c i n : Nat) : (s.drop f c i n).lanes = s.lanes := rfl
@[simp] theorem State.drop_msix (f : Fld) (c i n : Nat) : (s.drop f c i n).msix = s.msix := rfl
@[simp] theorem State.drop_pcie (f : Fld) (c i n : Nat) : (s.drop f c i n).pcie = s.pcie := rfl
@[simp] theorem State.drop_time (f : Fld) (c i n : Nat) : (s.drop f c i n).time = s.time := rfl
@[simp] theorem State.drop_flt (f : Fld) (c i n : Nat) : (s.drop f c i n).flt = s.flt := rfl
@[simp] theorem State.drop_ports (f : Fld) (c i n : Nat) : (s.drop f c i n).ports = s.ports := rfl
@[simp] theorem State.drop_i2c (f : Fld) (c i n : Nat) : (s.drop f c i n).i2c = s.i2c := rfl
@[simp] theorem State.drop_bufs (f : Fld) (c i n : Nat) : (s.drop f c i n).bufs = s.bufs := rfl
@[simp] theorem State.drop_bufMem (f : Fld) (c i n : Nat) : (s.drop f c i n).bufMem = s.bufMem := rfl
@[simp] theorem State.drop_expUsed (f : Fld) (c i n : Nat) : (s.drop f c i n).expUsed = s.expUsed := rfl
@[simp] theorem State.drop_hdrmUsed (f : Fld) (c i n : Nat) : (s.drop f c i n).hdrmUsed = s.hdrmUsed := rfl
@[simp] theorem State.drop_frames (f : Fld) (c i n : Nat) : (s.drop f c i n).frames = s.frames := rfl
@[simp] theorem State.drop_nextFrame (f : Fld) (c i n : Nat) : (s.drop f c i n).nextFrame = s.nextFrame := rfl
@[simp] theorem State.drop_nextCopy (f : Fld) (c i n : Nat) : (s.drop f c i n).nextCopy = s.nextCopy := rfl
@[simp] theorem State.drop_seqs (f : Fld) (c i n : Nat) : (s.drop f c i n).seqs = s.seqs := rfl
@[simp] theorem State.drop_groups (f : Fld) (c i n : Nat) : (s.drop f c i n).groups = s.groups := rfl
@[simp] theorem State.drop_slices (f : Fld) (c i n : Nat) : (s.drop f c i n).slices = s.slices := rfl
@[simp] theorem State.drop_buckets (f : Fld) (c i n : Nat) : (s.drop f c i n).buckets = s.buckets := rfl
@[simp] theorem State.drop_blocked (f : Fld) (c i n : Nat) : (s.drop f c i n).blocked = s.blocked := rfl
@[simp] theorem State.drop_queues (f : Fld) (c i n : Nat) : (s.drop f c i n).queues = s.queues := rfl
@[simp] theorem State.drop_engines (f : Fld) (c i n : Nat) : (s.drop f c i n).engines = s.engines := rfl
@[simp] theorem State.drop_clusters (f : Fld) (c i n : Nat) : (s.drop f c i n).clusters = s.clusters := rfl
@[simp] theorem State.drop_rwFenced (f : Fld) (c i n : Nat) : (s.drop f c i n).rwFenced = s.rwFenced := rfl
@[simp] theorem State.drop_sets (f : Fld) (c i n : Nat) : (s.drop f c i n).sets = s.sets := rfl
@[simp] theorem State.drop_hbm (f : Fld) (c i n : Nat) : (s.drop f c i n).hbm = s.hbm := rfl
@[simp] theorem State.drop_credits (f : Fld) (c i n : Nat) : (s.drop f c i n).credits = s.credits := rfl
@[simp] theorem State.drop_rates (f : Fld) (c i n : Nat) : (s.drop f c i n).rates = s.rates := rfl
@[simp] theorem State.drop_threads (f : Fld) (c i n : Nat) : (s.drop f c i n).threads = s.threads := rfl
@[simp] theorem State.drop_sevs (f : Fld) (c i n : Nat) : (s.drop f c i n).sevs = s.sevs := rfl
@[simp] theorem State.drop_mail (f : Fld) (c i n : Nat) : (s.drop f c i n).mail = s.mail := rfl
@[simp] theorem State.drop_faultQ (f : Fld) (c i n : Nat) : (s.drop f c i n).faultQ = s.faultQ := rfl
@[simp] theorem State.drop_icache (f : Fld) (c i n : Nat) : (s.drop f c i n).icache = s.icache := rfl
@[simp] theorem State.drop_tags (f : Fld) (c i n : Nat) : (s.drop f c i n).tags = s.tags := rfl
@[simp] theorem State.drop_bpmReply (f : Fld) (c i n : Nat) : (s.drop f c i n).bpmReply = s.bpmReply := rfl
@[simp] theorem State.drop_punts (f : Fld) (c i n : Nat) : (s.drop f c i n).punts = s.punts := rfl
@[simp] theorem State.drop_events (f : Fld) (c i n : Nat) : (s.drop f c i n).events = s.events := rfl
@[simp] theorem State.drop_learned (f : Fld) (c i n : Nat) : (s.drop f c i n).learned = s.learned := rfl
@[simp] theorem State.drop_mirrors (f : Fld) (c i n : Nat) : (s.drop f c i n).mirrors = s.mirrors := rfl
@[simp] theorem State.drop_watch (f : Fld) (c i n : Nat) : (s.drop f c i n).watch = s.watch := rfl
@[simp] theorem State.drop_balance (f : Fld) (c i n : Nat) : (s.drop f c i n).balance = s.balance := rfl
@[simp] theorem State.drop_trace (f : Fld) (c i n : Nat) : (s.drop f c i n).trace = s.trace := rfl
@[simp] theorem State.drop_snap (f : Fld) (c i n : Nat) : (s.drop f c i n).snap = s.snap := rfl
@[simp] theorem State.drop_held (f : Fld) (c i n : Nat) : (s.drop f c i n).held = s.held := rfl
@[simp] theorem State.drop_tbl (f : Fld) (c i n : Nat) : (s.drop f c i n).tbl = s.tbl := rfl
@[simp] theorem State.drop_twin (f : Fld) (c i n : Nat) : (s.drop f c i n).twin = s.twin := rfl
@[simp] theorem State.drop_power (f : Fld) (c i n : Nat) : (s.drop f c i n).power = s.power := rfl
@[simp] theorem State.drop_tap (f : Fld) (c i n : Nat) : (s.drop f c i n).tap = s.tap := rfl

@[simp] theorem State.setPlane_pending (a b : Nat) (p : Plane) : (s.setPlane a b p).pending = s.pending := rfl
@[simp] theorem State.setPlane_free (a b : Nat) (p : Plane) : (s.setPlane a b p).free = s.free := rfl
@[simp] theorem State.setPlane_regs (a b : Nat) (p : Plane) : (s.setPlane a b p).regs = s.regs := rfl
@[simp] theorem State.setPlane_fns (a b : Nat) (p : Plane) : (s.setPlane a b p).fns = s.fns := rfl
@[simp] theorem State.setPlane_image (a b : Nat) (p : Plane) : (s.setPlane a b p).image = s.image := rfl
@[simp] theorem State.setPlane_cmem (a b : Nat) (p : Plane) : (s.setPlane a b p).cmem = s.cmem := rfl
@[simp] theorem State.setPlane_hostMem (a b : Nat) (p : Plane) : (s.setPlane a b p).hostMem = s.hostMem := rfl
@[simp] theorem State.setPlane_chans (a b : Nat) (p : Plane) : (s.setPlane a b p).chans = s.chans := rfl
@[simp] theorem State.setPlane_lanes (a b : Nat) (p : Plane) : (s.setPlane a b p).lanes = s.lanes := rfl
@[simp] theorem State.setPlane_msix (a b : Nat) (p : Plane) : (s.setPlane a b p).msix = s.msix := rfl
@[simp] theorem State.setPlane_pcie (a b : Nat) (p : Plane) : (s.setPlane a b p).pcie = s.pcie := rfl
@[simp] theorem State.setPlane_time (a b : Nat) (p : Plane) : (s.setPlane a b p).time = s.time := rfl
@[simp] theorem State.setPlane_flt (a b : Nat) (p : Plane) : (s.setPlane a b p).flt = s.flt := rfl
@[simp] theorem State.setPlane_ports (a b : Nat) (p : Plane) : (s.setPlane a b p).ports = s.ports := rfl
@[simp] theorem State.setPlane_i2c (a b : Nat) (p : Plane) : (s.setPlane a b p).i2c = s.i2c := rfl
@[simp] theorem State.setPlane_bufs (a b : Nat) (p : Plane) : (s.setPlane a b p).bufs = s.bufs := rfl
@[simp] theorem State.setPlane_bufMem (a b : Nat) (p : Plane) : (s.setPlane a b p).bufMem = s.bufMem := rfl
@[simp] theorem State.setPlane_expUsed (a b : Nat) (p : Plane) : (s.setPlane a b p).expUsed = s.expUsed := rfl
@[simp] theorem State.setPlane_hdrmUsed (a b : Nat) (p : Plane) : (s.setPlane a b p).hdrmUsed = s.hdrmUsed := rfl
@[simp] theorem State.setPlane_frames (a b : Nat) (p : Plane) : (s.setPlane a b p).frames = s.frames := rfl
@[simp] theorem State.setPlane_nextFrame (a b : Nat) (p : Plane) : (s.setPlane a b p).nextFrame = s.nextFrame := rfl
@[simp] theorem State.setPlane_nextCopy (a b : Nat) (p : Plane) : (s.setPlane a b p).nextCopy = s.nextCopy := rfl
@[simp] theorem State.setPlane_seqs (a b : Nat) (p : Plane) : (s.setPlane a b p).seqs = s.seqs := rfl
@[simp] theorem State.setPlane_groups (a b : Nat) (p : Plane) : (s.setPlane a b p).groups = s.groups := rfl
@[simp] theorem State.setPlane_slices (a b : Nat) (p : Plane) : (s.setPlane a b p).slices = s.slices := rfl
@[simp] theorem State.setPlane_buckets (a b : Nat) (p : Plane) : (s.setPlane a b p).buckets = s.buckets := rfl
@[simp] theorem State.setPlane_blocked (a b : Nat) (p : Plane) : (s.setPlane a b p).blocked = s.blocked := rfl
@[simp] theorem State.setPlane_queues (a b : Nat) (p : Plane) : (s.setPlane a b p).queues = s.queues := rfl
@[simp] theorem State.setPlane_engines (a b : Nat) (p : Plane) : (s.setPlane a b p).engines = s.engines := rfl
@[simp] theorem State.setPlane_clusters (a b : Nat) (p : Plane) : (s.setPlane a b p).clusters = s.clusters := rfl
@[simp] theorem State.setPlane_rwFenced (a b : Nat) (p : Plane) : (s.setPlane a b p).rwFenced = s.rwFenced := rfl
@[simp] theorem State.setPlane_sets (a b : Nat) (p : Plane) : (s.setPlane a b p).sets = s.sets := rfl
@[simp] theorem State.setPlane_hbm (a b : Nat) (p : Plane) : (s.setPlane a b p).hbm = s.hbm := rfl
@[simp] theorem State.setPlane_credits (a b : Nat) (p : Plane) : (s.setPlane a b p).credits = s.credits := rfl
@[simp] theorem State.setPlane_rates (a b : Nat) (p : Plane) : (s.setPlane a b p).rates = s.rates := rfl
@[simp] theorem State.setPlane_threads (a b : Nat) (p : Plane) : (s.setPlane a b p).threads = s.threads := rfl
@[simp] theorem State.setPlane_sevs (a b : Nat) (p : Plane) : (s.setPlane a b p).sevs = s.sevs := rfl
@[simp] theorem State.setPlane_mail (a b : Nat) (p : Plane) : (s.setPlane a b p).mail = s.mail := rfl
@[simp] theorem State.setPlane_faultQ (a b : Nat) (p : Plane) : (s.setPlane a b p).faultQ = s.faultQ := rfl
@[simp] theorem State.setPlane_icache (a b : Nat) (p : Plane) : (s.setPlane a b p).icache = s.icache := rfl
@[simp] theorem State.setPlane_tags (a b : Nat) (p : Plane) : (s.setPlane a b p).tags = s.tags := rfl
@[simp] theorem State.setPlane_bpmReply (a b : Nat) (p : Plane) : (s.setPlane a b p).bpmReply = s.bpmReply := rfl
@[simp] theorem State.setPlane_punts (a b : Nat) (p : Plane) : (s.setPlane a b p).punts = s.punts := rfl
@[simp] theorem State.setPlane_events (a b : Nat) (p : Plane) : (s.setPlane a b p).events = s.events := rfl
@[simp] theorem State.setPlane_learned (a b : Nat) (p : Plane) : (s.setPlane a b p).learned = s.learned := rfl
@[simp] theorem State.setPlane_mirrors (a b : Nat) (p : Plane) : (s.setPlane a b p).mirrors = s.mirrors := rfl
@[simp] theorem State.setPlane_watch (a b : Nat) (p : Plane) : (s.setPlane a b p).watch = s.watch := rfl
@[simp] theorem State.setPlane_balance (a b : Nat) (p : Plane) : (s.setPlane a b p).balance = s.balance := rfl
@[simp] theorem State.setPlane_trace (a b : Nat) (p : Plane) : (s.setPlane a b p).trace = s.trace := rfl
@[simp] theorem State.setPlane_snap (a b : Nat) (p : Plane) : (s.setPlane a b p).snap = s.snap := rfl
@[simp] theorem State.setPlane_held (a b : Nat) (p : Plane) : (s.setPlane a b p).held = s.held := rfl
@[simp] theorem State.setPlane_tbl (a b : Nat) (p : Plane) : (s.setPlane a b p).tbl = s.tbl := rfl
@[simp] theorem State.setPlane_twin (a b : Nat) (p : Plane) : (s.setPlane a b p).twin = s.twin := rfl
@[simp] theorem State.setPlane_power (a b : Nat) (p : Plane) : (s.setPlane a b p).power = s.power := rfl
@[simp] theorem State.setPlane_tap (a b : Nat) (p : Plane) : (s.setPlane a b p).tap = s.tap := rfl

@[simp] theorem State.modFn_pending (f : Func) (g : FnState → FnState) : (s.modFn f g).pending = s.pending := rfl
@[simp] theorem State.modFn_free (f : Func) (g : FnState → FnState) : (s.modFn f g).free = s.free := rfl
@[simp] theorem State.modFn_regs (f : Func) (g : FnState → FnState) : (s.modFn f g).regs = s.regs := rfl
@[simp] theorem State.modFn_planes (f : Func) (g : FnState → FnState) : (s.modFn f g).planes = s.planes := rfl
@[simp] theorem State.modFn_image (f : Func) (g : FnState → FnState) : (s.modFn f g).image = s.image := rfl
@[simp] theorem State.modFn_cmem (f : Func) (g : FnState → FnState) : (s.modFn f g).cmem = s.cmem := rfl
@[simp] theorem State.modFn_hostMem (f : Func) (g : FnState → FnState) : (s.modFn f g).hostMem = s.hostMem := rfl
@[simp] theorem State.modFn_chans (f : Func) (g : FnState → FnState) : (s.modFn f g).chans = s.chans := rfl
@[simp] theorem State.modFn_lanes (f : Func) (g : FnState → FnState) : (s.modFn f g).lanes = s.lanes := rfl
@[simp] theorem State.modFn_msix (f : Func) (g : FnState → FnState) : (s.modFn f g).msix = s.msix := rfl
@[simp] theorem State.modFn_pcie (f : Func) (g : FnState → FnState) : (s.modFn f g).pcie = s.pcie := rfl
@[simp] theorem State.modFn_time (f : Func) (g : FnState → FnState) : (s.modFn f g).time = s.time := rfl
@[simp] theorem State.modFn_flt (f : Func) (g : FnState → FnState) : (s.modFn f g).flt = s.flt := rfl
@[simp] theorem State.modFn_ports (f : Func) (g : FnState → FnState) : (s.modFn f g).ports = s.ports := rfl
@[simp] theorem State.modFn_i2c (f : Func) (g : FnState → FnState) : (s.modFn f g).i2c = s.i2c := rfl
@[simp] theorem State.modFn_bufs (f : Func) (g : FnState → FnState) : (s.modFn f g).bufs = s.bufs := rfl
@[simp] theorem State.modFn_bufMem (f : Func) (g : FnState → FnState) : (s.modFn f g).bufMem = s.bufMem := rfl
@[simp] theorem State.modFn_expUsed (f : Func) (g : FnState → FnState) : (s.modFn f g).expUsed = s.expUsed := rfl
@[simp] theorem State.modFn_hdrmUsed (f : Func) (g : FnState → FnState) : (s.modFn f g).hdrmUsed = s.hdrmUsed := rfl
@[simp] theorem State.modFn_frames (f : Func) (g : FnState → FnState) : (s.modFn f g).frames = s.frames := rfl
@[simp] theorem State.modFn_nextFrame (f : Func) (g : FnState → FnState) : (s.modFn f g).nextFrame = s.nextFrame := rfl
@[simp] theorem State.modFn_nextCopy (f : Func) (g : FnState → FnState) : (s.modFn f g).nextCopy = s.nextCopy := rfl
@[simp] theorem State.modFn_seqs (f : Func) (g : FnState → FnState) : (s.modFn f g).seqs = s.seqs := rfl
@[simp] theorem State.modFn_groups (f : Func) (g : FnState → FnState) : (s.modFn f g).groups = s.groups := rfl
@[simp] theorem State.modFn_slices (f : Func) (g : FnState → FnState) : (s.modFn f g).slices = s.slices := rfl
@[simp] theorem State.modFn_buckets (f : Func) (g : FnState → FnState) : (s.modFn f g).buckets = s.buckets := rfl
@[simp] theorem State.modFn_blocked (f : Func) (g : FnState → FnState) : (s.modFn f g).blocked = s.blocked := rfl
@[simp] theorem State.modFn_queues (f : Func) (g : FnState → FnState) : (s.modFn f g).queues = s.queues := rfl
@[simp] theorem State.modFn_engines (f : Func) (g : FnState → FnState) : (s.modFn f g).engines = s.engines := rfl
@[simp] theorem State.modFn_clusters (f : Func) (g : FnState → FnState) : (s.modFn f g).clusters = s.clusters := rfl
@[simp] theorem State.modFn_rwFenced (f : Func) (g : FnState → FnState) : (s.modFn f g).rwFenced = s.rwFenced := rfl
@[simp] theorem State.modFn_sets (f : Func) (g : FnState → FnState) : (s.modFn f g).sets = s.sets := rfl
@[simp] theorem State.modFn_hbm (f : Func) (g : FnState → FnState) : (s.modFn f g).hbm = s.hbm := rfl
@[simp] theorem State.modFn_credits (f : Func) (g : FnState → FnState) : (s.modFn f g).credits = s.credits := rfl
@[simp] theorem State.modFn_rates (f : Func) (g : FnState → FnState) : (s.modFn f g).rates = s.rates := rfl
@[simp] theorem State.modFn_threads (f : Func) (g : FnState → FnState) : (s.modFn f g).threads = s.threads := rfl
@[simp] theorem State.modFn_sevs (f : Func) (g : FnState → FnState) : (s.modFn f g).sevs = s.sevs := rfl
@[simp] theorem State.modFn_mail (f : Func) (g : FnState → FnState) : (s.modFn f g).mail = s.mail := rfl
@[simp] theorem State.modFn_faultQ (f : Func) (g : FnState → FnState) : (s.modFn f g).faultQ = s.faultQ := rfl
@[simp] theorem State.modFn_icache (f : Func) (g : FnState → FnState) : (s.modFn f g).icache = s.icache := rfl
@[simp] theorem State.modFn_tags (f : Func) (g : FnState → FnState) : (s.modFn f g).tags = s.tags := rfl
@[simp] theorem State.modFn_bpmReply (f : Func) (g : FnState → FnState) : (s.modFn f g).bpmReply = s.bpmReply := rfl
@[simp] theorem State.modFn_punts (f : Func) (g : FnState → FnState) : (s.modFn f g).punts = s.punts := rfl
@[simp] theorem State.modFn_events (f : Func) (g : FnState → FnState) : (s.modFn f g).events = s.events := rfl
@[simp] theorem State.modFn_learned (f : Func) (g : FnState → FnState) : (s.modFn f g).learned = s.learned := rfl
@[simp] theorem State.modFn_mirrors (f : Func) (g : FnState → FnState) : (s.modFn f g).mirrors = s.mirrors := rfl
@[simp] theorem State.modFn_watch (f : Func) (g : FnState → FnState) : (s.modFn f g).watch = s.watch := rfl
@[simp] theorem State.modFn_balance (f : Func) (g : FnState → FnState) : (s.modFn f g).balance = s.balance := rfl
@[simp] theorem State.modFn_trace (f : Func) (g : FnState → FnState) : (s.modFn f g).trace = s.trace := rfl
@[simp] theorem State.modFn_snap (f : Func) (g : FnState → FnState) : (s.modFn f g).snap = s.snap := rfl
@[simp] theorem State.modFn_held (f : Func) (g : FnState → FnState) : (s.modFn f g).held = s.held := rfl
@[simp] theorem State.modFn_tbl (f : Func) (g : FnState → FnState) : (s.modFn f g).tbl = s.tbl := rfl
@[simp] theorem State.modFn_twin (f : Func) (g : FnState → FnState) : (s.modFn f g).twin = s.twin := rfl
@[simp] theorem State.modFn_power (f : Func) (g : FnState → FnState) : (s.modFn f g).power = s.power := rfl
@[simp] theorem State.modFn_tap (f : Func) (g : FnState → FnState) : (s.modFn f g).tap = s.tap := rfl

@[simp] theorem State.nextFree_pending : (s.nextFree).pending = s.pending := rfl
@[simp] theorem State.nextFree_regs : (s.nextFree).regs = s.regs := rfl
@[simp] theorem State.nextFree_fns : (s.nextFree).fns = s.fns := rfl
@[simp] theorem State.nextFree_planes : (s.nextFree).planes = s.planes := rfl
@[simp] theorem State.nextFree_image : (s.nextFree).image = s.image := rfl
@[simp] theorem State.nextFree_cmem : (s.nextFree).cmem = s.cmem := rfl
@[simp] theorem State.nextFree_hostMem : (s.nextFree).hostMem = s.hostMem := rfl
@[simp] theorem State.nextFree_chans : (s.nextFree).chans = s.chans := rfl
@[simp] theorem State.nextFree_lanes : (s.nextFree).lanes = s.lanes := rfl
@[simp] theorem State.nextFree_msix : (s.nextFree).msix = s.msix := rfl
@[simp] theorem State.nextFree_pcie : (s.nextFree).pcie = s.pcie := rfl
@[simp] theorem State.nextFree_time : (s.nextFree).time = s.time := rfl
@[simp] theorem State.nextFree_flt : (s.nextFree).flt = s.flt := rfl
@[simp] theorem State.nextFree_ports : (s.nextFree).ports = s.ports := rfl
@[simp] theorem State.nextFree_i2c : (s.nextFree).i2c = s.i2c := rfl
@[simp] theorem State.nextFree_bufs : (s.nextFree).bufs = s.bufs := rfl
@[simp] theorem State.nextFree_bufMem : (s.nextFree).bufMem = s.bufMem := rfl
@[simp] theorem State.nextFree_expUsed : (s.nextFree).expUsed = s.expUsed := rfl
@[simp] theorem State.nextFree_hdrmUsed : (s.nextFree).hdrmUsed = s.hdrmUsed := rfl
@[simp] theorem State.nextFree_frames : (s.nextFree).frames = s.frames := rfl
@[simp] theorem State.nextFree_nextFrame : (s.nextFree).nextFrame = s.nextFrame := rfl
@[simp] theorem State.nextFree_nextCopy : (s.nextFree).nextCopy = s.nextCopy := rfl
@[simp] theorem State.nextFree_seqs : (s.nextFree).seqs = s.seqs := rfl
@[simp] theorem State.nextFree_groups : (s.nextFree).groups = s.groups := rfl
@[simp] theorem State.nextFree_slices : (s.nextFree).slices = s.slices := rfl
@[simp] theorem State.nextFree_buckets : (s.nextFree).buckets = s.buckets := rfl
@[simp] theorem State.nextFree_blocked : (s.nextFree).blocked = s.blocked := rfl
@[simp] theorem State.nextFree_queues : (s.nextFree).queues = s.queues := rfl
@[simp] theorem State.nextFree_engines : (s.nextFree).engines = s.engines := rfl
@[simp] theorem State.nextFree_clusters : (s.nextFree).clusters = s.clusters := rfl
@[simp] theorem State.nextFree_rwFenced : (s.nextFree).rwFenced = s.rwFenced := rfl
@[simp] theorem State.nextFree_sets : (s.nextFree).sets = s.sets := rfl
@[simp] theorem State.nextFree_hbm : (s.nextFree).hbm = s.hbm := rfl
@[simp] theorem State.nextFree_credits : (s.nextFree).credits = s.credits := rfl
@[simp] theorem State.nextFree_rates : (s.nextFree).rates = s.rates := rfl
@[simp] theorem State.nextFree_threads : (s.nextFree).threads = s.threads := rfl
@[simp] theorem State.nextFree_sevs : (s.nextFree).sevs = s.sevs := rfl
@[simp] theorem State.nextFree_mail : (s.nextFree).mail = s.mail := rfl
@[simp] theorem State.nextFree_faultQ : (s.nextFree).faultQ = s.faultQ := rfl
@[simp] theorem State.nextFree_icache : (s.nextFree).icache = s.icache := rfl
@[simp] theorem State.nextFree_tags : (s.nextFree).tags = s.tags := rfl
@[simp] theorem State.nextFree_bpmReply : (s.nextFree).bpmReply = s.bpmReply := rfl
@[simp] theorem State.nextFree_punts : (s.nextFree).punts = s.punts := rfl
@[simp] theorem State.nextFree_events : (s.nextFree).events = s.events := rfl
@[simp] theorem State.nextFree_learned : (s.nextFree).learned = s.learned := rfl
@[simp] theorem State.nextFree_mirrors : (s.nextFree).mirrors = s.mirrors := rfl
@[simp] theorem State.nextFree_watch : (s.nextFree).watch = s.watch := rfl
@[simp] theorem State.nextFree_balance : (s.nextFree).balance = s.balance := rfl
@[simp] theorem State.nextFree_trace : (s.nextFree).trace = s.trace := rfl
@[simp] theorem State.nextFree_snap : (s.nextFree).snap = s.snap := rfl
@[simp] theorem State.nextFree_held : (s.nextFree).held = s.held := rfl
@[simp] theorem State.nextFree_tbl : (s.nextFree).tbl = s.tbl := rfl
@[simp] theorem State.nextFree_twin : (s.nextFree).twin = s.twin := rfl
@[simp] theorem State.nextFree_power : (s.nextFree).power = s.power := rfl
@[simp] theorem State.nextFree_tap : (s.nextFree).tap = s.tap := rfl

@[simp] theorem State.cset_pending (w : Nat) (v : Word) : (s.cset w v).pending = s.pending := rfl
@[simp] theorem State.cset_free (w : Nat) (v : Word) : (s.cset w v).free = s.free := rfl
@[simp] theorem State.cset_regs (w : Nat) (v : Word) : (s.cset w v).regs = s.regs := rfl
@[simp] theorem State.cset_fns (w : Nat) (v : Word) : (s.cset w v).fns = s.fns := rfl
@[simp] theorem State.cset_planes (w : Nat) (v : Word) : (s.cset w v).planes = s.planes := rfl
@[simp] theorem State.cset_image (w : Nat) (v : Word) : (s.cset w v).image = s.image := rfl
@[simp] theorem State.cset_hostMem (w : Nat) (v : Word) : (s.cset w v).hostMem = s.hostMem := rfl
@[simp] theorem State.cset_chans (w : Nat) (v : Word) : (s.cset w v).chans = s.chans := rfl
@[simp] theorem State.cset_lanes (w : Nat) (v : Word) : (s.cset w v).lanes = s.lanes := rfl
@[simp] theorem State.cset_msix (w : Nat) (v : Word) : (s.cset w v).msix = s.msix := rfl
@[simp] theorem State.cset_pcie (w : Nat) (v : Word) : (s.cset w v).pcie = s.pcie := rfl
@[simp] theorem State.cset_time (w : Nat) (v : Word) : (s.cset w v).time = s.time := rfl
@[simp] theorem State.cset_flt (w : Nat) (v : Word) : (s.cset w v).flt = s.flt := rfl
@[simp] theorem State.cset_ports (w : Nat) (v : Word) : (s.cset w v).ports = s.ports := rfl
@[simp] theorem State.cset_i2c (w : Nat) (v : Word) : (s.cset w v).i2c = s.i2c := rfl
@[simp] theorem State.cset_bufs (w : Nat) (v : Word) : (s.cset w v).bufs = s.bufs := rfl
@[simp] theorem State.cset_bufMem (w : Nat) (v : Word) : (s.cset w v).bufMem = s.bufMem := rfl
@[simp] theorem State.cset_expUsed (w : Nat) (v : Word) : (s.cset w v).expUsed = s.expUsed := rfl
@[simp] theorem State.cset_hdrmUsed (w : Nat) (v : Word) : (s.cset w v).hdrmUsed = s.hdrmUsed := rfl
@[simp] theorem State.cset_frames (w : Nat) (v : Word) : (s.cset w v).frames = s.frames := rfl
@[simp] theorem State.cset_nextFrame (w : Nat) (v : Word) : (s.cset w v).nextFrame = s.nextFrame := rfl
@[simp] theorem State.cset_nextCopy (w : Nat) (v : Word) : (s.cset w v).nextCopy = s.nextCopy := rfl
@[simp] theorem State.cset_seqs (w : Nat) (v : Word) : (s.cset w v).seqs = s.seqs := rfl
@[simp] theorem State.cset_groups (w : Nat) (v : Word) : (s.cset w v).groups = s.groups := rfl
@[simp] theorem State.cset_slices (w : Nat) (v : Word) : (s.cset w v).slices = s.slices := rfl
@[simp] theorem State.cset_buckets (w : Nat) (v : Word) : (s.cset w v).buckets = s.buckets := rfl
@[simp] theorem State.cset_blocked (w : Nat) (v : Word) : (s.cset w v).blocked = s.blocked := rfl
@[simp] theorem State.cset_queues (w : Nat) (v : Word) : (s.cset w v).queues = s.queues := rfl
@[simp] theorem State.cset_engines (w : Nat) (v : Word) : (s.cset w v).engines = s.engines := rfl
@[simp] theorem State.cset_clusters (w : Nat) (v : Word) : (s.cset w v).clusters = s.clusters := rfl
@[simp] theorem State.cset_rwFenced (w : Nat) (v : Word) : (s.cset w v).rwFenced = s.rwFenced := rfl
@[simp] theorem State.cset_sets (w : Nat) (v : Word) : (s.cset w v).sets = s.sets := rfl
@[simp] theorem State.cset_hbm (w : Nat) (v : Word) : (s.cset w v).hbm = s.hbm := rfl
@[simp] theorem State.cset_credits (w : Nat) (v : Word) : (s.cset w v).credits = s.credits := rfl
@[simp] theorem State.cset_rates (w : Nat) (v : Word) : (s.cset w v).rates = s.rates := rfl
@[simp] theorem State.cset_threads (w : Nat) (v : Word) : (s.cset w v).threads = s.threads := rfl
@[simp] theorem State.cset_sevs (w : Nat) (v : Word) : (s.cset w v).sevs = s.sevs := rfl
@[simp] theorem State.cset_mail (w : Nat) (v : Word) : (s.cset w v).mail = s.mail := rfl
@[simp] theorem State.cset_faultQ (w : Nat) (v : Word) : (s.cset w v).faultQ = s.faultQ := rfl
@[simp] theorem State.cset_icache (w : Nat) (v : Word) : (s.cset w v).icache = s.icache := rfl
@[simp] theorem State.cset_tags (w : Nat) (v : Word) : (s.cset w v).tags = s.tags := rfl
@[simp] theorem State.cset_bpmReply (w : Nat) (v : Word) : (s.cset w v).bpmReply = s.bpmReply := rfl
@[simp] theorem State.cset_punts (w : Nat) (v : Word) : (s.cset w v).punts = s.punts := rfl
@[simp] theorem State.cset_events (w : Nat) (v : Word) : (s.cset w v).events = s.events := rfl
@[simp] theorem State.cset_learned (w : Nat) (v : Word) : (s.cset w v).learned = s.learned := rfl
@[simp] theorem State.cset_mirrors (w : Nat) (v : Word) : (s.cset w v).mirrors = s.mirrors := rfl
@[simp] theorem State.cset_watch (w : Nat) (v : Word) : (s.cset w v).watch = s.watch := rfl
@[simp] theorem State.cset_balance (w : Nat) (v : Word) : (s.cset w v).balance = s.balance := rfl
@[simp] theorem State.cset_trace (w : Nat) (v : Word) : (s.cset w v).trace = s.trace := rfl
@[simp] theorem State.cset_snap (w : Nat) (v : Word) : (s.cset w v).snap = s.snap := rfl
@[simp] theorem State.cset_held (w : Nat) (v : Word) : (s.cset w v).held = s.held := rfl
@[simp] theorem State.cset_tbl (w : Nat) (v : Word) : (s.cset w v).tbl = s.tbl := rfl
@[simp] theorem State.cset_twin (w : Nat) (v : Word) : (s.cset w v).twin = s.twin := rfl
@[simp] theorem State.cset_power (w : Nat) (v : Word) : (s.cset w v).power = s.power := rfl
@[simp] theorem State.cset_tap (w : Nat) (v : Word) : (s.cset w v).tap = s.tap := rfl

@[simp] theorem State.tick_pending : (s.tick).pending = s.pending := rfl
@[simp] theorem State.tick_free : (s.tick).free = s.free := rfl
@[simp] theorem State.tick_regs : (s.tick).regs = s.regs := rfl
@[simp] theorem State.tick_fns : (s.tick).fns = s.fns := rfl
@[simp] theorem State.tick_planes : (s.tick).planes = s.planes := rfl
@[simp] theorem State.tick_image : (s.tick).image = s.image := rfl
@[simp] theorem State.tick_cmem : (s.tick).cmem = s.cmem := rfl
@[simp] theorem State.tick_hostMem : (s.tick).hostMem = s.hostMem := rfl
@[simp] theorem State.tick_chans : (s.tick).chans = s.chans := rfl
@[simp] theorem State.tick_lanes : (s.tick).lanes = s.lanes := rfl
@[simp] theorem State.tick_msix : (s.tick).msix = s.msix := rfl
@[simp] theorem State.tick_pcie : (s.tick).pcie = s.pcie := rfl
@[simp] theorem State.tick_flt : (s.tick).flt = s.flt := rfl
@[simp] theorem State.tick_ports : (s.tick).ports = s.ports := rfl
@[simp] theorem State.tick_i2c : (s.tick).i2c = s.i2c := rfl
@[simp] theorem State.tick_bufs : (s.tick).bufs = s.bufs := rfl
@[simp] theorem State.tick_bufMem : (s.tick).bufMem = s.bufMem := rfl
@[simp] theorem State.tick_expUsed : (s.tick).expUsed = s.expUsed := rfl
@[simp] theorem State.tick_hdrmUsed : (s.tick).hdrmUsed = s.hdrmUsed := rfl
@[simp] theorem State.tick_frames : (s.tick).frames = s.frames := rfl
@[simp] theorem State.tick_nextFrame : (s.tick).nextFrame = s.nextFrame := rfl
@[simp] theorem State.tick_nextCopy : (s.tick).nextCopy = s.nextCopy := rfl
@[simp] theorem State.tick_seqs : (s.tick).seqs = s.seqs := rfl
@[simp] theorem State.tick_groups : (s.tick).groups = s.groups := rfl
@[simp] theorem State.tick_slices : (s.tick).slices = s.slices := rfl
@[simp] theorem State.tick_buckets : (s.tick).buckets = s.buckets := rfl
@[simp] theorem State.tick_blocked : (s.tick).blocked = s.blocked := rfl
@[simp] theorem State.tick_queues : (s.tick).queues = s.queues := rfl
@[simp] theorem State.tick_engines : (s.tick).engines = s.engines := rfl
@[simp] theorem State.tick_clusters : (s.tick).clusters = s.clusters := rfl
@[simp] theorem State.tick_rwFenced : (s.tick).rwFenced = s.rwFenced := rfl
@[simp] theorem State.tick_sets : (s.tick).sets = s.sets := rfl
@[simp] theorem State.tick_hbm : (s.tick).hbm = s.hbm := rfl
@[simp] theorem State.tick_credits : (s.tick).credits = s.credits := rfl
@[simp] theorem State.tick_rates : (s.tick).rates = s.rates := rfl
@[simp] theorem State.tick_threads : (s.tick).threads = s.threads := rfl
@[simp] theorem State.tick_sevs : (s.tick).sevs = s.sevs := rfl
@[simp] theorem State.tick_mail : (s.tick).mail = s.mail := rfl
@[simp] theorem State.tick_faultQ : (s.tick).faultQ = s.faultQ := rfl
@[simp] theorem State.tick_icache : (s.tick).icache = s.icache := rfl
@[simp] theorem State.tick_tags : (s.tick).tags = s.tags := rfl
@[simp] theorem State.tick_bpmReply : (s.tick).bpmReply = s.bpmReply := rfl
@[simp] theorem State.tick_punts : (s.tick).punts = s.punts := rfl
@[simp] theorem State.tick_events : (s.tick).events = s.events := rfl
@[simp] theorem State.tick_learned : (s.tick).learned = s.learned := rfl
@[simp] theorem State.tick_mirrors : (s.tick).mirrors = s.mirrors := rfl
@[simp] theorem State.tick_watch : (s.tick).watch = s.watch := rfl
@[simp] theorem State.tick_balance : (s.tick).balance = s.balance := rfl
@[simp] theorem State.tick_trace : (s.tick).trace = s.trace := rfl
@[simp] theorem State.tick_snap : (s.tick).snap = s.snap := rfl
@[simp] theorem State.tick_held : (s.tick).held = s.held := rfl
@[simp] theorem State.tick_tbl : (s.tick).tbl = s.tbl := rfl
@[simp] theorem State.tick_twin : (s.tick).twin = s.twin := rfl
@[simp] theorem State.tick_power : (s.tick).power = s.power := rfl
@[simp] theorem State.tick_tap : (s.tick).tap = s.tap := rfl

@[simp] theorem State.modPower_pending (g : PowerSt → PowerSt) : (s.modPower g).pending = s.pending := rfl
@[simp] theorem State.modPower_free (g : PowerSt → PowerSt) : (s.modPower g).free = s.free := rfl
@[simp] theorem State.modPower_regs (g : PowerSt → PowerSt) : (s.modPower g).regs = s.regs := rfl
@[simp] theorem State.modPower_fns (g : PowerSt → PowerSt) : (s.modPower g).fns = s.fns := rfl
@[simp] theorem State.modPower_planes (g : PowerSt → PowerSt) : (s.modPower g).planes = s.planes := rfl
@[simp] theorem State.modPower_image (g : PowerSt → PowerSt) : (s.modPower g).image = s.image := rfl
@[simp] theorem State.modPower_cmem (g : PowerSt → PowerSt) : (s.modPower g).cmem = s.cmem := rfl
@[simp] theorem State.modPower_hostMem (g : PowerSt → PowerSt) : (s.modPower g).hostMem = s.hostMem := rfl
@[simp] theorem State.modPower_chans (g : PowerSt → PowerSt) : (s.modPower g).chans = s.chans := rfl
@[simp] theorem State.modPower_lanes (g : PowerSt → PowerSt) : (s.modPower g).lanes = s.lanes := rfl
@[simp] theorem State.modPower_msix (g : PowerSt → PowerSt) : (s.modPower g).msix = s.msix := rfl
@[simp] theorem State.modPower_pcie (g : PowerSt → PowerSt) : (s.modPower g).pcie = s.pcie := rfl
@[simp] theorem State.modPower_time (g : PowerSt → PowerSt) : (s.modPower g).time = s.time := rfl
@[simp] theorem State.modPower_flt (g : PowerSt → PowerSt) : (s.modPower g).flt = s.flt := rfl
@[simp] theorem State.modPower_ports (g : PowerSt → PowerSt) : (s.modPower g).ports = s.ports := rfl
@[simp] theorem State.modPower_i2c (g : PowerSt → PowerSt) : (s.modPower g).i2c = s.i2c := rfl
@[simp] theorem State.modPower_bufs (g : PowerSt → PowerSt) : (s.modPower g).bufs = s.bufs := rfl
@[simp] theorem State.modPower_bufMem (g : PowerSt → PowerSt) : (s.modPower g).bufMem = s.bufMem := rfl
@[simp] theorem State.modPower_expUsed (g : PowerSt → PowerSt) : (s.modPower g).expUsed = s.expUsed := rfl
@[simp] theorem State.modPower_hdrmUsed (g : PowerSt → PowerSt) : (s.modPower g).hdrmUsed = s.hdrmUsed := rfl
@[simp] theorem State.modPower_frames (g : PowerSt → PowerSt) : (s.modPower g).frames = s.frames := rfl
@[simp] theorem State.modPower_nextFrame (g : PowerSt → PowerSt) : (s.modPower g).nextFrame = s.nextFrame := rfl
@[simp] theorem State.modPower_nextCopy (g : PowerSt → PowerSt) : (s.modPower g).nextCopy = s.nextCopy := rfl
@[simp] theorem State.modPower_seqs (g : PowerSt → PowerSt) : (s.modPower g).seqs = s.seqs := rfl
@[simp] theorem State.modPower_groups (g : PowerSt → PowerSt) : (s.modPower g).groups = s.groups := rfl
@[simp] theorem State.modPower_slices (g : PowerSt → PowerSt) : (s.modPower g).slices = s.slices := rfl
@[simp] theorem State.modPower_buckets (g : PowerSt → PowerSt) : (s.modPower g).buckets = s.buckets := rfl
@[simp] theorem State.modPower_blocked (g : PowerSt → PowerSt) : (s.modPower g).blocked = s.blocked := rfl
@[simp] theorem State.modPower_queues (g : PowerSt → PowerSt) : (s.modPower g).queues = s.queues := rfl
@[simp] theorem State.modPower_engines (g : PowerSt → PowerSt) : (s.modPower g).engines = s.engines := rfl
@[simp] theorem State.modPower_clusters (g : PowerSt → PowerSt) : (s.modPower g).clusters = s.clusters := rfl
@[simp] theorem State.modPower_rwFenced (g : PowerSt → PowerSt) : (s.modPower g).rwFenced = s.rwFenced := rfl
@[simp] theorem State.modPower_sets (g : PowerSt → PowerSt) : (s.modPower g).sets = s.sets := rfl
@[simp] theorem State.modPower_hbm (g : PowerSt → PowerSt) : (s.modPower g).hbm = s.hbm := rfl
@[simp] theorem State.modPower_credits (g : PowerSt → PowerSt) : (s.modPower g).credits = s.credits := rfl
@[simp] theorem State.modPower_rates (g : PowerSt → PowerSt) : (s.modPower g).rates = s.rates := rfl
@[simp] theorem State.modPower_threads (g : PowerSt → PowerSt) : (s.modPower g).threads = s.threads := rfl
@[simp] theorem State.modPower_sevs (g : PowerSt → PowerSt) : (s.modPower g).sevs = s.sevs := rfl
@[simp] theorem State.modPower_mail (g : PowerSt → PowerSt) : (s.modPower g).mail = s.mail := rfl
@[simp] theorem State.modPower_faultQ (g : PowerSt → PowerSt) : (s.modPower g).faultQ = s.faultQ := rfl
@[simp] theorem State.modPower_icache (g : PowerSt → PowerSt) : (s.modPower g).icache = s.icache := rfl
@[simp] theorem State.modPower_tags (g : PowerSt → PowerSt) : (s.modPower g).tags = s.tags := rfl
@[simp] theorem State.modPower_bpmReply (g : PowerSt → PowerSt) : (s.modPower g).bpmReply = s.bpmReply := rfl
@[simp] theorem State.modPower_punts (g : PowerSt → PowerSt) : (s.modPower g).punts = s.punts := rfl
@[simp] theorem State.modPower_events (g : PowerSt → PowerSt) : (s.modPower g).events = s.events := rfl
@[simp] theorem State.modPower_learned (g : PowerSt → PowerSt) : (s.modPower g).learned = s.learned := rfl
@[simp] theorem State.modPower_mirrors (g : PowerSt → PowerSt) : (s.modPower g).mirrors = s.mirrors := rfl
@[simp] theorem State.modPower_watch (g : PowerSt → PowerSt) : (s.modPower g).watch = s.watch := rfl
@[simp] theorem State.modPower_balance (g : PowerSt → PowerSt) : (s.modPower g).balance = s.balance := rfl
@[simp] theorem State.modPower_trace (g : PowerSt → PowerSt) : (s.modPower g).trace = s.trace := rfl
@[simp] theorem State.modPower_snap (g : PowerSt → PowerSt) : (s.modPower g).snap = s.snap := rfl
@[simp] theorem State.modPower_held (g : PowerSt → PowerSt) : (s.modPower g).held = s.held := rfl
@[simp] theorem State.modPower_tbl (g : PowerSt → PowerSt) : (s.modPower g).tbl = s.tbl := rfl
@[simp] theorem State.modPower_twin (g : PowerSt → PowerSt) : (s.modPower g).twin = s.twin := rfl
@[simp] theorem State.modPower_tap (g : PowerSt → PowerSt) : (s.modPower g).tap = s.tap := rfl

@[simp] theorem State.modPort_pending (p : Nat) (g : PortSt → PortSt) : (s.modPort p g).pending = s.pending := rfl
@[simp] theorem State.modPort_free (p : Nat) (g : PortSt → PortSt) : (s.modPort p g).free = s.free := rfl
@[simp] theorem State.modPort_regs (p : Nat) (g : PortSt → PortSt) : (s.modPort p g).regs = s.regs := rfl
@[simp] theorem State.modPort_fns (p : Nat) (g : PortSt → PortSt) : (s.modPort p g).fns = s.fns := rfl
@[simp] theorem State.modPort_planes (p : Nat) (g : PortSt → PortSt) : (s.modPort p g).planes = s.planes := rfl
@[simp] theorem State.modPort_image (p : Nat) (g : PortSt → PortSt) : (s.modPort p g).image = s.image := rfl
@[simp] theorem State.modPort_cmem (p : Nat) (g : PortSt → PortSt) : (s.modPort p g).cmem = s.cmem := rfl
@[simp] theorem State.modPort_hostMem (p : Nat) (g : PortSt → PortSt) : (s.modPort p g).hostMem = s.hostMem := rfl
@[simp] theorem State.modPort_chans (p : Nat) (g : PortSt → PortSt) : (s.modPort p g).chans = s.chans := rfl
@[simp] theorem State.modPort_lanes (p : Nat) (g : PortSt → PortSt) : (s.modPort p g).lanes = s.lanes := rfl
@[simp] theorem State.modPort_msix (p : Nat) (g : PortSt → PortSt) : (s.modPort p g).msix = s.msix := rfl
@[simp] theorem State.modPort_pcie (p : Nat) (g : PortSt → PortSt) : (s.modPort p g).pcie = s.pcie := rfl
@[simp] theorem State.modPort_time (p : Nat) (g : PortSt → PortSt) : (s.modPort p g).time = s.time := rfl
@[simp] theorem State.modPort_flt (p : Nat) (g : PortSt → PortSt) : (s.modPort p g).flt = s.flt := rfl
@[simp] theorem State.modPort_i2c (p : Nat) (g : PortSt → PortSt) : (s.modPort p g).i2c = s.i2c := rfl
@[simp] theorem State.modPort_bufs (p : Nat) (g : PortSt → PortSt) : (s.modPort p g).bufs = s.bufs := rfl
@[simp] theorem State.modPort_bufMem (p : Nat) (g : PortSt → PortSt) : (s.modPort p g).bufMem = s.bufMem := rfl
@[simp] theorem State.modPort_expUsed (p : Nat) (g : PortSt → PortSt) : (s.modPort p g).expUsed = s.expUsed := rfl
@[simp] theorem State.modPort_hdrmUsed (p : Nat) (g : PortSt → PortSt) : (s.modPort p g).hdrmUsed = s.hdrmUsed := rfl
@[simp] theorem State.modPort_frames (p : Nat) (g : PortSt → PortSt) : (s.modPort p g).frames = s.frames := rfl
@[simp] theorem State.modPort_nextFrame (p : Nat) (g : PortSt → PortSt) : (s.modPort p g).nextFrame = s.nextFrame := rfl
@[simp] theorem State.modPort_nextCopy (p : Nat) (g : PortSt → PortSt) : (s.modPort p g).nextCopy = s.nextCopy := rfl
@[simp] theorem State.modPort_seqs (p : Nat) (g : PortSt → PortSt) : (s.modPort p g).seqs = s.seqs := rfl
@[simp] theorem State.modPort_groups (p : Nat) (g : PortSt → PortSt) : (s.modPort p g).groups = s.groups := rfl
@[simp] theorem State.modPort_slices (p : Nat) (g : PortSt → PortSt) : (s.modPort p g).slices = s.slices := rfl
@[simp] theorem State.modPort_buckets (p : Nat) (g : PortSt → PortSt) : (s.modPort p g).buckets = s.buckets := rfl
@[simp] theorem State.modPort_blocked (p : Nat) (g : PortSt → PortSt) : (s.modPort p g).blocked = s.blocked := rfl
@[simp] theorem State.modPort_queues (p : Nat) (g : PortSt → PortSt) : (s.modPort p g).queues = s.queues := rfl
@[simp] theorem State.modPort_engines (p : Nat) (g : PortSt → PortSt) : (s.modPort p g).engines = s.engines := rfl
@[simp] theorem State.modPort_clusters (p : Nat) (g : PortSt → PortSt) : (s.modPort p g).clusters = s.clusters := rfl
@[simp] theorem State.modPort_rwFenced (p : Nat) (g : PortSt → PortSt) : (s.modPort p g).rwFenced = s.rwFenced := rfl
@[simp] theorem State.modPort_sets (p : Nat) (g : PortSt → PortSt) : (s.modPort p g).sets = s.sets := rfl
@[simp] theorem State.modPort_hbm (p : Nat) (g : PortSt → PortSt) : (s.modPort p g).hbm = s.hbm := rfl
@[simp] theorem State.modPort_credits (p : Nat) (g : PortSt → PortSt) : (s.modPort p g).credits = s.credits := rfl
@[simp] theorem State.modPort_rates (p : Nat) (g : PortSt → PortSt) : (s.modPort p g).rates = s.rates := rfl
@[simp] theorem State.modPort_threads (p : Nat) (g : PortSt → PortSt) : (s.modPort p g).threads = s.threads := rfl
@[simp] theorem State.modPort_sevs (p : Nat) (g : PortSt → PortSt) : (s.modPort p g).sevs = s.sevs := rfl
@[simp] theorem State.modPort_mail (p : Nat) (g : PortSt → PortSt) : (s.modPort p g).mail = s.mail := rfl
@[simp] theorem State.modPort_faultQ (p : Nat) (g : PortSt → PortSt) : (s.modPort p g).faultQ = s.faultQ := rfl
@[simp] theorem State.modPort_icache (p : Nat) (g : PortSt → PortSt) : (s.modPort p g).icache = s.icache := rfl
@[simp] theorem State.modPort_tags (p : Nat) (g : PortSt → PortSt) : (s.modPort p g).tags = s.tags := rfl
@[simp] theorem State.modPort_bpmReply (p : Nat) (g : PortSt → PortSt) : (s.modPort p g).bpmReply = s.bpmReply := rfl
@[simp] theorem State.modPort_punts (p : Nat) (g : PortSt → PortSt) : (s.modPort p g).punts = s.punts := rfl
@[simp] theorem State.modPort_events (p : Nat) (g : PortSt → PortSt) : (s.modPort p g).events = s.events := rfl
@[simp] theorem State.modPort_learned (p : Nat) (g : PortSt → PortSt) : (s.modPort p g).learned = s.learned := rfl
@[simp] theorem State.modPort_mirrors (p : Nat) (g : PortSt → PortSt) : (s.modPort p g).mirrors = s.mirrors := rfl
@[simp] theorem State.modPort_watch (p : Nat) (g : PortSt → PortSt) : (s.modPort p g).watch = s.watch := rfl
@[simp] theorem State.modPort_balance (p : Nat) (g : PortSt → PortSt) : (s.modPort p g).balance = s.balance := rfl
@[simp] theorem State.modPort_trace (p : Nat) (g : PortSt → PortSt) : (s.modPort p g).trace = s.trace := rfl
@[simp] theorem State.modPort_snap (p : Nat) (g : PortSt → PortSt) : (s.modPort p g).snap = s.snap := rfl
@[simp] theorem State.modPort_held (p : Nat) (g : PortSt → PortSt) : (s.modPort p g).held = s.held := rfl
@[simp] theorem State.modPort_tbl (p : Nat) (g : PortSt → PortSt) : (s.modPort p g).tbl = s.tbl := rfl
@[simp] theorem State.modPort_twin (p : Nat) (g : PortSt → PortSt) : (s.modPort p g).twin = s.twin := rfl
@[simp] theorem State.modPort_power (p : Nat) (g : PortSt → PortSt) : (s.modPort p g).power = s.power := rfl
@[simp] theorem State.modPort_tap (p : Nat) (g : PortSt → PortSt) : (s.modPort p g).tap = s.tap := rfl

@[simp] theorem State.modThr_pending (t : Nat) (g : Thread → Thread) : (s.modThr t g).pending = s.pending := rfl
@[simp] theorem State.modThr_free (t : Nat) (g : Thread → Thread) : (s.modThr t g).free = s.free := rfl
@[simp] theorem State.modThr_regs (t : Nat) (g : Thread → Thread) : (s.modThr t g).regs = s.regs := rfl
@[simp] theorem State.modThr_fns (t : Nat) (g : Thread → Thread) : (s.modThr t g).fns = s.fns := rfl
@[simp] theorem State.modThr_planes (t : Nat) (g : Thread → Thread) : (s.modThr t g).planes = s.planes := rfl
@[simp] theorem State.modThr_image (t : Nat) (g : Thread → Thread) : (s.modThr t g).image = s.image := rfl
@[simp] theorem State.modThr_cmem (t : Nat) (g : Thread → Thread) : (s.modThr t g).cmem = s.cmem := rfl
@[simp] theorem State.modThr_hostMem (t : Nat) (g : Thread → Thread) : (s.modThr t g).hostMem = s.hostMem := rfl
@[simp] theorem State.modThr_chans (t : Nat) (g : Thread → Thread) : (s.modThr t g).chans = s.chans := rfl
@[simp] theorem State.modThr_lanes (t : Nat) (g : Thread → Thread) : (s.modThr t g).lanes = s.lanes := rfl
@[simp] theorem State.modThr_msix (t : Nat) (g : Thread → Thread) : (s.modThr t g).msix = s.msix := rfl
@[simp] theorem State.modThr_pcie (t : Nat) (g : Thread → Thread) : (s.modThr t g).pcie = s.pcie := rfl
@[simp] theorem State.modThr_time (t : Nat) (g : Thread → Thread) : (s.modThr t g).time = s.time := rfl
@[simp] theorem State.modThr_flt (t : Nat) (g : Thread → Thread) : (s.modThr t g).flt = s.flt := rfl
@[simp] theorem State.modThr_ports (t : Nat) (g : Thread → Thread) : (s.modThr t g).ports = s.ports := rfl
@[simp] theorem State.modThr_i2c (t : Nat) (g : Thread → Thread) : (s.modThr t g).i2c = s.i2c := rfl
@[simp] theorem State.modThr_bufs (t : Nat) (g : Thread → Thread) : (s.modThr t g).bufs = s.bufs := rfl
@[simp] theorem State.modThr_bufMem (t : Nat) (g : Thread → Thread) : (s.modThr t g).bufMem = s.bufMem := rfl
@[simp] theorem State.modThr_expUsed (t : Nat) (g : Thread → Thread) : (s.modThr t g).expUsed = s.expUsed := rfl
@[simp] theorem State.modThr_hdrmUsed (t : Nat) (g : Thread → Thread) : (s.modThr t g).hdrmUsed = s.hdrmUsed := rfl
@[simp] theorem State.modThr_frames (t : Nat) (g : Thread → Thread) : (s.modThr t g).frames = s.frames := rfl
@[simp] theorem State.modThr_nextFrame (t : Nat) (g : Thread → Thread) : (s.modThr t g).nextFrame = s.nextFrame := rfl
@[simp] theorem State.modThr_nextCopy (t : Nat) (g : Thread → Thread) : (s.modThr t g).nextCopy = s.nextCopy := rfl
@[simp] theorem State.modThr_seqs (t : Nat) (g : Thread → Thread) : (s.modThr t g).seqs = s.seqs := rfl
@[simp] theorem State.modThr_groups (t : Nat) (g : Thread → Thread) : (s.modThr t g).groups = s.groups := rfl
@[simp] theorem State.modThr_slices (t : Nat) (g : Thread → Thread) : (s.modThr t g).slices = s.slices := rfl
@[simp] theorem State.modThr_buckets (t : Nat) (g : Thread → Thread) : (s.modThr t g).buckets = s.buckets := rfl
@[simp] theorem State.modThr_blocked (t : Nat) (g : Thread → Thread) : (s.modThr t g).blocked = s.blocked := rfl
@[simp] theorem State.modThr_queues (t : Nat) (g : Thread → Thread) : (s.modThr t g).queues = s.queues := rfl
@[simp] theorem State.modThr_engines (t : Nat) (g : Thread → Thread) : (s.modThr t g).engines = s.engines := rfl
@[simp] theorem State.modThr_clusters (t : Nat) (g : Thread → Thread) : (s.modThr t g).clusters = s.clusters := rfl
@[simp] theorem State.modThr_rwFenced (t : Nat) (g : Thread → Thread) : (s.modThr t g).rwFenced = s.rwFenced := rfl
@[simp] theorem State.modThr_sets (t : Nat) (g : Thread → Thread) : (s.modThr t g).sets = s.sets := rfl
@[simp] theorem State.modThr_hbm (t : Nat) (g : Thread → Thread) : (s.modThr t g).hbm = s.hbm := rfl
@[simp] theorem State.modThr_credits (t : Nat) (g : Thread → Thread) : (s.modThr t g).credits = s.credits := rfl
@[simp] theorem State.modThr_rates (t : Nat) (g : Thread → Thread) : (s.modThr t g).rates = s.rates := rfl
@[simp] theorem State.modThr_sevs (t : Nat) (g : Thread → Thread) : (s.modThr t g).sevs = s.sevs := rfl
@[simp] theorem State.modThr_mail (t : Nat) (g : Thread → Thread) : (s.modThr t g).mail = s.mail := rfl
@[simp] theorem State.modThr_faultQ (t : Nat) (g : Thread → Thread) : (s.modThr t g).faultQ = s.faultQ := rfl
@[simp] theorem State.modThr_icache (t : Nat) (g : Thread → Thread) : (s.modThr t g).icache = s.icache := rfl
@[simp] theorem State.modThr_tags (t : Nat) (g : Thread → Thread) : (s.modThr t g).tags = s.tags := rfl
@[simp] theorem State.modThr_bpmReply (t : Nat) (g : Thread → Thread) : (s.modThr t g).bpmReply = s.bpmReply := rfl
@[simp] theorem State.modThr_punts (t : Nat) (g : Thread → Thread) : (s.modThr t g).punts = s.punts := rfl
@[simp] theorem State.modThr_events (t : Nat) (g : Thread → Thread) : (s.modThr t g).events = s.events := rfl
@[simp] theorem State.modThr_learned (t : Nat) (g : Thread → Thread) : (s.modThr t g).learned = s.learned := rfl
@[simp] theorem State.modThr_mirrors (t : Nat) (g : Thread → Thread) : (s.modThr t g).mirrors = s.mirrors := rfl
@[simp] theorem State.modThr_watch (t : Nat) (g : Thread → Thread) : (s.modThr t g).watch = s.watch := rfl
@[simp] theorem State.modThr_balance (t : Nat) (g : Thread → Thread) : (s.modThr t g).balance = s.balance := rfl
@[simp] theorem State.modThr_trace (t : Nat) (g : Thread → Thread) : (s.modThr t g).trace = s.trace := rfl
@[simp] theorem State.modThr_snap (t : Nat) (g : Thread → Thread) : (s.modThr t g).snap = s.snap := rfl
@[simp] theorem State.modThr_held (t : Nat) (g : Thread → Thread) : (s.modThr t g).held = s.held := rfl
@[simp] theorem State.modThr_tbl (t : Nat) (g : Thread → Thread) : (s.modThr t g).tbl = s.tbl := rfl
@[simp] theorem State.modThr_twin (t : Nat) (g : Thread → Thread) : (s.modThr t g).twin = s.twin := rfl
@[simp] theorem State.modThr_power (t : Nat) (g : Thread → Thread) : (s.modThr t g).power = s.power := rfl
@[simp] theorem State.modThr_tap (t : Nat) (g : Thread → Thread) : (s.modThr t g).tap = s.tap := rfl

@[simp] theorem State.modChan_pending (n : Nat) (g : Chan → Chan) : (s.modChan n g).pending = s.pending := rfl
@[simp] theorem State.modChan_free (n : Nat) (g : Chan → Chan) : (s.modChan n g).free = s.free := rfl
@[simp] theorem State.modChan_regs (n : Nat) (g : Chan → Chan) : (s.modChan n g).regs = s.regs := rfl
@[simp] theorem State.modChan_fns (n : Nat) (g : Chan → Chan) : (s.modChan n g).fns = s.fns := rfl
@[simp] theorem State.modChan_planes (n : Nat) (g : Chan → Chan) : (s.modChan n g).planes = s.planes := rfl
@[simp] theorem State.modChan_image (n : Nat) (g : Chan → Chan) : (s.modChan n g).image = s.image := rfl
@[simp] theorem State.modChan_cmem (n : Nat) (g : Chan → Chan) : (s.modChan n g).cmem = s.cmem := rfl
@[simp] theorem State.modChan_hostMem (n : Nat) (g : Chan → Chan) : (s.modChan n g).hostMem = s.hostMem := rfl
@[simp] theorem State.modChan_lanes (n : Nat) (g : Chan → Chan) : (s.modChan n g).lanes = s.lanes := rfl
@[simp] theorem State.modChan_msix (n : Nat) (g : Chan → Chan) : (s.modChan n g).msix = s.msix := rfl
@[simp] theorem State.modChan_pcie (n : Nat) (g : Chan → Chan) : (s.modChan n g).pcie = s.pcie := rfl
@[simp] theorem State.modChan_time (n : Nat) (g : Chan → Chan) : (s.modChan n g).time = s.time := rfl
@[simp] theorem State.modChan_flt (n : Nat) (g : Chan → Chan) : (s.modChan n g).flt = s.flt := rfl
@[simp] theorem State.modChan_ports (n : Nat) (g : Chan → Chan) : (s.modChan n g).ports = s.ports := rfl
@[simp] theorem State.modChan_i2c (n : Nat) (g : Chan → Chan) : (s.modChan n g).i2c = s.i2c := rfl
@[simp] theorem State.modChan_bufs (n : Nat) (g : Chan → Chan) : (s.modChan n g).bufs = s.bufs := rfl
@[simp] theorem State.modChan_bufMem (n : Nat) (g : Chan → Chan) : (s.modChan n g).bufMem = s.bufMem := rfl
@[simp] theorem State.modChan_expUsed (n : Nat) (g : Chan → Chan) : (s.modChan n g).expUsed = s.expUsed := rfl
@[simp] theorem State.modChan_hdrmUsed (n : Nat) (g : Chan → Chan) : (s.modChan n g).hdrmUsed = s.hdrmUsed := rfl
@[simp] theorem State.modChan_frames (n : Nat) (g : Chan → Chan) : (s.modChan n g).frames = s.frames := rfl
@[simp] theorem State.modChan_nextFrame (n : Nat) (g : Chan → Chan) : (s.modChan n g).nextFrame = s.nextFrame := rfl
@[simp] theorem State.modChan_nextCopy (n : Nat) (g : Chan → Chan) : (s.modChan n g).nextCopy = s.nextCopy := rfl
@[simp] theorem State.modChan_seqs (n : Nat) (g : Chan → Chan) : (s.modChan n g).seqs = s.seqs := rfl
@[simp] theorem State.modChan_groups (n : Nat) (g : Chan → Chan) : (s.modChan n g).groups = s.groups := rfl
@[simp] theorem State.modChan_slices (n : Nat) (g : Chan → Chan) : (s.modChan n g).slices = s.slices := rfl
@[simp] theorem State.modChan_buckets (n : Nat) (g : Chan → Chan) : (s.modChan n g).buckets = s.buckets := rfl
@[simp] theorem State.modChan_blocked (n : Nat) (g : Chan → Chan) : (s.modChan n g).blocked = s.blocked := rfl
@[simp] theorem State.modChan_queues (n : Nat) (g : Chan → Chan) : (s.modChan n g).queues = s.queues := rfl
@[simp] theorem State.modChan_engines (n : Nat) (g : Chan → Chan) : (s.modChan n g).engines = s.engines := rfl
@[simp] theorem State.modChan_clusters (n : Nat) (g : Chan → Chan) : (s.modChan n g).clusters = s.clusters := rfl
@[simp] theorem State.modChan_rwFenced (n : Nat) (g : Chan → Chan) : (s.modChan n g).rwFenced = s.rwFenced := rfl
@[simp] theorem State.modChan_sets (n : Nat) (g : Chan → Chan) : (s.modChan n g).sets = s.sets := rfl
@[simp] theorem State.modChan_hbm (n : Nat) (g : Chan → Chan) : (s.modChan n g).hbm = s.hbm := rfl
@[simp] theorem State.modChan_credits (n : Nat) (g : Chan → Chan) : (s.modChan n g).credits = s.credits := rfl
@[simp] theorem State.modChan_rates (n : Nat) (g : Chan → Chan) : (s.modChan n g).rates = s.rates := rfl
@[simp] theorem State.modChan_threads (n : Nat) (g : Chan → Chan) : (s.modChan n g).threads = s.threads := rfl
@[simp] theorem State.modChan_sevs (n : Nat) (g : Chan → Chan) : (s.modChan n g).sevs = s.sevs := rfl
@[simp] theorem State.modChan_mail (n : Nat) (g : Chan → Chan) : (s.modChan n g).mail = s.mail := rfl
@[simp] theorem State.modChan_faultQ (n : Nat) (g : Chan → Chan) : (s.modChan n g).faultQ = s.faultQ := rfl
@[simp] theorem State.modChan_icache (n : Nat) (g : Chan → Chan) : (s.modChan n g).icache = s.icache := rfl
@[simp] theorem State.modChan_tags (n : Nat) (g : Chan → Chan) : (s.modChan n g).tags = s.tags := rfl
@[simp] theorem State.modChan_bpmReply (n : Nat) (g : Chan → Chan) : (s.modChan n g).bpmReply = s.bpmReply := rfl
@[simp] theorem State.modChan_punts (n : Nat) (g : Chan → Chan) : (s.modChan n g).punts = s.punts := rfl
@[simp] theorem State.modChan_events (n : Nat) (g : Chan → Chan) : (s.modChan n g).events = s.events := rfl
@[simp] theorem State.modChan_learned (n : Nat) (g : Chan → Chan) : (s.modChan n g).learned = s.learned := rfl
@[simp] theorem State.modChan_mirrors (n : Nat) (g : Chan → Chan) : (s.modChan n g).mirrors = s.mirrors := rfl
@[simp] theorem State.modChan_watch (n : Nat) (g : Chan → Chan) : (s.modChan n g).watch = s.watch := rfl
@[simp] theorem State.modChan_balance (n : Nat) (g : Chan → Chan) : (s.modChan n g).balance = s.balance := rfl
@[simp] theorem State.modChan_trace (n : Nat) (g : Chan → Chan) : (s.modChan n g).trace = s.trace := rfl
@[simp] theorem State.modChan_snap (n : Nat) (g : Chan → Chan) : (s.modChan n g).snap = s.snap := rfl
@[simp] theorem State.modChan_held (n : Nat) (g : Chan → Chan) : (s.modChan n g).held = s.held := rfl
@[simp] theorem State.modChan_tbl (n : Nat) (g : Chan → Chan) : (s.modChan n g).tbl = s.tbl := rfl
@[simp] theorem State.modChan_twin (n : Nat) (g : Chan → Chan) : (s.modChan n g).twin = s.twin := rfl
@[simp] theorem State.modChan_power (n : Nat) (g : Chan → Chan) : (s.modChan n g).power = s.power := rfl
@[simp] theorem State.modChan_tap (n : Nat) (g : Chan → Chan) : (s.modChan n g).tap = s.tap := rfl

@[simp] theorem State.modLane_pending (n : Nat) (g : Lane → Lane) : (s.modLane n g).pending = s.pending := rfl
@[simp] theorem State.modLane_free (n : Nat) (g : Lane → Lane) : (s.modLane n g).free = s.free := rfl
@[simp] theorem State.modLane_regs (n : Nat) (g : Lane → Lane) : (s.modLane n g).regs = s.regs := rfl
@[simp] theorem State.modLane_fns (n : Nat) (g : Lane → Lane) : (s.modLane n g).fns = s.fns := rfl
@[simp] theorem State.modLane_planes (n : Nat) (g : Lane → Lane) : (s.modLane n g).planes = s.planes := rfl
@[simp] theorem State.modLane_image (n : Nat) (g : Lane → Lane) : (s.modLane n g).image = s.image := rfl
@[simp] theorem State.modLane_cmem (n : Nat) (g : Lane → Lane) : (s.modLane n g).cmem = s.cmem := rfl
@[simp] theorem State.modLane_hostMem (n : Nat) (g : Lane → Lane) : (s.modLane n g).hostMem = s.hostMem := rfl
@[simp] theorem State.modLane_chans (n : Nat) (g : Lane → Lane) : (s.modLane n g).chans = s.chans := rfl
@[simp] theorem State.modLane_msix (n : Nat) (g : Lane → Lane) : (s.modLane n g).msix = s.msix := rfl
@[simp] theorem State.modLane_pcie (n : Nat) (g : Lane → Lane) : (s.modLane n g).pcie = s.pcie := rfl
@[simp] theorem State.modLane_time (n : Nat) (g : Lane → Lane) : (s.modLane n g).time = s.time := rfl
@[simp] theorem State.modLane_flt (n : Nat) (g : Lane → Lane) : (s.modLane n g).flt = s.flt := rfl
@[simp] theorem State.modLane_ports (n : Nat) (g : Lane → Lane) : (s.modLane n g).ports = s.ports := rfl
@[simp] theorem State.modLane_i2c (n : Nat) (g : Lane → Lane) : (s.modLane n g).i2c = s.i2c := rfl
@[simp] theorem State.modLane_bufs (n : Nat) (g : Lane → Lane) : (s.modLane n g).bufs = s.bufs := rfl
@[simp] theorem State.modLane_bufMem (n : Nat) (g : Lane → Lane) : (s.modLane n g).bufMem = s.bufMem := rfl
@[simp] theorem State.modLane_expUsed (n : Nat) (g : Lane → Lane) : (s.modLane n g).expUsed = s.expUsed := rfl
@[simp] theorem State.modLane_hdrmUsed (n : Nat) (g : Lane → Lane) : (s.modLane n g).hdrmUsed = s.hdrmUsed := rfl
@[simp] theorem State.modLane_frames (n : Nat) (g : Lane → Lane) : (s.modLane n g).frames = s.frames := rfl
@[simp] theorem State.modLane_nextFrame (n : Nat) (g : Lane → Lane) : (s.modLane n g).nextFrame = s.nextFrame := rfl
@[simp] theorem State.modLane_nextCopy (n : Nat) (g : Lane → Lane) : (s.modLane n g).nextCopy = s.nextCopy := rfl
@[simp] theorem State.modLane_seqs (n : Nat) (g : Lane → Lane) : (s.modLane n g).seqs = s.seqs := rfl
@[simp] theorem State.modLane_groups (n : Nat) (g : Lane → Lane) : (s.modLane n g).groups = s.groups := rfl
@[simp] theorem State.modLane_slices (n : Nat) (g : Lane → Lane) : (s.modLane n g).slices = s.slices := rfl
@[simp] theorem State.modLane_buckets (n : Nat) (g : Lane → Lane) : (s.modLane n g).buckets = s.buckets := rfl
@[simp] theorem State.modLane_blocked (n : Nat) (g : Lane → Lane) : (s.modLane n g).blocked = s.blocked := rfl
@[simp] theorem State.modLane_queues (n : Nat) (g : Lane → Lane) : (s.modLane n g).queues = s.queues := rfl
@[simp] theorem State.modLane_engines (n : Nat) (g : Lane → Lane) : (s.modLane n g).engines = s.engines := rfl
@[simp] theorem State.modLane_clusters (n : Nat) (g : Lane → Lane) : (s.modLane n g).clusters = s.clusters := rfl
@[simp] theorem State.modLane_rwFenced (n : Nat) (g : Lane → Lane) : (s.modLane n g).rwFenced = s.rwFenced := rfl
@[simp] theorem State.modLane_sets (n : Nat) (g : Lane → Lane) : (s.modLane n g).sets = s.sets := rfl
@[simp] theorem State.modLane_hbm (n : Nat) (g : Lane → Lane) : (s.modLane n g).hbm = s.hbm := rfl
@[simp] theorem State.modLane_credits (n : Nat) (g : Lane → Lane) : (s.modLane n g).credits = s.credits := rfl
@[simp] theorem State.modLane_rates (n : Nat) (g : Lane → Lane) : (s.modLane n g).rates = s.rates := rfl
@[simp] theorem State.modLane_threads (n : Nat) (g : Lane → Lane) : (s.modLane n g).threads = s.threads := rfl
@[simp] theorem State.modLane_sevs (n : Nat) (g : Lane → Lane) : (s.modLane n g).sevs = s.sevs := rfl
@[simp] theorem State.modLane_mail (n : Nat) (g : Lane → Lane) : (s.modLane n g).mail = s.mail := rfl
@[simp] theorem State.modLane_faultQ (n : Nat) (g : Lane → Lane) : (s.modLane n g).faultQ = s.faultQ := rfl
@[simp] theorem State.modLane_icache (n : Nat) (g : Lane → Lane) : (s.modLane n g).icache = s.icache := rfl
@[simp] theorem State.modLane_tags (n : Nat) (g : Lane → Lane) : (s.modLane n g).tags = s.tags := rfl
@[simp] theorem State.modLane_bpmReply (n : Nat) (g : Lane → Lane) : (s.modLane n g).bpmReply = s.bpmReply := rfl
@[simp] theorem State.modLane_punts (n : Nat) (g : Lane → Lane) : (s.modLane n g).punts = s.punts := rfl
@[simp] theorem State.modLane_events (n : Nat) (g : Lane → Lane) : (s.modLane n g).events = s.events := rfl
@[simp] theorem State.modLane_learned (n : Nat) (g : Lane → Lane) : (s.modLane n g).learned = s.learned := rfl
@[simp] theorem State.modLane_mirrors (n : Nat) (g : Lane → Lane) : (s.modLane n g).mirrors = s.mirrors := rfl
@[simp] theorem State.modLane_watch (n : Nat) (g : Lane → Lane) : (s.modLane n g).watch = s.watch := rfl
@[simp] theorem State.modLane_balance (n : Nat) (g : Lane → Lane) : (s.modLane n g).balance = s.balance := rfl
@[simp] theorem State.modLane_trace (n : Nat) (g : Lane → Lane) : (s.modLane n g).trace = s.trace := rfl
@[simp] theorem State.modLane_snap (n : Nat) (g : Lane → Lane) : (s.modLane n g).snap = s.snap := rfl
@[simp] theorem State.modLane_held (n : Nat) (g : Lane → Lane) : (s.modLane n g).held = s.held := rfl
@[simp] theorem State.modLane_tbl (n : Nat) (g : Lane → Lane) : (s.modLane n g).tbl = s.tbl := rfl
@[simp] theorem State.modLane_twin (n : Nat) (g : Lane → Lane) : (s.modLane n g).twin = s.twin := rfl
@[simp] theorem State.modLane_power (n : Nat) (g : Lane → Lane) : (s.modLane n g).power = s.power := rfl
@[simp] theorem State.modLane_tap (n : Nat) (g : Lane → Lane) : (s.modLane n g).tap = s.tap := rfl

@[simp] theorem State.modVec_pending (f v : Nat) (g : Msix → Msix) : (s.modVec f v g).pending = s.pending := rfl
@[simp] theorem State.modVec_free (f v : Nat) (g : Msix → Msix) : (s.modVec f v g).free = s.free := rfl
@[simp] theorem State.modVec_regs (f v : Nat) (g : Msix → Msix) : (s.modVec f v g).regs = s.regs := rfl
@[simp] theorem State.modVec_fns (f v : Nat) (g : Msix → Msix) : (s.modVec f v g).fns = s.fns := rfl
@[simp] theorem State.modVec_planes (f v : Nat) (g : Msix → Msix) : (s.modVec f v g).planes = s.planes := rfl
@[simp] theorem State.modVec_image (f v : Nat) (g : Msix → Msix) : (s.modVec f v g).image = s.image := rfl
@[simp] theorem State.modVec_cmem (f v : Nat) (g : Msix → Msix) : (s.modVec f v g).cmem = s.cmem := rfl
@[simp] theorem State.modVec_hostMem (f v : Nat) (g : Msix → Msix) : (s.modVec f v g).hostMem = s.hostMem := rfl
@[simp] theorem State.modVec_chans (f v : Nat) (g : Msix → Msix) : (s.modVec f v g).chans = s.chans := rfl
@[simp] theorem State.modVec_lanes (f v : Nat) (g : Msix → Msix) : (s.modVec f v g).lanes = s.lanes := rfl
@[simp] theorem State.modVec_pcie (f v : Nat) (g : Msix → Msix) : (s.modVec f v g).pcie = s.pcie := rfl
@[simp] theorem State.modVec_time (f v : Nat) (g : Msix → Msix) : (s.modVec f v g).time = s.time := rfl
@[simp] theorem State.modVec_flt (f v : Nat) (g : Msix → Msix) : (s.modVec f v g).flt = s.flt := rfl
@[simp] theorem State.modVec_ports (f v : Nat) (g : Msix → Msix) : (s.modVec f v g).ports = s.ports := rfl
@[simp] theorem State.modVec_i2c (f v : Nat) (g : Msix → Msix) : (s.modVec f v g).i2c = s.i2c := rfl
@[simp] theorem State.modVec_bufs (f v : Nat) (g : Msix → Msix) : (s.modVec f v g).bufs = s.bufs := rfl
@[simp] theorem State.modVec_bufMem (f v : Nat) (g : Msix → Msix) : (s.modVec f v g).bufMem = s.bufMem := rfl
@[simp] theorem State.modVec_expUsed (f v : Nat) (g : Msix → Msix) : (s.modVec f v g).expUsed = s.expUsed := rfl
@[simp] theorem State.modVec_hdrmUsed (f v : Nat) (g : Msix → Msix) : (s.modVec f v g).hdrmUsed = s.hdrmUsed := rfl
@[simp] theorem State.modVec_frames (f v : Nat) (g : Msix → Msix) : (s.modVec f v g).frames = s.frames := rfl
@[simp] theorem State.modVec_nextFrame (f v : Nat) (g : Msix → Msix) : (s.modVec f v g).nextFrame = s.nextFrame := rfl
@[simp] theorem State.modVec_nextCopy (f v : Nat) (g : Msix → Msix) : (s.modVec f v g).nextCopy = s.nextCopy := rfl
@[simp] theorem State.modVec_seqs (f v : Nat) (g : Msix → Msix) : (s.modVec f v g).seqs = s.seqs := rfl
@[simp] theorem State.modVec_groups (f v : Nat) (g : Msix → Msix) : (s.modVec f v g).groups = s.groups := rfl
@[simp] theorem State.modVec_slices (f v : Nat) (g : Msix → Msix) : (s.modVec f v g).slices = s.slices := rfl
@[simp] theorem State.modVec_buckets (f v : Nat) (g : Msix → Msix) : (s.modVec f v g).buckets = s.buckets := rfl
@[simp] theorem State.modVec_blocked (f v : Nat) (g : Msix → Msix) : (s.modVec f v g).blocked = s.blocked := rfl
@[simp] theorem State.modVec_queues (f v : Nat) (g : Msix → Msix) : (s.modVec f v g).queues = s.queues := rfl
@[simp] theorem State.modVec_engines (f v : Nat) (g : Msix → Msix) : (s.modVec f v g).engines = s.engines := rfl
@[simp] theorem State.modVec_clusters (f v : Nat) (g : Msix → Msix) : (s.modVec f v g).clusters = s.clusters := rfl
@[simp] theorem State.modVec_rwFenced (f v : Nat) (g : Msix → Msix) : (s.modVec f v g).rwFenced = s.rwFenced := rfl
@[simp] theorem State.modVec_sets (f v : Nat) (g : Msix → Msix) : (s.modVec f v g).sets = s.sets := rfl
@[simp] theorem State.modVec_hbm (f v : Nat) (g : Msix → Msix) : (s.modVec f v g).hbm = s.hbm := rfl
@[simp] theorem State.modVec_credits (f v : Nat) (g : Msix → Msix) : (s.modVec f v g).credits = s.credits := rfl
@[simp] theorem State.modVec_rates (f v : Nat) (g : Msix → Msix) : (s.modVec f v g).rates = s.rates := rfl
@[simp] theorem State.modVec_threads (f v : Nat) (g : Msix → Msix) : (s.modVec f v g).threads = s.threads := rfl
@[simp] theorem State.modVec_sevs (f v : Nat) (g : Msix → Msix) : (s.modVec f v g).sevs = s.sevs := rfl
@[simp] theorem State.modVec_mail (f v : Nat) (g : Msix → Msix) : (s.modVec f v g).mail = s.mail := rfl
@[simp] theorem State.modVec_faultQ (f v : Nat) (g : Msix → Msix) : (s.modVec f v g).faultQ = s.faultQ := rfl
@[simp] theorem State.modVec_icache (f v : Nat) (g : Msix → Msix) : (s.modVec f v g).icache = s.icache := rfl
@[simp] theorem State.modVec_tags (f v : Nat) (g : Msix → Msix) : (s.modVec f v g).tags = s.tags := rfl
@[simp] theorem State.modVec_bpmReply (f v : Nat) (g : Msix → Msix) : (s.modVec f v g).bpmReply = s.bpmReply := rfl
@[simp] theorem State.modVec_punts (f v : Nat) (g : Msix → Msix) : (s.modVec f v g).punts = s.punts := rfl
@[simp] theorem State.modVec_events (f v : Nat) (g : Msix → Msix) : (s.modVec f v g).events = s.events := rfl
@[simp] theorem State.modVec_learned (f v : Nat) (g : Msix → Msix) : (s.modVec f v g).learned = s.learned := rfl
@[simp] theorem State.modVec_mirrors (f v : Nat) (g : Msix → Msix) : (s.modVec f v g).mirrors = s.mirrors := rfl
@[simp] theorem State.modVec_watch (f v : Nat) (g : Msix → Msix) : (s.modVec f v g).watch = s.watch := rfl
@[simp] theorem State.modVec_balance (f v : Nat) (g : Msix → Msix) : (s.modVec f v g).balance = s.balance := rfl
@[simp] theorem State.modVec_trace (f v : Nat) (g : Msix → Msix) : (s.modVec f v g).trace = s.trace := rfl
@[simp] theorem State.modVec_snap (f v : Nat) (g : Msix → Msix) : (s.modVec f v g).snap = s.snap := rfl
@[simp] theorem State.modVec_held (f v : Nat) (g : Msix → Msix) : (s.modVec f v g).held = s.held := rfl
@[simp] theorem State.modVec_tbl (f v : Nat) (g : Msix → Msix) : (s.modVec f v g).tbl = s.tbl := rfl
@[simp] theorem State.modVec_twin (f v : Nat) (g : Msix → Msix) : (s.modVec f v g).twin = s.twin := rfl
@[simp] theorem State.modVec_power (f v : Nat) (g : Msix → Msix) : (s.modVec f v g).power = s.power := rfl
@[simp] theorem State.modVec_tap (f v : Nat) (g : Msix → Msix) : (s.modVec f v g).tap = s.tap := rfl

@[simp] theorem State.setBuf_pending (h : Nat) (b : Buf) : (s.setBuf h b).pending = s.pending := rfl
@[simp] theorem State.setBuf_free (h : Nat) (b : Buf) : (s.setBuf h b).free = s.free := rfl
@[simp] theorem State.setBuf_regs (h : Nat) (b : Buf) : (s.setBuf h b).regs = s.regs := rfl
@[simp] theorem State.setBuf_fns (h : Nat) (b : Buf) : (s.setBuf h b).fns = s.fns := rfl
@[simp] theorem State.setBuf_planes (h : Nat) (b : Buf) : (s.setBuf h b).planes = s.planes := rfl
@[simp] theorem State.setBuf_image (h : Nat) (b : Buf) : (s.setBuf h b).image = s.image := rfl
@[simp] theorem State.setBuf_cmem (h : Nat) (b : Buf) : (s.setBuf h b).cmem = s.cmem := rfl
@[simp] theorem State.setBuf_hostMem (h : Nat) (b : Buf) : (s.setBuf h b).hostMem = s.hostMem := rfl
@[simp] theorem State.setBuf_chans (h : Nat) (b : Buf) : (s.setBuf h b).chans = s.chans := rfl
@[simp] theorem State.setBuf_lanes (h : Nat) (b : Buf) : (s.setBuf h b).lanes = s.lanes := rfl
@[simp] theorem State.setBuf_msix (h : Nat) (b : Buf) : (s.setBuf h b).msix = s.msix := rfl
@[simp] theorem State.setBuf_pcie (h : Nat) (b : Buf) : (s.setBuf h b).pcie = s.pcie := rfl
@[simp] theorem State.setBuf_time (h : Nat) (b : Buf) : (s.setBuf h b).time = s.time := rfl
@[simp] theorem State.setBuf_flt (h : Nat) (b : Buf) : (s.setBuf h b).flt = s.flt := rfl
@[simp] theorem State.setBuf_ports (h : Nat) (b : Buf) : (s.setBuf h b).ports = s.ports := rfl
@[simp] theorem State.setBuf_i2c (h : Nat) (b : Buf) : (s.setBuf h b).i2c = s.i2c := rfl
@[simp] theorem State.setBuf_bufMem (h : Nat) (b : Buf) : (s.setBuf h b).bufMem = s.bufMem := rfl
@[simp] theorem State.setBuf_expUsed (h : Nat) (b : Buf) : (s.setBuf h b).expUsed = s.expUsed := rfl
@[simp] theorem State.setBuf_hdrmUsed (h : Nat) (b : Buf) : (s.setBuf h b).hdrmUsed = s.hdrmUsed := rfl
@[simp] theorem State.setBuf_frames (h : Nat) (b : Buf) : (s.setBuf h b).frames = s.frames := rfl
@[simp] theorem State.setBuf_nextFrame (h : Nat) (b : Buf) : (s.setBuf h b).nextFrame = s.nextFrame := rfl
@[simp] theorem State.setBuf_nextCopy (h : Nat) (b : Buf) : (s.setBuf h b).nextCopy = s.nextCopy := rfl
@[simp] theorem State.setBuf_seqs (h : Nat) (b : Buf) : (s.setBuf h b).seqs = s.seqs := rfl
@[simp] theorem State.setBuf_groups (h : Nat) (b : Buf) : (s.setBuf h b).groups = s.groups := rfl
@[simp] theorem State.setBuf_slices (h : Nat) (b : Buf) : (s.setBuf h b).slices = s.slices := rfl
@[simp] theorem State.setBuf_buckets (h : Nat) (b : Buf) : (s.setBuf h b).buckets = s.buckets := rfl
@[simp] theorem State.setBuf_blocked (h : Nat) (b : Buf) : (s.setBuf h b).blocked = s.blocked := rfl
@[simp] theorem State.setBuf_queues (h : Nat) (b : Buf) : (s.setBuf h b).queues = s.queues := rfl
@[simp] theorem State.setBuf_engines (h : Nat) (b : Buf) : (s.setBuf h b).engines = s.engines := rfl
@[simp] theorem State.setBuf_clusters (h : Nat) (b : Buf) : (s.setBuf h b).clusters = s.clusters := rfl
@[simp] theorem State.setBuf_rwFenced (h : Nat) (b : Buf) : (s.setBuf h b).rwFenced = s.rwFenced := rfl
@[simp] theorem State.setBuf_sets (h : Nat) (b : Buf) : (s.setBuf h b).sets = s.sets := rfl
@[simp] theorem State.setBuf_hbm (h : Nat) (b : Buf) : (s.setBuf h b).hbm = s.hbm := rfl
@[simp] theorem State.setBuf_credits (h : Nat) (b : Buf) : (s.setBuf h b).credits = s.credits := rfl
@[simp] theorem State.setBuf_rates (h : Nat) (b : Buf) : (s.setBuf h b).rates = s.rates := rfl
@[simp] theorem State.setBuf_threads (h : Nat) (b : Buf) : (s.setBuf h b).threads = s.threads := rfl
@[simp] theorem State.setBuf_sevs (h : Nat) (b : Buf) : (s.setBuf h b).sevs = s.sevs := rfl
@[simp] theorem State.setBuf_mail (h : Nat) (b : Buf) : (s.setBuf h b).mail = s.mail := rfl
@[simp] theorem State.setBuf_faultQ (h : Nat) (b : Buf) : (s.setBuf h b).faultQ = s.faultQ := rfl
@[simp] theorem State.setBuf_icache (h : Nat) (b : Buf) : (s.setBuf h b).icache = s.icache := rfl
@[simp] theorem State.setBuf_tags (h : Nat) (b : Buf) : (s.setBuf h b).tags = s.tags := rfl
@[simp] theorem State.setBuf_bpmReply (h : Nat) (b : Buf) : (s.setBuf h b).bpmReply = s.bpmReply := rfl
@[simp] theorem State.setBuf_punts (h : Nat) (b : Buf) : (s.setBuf h b).punts = s.punts := rfl
@[simp] theorem State.setBuf_events (h : Nat) (b : Buf) : (s.setBuf h b).events = s.events := rfl
@[simp] theorem State.setBuf_learned (h : Nat) (b : Buf) : (s.setBuf h b).learned = s.learned := rfl
@[simp] theorem State.setBuf_mirrors (h : Nat) (b : Buf) : (s.setBuf h b).mirrors = s.mirrors := rfl
@[simp] theorem State.setBuf_watch (h : Nat) (b : Buf) : (s.setBuf h b).watch = s.watch := rfl
@[simp] theorem State.setBuf_balance (h : Nat) (b : Buf) : (s.setBuf h b).balance = s.balance := rfl
@[simp] theorem State.setBuf_trace (h : Nat) (b : Buf) : (s.setBuf h b).trace = s.trace := rfl
@[simp] theorem State.setBuf_snap (h : Nat) (b : Buf) : (s.setBuf h b).snap = s.snap := rfl
@[simp] theorem State.setBuf_held (h : Nat) (b : Buf) : (s.setBuf h b).held = s.held := rfl
@[simp] theorem State.setBuf_tbl (h : Nat) (b : Buf) : (s.setBuf h b).tbl = s.tbl := rfl
@[simp] theorem State.setBuf_twin (h : Nat) (b : Buf) : (s.setBuf h b).twin = s.twin := rfl
@[simp] theorem State.setBuf_power (h : Nat) (b : Buf) : (s.setBuf h b).power = s.power := rfl
@[simp] theorem State.setBuf_tap (h : Nat) (b : Buf) : (s.setBuf h b).tap = s.tap := rfl

@[simp] theorem State.setQueue_pending (n : Nat) (q : Queue) : (s.setQueue n q).pending = s.pending := rfl
@[simp] theorem State.setQueue_free (n : Nat) (q : Queue) : (s.setQueue n q).free = s.free := rfl
@[simp] theorem State.setQueue_regs (n : Nat) (q : Queue) : (s.setQueue n q).regs = s.regs := rfl
@[simp] theorem State.setQueue_fns (n : Nat) (q : Queue) : (s.setQueue n q).fns = s.fns := rfl
@[simp] theorem State.setQueue_planes (n : Nat) (q : Queue) : (s.setQueue n q).planes = s.planes := rfl
@[simp] theorem State.setQueue_image (n : Nat) (q : Queue) : (s.setQueue n q).image = s.image := rfl
@[simp] theorem State.setQueue_cmem (n : Nat) (q : Queue) : (s.setQueue n q).cmem = s.cmem := rfl
@[simp] theorem State.setQueue_hostMem (n : Nat) (q : Queue) : (s.setQueue n q).hostMem = s.hostMem := rfl
@[simp] theorem State.setQueue_chans (n : Nat) (q : Queue) : (s.setQueue n q).chans = s.chans := rfl
@[simp] theorem State.setQueue_lanes (n : Nat) (q : Queue) : (s.setQueue n q).lanes = s.lanes := rfl
@[simp] theorem State.setQueue_msix (n : Nat) (q : Queue) : (s.setQueue n q).msix = s.msix := rfl
@[simp] theorem State.setQueue_pcie (n : Nat) (q : Queue) : (s.setQueue n q).pcie = s.pcie := rfl
@[simp] theorem State.setQueue_time (n : Nat) (q : Queue) : (s.setQueue n q).time = s.time := rfl
@[simp] theorem State.setQueue_flt (n : Nat) (q : Queue) : (s.setQueue n q).flt = s.flt := rfl
@[simp] theorem State.setQueue_ports (n : Nat) (q : Queue) : (s.setQueue n q).ports = s.ports := rfl
@[simp] theorem State.setQueue_i2c (n : Nat) (q : Queue) : (s.setQueue n q).i2c = s.i2c := rfl
@[simp] theorem State.setQueue_bufs (n : Nat) (q : Queue) : (s.setQueue n q).bufs = s.bufs := rfl
@[simp] theorem State.setQueue_bufMem (n : Nat) (q : Queue) : (s.setQueue n q).bufMem = s.bufMem := rfl
@[simp] theorem State.setQueue_expUsed (n : Nat) (q : Queue) : (s.setQueue n q).expUsed = s.expUsed := rfl
@[simp] theorem State.setQueue_hdrmUsed (n : Nat) (q : Queue) : (s.setQueue n q).hdrmUsed = s.hdrmUsed := rfl
@[simp] theorem State.setQueue_frames (n : Nat) (q : Queue) : (s.setQueue n q).frames = s.frames := rfl
@[simp] theorem State.setQueue_nextFrame (n : Nat) (q : Queue) : (s.setQueue n q).nextFrame = s.nextFrame := rfl
@[simp] theorem State.setQueue_nextCopy (n : Nat) (q : Queue) : (s.setQueue n q).nextCopy = s.nextCopy := rfl
@[simp] theorem State.setQueue_seqs (n : Nat) (q : Queue) : (s.setQueue n q).seqs = s.seqs := rfl
@[simp] theorem State.setQueue_groups (n : Nat) (q : Queue) : (s.setQueue n q).groups = s.groups := rfl
@[simp] theorem State.setQueue_slices (n : Nat) (q : Queue) : (s.setQueue n q).slices = s.slices := rfl
@[simp] theorem State.setQueue_buckets (n : Nat) (q : Queue) : (s.setQueue n q).buckets = s.buckets := rfl
@[simp] theorem State.setQueue_blocked (n : Nat) (q : Queue) : (s.setQueue n q).blocked = s.blocked := rfl
@[simp] theorem State.setQueue_engines (n : Nat) (q : Queue) : (s.setQueue n q).engines = s.engines := rfl
@[simp] theorem State.setQueue_clusters (n : Nat) (q : Queue) : (s.setQueue n q).clusters = s.clusters := rfl
@[simp] theorem State.setQueue_rwFenced (n : Nat) (q : Queue) : (s.setQueue n q).rwFenced = s.rwFenced := rfl
@[simp] theorem State.setQueue_sets (n : Nat) (q : Queue) : (s.setQueue n q).sets = s.sets := rfl
@[simp] theorem State.setQueue_hbm (n : Nat) (q : Queue) : (s.setQueue n q).hbm = s.hbm := rfl
@[simp] theorem State.setQueue_credits (n : Nat) (q : Queue) : (s.setQueue n q).credits = s.credits := rfl
@[simp] theorem State.setQueue_rates (n : Nat) (q : Queue) : (s.setQueue n q).rates = s.rates := rfl
@[simp] theorem State.setQueue_threads (n : Nat) (q : Queue) : (s.setQueue n q).threads = s.threads := rfl
@[simp] theorem State.setQueue_sevs (n : Nat) (q : Queue) : (s.setQueue n q).sevs = s.sevs := rfl
@[simp] theorem State.setQueue_mail (n : Nat) (q : Queue) : (s.setQueue n q).mail = s.mail := rfl
@[simp] theorem State.setQueue_faultQ (n : Nat) (q : Queue) : (s.setQueue n q).faultQ = s.faultQ := rfl
@[simp] theorem State.setQueue_icache (n : Nat) (q : Queue) : (s.setQueue n q).icache = s.icache := rfl
@[simp] theorem State.setQueue_tags (n : Nat) (q : Queue) : (s.setQueue n q).tags = s.tags := rfl
@[simp] theorem State.setQueue_bpmReply (n : Nat) (q : Queue) : (s.setQueue n q).bpmReply = s.bpmReply := rfl
@[simp] theorem State.setQueue_punts (n : Nat) (q : Queue) : (s.setQueue n q).punts = s.punts := rfl
@[simp] theorem State.setQueue_events (n : Nat) (q : Queue) : (s.setQueue n q).events = s.events := rfl
@[simp] theorem State.setQueue_learned (n : Nat) (q : Queue) : (s.setQueue n q).learned = s.learned := rfl
@[simp] theorem State.setQueue_mirrors (n : Nat) (q : Queue) : (s.setQueue n q).mirrors = s.mirrors := rfl
@[simp] theorem State.setQueue_watch (n : Nat) (q : Queue) : (s.setQueue n q).watch = s.watch := rfl
@[simp] theorem State.setQueue_balance (n : Nat) (q : Queue) : (s.setQueue n q).balance = s.balance := rfl
@[simp] theorem State.setQueue_trace (n : Nat) (q : Queue) : (s.setQueue n q).trace = s.trace := rfl
@[simp] theorem State.setQueue_snap (n : Nat) (q : Queue) : (s.setQueue n q).snap = s.snap := rfl
@[simp] theorem State.setQueue_held (n : Nat) (q : Queue) : (s.setQueue n q).held = s.held := rfl
@[simp] theorem State.setQueue_tbl (n : Nat) (q : Queue) : (s.setQueue n q).tbl = s.tbl := rfl
@[simp] theorem State.setQueue_twin (n : Nat) (q : Queue) : (s.setQueue n q).twin = s.twin := rfl
@[simp] theorem State.setQueue_power (n : Nat) (q : Queue) : (s.setQueue n q).power = s.power := rfl
@[simp] theorem State.setQueue_tap (n : Nat) (q : Queue) : (s.setQueue n q).tap = s.tap := rfl

/-! ## Fields that it changes -/

@[simp] theorem State.withQueue_pending (q : List Instr) : (s.withQueue q).pending = q := rfl
@[simp] theorem State.wr_regs (r : Reg) (c i : Nat) (v : RegVal) : (s.wr r c i v).regs = regSet s.regs r c i v := rfl
@[simp] theorem State.setPlane_planes (a b : Nat) (p : Plane) : (s.setPlane a b p).planes = tabSet {} s.planes (planeKey a b) p := rfl
@[simp] theorem State.nextFree_free : s.nextFree.free = s.free + 1 := rfl
@[simp] theorem State.cset_cmem (w : Nat) (v : Word) : (s.cset w v).cmem = tabSet 0 s.cmem w v := rfl
@[simp] theorem State.modPower_power (g : PowerSt → PowerSt) : (s.modPower g).power = g s.power := rfl
@[simp] theorem State.tick_cycles : s.tick.time.cycles = s.time.cycles + 1 := rfl
@[simp] theorem State.tick_now : s.tick.time.now = wrapTime (s.time.now + clockStep s.rate) := rfl

/-! ## Registers -/

@[simp] theorem State.rd_wr_same (r : Reg) (c i : Nat) (v : RegVal) : (s.wr r c i v).rd r c i = v := by
  simp [State.rd, State.wr]

/-- A write to one register leaves every other register as it was. -/
theorem State.rd_wr_reg {r q : Reg} (c i d j : Nat) (v : RegVal) (h : q.ctorIdx ≠ r.ctorIdx) : (s.wr r c i v).rd q d j = s.rd q d j :=
  regGet_regSet_reg s.regs c i d j v h

/-- A write to one copy or element of a register leaves the others as they were. -/
theorem State.rd_wr_copy (r : Reg) {c i d j : Nat} (v : RegVal) (h : d % 2 ^ 16 ≠ c % 2 ^ 16 ∨ j % 2 ^ 16 ≠ i % 2 ^ 16) :
    (s.wr r c i v).rd r d j = s.rd r d j :=
  regGet_regSet_copy s.regs r v h

/-- The field fits a register. -/
def Fld.ok (f : Fld) : Bool := decide (f.lo ≤ f.hi) && decide (f.hi < 72)

/-- A field reads as it was written. -/
theorem State.fget_fset_same {f : Fld} (c i n : Nat) (h : f.ok = true) : (s.fset f c i n).fget f c i = n % 2 ^ (f.hi + 1 - f.lo) := by
  simp only [Fld.ok, Bool.and_eq_true, decide_eq_true_eq] at h
  unfold State.fget State.fset
  rw [State.rd_wr_same]
  exact fldGet_fldSet_same _ _ _ _ h.2

/-- A field of another register is as it was. -/
theorem State.fget_fset_reg {f g : Fld} (c i d j n : Nat) (h : g.reg.ctorIdx ≠ f.reg.ctorIdx) :
    (s.fset f c i n).fget g d j = s.fget g d j := by
  unfold State.fget State.fset
  rw [State.rd_wr_reg _ _ _ _ _ _ h]

/-- Another field of the same register is as it was. -/
theorem State.fget_fset_fld {f g : Fld} (c i n : Nat) (hr : g.reg = f.reg) (h : f.hi < g.lo ∨ g.hi < f.lo) :
    (s.fset f c i n).fget g c i = s.fget g c i := by
  unfold State.fget State.fset
  rw [hr, State.rd_wr_same]
  exact fldGet_fldSet_ne _ _ _ _ _ _ h

/-- A field of another copy or element is as it was. -/
theorem State.fget_fset_copy {f g : Fld} {c i d j : Nat} (n : Nat) (h : d % 2 ^ 16 ≠ c % 2 ^ 16 ∨ j % 2 ^ 16 ≠ i % 2 ^ 16) :
    (s.fset f c i n).fget g d j = s.fget g d j := by
  unfold State.fget State.fset
  by_cases hr : g.reg.ctorIdx = f.reg.ctorIdx
  · rw [ctorIdx_inj hr, State.rd_wr_copy _ _ _ h]
  · rw [State.rd_wr_reg _ _ _ _ _ _ hr]

/-- A register other than the field's is as it was. -/
theorem State.rd_fset_reg {f : Fld} {r : Reg} (c i d j n : Nat) (h : r.ctorIdx ≠ f.reg.ctorIdx) : (s.fset f c i n).rd r d j = s.rd r d j :=
  State.rd_wr_reg s _ _ _ _ _ h

/-- A write to a register leaves the fields of the others as they were. -/
theorem State.fget_wr_reg {r : Reg} {g : Fld} (c i d j : Nat) (v : RegVal) (h : g.reg.ctorIdx ≠ r.ctorIdx) :
    (s.wr r c i v).fget g d j = s.fget g d j := by
  unfold State.fget; rw [State.rd_wr_reg _ _ _ _ _ _ h]

/-- A counter stops at its field's largest value. -/
theorem State.fget_bumpSat_same {f : Fld} (c i n : Nat) (h : f.ok = true) :
    (s.bumpSat f c i n).fget f c i = min (s.fget f c i + n) f.top := by
  unfold State.bumpSat
  rw [State.fget_fset_same _ _ _ _ h, Nat.mod_eq_of_lt]
  refine lt_of_le_of_lt (Nat.min_le_right _ _) ?_
  exact Nat.sub_lt (Nat.pow_pos (by decide)) (by decide)

/-- A counter wraps at its field's width. -/
theorem State.fget_bump_same {f : Fld} (c i n : Nat) (h : f.ok = true) :
    (s.bump f c i n).fget f c i = (s.fget f c i + n) % 2 ^ (f.hi + 1 - f.lo) :=
  State.fget_fset_same _ _ _ _ h

theorem State.rd_bump_reg {f : Fld} {r : Reg} (c i d j n : Nat) (h : r.ctorIdx ≠ f.reg.ctorIdx) : (s.bump f c i n).rd r d j = s.rd r d j :=
  State.rd_fset_reg s _ _ _ _ _ h

theorem State.rd_bumpSat_reg {f : Fld} {r : Reg} (c i d j n : Nat) (h : r.ctorIdx ≠ f.reg.ctorIdx) :
    (s.bumpSat f c i n).rd r d j = s.rd r d j :=
  State.rd_fset_reg s _ _ _ _ _ h

/-! ## Commands -/

/-- A command that completes answers its effect, and the queue as it was. -/
theorem State.act_eq (f : State → State) : s.act f = .next ((f s).withQueue s.pending) := rfl

/-- A command that completes leaves the queue as it was. -/
theorem State.act_pending {f : State → State} {t : State} (h : s.act f = .next t) : t.pending = s.pending := by
  cases h; rfl

/-- CMEM reads as it was written. -/
@[simp] theorem State.cget_cset_same (w : Nat) (v : Word) : (s.cset w v).cget w = v := by simp [State.cget, State.cset]

/-- The other words of CMEM are as they were. -/
theorem State.cget_cset_ne {w x : Nat} (v : Word) (h : x ≠ w) : (s.cset w v).cget x = s.cget x := tabGet_set_ne 0 s.cmem v h

end Sys2Proof.Machine
end

