-- ==== Sys2Proof/Laws/Access.lean ====
section
/-! SUPPORT. Writes through BAR0: what reaches a register, and the effect that each register's write has. -/

namespace Sys2Proof.Machine

@[simp] theorem State.rd_withQueue (s : State) (q : List Instr) (r : Reg) (c i : Nat) : (s.withQueue q).rd r c i = s.rd r c i := rfl
@[simp] theorem State.fget_withQueue (s : State) (q : List Instr) (f : Fld) (c i : Nat) : (s.withQueue q).fget f c i = s.fget f c i := rfl
@[simp] theorem State.flag_withQueue (s : State) (q : List Instr) (f : Fld) (c i : Nat) : (s.withQueue q).flag f c i = s.flag f c i := rfl
@[simp] theorem State.fn_withQueue (s : State) (q : List Instr) (f : Func) : (s.withQueue q).fn f = s.fn f := rfl
@[simp] theorem State.plane_withQueue (s : State) (q : List Instr) (a b : Nat) : (s.withQueue q).plane a b = s.plane a b := rfl
@[simp] theorem State.rd_emptyHalf (s : State) (f : Func) (a : Nat) (r : Reg) (c i : Nat) : (s.emptyHalf f a).rd r c i = s.rd r c i := rfl
@[simp] theorem State.fget_emptyHalf (s : State) (f : Func) (a : Nat) (g : Fld) (c i : Nat) : (s.emptyHalf f a).fget g c i = s.fget g c i := rfl

/-- What a function holds after a change of it. -/
theorem fn_modFn (s : State) (f g) : (s.modFn f g).fn f = g (s.fn f) := by simp [State.fn, State.modFn]
/-- The half stage after a commit: emptied when it held the slot (R80). -/
theorem emptyHalf_half (s : State) (f a) : ((s.emptyHalf f a).fn f).half = match (s.fn f).half with | some (k, w) => if k = a then none else some (k, w) | none => none := by
  unfold State.emptyHalf; exact congrArg FnState.half (fn_modFn s f _)

/-- No block has more to do for a register without an effect of its own. -/
theorem wroteSec (s : State) (f r c i old v was host head) (he : effectRegs.contains r = false) :
   s.wroteImg f r i v head = s ∧ s.wroteMac r c i old v was = s ∧ s.wrotePrs f r c i v = s ∧ s.wroteMemory f r c i old v = s ∧ s.wroteCcx f r c i old v = s ∧ s.wroteLists f r c i old v host = s ∧ s.wroteTime f r i old v = s ∧ s.wroteIsland r i old v = s := by
  refine ⟨?_,?_,?_,?_,?_,?_,?_,?_⟩
  · unfold State.wroteImg; split <;> first | exact absurd he (by decide +kernel) | rfl
  · unfold State.wroteMac; split <;> first | exact absurd he (by decide +kernel) | rfl
  · unfold State.wrotePrs; split <;> first | exact absurd he (by decide +kernel) | rfl
  · unfold State.wroteMemory; split <;> first | exact absurd he (by decide +kernel) | rfl
  · unfold State.wroteCcx; split <;> first | exact absurd he (by decide +kernel) | rfl
  · unfold State.wroteLists; split <;> first | exact absurd he (by decide +kernel) | rfl
  · unfold State.wroteTime; split <;> first | exact absurd he (by decide +kernel) | rfl
  · unfold State.wroteIsland; split <;> first | exact absurd he (by decide +kernel) | rfl

/-- A register that a write only stores to has no effect beside. -/
theorem wrote_storesOnly (s : State) (f r c i old v was host head) (h : storesOnly r = true) :
    s.wrote f r c i old v was host head = s := by
  simp only [storesOnly, Bool.and_eq_true, Bool.not_eq_true'] at h
  obtain ⟨⟨⟨⟨_,_⟩,hi⟩,hs⟩,he⟩ := h
  have hg : r ≠ .GLB_BRESET := by rintro rfl; exact absurd he (by decide +kernel)
  have hw : r ≠ .RWE_CFG := by rintro rfl; exact absurd he (by decide +kernel)
  obtain ⟨h1,h2,h3,h4,h5,h6,h7,h8⟩ := wroteSec s f r c i old v was host head he
  unfold State.wrote
  rw [hs]; simp only [Bool.false_eq_true, if_false, h1,h2,h3,h4,h5,h6,h7,h8, hg, hw]
  split <;> rfl
/-- The value is written as it is. -/
theorem asWritten_storesOnly (s : State) (f r c i v) (h : storesOnly r = true) : s.asWritten f r c i v = v := by
  simp only [storesOnly, Bool.and_eq_true, Bool.not_eq_true'] at h
  unfold State.asWritten
  split
  · split
    · exact absurd h.2 (by decide +kernel)
    · exact absurd h.2 (by decide +kernel)
    · rfl
  · rfl
/-- A write that reaches such a register stores its value. -/
theorem putReg_storesOnly (s : State) (f r c i v host head) (h : storesOnly r = true) :
    s.putReg f r c i v host head = s.wr r c i (maskWrite r (s.rd r c i) v) := by
  have h0 := h
  simp only [storesOnly, Bool.and_eq_true, Bool.not_eq_true'] at h
  obtain ⟨⟨⟨⟨_,hr⟩,hi⟩,hs⟩,he⟩ := h
  unfold State.putReg
  rw [hr, hi]
  simp only [Bool.false_and, Bool.false_eq_true, if_false, wrote_storesOnly _ _ _ _ _ _ _ _ _ _ h0, asWritten_storesOnly _ _ _ _ _ _ h0]
/-- Such a write is never refused at the commit. -/
theorem writeCode_storesOnly (s : State) (f r c v) (h : storesOnly r = true) : s.writeCode f r c v = 0 := by
  simp only [storesOnly, Bool.and_eq_true, Bool.not_eq_true'] at h
  obtain ⟨⟨⟨⟨_,hr⟩,hi⟩,hs⟩,he⟩ := h
  have : r ≠ .CPH_LOCK := by rintro rfl; exact absurd he (by decide +kernel)
  unfold State.writeCode
  simp [hr, this]
/-- The commit of such a register. -/
theorem commit_storesOnly (s : State) (f a r c i h w host head) (hs : storesOnly r = true) :
    s.commit f a r c i h w host head = (s.emptyHalf f a).wr r c i (maskWrite r (s.rd r c i) (BitVec.ofNat 72 (w % 2 ^ 36))) := by
  have hw : r.place.wide = false := by
    simp only [storesOnly, Bool.and_eq_true, Bool.not_eq_true'] at hs; exact hs.1.1.1.1
  unfold State.commit State.commitValue
  simp only [hw, Bool.false_and, Bool.false_eq_true, if_false, writeCode_storesOnly _ _ _ _ _ hs, ne_eq, not_true, putReg_storesOnly _ _ _ _ _ _ _ _ hs]
  rfl
/-- Each bit of a register after a write (R9). -/
theorem maskWrite_bit (r : Reg) (old : RegVal) (v : Nat) (b : Nat) :
   (maskWrite r old (BitVec.ofNat 72 (v % 2 ^ 36))).getLsbD b = if (rwMask r).getLsbD b then decide (b < 36) && v.testBit b
        else old.getLsbD b && !((w1cMask r).getLsbD b && decide (b < 36) && v.testBit b) := by
  unfold maskWrite
  simp only [BitVec.getLsbD_or, BitVec.getLsbD_and, BitVec.getLsbD_not, BitVec.getLsbD_ofNat, Nat.testBit_mod_two_pow]
  by_cases h : b < 72
  · generalize (rwMask r).getLsbD b = x
    generalize (w1cMask r).getLsbD b = y
    generalize old.getLsbD b = z
    generalize v.testBit b = q
    by_cases h3 : b < 36 <;> simp only [h, h3, decide_true, decide_false] <;> cases x <;> cases y <;> cases z <;> cases q <;> rfl
  · simp [h, BitVec.getLsbD_of_ge _ b (Nat.le_of_not_lt h)]


/-- A 64-bit write of a register of one word that takes it. -/
theorem writeTo_opens {s : State} {f : Func} {r : Reg} {i c : Nat} (v host : Nat) (head : Option (List Byte)) (h : opens s f r i c)
    (hw : r.place.wide = false) (hc : s.writeCode f r c (BitVec.ofNat 72 (v % 2 ^ 36)) = 0) :
    s.writeTo f r i v host head = (s.emptyHalf f (slotOf r i)).putReg f r c i (BitVec.ofNat 72 (v % 2 ^ 36)) host head := by
  obtain ⟨h1, h2⟩ := h
  unfold State.writeTo State.regWrite
  rw [h1, if_pos rfl]
  unfold State.writeWord
  unfold slotOf at h2
  rw [h2]
  simp only [State.commit, State.commitValue, hw, Bool.false_and, Bool.false_eq_true, if_false, show v % 2 ^ 64 % 2 ^ 36 = v % 2 ^ 36 by omega,
    hc, ne_eq, not_true]
  rfl

/-- A write of a register without RWL fields is refused at the commit only for a lane not held. -/
theorem writeCode_plain (s : State) (f : Func) (r : Reg) (c : Nat) (v : RegVal) (hr : isRwl r = false) (hl : r ≠ .CPH_LOCK) :
    s.writeCode f r c v = 0 := by
  unfold State.writeCode; simp [hr, hl]

/-- A write that reaches a register without RWL fields, through the PF or the console or into a register that a VF writes whole. -/
theorem putReg_plain (s : State) (f : Func) (r : Reg) (c i : Nat) (v : RegVal) (host : Nat) (head : Option (List Byte))
    (hr : isRwl r = false) (hi : isInd r = false) (hm : r ≠ .MAC_CTL) (hs : r ≠ .SCH_SET) :
    s.putReg f r c i v host head =
      (s.wr r c i (maskWrite r (s.rd r c i) v)).wrote f r c i (s.rd r c i) v (s.portAdmin c) host head := by
  have ha : s.asWritten f r c i v = v := by
    unfold State.asWritten
    split
    · split
      · exact absurd rfl hm
      · exact absurd rfl hs
      · rfl
    · rfl
  unfold State.putReg
  simp only [hr, hi, Bool.false_and, Bool.false_eq_true, if_false, ha]

/-! ## The effect of each register's write -/

variable (s : State) (f : Func) (c i : Nat) (old v : RegVal) (was : Bool) (host : Nat) (head : Option (List Byte))

theorem wrote_IMG_CMD : s.wrote f .IMG_CMD c i old v was host head = (s.effImgCmd f v.toNat head) := by
  unfold State.wrote
  rw [show selRegs.contains .IMG_CMD = false from rfl, show blockOf (Reg.place .IMG_CMD).addr = 0 from rfl]
  rfl
theorem wrote_IMG_FKEY : s.wrote f .IMG_FKEY c i old v was host head = (s.effFkey (fldGet v 31 0)) := by
  unfold State.wrote
  rw [show selRegs.contains .IMG_FKEY = false from rfl, show blockOf (Reg.place .IMG_FKEY).addr = 0 from rfl]
  rfl
theorem wrote_IMG_FUSE : s.wrote f .IMG_FUSE c i old v was host head = (s.effFuse f (fldGet v 15 0)) := by
  unfold State.wrote
  rw [show selRegs.contains .IMG_FUSE = false from rfl, show blockOf (Reg.place .IMG_FUSE).addr = 0 from rfl]
  rfl
theorem wrote_MAC_CTL : s.wrote f .MAC_CTL c i old v was host head = (s.effMacCtl c was v.toNat) := by
  unfold State.wrote
  rw [show selRegs.contains .MAC_CTL = false from rfl, show blockOf (Reg.place .MAC_CTL).addr = 2 from rfl]
  rfl
theorem wrote_MAC_I2C_CMD : s.wrote f .MAC_I2C_CMD c i old v was host head = (s.effI2cCmd c v.toNat) := by
  unfold State.wrote
  rw [show selRegs.contains .MAC_I2C_CMD = false from rfl, show blockOf (Reg.place .MAC_I2C_CMD).addr = 2 from rfl]
  rfl
theorem wrote_MAC_PARTNER : s.wrote f .MAC_PARTNER c i old v was host head = (if fldGet v 35 35 = 1 then (s.wr .MAC_PARTNER c i old).partnerFree c i else s) := by
  unfold State.wrote
  rw [show selRegs.contains .MAC_PARTNER = false from rfl, show blockOf (Reg.place .MAC_PARTNER).addr = 2 from rfl]
  rfl
theorem wrote_PRS_ADMIT : s.wrote f .PRS_ADMIT c i old v was host head = ({ s with buckets := tabErase s.buckets (2 ^ 24 + i * 32 + c) }) := by
  unfold State.wrote
  rw [show selRegs.contains .PRS_ADMIT = false from rfl, show blockOf (Reg.place .PRS_ADMIT).addr = 3 from rfl]
  rfl
theorem wrote_PRS_PUNT : s.wrote f .PRS_PUNT c i old v was host head = ({ s with buckets := tabErase s.buckets (2 ^ 25 + c * 8 + i + 1) }) := by
  unfold State.wrote
  rw [show selRegs.contains .PRS_PUNT = false from rfl, show blockOf (Reg.place .PRS_PUNT).addr = 3 from rfl]
  rfl
theorem wrote_TBL_CMD : s.wrote f .TBL_CMD c i old v was host head = (if fldGet v 35 32 = 0 then s else s.tblFn f (fldGet v 35 32) v.toNat) := by
  unfold State.wrote
  rw [show selRegs.contains .TBL_CMD = false from rfl, show blockOf (Reg.place .TBL_CMD).addr = 5 from rfl]
  rfl
theorem wrote_TCM_CMD : s.wrote f .TCM_CMD c i old v was host head = (s.effTcmCmd f v.toNat) := by
  unfold State.wrote
  rw [show selRegs.contains .TCM_CMD = false from rfl, show blockOf (Reg.place .TCM_CMD).addr = 6 from rfl]
  rfl
theorem wrote_SWC_WATCH_CMD : s.wrote f .SWC_WATCH_CMD c i old v was host head = (s.effWatchCmd f v.toNat) := by
  unfold State.wrote
  rw [show selRegs.contains .SWC_WATCH_CMD = false from rfl, show blockOf (Reg.place .SWC_WATCH_CMD).addr = 7 from rfl]
  rfl
theorem wrote_BPM_INSPECT : s.wrote f .BPM_INSPECT c i old v was host head = (s.effBpmInspect f (fldGet v 35 0)) := by
  unfold State.wrote
  rw [show selRegs.contains .BPM_INSPECT = false from rfl, show blockOf (Reg.place .BPM_INSPECT).addr = 8 from rfl]
  rfl
theorem wrote_BPM_RECLAIM : s.wrote f .BPM_RECLAIM c i old v was host head = (s.effBpmReclaim f (fldGet v 35 0)) := by
  unfold State.wrote
  rw [show selRegs.contains .BPM_RECLAIM = false from rfl, show blockOf (Reg.place .BPM_RECLAIM).addr = 8 from rfl]
  rfl
theorem wrote_HBC_CTL : s.wrote f .HBC_CTL c i old v was host head = (s.effHbcCtl c v.toNat) := by
  unfold State.wrote
  rw [show selRegs.contains .HBC_CTL = false from rfl, show blockOf (Reg.place .HBC_CTL).addr = 9 from rfl]
  rfl
theorem wrote_HBC_BMASK : s.wrote f .HBC_BMASK c i old v was host head = (s.effHbcBmask c i old) := by
  unfold State.wrote
  rw [show selRegs.contains .HBC_BMASK = false from rfl, show blockOf (Reg.place .HBC_BMASK).addr = 9 from rfl]
  simp only [Bool.false_eq_true, if_false, State.wroteMemory]
theorem wrote_CCX_T_CTL : s.wrote f .CCX_T_CTL c i old v was host head = (s.effCcxCtl c v.toNat) := by
  unfold State.wrote
  rw [show selRegs.contains .CCX_T_CTL = false from rfl, show blockOf (Reg.place .CCX_T_CTL).addr = 13 from rfl]
  rfl
theorem wrote_CCX_TAG : s.wrote f .CCX_TAG c i old v was host head = (s.effCcxTag c (fldGet old 35 35 = 1)) := by
  unfold State.wrote
  rw [show selRegs.contains .CCX_TAG = false from rfl, show blockOf (Reg.place .CCX_TAG).addr = 13 from rfl]
  rfl
theorem wrote_CCX_MIG : s.wrote f .CCX_MIG c i old v was host head = (s.effCcxMig v.toNat) := by
  unfold State.wrote
  rw [show selRegs.contains .CCX_MIG = false from rfl, show blockOf (Reg.place .CCX_MIG).addr = 13 from rfl]
  rfl
theorem wrote_DMA_CH_CTL : s.wrote f .DMA_CH_CTL c i old v was host head = (s.effDmaCtl c v.toNat host) := by
  unfold State.wrote
  rw [show selRegs.contains .DMA_CH_CTL = false from rfl, show blockOf (Reg.place .DMA_CH_CTL).addr = 14 from rfl]
  rfl
theorem wrote_DMA_RING_CFG : s.wrote f .DMA_RING_CFG c i old v was host head = (s.effRingCfg c) := by
  unfold State.wrote
  rw [show selRegs.contains .DMA_RING_CFG = false from rfl, show blockOf (Reg.place .DMA_RING_CFG).addr = 14 from rfl]
  rfl
theorem wrote_DMA_RING_CONS : s.wrote f .DMA_RING_CONS c i old v was host head = (s.effRingCons c (fldGet old 15 0)) := by
  unfold State.wrote
  rw [show selRegs.contains .DMA_RING_CONS = false from rfl, show blockOf (Reg.place .DMA_RING_CONS).addr = 14 from rfl]
  rfl
theorem wrote_CPH_LOCK : s.wrote f .CPH_LOCK c i old v was host head = (s.effCphLock c f.part v.toNat) := by
  unfold State.wrote
  rw [show selRegs.contains .CPH_LOCK = false from rfl, show blockOf (Reg.place .CPH_LOCK).addr = 15 from rfl]
  rfl
theorem wrote_CPH_CTL : s.wrote f .CPH_CTL c i old v was host head = (s.effCphCtl c v.toNat host) := by
  unfold State.wrote
  rw [show selRegs.contains .CPH_CTL = false from rfl, show blockOf (Reg.place .CPH_CTL).addr = 15 from rfl]
  rfl
theorem wrote_CPH_KEY_CTL : s.wrote f .CPH_KEY_CTL c i old v was host head = (if fldGet v 35 35 = 1 then s.keyLoad c else s) := by
  unfold State.wrote
  rw [show selRegs.contains .CPH_KEY_CTL = false from rfl, show blockOf (Reg.place .CPH_KEY_CTL).addr = 15 from rfl]
  rfl
theorem wrote_TIM_STEP_CTL : s.wrote f .TIM_STEP_CTL c i old v was host head = (s.effTimStepCtl v.toNat) := by
  unfold State.wrote
  rw [show selRegs.contains .TIM_STEP_CTL = false from rfl, show blockOf (Reg.place .TIM_STEP_CTL).addr = 16 from rfl]
  rfl
theorem wrote_TIM_LOCK : s.wrote f .TIM_LOCK c i old v was host head = (s.effTimLock v.toNat) := by
  unfold State.wrote
  rw [show selRegs.contains .TIM_LOCK = false from rfl, show blockOf (Reg.place .TIM_LOCK).addr = 16 from rfl]
  rfl
theorem wrote_TIM_SYNCE : s.wrote f .TIM_SYNCE c i old v was host head = (s.effTimSynce i old) := by
  unfold State.wrote
  rw [show selRegs.contains .TIM_SYNCE = false from rfl, show blockOf (Reg.place .TIM_SYNCE).addr = 16 from rfl]
  rfl
theorem wrote_CNT_SNAP_CTL : s.wrote f .CNT_SNAP_CTL c i old v was host head = (s.effSnapCtl f v.toNat) := by
  unfold State.wrote
  rw [show selRegs.contains .CNT_SNAP_CTL = false from rfl, show blockOf (Reg.place .CNT_SNAP_CTL).addr = 17 from rfl]
  rfl
theorem wrote_CNT_TRACE : s.wrote f .CNT_TRACE c i old v was host head = (s.effCntTrace (fldGet old 35 35 = 1)) := by
  unfold State.wrote
  rw [show selRegs.contains .CNT_TRACE = false from rfl, show blockOf (Reg.place .CNT_TRACE).addr = 17 from rfl]
  rfl
theorem wrote_FLT_CLEAR : s.wrote f .FLT_CLEAR c i old v was host head = (s.effFltClear f v.toNat) := by
  unfold State.wrote
  rw [show selRegs.contains .FLT_CLEAR = false from rfl, show blockOf (Reg.place .FLT_CLEAR).addr = 18 from rfl]
  rfl
theorem wrote_FLT_BENCH_CMD : s.wrote f .FLT_BENCH_CMD c i old v was host head = (s.effBenchCmd v.toNat) := by
  unfold State.wrote
  rw [show selRegs.contains .FLT_BENCH_CMD = false from rfl, show blockOf (Reg.place .FLT_BENCH_CMD).addr = 18 from rfl]
  rfl
theorem wrote_FLT_TAIL_ADDR : s.wrote f .FLT_TAIL_ADDR c i old v was host head = (if fldGet v 35 35 = 1 then s.rearm else s) := by
  unfold State.wrote
  rw [show selRegs.contains .FLT_TAIL_ADDR = false from rfl, show blockOf (Reg.place .FLT_TAIL_ADDR).addr = 18 from rfl]
  rfl
theorem wrote_PWR_CTL : s.wrote f .PWR_CTL c i old v was host head = (s.effTarget (fldGet v 1 0)) := by
  unfold State.wrote
  rw [show selRegs.contains .PWR_CTL = false from rfl, show blockOf (Reg.place .PWR_CTL).addr = 1 from rfl]
  rfl
theorem wrote_AON_WDT_CFG : s.wrote f .AON_WDT_CFG c i old v was host head = (s.effWdtCfg old) := by
  unfold State.wrote
  rw [show selRegs.contains .AON_WDT_CFG = false from rfl, show blockOf (Reg.place .AON_WDT_CFG).addr = 21 from rfl]
  rfl
theorem wrote_AON_WDT_KICK : s.wrote f .AON_WDT_KICK c i old v was host head = (s.effKick (fldGet v 7 0)) := by
  unfold State.wrote
  rw [show selRegs.contains .AON_WDT_KICK = false from rfl, show blockOf (Reg.place .AON_WDT_KICK).addr = 21 from rfl]
  rfl
theorem wrote_AON_SEQ : s.wrote f .AON_SEQ c i old v was host head = (s.effSeq v.toNat) := by
  unfold State.wrote
  rw [show selRegs.contains .AON_SEQ = false from rfl, show blockOf (Reg.place .AON_SEQ).addr = 21 from rfl]
  rfl
theorem wrote_AON_TAIL_ADDR : s.wrote f .AON_TAIL_ADDR c i old v was host head = (if fldGet v 35 35 = 1 then s.rearm else s) := by
  unfold State.wrote
  rw [show selRegs.contains .AON_TAIL_ADDR = false from rfl, show blockOf (Reg.place .AON_TAIL_ADDR).addr = 21 from rfl]
  rfl
theorem wrote_TWN_CFG : s.wrote f .TWN_CFG c i old v was host head = (s.effTwnCfg old) := by
  unfold State.wrote
  rw [show selRegs.contains .TWN_CFG = false from rfl, show blockOf (Reg.place .TWN_CFG).addr = 19 from rfl]
  rfl
theorem wrote_TWN_MOVE : s.wrote f .TWN_MOVE c i old v was host head = (if fldGet v 35 35 = 1 then s.effMove (fldGet v 7 0) (fldGet v 8 8) else s) := by
  unfold State.wrote
  rw [show selRegs.contains .TWN_MOVE = false from rfl, show blockOf (Reg.place .TWN_MOVE).addr = 19 from rfl]
  rfl
theorem wrote_TWN_DH : s.wrote f .TWN_DH c i old v was host head = (s.effTwnDh i old) := by
  unfold State.wrote
  rw [show selRegs.contains .TWN_DH = false from rfl, show blockOf (Reg.place .TWN_DH).addr = 19 from rfl]
  rfl
theorem wrote_GLB_BRESET : s.wrote f .GLB_BRESET c i old v was host head = (s.effBreset (fldGet v 19 0)) := by
  unfold State.wrote
  rw [show selRegs.contains .GLB_BRESET = false from rfl, show blockOf (Reg.place .GLB_BRESET).addr = 20 from rfl]
  rfl

end Sys2Proof.Machine
end

