-- ==== Sys2Proof/Laws/Records.lean ====
section
/-! SUPPORT. Records and CMEM writes: what an operation that sends a record, or writes a word of CMEM, can change, said once. -/

namespace Sys2Proof.Machine

/-- A relation that holds of every state with itself and composes holds of a state and the end of any run of steps that keep it. -/
theorem foldl_rel {σ α : Type} {R : σ → σ → Prop} (refl : ∀ s, R s s) (trans : ∀ {s t u}, R s t → R t u → R s u) {f : σ → α → σ}
    (h : ∀ s x, R s (f s x)) (l : List α) (s : σ) : R s (l.foldl f s) := by
  induction l generalizing s with
  | nil => exact refl s
  | cons x l ih => exact trans (h s x) (ih _)

/-! ## Records -/

/-- The registers that sending a record changes. -/
def recordRegs : List Reg := [.DMA_RING_PROD, .DMA_CH_CNT, .DMA_RING_STAT, .DMA_UNBOUND]

/-- From `s` to `t`, only what sending records changes: the rings' registers, the channels' ring state, host memory and MSI-X vectors. -/
def sentOnly (s t : State) : Prop :=
  (∃ r c h m, t = { s with regs := r, chans := c, hostMem := h, msix := m }) ∧ ∀ q c i, q ∉ recordRegs → t.rd q c i = s.rd q c i

theorem sentOnly_refl (s : State) : sentOnly s s := ⟨⟨_, _, _, _, rfl⟩, fun _ _ _ _ => rfl⟩

theorem sentOnly_trans {s t u : State} (h : sentOnly s t) (k : sentOnly t u) : sentOnly s u := by
  obtain ⟨⟨_, _, _, _, rfl⟩, h⟩ := h
  obtain ⟨⟨_, _, _, _, rfl⟩, k⟩ := k
  exact ⟨⟨_, _, _, _, rfl⟩, fun q c i hq => (k q c i hq).trans (h q c i hq)⟩

theorem sentOnly_fset (s : State) (f : Fld) (c i n : Nat) (h : f.reg ∈ recordRegs) : sentOnly s (s.fset f c i n) :=
  ⟨⟨_, _, _, _, rfl⟩, fun _ d j hq => s.rd_fset_reg c i d j n fun e => hq (ctorIdx_inj e ▸ h)⟩

theorem sentOnly_modChan (s : State) (ch : Nat) (g : Chan → Chan) : sentOnly s (s.modChan ch g) := ⟨⟨_, _, _, _, rfl⟩, fun _ _ _ _ => rfl⟩

theorem sentOnly_hostMem (s : State) (m : Tab Byte) : sentOnly s { s with hostMem := m } := ⟨⟨_, _, _, _, rfl⟩, fun _ _ _ _ => rfl⟩

theorem sendVec_sentOnly (s : State) (fn v : Nat) : sentOnly s (s.sendVec fn v) := by
  unfold State.sendVec
  dsimp only
  split
  · exact ⟨⟨_, _, _, _, rfl⟩, fun _ _ _ _ => rfl⟩
  · exact sentOnly_hostMem s _

theorem raiseVec_sentOnly (s : State) (ch : Nat) : sentOnly s (s.raiseVec ch) := by
  unfold State.raiseVec
  dsimp only
  split
  · exact sentOnly_trans (sentOnly_modChan s ch _) (sendVec_sentOnly _ _ _)
  · exact sentOnly_trans (sentOnly_modChan s ch _) (sentOnly_fset _ _ _ _ _ (by decide))

theorem writeBack_sentOnly (s : State) (ch : Nat) : sentOnly s (s.writeBack ch) := by
  unfold State.writeBack
  dsimp only
  split
  · exact sentOnly_refl _
  · exact sentOnly_hostMem _ _

theorem ringWrite_sentOnly (s : State) (ch part : Nat) (r : Record) : sentOnly s (s.ringWrite ch part r) := by
  unfold State.ringWrite
  dsimp only
  exact sentOnly_trans (sentOnly_hostMem s _) (sentOnly_trans (sentOnly_modChan _ ch _) (sentOnly_trans (sentOnly_fset _ _ _ _ _ (by decide))
    (sentOnly_trans (sentOnly_fset _ _ _ _ _ (by decide)) (writeBack_sentOnly _ ch))))

theorem ringPut_sentOnly (s : State) (ch part : Nat) (r : Record) : sentOnly s (s.ringPut ch part r) := by
  unfold State.ringPut
  dsimp only
  split
  · exact sentOnly_trans (sentOnly_modChan s ch _)
      (sentOnly_trans (sentOnly_fset _ _ _ _ _ (by decide)) (sentOnly_fset _ _ _ _ _ (by decide)))
  · refine sentOnly_trans (ringWrite_sentOnly s ch part r) ?_
    unfold State.moderate
    split
    · exact raiseVec_sentOnly _ _
    · exact sentOnly_refl _

theorem unbound_sentOnly (s : State) (p : Nat) : sentOnly s (s.unbound p) := sentOnly_fset s _ _ _ _ (by decide)

/-- A record sent to a channel's ring changes rings, channels, host memory and vectors only. -/
theorem emitChan_sentOnly (s : State) (ch p : Nat) (r : Record) : sentOnly s (s.emitChan ch p r) := by
  unfold State.emitChan
  split
  · exact unbound_sentOnly s _
  · split
    · exact ringPut_sentOnly s _ _ _
    · exact unbound_sentOnly s _

/-- A record sent to a partition changes rings, channels, host memory and vectors only. -/
theorem emitPart_sentOnly (s : State) (p cls : Nat) (r : Record) : sentOnly s (s.emitPart p cls r) := by
  unfold State.emitPart
  split
  · exact emitChan_sentOnly s _ _ _
  · exact unbound_sentOnly s _

/-- The owner's copy of a record changes rings, channels, host memory and vectors only. -/
theorem emitWatch_sentOnly (s : State) (p cls : Nat) (r : Record) : sentOnly s (s.emitWatch p cls r) := by
  unfold State.emitWatch
  split
  · split
    · exact ringPut_sentOnly s _ _ _
    · exact unbound_sentOnly s _
  · exact unbound_sentOnly s _

/-- A record sent to a partition and to the owner changes rings, channels, host memory and vectors only. -/
theorem emitBoth_sentOnly (s : State) (p cls : Nat) (r : Record) : sentOnly s (s.emitBoth p cls r) := by
  unfold State.emitBoth
  split
  · exact sentOnly_trans (emitPart_sentOnly s p cls r) (emitWatch_sentOnly _ p cls r)
  · exact emitPart_sentOnly s 16 cls r

/-! ## Words of CMEM -/

/-- From `s` to `t`, only what re-reads a parked descriptor changes: the states and lists of channels and lanes. -/
def rereadOnly (s t : State) : Prop :=
  (∃ r c l, t = { s with regs := r, chans := c, lanes := l }) ∧
  ∀ q c i, q ≠ .DMA_CH_STATUS → q ≠ .CPH_STATUS → t.rd q c i = s.rd q c i

theorem rereadOnly_refl (s : State) : rereadOnly s s := ⟨⟨_, _, _, rfl⟩, fun _ _ _ _ _ => rfl⟩

theorem rereadOnly_trans {s t u : State} (h : rereadOnly s t) (k : rereadOnly t u) : rereadOnly s u := by
  obtain ⟨⟨_, _, _, rfl⟩, h⟩ := h
  obtain ⟨⟨_, _, _, rfl⟩, k⟩ := k
  exact ⟨⟨_, _, _, rfl⟩, fun q c i a b => (k q c i a b).trans (h q c i a b)⟩

/-- A write of a CMEM word stores that word, and beside it changes the states and lists of channels and lanes parked there only (R438, R475). -/
theorem cput_rereadOnly (s : State) (w : Nat) (v : Word) : rereadOnly (s.cset w v) (s.cput w v) := by
  unfold State.cput
  dsimp only
  split
  · exact rereadOnly_refl _
  · refine rereadOnly_trans (foldl_rel rereadOnly_refl rereadOnly_trans ?_ _ _) (foldl_rel rereadOnly_refl rereadOnly_trans ?_ _ _)
    · intro t ch
      split
      · exact ⟨⟨_, _, _, rfl⟩, fun q c i h _ => State.rd_fset_reg _ _ _ _ _ _ fun e => h (ctorIdx_inj e)⟩
      · exact rereadOnly_refl t
    · intro t l
      split
      · exact ⟨⟨_, _, _, rfl⟩, fun q c i _ h => State.rd_fset_reg _ _ _ _ _ _ fun e => h (ctorIdx_inj e)⟩
      · exact rereadOnly_refl t

/-- The memory after a write of a CMEM word. -/
@[simp] theorem cput_cmem (s : State) (w : Nat) (v : Word) : (s.cput w v).cmem = tabSet 0 s.cmem w v := by
  obtain ⟨⟨_, _, _, h⟩, -⟩ := cput_rereadOnly s w v
  rw [h]; rfl

@[simp] theorem cput_hostMem (s : State) (w : Nat) (v : Word) : (s.cput w v).hostMem = s.hostMem := by
  obtain ⟨⟨_, _, _, h⟩, -⟩ := cput_rereadOnly s w v
  rw [h]; rfl

@[simp] theorem cput_bufMem (s : State) (w : Nat) (v : Word) : (s.cput w v).bufMem = s.bufMem := by
  obtain ⟨⟨_, _, _, h⟩, -⟩ := cput_rereadOnly s w v
  rw [h]; rfl

/-- A word of CMEM reads as it was written, and every other as before. -/
theorem cput_cget (s : State) (w x : Nat) (v : Word) : (s.cput w v).cget x = if x = w then v else s.cget x := by
  unfold State.cget
  rw [cput_cmem, tabGet_set]

end Sys2Proof.Machine
end

