-- ==== Sys2Proof/Laws/Memory.lean ====
section
/-! SUPPORT. CMEM, the buffers and host memory: reads after writes, and that every operation on them keeps their canonical form. -/

namespace Sys2Proof.Machine

/-- Host memory stays canonical when the device writes it. -/
theorem hostWrite_sorted {m : Tab Byte} (fn a : Nat) (bs : List Byte) (h : tabSorted 0 m = true) : tabSorted 0 (hostWrite m fn a bs) = true := by
  induction bs generalizing m a with
  | nil => exact h
  | cons b bs ih => exact ih _ (tabSorted_insert b (Nat.zero_le _) h)

/-- The three parts of the canonical form. -/
theorem Memory.wf_iff (s : State) :
    Memory.wf s = true ↔ tabWf 0 s.cmem = true ∧ tabWf 0 s.bufMem = true ∧ tabSorted 0 s.hostMem = true := by
  simp [Memory.wf, and_assoc]

/-- The memories of the reset state are canonical: nothing is listed. -/
theorem reset_memory_wf : Memory.wf State.reset = true := by decide +kernel

theorem cset_wf {s : State} (w : Nat) (v : Word) (h : Memory.wf s = true) : Memory.wf (s.cset w v) = true := by
  rw [Memory.wf_iff] at *
  exact ⟨tabWf_set 0 w v h.1, h.2⟩

theorem cput_wf {s : State} (w : Nat) (v : Word) (h : Memory.wf s = true) : Memory.wf (s.cput w v) = true := by
  rw [Memory.wf_iff] at *
  rw [cput_cmem, cput_bufMem, cput_hostMem]
  exact ⟨tabWf_set 0 w v h.1, h.2⟩

theorem blockWrite_wf {s : State} (a : Nat) (ws : List Nat) (h : Memory.wf s = true) : Memory.wf (s.blockWrite a ws) = true := by
  induction ws generalizing s a with
  | nil => exact h
  | cons w ws ih => exact ih _ (cput_wf _ _ h)

theorem setBufByte_wf {s : State} (b i : Nat) (v : Byte) (h : Memory.wf s = true) : Memory.wf (s.setBufByte b i v) = true := by
  unfold State.setBufByte
  dsimp only
  split
  · exact cput_wf _ _ h
  · rw [Memory.wf_iff] at *
    exact ⟨h.1, tabWf_set 0 _ v h.2.1, h.2.2⟩

theorem bufWrite_wf {s : State} (b i : Nat) (bs : List Byte) (h : Memory.wf s = true) : Memory.wf (s.bufWrite b i bs) = true := by
  induction bs generalizing s i with
  | nil => exact h
  | cons c bs ih => exact ih _ (setBufByte_wf b i c h)

theorem cmemWrite_wf {s : State} (a : Nat) (bs : List Byte) (h : Memory.wf s = true) : Memory.wf (s.cmemWrite a bs) = true := by
  unfold State.cmemWrite
  refine foldl_rel (R := fun s t => Memory.wf s = true → Memory.wf t = true) (fun _ h => h) (fun h k x => k (h x)) (fun t k ht => ?_) _ _ h
  dsimp only
  split
  · exact cput_wf _ _ ht
  · exact ht

/-- Sending a record writes host memory only. -/
theorem hostMem_wf {s : State} (fn a : Nat) (bs : List Byte) (h : Memory.wf s = true) :
    Memory.wf { s with hostMem := hostWrite s.hostMem fn a bs } = true := by
  rw [Memory.wf_iff] at *
  exact ⟨h.1, h.2.1, hostWrite_sorted fn a bs h.2.2⟩

/-- A byte of a buffer outside CMEM reads as it was written. -/
theorem bufByte_set_same (s : State) (b i : Nat) (v : Byte) (h : handlePool b < 4) : (s.setBufByte b i v).bufByte b i = v := by
  have : ¬(4 ≤ handlePool b) := by omega
  simp [State.setBufByte, State.bufByte, this]

end Sys2Proof.Machine
end

