-- ==== Sys2Proof/Machine/Pins.lean ====
section
/-! DEFINITION. Outputs of the block that no register shows, and the test access port (R652, R655). No command of the table moves either. -/

namespace Sys2Proof.Machine

/-- `SPI_RESET_N` (R652): low while the main domains are in main reset, high from its release. -/
def State.spiResetN (s : State) : Bool := s.flag F.AON_STATUS.main_on

/-- The test access port works: `VIO` and `VDD_CORE` are on (R655). -/
def State.tapWorks (s : State) : Bool := bit s.power.pwrEn 0 && bit s.power.pwrEn 1

/-- The IDCODE: version, part, the maker's JEP106 identity and 1 (R655). PRESUMED, log entry 70. -/
def State.tapIdcode (s : State) : Nat :=
  s.fget F.GLB_ID.stepping * 2 ^ 28 + 0x5120 * 2 ^ 12 + Config.jep106.toNat * 2 + 1

/-- The instruction that takes effect where one is issued: the EXTEST ones only while `GLB_STATUS.ready` reads 0, BYPASS otherwise (R655). -/
def State.tapTakes (s : State) (i : TapIns) : TapIns :=
  match i with
  | .extest | .extestPulse | .extestTrain => if s.flag F.GLB_STATUS.ready then .bypass else i
  | .idcode | .bypass => i

/-- An instruction is issued to the test access port. PRESUMED, log entry 70. -/
def State.tapIssue (s : State) (i : TapIns) : State := if s.tapWorks then { s with tap := s.tapTakes i } else s

end Sys2Proof.Machine
end

