-- ==== Sys2Proof/Tests/Slice0.lean ====
section
/-! SUPPORT. Tests of single commands on small states, and for every statement with hypotheses a state and operands that meet them. -/

set_option Elab.async false

namespace Sys2Proof.Tests

open Machine

/-! ## States -/

/-- The device in SERVICE, as after boot step 4, with the PCI Express link in L0. -/
def up : State :=
  let s := (State.reset.fset F.AON_STATUS.main_on 0 0 1).fset F.AON_STATUS.pstate 0 0 0
  { s with
    power := { s.power with inPor := false, crystal := true }
    pcie := { s.pcie with endpointUp := true, l0 := true } }

/-- The outcome is a next state that passes a test. -/
def ran (o : Host.Outcome State Fault Refusal) (p : State → Bool) : Bool :=
  match o with
  | .next t => p t
  | .fault _ => false
  | .refused _ => false

/-- The outcome's next state; the reset state where there is none. -/
def after (o : Host.Outcome State Fault Refusal) : State :=
  match o with
  | .next t => t
  | .fault _ => State.reset
  | .refused _ => State.reset

/-- The state with a word of a section of scope H's ACTIVE image. -/
def put (type idx v : Nat) (s : State) : State := s.setPlane 16 0 ((s.plane 16 0).putWord type idx v)

/-- The state with a port's record word 0, valid and with further bits, and the port's state. -/
def withPort (p rec st : Nat) (s : State) : State := (put 1 (128 + 8 * p) (2 ^ 35 + rec) s).fset F.MAC_STATUS.state p 0 st

/-- A select register of the PF at an index. -/
def sel (r : Reg) (n : Nat) (s : State) : State := s.wr r 16 0 (BitVec.ofNat 72 n)

def a0 : Nat := slotOf .TIM_RATE 0

def but (s : State) (k : Nat) : RegFile := s.regs.filter (·.1 ≠ k)

theorem witness_WordWritesStoreTheirSlot :
    storesOnly .TIM_RATE = true ∧ up.reachable .pf = true ∧ up.target .pf ((a0 + 3) / 8 * 8) true = .reg .TIM_RATE 0 0 false ∧ up.reachable .console = true ∧ up.target .console a0 true = .reg .TIM_RATE 0 0 false := by
  decide +kernel

def staged (k w : Nat) : State := up.modFn .pf fun x => { x with half := some (k, w) }

def latched (k b : Nat) : State := (up.fset F.TIM_RATE.rate 0 0 0xA12345678).modFn .pf fun x => { x with latch := some (k, b) }

theorem witness_HalfWritesStageAndCommit_1 :
    up.target .pf (a0 / 8 * 8) true = .reg .TIM_RATE 0 0 false ∧ (up.fn .pf).half = none := by
  decide +kernel

theorem witness_HalfWritesStageAndCommit_2 :
    ((staged 8 77).fn .pf).half = some (8, 77) ∧ 8 ≠ a0 / 8 * 8 ∧ (staged 8 77).flag F.AON_STATUS.main_on = true ∧ (staged 8 77).target .pf (a0 / 8 * 8) true = .reg .TIM_RATE 0 0 false := by
  decide +kernel

theorem witness_HalfWritesStageAndCommit_3 :
    ((staged a0 77).fn .pf).half = some (a0, 77) ∧ (staged a0 77).target .pf (a0 / 8 * 8) true = .reg .TIM_RATE 0 0 false := by
  decide +kernel

theorem witness_HalfReadsLatchTheHighBits :
    (latched a0 3).reachable .pf = true ∧ (latched a0 3).target .pf (a0 / 8 * 8) false = .reg .TIM_RATE 0 0 false ∧ ((latched a0 3).fn .pf).latch = some (a0 / 8 * 8, 3) ∧ ((latched 8 3).fn .pf).latch = some (8, 3) ∧ 8 ≠ a0 / 8 * 8 := by
  decide +kernel

def rcS : State := up.fset F.GLB_REFUSED.count 16 0 99

theorem witness_ReadsClearOnceAndFencesAnswer :
    rcS.reachable .pf = true ∧ rcS.target .pf (slotOf .GLB_REFUSED 0) false = .reg .GLB_REFUSED 16 0 false ∧ up.target .pf 0x30 false = .reg .GLB_FENCE 16 0 false := by
  decide +kernel

def rwlS (st : Nat) : State := put 2 (28 * 3) 1 (up.setScopeState 16 st)

def aR : Nat := slotOf .CCX_P_QSHARE 0

theorem witness_RwlWritesGoToTheShadowCopy_1 :
    isRwl .CCX_P_QSHARE = true ∧ isInd .CCX_P_QSHARE = false ∧ (Reg.place .CCX_P_QSHARE).wide = false ∧ (rwlS 1).target .pf (aR / 8 * 8) true = .reg .CCX_P_QSHARE 16 0 false ∧ (rwlS 1).rwlScope .CCX_P_QSHARE 16 = 16 ∧ (rwlS 1).scopeState 16 = 1 ∧ (rwlS 4).scopeState 16 = 4 := by
  decide +kernel

theorem witness_RwlWritesGoToTheShadowCopy_2 :
    (rwlS 2).scopeState 16 = 2 ∧ (rwlS 2).target .pf (aR / 8 * 8) true = .reg .CCX_P_QSHARE 16 0 false ∧ (rwlS 2).flag F.AON_STATUS.main_on = true := by
  decide +kernel

theorem witness_RwlWritesGoToTheShadowCopy_3 :
    (rwlS 1).reachable (.vf 3) = true ∧ (rwlS 1).target (.vf 3) (aR / 8 * 8) true = .reg .CCX_P_QSHARE 3 0 false := by
  decide +kernel

def opA (s : State) (f : Func) (r : Reg) (i c : Nat) : Bool := s.reachable f && decide (s.target f (slotOf r i) true = .reg r c i false)

theorem witness_SelectWritesChooseAnInstance :
    selOfBlock 13 = some .CCX_SEL ∧ opA up .pf .CCX_SEL 0 16 = true ∧ up.selOpen .pf .CCX_SEL 143 = true ∧ up.selOpen .pf .CCX_SEL 144 = false := by
  decide +kernel

theorem opens_of {s : State} {f : Func} {r : Reg} {i c : Nat} (h : opA s f r i c = true) : opens s f r i c := by
  simp only [opA, Bool.and_eq_true, decide_eq_true_eq] at h
  exact h

def brS : State := { up.fset F.PRS_CNT.count 3 2 7 with blocked := [1, 2] }

theorem witness_BlockFunctionAndEndpointResets_1 :
    opA up .pf .GLB_BRESET 0 0 = true := by
  decide +kernel

theorem witness_BlockFunctionAndEndpointResets_2 :
    ({ up with pcie := { up.pcie with detect := true } } : State).pcie.detect = true ∧ up.pcie.l0 = true := by
  decide +kernel

def le (n v : Nat) : List Byte := (List.range n).map fun i => BitVec.ofNat 8 (v >>> (8 * i))

def imgHead : List Byte := le 8 0x474D495254535A4F ++ le 2 0 ++ le 2 2 ++ le 4 0x5120 ++ le 4 1 ++ le 4 0 ++ le 8 256 ++ le 4 1 ++ le 4 0x80 ++ le 8 7 ++ le 16 0 ++ le 32 0 ++ le 32 0 ++ (le 1 0xF0 ++ le 1 0 ++ le 6 0 ++ le 8 192 ++ le 8 8 ++ le 4 0x8C28B28A ++ le 4 0)

def imgAll : List Byte := imgHead ++ le 96 0

def imS : State := ((up.fset F.IMG_STATUS.active_ok 0 0 1).setScopeState 0 1).fset F.IMG_LEN.bytes 16 0 256

def imH : Load := (imS.headCode (noHeader .pf none false) imgHead).1

def imL : State := after (execLoadHost .pf imgHead imS)

theorem witness_ImageLoadsStartAndEnd_1 :
    opA imS .pf .IMG_CMD 0 16 = true ∧ imS.image.load = none ∧ 0xC30 ∉ imS.flt.fenced ∧ imS.fget F.IMG_SRC.addr 16 % 64 = 0 ∧ (imS.headCode (noHeader .pf none false) imgHead).2 = (imgOk, 0) ∧ (imS.headCode (noHeader .pf (some 1) false) imgHead).2 = (imgOk, 0) := by
  decide +kernel

theorem witness_ImageLoadsStartAndEnd_2 :
    imL.image.load = some imH ∧ imH.sections ≠ [] ∧ imH.boot = false ∧ imH.scope = 0 ∧ imL.flag F.IMG_STATUS.active_ok = true ∧ imL.firstBad imH imgAll imH.sections 0 = none ∧ imH.length ≤ imgAll.length ∧ imL.latchedSection imH imgAll = none ∧ imH.csig = 0 := by
  decide +kernel

def im3 : State := after (execImgLoadComplete imgAll imL)

def imD : State := after (execDiscard .pf 0 im3)

def apS : State := { imS.setScopeState 0 3 with image := { imS.image with cmac := [(0, 2 ^ 96 + 5)] } } |>.fset F.IMG_CSIG.bytes 0 0 5 |>.fset F.IMG_CSIG.bytes 0 3 1

theorem witness_ShadowBanksAreRestoredAndApproved_1 :
    opA im3 .pf .IMG_CMD 0 16 = true ∧ im3.scopeState 0 = 3 ∧ im3.image.waitRestore = [] ∧ imS.scopeState 0 = 1 ∧ imL.image.waitRestore = [] := by
  decide +kernel

theorem witness_ShadowBanksAreRestoredAndApproved_2 :
    (im3.setScopeState 0 6).scopeState 0 = 6 ∧ ((im3.setScopeState 0 6).fset F.IMG_STATUS.drained 0 0 1).flag F.IMG_STATUS.drained = true ∧ im3.storeLatched 0 false = none ∧ tabGet [] im3.image.restoring 0 = [] := by
  decide +kernel

theorem witness_ShadowBanksAreRestoredAndApproved_3 :
    imD.scopeState 0 = 3 ∧ tabGet [] imD.image.restoring 0 = [16] ∧ imD.storeLatched 0 false = none ∧ imD.image.waitRestore = [] := by
  decide +kernel

theorem witness_ShadowBanksAreRestoredAndApproved_4 :
    ((List.range 4).map fun i => apS.fget F.IMG_CSIG.bytes 0 i * 2 ^ (32 * i)).sum = tabGet 0 apS.image.cmac 0 ∧ apS.scopeState 0 = 3 := by
  decide +kernel

def fkS (n : Nat) : State := { up with image := { up.image with fkey := (List.range n) } }

def fu : State := after (execImgFuseWrite .pf 0x0F05 (fkS 8))

theorem witness_KeyFusingTakesEightWords_1 :
    opA (fkS 8) .pf .IMG_FKEY 0 0 = true ∧ opA (fkS 8) .pf .IMG_FUSE 0 0 = true ∧ (fkS 8).image.fkey.length = 8 ∧ (fkS 8).image.fkeyOver = false ∧ (fkS 8).image.fusing = false ∧ (fkS 8).flag F.IMG_KEY.fused = false ∧ (fkS 7).image.fkey.length ≠ 8 := by
  decide +kernel

theorem witness_KeyFusingTakesEightWords_2 :
    fu.image.fusing = true := by
  decide +kernel

def caS : State := (((imS.setScopeState 0 4).setScopeState 16 1).fset F.IMG_CASTLE_MASK.scopes 16 0 1).fset F.IMG_STATUS.drained 0 0 1 |>.setPlane 16 0 { ({} : Plane) with present := secRequired } |>.wr .IMG_CASTLE_AT 16 0 (BitVec.ofNat 72 (2 * 2 ^ 36))

def ca1 : State := after (execCastle .pf caS)

def ca2 : State := after (execCastleCheckDone ca1)

theorem witness_CastlingsAreRequestedAcceptedAndCancelled_1 :
    opA caS .pf .IMG_CMD 0 16 = true ∧ caS.image.castle = none ∧ ca1.image.castle = some { fn := .pf, mask := 1, time := 2 * 2 ^ 36, accepted := false } ∧ ca1.castleCode { fn := .pf, mask := 1, time := 2 * 2 ^ 36, accepted := false } = (imgOk, 0) := by
  decide +kernel

theorem witness_CastlingsAreRequestedAcceptedAndCancelled_2 :
    opA ca2 .pf .IMG_CMD 0 16 = true ∧ ca2.image.castle = some { fn := .pf, mask := 1, time := 2 * secUnits, accepted := true } ∧ ca2.time.now + 100000 * 2 ^ 48 ≤ 2 * secUnits := by
  decide +kernel

theorem witness_CastlingSwapsTheMaskedScopes :
    ca2.image.castle = some { fn := .pf, mask := 1, time := 2 * secUnits, accepted := true } := by
  decide +kernel

def pA : State := withPort 8 (2 ^ 11 + 2 ^ 13) pDisabled (sel .MAC_SEL 8 up)

def pA0 : State := withPort 8 (2 ^ 13) pDisabled (sel .MAC_SEL 8 up)

def adm (s : State) : State := (s.fset F.MAC_CTL.admin_owner 8 0 1).fset F.MAC_CTL.admin_tenant 8 0 1

def pT : State := adm (withPort 8 (2 ^ 11 + 2 ^ 13) pUp (sel .MAC_SEL 8 up))

def pF : State := adm (withPort 8 (2 ^ 11 + 2 ^ 13) pFault (sel .MAC_SEL 8 up))

theorem witness_PortStatesFollowAdministration_1 :
    up.reachable .pf = true ∧ pA.target .pf (slotOf .MAC_CTL 0) true = .reg .MAC_CTL 8 0 false ∧ pA.portAdmin 8 = false ∧ pA.portState 8 = pDisabled ∧
  pA.portValid 8 = true ∧ pA.image.castle = none ∧ pA.portMedia 8 ≠ 0 ∧ bit (pA.portRec 8) 17 = false := by
  decide +kernel

theorem witness_PortStatesFollowAdministration_2 :
    pA0.target .pf (slotOf .MAC_CTL 0) true = .reg .MAC_CTL 8 0 false ∧ pA0.portAdmin 8 = false ∧ pA0.portState 8 = pDisabled ∧
  pA0.portValid 8 = true ∧ pA0.portMedia 8 = 0 ∧ bit (pA0.portRec 8) 13 = true := by
  decide +kernel

theorem witness_PortStatesFollowAdministration_3 :
    pT.target .pf (slotOf .MAC_CTL 0) true = .reg .MAC_CTL 8 0 false ∧ pT.portAdmin 8 = true ∧ pT.portState 8 = pUp := by
  decide +kernel

theorem witness_PortStatesFollowAdministration_4 :
    pF.target .pf (slotOf .MAC_CTL 0) true = .reg .MAC_CTL 8 0 false ∧ pF.portAdmin 8 = true ∧ pF.portState 8 = pFault ∧
  pF.flag F.MAC_STATUS.safe 8 = false ∧ pF.portMedia 8 ≠ 0 ∧ pF.flag F.MAC_MOD.present 8 = false := by
  decide +kernel

def pM (b : Nat) (s : State) : State := s.modPort 8 fun p => { p with bringup := b }

def pAbs : State := withPort 8 (2 ^ 12 + 2 ^ 13) pAbsent up

def pPres : State := withPort 8 (2 ^ 12 + 2 ^ 13) pPresent up

def pPres0 : State := withPort 8 (2 ^ 12) pPresent up

def pTrain : State := withPort 8 (2 ^ 12 + 2 ^ 13) pTraining up

def pUpS : State := withPort 8 (2 ^ 12 + 2 ^ 13) pUp up

def pLoss : State := pUpS.modPort 8 fun p => { p with lossOn := true }

def app8 (n : Nat) : Nat × Nat × Nat := (n, pAbs.portSpeed 8, pAbs.portLanes 8)

theorem witness_ModulesAndLinksMoveThePort_1 :
    pAbs.portState 8 = pAbsent ∧ pAbs.i2cUnit 8 ∉ pAbs.flt.fenced ∧ bit (pAbs.portRec 8) 17 = false ∧ (pAbs.port 8).bringup = 0 ∧
  pAbs.frozen = false ∧ pAbs.portMedia 8 ≠ 0 ∧ (pAbs.master (pAbs.i2cNo 8)).jobs = [] := by
  decide +kernel

theorem witness_ModulesAndLinksMoveThePort_2 :
    (pM 1 pAbs).frozen = false ∧ (pM 4 pAbs).frozen = false ∧ ((pM 1 pAbs).port 8).bringup = 1 ∧ ((pM 2 pAbs).port 8).bringup = 2 ∧ ((pM 3 pAbs).port 8).bringup = 3 ∧ ((pM 4 pAbs).port 8).bringup = 4 ∧
  bit ((pM 4 pAbs).portRec 8) 13 = true ∧ (pM 3 pAbs).portState 8 = pAbsent ∧ 0 < (app8 3).1 := by
  decide +kernel

theorem witness_ModulesAndLinksMoveThePort_3 :
    pPres.portState 8 = pPresent ∧ bit (pPres.portRec 8) 13 = true ∧ pPres0.portState 8 = pPresent ∧ bit (pPres0.portRec 8) 13 = false ∧
  pPres0.pstate ≠ psRest ∧ pPres0.power.entering = false := by
  decide +kernel

theorem witness_ModulesAndLinksMoveThePort_4 :
    pTrain.portState 8 = pTraining ∧ bit (pTrain.portRec 8) 13 = true := by
  decide +kernel

theorem witness_ModulesAndLinksMoveThePort_5 :
    pUpS.portState 8 = pUp ∧ pUpS.rxFrame 8 true = none ∧ pUpS.rxFrame 8 false = none ∧ (pLoss.port 8).lossOn = true ∧ pLoss.portState 8 = pUp ∧
  bit (pLoss.portRec 8) 13 = true := by
  decide +kernel

def i2cV : Nat := 2 ^ 35 + 3 * 2 ^ 26 + 0x45

def pI2c : State := (withPort 8 (2 ^ 12 + 2 ^ 13) pUp (sel .MAC_SEL 8 up)).fset F.MAC_MOD.present 8 0 1

def pBusy : State := after (execI2cTransactionGo .pf i2cV pI2c)

def pPart : State := pI2c.fset F.MAC_PARTNER.valid 8 2 1

theorem witness_ModuleTransactionsAndPartnerSlots_1 :
    pBusy.frozen = false := by
  decide +kernel

theorem witness_ModuleTransactionsAndPartnerSlots_2 :
    pI2c.target .pf (slotOf .MAC_I2C_CMD 0) true = .reg .MAC_I2C_CMD 8 0 false ∧ i2cV.testBit 35 = true ∧ i2cV.testBit 30 = false ∧
  1 ≤ bits i2cV 29 26 ∧ bits i2cV 29 26 ≤ 8 ∧ pI2c.flag F.MAC_I2C_CMD.busy 8 = false ∧ pI2c.i2cUnit 8 ∉ pI2c.flt.fenced ∧ pI2c.flag F.MAC_MOD.present 8 = true := by
  decide +kernel

theorem witness_ModuleTransactionsAndPartnerSlots_3 :
    (pBusy.master (pBusy.i2cNo 8)).jobs = [.software 8] := by
  decide +kernel

theorem witness_ModuleTransactionsAndPartnerSlots_4 :
    pPart.target .pf (slotOf .MAC_PARTNER 2) true = .reg .MAC_PARTNER 8 2 false ∧ pPart.flag F.MAC_PARTNER.valid 8 2 = true ∧ pPart.fget F.MAC_TIMERS.partner_age 8 ≠ 0 := by
  decide +kernel

def pPfc : State := (pUpS.fset F.MAC_PAUSE.mode 8 0 2).fset F.MAC_PAUSE_STATE.xoff 8 0 1

def mmV (v n : Nat) : State := (pUpS.fset F.MAC_MM.verify_st 8 0 v).modPort 8 fun p => { p with verifySent := n }

def pLpi : State := (withPort 8 (2 ^ 15) pUp up).fset F.MAC_LPI.en 8 0 1 |>.modPort 8 fun p => { p with eee := true }

def pCtl7 (x : Nat) : State := pPfc.modPort 8 fun p => { p with wire := some { copy := { id := 0, frame := 0, handle := 0, len := 100, part := 0, port := 8, set := 0, qclass := x, cls := 0, colour := 0, tag := 0, edit := 0, md := 0, l3 := 0, l4 := 0, l5 := 0, inPort := 0, rx := none }, head := [], mac := [], orig := 100 } }

theorem witness_ControlFramesAndMergeVerification_1 :
    pPfc.portState 8 = pUp ∧ pPfc.flag F.MAC_STATUS.rem_fault 8 = false ∧ (pPfc.port 8).wire = none ∧ (pPfc.port 8).ctlWait = [] ∧
  ((pCtl7 7).port 8).wire.isSome = true ∧ (pCtl7 7).wireCuttable 8 = none := by
  decide +kernel

theorem witness_ControlFramesAndMergeVerification_2 :
    pPfc.fget F.MAC_PAUSE.mode 8 = 2 ∧ (pPfc.fget F.MAC_PAUSE_STATE.xoff 8).testBit 0 = true ∧ pPfc.prioritiesOf 8 0 ≠ 0 := by
  decide +kernel

theorem witness_ControlFramesAndMergeVerification_3 :
    (mmV 1 0).portState 8 = pUp ∧ (mmV 1 0).fget F.MAC_MM.verify_st 8 = 1 ∧ (mmV 2 2).fget F.MAC_MM.verify_st 8 = 2 ∧ ((mmV 2 2).port 8).verifySent < 3 ∧
  ((mmV 2 3).port 8).verifySent = 3 := by
  decide +kernel

theorem witness_ControlFramesAndMergeVerification_4 :
    bit (pLpi.portRec 8) 15 = true ∧ pLpi.flag F.MAC_LPI.en 8 = true ∧ (pLpi.port 8).eee = true ∧ pLpi.portState 8 = pUp ∧ (∀ e ∈ pLpi.queues, e.1 / 128 = 8 → e.2.head = [] ∧ e.2.deep = [] ∧ e.2.pend = []) ∧ pLpi.portIdle 8 = true ∧
  pLpi.flag F.MAC_STATUS.lpi_tx 8 = false := by
  decide +kernel

def pPau (m : Nat) : State := (pUpS.fset F.MAC_PAUSE.mode 8 0 m).fset F.MAC_PAUSE_STATE.held 8 0 0x85

theorem witness_PausesHoldAndReleaseClasses :
    (pPau 1).portState 8 = pUp ∧ (pPau 1).fget F.MAC_PAUSE.mode 8 = 1 ∧ (pPau 2).portState 8 = pUp ∧ (pPau 2).fget F.MAC_PAUSE.mode 8 = 2 := by
  decide +kernel

def cpy (c : Nat) : Copy := { id := 5, frame := 1, handle := 0, len := 64, part := 16, port := 8, set := 0, qclass := c, cls := c, colour := 0, tag := 0, edit := 0 }

def txc (c : Nat) : TxCopy := { copy := cpy c, head := List.replicate 60 0, orig := 60 }

def frm : Frame := { port := 3, owner := 16, group := 0, express := false, tag := 0, pre := 0, len := 64, known := 64, ended := true, bytes := List.replicate 64 1 }

def pTx7 : State := { (pUpS.modPort 8 fun p => { p with fifo7 := [txc 7] }) with frames := [(1, frm)] }

def pTxG : State := { (pUpS.modPort 8 fun p => { p with fifoG := [txc 3] }) with frames := [(1, frm)] }

def pWire : State := { (pUpS.modPort 8 fun p => { p with wire := some (txc 3) }) with frames := [(1, frm)] }

theorem witness_CopiesGoOnTheWireAndLeave_1 :
    pTx7.flag F.MAC_STATUS.safe 8 = false ∧ pTx7.dhState 8 0 = false ∧ pTx7.portState 8 = pUp ∧ pTx7.flag F.MAC_STATUS.rem_fault 8 = false ∧
  (pTx7.port 8).wire = none ∧ pTx7.firstFree 8 (pTx7.port 8).fifo7 = some (txc 7) ∧
  pTx7.mayStart (txc 7) (max pTx7.time.now ((pTx7.port 8).lastEnd + pTx7.wireTime 8 12)) = true := by
  decide +kernel

theorem witness_CopiesGoOnTheWireAndLeave_2 :
    pTxG.dhState 8 0 = false ∧ pTxG.portState 8 = pUp ∧ (pTxG.port 8).wire = none ∧ (pTxG.port 8).fifo7 = [] ∧ (pTxG.port 8).remainder = none ∧
  pTxG.firstFree 8 (pTxG.port 8).fifoG = some (txc 3) ∧ pTxG.mayStart (txc 3) (max pTxG.time.now ((pTxG.port 8).lastEnd + pTxG.wireTime 8 12)) = true := by
  decide +kernel

theorem witness_CopiesGoOnTheWireAndLeave_3 :
    (pWire.port 8).wire = some (txc 3) ∧ pWire.copySent (txc 3).copy = true ∧ (pWire.port 8).ctlWait = [] ∧ (pTx7.port 8).ctlWait = [] ∧ (pTxG.port 8).ctlWait = [] ∧
  pTxG.flag F.MAC_STATUS.safe 8 = false ∧ pTxG.flag F.MAC_STATUS.rem_fault 8 = false := by
  decide +kernel

def bts (n : Nat) : List Byte := List.replicate n 0x11

def pRx : State := put 1 (128 + 8 * 8 + 6) 1518 pUpS

def frx : Frame := { port := 8, owner := 16, group := 0, express := false, tag := 0, pre := 0, bytes := bts 10, len := 10 }

def pAl : State := { (put 7 8 4000 (put 7 6 1 (put 7 4 1 (put 7 2 1 (put 7 0 1 pRx))))).fset F.BPM_PORT.ing_limit 0 8 4000 with
  frames := [(1, frx), (2, { frx with len := 100, bytes := bts 100, ended := true })] }

def pMmA : State := (put 7 8 4000 (put 7 6 1 (put 7 4 1 (put 7 2 1 (put 7 0 1 ((put 1 (128 + 8 * 8 + 6) 1518 (withPort 8 (2 ^ 12 + 2 ^ 13 + 2 ^ 16) pUp up)).fset F.MAC_MM.en 8 0 1)))))).fset F.BPM_PORT.ing_limit 0 8 4000

theorem witness_FramesAreReceivedIntoTheirPath :
    pRx.portState 8 = pUp ∧ halfAt (bts 100) 12 ≠ 0x8808 ∧ pRx.rxFrame 8 false = none ∧ (bts 100).length ≤ pRx.maxFrame pRx.tagNow 8 := by
  decide +kernel

theorem pick_one (s : State) (p : Nat) (h : s.poolCount p = 1) (hb : s.buf (p * 2 ^ 32) = none) (hw : s.flt.withdrawn = []) :
  s.pickBuf p = some (p * 2 ^ 32) := by
  have k : p * 2 ^ 32 + s.freeNat 32 % 1 * s.poolSize p = p * 2 ^ 32 := by rw [Nat.mod_one, Nat.zero_mul, Nat.add_zero]
  unfold State.pickBuf
  rw [h, if_neg (by decide)]
  unfold State.freeFrom
  simp only [k, hb, hw]
  rfl

theorem witness_FramesAreReceivedIntoTheirPath_alloc :
  pAl.frame 1 = some frx ∧ 256 ≤ frx.len + (bts 300).length ∧ frx.len + (bts 300).length ≤ pAl.maxFrame frx.tag frx.port ∧
  pAl.pickBuf (poolFor (pAl.ruleLength frx.tag frx.port (frx.bytes ++ bts 300))) = some (poolFor (pAl.ruleLength frx.tag frx.port (frx.bytes ++ bts 300)) * 2 ^ 32) ∧
  pAl.admitFrame { frx with bytes := frx.bytes ++ bts 300, len := 310 } (poolCharge (poolFor (pAl.ruleLength frx.tag frx.port (frx.bytes ++ bts 300)))) = some (.ingGen 8) ∧
  310 ≤ pAl.bufSizeOf (poolFor (pAl.ruleLength frx.tag frx.port (frx.bytes ++ bts 300)) * 2 ^ 32) := by
  refine ⟨by decide +kernel, by decide +kernel, by decide +kernel, pick_one _ _ ?_ ?_ ?_, ?_, ?_⟩ <;> decide +kernel

theorem witness_FramesAreReceivedIntoTheirPath_ended :
  (pAl.frame 2).any (fun f => f.ended && !f.alloc && !f.failed && f.injected.isNone && f.len = 100) = true ∧
  pAl.pickBuf (poolFor 100) = some (poolFor 100 * 2 ^ 32) ∧
  pAl.admitFrame { frx with len := 100, bytes := bts 100, ended := true } (poolCharge (poolFor 100)) = some (.ingGen 8) ∧
  100 ≤ pAl.bufSizeOf (poolFor 100 * 2 ^ 32) := by
  refine ⟨by decide +kernel, pick_one _ _ ?_ ?_ ?_, ?_, ?_⟩ <;> decide +kernel

theorem pick_free (s : State) (p n : Nat) (h : s.poolCount p = 1) (hb : s.buf (p * 2 ^ 32) = none) (hw : s.flt.withdrawn = []) :
  ({ s with free := n } : State).pickBuf p = some (p * 2 ^ 32) := pick_one { s with free := n } p h hb hw

theorem witness_FramesAreReceivedIntoTheirPath_preemptable :
  pMmA.portState 8 = pUp ∧ pMmA.mmOn 8 = true ∧ pMmA.rxFrame 8 true = none ∧ (bts 100).length ≤ pMmA.maxFrame pMmA.tagNow 8 ∧
  (∀ n, ({ pMmA with free := n } : State).pickBuf (poolFor (pMmA.ruleLength 0 8 (bts 100))) = some (poolFor (pMmA.ruleLength 0 8 (bts 100)) * 2 ^ 32)) ∧
  (pMmA.admitFrame { frx with owner := pMmA.portHolder 8, bytes := [], len := 0, pmac := true, pre := pMmA.preClass 0 8 (bts 100) } (poolCharge (poolFor (pMmA.ruleLength 0 8 (bts 100))))).isSome = true := by
  refine ⟨by decide +kernel, by decide +kernel, by decide +kernel, by decide +kernel, fun n => pick_free _ _ n ?_ ?_ ?_, ?_⟩ <;> decide +kernel

def pRcv : State := { pRx.modPort 8 (fun p => { p with rxNow := some 1, reasm := some 1 }) with frames := [(1, { frx with alloc := true, handle := 2 ^ 32 })] }

def pMm : State := ((put 1 (128 + 8 * 8 + 6) 1518 (withPort 8 (2 ^ 12 + 2 ^ 13 + 2 ^ 16) pUp up)).fset F.MAC_MM.en 8 0 1)

def pMmR : State := { pMm.modPort 8 (fun p => { p with reasm := some 1, fragCount := 3 }) with frames := [(1, { frx with alloc := true, handle := 2 ^ 32 })] }

def pMmP : State := { pMmR with frames := [(1, { frx with alloc := true, handle := 2 ^ 32, pmac := true })] }

theorem witness_FrameEndsAndFragmentsAreCounted_1 :
    pRcv.rxFrame 8 false = some 1 ∧ pRcv.frame 1 = some { frx with alloc := true, handle := 2 ^ 32 } ∧ 64 ≤ frx.len + (bts 60).length ∧
  frx.len + (bts 60).length ≤ pRcv.maxFrame 0 8 ∧ frx.len + (bts 60).length ≤ pRcv.bufSizeOf (2 ^ 32) := by
  decide +kernel

theorem witness_FrameEndsAndFragmentsAreCounted_2 :
    pMmP.rxFrame 8 true = some 1 ∧ pMmP.frame 1 = some { frx with alloc := true, handle := 2 ^ 32, pmac := true } ∧ frx.len + (bts 60).length ≤ pMmP.maxFrame 0 8 := by
  decide +kernel

theorem witness_FrameEndsAndFragmentsAreCounted_3 :
    pMm.portState 8 = pUp ∧ pMm.mmOn 8 = true ∧ (pMm.port 8).reasm = none := by
  decide +kernel

theorem witness_FrameEndsAndFragmentsAreCounted_4 :
    pMmR.mmOn 8 = true ∧ (pMmR.port 8).reasm = some 1 ∧ pMmR.frame 1 = some { frx with alloc := true, handle := 2 ^ 32 } ∧ 60 ≤ (bts 60).length ∧
  frx.len + (bts 60).length ≤ pMmR.maxFrame 0 8 ∧ frx.len + (bts 60).length ≤ pMmR.bufSizeOf (2 ^ 32) := by
  decide +kernel

def gSl (n st : Nat) (s : State) : State := s.fset F.SPR_SLICE.state 1 n st

def gMark : State := ((List.range 13).foldl (fun s n => gSl n (if n < 2 then slActive else slAsleep) s) up).fset F.SPR_CTL.wake_mark 1 0 200

def gWak : State := gSl 3 slWaking gMark

def gDra : State := gSl 3 slDraining gMark

def gSlow : State := ((gMark.fset F.SPR_SLICE.slow 1 3 1).fset F.SPR_SLICE.slowness 1 3 9).modSlice 1 3 fun q => { q with marked := true }

theorem witness_SlicesWakeAndSleep_1 :
    gMark.belowMark 1 = true ∧ gMark.slicesIn 1 slAsleep = [2, 3, 4, 5, 6, 7, 8, 9, 10, 11, 12] ∧ gMark.upSlices 1 < gMark.maxSlices 1 ∧
  gWak.sliceState 1 3 = slWaking ∧ gWak.flt.promos = [] := by
  decide +kernel

theorem witness_SlicesWakeAndSleep_2 :
    gDra.sliceState 1 3 = slDraining ∧ (gDra.slice 1 3).fifoE = [] ∧ (gDra.slice 1 3).fifoG = [] ∧ (gDra.slice 1 3).pipe = [] ∧ (gDra.slice 1 3).drainTo ≠ slBench := by
  decide +kernel

def fJob (x : Bool) : Frame := { frm with group := 1, alloc := true, express := x, handle := 2 ^ 32 }

def gJob (x : Bool) : State := { gMark with frames := [(1, fJob x)], seqs := [(6, 16383)] }

def gWait (x : Bool) : State := (gJob x).modGroup 1 fun q => if x then { q with waitE := [1] } else { q with waitG := [1] }

def gFifo (x : Bool) : State := (gJob x).modSlice 1 0 fun q => if x then { q with fifoE := [1, 2], fifoG := [3] } else { q with fifoG := [1, 2] }

def resOf (k d : Nat) : Result := { kind := k, dest := d, tenant := 16 }

def gStore : State := { gMark with frames := [(1, { fJob false with result := some (resOf 3 1), hand := some 0 })] } |>.modGroup 1 fun q => { q with store := [1] }

theorem witness_JobsAreHandedOverInOrder_1 :
    (gJob true).frame 1 = some (fJob true) ∧ (fJob true).hand = none ∧ (fJob true).alloc = true ∧ 1 ∉ ((gJob true).group 1).inject ∧ ((gJob true).storeOf 1 true).length < 1024 := by
  decide +kernel

theorem witness_JobsAreHandedOverInOrder_2 :
    (gJob false).frame 1 = some (fJob false) ∧ ((gJob false).storeOf 1 false).length < 15360 := by
  decide +kernel

theorem witness_JobsAreHandedOverInOrder_3 :
    ((gWait false).group 1).waitE = [] ∧ ((gWait false).group 1).waitG = [1] ∧ (gWait false).pickSlice 1 false = some (0, false) ∧ (gWait false).frame 1 = some (fJob false) := by
  decide +kernel

theorem witness_JobsAreHandedOverInOrder_4 :
    ((gWait true).group 1).waitE = [1] ∧ ((gWait true).group 1).waitG = [] ∧ (gWait true).pickSlice 1 true = some (0, false) ∧ (gWait true).frame 1 = some (fJob true) := by
  decide +kernel

theorem witness_JobsAreHandedOverInOrder_5 :
    (gFifo true).sliceState 1 0 = slActive ∧ ((gFifo true).slice 1 0).fifoE = [1, 2] ∧ ((gFifo false).slice 1 0).fifoE = [] ∧ ((gFifo false).slice 1 0).fifoG = [1, 2] := by
  decide +kernel

theorem witness_JobsAreHandedOverInOrder_6 :
    (gStore.group 1).copyFifo.length < 256 ∧ (gStore.group 1).store = [1] ∧ gStore.releasable 1 1 = true := by
  decide +kernel

def gPipe (inStore : Bool) : State := { ((gMark.fset F.PRS_TEN.nomatch_punt 16 0 0).modSlice 1 0 fun q => { q with pipe := [1, 2] }) with frames := [(1, fJob false)] } |>.modGroup 1 fun q => { q with store := if inStore then [1] else [] }

theorem witness_SlicesDecideResults_1 :
    ((gPipe true).slice 1 0).pipe = [1, 2] ∧ (gPipe true).frame 1 = some (fJob false) ∧ 1 ∈ ((gPipe true).group 1).store ∧ (fJob false).lldp = false ∧
  (gPipe true).time.cycles - (fJob false).took.getD (gPipe true).time.cycles ≤ max 352 ((gPipe true).fget F.SPR_SLOW.mark 1) ∧
  (gPipe true).selectProfile 0 ((gPipe true).frameTenant (fJob false)) 3 0 (fJob false).bytes = none ∧
  (gPipe true).flag F.PRS_TEN.nomatch_punt ((gPipe true).frameTenant (fJob false)) = false := by
  decide +kernel

theorem witness_SlicesDecideResults_2 :
    ((gPipe false).slice 1 0).pipe = [1, 2] ∧ 1 ∉ ((gPipe false).group 1).store ∧ (fJob false).result = none := by
  decide +kernel

def gRel (k : Nat) : State := { (put 7 9 4000 (withPort 8 (2 ^ 12 + 2 ^ 13) pUp gMark)) with
  frames := [(1, { fJob false with result := some (resOf k 8) })] } |>.modGroup 1 fun q => { q with released := [1] }

def gUni : State := put 8 (2 ^ 27) 0 (gRel 0)

def gMc : State := (gRel 1)

def gCopy : State := { gRel 1 with frames := [(1, { fJob false with result := some (resOf 1 8) }), (2, { fJob true with result := some (resOf 1 8) })] } |>.modGroup 1 fun q => { q with copyFifo := [1, 2] }

def mcS (kind dest : Nat) : State := { ((put 4 2 100 (put 4 0 20 (put 2 (28 * 16 + 21) (2 ^ 22 + 8 * 2 ^ 11 + 8) (put 2 (28 * 16 + 22) (2 ^ 22 + 2 ^ 11 + 1) (gRel 0))))).setPlane 16 0
    { (put 4 2 100 (put 4 0 20 (put 2 (28 * 16 + 21) (2 ^ 22 + 8 * 2 ^ 11 + 8) (put 2 (28 * 16 + 22) (2 ^ 22 + 2 ^ 11 + 1) (gRel 0))))).plane 16 0 with present := [4] }) with
  tbl := { gMark.tbl with units := [(5, 2 ^ 35 + 7)] }
  frames := [(1, { fJob false with result := some (resOf kind dest) }), (2, { fJob true with result := some (resOf kind dest) })] } |>.modGroup 1 fun q => { q with copyFifo := [1, 2], released := [] }

theorem witness_SwitchTakesReleasedResults_1 :
    (gRel 3).group 1 = { (gRel 3).group 1 with released := [1] } ∧ (gRel 3).frame 1 = some { fJob false with result := some (resOf 3 8) } ∧
  (fJob false).failed = false ∧ (resOf 3 8).kind = 3 ∧ ((gRel 3).group 1).copyFifo = [] := by
  decide +kernel

theorem witness_SwitchTakesReleasedResults_2 :
    (gMc.group 1).released = [1] ∧ (gMc.group 1).copyFifo = [] ∧ gMc.needsEngine (fJob false) (resOf 1 8) = true ∧ gMc.buf (fJob false).handle = none := by
  decide +kernel

theorem witness_SwitchTakesReleasedResults_3 :
    (gUni.group 1).released = [1] ∧ gUni.buf (fJob false).handle = none ∧ gUni.needsEngine (fJob false) (resOf 0 8) = false ∧
  gUni.enqueueCheck (copyFor 1 { fJob false with result := some (resOf 0 8) } (resOf 0 8) 8 0 0 0) 16 = 0 := by
  decide +kernel

theorem witness_SwitchTakesReleasedResults_4 :
    (gCopy.group 1).copyFifo = [1] ++ 2 :: [] ∧ (gCopy.frame 1).any (fun f => !f.express && f.result.isSome) = true ∧ (gCopy.frame 2).any (fun f => f.express && f.result.isSome && !f.failed) = true := by
  decide +kernel

theorem witness_SwitchTakesReleasedResults_5 :
    ((mcS 0 8).group 1).copyFifo = [1] ++ 2 :: [] ∧ (mcS 0 8).frame 2 = some { fJob true with result := some (resOf 0 8) } ∧
  (mcS 0 8).enqueueCheck (copyFor 2 { fJob true with result := some (resOf 0 8) } (resOf 0 8) 8 0 0 0) 16 = 0 := by
  decide +kernel

theorem witness_SwitchTakesReleasedResults_6 :
    (mcS 1 5).groupList 1 (fJob true).tag 16 5 = some (2 ^ 35 + 7, [0]) ∧ bit (2 ^ 35 + 7) 35 = true := by
  decide +kernel

def q0 : Nat := 8 * 128

def cpyQ (c : Nat) : Copy := { cpy c with handle := 2 ^ 32, len := 64 }

def recQ : DeepRec := { copy := cpyQ 0, bytes := bts 64, block := 5, off := 0, staged := false }

def dBase : State := put 2 (28 * 16 + 17) 4000 (put 7 6 1 (put 7 4 1 (put 7 2 1 (put 7 0 1 (put 7 9 4000 up)))))

def dPend : State := { dBase with
  frames := [(1, frm)]
  queues := [(q0, { isDeep := true, pend := [cpyQ 0, { cpyQ 0 with id := 6 }], staging := some (3 * 2 ^ 32), blocks := [5], woff := 512 })]
  bufs := [(2 ^ 32, { count := 2, tag := 8, part := 16, acct := .none }), (3 * 2 ^ 32, { count := 1, tag := 0xA61, part := 16, acct := .none })] }

def dFlush : State := { dPend with queues := [(q0, { isDeep := true, staging := some (3 * 2 ^ 32), blocks := [5], woff := 300, deep := [recQ] })] }

def dRef : State := { dPend with queues := [(q0, { isDeep := true, blocks := [5], woff := 512, deep := [recQ] })] }

def recH : DeepRec := { recQ with header := recordHeader (cpyQ 0) q0 64 }

def dRead : State := { dBase with queues := [(q0, { isDeep := true, reading := true, blocks := [5], woff := 512, deep := [recH], asked := [(5, 0), (5, 1)] })] }

def dStg : State := { dBase with queues := [(q0, { isDeep := true, reading := true, blocks := [5], woff := 100, deep := [{ recQ with staged := true }], staging := some (3 * 2 ^ 32) })] }

def dNew : State := { ((List.range 32).foldl (fun s p => (s.fset F.HBC_PC.state 0 p (if p = 31 then 1 else 0)).fset F.HBC_PC.logical 0 p p) (put 2 (28 * 16 + 19) 100 dPend)).fset F.HBC_STACK.state 0 0 1 with
  queues := [(q0, { isDeep := true, pend := [cpyQ 0], staging := some (3 * 2 ^ 32), blocks := [], woff := 65536 })] }

def hFl : State := { dNew with queues := dFlush.queues.map fun e => (e.1, { e.2 with blocks := [4] }) }

theorem witness_DeepQueuesWriteAndReadBack_1 :
    tabWf {} dRead.queues = true ∧ recH.headerOk = true ∧ recH.lines = (0, 1) ∧ dRead.lineWaits false q0 5 0 = false ∧ inStaging (dStg.queue q0) { recQ with staged := true } = true ∧ tabWf {} dStg.queues = true := by
  decide +kernel

theorem witness_DeepQueuesWriteAndReadBack_2 :
    dPend.copyWhole (cpyQ 0) = true ∧ (dPend.frame 1).any (fun f => !f.failed) = true ∧ 512 + recordSize (dPend.storedLen (cpyQ 0)) ≤ 65536 := by
  decide +kernel

theorem witness_DeepQueuesWriteAndReadBack_3 :
    tabWf {} dPend.queues = true ∧ dPend.writeRoom q0 = true ∧ (dPend.queue q0).staging = some (3 * 2 ^ 32) ∧ (dPend.queue q0).woff = 512 := by
  decide +kernel

theorem witness_DeepQueuesWriteAndReadBack_4 :
    tabWf {} dNew.queues = true ∧ dNew.writeRoom q0 = true ∧ (dNew.queue q0).blocks = [] ∧ (dNew.queue q0).woff = 65536 ∧ dNew.copyWhole (cpyQ 0) = true ∧
  dNew.deepUse 0 (dNew.queuePart q0 (cpyQ 0)) < bits (dNew.partWordT 0 (dNew.queuePart q0 (cpyQ 0)) 19) 20 0 := by
  decide +kernel

theorem witness_DeepQueuesWriteAndReadBack_5 :
    (dFlush.queue q0).woff % 256 ≠ 0 ∧ hFl.blockPc ((hFl.queue q0).blocks.getLastD 0) = some 1 ∧ (hFl.reqs true 1).length < 64 ∧ hFl.late true 1 = [] := by
  decide +kernel

theorem witness_DeepQueuesWriteAndReadBack_6 :
    dRef.copiesBytes (dRef.queue q0).head < dRef.queueRefill recQ.copy.tag (q0 / 128) (q0 / 8 % 16) (q0 % 8) ∧ (dRef.queue q0).isDeep = true := by
  decide +kernel

theorem freeBlock_first (s : State) (h lp n k : Nat) (hq : ∀ e ∈ s.queues, e.2.blocks = []) (hp : ∀ i ∈ List.range 12, s.poolBlocks (4 + i) = (0, 0)) :
  s.freeBlock h lp (n + 1) k = some (blockAt h lp (k % 12288)) := by
  have h1 : s.blockHeld (blockAt h lp (k % 12288)) = false := by
    simp only [State.blockHeld, List.any_eq_false]
    intro e he
    simp [hq e he]
  have h2 : s.inPool (blockAt h lp (k % 12288)) = false := by
    simp only [State.inPool, List.any_eq_false]
    intro i hi
    simp [hp i hi]
  simp [State.freeBlock, h1, h2]

theorem witness_DeepQueuesWriteAndReadBack_block : dNew.takeBlock.isSome = true := by
  have h1 : nextIn 4 dNew.hbm.rot (fun h => dNew.fget F.HBC_STACK.state h = 1 && (List.range 31).any fun lp => dNew.pcOpen h lp && decide (0 < dNew.pcFree h lp)) = some 0 := by
    decide +kernel
  have h2 : nextIn 31 (tabGet 30 dNew.hbm.pcRot 0) (fun lp => dNew.pcOpen 0 lp && decide (0 < dNew.pcFree 0 lp)) = some 0 := by decide +kernel
  have h3 := freeBlock_first dNew 0 0 12287 (dNew.freeNat 14) (by decide +kernel) (by decide +kernel)
  simp only [State.takeBlock, h1, h2, h3]
  rfl

theorem witness_DeepQueuesWriteAndReadBack_return : dRead.returnBuf q0 recH = some (0, .quota 16) := by
  have h1 := pick_one dRead (poolFor recH.bytes.length) (by decide +kernel) (by decide +kernel) (by decide +kernel)
  have h2 : dRead.admitPart recH.copy.tag (dRead.queuePart q0 recH.copy) (poolCharge (poolFor recH.bytes.length)) = some (.quota 16) := by decide +kernel
  simp only [State.returnBuf, h1, h2]
  decide +kernel

def hOpen : State := ((List.range 32).foldl (fun s p => (s.fset F.HBC_PC.state 0 p (if p = 31 then 1 else 0)).fset F.HBC_PC.logical 0 p p) up).fset F.HBC_STACK.state 0 0 1

def hRow : State := { up with hbm := { up.hbm with rows := [(64, 5), (67, 9), (70, 2)] } }

def hAsk : State := { hOpen with hbm := { up.hbm with rows := [(64, 5)], reads := [(1, [{ block := 4, line := 0, queue := none, since := 0 }])] } }

theorem witness_HbmRowsRefreshAndPower_1 :
    hRow.fget F.HBC_CFG.pd_idle ≠ 0 ∧ hRow.pcIdle 1 = true ∧ (∀ r ∈ hRow.reqs false 1 ++ hRow.reqs true 1, (hRow.reqRow 1 r).1 ≠ 67) := by
  decide +kernel

theorem witness_HbmRowsRefreshAndPower_2 :
    hAsk.reqs false 1 = [{ block := 4, line := 0, queue := none, since := 0 }] ∧ (hAsk.reqRow 1 { block := 4, line := 0, queue := none, since := 0 }).1 = 1 * 64 + 0 ∧
  hAsk.flag F.HBC_REFRESH.all_bank 0 = false := by
  decide +kernel

def hVis : State := { (hOpen.fset F.HBC_PC.state 0 31 2) with hbm := { up.hbm with visits := [{ stack := 0, src := 7, dst := 31 }] } }

def hTrain : State := hOpen.fset F.HBC_PC.state 0 7 4

def hRep : State := { hOpen with hbm := { up.hbm with repairing := [(0x903, 5 * 16384 + 77)] } }

def hDr : State := hOpen.fset F.HBC_PC.state 0 7 5

theorem witness_HbmRetrainsRepairsAndDrains_1 :
    hOpen.fget F.HBC_CFG.retrain ≠ 0 ∧ hOpen.fget F.HBC_STACK.state 0 = 1 ∧ hOpen.benchPc 0 = some 31 ∧ hOpen.hbmCopying 0 = false ∧
  tabFind hOpen.hbm.round 0 = none ∧ hOpen.fget F.HBC_PC.state 0 3 = 0 ∧ hOpen.fget F.HBC_PC.logical 0 3 < 31 := by
  decide +kernel

theorem witness_HbmRetrainsRepairsAndDrains_2 :
    hVis.flt.promos = [] ∧ (hVis.hbm.visits.find? fun v => decide (v.stack = 0)) = some { stack := 0, src := 7, dst := 31 } := by
  decide +kernel

theorem witness_HbmRetrainsRepairsAndDrains_3 :
    ((List.range 32).find? fun p => decide (hTrain.fget F.HBC_PC.state 0 p = 4)) = some 7 := by
  decide +kernel

theorem witness_HbmRetrainsRepairsAndDrains_4 :
    (hRep.hbm.repairing.find? fun e => decide (e.1 = 0x903)) = some (0x903, 5 * 16384 + 77) ∧ tabGet 0 hRep.hbm.repairs ((5 * 16384 + 77) / 16384) < 14 := by
  decide +kernel

theorem witness_HbmRetrainsRepairsAndDrains_5 :
    hDr.fget F.HBC_PC.state ((0x907 - 0x900) / 32) ((0x907 - 0x900) % 32) = 5 ∧ hDr.queues = [] := by
  decide +kernel

theorem witness_HbmRetrainsRepairsAndDrains_6 :
    hOpen.frozen = false := by
  decide +kernel

def iw (op base off rest : Nat) : Nat := op * 2 ^ 28 + base * 2 ^ 25 + off * 2 ^ 17 + rest

def edt (w : List Nat) : Edit := { copy := { cpy 3 with md := 0xABCD1234, cls := 5, edit := 4 }, head := (List.range 80).map fun i => BitVec.ofNat 8 (i + 1), orig := 80, total := 84, l3 := 14, l4 := 34, l5 := 42, prog := w }

def lib : State := put 11 150000 1 up

def eng (w : List Nat) : State := { lib with engines := [(2 * 32 + 3, { run := some (edt w) })] }

def edtV4 (w : List Nat) (ttl : Nat) : Edit := { edt w with head := (List.range 12).map (fun i => BitVec.ofNat 8 i) ++ [8, 0] ++ [0x45, 0, 0, 60, 0, 1, 0, 0, BitVec.ofNat 8 ttl, 17, 0x12, 0x34] ++ (List.range 54).map fun i => BitVec.ofNat 8 i }

def edtV6 (w : List Nat) : Edit := { edt w with head := (List.range 12).map (fun i => BitVec.ofNat 8 i) ++ [0x86, 0xDD] ++ [0x61, 0x23, 0, 60, 0, 1, 17, 9] ++ (List.range 58).map fun i => BitVec.ofNat 8 i }

def edtTag (w : List Nat) : Edit := { edt w with head := (List.range 12).map (fun i => BitVec.ofNat 8 i) ++ [0x81, 0, 0x61, 0x23] ++ (List.range 64).map fun i => BitVec.ofNat 8 i }

def engOf (x : Edit) : State := { lib with engines := [(2 * 32 + 3, { run := some x })] }

def okEdit (w : List Nat) (op : Nat) : Bool :=
  let r := edt w
  !editReserved r && editOp r = op && !baseAbsent r (bits (editWord r) 27 25) && decide (r.head.length ≤ r.orig + 128) && !r.ended &&
    decide (r.p ≤ baseVal r (bits (editWord r) 27 25) + bits (editWord r) 24 17) &&
    !(eng w).moverStalls r (baseVal r (bits (editWord r) 27 25) + bits (editWord r) 24 17)

def wIns : List Nat := [iw 1 1 2 (5 * 2 ^ 11 + 2 ^ 9), 0x11223344, 0x55667788]

def wDel : List Nat := [iw 2 1 2 (5 * 2 ^ 9)]

def wRep : List Nat := [iw 3 1 2 (3 * 2 ^ 11 + 2 * 2 ^ 9)]

def wCopy : List Nat := [iw 5 1 2 (5 * 2 ^ 11), iw 0 2 1 0]

def wPush : List Nat := [iw 8 0 12 (1 * 2 ^ 15)]

def wPop : List Nat := [iw 9 0 12 0]

def hd (t : State) : List Byte := ((t.eng 2 3).run.map (·.head)).getD []

def rr (t : State) : Edit := (t.eng 2 3).run.getD (edt [])

def h80 : List Byte := (List.range 80).map fun i => BitVec.ofNat 8 (i + 1)

theorem witness_EditsInsertAndDelete :
    okEdit wIns 1 = true ∧ okEdit wDel 2 = true ∧ okEdit wRep 3 = true ∧ okEdit wCopy 5 = true ∧ okEdit wPush 8 = true ∧ okEdit wPop 9 = true ∧
  baseAbsent (edt wCopy) (bits (dataWord (edt wCopy) 0) 27 25) = false ∧ (eng wIns).eng 2 3 = { run := some (edt wIns) } ∧ bits (editWord (edt wPush)) 14 13 = 0 ∧ bit (editWord (edt wPush)) 12 = false ∧
  (eng wIns).libraryIn (edt wIns).bank = true ∧ (eng wIns).rwFenced = [] := by
  decide +kernel

def wSet : List Nat := [iw 4 1 2 (10 * 2 ^ 12 + 3 * 2 ^ 9 + 2 ^ 7), 0x5A5]

def wCs1 : List Nat := [iw 6 2 6 (2 ^ 15)]

def wCs0 : List Nat := [iw 6 1 10 0]

def wPcp : List Nat := [iw 10 0 12 (2 ^ 16), 0o76543210]

def wTtl : List Nat := [iw 7 0 0 0]

def wDscp : List Nat := [iw 11 0 0 (0x2B * 2 ^ 11)]

def okE (r : Edit) (op : Nat) : Bool := !editReserved r && editOp r = op && decide (r.head.length ≤ r.orig + 128) && !r.ended

theorem witness_EditsChangeFields_1 :
    okEdit wSet 4 = true ∧ okEdit wCs1 6 = true ∧ okE (edtV4 wCs0 9) 6 = true ∧ 3 + (headNum (edtV4 wCs0 9) 14 1 % 16 + 1) / 2 ≤ max 8 (lib.fget F.RWE_CFG.instr_max) ∧
  okE (edtTag wPcp) 10 = true ∧ editTpid (headNum (edtTag wPcp) 12 2) = true := by
  decide +kernel

theorem witness_EditsChangeFields_2 :
    okE (edtV4 wTtl 9) 7 = true ∧ isV4 (edtV4 wTtl 9) = true ∧ headNum (edtV4 wTtl 9) 22 1 = 9 ∧ headNum (edtV4 wTtl 0) 22 1 = 0 ∧ isV4 (edtV6 wTtl) = false ∧
  isV6 (edtV6 wTtl) = true ∧ okE (edtV4 wDscp 9) 11 = true ∧ okE (edtV6 wDscp) 11 = true := by
  decide +kernel

def wCf : List Nat := [iw 12 0 0 0]

def wTs : List Nat := [iw 13 3 2 0]

def wNop : List Nat := [iw 14 0 0 0]

def wOwn : List Nat := [iw 0x80 0 0 0]

def wRes : List Nat := [iw 1 7 0 0]

def wOp : List Nat := [iw 0x0F 0 0 0]

def own : State := put 11 8192 (3 * 2 ^ 16) (eng wOwn)

def nopOwn : State := put 11 0x0E (3 * 2 ^ 16) { up with engines := [(2 * 32 + 3, { run := some (edt wNop) })] }

def far : Edit := { edt wTs with head := List.replicate 250 1, orig := 250, l3 := 100, l4 := 140, l5 := 160, copy := { cpy 3 with md := 0 } }

def dropTest (t : State) : Bool := (t.eng 2 3).run.isNone && t.flag F.RWE_ERR.prog_err 2 && decide (t.fget F.RWE_CNT.count 2 2 = 1)

theorem witness_EditsForTheMacAndTheOwner_1 :
    okEdit wCf 12 = true ∧ (edt wCf).l5 + 16 ≤ (edt wCf).head.length ∧ okEdit wTs 13 = true ∧ okEdit wNop 14 = true ∧ 0x80 ≤ editOp (edt wOwn) ∧
  editReserved (edt wRes) = true ∧ editOp (edt wRes) = 1 ∧ 0x0F ≤ editOp (edt wOp) ∧ editOp (edt wOp) < 0x80 := by
  decide +kernel

theorem witness_EditsForTheMacAndTheOwner_2 :
    (own.runOwner 2 (edt wOwn)).code = 0 ∧ own.moverStalls (edt wOwn) (own.runOwner 2 (edt wOwn)).edit.p = false ∧ nopOwn.libraryIn 0 = false ∧
  (nopOwn.runEntry 2 0x0E (edt wNop)).code = 0 ∧ nopOwn.moverStalls (edt wNop) (nopOwn.runEntry 2 0x0E (edt wNop)).edit.p = false := by
  decide +kernel

theorem witness_EditsForTheMacAndTheOwner_3 :
    editReserved (edt [iw 12 0 0 (3 * 2 ^ 15)]) = true ∧ (eng []).moverStalls (edt []) (edt []).p = false ∧ baseAbsent (edt wRes) 7 = false := by
  decide +kernel

theorem witness_EditsForTheMacAndTheOwner_4 :
    far.prog = wTs ∧ editReserved far = false ∧ baseAbsent far 3 = false ∧ (engOf far).moverStalls far 162 = true ∧ baseVal far 3 + 2 = 162 := by
  decide +kernel

def clu (l : List Copy) : State := { up with clusters := [(2, { input := l })] }

def wt7 : State := { up with engines := [(2 * 32 + 3, { run := some (edt []), wait7 := some (cpy 7), stalledAt := some 0 })] }

def wtS : State := { up with engines := [(2 * 32 + 3, { wait := some (cpyQ 3) })], frames := [(1, frm)] }

def ePort : State := (engOf (edt [])).modPort 8 fun p => { p with orderG := [5] }

def ePort0 : State := (withPort 8 (2 ^ 12 + 8) pUp ePort)

def eStall : State := { ePort0 with engines := [(2 * 32 + 3, { run := some { edt [] with ended := true }, stalledAt := some 0 })] }

def eMid : State := { ePort0 with engines := [(2 * 32 + 3, { run := some { edt wNop with waits := 20 }, stalledAt := some 0 })] }

theorem witness_EnginesTakeCopiesAndHandThemOver_1 :
    (((tabGet {} (clu [cpy 3, cpy 7]).clusters 2).input.find? fun y => decide (y.qclass = 7)) = some (cpy 7)) ∧ (clu [cpy 3, cpy 7]).engine7 2 = some 0 ∧
  (clu [cpy 3]).engineG 2 = some 0 := by
  decide +kernel

theorem witness_EnginesTakeCopiesAndHandThemOver_2 :
    (wt7.eng 2 3).wait7 = some (cpy 7) ∧ (wt7.eng 2 3).stalledAt = some 0 ∧ wt7.engine7 2 = some 0 := by
  decide +kernel

theorem witness_EnginesTakeCopiesAndHandThemOver_3 :
    (wtS.eng 2 3).run = none ∧ (wtS.eng 2 3).due = 0 ∧ (wtS.eng 2 3).wait7 = none ∧ (wtS.eng 2 3).wait = some (cpyQ 3) := by
  decide +kernel

theorem witness_EnginesTakeCopiesAndHandThemOver_4 :
    eMid.moverStalls { edt wNop with waits := 20 } 20 = false ∧ eMid.libraryIn 0 = true := by
  decide +kernel

theorem witness_EnginesTakeCopiesAndHandThemOver_5 :
    editOp (edt []) = 0 ∧ ePort0.fget F.RWE_ENG.state 2 3 ≠ 2 ∧ ePort0.mayEnter (edt []) = true ∧ (engOf (edt [])).mayEnter (edt []) = false ∧
  eStall.mayEnter { edt [] with ended := true } = true := by
  decide +kernel

def eDue : State := { up with engines := [(2 * 32 + 3, { run := some (edt []), stalledAt := some 0, due := 2 })] }

def manual (s : State) : State := s.setPlane 16 0 ((s.plane 16 0).putReg .FLT_POLICY 0 0 0)

def eSlow : State := up.fset F.RWE_ENG.slow 2 3 1

def eFen : State := { up with rwFenced := [(2, storeKey 0 1 16 77)] }

theorem witness_EngineFaultsAndRepairs :
    eDue.fget F.RWE_ENG.state 2 3 = 0 ∧ (manual up).autoKind 2 = false ∧ eSlow.flag F.RWE_ENG.slow 2 3 = true ∧ mergeInto eSlow.flt.recs (engUnit 2 3) = none ∧ eSlow.slowToldOf (engUnit 2 3) = false ∧ eSlow.fget F.RWE_ENG.state 2 3 = 0 ∧
  eFen.wordFenced 2 (storeKey 0 1 16 77) = true ∧ eFen.wordFenced 1 (storeKey 0 1 16 77) = false := by
  decide +kernel

def preg (r : Reg) (c i v : Nat) (s : State) : State := s.setPlane 16 0 ((s.plane 16 0).putReg r c i v)

def shS : State := { preg .SCH_PORT_BURST 8 0 100 (preg .SCH_PORT 8 0 40000 up) with credits := [(8, 2530000)] }

def qS (c : Nat) : Nat := 8 * 128 + c

def selS (c : Nat) : State := { (withPort 8 (2 ^ 12 + 2 ^ 13 + 1) pUp up) with frames := [(1, frm)], queues := [(qS c, { head := [cpy c] })] }

def cutS : State := { ((preg .GTE_CTL 8 0 (2 ^ 35 + 1) (put 9 (8 * 256) 0 (pMm))).fset F.MAC_MM.active 8 0 1) with
  frames := [(1, { frm with len := 1000, known := 1000, bytes := List.replicate 1000 1 })], time := { up.time with now := 2 ^ 48 * 200000 } } |>.modPort 8 fun p => { p with wire := some { txc 3 with copy := { cpy 3 with len := 1000 }, start := 2 ^ 48 * 199900, orig := 60 } }

def holdS : State := { ((preg .GTE_CTL 8 0 (2 ^ 35 + 1) (put 9 (8 * 256) (2 ^ 34 + 0xFF * 2 ^ 26) (pMm))).fset F.MAC_MM.active 8 0 1) with
  frames := [(1, { frm with len := 1000, known := 1000, bytes := List.replicate 1000 1 })], time := { up.time with now := 2 ^ 48 * 200000 } } |>.modPort 8 fun p => { p with wire := some { txc 3 with copy := { cpy 3 with len := 1000 }, start := 2 ^ 48 * 199900, orig := 60 } }

def resS : State := { pMm with frames := [(1, frm)], time := { up.time with now := 2 ^ 48 * 2000 } } |>.modPort 8 fun p => { p with remainder := some (txc 3) }

theorem witness_ShapersGatesAndSelection_1 :
    8 ∈ shS.shapers ∧ shS.shRate 8 ≠ 0 := by
  decide +kernel

theorem witness_ShapersGatesAndSelection_2 :
    (selS 3).serving 8 = true ∧ (selS 3).copyWhole (cpy 3) = true ∧ (selS 3).neverFits (cpy 3) = false ∧ (selS 3).headEligible (cpy 3) = true ∧
  ((selS 3).port 8).remainder = none ∧ (selS 3).dhState 8 2 = false ∧ (selS 3).fifoRoom 8 3 = true ∧ (selS 3).noneWaits 8 3 = true ∧
  (selS 3).shAllows (shPort 8) = true ∧ (selS 3).shAllows (shSet 8 0) = true := by
  decide +kernel

theorem witness_ShapersGatesAndSelection_3 :
    (selS 7).serving 8 = true ∧ (selS 7).copyWhole (cpy 7) = true ∧ (selS 7).neverFits (cpy 7) = false ∧ (selS 7).headEligible (cpy 7) = true ∧
  (selS 7).fifoRoom 8 7 = true ∧ (selS 7).noneWaits 8 7 = true := by
  decide +kernel

theorem witness_ShapersGatesAndSelection_4 :
    (cutS.wireCuttable 8).any (fun x => cutS.holdRule x.copy && !cutS.gateOpen 8 x.copy.tag x.copy.qclass cutS.time.now && (cutS.cutPoint 8 x cutS.time.now false).isSome) = true := by
  decide +kernel

theorem witness_ShapersGatesAndSelection_5 :
    (holdS.wireCuttable 8).any (fun x => holdS.portHold 8 holdS.time.now && (holdS.cutPoint 8 x holdS.time.now true).isSome) = true := by
  decide +kernel

theorem witness_ShapersGatesAndSelection_6 :
    (resS.port 8).ctlWait = [] ∧ resS.portState 8 = pUp ∧ resS.flag F.MAC_STATUS.rem_fault 8 = false := by
  decide +kernel

theorem witness_ShapersGatesAndSelection_7 :
    (resS.port 8).wire = none ∧ (resS.port 8).remainder = some (txc 3) ∧ (resS.port 8).fifo7 = [] ∧
  resS.mayResume 8 (txc 3) (max resS.time.now ((resS.port 8).lastEnd + resS.wireTime 8 12)) = true := by
  decide +kernel

def bB (n tag : Nat) (q : Bool) : Buf := { count := n, tag := tag, part := 16, acct := .quota 16, quar := q }

def bS (n tag : Nat) (q : Bool) : State := { dBase with bufs := [(0, bB n tag q)] }

def bAl : State := put 7 0 1 dBase

theorem witness_BufferOperationsAnswer_1 :
    dBase.unitPart 3 = 16 ∧ dBase.poolExists 0 = true ∧ (dBase.admitPart dBase.tagNow 16 (poolCharge 0)).isSome = true ∧ (put 7 0 0 dBase).pickBuf 0 = none := by
  decide +kernel

theorem witness_BufferOperationsAnswer_2 :
    (bS 2 3 false).handleOk 0 = true ∧ (bS 2 3 false).buf 0 = some (bB 2 3 false) ∧ (bS 16382 3 false).buf 0 = some (bB 16382 3 false) ∧
  (bS 1 3 true).buf 0 = some (bB 1 3 true) ∧ (bS 1 3 true).handleOk 0 = true := by
  decide +kernel

theorem witness_BufferOperationsAnswer_pick : dBase.pickBuf 0 = some 0 := pick_one dBase 0 (by decide +kernel) (by decide +kernel) (by decide +kernel)

def tOpen (s : State) (f : Func) (r : Reg) (i c : Nat) : Bool := s.reachable f && decide (s.target f (slotOf r i) true = .reg r c i false)

def tPart (s : State) (f : Func) (r : Reg) (p i : Nat) : Bool := s.reachable f && decide (s.target f (partAddr f r p i / 8 * 8) true = .reg r p i false)

def watS : State := (up.wr .SWC_WATCH0 16 0 (BitVec.ofNat 72 (2 ^ 30 + 77))).wr .SWC_WATCH1 16 0 (BitVec.ofNat 72 88)

def hb (st : Nat) : State := (sel .HBC_SEL 0 hOpen).fset F.HBC_STACK.state 0 0 st

def unbS : State := { up.wr .PRS_IND_ADDR 16 0 (BitVec.ofNat 72 (4 * 2 ^ 33 + 3 * 2 ^ 26 + 5 * 2 ^ 16)) with blocked := [(773, 1)] }

def indS : State := (up.wr .RWE_IND_ADDR 16 0 (BitVec.ofNat 72 (77 * 2 ^ 14))).setScopeState 16 1

theorem witness_MemoryBlocksObeyTheirRegisters_1 :
    tPart up .pf .PRS_ADMIT 3 1 = true ∧ tPart up .pf .PRS_PUNT 16 2 = true ∧ tOpen up .pf .SWC_WATCH_CMD 0 16 = true ∧ bits (watS.rd .SWC_WATCH0 16).toNat 30 26 < 17 := by
  decide +kernel

theorem witness_MemoryBlocksObeyTheirRegisters_2 :
    tOpen (bS 1 3 true) .pf .BPM_INSPECT 0 16 = true ∧ tOpen (bS 1 3 true) .console .BPM_RECLAIM 0 17 = true := by
  decide +kernel

theorem witness_MemoryBlocksObeyTheirRegisters_3 :
    tOpen (hb 1) .pf .HBC_CTL 0 0 = true ∧ (hb 1).fget F.HBC_STACK.state 0 = 1 ∧ (hb 2).fget F.HBC_STACK.state 0 = 2 ∧ (hb 1).fget F.HBC_PC.state 0 3 = 0 ∧
  (hb 1).hbmCopying 0 = false ∧ (hb 1).benchPc 0 = some 31 ∧ tOpen (hb 1) .pf .HBC_BMASK 2 0 = true ∧ (hb 1).stackUsed 0 = false := by
  decide +kernel

theorem witness_MemoryBlocksObeyTheirRegisters_4 :
    tOpen unbS .pf .PRS_IND_DATA 0 0 = true ∧ unbS.prsInd .pf = some (4, 3, 0, 773) ∧ tOpen (sel .RWE_SEL 2 indS) .pf .RWE_IND_DATA 0 0 = true ∧
  (sel .RWE_SEL 2 indS).rweInd .pf = some (0, 16, 77, 77) ∧ indS.rwlOpen 16 = true ∧ indS.latchedBy 0 16 (indS.shadowOf 16) = none := by
  decide +kernel

def tcS : State := sel .TCM_SEL 3 up

def tcBusy : State := { tcS with tbl := { tcS.tbl with waiting := [{ issuer := .fn .pf, op := 1, part := 16 }, { issuer := .fn .pf, op := 1, part := 16, tcm := true }] } }

theorem witness_TableCommandsAreIssued_1 :
    tOpen up .pf .TBL_CMD 0 16 = true ∧ up.issuerBusy (.fn .pf) false = false ∧ up.power.entering = false ∧ tcBusy.issuerBusy (.fn .pf) false = true := by
  decide +kernel

theorem witness_TableCommandsAreIssued_2 :
    tOpen tcS .pf .TCM_CMD 0 16 = true ∧ tcS.issuerBusy (.fn .pf) true = false ∧ tcBusy.issuerBusy (.fn .pf) true = true := by
  decide +kernel

def wReq : TblReq := { issuer := .fn .pf, op := 8, part := 16, region := 2, value := 0, keys := [1, 2, 3, 4], seq := 9 }

def carved (s : State) : State := s.setPlane 16 0 { s.plane 16 0 with present := [4] }

def carS : State := carved <| put 4 2 100 (put 4 0 20 (put 2 (28 * 16 + 21) (2 ^ 22 + 8 * 2 ^ 11 + 8) (put 2 (28 * 16 + 22) (2 ^ 22 + 2 ^ 11 + 1) up)))

def tReq : TblReq := { issuer := .fn .pf, tcm := true, op := 3, part := 16, bank := 3, entry := 5, seq := 4 }

def accS (r : TblReq) : State := { carS with tbl := { carS.tbl with waiting := [r, r] } }

def opS (o : TblOp) : State := { carS with tbl := { carS.tbl with ops := [o] } }

def op1 : TblOp := { req := wReq, writes := [(400, 7), (401, 9)], moves := 2 }

def accT : State := accS { tReq with op := 1, bank := 3 } |> fun s => put 2 (28 * 16 + 20) (2 ^ 3) (s.setPlane 16 0 ((s.plane 16 0).putReg .TCM_BANK_CFG 3 0 (2 ^ 32)))

def rwS : State := { up with tbl := { up.tbl with bad := [(1, 100)] } }

def wrReq : TblReq := { tReq with op := 2, val := [1, 2, 3, 4], act := 77 }

theorem witness_TableEngineAcceptsAndCommits_1 :
    (accS wReq).repairsWait = false ∧ (accS wReq).nextPlan = some wReq ∧
  (let u : State := { accS wReq with tbl := { (accS wReq).tbl with waiting := dropFirst wReq (accS wReq).tbl.waiting, agerTurn := min 7 ((accS wReq).tbl.agerTurn + 1) } }; ((u.wakeRegion 16 wReq.kind).planTbl wReq).status) = 0 := by
  decide +kernel

theorem witness_TableEngineAcceptsAndCommits_2 :
    accT.nextPlan = some { tReq with op := 1, bank := 3 } ∧
  (let u : State := { accT with tbl := { accT.tbl with waiting := dropFirst { tReq with op := 1, bank := 3 } accT.tbl.waiting, agerTurn := min 7 (accT.tbl.agerTurn + 1) } }; (u.planTcm { tReq with op := 1, bank := 3 }).status) = 0 := by
  decide +kernel

theorem witness_TableEngineAcceptsAndCommits_3 :
    rwS.repairsWait = true ∧ (accS wReq).tbl.met = [] ∧ accT.tbl.met = [] := by
  decide +kernel

theorem witness_TableEngineAcceptsAndCommits_4 :
    (opS op1).tbl.ops = [op1] ∧ op1.req.tcm = false ∧ (opS { req := tReq }).tbl.ops = [{ req := tReq }] ∧ tReq.tcm = true := by
  decide +kernel

theorem witness_TableEngineAcceptsAndCommits_5 :
    wrReq.val.length = 4 * widthUnits (bits (accT.headerNow 3) 33 32) ∧ bit (accT.headerNow 3) 34 = false := by
  decide +kernel

def lrn (sink : Nat) : State := { ((up.fset F.TBL_LEARN.sink 3 0 sink).fset F.TBL_LEARN.queue 3 0 2) with learned := [(3, { code := 0x40, unit := 0, stamp := 0 })] }

def ageS (h : Nat) : State := { (carS.fset F.TBL_AGE.period 16 0 5) with tbl := { carS.tbl with units := [(4 * (1024 * 20 + 4) + 3, 2 ^ 35 + 2 ^ 32 + 77)], hits := if h = 0 then [] else [(1024 * 20 + 4, h)] } }

theorem witness_LearningAndAgeing_1 :
    (lrn 0).learned = [(3, { code := 0x40, unit := 0, stamp := 0 })] ∧ (lrn 0).fget F.TBL_LEARN.sink 3 = 0 ∧ (lrn 2).fget F.TBL_LEARN.sink 3 = 2 ∧
  (tabGet [] (lrn 2).events (3 * 16 + (lrn 2).fget F.TBL_LEARN.queue 3)).length < 256 := by
  decide +kernel

theorem witness_LearningAndAgeing_2 :
    (ageS 3).fget F.TBL_AGE.period 16 ≠ 0 ∧ (ageS 3).usedBuckets 16 = [1024 * 20 + 4] ∧ ((bucketEntries (ageS 3).tbl.units (1024 * 20 + 4)).map fun e => (e.off, bit e.ctl 34)) = [(0, false)] ∧
  tabGet 0 (ageS 3).tbl.hits (1024 * 20 + 4) ≠ 0 ∧ tabGet 0 (ageS 0).tbl.hits (1024 * 20 + 4) = 0 ∧ (ageS 0).fget F.TBL_LEARN.sink 16 = 0 := by
  decide +kernel

theorem witness_LearningAndAgeing_3 :
    (ageS 3).frozen = false ∧ (ageS 0).frozen = false ∧ up.frozen = false := by
  decide +kernel

def tcm0 : State := (List.range 32).foldl (fun s b => s.fset F.TCM_BANK.phys (64 + b) 0 b) up

def tRow (l : List (Nat × Nat × Nat)) : State := { tcm0 with tbl := { tcm0.tbl with tcmBad := l, tcm := [(3 * 1024 + 77, { valid := true }), (3 * 1024 + 38, { valid := true })] } }

def tPro : State := { tcm0 with flt := { tcm0.flt with promos := [{ kind := 1, unit := 0x243, spare := 0x260, reason := 1, start := 0 }] } }

theorem witness_TableMemoryIsScrubbedAndRepaired_1 :
    up.fget F.TBL_CFG.idle ≠ 0 ∧ up.fget F.TCM_CFG.idle ≠ 0 ∧ carS.tblOff 0 = false ∧ carS.tblOff 3 = false ∧ accT.tcmOff 1 3 = false := by
  decide +kernel

theorem witness_TableMemoryIsScrubbedAndRepaired_2 :
    (tRow [(1, 3, 77)]).rowReads 2 3 77 = true ∧ (tRow [(1, 3, 77)]).tbl.ops = [] := by
  decide +kernel

theorem witness_TableMemoryIsScrubbedAndRepaired_3 :
    ((tRow [(1, 3, 77)]).takeRow (tcmUnit 1 3)).isSome = true ∧ (tRow [(1, 3, 77)]).logicalOf 1 3 = some 3 ∧ (2, (tRow [(1, 3, 77)]).physOf 2 3, 77) ∉ (tRow [(1, 3, 77)]).tbl.tcmBad := by
  decide +kernel

theorem witness_TableMemoryIsScrubbedAndRepaired_4 :
    (tRow [(0, 3, 77), (1, 3, 77), (2, 3, 77), (3, 3, 77)]).logicalOf 1 3 = some 3 ∧
  ∀ h ∈ List.range 4, (h, (tRow [(0, 3, 77), (1, 3, 77), (2, 3, 77), (3, 3, 77)]).physOf h 3, 77) ∈ (tRow [(0, 3, 77), (1, 3, 77), (2, 3, 77), (3, 3, 77)]).tbl.tcmBad := by
  decide +kernel

theorem witness_TableMemoryIsScrubbedAndRepaired_5 :
    (tPro.flt.promos.find? fun x => decide (x.unit = 0x243 ∧ x.kind = 1)) = some { kind := 1, unit := 0x243, spare := 0x260, reason := 1, start := 0 } ∧
  tPro.logicalOf ((0x243 - 0x200) / 64) ((0x243 - 0x200) % 64) = some 3 := by
  decide +kernel

def th (sup : Bool) (i : Nat) (g : Tab Word) : State := { (put 2 (28 * 16 + 26) (2 * 2 ^ 9 + 1) up).wr .CCX_T_STATUS 9 0 ((((up.rd .CCX_T_STATUS 9)).setWidth 72)) with cmem := [(4101, BitVec.ofNat 36 i)], threads := [(9, { g := g, csr := [(2, 0), (3, 8192), (4, 77)] })] } |>.fset F.CCX_T_STATUS.state 9 0 tRunning |>.fset F.CCX_T_STATUS.part 9 0 16 |>.fset F.CCX_T_STATUS.mode 9 0 (if sup then 1 else 0) |>.fset F.CCX_T_PC.pc 9 0 5

def ri (op rd rs1 rs2 fn : Nat) : Nat := op * 2 ^ 30 + rd * 2 ^ 25 + rs1 * 2 ^ 20 + rs2 * 2 ^ 15 + fn

def rim (op rd rs1 imm : Nat) : Nat := op * 2 ^ 30 + rd * 2 ^ 25 + rs1 * 2 ^ 20 + imm

def g2 : Tab Word := [(1, 0xFFFFFFFF0), (2, 0x000000123), (3, 0xABCDEF012), (4, 2), (5, 7), (6, 0x800000001), (7, 3)]

def fetches (s : State) (i : Nat) : Bool := (!s.frozen && decide (s.thrState 9 = tRunning)) && (match s.fetchPlace 9 with | some w => decide ((s.fetchWord 9 w).1.toNat = i) | none => false)

def wroteB (s u : State) (r : Nat) (v : Word) (pc : Nat) : Bool := decide (u = { s with regs := u.regs, free := u.free, icache := u.icache, tags := u.tags, threads := u.threads }) && decide (u.thr 9 = { s.thr 9 with g := (u.thr 9).g }) && (List.range 32).all (fun x => decide (u.greg 9 x = if x = r ∧ r ≠ 0 then v else s.greg 9 x)) && decide (u.pc 9 = pc % 2 ^ 36) && decide (u.regs.filter (fun e => e.1 ≠ regKey .CCX_T_PC 9 0) = s.regs.filter (fun e => e.1 ≠ regKey .CCX_T_PC 9 0))

theorem witness_IntegerInstructionsWriteRd :
    fetches (th true (ri 0 8 1 2 0) g2) (ri 0 8 1 2 0) = true ∧ fetches (th false (rim 1 8 1 0xFFFFF) g2) (rim 1 8 1 0xFFFFF) = true ∧ iOp (ri 0 8 1 2 0) = 0 := by
  decide +kernel

theorem nextInstr_of {s : State} {i : Nat} (h : fetches s i = true) : nextInstr s 9 i := by
  unfold fetches at h
  split at h
  · rename_i w hw
    simp only [Bool.and_eq_true, decide_eq_true_eq, Bool.not_eq_true'] at h
    exact ⟨h.1.1, by decide, h.1.2, w, hw, h.2⟩
  · simp at h

theorem witness_nextInstr : nextInstr (th true (ri 0 8 1 2 0) g2) 9 (ri 0 8 1 2 0) := nextInstr_of (by decide +kernel)

theorem witness_ProductsQuotientsAndPairs :
    fetches (th true (ri 0x18 8 1 2 0) g2) (ri 0x18 8 1 2 0) = true ∧ bits (ri 0x18 8 1 2 0) 14 6 = 0 ∧ iOp (ri 0x1A 8 2 4 4) = 0x1A ∧ fetches (th true (ri 0x1A 8 2 4 4) g2) (ri 0x1A 8 2 4 4) = true := by
  decide +kernel

def lb : Word := 2 ^ 33 + 2 ^ 24

def gM : Tab Word := [(1, 100), (2, 0x123456789), (3, 0xABCDEF012), (4, lb), (5, 101)]

def thM (sup : Bool) (i : Nat) : State := { put 7 6 1 (put 7 4 1 (put 7 2 1 (put 7 0 4 (th sup i gM)))) with cmem := [(4101, BitVec.ofNat 36 i), (4196, 0x111111111), (4197, 0x222222222)], bufs := [(256, { count := 1, tag := 0x809, part := 16, acct := .none })], bufMem := [(256 + 8, 0xA1), (256 + 9, 0xB2), (256 + 10, 0xC3), (256 + 11, 0xD4)] } |>.setCsr 9 0x51 256 |>.modThr 9 fun x => { x with windows := [1] }

def inR0 (s : State) (t a w : Nat) : Bool := decide (a < 4096 * bits (s.partWord (s.thrPart t) 26) 18 9 ∧ w = 4096 * bits (s.partWord (s.thrPart t) 26) 8 0 + a ∧ (s.supMode t = false → s.csr t 2 ≤ a ∧ a < s.csr t 2 + s.csr t 3))

theorem witness_LoadsStoresAndAtomics :
    fetches (thM true (rim 8 8 1 0)) (rim 8 8 1 0) = true ∧ inR0 (thM false (rim 8 8 1 0)) 9 100 4196 = true ∧ dataAddr (thM true (rim 8 8 1 0)) 9 (rim 8 8 1 0) = 100 ∧ fetches (thM true (rim 8 8 4 2)) (rim 8 8 4 2) = true := by
  decide +kernel

theorem inRegion0_of {s : State} {t a w : Nat} (h : inR0 s t a w = true) : inRegion0 s t a w := by
  have h := of_decide_eq_true h
  exact h

theorem witness_LoadsStoresAndAtomics_window : inWindow (thM true (rim 8 8 4 2)) 9 (dataAddr (thM true (rim 8 8 4 2)) 9 (rim 8 8 4 2)) 1 2 256 :=
  ⟨by decide, by decide, by decide +kernel, by decide, by decide +kernel, by decide +kernel, by decide +kernel, by decide +kernel, by decide +kernel,
    { count := 1, tag := 0x809, part := 16, acct := .none }, by decide +kernel, by decide +kernel⟩

def br (op a b : Nat) : Bool := ran (execBranch 9 (th true (rim op a b 0xFFFFE) g2)) fun u => wroteB (th true (rim op a b 0xFFFFE) g2) u 0 0 3

def nb (op a b : Nat) : Bool := ran (execBranch 9 (th true (rim op a b 0xFFFFE) g2)) fun u => wroteB (th true (rim op a b 0xFFFFE) g2) u 0 0 6

theorem witness_ControlAndSystemInstructions :
    fetches (th true (rim 0x10 1 2 5) g2) (rim 0x10 1 2 5) = true ∧ fetches (th false (ri 0x2C 0 0 7 0) g2) (ri 0x2C 0 0 7 0) = true ∧ (th false (ri 0x2C 0 0 7 0) g2).csr 9 4 = 77 ∧ (th true 0 g2).supMode 9 = true ∧ (th false 0 g2).supMode 9 = false := by
  decide +kernel

def wt (x st : Nat) (s : State) : State := (s.fset F.CCX_T_STATUS.part x 0 16).fset F.CCX_T_STATUS.state x 0 st

def gT : Tab Word := [(1, 0x55), (2, 0x777), (3, 0x80C), (4, 0x12345), (5, 0x100)]

def fk : State := wt 12 tIdle (wt 11 tIdle (th true (ri 0x20 8 1 2 0) gT))

def idleB (u : State) (x : Nat) : Bool := decide (u.thrState x = tIdle ∧ (u.thr x).parent = none)

def gsB (s u : State) (t r : Nat) (v : Word) : Bool := (List.range 32).all fun x => decide (u.greg t x = if x = r ∧ r ≠ 0 then v else s.greg t x)

def kid (i st : Nat) : State := let s := wt 12 st (th true i gT)
  { s with threads := tabSet {} s.threads 12 ({ parent := some 9, exitVal := 0x2345 }) }

def jn : Nat := ri 0x20 8 3 0 1

def ex : Nat := ri 0x20 0 4 0 2

def par (st : Nat) (w : Option Wait) : State := let s := wt 12 st (th true ex gT)
  let s := { s with threads := tabSet {} s.threads 9 ({ s.thr 9 with parent := some 12 }) }
  { s with threads := tabSet {} s.threads 12 ({ wait := w }) }

def thx (f st : Nat) (sup : Bool) : State := let s := wt 12 st (th sup (ri 0x2C 8 3 4 f) gT)
  { s with threads := tabSet {} s.threads 12 ({ g := [(4, 0xABC)] }) } |>.fset F.CCX_T_PC.pc 12 0 33

def hx (st : Nat) : State := sel .CCX_SEL 12 (thx 4 st true)

theorem witness_ThreadsStartEndAndAnswer_1 :
    fetches fk (ri 0x20 8 1 2 0) = true ∧ fk.thrState 11 = tIdle ∧ (List.range 11).all (fun x => !decide (fk.thrPart x = 16 ∧ fk.thrState x = tIdle)) = true ∧ fk.thrPart 9 = 16 := by
  decide +kernel

theorem witness_ThreadsStartEndAndAnswer_2 :
    (List.range 144).all (fun x => !decide ((th true (ri 0x20 8 1 2 0) gT).thrPart x = (th true (ri 0x20 8 1 2 0) gT).thrPart 9 ∧ (th true (ri 0x20 8 1 2 0) gT).thrState x = tIdle)) = true ∧ bits ((th true (ri 0x20 8 1 2 0) gT).partWord 16 23) 15 8 ≤ (th true (ri 0x20 8 1 2 0) gT).drawn 16 := by
  decide +kernel

theorem witness_ThreadsStartEndAndAnswer_3 :
    fetches (kid jn tExited) jn = true ∧ (kid jn tExited).thrState 12 = tExited ∧ ((kid jn tExited).thr 12).parent = some 9 ∧ fetches (kid jn tRunning) jn = true ∧ (kid jn tRunning).thrState 12 ≠ tExited := by
  decide +kernel

theorem witness_ThreadsStartEndAndAnswer_4 :
    fetches (par tRunning none) ex = true ∧ ((par tRunning none).thr 9).parent = some 12 ∧ (par tRunning none).thrState 12 = tRunning ∧ fetches (par tWaiting (some (.join 7 9))) ex = true ∧ (par tWaiting (some (.join 7 9))).thrState 12 = tWaiting ∧ ((par tWaiting (some (.join 7 9))).thr 9).drawn = false := by
  decide +kernel

theorem witness_ThreadsStartEndAndAnswer_5 :
    fetches (thx 4 tRunning true) (ri 0x2C 8 3 4 4) = true ∧ (thx 4 tRunning true).killable 12 = true ∧ (thx 4 tRunning true).thrPart 12 = (thx 4 tRunning true).thrPart 9 ∧ ((thx 4 tRunning true).greg 9 3).toNat = 0x800 + 12 ∧ (thx 4 tRunning true).supMode 9 = true := by
  decide +kernel

theorem witness_ThreadsStartEndAndAnswer_6 :
    opA (hx tIdle) .pf .CCX_T_CTL 0 12 = true ∧ (hx tIdle).thrState 12 = tIdle := by
  decide +kernel

def gQ : Tab Word := [(1, 0x0F0), (2, 0x1AB), (3, 0x80C), (4, 200), (5, 0)]

def thq (sup : Bool) (i : Nat) : State := (th sup i gQ).setCsr 9 3 8192

def evp (s : State) (v : Nat) : State := s.fset F.CCX_T_STATUS.evpend 9 0 v

def wf1 : Nat := ri 0x20 8 1 0 3

def qi (op d s1 kind d2 : Nat) : Nat := rim op d s1 (kind * 4096 + d2)

def pop (kind d : Nat) : Nat := qi 0x21 8 4 kind d

def pq : State := { thq true (pop 0 3) with punts := [(16 * 16 + 3, [{ frame := 1, queue := 3, part := 16, handle := 256, words := [1, 2, 3, 4], inPort := 5, len := 64, trace := none, rx := none }, { frame := 1, queue := 3, part := 16, handle := 512, words := [9, 2, 3, 4], inPort := 6, len := 65, trace := none, rx := none }])], bufs := [(256, { count := 1, tag := 0xF00, part := 16, acct := .none })] }

def evq : State := { thq true (pop 1 3) with events := [(16 * 16 + 3, [[1, 2, 3, 4, 5, 6, 7, 8], [2, 2, 3, 4, 5, 6, 7, 8]])] }

def mlq : State := { thq true (pop 2 (3 + 2 * 16)) with mail := [(16 * 16 + 3, [[1, 2], [3]])] }

def fq : State := { thq true (pop 5 0) with faultQ := [(9, [[1, 2, 3, 4, 5, 6, 7, 8]])] }

def push (kind d : Nat) : Nat := qi 0x22 8 4 kind d

def cm (s : State) (ws : List Nat) : State := ws.zipIdx.foldl (fun s e => { s with cmem := s.cmem ++ [(4296 + e.2, BitVec.ofNat 36 e.1)] }) s

def hold (s : State) : State := { put 7 6 1 (put 7 4 1 (put 7 2 1 (put 7 0 4 s))) with bufs := [(256, { count := 1, tag := 0x809, part := 16, acct := .none })] }

def inj : State := hold (cm (thq true (push 4 1)) [256, 100, 0, 0])

def egx : State := put 2 57 8 <| put 2 56 1 <| hold (cm (thq true (push 3 3)) [256, 100, 0, 0])

def egy : State := withPort 3 0 4 (hold (cm (thq true (push 3 3)) [256, 100, 0, 0]))

def sv (st : Nat) (w : Option Wait) : State := { wt 12 st up with sevs := [(12, 0x81), (3, 1)], threads := [(12, { wait := w })] } |>.fset F.CCX_T_STATUS.evpend 12 0 0x201

theorem witness_EventsAndQueuesServeThreads_1 :
    fetches (evp (thq true wf1) 0x318) wf1 = true := by
  decide +kernel

theorem witness_EventsAndQueuesServeThreads_2 :
    fetches pq (pop 0 3) = true ∧ pq.mayPop 9 3 = true ∧ pq.flag F.CCX_PQ.sink 16 3 = false ∧ pq.pastShare 9 = false ∧ inR0 pq 9 200 4296 = true ∧ inR0 pq 9 207 4303 = true ∧ iOp (pop 0 3) = 0x21 ∧ bits (pop 0 3) 15 12 = 0 ∧ bits (pop 0 3) 3 0 = 3 := by
  decide +kernel

theorem witness_EventsAndQueuesServeThreads_3 :
    fetches inj (push 4 1) = true ∧ inj.handleOk 256 = true ∧ inj.cget 4296 = 256 ∧ 100 ≤ inj.bufSizeOf 256 ∧ (inj.group 1).inject.length < 64 := by
  decide +kernel

theorem witness_EventsAndQueuesServeThreads_4 :
    (sv tWaiting (some (.wfe 8 0x80))).sevs = [(12, 0x81), (3, 1)] ∧ (sv tWaiting (some (.wfe 8 0x80))).thrState 12 = tWaiting := by
  decide +kernel

theorem witness_EventsAndQueuesServeThreads_5 :
    ({ th true 0 gQ with threads := [(9, { timer := some 5 })] } : State).frozen = false := by
  decide +kernel

theorem witness_EventsAndQueuesServeThreads_6 :
    ({ th true 0 gQ with threads := [(9, { timer := some 5 })] } : State).thrState 9 = tRunning := by
  decide +kernel

def gB : Tab Word := [(1, 256), (2, 3), (3, 0x80C), (4, 200), (5, 0), (6, 0)]

def thb (sup : Bool) (i : Nat) : State := hold (wt 12 tRunning (th sup i gB))

def bi (f rd rs1 rs2 : Nat) : Nat := ri 0x23 rd rs1 rs2 f

def bOf (s : State) (h : Nat) : Option (Bool × Nat × Nat × Nat) := (s.buf h).map fun b => (b.quar, b.count, b.tag, b.part)

def getS : State := put 2 (28 * 16 + 17) 1000 <| put 7 0 1 ((thb true (bi 0 8 5 0)).setCsr 9 3 8192)

def getP (q : Nat) : State := let s := getS
  { s with bufs := [], cmem := s.cmem } |>.fset F.CCX_CNT.count 16 1 q

def giv : State := (thb true (bi 4 8 1 3)).setG 9 3 0xB40

def crv (s : State) : State := carved <| put 4 2 100 (put 4 0 20 (put 2 (28 * 16 + 21) (2 ^ 22 + 8 * 2 ^ 11 + 8) (put 2 (28 * 16 + 22) (2 ^ 22 + 2 ^ 11 + 1) s)))

def tn : Nat := ri 0x25 8 4 0 0

def tn0 (sup : Bool) : State := crv (cm (thb sup tn) [2 ^ 32 + 2 ^ 28, 5, 10, 20, 30])

def ts : Nat := ri 0x26 8 4 0 0

def ts0 (sup : Bool) : State := crv (cm (thb sup ts) [2 ^ 32 + 2 ^ 28, 5, 10, 20, 30])

def tl : Nat := rim 0x24 8 4 1

def tl0 : State := crv (cm (thb true tl) [10, 20, 30])

def ins : State := let s := { crv (cm (thb true tn) [2 ^ 32 + 2 ^ 28 + 16 * 2 ^ 21, 77, 10, 20, 30]) with tbl := tl0.tbl }
  after (execTblCommit (after (execTblAccept (after (execTins 9 s)))))

def tl1 : State := { tl0 with tbl := ins.tbl }

theorem witness_BufferAndTableInstructionsAnswer_1 :
    fetches (getP 0) (bi 0 8 5 0) = true ∧ (getP 0).pastShare 9 = false ∧ (getP 0).poolExists 0 = true ∧ ((getP 0).admitPart (getP 0).tagNow 16 (poolCharge 0)).isSome = true ∧ (getP 0).poolCount 0 = 1 := by
  decide +kernel

theorem witness_BufferAndTableInstructionsAnswer_2 :
    fetches (thb true (bi 1 8 1 2)) (bi 1 8 1 2) = true ∧ (thb true (bi 1 8 1 2)).handleOk 256 = true ∧ bOf (thb true (bi 1 8 1 2)) 256 = some (false, 1, 0x809, 16) := by
  decide +kernel

theorem witness_BufferAndTableInstructionsAnswer_3 :
    fetches (tn0 true) tn = true ∧ inR0 (tn0 true) 9 200 4296 = true ∧ inR0 (tn0 true) 9 220 4316 = true ∧ (tn0 true).issuerBusy (.thread 9) false = false ∧ (tn0 true).power.entering = false := by
  decide +kernel

theorem witness_BufferAndTableInstructionsAnswer_4 :
    fetches (ts0 true) ts = true ∧ inR0 (ts0 true) 9 235 4331 = true ∧ (ts0 true).issuerBusy (.thread 9) true = false := by
  decide +kernel

theorem witness_BufferAndTableInstructionsAnswer_5 :
    fetches tl0 tl = true ∧ inR0 tl0 9 200 4296 = true ∧ inR0 tl0 9 202 4298 = true ∧ bits tl 1 0 = 1 := by
  decide +kernel

def tg : State := sel .CCX_SEL (8 * 3) up

def cores (s : State) : State := (List.range 18).foldl (fun s k => s.fset F.CCX_CORE.phys k 0 k) s

def mg : State := let s := cores up
  s.fset F.CCX_CORE.state 16 0 3

def mv : State := { wt 12 tMigrating up with threads := [(12, { before := tRunning })] }

def mc : State := after (execCcxMigWrite .pf (2 ^ 35 + 5 * 2 ^ 26) mg)

def lf : State := let s := cores (wt 12 tRunning (wt 13 tIdle up))
  (s.fset F.CCX_CORE.state 16 0 3).fset F.CCX_CORE.state 17 0 3

theorem witness_CoresAreTaggedAndReplaced_1 :
    opA tg .pf .CCX_TAG 0 3 = true ∧ tg.flag F.CCX_TAG.en 3 = false := by
  decide +kernel

theorem witness_CoresAreTaggedAndReplaced_2 :
    opA mg .pf .CCX_MIG 0 0 = true ∧ mg.fget F.CCX_CORE.state 5 = 0 ∧ mg.flt.promos = [] ∧ mg.castlePending = false ∧ mg.benchUnits 3 0x800 = [0x888] := by
  decide +kernel

theorem witness_CoresAreTaggedAndReplaced_3 :
    mv.thrState 12 = tMigrating ∧ (mv.thr 12).before = tRunning := by
  decide +kernel

theorem witness_CoresAreTaggedAndReplaced_4 :
    (mc.flt.promos.find? (fun y => y.kind = 3 ∧ y.unit = 0x800 + 40)).any (fun x => x.reason ≠ 2 ∧ x.spare = 0x800 + 8 * 17) = true ∧ (List.range 8).all (fun n => mc.thrState (40 + n) ≠ tMigrating) = true := by
  decide +kernel

theorem witness_CoresAreTaggedAndReplaced_5 :
    lf.fget F.CCX_CORE.state 1 = 0 ∧ lf.benchUnits 3 0x800 = [] ∧ lf.flag F.AON_STATUS.main_on = true := by
  decide +kernel

def chn (st : Nat) (c : Chan) : State := { sel .DMA_SEL 65 up with chans := [(65, c)] } |>.fset F.DMA_CH_STATUS.state 65 0 st

def dsc (next src dst len mode index esize : Nat) : List Nat := [next, src, dst, len, mode, index, esize, 0]

def hh (t : State) (p a : Nat) (bs : List Byte) : Bool := (List.range bs.length).all fun j => decide (tabFind t.hostMem (p * 2 ^ 64 + (a + j) % 2 ^ 64) = bs[j]?)

def dz (addr next : Nat) : Desc := { addr := addr, next := next, src := 1, dst := 2, len := 3, mode := 0, index := 0, esize := 0 }

def run2 : State := chn 2 { fetch := 0x4000 }

def hasB (s : State) (ch : Nat) (d : Desc) (f : List Nat) : Bool := s.chanOn ch && decide (s.chanState ch = 2 ∧ (s.chan ch).ended = none ∧ (s.chan ch).desc = none ∧ (s.chan ch).fetch < 2 ^ 63 ∧ d = descOf (s.chan ch).fetch fun i => f.getD i 0 % 2 ^ 64)

def pl (s : State) : State := put 2 (28 * 16 + 17) 1000 <| put 7 6 1 (put 7 4 1 (put 7 2 1 (put 7 0 1 s)))

def b60 : List Byte := List.replicate 60 7

def fullG : State := { pl run2 with groups := [(2, { inject := List.replicate 64 1 })] }

def pnt (s : State) : State := { pl s with punts := [(16 * 16 + 3, [{ frame := 1, queue := 3, part := 16, handle := 0, words := [1, 2, 3, 4], inPort := 5, len := 64, trace := none, rx := none }])], bufs := [(0, { count := 1, tag := 0xF00, part := 16, acct := .none })], bufMem := [(0, 0xA1), (1, 0xB2)] } |>.fset F.CCX_PQ.sink 16 3 1 |>.fset F.CCX_PQ.chan 16 3 1

def fin (d : Desc) (e : DescEnd) (st : Bool) : State := chn 2 { desc := some d, ended := some e, stopping := st }

theorem witness_ChannelsRunTheirDescriptors_1 :
    opA (chn 1 {}) .pf .DMA_CH_CTL 0 65 = true ∧ (chn 1 {}).chanOn 65 = true ∧ (chn 1 {}).chanState 65 = 1 := by
  decide +kernel

theorem witness_ChannelsRunTheirDescriptors_2 :
    0xC00 ∉ (chn 1 {}).flt.fenced ∧ 0xC00 ∉ (chn 3 { desc := some (dz 64 0) }).flt.fenced := by
  decide +kernel

theorem witness_ChannelsRunTheirDescriptors_3 :
    hasB run2 65 { addr := 0x4000, next := 0x5000, src := 0x100, dst := 0x200, len := 5, mode := 0, index := 0, esize := 0 } (dsc 0x5000 0x100 0x200 5 0 0 0) = true := by
  decide +kernel

theorem witness_ChannelsRunTheirDescriptors_4 :
    ((pl run2).admitPart (pl run2).tagNow 16 (poolCharge (poolFor 64))).isSome = true ∧ (pl run2).poolCount (poolFor 64) = 1 ∧ (pl run2).buf (poolFor 64 * 2 ^ 32) = none ∧ (pl run2).flt.withdrawn = [] := by
  decide +kernel

theorem witness_ChannelsRunTheirDescriptors_5 :
    (match (pnt run2).puntReady 65 with | some (3, x) => decide (x.len = 64 ∧ x.trace = none ∧ x.handle = 0) | _ => false) = true ∧ ((pnt run2).buf 0).isSome = true ∧ (pnt run2).chanState 65 = 2 := by
  decide +kernel

theorem witness_ChannelsRunTheirDescriptors_6 :
    (fin (dz 0x4000 0x5001) { bytes := 77 } false).chanState 65 = 2 ∧ ((fin (dz 0x4000 0x5001) { bytes := 77 } false).chan 65).ended = some { bytes := 77 } := by
  decide +kernel

theorem witness_ChannelsRunTheirDescriptors_7 :
    (chn 2 { pendingRecs := 3 }).frozen = false := by
  decide +kernel

theorem witness_ChannelsRunTheirDescriptors_8 :
    opA (chn 2 {}) .pf .DMA_RING_CONS 0 65 = true ∧ opA (chn 2 {}) .pf .DMA_RING_CFG 0 65 = true := by
  decide +kernel

theorem chanHas_of {s : State} {ch : Nat} {d : Desc} {f : List Nat} (h : hasB s ch d f = true) : chanHas s ch f d := by
  simp only [hasB, Bool.and_eq_true, decide_eq_true_eq] at h
  exact ⟨h.1, h.2.1, h.2.2.1, .inr h.2.2.2⟩

def ln (st h : Nat) (c : Lane) : State := { put 2 (28 * 16 + 23) (4 * 2 ^ 16) (sel .CPH_SEL 3 up) with lanes := [(3, c)] } |>.fset F.CPH_STATUS.state 3 0 st |>.fset F.CPH_LOCK.holder 3 0 h

def stg : Lane := { staged := [(0, 0x04030201), (1, 0x08070605)], written := 0xF }

def ky : List Byte := List.replicate 16 5

def lnJ (alg : Nat) : State := (ln 2 16 { fetch := 0x4000, key := ky }).fset F.CPH_STATUS.alg 3 0 alg

def jf (mode aad n tg : Nat) : List Nat := dsc 0x5000 0x1000 0x2000 (n + aad * 2 ^ 32 + tg * 2 ^ 48) mode 0x3000 0x3100

def jd (mode aad n tg : Nat) : Desc := descOf 0x4000 fun i => (jf mode aad n tg).getD i 0 % 2 ^ 64

def lhB (s : State) (l : Nat) (f : List Nat) (d : Desc) : Bool := decide (s.laneState l = 2 ∧ (s.lane l).ended = none ∧ (s.lane l).desc = none ∧ (s.lane l).fetch < 2 ^ 63 ∧ d = descOf (s.lane l).fetch fun i => f.getD i 0 % 2 ^ 64)

def inp (n : Nat) : List Byte := (List.range n).map fun i => BitVec.ofNat 8 i

def iv16 : List Byte := List.replicate 16 9

def iv12 : List Byte := List.replicate 12 9

def ctr (n : Nat) : List Byte := (List.range n).map fun j => (inp n).getD j 0 ^^^ (bytesBE 16 (aesEnc ky (BitVec.ofNat 128 (ofBE iv16 + j / 16))).toNat).getD (j % 16) 0

def jfin (alg : Nat) (d : Desc) (e : DescEnd) : State := (ln 2 16 { desc := some d, ended := some e, key := ky }).fset F.CPH_STATUS.alg 3 0 alg

theorem witness_CipherLanesServeTheirHolders_1 :
    opA (ln 0 31 {}) .pf .CPH_LOCK 0 3 = true ∧ (ln 0 31 {}).holderOf 3 = 31 ∧ (ln 0 31 {}).flag F.CPH_LOCK.fenced 3 = false ∧ (ln 0 31 {}).flag F.CPH_LOCK.zeroising 3 = false ∧ (ln 0 31 {}).lanesHeld 16 < bits ((ln 0 31 {}).partWord 16 23) 19 16 := by
  decide +kernel

theorem witness_CipherLanesServeTheirHolders_2 :
    opA (ln 1 16 stg) .pf .CPH_KEY_CTL 0 3 = true ∧ klenOk 3 16 = true ∧ (ln 1 16 stg).laneState 3 = 1 ∧ (List.range 4).all (fun i => ((ln 1 16 stg).lane 3).written.testBit i) = true := by
  decide +kernel

theorem witness_CipherLanesServeTheirHolders_3 :
    opA (ln 1 16 {}) .pf .CPH_CTL 0 3 = true ∧ (ln 1 16 {}).flag F.AON_STATUS.safe_global = false := by
  decide +kernel

theorem witness_CipherLanesServeTheirHolders_4 :
    0xC00 ∉ (ln 1 16 {}).flt.fenced ∧ 0xC00 ∉ (ln 3 16 { desc := some (dz 64 0) }).flt.fenced := by
  decide +kernel

theorem witness_CipherLanesServeTheirHolders_5 :
    lhB (lnJ 2) 3 (jf 0 0 20 0) (jd 0 0 20 0) = true ∧ ((lnJ 2).jobCheck 16 2 (jd 0 0 20 0)).code = 0 ∧ (lnJ 2).holderOf 3 = 16 ∧ jobLen (jd 0 0 20 0) = 20 := by
  decide +kernel

theorem witness_CipherLanesServeTheirHolders_6 :
    lhB (lnJ 3) 3 (jf 1 2 20 16) (jd 1 2 20 16) = true ∧ ((lnJ 3).jobCheck 16 3 (jd 0 2 20 16)).code = 0 ∧ ((lnJ 3).jobCheck 16 3 (jd 1 2 20 16)).code = 0 ∧ jobTag (jd 0 2 20 16) = 16 := by
  decide +kernel

theorem witness_CipherLanesServeTheirHolders_7 :
    ((lnJ 4).jobCheck 16 4 (jd 2 0 20 16)).code = 0 ∧ ((lnJ 4).jobCheck 16 4 (jd 3 0 20 16)).code = 0 := by
  decide +kernel

theorem witness_CipherLanesServeTheirHolders_8 :
    (jfin 2 (dz 0x4000 0) { bytes := 20 }).flag F.CPH_CFG.chan_en 3 = false ∧ ((jfin 2 (dz 0x4000 0) { bytes := 20 }).lane 3).ended = some { bytes := 20 } ∧ descOp (jd 1 2 20 16) = 1 := by
  decide +kernel

theorem laneHas_of {s : State} {l : Nat} {d : Desc} {f : List Nat} (h : lhB s l f d = true) : laneHas s l f d := by
  have h := of_decide_eq_true h
  exact ⟨h.1, h.2.1, .inr h.2.2⟩

def stS (w : Nat) : State := up.wr .TIM_STEP 16 0 (BitVec.ofNat 72 w)

def stp : Nat := 5 * 2 ^ 36 + 7 * 64 + 32

def stV : Nat := 5 * secUnits + 7 * 2 ^ 48 + 2 ^ 47

def due (op n : Nat) : State := { (up.fset F.TIM_STATUS.lock 0 0 1) with time := { up.time with now := 9 * secUnits + 1, step := some (op, n) } }

def stepped (t : State) (n : Nat) : Bool := decide (t.time.step = none ∧ t.flag F.TIM_STATUS.valid ∧ t.flag F.TIM_STATUS.lock = false ∧ t.fget F.TIM_STATUS.steps 0 = 1 ∧ t.fget F.TIM_CNT.count 0 2 = 1 ∧ (t.rd .TIM_LAST_STEP).toNat = stampOf t.time.now ∧ t.time.now = n)

def lkd (drift mx cyc : Nat) : State := { ((up.fset F.TIM_STATUS.lock 0 0 1).fset F.TIM_LOCK_CFG.drift 0 0 drift).fset F.TIM_LOCK_CFG.max_err 0 0 mx with time := { up.time with cycles := cyc, renewBound := 100 } }

def rf : State := ((up.fset F.TIM_STATUS.lock 0 0 1).fset F.TIM_CFG.ref 0 0 1)

def ppsOk : State := ((up.fset F.TIM_PPS_OUT.en 0 0 1).fset F.TIM_STATUS.valid 0 0 1).fset F.TIM_PPS_OUT.lock_only 0 0 0

def ppi (l : Option Nat) (c : Nat) : State := { up.fset F.TIM_CFG.pps_in_en 0 0 1 with time := { up.time with cycles := c, ppsInLast := l, now := 3 * secUnits + 2 ^ 48 } }

def syn : State := (((up.fset F.TIM_SYNCE.squelched 0 2 1).fset F.TIM_SYNCE.en 0 2 1).fset F.TIM_SYNCE.port 0 2 8).fset F.TIM_SYNCE.div 0 2 65535 |>.fset F.MAC_STATUS.state 8 0 pUp

def snp : State := ((up.wr .CNT_SNAP_AT 16 0 (BitVec.ofNat 72 (2 * 2 ^ 36))).fset F.CNT_SNAP_LEN.bytes 16 0 1000000).fset F.CNT_SNAP_DST.addr 16 0 0x1000

def snp2 : State := after (execSnap .console (snp.setPlane 0 0 (snp.plane 0 0) |>.wr .CNT_SNAP_AT 17 0 (BitVec.ofNat 72 (2 * 2 ^ 36)) |>.fset F.CNT_SNAP_LEN.bytes 17 0 1000000 |>.fset F.CNT_SNAP_DST.addr 17 0 0x1000))

def snc : State := after (execSnapJoin .pf snp2)

def sng : State := { snp with snap := { time := some 5, captured := true, parts := [3, 16] } }

theorem witness_TimeAndCountersFollowTheirCommands_1 :
    opA (up.wr .TIM_STEP 0 0 (BitVec.ofNat 72 stp)) .pf .TIM_STEP_CTL 0 0 = true ∧ (up.wr .TIM_STEP 0 0 (BitVec.ofNat 72 stp)).fget F.TIM_STEP.ns ≤ 999999999 ∧ up.time.step = none ∧ (due 1 stV).time.step = some (1, stV) := by
  decide +kernel

theorem witness_TimeAndCountersFollowTheirCommands_2 :
    opA up .pf .TIM_RATE 0 0 = true ∧ opA up .pf .TIM_LOCK 0 0 = true ∧ 0xC10 ∉ up.flt.fenced := by
  decide +kernel

theorem witness_TimeAndCountersFollowTheirCommands_3 :
    (lkd 16 200 16000000000).flag F.TIM_STATUS.lock = true ∧ (100 * 25600000000 + 16 * 16000000000 ≤ 110 * 25600000000 ∧ 109 * 25600000000 < 100 * 25600000000 + 16 * 16000000000) := by
  decide +kernel

theorem witness_TimeAndCountersFollowTheirCommands_4 :
    rf.flag F.TIM_CFG.ref = true := by
  decide +kernel

theorem witness_TimeAndCountersFollowTheirCommands_5 :
    (ppi none 5).flag F.TIM_CFG.pps_in_en = true ∧ (ppi none 5).flag F.TIM_CFG.pps_edge = false ∧ (ppi (some 5) 800000004).time.ppsInLast = some 5 := by
  decide +kernel

theorem witness_TimeAndCountersFollowTheirCommands_6 :
    syn.flag F.TIM_SYNCE.squelched 0 2 = true ∧ syn.synceClear 2 = true ∧ opA syn .pf .TIM_SYNCE 2 0 = true := by
  decide +kernel

theorem witness_TimeAndCountersFollowTheirCommands_7 :
    opA snp .pf .CNT_SNAP_CTL 0 16 = true ∧ Func.pf.idx = 16 ∧ snp.snap.time = none ∧ snp.time.now + 2000 * 2 ^ 48 ≤ snp.timeAt (snp.rd .CNT_SNAP_AT 16) ∧ snp.timeAt (snp.rd .CNT_SNAP_AT 16) ≤ snp.time.now + 10 * secUnits ∧ viewBytes (snp.view .pf) ≤ snp.fget F.CNT_SNAP_LEN.bytes 16 ∧ snp.snapRange .pf = false := by
  decide +kernel

theorem witness_TimeAndCountersFollowTheirCommands_8 :
    0xC20 ∉ snp.flt.fenced := by
  decide +kernel

theorem witness_TimeAndCountersFollowTheirCommands_9 :
    snp2.snap.time = some (2 * secUnits) ∧ snp2.snap.parts = [17] ∧ snp2.snap.captured = false := by
  decide +kernel

theorem witness_TimeAndCountersFollowTheirCommands_10 :
    sng.snap.parts = [3, 16] ∧ sng.fget F.CNT_SNAP_DST.addr 3 < 2 ^ 63 := by
  decide +kernel

theorem witness_TimeAndCountersFollowTheirCommands_11 :
    opA up .pf .CNT_TRACE 0 0 = true ∧ up.flag F.CNT_TRACE.en = false ∧ 0xC52 ∉ up.flt.fenced := by
  decide +kernel

def frec (cls u slot : Nat) (busy : Bool) : FaultRec := { cls := cls, cause := 5, unit := u, part := 16, stamp := 0, slot := slot, busy := busy, acts := [u] }

def withRecs (l : List FaultRec) : State := { up with flt := { up.flt with recs := l } }

def ovf : State := put 2 (28 * 3) 1 (up.fset F.FLT_STATUS.overflow 0 0 1)

def tailed : State := (((up.fset F.AON_TAIL_STATUS.entries 0 0 3).fset F.AON_TAIL_STATUS.dropped 0 0 4).fset F.AON_TAIL_STATUS.frozen 0 0 1)

def sfr : State := after (execSafeReqAssert up)

def sfh : State := after (execSafeReqRelease sfr)

def gcy : State := let s := (up.fset F.AON_STATUS.grave 0 0 1).fset F.AON_GRAVE.cycle 0 0 3
  { s with power := { s.power with pwrEn := 255 } }

def crs : State := { up with flt := { up.flt with crossed := [wearKey 6 0xC54 0] } }

def dfr : State := { mg with flt := { mg.flt with deferred := [{ kind := 3, unit := 0x828, spare := 0, reason := 1, start := 0 }] } }

def row (n : Nat) (u c d5 : Nat) : State := { pnt up with flt := { (pnt up).flt with recs := [{ frec 3 u 0 true with cause := c, d5 := d5 }], repairLeft := if n = 0 then [] else [(5 * 4096 + u, n)] } }

def pll : State := { up with flt := { up.flt with promos := [{ kind := 6, unit := 16, spare := 16, reason := 1, start := 0 }], safeMacros := [(2, 16)] } }

theorem witness_FaultsAreRecordedClearedAndRepaired_1 :
    unitAssigned 0x803 = true ∧ unitAssigned 0xA03 = true ∧ unitAssigned 0xC53 = true ∧ unitAssigned 0xC70 = false ∧ unitAssigned 8 = true := by
  decide +kernel

theorem witness_FaultsAreRecordedClearedAndRepaired_2 :
    up.frozen = false := by
  decide +kernel

theorem witness_FaultsAreRecordedClearedAndRepaired_3 :
    opA up .pf .FLT_CLEAR 0 16 = true ∧ up.slotRec 7 = none ∧ (withRecs [frec 3 0x803 7 false]).slotRec 7 = some (frec 3 0x803 7 false) ∧ (∀ r ∈ up.flt.recs, r.busy = false) := by
  decide +kernel

theorem witness_FaultsAreRecordedClearedAndRepaired_4 :
    opA ovf (.vf 3) .FLT_CLEAR 0 3 = true := by
  decide +kernel

theorem witness_FaultsAreRecordedClearedAndRepaired_5 :
    opA mg .pf .FLT_BENCH_CMD 0 0 = true ∧ unitKind 0x150 = none ∧ unitKind 0x828 = some 3 ∧ mg.inService 3 0x828 = true ∧ mg.benchUnits 3 (unitScope 3 0x828) = [0x888] ∧ mg.scopeBusy 3 (unitScope 3 0x828) = false := by
  decide +kernel

theorem witness_FaultsAreRecordedClearedAndRepaired_6 :
    opA tailed .pf .AON_TAIL_ADDR 0 16 = true ∧ opA tailed .pf .FLT_TAIL_ADDR 0 16 = true := by
  decide +kernel

theorem witness_FaultsAreRecordedClearedAndRepaired_7 :
    sfh.flt.safeHold = true ∧ sfh.flag F.AON_STATUS.safe_global = true ∧ sfh.flag F.AON_STATUS.grave = false := by
  decide +kernel

theorem witness_FaultsAreRecordedClearedAndRepaired_8 :
    gcy.flag F.AON_STATUS.grave = true ∧ gcy.fget F.AON_GRAVE.cycle ≠ 0 ∧ gcy.power.op = none ∧ gcy.power.porWait = false := by
  decide +kernel

theorem witness_FaultsAreRecordedClearedAndRepaired_9 :
    wearKey 6 0xC54 0 ∈ crs.flt.crossed ∧ (∀ x ∈ crs.flt.recs, x.busy = false) := by
  decide +kernel

theorem witness_FaultsAreRecordedClearedAndRepaired_10 :
    dfr.flt.deferred.find? (fun p => p.unit = 0x828) = some { kind := 3, unit := 0x828, spare := 0, reason := 1, start := 0 } ∧ dfr.scopeBusy 3 (unitScope 3 0x828) = false ∧ dfr.autoSpare 3 0x828 = some 0x888 ∧ dfr.castlePending = false := by
  decide +kernel

theorem witness_FaultsAreRecordedClearedAndRepaired_11 :
    (row 0 0xA03 5 0).reacting 0xA03 = true ∧ (row 0 0xA03 5 0).rowsUsed 0xA03 = 0 ∧ (row 32 0xA00 5 0).rowsUsed 0xA00 = 32 ∧ (row 32 0xA00 5 0).rowBuffers 0 0 = [0, 4294967296, 8589934592, 12884901888] ∧
  (row 16 0xA43 20 0x105).flt.recs.find? (fun r => r.busy && r.unit = 0xA43) = some { frec 3 0xA43 0 true with cause := 20, d5 := 0x105 } ∧ (row 16 0xA43 20 0x105).rowsUsed 0xA43 = 16 := by
  decide +kernel

theorem witness_FaultsAreRecordedClearedAndRepaired_12 :
    pll.flt.promos.any (fun x => x.unit = 16 ∧ (x.kind = 6 ∨ x.kind = 7)) = true := by
  decide +kernel

def ps (n : Nat) (mv : Bool) : State := (up.fset F.AON_STATUS.pstate 0 0 n).fset F.PWR_STATUS.moving 0 0 (if mv then 1 else 0)

def dn (t : State) (r : Nat) : Bool := decide (t.fget F.PWR_STATUS.done = 1 ∧ t.fget F.PWR_STATUS.result = r)

def ldS : State := { ps psService false with groups := [(0, { jobsMs := 19200000 }), (2, { jobsMs := 9600000 })] }

def ent : State := after (execPwrTargetRest .pf ((ps psService false).fset F.TIM_STATUS.lock 0 0 1))

def rst : State := after (execRestEntryComplete ent)

def wkp : State := after (execWakePin 2 (rst.fset F.AON_WAKE.pin_en 0 0 4))

def alm : State := ((rst.fset F.AON_WAKE.alarm_en 0 0 1).fset F.AON_ALARM.sec 0 0 77).fset F.AON_RTC.sec 0 0 77

def wdg : State := after (execWdtCfgWrite .pf (2 ^ 35 + 6) up)

def pgd : State := { (ps psService false).fset F.AON_SEQ.pgood 0 0 255 with power := { (ps psService false).power with pwrEn := 255 } }

def hotS : State := { ps psService false with power := { (ps psService false).power with hotBefore := [5] } }

def tmps : List Nat := [1, 2, 3, 4, 5, 126, 7, 8, 9, 10, 11, 12, 13, 14, 15, 16]

theorem witness_PowerStatesAndSensorsRespond_1 :
    opA (ps psService false) .pf .PWR_CTL 0 0 = true ∧ (ps psService false).flag F.PWR_STATUS.moving = false ∧ (ps psService false).pstate = psService ∧ (ps psService false).restCode = 0 ∧ (ps psDoze true).flag F.PWR_STATUS.moving = true ∧ opA (ps psDoze true) .pf .PWR_CTL 0 0 = true ∧ (ps psDoze true).pstate = psDoze := by
  decide +kernel

theorem witness_PowerStatesAndSensorsRespond_2 :
    (ps psDoze false).pstate = psDoze ∧ ((ps psDoze false).fset F.MAC_STATUS.state 9 0 pUp).portState 9 = pUp := by
  decide +kernel

theorem witness_PowerStatesAndSensorsRespond_3 :
    ent.power.entering = true ∧ ent.power.wake = 0 := by
  decide +kernel

theorem witness_PowerStatesAndSensorsRespond_4 :
    rst.pstate = psRest ∧ rst.power.op = none ∧ rst.power.leaving = false ∧ wkp.power.leaving = true ∧ alm.flag F.AON_WAKE.alarm_en = true ∧ alm.fget F.AON_RTC.sec % 2 ^ 36 = alm.fget F.AON_ALARM.sec ∧ alm.power.entering = false := by
  decide +kernel

theorem witness_PowerStatesAndSensorsRespond_5 :
    opA up .pf .AON_WDT_KICK 0 0 = true ∧ opA (up.fset F.AON_WDT_CFG.lock 0 0 1) .pf .AON_WDT_CFG 0 0 = true := by
  decide +kernel

theorem witness_PowerStatesAndSensorsRespond_6 :
    wdg.wdtRuns = true := by
  decide +kernel

theorem witness_PowerStatesAndSensorsRespond_7 :
    (ps psService false).pstate ≠ psStandby ∧ ((ps psService false).railWindow 2).1 ≤ ((ps psService false).railWindow 2).2 ∧ 0 < ((ps psService false).railWindow 2).1 := by
  decide +kernel

theorem witness_PowerStatesAndSensorsRespond_8 :
    pgd.power.pwrEn.testBit 3 = true ∧ pgd.pstate ≠ psStandby := by
  decide +kernel

theorem witness_PowerStatesAndSensorsRespond_9 :
    tmps.length = 16 ∧ (∀ x ∈ tmps, x < 128) ∧ 5 ∈ hotS.power.hotBefore ∧ 21 ∉ hotS.power.hotBefore ∧ hotS.critLimit ≤ tmps.getD 5 0 := by
  decide +kernel

def offS : State := { State.reset.fset F.AON_STATUS.main_on 0 0 0 with power := { State.reset.power with inPor := false, crystal := true } }

def pwd : State := after (execSeqPowerDown .pf 5 pgd)

def cyc : State := after (execSeqCycle .pf 5 pgd)

def en (n : Nat) (s : State) : State := { s with power := { s.power with pwrEn := n } }

def owt : State := after (execPowerDownStep true (en 0 cyc))

def up1 : State := after (execIslandRelease 0 true true State.reset)

def upN : Nat → State
  | 0 => up1
  | n + 1 => after (execPgoodRise n (upN n))

def bt3 : State := after (execBootFusesDone (upN 8))

def bt3d : State := after (execSelftestDone false false [] bt3)

def bt4 : State := after (execMainResetRelease bt3d)

def bt4c : State := [0, 1, 3].foldl (fun s h => after (execHbmTrainingDone h true [] s)) bt4

def bks : State := after (execSupplySwitch up1)

theorem witness_SequencerAndBootRunInOrder_1 :
    opA pgd .pf .AON_SEQ 0 0 = true ∧ pgd.power.op = none ∧ pgd.power.pwrEn = 255 ∧ pgd.power.porWait = false := by
  decide +kernel

theorem witness_SequencerAndBootRunInOrder_2 :
    opA offS .console .AON_SEQ 0 0 = true ∧ offS.power.op = none ∧ offS.power.pwrEn = 0 := by
  decide +kernel

theorem witness_SequencerAndBootRunInOrder_3 :
    pwd.power.down = true ∧ (en 0 pwd).power.porWait = false ∧ (en 0 pwd).power.op = some 1 ∧ cyc.power.op = some 3 ∧ cyc.power.failed = false ∧ opA pwd .console .AON_SEQ 0 0 = true := by
  decide +kernel

theorem witness_SequencerAndBootRunInOrder_4 :
    owt.power.offWait = true := by
  decide +kernel

theorem witness_SequencerAndBootRunInOrder_5 :
    up1.fget F.AON_BOOT.phase = 1 ∧ up1.power.down = false ∧ up1.power.bit = 0 ∧ up1.power.pwrEn = 1 ∧ (upN 7).power.bit = 7 := by
  decide +kernel

theorem witness_SequencerAndBootRunInOrder_6 :
    (upN 8).power.down = false ∧ bt3.power.down = false ∧ bt3d.fget F.AON_BOOT.phase = 3 ∧ bt3d.power.selftest = some [] ∧ bt3d.power.down = false := by
  decide +kernel

theorem witness_SequencerAndBootRunInOrder_7 :
    bt4c.fget F.AON_BOOT.phase = 4 ∧ bt4c.fget F.HBC_STACK.state 2 = 0 ∧ (List.range 4).all (fun x => x = 2 || bt4c.fget F.HBC_STACK.state x ≠ 0) = true := by
  decide +kernel

theorem witness_SequencerAndBootRunInOrder_8 :
    offS.power.inPor = false ∧ offS.power.porWait = false ∧ offS.power.down = false ∧ State.reset.power.inPor = true ∧ pgd.power.down = false ∧ pgd.power.inPor = false := by
  decide +kernel

theorem witness_SequencerAndBootRunInOrder_9 :
    up1.flag F.AON_STATUS.bkup = false ∧ bks.flag F.AON_STATUS.bkup = true := by
  decide +kernel

def fr (op a : Nat) (word : List Byte) : List Byte := let body := BitVec.ofNat 8 op :: (bytesLE 4 a ++ word)
  0xA5#8 :: (body ++ [crc8 body])

def gone : State := offS

def part : State := { up with power := { up.power with conRx := [0xA5#8, 1] } }

def line (v : Byte) (stop : Bool) : List Bool := (false :: (List.range 8).map fun k => v.getLsbD k).flatMap (List.replicate 16) ++ List.replicate 9 stop

def osc0 : State := { part with power := { part.power with osc := false } }

theorem witness_ConsoleAnswersItsRequests_1 :
    up.power.inPor = false ∧ up.power.osc = true ∧ up.power.conRx = [] ∧ up.power.uart = {} ∧ up.reachable .console = true ∧ up.target .console 0 false = .reg .GLB_ID 0 0 false := by
  decide +kernel

theorem witness_ConsoleAnswersItsRequests_2 :
    slotOf .TIM_RATE 0 < 2 ^ 26 ∧ storesOnly .TIM_RATE = true ∧ up.target .console (slotOf .TIM_RATE 0) true = .reg .TIM_RATE 0 0 false := by
  decide +kernel

theorem witness_ConsoleAnswersItsRequests_3 :
    gone.power.osc = true ∧ gone.target .console (slotOf .TIM_RATE 0) false = .refused 6 := by
  decide +kernel

theorem witness_ConsoleAnswersItsRequests_4 :
    islandSlot (0x0180000 + (2 ^ 31 + 0x7FF8) % 2 ^ 26) = false ∧ bits (2 ^ 31 + 0x7FF8) 30 26 = 0 := by
  decide +kernel

theorem witness_ConsoleAnswersItsRequests_5 :
    crc8 (BitVec.ofNat 8 1 :: bytesLE 4 8) ≠ crc8 (BitVec.ofNat 8 1 :: bytesLE 4 8) ^^^ 1 := by
  decide +kernel

theorem witness_ConsoleAnswersItsRequests_6 :
    part.power.inPor = false ∧ part.power.osc = true ∧ part.power.uart = {} ∧ part.power.conRx ≠ [] := by
  decide +kernel

theorem witness_ConsoleAnswersItsRequests_7 :
    osc0.power.osc = false ∧ osc0.power.inPor = false := by
  decide +kernel

def tw (link : Nat) : State := ((up.fset F.TWN_CFG.en 0 0 1).fset F.TWN_STATUS.link 0 0 link)

def black (s : State) : State := s.fset F.GLB_STRAP.pair_id 0 0 1

def dh (p st pref peer : Nat) (s : State) : State := (((s.fset F.TWN_DH.valid 0 p 1).fset F.TWN_DH.state 0 p st).fset F.TWN_DH.pref 0 p pref).fset F.TWN_DH.peer_port 0 p peer

def lane (i st : Nat) (s : State) : State := s.fset F.TWN_LANE.state 0 i st

def dst (s : State) (p : Nat) : Nat := s.fget F.TWN_DH.state 0 p

def pairS (link : Nat) : State := dh 9 2 1 5 (dh 8 1 0 4 (lane 1 2 (lane 0 2 (tw link))))

def outR : State := after (execOwnershipReport [] (pairS 2))

def sil (s : State) : State := { s with twin := { s.twin with silent := true } }

def settle (s : State) : State := after (execCrossLinkLost 0 s)

def begun : State := let s := settle (pairS 2)
  { s with twin := { s.twin with fromEn := true } }

def grd : State := after (execSettleExpiry (settle (pairS 2)))

def rdx : State := withPort 8 0 4 (pl (pairS 2))

def xd : State := (pairS 2).fset F.TWN_XDMA.parts 0 0 (2 ^ 16)

theorem witness_TwinPairsDecideAndExchange_1 :
    (lane 2 1 (tw 1)).flag F.TWN_CFG.en = true ∧ (lane 2 1 (tw 1)).flag F.TWN_LANE.lane_en 0 2 = true ∧ (lane 2 1 (tw 1)).xlane 2 = lnTraining ∧ (tw 1).link = lkTraining ∧ (pairS 2).xlane 1 = lnUp := by
  decide +kernel

theorem witness_TwinPairsDecideAndExchange_2 :
    acked 0 outR.twin.out ≠ [] ∧ outR.xlane 1 = lnUp := by
  decide +kernel

theorem witness_TwinPairsDecideAndExchange_3 :
    (pairS 2).link = lkUp ∧ (pairS 2).pairs = [8, 9] ∧ (pairS 2).linkControl = true ∧ (pairS 2).linkUp = true := by
  decide +kernel

theorem witness_TwinPairsDecideAndExchange_4 :
    (settle (pairS 2)).twin.settling = true ∧ (settle (pairS 2)).twin.silent = false ∧ (settle (black (pairS 2))).isBlack = true := by
  decide +kernel

theorem witness_TwinPairsDecideAndExchange_5 :
    (settle (pairS 2)).twin.fromEn = false ∧ begun.twin.settling = true ∧ begun.twin.fromEn = true ∧ begun.twin.silent = false := by
  decide +kernel

theorem witness_TwinPairsDecideAndExchange_6 :
    grd.twin.guarding = true := by
  decide +kernel

theorem witness_TwinPairsDecideAndExchange_7 :
    (settle (pairS 2)).flag F.AON_STATUS.main_on = true ∧ (settle (pairS 2)).link = lkLost ∧ (settle (pairS 2)).fget F.TWN_STATUS.decision ≠ 4 := by
  decide +kernel

theorem witness_TwinPairsDecideAndExchange_8 :
    (pairS 2).peerEntry 8 [(4, 2), (5, 4)] = some (2, 0) ∧ (pairS 2).peerEntry 9 [(4, 2), (5, 4)] = some (0, 1) := by
  decide +kernel

theorem witness_TwinPairsDecideAndExchange_9 :
    opA (pairS 2) .pf .TWN_MOVE 0 0 = true ∧ (pairS 2).twin.moving = none ∧ (pairS 2).flag F.TWN_DH.valid 0 8 = true ∧ ((pairS 2).port 8).wire = none := by
  decide +kernel

theorem witness_TwinPairsDecideAndExchange_10 :
    rdx.setFor rdx.tagNow 16 8 = some 0 ∧ rdx.setCovered 8 0 = false ∧ rdx.queueBytes (rdx.queue (queueNo 8 0 0)) + 60 ≤ rdx.queueLimit rdx.tagNow 8 0 0 ∧ (rdx.queue (queueNo 8 0 0)).head = [] ∧ (rdx.queue (queueNo 8 0 0)).pend = [] ∧ (rdx.queue (queueNo 8 0 0)).deep = [] ∧
  (rdx.admitPart rdx.tagNow 16 (poolCharge (poolFor 60))).isSome = true ∧ rdx.poolCount (poolFor 60) = 1 ∧ rdx.buf (poolFor 60 * 2 ^ 32) = none ∧ rdx.flt.withdrawn = [] ∧ rdx.linkUp = true := by
  decide +kernel

theorem witness_TwinPairsDecideAndExchange_11 :
    (pairS 2).issuerBusy .twin false = false ∧ (pairS 2).issuerBusy .twin true = false ∧ (pairS 2).power.entering = false := by
  decide +kernel

theorem witness_TwinPairsDecideAndExchange_12 :
    (xd.fget F.TWN_XDMA.parts).testBit 16 = true := by
  decide +kernel

theorem witness_TwinPairsDecideAndExchange_13 :
    opA (dh 8 1 0 4 up) .pf .TWN_CFG 0 0 = true ∧ up.flag F.TWN_CFG.en = false ∧ opA (pairS 2) .pf .TWN_CFG 0 0 = true ∧ opA (pairS 2) .pf .TWN_DH 9 0 = true ∧ (pairS 2).portState 9 = pDisabled ∧ ((pairS 2).fset F.MAC_STATUS.state 9 0 pUp).portState 9 ≠ pDisabled := by
  decide +kernel

def twoWait : State := { up with pending := [.timRateWrite .pf 5, .lockRenew .pf 9] }

theorem witness_StepRunsFrontCommand :
    twoWait.pending = [.timRateWrite .pf 5, .lockRenew .pf 9] ∧ ran (step twoWait) (fun t => t.pending = [.lockRenew .pf 9] ∧ t.fget F.TIM_RATE.rate 0 = 5) = true := by
  decide +kernel

def clk : State := { wdg.fset F.AON_CHK.en 0 0 1 with pending := [], power := { wdg.power with wdtAcc := 1562499, chkAcc := 799999, rtcAcc := 390620 } }

def look1 : State := let s := after (execTlook 9 tl1)
  { s with time := { s.time with cycles := (s.thr 9).since + 199 } }

theorem witness_IdlePassesOneCoreClock_1 :
    clk.pending = [] ∧ clk.coreRuns = true ∧ clk.power.inPor = false ∧ clk.power.crystal = true ∧ clk.flag F.AON_WDT_CFG.en = true ∧ clk.power.wdtAcc < 1562500 ∧ 0 < clk.fget F.AON_WDT_KICK.left ∧ clk.power.chkAcc < 800000 ∧ clk.rtc + 1 < 2 ^ 63 := by
  decide +kernel

theorem witness_IdlePassesOneCoreClock_2 :
    State.reset.pending = [] ∧ State.reset.coreRuns = false ∧ State.reset.power.inPor = true ∧ State.reset.heartbeat = false := by
  decide +kernel

theorem witness_IdlePassesOneCoreClock_3 :
    look1.pending = [] ∧ look1.coreRuns = true ∧ look1.hbm.writes = [] ∧ tabSorted 0 look1.threads = true ∧ look1.thrState 9 = tWaiting ∧
  (look1.thr 9).wait = some (.look 8 (2 ^ 35 + 77)) ∧ (look1.thr 9).since + 200 ≤ look1.time.cycles + 1 := by
  decide +kernel

theorem witness_QueueIsServedInOrder :
    (∀ c ∈ twoWait.pending, c.wf = true) ∧ ([Instr.timRateWrite .pf 5] ++ [.lockRenew .pf 9] = twoWait.pending) := by
  decide +kernel


/-! ## WellFormed: an ill-formed command for each check, beside a well-formed one -/

theorem test_wf_function : (Instr.castle (.vf 16)).wf = false ∧ (Instr.castle (.vf 15)).wf = true ∧ (Instr.castle .console).wf = true := by decide

theorem test_wf_port : (Instr.txStart 256).wf = false ∧ (Instr.txStart 255).wf = true := by decide

theorem test_wf_thread : (Instr.fork 144).wf = false ∧ (Instr.fork 143).wf = true := by decide

theorem test_wf_cluster : (Instr.editEnd 32 0).wf = false ∧ (Instr.editEnd 31 24).wf = true := by decide

theorem test_wf_engine : (Instr.editEnd 31 25).wf = false ∧ (Instr.rewriteDispatch 31).wf = true := by decide

theorem test_wf_unit : (Instr.deferredPromotion 0xC70).wf = false ∧ (Instr.deferredPromotion 0x828).wf = true := by decide

theorem test_wf_group : (Instr.jobDispatch 4).wf = false ∧ (Instr.jobDispatch 3).wf = true := by decide

theorem test_wf_slice : (Instr.sliceTake 3 13).wf = false ∧ (Instr.sliceTake 3 12).wf = true := by decide

theorem test_wf_channel : (Instr.recvPuntReady 80).wf = false ∧ (Instr.recvPuntReady 79).wf = true := by decide

theorem test_wf_scope : (Instr.shadowRestoreDone 17).wf = false ∧ (Instr.shadowRestoreDone 16).wf = true := by decide

theorem test_wf_stack : (Instr.hbmCopyDone 4).wf = false ∧ (Instr.hbmCopyDone 3).wf = true := by decide

theorem test_wf_pseudo_channel : (Instr.hbmPowerDown 0x980).wf = false ∧ (Instr.hbmPowerDown 0x8FF).wf = false ∧ (Instr.hbmPowerDown 0x97F).wf = true := by decide

theorem test_wf_position : (Instr.coreLogicFault 18).wf = false ∧ (Instr.coreLogicFault 17).wf = true := by decide

theorem test_wf_replica : (Instr.tblBankRetention 4 0).wf = false ∧ (Instr.tblBankRetention 3 50).wf = false ∧ (Instr.tblBankRetention 3 49).wf = true := by decide

theorem test_wf_table_unit : (Instr.tblScrub 0 1631118 0).wf = false ∧ (Instr.tblScrub 0 1631117 3).wf = false ∧ (Instr.tblScrub 0 1631117 2).wf = true := by decide

theorem test_wf_search_bank : (Instr.tcmScrub 0 34 0 0).wf = false ∧ (Instr.tcmScrub 0 33 1024 0).wf = false ∧ (Instr.tcmScrub 0 33 1023 3).wf = true := by decide

theorem test_wf_part : (Instr.agerVisit 17).wf = false ∧ (Instr.agerVisit 16).wf = true := by decide

theorem test_wf_address : (Instr.registerWrite .pf (2 ^ 26) 0).wf = false ∧ (Instr.registerWrite .pf (2 ^ 26 - 1) 0).wf = true := by decide

theorem test_wf_value : (Instr.timRateWrite .pf (2 ^ 36)).wf = false ∧ (Instr.timRateWrite .pf (2 ^ 36 - 1)).wf = true := by decide

theorem test_wf_byte_enables : (Instr.wordWrite .pf 3 0xFF 0 0).wf = false ∧ (Instr.wordWrite .pf 0 256 0 0).wf = false ∧ (Instr.wordWrite .pf 2 255 0 0).wf = true := by decide

theorem test_wf_lane : (Instr.crossLaneUp 4).wf = false ∧ (Instr.crossLaneUp 3).wf = true ∧ (Instr.zeroiseDone 8).wf = false ∧ (Instr.zeroiseDone 7).wf = true := by decide

theorem test_wf_sensor_readings : (Instr.tempSample (List.replicate 15 40)).wf = false ∧ (Instr.tempSample (List.replicate 16 40)).wf = true := by decide

/-! ## The table gives no row bits -/

theorem test_no_word_is_a_command (n w : Nat) : decodeTableWord n w = none := rfl

theorem test_withFetchWord_changes_nothing (s : State) (n w : Nat) : s.withFetchWord n w = s := rfl

/-! ## Worked results of single commands, computed by hand from the rules -/

/-- R393: 0xFFFFFFFF0 + 0x123 wraps modulo 2^36. -/
theorem test_add_wraps : ran (exec (.integerOp 9) (th true (ri 0 8 1 2 0) g2)) (fun u => decide (u.greg 9 8 = 0x113)) = true := by decide +kernel

/-- R392: division by zero gives all ones. -/
theorem test_divide_by_zero : ran (exec (.divide 9) (th true (ri 0x18 8 1 0 3) g2)) (fun u => decide (u.greg 9 8 = 0xFFFFFFFFF)) = true := by
  decide +kernel

/-- R80: a high half without its low half takes the present low half. -/
theorem test_high_half : ran (exec (.highHalfWrite .pf 0 a0 7) (staged 8 77)) (fun t => decide ((t.rd .TIM_RATE).toNat = 7 * 2 ^ 32)) = true := by
  decide +kernel

/-- R487: one core clock is 0.625 ns when the rate is 0. -/
theorem test_idle_clock : ran (step up) (fun t => decide (t.time.now = 5 * 2 ^ 45)) = true := by decide +kernel

/-- R67: the castling swaps the banks of the masked scope. -/
theorem test_castling : ran (exec .castlingTime ca2) (fun t => decide (t.activeOf 0 = 1 - ca2.activeOf 0 ∧ t.activeOf 3 = ca2.activeOf 3)) = true := by
  decide +kernel

/-- R602: at link UP white keeps a pair that both sides show as OWN, and the black device gives it up. -/
theorem test_dual_ownership : ran (exec (.linkUpExchange 5 true [(4, 1), (5, 4)]) (pairS 2)) (fun t => decide (dst t 8 = 1)) = true ∧
    ran (exec (.linkUpExchange 5 false [(4, 1), (5, 4)]) (black (pairS 2))) (fun t => decide (dst t 8 = 2)) = true := by decide +kernel

/-- R532: a GRAVE error sets the latch, its cause and the global safe state. -/
theorem test_grave : ran (exec (.faultDetected 40 0xFFF 1 2 false none []) up) (fun t => decide
    (t.flag F.AON_STATUS.safe_global = true ∧ t.fget F.AON_GRAVE.cause = 40)) = true := by decide +kernel

/-! ## The algorithms of R46 and R455, on the standards' own examples -/

/-- FIPS 197, C.3. -/
theorem test_aes256 : aesEnc (bytesBE 32 0x000102030405060708090a0b0c0d0e0f101112131415161718191a1b1c1d1e1f) 0x00112233445566778899aabbccddeeff#128 =
    0x8ea2b7ca516745bfeafc49904b496089#128 := by decide +kernel

/-- FIPS 197, C.1, backwards. -/
theorem test_aes128_inverse : aesDec (bytesBE 16 0x000102030405060708090a0b0c0d0e0f) 0x69c4e0d86a7b0430d8cdb78070b4c55a#128 =
    0x00112233445566778899aabbccddeeff#128 := by decide +kernel

/-- SP 800-38B, AES-256, one whole block. -/
theorem test_cmac_block : aesCmac (bytesBE 32 0x603deb1015ca71be2b73aef0857d77811f352c073b6108d72d9810a30914dff4)
    (bytesBE 16 0x6bc1bee22e409f96e93d7e117393172a) = 0x28a7023f452e8f82bd4bf28d8c37c35c#128 := by decide +kernel

/-- SP 800-38D, AES-256, nothing to protect. -/
theorem test_gcm_empty : gcmTag (bytesBE 32 0) (bytesBE 12 0) [] [] = 0x530f8afbc74536b9a963b4f1c4cb738b#128 := by decide +kernel

/-- FIPS 180-4, "abc". -/
theorem test_sha256 : ofBE (sha256 (bytesBE 3 0x616263)) = 0xba7816bf8f01cfea414140de5dae2223b00361a396177a9cb410ff61f20015ad := by decide +kernel

/-- IEEE 1619, vector 1. -/
theorem test_xts : ofBE (aesXts true (bytesBE 32 0) (bytesBE 16 0) (bytesBE 32 0)) =
    0x917cf69ebd68b2ec9b9fe9a3eadda692cd43d2f59598ed858c02c2652fbf922e := by decide +kernel

/-- RFC 8439, 2.3.2: the first word of the key stream. -/
theorem test_chacha : ((chachaBlock (bytesBE 32 0x000102030405060708090a0b0c0d0e0f101112131415161718191a1b1c1d1e1f)
    (bytesBE 12 0x000000090000004a00000000) 1).take 8 |> ofBE) = 0x10f1e7e4d13b5915 := by decide +kernel

/-! ## Pins that no register shows -/

/-- R655: EXTEST works until the device is ready, then BYPASS takes its place. -/
theorem test_tap : (State.tapTakes .reset .extest = .extest) ∧ (up.fset F.GLB_STATUS.ready 0 0 1).tapTakes .extest = .bypass := by decide +kernel
end Sys2Proof.Tests
end

section
/-! PROOFS. The receive path (R263, R272): what allocating a frame's buffer keeps, which buffer it takes, and the settling of O19. -/

namespace Sys2Proof.Machine

/-! ## A listed entry -/

@[simp] theorem tabFind_insert_same {α : Type} (t : Tab α) (k : Nat) (v : α) : tabFind (tabInsert t k v) k = some v := by
  induction t with
  | nil => simp [tabInsert, tabFind]
  | cons e t ih =>
    by_cases before : k < e.1
    · simp [tabInsert, tabFind, before]
    · by_cases here : e.1 = k <;> simp [tabInsert, tabFind, before, here, ih]

/-! ## What charging and filling a buffer keep -/

/-- From `s` to `t`, the frames are as they were, and so is everything that the sizes of pools are read from. -/
structure FramesKept (s t : State) : Prop where
  frames : t.frames = s.frames
  planes : t.planes = s.planes
  image : t.image = s.image
  tag : t.tagNow = s.tagNow

theorem FramesKept.refl (s : State) : FramesKept s s := ⟨rfl, rfl, rfl, rfl⟩

theorem FramesKept.trans {s t u : State} (h : FramesKept s t) (k : FramesKept t u) : FramesKept s u :=
  ⟨k.frames.trans h.frames, k.planes.trans h.planes, k.image.trans h.image, k.tag.trans h.tag⟩

theorem FramesKept.frame {s t : State} (h : FramesKept s t) (id : Nat) : t.frame id = s.frame id := by
  unfold State.frame; rw [h.frames]

/-- A buffer's size is read from the pool layout of the present generation. -/
theorem FramesKept.bufSizeOf {s t : State} (h : FramesKept s t) (b : Nat) : t.bufSizeOf b = s.bufSizeOf b := by
  unfold State.bufSizeOf State.poolSize State.poolWord State.pword State.bankOf State.scope State.plane
  rw [h.tag, h.planes, h.image]

theorem FramesKept.ite {s t u : State} {c : Prop} [Decidable c] (h : FramesKept s t) (k : FramesKept s u) :
    FramesKept s (if c then t else u) := by
  split
  · exact h
  · exact k

/-- Writing a field of a register other than the generation's keeps the frames and the pools. -/
theorem framesKept_fset (s : State) (f : Fld) (c i n : Nat) (h : Reg.IMG_GEN.ctorIdx ≠ f.reg.ctorIdx) : FramesKept s (s.fset f c i n) :=
  ⟨rfl, rfl, rfl, s.fget_fset_reg c i 0 0 n h⟩

theorem setXoff_framesKept (s : State) (p c : Nat) (on : Bool) : FramesKept s (s.setXoff p c on) := by
  have written (n : Nat) : FramesKept s (s.fset F.MAC_PAUSE_STATE.xoff p 0 n) :=
    framesKept_fset s F.MAC_PAUSE_STATE.xoff p 0 n (by decide)
  unfold State.setXoff
  exact .ite ((written _).trans ⟨rfl, rfl, rfl, rfl⟩) (written _)

/-- Counting a frame into or out of its port's and pre-class's occupancy (R140) changes flow control only. -/
theorem pfcCount_framesKept (s : State) (p c : Nat) (up : Bool) (n : Nat) : FramesKept s (s.pfcCount p c up n) := by
  unfold State.pfcCount
  extract_lets t xoff on m
  have written (k : Nat) : FramesKept s (s.fset F.MAC_PFC_OCC.count p c k) := framesKept_fset s F.MAC_PFC_OCC.count p c k (by decide)
  have counted : FramesKept s t := .ite (written _) (written _)
  have switched (b : Bool) : FramesKept s (t.setXoff p c b) := counted.trans (setXoff_framesKept t p c b)
  exact .ite (.ite (switched _) counted) (.ite (switched _) (.ite (switched _) counted))

theorem charge_framesKept (s : State) (a : Acct) (u : Nat) : FramesKept s (s.charge a u) := by
  have port (t : State) (n : Nat) : FramesKept t (t.bump F.BPM_PORTUSE.units 0 n u) :=
    framesKept_fset t F.BPM_PORTUSE.units 0 n _ (by decide)
  have total (t : State) (k : Nat) : FramesKept t (t.bump F.BPM_ACCT.used 0 k u) := framesKept_fset t F.BPM_ACCT.used 0 k _ (by decide)
  cases a with
  | none => exact .refl s
  | ingGen n => exact (port s n).trans (total _ 0)
  | ingExp n => exact ((port s n).trans (total _ 1)).trans ⟨rfl, rfl, rfl, rfl⟩
  | hdrm n c => exact ⟨rfl, rfl, rfl, rfl⟩
  | quota p => exact framesKept_fset s F.BPM_OCC.units p 0 _ (by decide)
  | common p => exact (framesKept_fset s F.BPM_COCC.units p 0 _ (by decide)).trans (total _ 2)

theorem hold_framesKept (s : State) (h tag part : Nat) (a : Acct) (src : Option (Nat × Nat)) :
    FramesKept s (s.hold h tag part a src) := by
  have charged (b : Buf) (u p n : Nat) : FramesKept s (((s.setBuf h b).charge a u).fset F.BPM_PMIN.min 0 p n) :=
    have listed : FramesKept s (s.setBuf h b) := ⟨rfl, rfl, rfl, rfl⟩
    (listed.trans (charge_framesKept _ a u)).trans (framesKept_fset _ F.BPM_PMIN.min 0 p n (by decide))
  cases src with
  | none => exact charged _ _ _ _
  | some e => exact (charged _ _ _ _).trans (pfcCount_framesKept _ _ _ _ _)

theorem cput_framesKept (s : State) (w : Nat) (v : Word) : FramesKept s (s.cput w v) := by
  obtain ⟨⟨regs, chans, lanes, put⟩, read⟩ := cput_rereadOnly s w v
  have tag : (s.cput w v).tagNow = s.tagNow := congrArg (fldGet · _ _) (read .IMG_GEN 0 0 (by decide) (by decide))
  exact ⟨by rw [put]; rfl, by rw [put]; rfl, by rw [put]; rfl, tag⟩

theorem setBufByte_framesKept (s : State) (h i : Nat) (v : Byte) : FramesKept s (s.setBufByte h i v) := by
  unfold State.setBufByte
  exact .ite (cput_framesKept _ _ _) ⟨rfl, rfl, rfl, rfl⟩

theorem bufWrite_framesKept (s : State) (h i : Nat) (bs : List Byte) : FramesKept s (s.bufWrite h i bs) := by
  induction bs generalizing s i with
  | nil => exact .refl s
  | cons b bs ih => exact (setBufByte_framesKept s h i b).trans (ih _ _)

/-! ## Which buffer is taken -/

/-- A buffer is FREE: it is neither held nor withdrawn. -/
def State.bufFree (s : State) (h : Nat) : Prop := s.buf h = none ∧ 2 ^ 40 + h ∉ s.flt.withdrawn

/-- What the search finds is a FREE buffer of the pool. -/
theorem bufFree_of_freeFrom {s : State} {p n fuel i h : Nat} (found : s.freeFrom p n fuel i = some h) :
    s.bufFree h ∧ ∃ j, h = p * 2 ^ 32 + j % n * s.poolSize p := by
  induction fuel generalizing i with
  | zero => simp [State.freeFrom] at found
  | succ fuel ih =>
    simp only [State.freeFrom] at found
    split at found
    next free =>
      cases found
      exact ⟨by simpa [State.bufFree] using free, i, rfl⟩
    next => exact ih found

/-- The search finds a buffer when one that it passes is FREE. -/
theorem freeFrom_isSome {s : State} {p n fuel i k : Nat} (hk : k < fuel) (free : s.bufFree (p * 2 ^ 32 + (i + k) % n * s.poolSize p)) :
    (s.freeFrom p n fuel i).isSome = true := by
  induction fuel generalizing i k with
  | zero => omega
  | succ fuel ih =>
    simp only [State.freeFrom]
    split
    · rfl
    next held =>
      cases k with
      | zero => exact absurd (by simpa [State.bufFree] using free) held
      | succ k => exact ih (k := k) (by omega) (by rwa [Nat.add_right_comm, Nat.add_assoc])

theorem bufFree_of_pickBuf {s : State} {p h : Nat} (taken : s.pickBuf p = some h) :
    s.bufFree h ∧ ∃ j, h = p * 2 ^ 32 + j % s.poolCount p * s.poolSize p := by
  unfold State.pickBuf at taken
  split at taken
  · cases taken
  · exact bufFree_of_freeFrom taken

/-- The search reads the pool's buffer size, the buffers that are held and those that are withdrawn. -/
theorem freeFrom_congr {s t : State} {p : Nat} (size : t.poolSize p = s.poolSize p) (bufs : t.bufs = s.bufs) (flt : t.flt = s.flt)
    (n fuel i : Nat) : t.freeFrom p n fuel i = s.freeFrom p n fuel i := by
  induction fuel generalizing i with
  | zero => rfl
  | succ fuel ih => rw [State.freeFrom, State.freeFrom, State.buf, State.buf, size, bufs, flt, ih]

/-- The buffer picked depends on the pool, the buffers that are not FREE and the free value. -/
theorem pickBuf_congr {s t : State} {p : Nat} (count : t.poolCount p = s.poolCount p) (size : t.poolSize p = s.poolSize p)
    (bufs : t.bufs = s.bufs) (flt : t.flt = s.flt) (free : t.free = s.free) : t.pickBuf p = s.pickBuf p := by
  simp only [State.pickBuf, State.freeNat, freeFrom_congr size bufs flt, count, bufs, flt, free]

/-! ## Allocation and the start of a frame -/

/-- Reading back a frame that is entered. -/
theorem frame_insert (s : State) (id : Nat) (f : Frame) : ({ s with frames := tabInsert s.frames id f } : State).frame id = some f :=
  tabFind_insert_same s.frames id f

/-- The queue of commands is no part of the frames. -/
@[simp] theorem frame_withQueue (s : State) (q : List Instr) (id : Nat) : (s.withQueue q).frame id = s.frame id := rfl

/-- Reading a frame back after a change of it. -/
theorem frame_modFrame {s : State} {id : Nat} {f : Frame} (here : s.frame id = some f) (g : Frame → Frame) :
    (s.modFrame id g).frame id = some (g f) := by
  unfold State.modFrame
  rw [here]
  exact frame_insert s id (g f)

theorem modFrame_bufSizeOf (s : State) (id : Nat) (g : Frame → Frame) (h : Nat) : (s.modFrame id g).bufSizeOf h = s.bufSizeOf h := by
  unfold State.modFrame
  split <;> rfl

/-- A frame that fits its buffer is not cut short when the buffer is entered in it (R263). -/
theorem frame_of_fits {s t dropped : State} {id h : Nat} {f : Frame} {g : Frame → Frame} (kept : FramesKept s t)
    (here : s.frame id = some f) (fits : f.len ≤ s.bufSizeOf h) :
    (if (t.modFrame id g).bufSizeOf h < f.len then dropped else t.modFrame id g).frame id = some (g f) := by
  rw [modFrame_bufSizeOf, kept.bufSizeOf, if_neg (Nat.not_lt.2 fits)]
  exact frame_modFrame ((kept.frame id).trans here) g

/-- An admitted frame is given the buffer that was picked, where it fits it (R263). -/
theorem allocFrame_handle {s : State} {id pool h : Nat} {f : Frame} {a : Acct} (here : s.frame id = some f)
    (sized : poolFor (if f.ended then f.len else s.ruleLength f.tag f.port f.bytes) = pool) (taken : s.pickBuf pool = some h)
    (admitted : s.admitFrame f (poolCharge pool) = some a) (fits : f.len ≤ s.bufSizeOf h) :
    ∃ x, (s.allocFrame id f).frame id = some x ∧ x.handle = h := by
  have counted (t : State) (i : Nat) : FramesKept t (t.bpmCount f.owner i) := framesKept_fset t F.BPM_CNT.count f.owner i _ (by decide)
  have held : FramesKept s ((s.nextFree.hold h f.port f.owner a (some (f.port, f.pre))).bpmCount f.owner 0) :=
    have advanced : FramesKept s s.nextFree := ⟨rfl, rfl, rfl, rfl⟩
    (advanced.trans (hold_framesKept _ _ _ _ _ _)).trans (counted _ 0)
  have moved (t : State) : FramesKept t ((t.balSub f.owner 4).balAdd f.owner 5) := ⟨rfl, rfl, rfl, rfl⟩
  have entered (t : State) : FramesKept t (t.bump F.BPM_PORTUSE.frames 0 f.port) :=
    framesKept_fset t F.BPM_PORTUSE.frames 0 f.port _ (by decide)
  unfold State.allocFrame
  extract_lets l pool' refuse
  rw [show pool' = pool from sized, taken, admitted]
  refine ⟨_, frame_of_fits ?_ here fits, rfl⟩
  exact (((FramesKept.ite (held.trans (counted _ 4)) held).trans (moved _)).trans (entered _)).trans (bufWrite_framesKept _ h 0 f.bytes)

/-- The bytes of a frame that has no buffer yet are kept with it, up to the port's largest frame (R133). -/
theorem takeBytes_unallocated {s : State} {id : Nat} {f : Frame} {bs : List Byte} (here : s.frame id = some f) (bare : f.alloc = false)
    (most : f.len + bs.length ≤ s.maxFrame f.tag f.port) :
    s.takeBytes id bs = { s with frames := tabInsert s.frames id { f with len := f.len + bs.length, bytes := f.bytes ++ bs } } := by
  simp [State.takeBytes, State.modFrame, here, bare, Nat.not_lt.2 most]

/-- What allocation reads is not changed by entering the frame at its port (R263). -/
theorem allocFrame_received {s : State} {id next pool h : Nat} {f : Frame} {a : Acct} {frames : Tab Frame} {balance : Tab Nat} {ports : Tab PortSt}
    (arriving : f.ended = false) (sized : poolFor (s.ruleLength f.tag f.port f.bytes) = pool) (taken : s.pickBuf pool = some h)
    (admitted : s.admitFrame f (poolCharge pool) = some a) (fits : f.len ≤ s.bufSizeOf h) :
    ∃ x, (State.allocFrame { s with frames := tabInsert frames id f, nextFrame := next, balance := balance, ports := ports } id f).frame id =
      some x ∧ x.handle = h := by
  refine allocFrame_handle (pool := pool) (tabFind_insert_same frames id f) ?_ ?_ admitted fits
  · rw [arriving]
    exact sized
  · refine Eq.trans (pickBuf_congr ?_ ?_ ?_ ?_ ?_) taken <;> rfl

/-- A preemptable frame whose first fragment starts on a port, before its bytes and its buffer. -/
def State.startedFrame (s : State) (port : Nat) (bytes : List Byte) : Frame :=
  { port := port, owner := s.portHolder port, group := port / 64,
    express := (s.mmOn port && !true) || decide (s.preClass s.tagNow port bytes = 7),
    tag := s.tagNow, pre := s.preClass s.tagNow port bytes, pmac := true }

/-- The first fragment of a preemptable frame is given the buffer that was picked, where it is admitted and fits it (R146, R263). -/
theorem startFrame_handle {s : State} {port pool h : Nat} {bytes : List Byte} {a : Acct} (untraced : s.flag F.CNT_TRACE.en = false)
    (most : bytes.length ≤ s.maxFrame s.tagNow port) (sized : poolFor (s.ruleLength s.tagNow port bytes) = pool)
    (taken : s.pickBuf pool = some h) (admitted : s.admitFrame (s.startedFrame port bytes) (poolCharge pool) = some a)
    (fits : bytes.length ≤ s.bufSizeOf h) : ∃ x, (s.startFrame port true bytes).frame s.nextFrame = some x ∧ x.handle = h := by
  have seen : s.traceStart port = (none, s) := by simp [State.traceStart, untraced]
  unfold State.startFrame
  extract_lets tag _ owner express
  split
  next traced t started =>
    obtain ⟨rfl, rfl⟩ := Prod.mk.inj (seen.symm.trans started)
    extract_lets id rx f entered counted receiving filled
    -- Names for the balance counters and the port's state, which allocation does not read.
    obtain ⟨balance, ports, same⟩ : ∃ balance ports, receiving =
      { s with frames := tabInsert s.frames id f, nextFrame := id + 1, balance := balance, ports := ports } := ⟨_, _, rfl⟩
    have listed : receiving.frame id = some f := frame_insert _ id f
    have taking : filled = _ := takeBytes_unallocated listed rfl ((Nat.zero_add _).trans_le most)
    clear_value filled receiving
    subst same taking
    rw [frame_insert, show f.bytes ++ bytes = bytes from List.nil_append bytes,
      show f.len + bytes.length = bytes.length from Nat.zero_add _]
    exact allocFrame_received (s := s) rfl sized taken admitted fits

/-! ## A pool that reaches past the 32-bit offset of a handle -/

/-- The handle of buffer `i` of pool 3, whose buffers are 10,240 bytes: an offset of 2³² or more runs into the pool's bits (R269). -/
def pool3Handle (i : Nat) : Nat := 3 * 2 ^ 32 + i * 10240

/-- The first `n` handles of pool 3, each with the mark of a buffer that is withdrawn (R556). -/
@[irreducible] def pool3Withdrawn (n : Nat) : List Nat := (List.range n).map fun i => 2 ^ 40 + pool3Handle i

theorem mem_pool3Withdrawn (n i : Nat) : 2 ^ 40 + pool3Handle i ∈ pool3Withdrawn n ↔ i < n := by
  simp only [pool3Withdrawn, List.mem_map, List.mem_range, pool3Handle]
  constructor
  · rintro ⟨j, below, same⟩
    omega
  · exact fun below => ⟨i, below, rfl⟩

theorem length_pool3Withdrawn (n : Nat) : (pool3Withdrawn n).length = n := by
  rw [pool3Withdrawn, List.length_map, List.length_range]

/-- Pool 3 has 419,432 buffers, and all but the last of them are withdrawn. -/
structure LastBufferOnly (s : State) : Prop where
  count : s.poolCount 3 = 419432
  bufs : s.bufs = []
  withdrawn : s.flt.withdrawn = pool3Withdrawn 419431

theorem LastBufferOnly.bufFree_iff {s : State} (far : LastBufferOnly s) (i : Nat) : s.bufFree (pool3Handle i) ↔ 419431 ≤ i := by
  rw [State.bufFree, State.buf, far.bufs, far.withdrawn, mem_pool3Withdrawn, Nat.not_lt]
  exact and_iff_right rfl

/-- From whichever buffer the free value makes the search begin, it comes to the last one. -/
theorem LastBufferOnly.pickBuf_isSome {s : State} (far : LastBufferOnly s) : (s.pickBuf 3).isSome = true := by
  rw [State.pickBuf, far.count, if_neg (by decide), far.bufs, far.withdrawn, List.length_nil, length_pool3Withdrawn]
  generalize s.freeNat 32 = i
  have last : (i + (419431 - i % 419432)) % 419432 = 419431 := by omega
  have passed : 419431 - i % 419432 < 0 + 419431 + 1 := by omega
  refine freeFrom_isSome passed ?_
  rw [last]
  exact (far.bufFree_iff 419431).2 le_rfl

/-- The last buffer's handle names pool 4. -/
theorem LastBufferOnly.handlePool_eq {s : State} {h : Nat} (far : LastBufferOnly s) (taken : s.pickBuf 3 = some h) : handlePool h = 4 := by
  obtain ⟨free, j, rfl⟩ := bufFree_of_pickBuf taken
  rw [far.count] at free ⊢
  have last : 419431 ≤ j % 419432 := (far.bufFree_iff _).1 free
  have inPool : j % 419432 < 419432 := Nat.mod_lt _ (by decide)
  rw [handlePool, show s.poolSize 3 = 10240 from rfl]
  omega

/-- Port 8 is UP with MAC merge on and frames of up to 1,518 bytes; of pool 3 only the last buffer is FREE. Pool 4's
buffer size is pool 3's, so that the frame is not cut short when its handle is taken for one of pool 4. -/
def farPool : State :=
  let words : List (Nat × Nat × Nat) :=
    [(1, 128 + 8 * 8, 2 ^ 16), (1, 128 + 8 * 8 + 6, 1518), (7, 6, 419432), (7, 8, 4000), (7, 13, 10240)]
  let image := words.foldl (fun s w => s.setPlane 16 0 ((s.plane 16 0).putWord w.1 w.2.1 w.2.2)) State.reset
  let port := ((image.fset F.MAC_STATUS.state 8 0 pUp).fset F.MAC_MM.en 8 0 1).fset F.BPM_PORT.ing_limit 0 8 4000
  { port with flt := { port.flt with withdrawn := pool3Withdrawn 419431 } }

theorem farPool_lastBufferOnly : LastBufferOnly farPool := ⟨by decide +kernel, rfl, rfl⟩

theorem LastBufferOnly.with_free {s : State} (far : LastBufferOnly s) (n : Nat) : LastBufferOnly { s with free := n } :=
  ⟨far.count, far.bufs, far.withdrawn⟩

/-- A first fragment of 100 bytes; no length rule tells its length. -/
def fragment : List Byte := List.replicate 100 0x11

/-- What the statement assumes of a preemptable frame's start holds of the fragment at port 8. -/
theorem farPool_admits :
    farPool.portState 8 = pUp ∧ halfAt fragment 12 ≠ 0x8808 ∧ farPool.rxFrame 8 true = none ∧ farPool.mmOn 8 = true ∧
    fragment.length ≤ farPool.maxFrame farPool.tagNow 8 ∧ farPool.flag F.CNT_TRACE.en = false ∧
    poolFor (farPool.ruleLength farPool.tagNow 8 fragment) = 3 ∧
    farPool.admitFrame (farPool.startedFrame 8 fragment) (poolCharge 3) = some (.ingGen 8) := by
  decide +kernel

/-- A frame start with no frame being received on that MAC, and with none of a MAC control frame's bytes (R17, R134). -/
theorem exec_frameStart {s : State} {p : Nat} {pmac : Bool} {bytes : List Byte} (state : s.portState p = pUp) (port : p < 256)
    (merge : pmac = true → s.mmOn p = true) (idle : s.rxFrame p pmac = none) (data : halfAt bytes 12 ≠ 0x8808) :
    exec (.frameStart p pmac bytes) s = .next ((s.startFrame p pmac bytes).withQueue s.pending) := by
  have receives : ¬(s.portState p ≠ pUp ∨ 256 ≤ p ∨ (pmac ∧ !s.mmOn p)) := by
    simp only [state, not_or, Nat.not_le.2 port]
    simpa using merge
  show execFrameStart p pmac bytes s = _
  simp only [execFrameStart, State.act, if_neg receives, idle, if_neg data]

/-- Refutes O19: its first clause claims the pool of a preemptable frame's handle in every state, and no premise bounds a pool's layout as the
loader does (R267). In `farPool` pool 3 has 419,432 buffers; the last one lies past 2³² bytes, so its handle names pool 4 (R269). The other
buffers being withdrawn, every free value makes the frame's allocation take that one. -/
theorem not_framesAreReceivedIntoTheirPath : ¬ Obligations.FramesAreReceivedIntoTheirPath := by
  unfold Obligations.FramesAreReceivedIntoTheirPath
  rintro ⟨start, -, -⟩
  obtain ⟨state, data, idle, merge, most, untraced, sized, admitted⟩ := farPool_admits
  have arrived := start farPool 8 true fragment state (by decide) data idle most
  rw [sized] at arrived
  obtain ⟨t, reached, -, -, f, entered, -, -, -, -, -, -, -, -, -, -, buffer⟩ := arrived fun _ =>
    ⟨merge, fun n => (farPool_lastBufferOnly.with_free n).pickBuf_isSome, Option.isSome_of_eq_some admitted, fun h named => by
      rw [State.bufSizeOf, named]
      decide⟩
  rw [exec_frameStart state (by decide) (fun _ => merge) idle data] at reached
  cases reached
  rw [frame_withQueue] at entered
  obtain ⟨h, taken⟩ := Option.isSome_iff_exists.1 farPool_lastBufferOnly.pickBuf_isSome
  have pool4 : handlePool h = 4 := farPool_lastBufferOnly.handlePool_eq taken
  have fits : fragment.length ≤ farPool.bufSizeOf h := by
    rw [State.bufSizeOf, pool4]
    decide +kernel
  obtain ⟨x, found, rfl⟩ := startFrame_handle untraced most sized taken admitted fits
  obtain rfl : x = f := Option.some.inj (found.symm.trans entered)
  exact absurd ((buffer rfl).1.symm.trans pool4) (by decide)

end Sys2Proof.Machine
end

section
/-! PROOFS. What the device does to ports, frames, buffers, faults and cipher lanes leaves the bank map, the castling and the generation alone
(R38, R39): one line for each operation that a castling time applies. -/

namespace Sys2Proof.Machine

/-! ## The relation -/

/-- From `s` to `t`, the map of scopes to banks, the castling and the generation are as they were. -/
structure BanksKept (s t : State) : Prop where
  scopes : t.image.scopes = s.image.scopes
  castle : t.image.castle = s.image.castle
  gen : t.rd .IMG_GEN = s.rd .IMG_GEN

namespace BanksKept

theorem refl (s : State) : BanksKept s s := ⟨rfl, rfl, rfl⟩

variable {s t u : State}

theorem trans (h : BanksKept s t) (k : BanksKept t u) : BanksKept s u :=
  ⟨k.scopes.trans h.scopes, k.castle.trans h.castle, k.gen.trans h.gen⟩

theorem ite {c : Prop} [Decidable c] (h : BanksKept s t) (k : BanksKept s u) : BanksKept s (if c then t else u) := by
  split
  · exact h
  · exact k

/-- A run of steps that each keep the bank map keeps it. -/
theorem foldl {α : Type} {f : State → α → State} (h : BanksKept s t) (step : ∀ u x, BanksKept u (f u x)) (l : List α) :
    BanksKept s (l.foldl f t) :=
  h.trans (foldl_rel refl trans step l t)

/-- A change of what the image and the registers do not hold. -/
theorem beside (h : BanksKept s t) (image : u.image = t.image) (regs : u.regs = t.regs) : BanksKept s u :=
  h.trans ⟨by rw [image], by rw [image], congrArg (regGet · _ _ _) regs⟩

/-! ## Registers -/

theorem wr (h : BanksKept s t) {r : Reg} {c i : Nat} {v : RegVal} (other : Reg.IMG_GEN.ctorIdx ≠ r.ctorIdx) :
    BanksKept s (t.wr r c i v) :=
  h.trans ⟨rfl, rfl, t.rd_wr_reg c i 0 0 v other⟩

theorem fset (h : BanksKept s t) {f : Fld} {c i n : Nat} (other : Reg.IMG_GEN.ctorIdx ≠ f.reg.ctorIdx) :
    BanksKept s (t.fset f c i n) := h.wr other

theorem bump (h : BanksKept s t) {f : Fld} {c i n : Nat} (other : Reg.IMG_GEN.ctorIdx ≠ f.reg.ctorIdx) :
    BanksKept s (t.bump f c i n) := h.wr other

theorem bumpSat (h : BanksKept s t) {f : Fld} {c i n : Nat} (other : Reg.IMG_GEN.ctorIdx ≠ f.reg.ctorIdx) :
    BanksKept s (t.bumpSat f c i n) := h.wr other

theorem drop (h : BanksKept s t) {f : Fld} {c i n : Nat} (other : Reg.IMG_GEN.ctorIdx ≠ f.reg.ctorIdx) :
    BanksKept s (t.drop f c i n) := h.wr other

/-! ## Records, and words of CMEM -/

theorem sent (h : BanksKept s t) (k : sentOnly t u) : BanksKept s u := by
  obtain ⟨⟨_, _, _, _, rfl⟩, read⟩ := k
  exact h.trans ⟨rfl, rfl, read .IMG_GEN 0 0 (by decide)⟩

theorem emitChan (h : BanksKept s t) {ch p : Nat} {r : Record} : BanksKept s (t.emitChan ch p r) := h.sent (emitChan_sentOnly ..)

theorem emitPart (h : BanksKept s t) {p cls : Nat} {r : Record} : BanksKept s (t.emitPart p cls r) := h.sent (emitPart_sentOnly ..)

theorem emitBoth (h : BanksKept s t) {p cls : Nat} {r : Record} : BanksKept s (t.emitBoth p cls r) := h.sent (emitBoth_sentOnly ..)

theorem cput (h : BanksKept s t) {w : Nat} {v : Word} : BanksKept s (t.cput w v) := by
  have kept := cput_rereadOnly t w v
  generalize t.cput w v = u at kept
  obtain ⟨⟨_, _, _, rfl⟩, read⟩ := kept
  exact h.trans ⟨rfl, rfl, read .IMG_GEN 0 0 (by decide) (by decide)⟩

/-! ## Buffers (R140, R271–R275, R398) -/

theorem modPort (h : BanksKept s t) {p : Nat} {g : PortSt → PortSt} : BanksKept s (t.modPort p g) := h.beside rfl rfl

theorem setXoff (h : BanksKept s t) {p c : Nat} {on : Bool} : BanksKept s (t.setXoff p c on) :=
  .ite (.modPort (.fset h (by decide))) (.fset h (by decide))

theorem pfcCount (h : BanksKept s t) {p c n : Nat} {up : Bool} : BanksKept s (t.pfcCount p c up n) := by
  unfold State.pfcCount
  extract_lets counted
  have kept : BanksKept s counted := .ite (.bumpSat h (by decide)) (.drop h (by decide))
  exact .ite (.ite (.setXoff kept) kept) (.ite (.setXoff kept) (.ite (.setXoff kept) kept))

theorem modThr (h : BanksKept s t) {n : Nat} {g : Thread → Thread} : BanksKept s (t.modThr n g) := h.beside rfl rfl

theorem leaveWindows (h : BanksKept s t) {b : Nat} {keeps : Nat → Bool} : BanksKept s (t.leaveWindows b keeps) :=
  .foldl h (fun u _ => .modThr (.refl u)) _

theorem uncharge (h : BanksKept s t) {a : Acct} {n : Nat} : BanksKept s (t.uncharge a n) := by
  cases a with
  | none => exact h
  | ingGen => exact .drop (.drop h (by decide)) (by decide)
  | ingExp p =>
    have taken : BanksKept s ((t.drop F.BPM_PORTUSE.units 0 p n).drop F.BPM_ACCT.used 0 1 n) := .drop (.drop h (by decide)) (by decide)
    exact taken.beside rfl rfl
  | hdrm => exact h.beside rfl rfl
  | quota => exact .drop h (by decide)
  | common => exact .drop (.drop h (by decide)) (by decide)

theorem bpmCount (h : BanksKept s t) {p i : Nat} : BanksKept s (t.bpmCount p i) := .bump h (by decide)

theorem setBuf (h : BanksKept s t) {n : Nat} {b : Buf} : BanksKept s (t.setBuf n b) := h.beside rfl rfl

theorem freeBuf (h : BanksKept s t) {b : Nat} : BanksKept s (t.freeBuf b) := by
  unfold State.freeBuf
  split
  · exact h
  next x _ =>
    have erased : BanksKept s { t with bufs := tabErase t.bufs b } := h.beside rfl rfl
    extract_lets n freed _ marked
    have kept : BanksKept s freed := .bpmCount (.uncharge (.leaveWindows erased))
    have withdrawn : BanksKept s marked := .ite (kept.beside rfl rfl) kept
    split
    · exact .pfcCount withdrawn
    · exact withdrawn

theorem freeDropped (h : BanksKept s t) {b : Nat} : BanksKept s (t.freeDropped b) := by
  unfold State.freeDropped
  split
  · exact .ite h (.freeBuf h)
  · exact h

/-! ## Traces (R525–R527) -/

theorem setTraces (h : BanksKept s t) {l : Tab TraceSt} : BanksKept s (t.setTraces l) :=
  have listed : BanksKept s { t with trace := { t.trace with open_ := l } } := h.beside rfl rfl
  .fset listed (by decide)

theorem traceClose (h : BanksKept s t) {n : Nat} : BanksKept s (t.traceClose n) := by
  unfold State.traceClose
  split
  · exact .ite (.setTraces h) h
  · exact h

theorem modTrace (h : BanksKept s t) {n : Nat} {g : TraceSt → TraceSt} : BanksKept s (t.modTrace n g) := by
  unfold State.modTrace
  split
  · exact h.beside rfl rfl
  · exact h

theorem traceRx (h : BanksKept s t) {f : Frame} {code : Nat} : BanksKept s (t.traceRx f code) := by
  unfold State.traceRx
  split
  · exact h
  · exact .traceClose (.modTrace (.emitPart h))

theorem traceTx (h : BanksKept s t) {c : Copy} {kind outcome : Nat} {last : Option Nat} : BanksKept s (t.traceTx c kind outcome last) := by
  unfold State.traceTx
  split
  · exact h
  · exact .traceClose (.modTrace (.emitPart h))

/-! ## Faults and the tailings log (R531–R538) -/

theorem tailAppend (h : BanksKept s t) {ws : List Nat} {graver : Bool} : BanksKept s (t.tailAppend ws graver) := by
  unfold State.tailAppend
  refine .ite (.bumpSat h (by decide)) ?_
  extract_lets tail _ entered counted
  have logged : BanksKept s entered := h.beside rfl rfl
  have kept : BanksKept s counted := .fset logged (by decide)
  exact .ite (.fset kept (by decide)) kept

theorem refreshFaultN (h : BanksKept s t) : BanksKept s t.refreshFaultN := .fset h (by decide)

theorem mergeFault (h : BanksKept s t) {f : FaultRec} {cause unit cls : Nat} : BanksKept s (t.mergeFault f cause unit cls) := by
  unfold State.mergeFault
  extract_lets g old new _ merged held counted overflowed frozen
  have recorded : BanksKept s merged := h.beside rfl rfl
  have kept : BanksKept s counted := .bump recorded (by decide)
  have full : BanksKept s overflowed := .ite (.bump (.fset kept (by decide)) (by decide)) kept
  have froze : BanksKept s frozen := .ite (.fset full (by decide)) full
  exact .refreshFaultN (.emitBoth froze)

theorem openFault (h : BanksKept s t) {f : FaultRec} : BanksKept s (t.openFault f) := by
  unfold State.openFault
  extract_lets slot g _ listed counted overflowed recorded logged
  have entered : BanksKept s listed := .ite (h.beside rfl rfl) h
  have kept : BanksKept s counted := .bump entered (by decide)
  have full : BanksKept s overflowed := .ite (.bump (.fset kept (by decide)) (by decide)) kept
  exact .refreshFaultN (.tailAppend (.emitBoth full))

theorem raise (h : BanksKept s t) {f : FaultRec} : BanksKept s (t.raise f) := by
  unfold State.raise
  split
  · exact .mergeFault h
  · exact .openFault h

theorem fenceUnit (h : BanksKept s t) {n : Nat} : BanksKept s (t.fenceUnit n) := by
  unfold State.fenceUnit
  have halted : BanksKept s (t.fset F.DMA_CH_STATUS.state (n - 0xB00) 0 6) := .fset h (by decide)
  exact .ite (.ite (.fset h (by decide)) h) (.ite (halted.beside rfl rfl) (h.beside rfl rfl))

/-! ## Operations on buffers, and copies that leave them (R270–R275) -/

theorem badHandle (h : BanksKept s t) {unit op n : Nat} : BanksKept s (t.badHandle unit op n) :=
  .raise (.fenceUnit (.emitBoth (.wr (.bpmCount h) (by decide))))

theorem refuseOp (h : BanksKept s t) {p status : Nat} : BanksKept s (t.refuseOp p status) := by
  unfold State.refuseOp
  split
  · exact .bpmCount h
  · exact h

theorem quarantine (h : BanksKept s t) {unit op status n : Nat} {b : Buf} : BanksKept s (t.quarantine unit op status n b) :=
  .ite h (.emitBoth (.bpmCount (.bump (.setBuf h) (by decide))))

theorem opEffect (h : BanksKept s t) {unit op n arg : Nat} {b : Buf} : BanksKept s (t.opEffect unit op n arg b) := by
  unfold State.opEffect
  split
  · exact .bpmCount (.setBuf h)
  · exact .bpmCount (.setBuf h)
  · exact .freeBuf h
  · exact .leaveWindows (.setBuf h)
  · exact .emitBoth (.bpmCount (.drop (.freeBuf (.setBuf h)) (by decide)))
  · exact .ite (.bpmCount (.setBuf h)) (.ite h (.freeBuf (.setBuf h)))
  · exact h

theorem bpmOp (h : BanksKept s t) {unit p op n arg : Nat} : BanksKept s (t.bpmOp unit p op n arg).2 := by
  unfold State.bpmOp
  split
  · exact .badHandle h
  · split
    · exact refuseOp (p := p) (status := 3) h
    · extract_lets status refused
      have kept : BanksKept s refused := .refuseOp h
      split
      · exact .opEffect h
      · split
        · exact .quarantine kept
        · exact kept

theorem balAdd (h : BanksKept s t) {p i n : Nat} : BanksKept s (t.balAdd p i n) := h.beside rfl rfl

theorem balSub (h : BanksKept s t) {p i n : Nat} : BanksKept s (t.balSub p i n) := h.beside rfl rfl

/-! ## Frames and queues (R26, R39, R286, R331) -/

theorem refreshOld (h : BanksKept s t) : BanksKept s t.refreshOld := by
  unfold State.refreshOld
  refine .ite h ?_
  extract_lets n counted
  have kept : BanksKept s counted := .fset h (by decide)
  exact .ite (.emitPart (.fset kept (by decide))) kept

theorem frameGone (h : BanksKept s t) {id : Nat} : BanksKept s (t.frameGone id) := .refreshOld (h.beside rfl rfl)

theorem modFrame (h : BanksKept s t) {id : Nat} {g : Frame → Frame} : BanksKept s (t.modFrame id g) := by
  unfold State.modFrame
  split
  · exact h.beside rfl rfl
  · exact h

theorem copyGone (h : BanksKept s t) {c : Copy} : BanksKept s (t.copyGone c) := by
  unfold State.copyGone
  split
  · exact .ite (.frameGone h) (.modFrame h)
  · exact h

theorem dropCopy (h : BanksKept s t) {c : Copy} {balance outcome : Nat} : BanksKept s (t.dropCopy c balance outcome) :=
  .copyGone (.traceTx (.balAdd (.bpmOp h)))

theorem dropPunt (h : BanksKept s t) {q : Punt} {balance outcome : Nat} : BanksKept s (t.dropPunt q balance outcome) :=
  .copyGone (.traceTx (.balAdd (.bpmOp h)))

theorem withdrawPunts (h : BanksKept s t) {id : Nat} : BanksKept s (t.withdrawPunts id) := by
  unfold State.withdrawPunts
  refine .foldl h (fun u e => ?_) _
  have emptied : BanksKept u { u with punts := tabSet [] u.punts e.1 (e.2.filter fun q => q.frame ≠ id) } := (refl u).beside rfl rfl
  exact .ite (.refl u) (.foldl emptied (fun v _ => .dropPunt (.refl v)) _)

theorem setQueue (h : BanksKept s t) {n : Nat} {q : Queue} : BanksKept s (t.setQueue n q) := h.beside rfl rfl

theorem modSetNode (h : BanksKept s t) {port set : Nat} {g : SetNode → SetNode} : BanksKept s (t.modSetNode port set g) := h.beside rfl rfl

theorem refreshTag (h : BanksKept s t) {port set c : Nat} : BanksKept s (t.refreshTag port set c) := by
  unfold State.refreshTag
  refine .ite h ?_
  extract_lets n q st tagged any node
  have kept : BanksKept s tagged := by
    unfold tagged
    split
    · exact .setQueue h
    · exact .setQueue h
    · exact h
  exact .ite (.modSetNode kept) (.ite (.modSetNode kept) kept)

theorem filterQueue (h : BanksKept s t) {n : Nat} {keep : Copy → Bool} : BanksKept s (t.filterQueue n keep) :=
  .refreshTag (.setQueue h)

theorem withdraw (h : BanksKept s t) {id : Nat} : BanksKept s (t.withdraw id) :=
  .foldl (.withdrawPunts h) (fun u _ => .ite (.refl u) (.foldl (.filterQueue (.refl u)) (fun v _ => .dropCopy (.refl v)) _)) _

theorem freeFrameBuf (h : BanksKept s t) {f : Frame} : BanksKept s (t.freeFrameBuf f) := .ite (.drop (.freeDropped h) (by decide)) h

theorem preDrop (h : BanksKept s t) {id : Nat} {f : Frame} : BanksKept s (t.preDrop id f) := by
  unfold State.preDrop
  extract_lets added taken freed traced
  have left : BanksKept s taken := .ite (.balSub (.balAdd h)) (.balSub (.balAdd h))
  have kept : BanksKept s freed := .ite (.freeDropped left) (.freeFrameBuf left)
  exact .ite (.modFrame (.traceRx kept)) (.frameGone (.traceRx kept))

theorem failFrame (h : BanksKept s t) {id : Nat} : BanksKept s (t.failFrame id) := by
  unfold State.failFrame
  split
  · exact h
  · refine .ite (.preDrop h) ?_
    extract_lets marked withdrawn
    have kept : BanksKept s withdrawn := .withdraw (.modFrame h)
    split
    · exact .ite (.bump kept (by decide)) (.ite kept (.frameGone kept))
    · exact kept

theorem cutRx (h : BanksKept s t) {p : Nat} : BanksKept s (t.cutRx p) := by
  unfold State.cutRx
  extract_lets cut
  have kept {u : State} (k : BanksKept s u) (pmac : Bool) : BanksKept s (cut u pmac) := by
    unfold cut
    split
    · split
      · exact .failFrame (.modPort (.bump k (by decide)))
      · exact k
    · exact k
  exact kept (kept h false) true

/-! ## Ports (R117–R122, R143, R503) -/

theorem clearPartners (h : BanksKept s t) {p : Nat} : BanksKept s (t.clearPartners p) :=
  .modPort (.foldl h (fun u _ => .wr (.refl u) (by decide)) _)

theorem lostLink (h : BanksKept s t) {p : Nat} : BanksKept s (t.lostLink p) :=
  .fset (.fset (.fset (.fset (.fset h (by decide)) (by decide)) (by decide)) (by decide)) (by decide)

theorem squelchPort (h : BanksKept s t) {p cause : Nat} {lane : Option Nat} : BanksKept s (t.squelchPort p cause lane) :=
  .foldl h (fun u _ => .ite (.ite (.refl u) (.emitPart (.fset (.refl u) (by decide)))) (.refl u)) _

theorem setVerify (h : BanksKept s t) {p st : Nat} : BanksKept s (t.setVerify p st) := .ite h (.emitBoth (.fset h (by decide)))

theorem refreshMm (h : BanksKept s t) {p : Nat} {restart : Bool} : BanksKept s (t.refreshMm p restart) :=
  .fset (.ite (.setVerify h) (.ite (.setVerify (.modPort h)) h)) (by decide)

theorem portTo (h : BanksKept s t) {p new cause : Nat} : BanksKept s (t.portTo p new cause) := by
  unfold State.portTo
  extract_lets old status timed entered cut
  have kept : BanksKept s entered := .emitBoth (.modPort (.fset (.fset h (by decide)) (by decide)))
  have left : BanksKept s cut := .modPort (.cutRx kept)
  exact .ite h (.ite (.refreshMm (.squelchPort (.lostLink (.clearPartners left)))) (.ite (.refreshMm kept) kept))

theorem portPresent (h : BanksKept s t) {p cause : Nat} : BanksKept s (t.portPresent p cause) :=
  .ite (.portTo (.portTo h)) (.portTo h)

theorem presenceSeen (h : BanksKept s t) {p : Nat} : BanksKept s (t.presenceSeen p) :=
  .ite (.modPort (.modPort (.fset h (by decide)))) (.modPort (.fset h (by decide)))

theorem portEnable (h : BanksKept s t) {p cause : Nat} : BanksKept s (t.portEnable p cause) :=
  .ite h (.ite (.portPresent h) (.ite (.presenceSeen (.portTo h)) (.portTo h)))

theorem takeMode (h : BanksKept s t) {p : Nat} : BanksKept s (t.takeMode p) := by
  unfold State.takeMode
  extract_lets ended
  have kept : BanksKept s ended := .modPort h
  exact .ite (.portTo kept)
    (.ite (.ite (.portPresent kept) (.ite (.presenceSeen kept) kept)) (.ite (.portEnable kept) kept))

theorem takeModes (h : BanksKept s t) : BanksKept s t.takeModes := .foldl h (fun u _ => .refreshMm (.takeMode (.refl u))) _

/-- The enables that were stored for the castling are taken from the list; the bank map is kept (R66). -/
theorem takeEnables (h : BanksKept s t) {cause : Nat} : BanksKept s (t.takeEnables cause) :=
  have emptied : BanksKept s { t with image := { t.image with storedEnables := [] } } := h.trans ⟨rfl, rfl, rfl⟩
  .foldl emptied (fun u _ => .ite (.portEnable (.refl u)) (.refl u)) _

/-! ## Cipher lanes (R469–R475) -/

theorem setBufByte (h : BanksKept s t) {b i : Nat} {v : Byte} : BanksKept s (t.setBufByte b i v) := .ite (.cput h) (h.beside rfl rfl)

theorem bufWrite (h : BanksKept s t) {b i : Nat} {bs : List Byte} : BanksKept s (t.bufWrite b i bs) := by
  induction bs generalizing t i with
  | nil => exact h
  | cons x bs ih => exact ih (.setBufByte h)

theorem cmemWrite (h : BanksKept s t) {a : Nat} {bs : List Byte} : BanksKept s (t.cmemWrite a bs) :=
  .foldl h (fun u _ => .ite (.cput (.refl u)) (.refl u)) _

theorem enterReq (h : BanksKept s t) {write : Bool} {r : LineReq} : BanksKept s (t.enterReq write r) := by
  unfold State.enterReq State.setReqs
  split
  · exact h
  · exact .ite (.ite (h.beside rfl rfl) (h.beside rfl rfl)) (h.beside rfl rfl)

theorem lineRequest (h : BanksKept s t) {write : Bool} {queue : Option Nat} {b j : Nat} : BanksKept s (t.lineRequest write queue b j) := by
  unfold State.lineRequest
  split
  · exact h
  · extract_lets r _ awake
    have kept : BanksKept s awake := h.beside rfl rfl
    exact .ite kept (.enterReq kept)

theorem takeTurn (h : BanksKept s t) {write : Bool} {p : Nat} : BanksKept s (t.takeTurn write p) := .ite (h.beside rfl rfl) (h.beside rfl rfl)

theorem deepTouch (h : BanksKept s t) {write : Bool} {b off n : Nat} : BanksKept s (t.deepTouch write b off n) :=
  .ite h (.foldl (.takeTurn h) (fun u _ => .lineRequest (.refl u)) _)

theorem twinSend (h : BanksKept s t) {m : TwinMsg} : BanksKept s (t.twinSend m) := h.beside rfl rfl

theorem spaceWrite (h : BanksKept s t) {p off : Nat} {sp : Space} {bs : List Byte} : BanksKept s (t.spaceWrite p sp off bs) := by
  unfold State.spaceWrite
  split
  · exact h.beside rfl rfl
  · exact .cmemWrite h
  · exact .bump (.twinSend h) (by decide)
  · exact .deepTouch (.bufWrite h)
  · exact h

theorem zeroOut (h : BanksKept s t) {p : Nat} {d : Desc} : BanksKept s (t.zeroOut p d) := .ite h (.spaceWrite h)

theorem setG (h : BanksKept s t) {n r : Nat} {v : Word} : BanksKept s (t.setG n r v) := .ite h (.modThr h)

theorem setEvents (h : BanksKept s t) {n evs : Nat} : BanksKept s (t.setEvents n evs) := by
  unfold State.setEvents
  refine .ite h ?_
  extract_lets ev
  split
  · extract_lets woken taken
    have kept : BanksKept s taken := .fset (.modThr (.setG h)) (by decide)
    exact .ite (.ite (.fset kept (by decide)) (.modThr kept)) (.fset h (by decide))
  · exact .fset h (by decide)

theorem announce (h : BanksKept s t) {ch part : Nat} {rec_ msi sev : Bool} {r : Record} {wake : State → State}
    (woken : ∀ {u}, BanksKept s u → BanksKept s (wake u)) : BanksKept s (t.announce ch part rec_ msi sev r wake) := by
  unfold State.announce
  extract_lets written raised told
  have sent : BanksKept s written := .ite (.emitChan h) h
  have kept : BanksKept s told := .ite (sent.sent (raiseVec_sentOnly ..)) sent
  exact .ite (woken kept) kept

theorem unbound (h : BanksKept s t) {p : Nat} : BanksKept s (t.unbound p) := .bump h (by decide)

theorem finishJob (h : BanksKept s t) {l : Nat} {d : Desc} {e : DescEnd} : BanksKept s (t.finishJob l d e) := by
  unfold State.finishJob
  extract_lets p alg zero zeroed ended st w answered cnt counted failed coded r ch rec_ wake told
  have zeroedKept : BanksKept s zeroed := .ite (.zeroOut h) h
  have answeredKept : BanksKept s answered := .ite (zeroedKept.beside rfl rfl) (.cput (.cput zeroedKept))
  have one {u : State} (k : BanksKept s u) (i n : Nat) : BanksKept s (cnt u i n) := .bump k (by decide)
  have countedKept : BanksKept s counted := .bump (one (one (one answeredKept _ _) _ _) _ _) (by decide)
  have failedKept : BanksKept s failed := .ite (one countedKept _ _) (.ite (one countedKept _ _) (.ite (one countedKept _ _) countedKept))
  have kept : BanksKept s coded := .ite failedKept (.fset failedKept (by decide))
  have woken {u : State} (k : BanksKept s u) : BanksKept s (wake u) := by
    unfold wake
    split
    · exact .ite (.setEvents k) k
    · exact k
  have toldKept : BanksKept s told := .ite (.unbound kept) kept
  exact .ite (.announce kept woken) (.ite (woken toldKept) toldKept)

theorem zeroise (h : BanksKept s t) {l : Nat} : BanksKept s (t.zeroise l) := by
  have emptied : BanksKept s (t.modLane l fun _ => {}) := h.beside rfl rfl
  exact .fset (.fset (.fset emptied (by decide)) (by decide)) (by decide)

theorem releaseLane (h : BanksKept s t) {l : Nat} : BanksKept s (t.releaseLane l) := by
  unfold State.releaseLane
  refine .ite h ?_
  extract_lets ended
  have kept : BanksKept s ended := by
    unfold ended
    split
    · exact .ite (.finishJob h) h
    · exact h
  exact .fset (.fset (.zeroise kept) (by decide)) (by decide)

/-! ## What a castling of scope H applies (R103, R268, R289, R387, R545) -/

theorem takeSafe (h : BanksKept s t) : BanksKept s t.takeSafe := .foldl h (fun u _ => .fset (.refl u) (by decide)) _

theorem takeSlots (h : BanksKept s t) : BanksKept s t.takeSlots :=
  .foldl h (fun u _ => .ite (.refl u) (.ite (.refl u) (.ite (.fset (.fset (.refl u) (by decide)) (by decide)) (.fset (.refl u) (by decide))))) _

/-- The definition is unfolded as a function: applied, it is a `match` on a run of 2048 steps, which the kernel would evaluate. -/
theorem refreshHeadroom (h : BanksKept s t) : BanksKept s t.refreshHeadroom := by
  obtain ⟨refresh, eq⟩ : ∃ g, g = State.refreshHeadroom := ⟨_, rfl⟩
  rw [← eq]
  delta State.refreshHeadroom at eq
  subst eq
  beta_reduce
  extract_lets
  split
  next swept total full sweep =>
    have kept : BanksKept (t, 0, false).1 (swept, total, full).1 := by
      rw [← sweep]
      refine foldl_rel (R := fun a b : State × Nat × Bool => BanksKept a.1 b.1) (fun a => refl a.1) trans (fun a k => ?_) _ _
      obtain ⟨u, n, done⟩ := a
      dsimp only
      split
      · exact .fset (refl u) (by decide)
      · split
        · exact .fset (refl u) (by decide)
        · exact .fset (refl u) (by decide)
    exact .fset (h.trans kept) (by decide)

theorem takeMirror (h : BanksKept s t) : BanksKept s t.takeMirror := by
  unfold State.takeMirror
  extract_lets w sides
  have kept : BanksKept s sides := .foldl h (fun u _ => .wr (.wr (.refl u) (by decide)) (by decide)) _
  exact .foldl kept (fun u _ => .wr (.refl u) (by decide)) _

theorem mirrorTaken (h : BanksKept s t) : BanksKept s { t with image := { t.image with mirrorStaged := false } } := h.trans ⟨rfl, rfl, rfl⟩

theorem applyH (h : BanksKept s t) : BanksKept s t.applyH := by
  unfold State.applyH
  extract_lets limited mirrored
  have taken : BanksKept s limited := .refreshHeadroom (.takeSlots (.takeSafe h))
  have kept : BanksKept s mirrored := .ite (.takeMirror taken) taken
  exact .foldl (.mirrorTaken kept) (fun u _ => .ite (.releaseLane (.refl u)) (.refl u)) _

/-- The castling record, and its entry in the tailings log (R72, R73). -/
theorem castleRecord (h : BanksKept s t) {f : Func} {code result mask stamp : Nat} {tail : Bool} :
    BanksKept s (t.castleRecord f code result mask stamp tail) := .ite (.tailAppend (.emitBoth h)) (.emitBoth h)

end BanksKept
end Sys2Proof.Machine
end

section
/-! PROOFS. Castling (R63–R69): the swap of banks at the castling time, which settles O12. -/

namespace Sys2Proof.Machine

/-! ## A run over scopes that changes each in its own place -/

/-- A run over distinct scopes, each step of which changes what is read of its own scope alone. -/
theorem foldl_read {β : Type} {read : State → Nat → β} {f : State → Nat → State} {g : β → β} {l : List Nat} {j : Nat} (distinct : l.Nodup)
    (here : ∀ u, j ∈ l → read (f u j) j = g (read u j)) (other : ∀ u, ∀ k ∈ l, j ≠ k → read (f u k) j = read u j) (s : State) :
    read (l.foldl f s) j = if j ∈ l then g (read s j) else read s j := by
  induction l generalizing s with
  | nil => rfl
  | cons k l ih =>
    obtain ⟨fresh, distinct⟩ := List.nodup_cons.1 distinct
    rw [List.foldl_cons, ih distinct (fun u m => here u (List.mem_cons_of_mem k m)) (fun u x m => other u x (List.mem_cons_of_mem k m))]
    by_cases same : j = k
    · subst same
      rw [if_neg fresh, if_pos List.mem_cons_self]
      exact here s List.mem_cons_self
    · rw [other s k List.mem_cons_self same]
      simp only [List.mem_cons, same, false_or]

theorem mem_scopesOf {mask sc : Nat} : sc ∈ scopesOf mask ↔ sc ≤ 16 ∧ mask.testBit sc = true := by
  simp [scopesOf, bit, Nat.testBit_eq_decide_div_mod_eq, Nat.shiftRight_eq_div_pow, Nat.lt_succ_iff]

theorem scopesOf_nodup (mask : Nat) : (scopesOf mask).Nodup := List.nodup_range.filter _

/-! ## The swap (R39, R67) -/

theorem bit_eq_testBit (v b : Nat) : bit v b = v.testBit b := by
  simp [bit, Nat.testBit_eq_decide_div_mod_eq, Nat.shiftRight_eq_div_pow]

/-- A scope's entry in the bank map after the swap of a mask's scopes, from its entry before. -/
def Scope.swapped (mask sc : Nat) (b : Scope) : Scope :=
  if mask.testBit sc then { active := 1 - b.active % 2, old := b.active % 2 } else { active := b.active % 2, old := b.active % 2 }

theorem scope_swapBanks (s : State) (mask : Nat) {sc : Nat} (h : sc ≤ 16) : (s.swapBanks mask).scope sc = (s.scope sc).swapped mask sc := by
  unfold State.swapBanks
  rw [foldl_read (read := State.scope) (g := Scope.swapped mask sc) List.nodup_range, if_pos (List.mem_range.2 (Nat.lt_succ_of_le h))]
  · intro u _
    simp only [State.scope, State.activeOf, tabGet_set_same, bit_eq_testBit]
    rfl
  · intro u k _ other
    exact tabGet_set_ne _ _ _ other

theorem swapBanks_regs (s : State) (mask : Nat) : (s.swapBanks mask).regs = s.regs := by
  unfold State.swapBanks
  refine foldl_rel (R := fun s t : State => t.regs = s.regs) (fun _ => rfl) (fun h k => k.trans h) (fun u sc => ?_) _ _
  rfl

theorem scope_congr {s t : State} (h : t.image.scopes = s.image.scopes) (sc : Nat) : t.scope sc = s.scope sc := by
  unfold State.scope
  rw [h]

theorem BanksKept.fget {s t : State} (h : BanksKept s t) {f : Fld} (g : f.reg = .IMG_GEN) : t.fget f = s.fget f := by
  unfold State.fget
  rw [g, h.gen]

theorem BanksKept.setScopeState {s t : State} (h : BanksKept s t) {sc n : Nat} : BanksKept s (t.setScopeState sc n) :=
  .ite (.wr h (by decide)) (.wr h (by decide))

/-- The castling time: the mask's scopes are swapped, the generation goes on by one with the other tag, and no castling is pending (R67). -/
theorem doCastle_banks (s : State) (c : Castle) :
    ∃ u, BanksKept u (s.doCastle c) ∧ u.image.castle = none ∧ u.image.scopes = (s.swapBanks c.mask).image.scopes ∧
      u.fget F.IMG_GEN.gen = (s.fget F.IMG_GEN.gen + 1) % 2 ^ 16 ∧ u.tagNow = 1 - s.tagNow := by
  unfold State.doCastle
  extract_lets generation tagged draining serials _ ended cleared fresh applied enabled
  have unswapped (f : Fld) : (s.swapBanks c.mask).fget f = s.fget f :=
    congrArg (fun r => fldGet (regGet r f.reg 0 0) f.hi f.lo) (swapBanks_regs s c.mask)
  have drained : BanksKept tagged draining := .foldl (.refl _) (fun u _ => .setScopeState (.refl u)) _
  have numbered : BanksKept tagged serials := by
    refine .foldl drained (fun u sc => ?_) _
    split
    · exact .ite (.fset (.fset (.refl u) (by decide)) (by decide)) (.fset (.refl u) (by decide))
    · exact .refl u
  have kept : BanksKept ended ((enabled.castleRecord c.fn 0x34 imgOk c.mask (stampOf c.time) true).refreshOld) := by
    have status : BanksKept ended cleared := .fset (.fset (.refl _) (by decide)) (by decide)
    have meters : BanksKept ended fresh := status.beside rfl rfl
    have appliedKept : BanksKept ended applied := .ite (.takeModes (.applyH meters)) meters
    exact .refreshOld (.castleRecord (.takeEnables appliedKept))
  have scopes : ended.image.scopes = (s.swapBanks c.mask).image.scopes := numbered.scopes
  refine ⟨ended, kept, rfl, scopes, ?_, ?_⟩
  · calc ended.fget F.IMG_GEN.gen
        = tagged.fget F.IMG_GEN.gen := numbered.fget rfl
      _ = generation.fget F.IMG_GEN.gen := generation.fget_fset_fld 0 0 _ rfl (.inr (by decide))
      _ = (s.fget F.IMG_GEN.gen + 1) % 65536 % 2 ^ 16 := State.fget_fset_same _ 0 0 _ (by decide)
      _ = (s.fget F.IMG_GEN.gen + 1) % 2 ^ 16 := Nat.mod_mod _ _
  · have tag : generation.fget F.IMG_GEN.tag = s.tagNow := by
      unfold generation
      rw [State.fget_fset_fld (f := F.IMG_GEN.gen) (g := F.IMG_GEN.tag) _ 0 0 _ rfl (.inl (by decide))]
      exact unswapped F.IMG_GEN.tag
    calc ended.tagNow
        = tagged.fget F.IMG_GEN.tag := numbered.fget rfl
      _ = (1 - generation.fget F.IMG_GEN.tag) % 2 ^ 1 := generation.fget_fset_same 0 0 _ (by decide)
      _ = 1 - s.tagNow := by rw [tag, Nat.mod_eq_of_lt (by omega)]

/-- Settles O12: the swap gives the bank map, and what the castling applies besides keeps it (`BanksKept`). -/
theorem castlingSwapsTheMaskedScopes : Obligations.CastlingSwapsTheMaskedScopes := by
  unfold Obligations.CastlingSwapsTheMaskedScopes
  intro s c pending accepted
  have reached : exec .castlingTime s = .next (((s.reach c.time).doCastle c).withQueue s.pending) := by
    show execCastlingTime s = _
    simp only [execCastlingTime, State.act, pending, accepted, if_true]
  have timed : BanksKept s (s.reach c.time) := .ite ((BanksKept.refl s).beside rfl rfl) (.refl s)
  obtain ⟨u, kept, castle, scopes, gen, tag⟩ := doCastle_banks (s.reach c.time) c
  refine ⟨_, reached, ?_, ?_, fun sc small => ?_, kept.castle.trans castle⟩
  · exact (kept.fget rfl).trans (gen.trans (by rw [timed.fget rfl]))
  · exact (kept.fget rfl).trans (tag.trans (congrArg (1 - ·) (timed.fget rfl)))
  · calc ((s.reach c.time).doCastle c).scope sc
        = ((s.reach c.time).swapBanks c.mask).scope sc := scope_congr (kept.scopes.trans scopes) sc
      _ = (s.scope sc).swapped c.mask sc := by rw [scope_swapBanks _ _ small, scope_congr timed.scopes]

end Sys2Proof.Machine
end

section
/-! PROOFS. The commands of the image loader (R52–R74): what reaches a command register, what an answer to a command leaves alone, and the states
of SHADOW banks (R60). -/

namespace Sys2Proof.Machine

/-! ## Changes of registers -/

/-- From `s` to `t`, nothing has changed but the stages of functions and the registers listed. -/
def regsOnly (rs : List Reg) (s t : State) : Prop :=
  t = { s with fns := t.fns, regs := t.regs } ∧ ∀ q c i, q ∉ rs → t.rd q c i = s.rd q c i

section
variable {rs qs : List Reg} {s t u : State}

theorem regsOnly.refl (s : State) : regsOnly rs s s := ⟨rfl, fun _ _ _ _ => rfl⟩

theorem regsOnly.trans (h : regsOnly rs s t) (k : regsOnly qs t u) : regsOnly (rs ++ qs) s u := by
  obtain ⟨rest, read⟩ := h
  obtain ⟨rest', read'⟩ := k
  refine ⟨by rw [rest', rest], fun q c i other => ?_⟩
  rw [List.mem_append, not_or] at other
  exact (read' q c i other.2).trans (read q c i other.1)

theorem regsOnly.mono (h : regsOnly rs s t) (sub : rs ⊆ qs) : regsOnly qs s t :=
  ⟨h.1, fun q c i other => h.2 q c i fun m => other (sub m)⟩

theorem regsOnly.image (h : regsOnly rs s t) : t.image = s.image := by rw [h.1]

theorem regsOnly.planes (h : regsOnly rs s t) : t.planes = s.planes := by rw [h.1]

theorem regsOnly.time (h : regsOnly rs s t) : t.time = s.time := by rw [h.1]

theorem regsOnly.flt (h : regsOnly rs s t) : t.flt = s.flt := by rw [h.1]

/-- A field of a register that is not listed. -/
theorem regsOnly.fget (h : regsOnly rs s t) (f : Fld) (c i : Nat) (other : f.reg ∉ rs) : t.fget f c i = s.fget f c i :=
  congrArg (fldGet · f.hi f.lo) (h.2 f.reg c i other)

theorem regsOnly.flag (h : regsOnly rs s t) (f : Fld) (c i : Nat) (other : f.reg ∉ rs) : t.flag f c i = s.flag f c i := by
  unfold State.flag
  rw [h.fget f c i other]

theorem regsOnly_wr (s : State) (r : Reg) (c i : Nat) (v : RegVal) : regsOnly [r] s (s.wr r c i v) :=
  ⟨rfl, fun _ d j other => s.rd_wr_reg c i d j v fun e => other (List.mem_singleton.2 (ctorIdx_inj e))⟩

theorem regsOnly_modFn (s : State) (f : Func) (g : FnState → FnState) : regsOnly [] s (s.modFn f g) := ⟨rfl, fun _ _ _ _ => rfl⟩

end

/-! ## The states of SHADOW banks (R60) -/

theorem scopeState_congr {s t : State} (h0 : t.rd .IMG_SCOPE_STATE0 = s.rd .IMG_SCOPE_STATE0)
    (h1 : t.rd .IMG_SCOPE_STATE1 = s.rd .IMG_SCOPE_STATE1) (sc : Nat) : t.scopeState sc = s.scopeState sc := by
  unfold State.scopeState
  rw [h0, h1]

theorem regsOnly.scopeState {rs : List Reg} {s t : State} (h : regsOnly rs s t) (h0 : .IMG_SCOPE_STATE0 ∉ rs) (h1 : .IMG_SCOPE_STATE1 ∉ rs)
    (sc : Nat) : t.scopeState sc = s.scopeState sc := scopeState_congr (h.2 _ 0 0 h0) (h.2 _ 0 0 h1) sc

theorem sentOnly.scopeState {s t : State} (h : sentOnly s t) (sc : Nat) : t.scopeState sc = s.scopeState sc :=
  scopeState_congr (h.2 _ 0 0 (by decide)) (h.2 _ 0 0 (by decide)) sc

theorem setScopeState_regsOnly (s : State) (sc n : Nat) : regsOnly [.IMG_SCOPE_STATE0, .IMG_SCOPE_STATE1] s (s.setScopeState sc n) := by
  unfold State.setScopeState
  split
  · exact (regsOnly_wr s _ _ _ _).mono (by simp)
  · exact (regsOnly_wr s _ _ _ _).mono (by simp)

/-- A state code fits its three bits. -/
theorem code_mod {n : Nat} (code : n < 8) (k : Nat) : n % 2 ^ (3 * k + 2 + 1 - 3 * k) = n := by
  rw [show 3 * k + 2 + 1 - 3 * k = 3 by omega]
  exact Nat.mod_eq_of_lt code

/-- A scope's state reads as it was set. -/
theorem scopeState_setScopeState_same (s : State) {sc n : Nat} (small : sc ≤ 16) (code : n < 8) : (s.setScopeState sc n).scopeState sc = n := by
  have field (v : RegVal) (k : Nat) (fits : 3 * k + 2 < 72) : fldGet (fldSet v (3 * k + 2) (3 * k) n) (3 * k + 2) (3 * k) = n :=
    (fldGet_fldSet_same v _ _ n fits).trans (code_mod code k)
  unfold State.scopeState State.setScopeState
  split
  · rw [State.rd_wr_same]
    exact field _ sc (by omega)
  · rw [State.rd_wr_same]
    exact field _ (sc - 12) (by omega)

/-- The states of the other scopes are as they were. -/
theorem scopeState_setScopeState_ne (s : State) {sc k n : Nat} (other : sc ≠ k) : (s.setScopeState k n).scopeState sc = s.scopeState sc := by
  unfold State.scopeState State.setScopeState
  by_cases low : k < 12
  · rw [if_pos low]
    by_cases here : sc < 12
    · rw [if_pos here, if_pos here, State.rd_wr_same]
      exact fldGet_fldSet_ne _ _ _ _ _ _ (by omega)
    · rw [if_neg here, if_neg here, State.rd_wr_reg _ _ _ _ _ _ (by decide)]
  · rw [if_neg low]
    by_cases here : sc < 12
    · rw [if_pos here, if_pos here, State.rd_wr_reg _ _ _ _ _ _ (by decide)]
    · rw [if_neg here, if_neg here, State.rd_wr_same]
      exact fldGet_fldSet_ne _ _ _ _ _ _ (by omega)

/-! ## Answers to commands (R74) -/

theorem imgBegin_regsOnly (s : State) (f : Func) : regsOnly [.IMG_RESULT] s (s.imgBegin f) := regsOnly_wr s _ _ _ _

/-- A command that begins has no result yet. -/
theorem imgBegin_done (s : State) (f : Func) : (s.imgBegin f).fget F.IMG_RESULT.done f.idx = 0 :=
  (congrArg (fldGet · 35 35) (s.rd_wr_same .IMG_RESULT f.idx 0 0)).trans (by decide)

theorem imgDone_regsOnly (s : State) (f : Func) (code detail section_ : Nat) :
    regsOnly [.IMG_RESULT, .IMG_REFUSED] s (s.imgDone f code detail section_) := by
  unfold State.imgDone
  extract_lets answered
  have kept : regsOnly [.IMG_RESULT] s answered := regsOnly_wr s _ _ _ _
  split
  · exact kept.mono (by simp)
  · exact kept.trans (regsOnly_wr answered .IMG_REFUSED _ _ _)

/-- The result register of a function whose command has completed. -/
theorem imgDone_result (s : State) (f : Func) (code detail section_ : Nat) :
    (s.imgDone f code detail section_).rd .IMG_RESULT f.idx =
      BitVec.ofNat 72 (2 ^ 35 + section_ % 256 * 2 ^ 16 + detail % 64 * 2 ^ 8 + code) := by
  unfold State.imgDone
  split
  · exact s.rd_wr_same _ _ _ _
  · exact (State.rd_bumpSat_reg _ _ _ _ _ _ (by decide)).trans (s.rd_wr_same _ _ _ _)

/-- A command that completes shows that it is done, and its code. -/
theorem imgDone_fields (s : State) (f : Func) {code : Nat} (detail section_ : Nat) (fits : code < 64) :
    (s.imgDone f code detail section_).fget F.IMG_RESULT.done f.idx = 1 ∧
      (s.imgDone f code detail section_).fget F.IMG_RESULT.code f.idx = code := by
  unfold State.fget
  rw [show F.IMG_RESULT.done.reg = .IMG_RESULT from rfl, show F.IMG_RESULT.code.reg = .IMG_RESULT from rfl, imgDone_result]
  simp only [fldGet, BitVec.toNat_ofNat, Nat.shiftRight_eq_div_pow, F.IMG_RESULT.done, F.IMG_RESULT.code]
  omega

/-! ## What reaches a command register (R79) -/

theorem toNat_written (v : Nat) : (BitVec.ofNat 72 (v % 2 ^ 36)).toNat = v % 2 ^ 36 := by
  rw [BitVec.toNat_ofNat, Nat.mod_eq_of_lt (by omega)]

/-- The low bits of the value that a write of a register takes. -/
theorem fldGet_written (v : Nat) {hi : Nat} (small : hi < 36) : fldGet (BitVec.ofNat 72 (v % 2 ^ 36)) hi 0 = v % 2 ^ (hi + 1) := by
  have low : v % 2 ^ 36 % 2 ^ (hi + 1) = v % 2 ^ (hi + 1) := Nat.mod_mod_of_dvd v (Nat.pow_dvd_pow 2 (by omega))
  rw [fldGet, toNat_written, Nat.shiftRight_zero, Nat.sub_zero, low]

theorem goesTo_act {s : State} {g : State → State} {P : State → Prop} (holds : P ((g s).withQueue s.pending)) : goesTo (s.act g) P :=
  ⟨_, rfl, holds⟩

/-- A write that a register of one word takes changes the function's stages and that register, and has the register's effect. -/
theorem writeTo_wrote {s : State} {f : Func} {r : Reg} {c i v host : Nat} {head : Option (List Byte)} (taken : opens s f r i c)
    (word : r.place.wide = false) (rwl : isRwl r = false) (ind : isInd r = false) (lock : r ≠ .CPH_LOCK) (ctl : r ≠ .MAC_CTL) (set : r ≠ .SCH_SET) :
    ∃ u old was, regsOnly [r] s u ∧ s.writeTo f r i v host head = u.wrote f r c i old (BitVec.ofNat 72 (v % 2 ^ 36)) was host head := by
  rw [writeTo_opens v host head taken word (writeCode_plain s f r c _ rwl lock), putReg_plain _ f r c i _ host head rwl ind ctl set]
  exact ⟨_, _, _, (regsOnly_modFn s f _).trans (regsOnly_wr _ r c i _), rfl⟩

/-- A command that is a write of such a register has the register's effect, on a state that differs by the stages and that register only. -/
theorem goesTo_writeTo {s : State} {f : Func} {r : Reg} {c v host : Nat} {head : Option (List Byte)} {P : State → Prop} (taken : opens s f r 0 c)
    (word : r.place.wide = false) (rwl : isRwl r = false) (ind : isInd r = false) (lock : r ≠ .CPH_LOCK) (ctl : r ≠ .MAC_CTL) (set : r ≠ .SCH_SET)
    (holds : ∀ u old was, regsOnly [r] s u → P ((u.wrote f r c 0 old (BitVec.ofNat 72 (v % 2 ^ 36)) was host head).withQueue s.pending)) :
    goesTo (s.act fun s => s.writeTo f r 0 v host head) P := by
  obtain ⟨u, old, was, only, effect⟩ := writeTo_wrote (v := v) (host := host) (head := head) taken word rwl ind lock ctl set
  refine goesTo_act ?_
  rw [effect]
  exact holds u old was only

/-- A write of `IMG_CMD` is the command that its value names. -/
theorem goesTo_imgCmd {s : State} {f : Func} {v : Nat} {head : Option (List Byte)} {P : State → Prop} (taken : opens s f .IMG_CMD 0 f.idx)
    (holds : ∀ u, regsOnly [.IMG_CMD] s u → P ((u.effImgCmd f (v % 2 ^ 36) head).withQueue s.pending)) :
    goesTo (s.act fun s => s.writeTo f .IMG_CMD 0 v 0 head) P := by
  refine goesTo_writeTo taken rfl (by decide) rfl (by decide) (by decide) (by decide) fun u _ _ only => ?_
  rw [wrote_IMG_CMD, toNat_written]
  exact holds u only

/-! ## Key fusing (R47) -/

/-- `IMG_FUSE` starts fusing: 0x0F05 after exactly eight words, with no fusing running and no key fused. -/
def State.fuseStarts (s : State) (v : Nat) : Bool :=
  v % 2 ^ 16 = 0x0F05 && s.image.fkey.length = 8 && !s.image.fkeyOver && !s.image.fusing && !s.flag F.IMG_KEY.fused

/-- What a write of `IMG_FUSE` leaves: the word index back at 0, and fusing started with the words stored, or the refusal counted. -/
theorem effFuse_eq (s : State) (f : Func) (v : Nat) :
    let t : State := { s with image := { s.image with
      key := if s.fuseStarts v then s.image.fkey else s.image.key, fusing := s.image.fusing || s.fuseStarts v, fkey := [], fkeyOver := false } }
    s.effFuse f v = if s.fuseStarts v then t else t.bumpSat F.IMG_REFUSED.count f.idx 0 := rfl

theorem regsOnly.fuseStarts {rs : List Reg} {s t : State} (h : regsOnly rs s t) (other : .IMG_KEY ∉ rs) (v : Nat) :
    t.fuseStarts v = s.fuseStarts v := by
  unfold State.fuseStarts
  rw [h.image, h.flag F.IMG_KEY.fused 0 0 other]

theorem goesTo_imgFkeyWrite {s : State} {f : Func} {v : Nat} {P : State → Prop} (taken : opens s f .IMG_FKEY 0 0)
    (holds : ∀ u, regsOnly [.IMG_FKEY] s u → P ((u.effFkey (v % 2 ^ 32)).withQueue s.pending)) :
    goesTo (exec (.imgFkeyWrite f v) s) P := by
  refine goesTo_writeTo taken rfl (by decide) rfl (by decide) (by decide) (by decide) fun u _ _ only => ?_
  rw [wrote_IMG_FKEY, fldGet_written v (by decide)]
  exact holds u only

theorem goesTo_imgFuseWrite {s : State} {f : Func} {v : Nat} {P : State → Prop} (taken : opens s f .IMG_FUSE 0 0)
    (holds : ∀ u, regsOnly [.IMG_FUSE] s u → P ((u.effFuse f (v % 2 ^ 16)).withQueue s.pending)) :
    goesTo (exec (.imgFuseWrite f v) s) P := by
  refine goesTo_writeTo taken rfl (by decide) rfl (by decide) (by decide) (by decide) fun u _ _ only => ?_
  rw [wrote_IMG_FUSE, fldGet_written v (by decide)]
  exact holds u only

/-- Settles O10, by what each of the three commands leaves. -/
theorem keyFusingTakesEightWords : Obligations.KeyFusingTakesEightWords := by
  unfold Obligations.KeyFusingTakesEightWords
  refine ⟨fun s f v taken => ?word, fun s f taken words once idle unfused => ?fuse, fun s f v taken refused => ?refuse, fun s fusing => ?complete⟩
  case word =>
    refine goesTo_imgFkeyWrite taken fun u only => ?_
    rw [← only.image]
    refine ⟨?_, rfl⟩
    show (if u.image.fkey.length < 8 then u.image.fkey ++ [v % 2 ^ 32 % 2 ^ 32] else u.image.fkey) = _
    rw [Nat.mod_mod]
  case fuse =>
    have starts : s.fuseStarts (0x0F05 % 2 ^ 16) = true := by simp [State.fuseStarts, words, once, idle, unfused]
    refine goesTo_imgFuseWrite taken fun u only => ?_
    have starts' : u.fuseStarts (0x0F05 % 2 ^ 16) = true := (only.fuseStarts (by decide) _).trans starts
    rw [effFuse_eq, starts', ← only.image]
    exact ⟨Bool.or_true _, rfl, rfl⟩
  case refuse =>
    have stays : s.fuseStarts (v % 2 ^ 16) = false := by
      simp only [State.fuseStarts, Nat.mod_mod]
      simpa [or_assoc, imp_iff_not_or] using refused
    refine goesTo_imgFuseWrite taken fun u only => ?_
    have stays' : u.fuseStarts (v % 2 ^ 16) = false := (only.fuseStarts (by decide) _).trans stays
    have count := only.fget F.IMG_REFUSED.count f.idx 0 (by decide)
    rw [effFuse_eq, stays', ← only.image, ← count]
    exact ⟨rfl, rfl, State.fget_bumpSat_same _ _ _ _ (by decide)⟩
  case complete =>
    refine goesTo_act ?_
    rw [if_pos fusing]
    exact ⟨State.fget_fset_same _ _ _ _ (by decide), rfl, rfl⟩

end Sys2Proof.Machine
end

section
/-! PROOFS. DISCARD, APPROVE and the restores of SHADOW banks (R57, R58, R68, R74), which settle O9. -/

namespace Sys2Proof.Machine

/-! ## The op and the scope of a command (R52, R74) -/

theorem bits_op {op x : Nat} (small : op < 16) : bits ((op + x * 2 ^ 4) % 2 ^ 36) 3 0 = op := by
  simp only [bits, Nat.shiftRight_eq_div_pow]
  omega

theorem bits_scope {op x : Nat} (small : op < 16) : bits ((op + x % 32 * 2 ^ 4) % 2 ^ 36) 8 4 = x % 32 := by
  simp only [bits, Nat.shiftRight_eq_div_pow]
  omega

theorem effImgCmd_discard (s : State) (f : Func) (scope : Nat) (head : Option (List Byte)) :
    s.effImgCmd f ((3 + scope % 32 * 2 ^ 4) % 2 ^ 36) head = s.effDiscard f (scope % 32) := by
  unfold State.effImgCmd
  rw [bits_op (by decide), bits_scope (by decide)]
  rfl

theorem effImgCmd_approve (s : State) {f : Func} (own : f = .pf ∨ f = .console) {scope : Nat} (small : scope ≤ 16) (head : Option (List Byte)) :
    s.effImgCmd f ((4 + scope % 32 * 2 ^ 4) % 2 ^ 36) head = s.effApprove f scope := by
  unfold State.effImgCmd
  rw [bits_op (by decide), bits_scope (by decide), Nat.mod_eq_of_lt (by omega)]
  rcases own with rfl | rfl <;> rfl

theorem effImgCmd_invalid (s : State) (f : Func) {op : Nat} (high : 7 ≤ op) (small : op < 16) (head : Option (List Byte)) :
    s.effImgCmd f (max 7 (op % 16) % 2 ^ 36) head = (s.imgBegin f).imgDone f imgBadHeader 0 0 := by
  have named : bits (max 7 (op % 16) % 2 ^ 36) 3 0 = op := by
    simp only [bits, Nat.shiftRight_eq_div_pow]
    omega
  unfold State.effImgCmd
  rw [named]
  interval_cases op <;> rfl

/-! ## DISCARD (R57) -/

/-- The scope that a DISCARD names: a VF's own, whatever was written. -/
def discardScope (f : Func) (scope : Nat) : Nat :=
  match f with
  | .vf n => n
  | _ => scope

theorem imgBegin_scopeState (s : State) (f : Func) (sc : Nat) : (s.imgBegin f).scopeState sc = s.scopeState sc :=
  (imgBegin_regsOnly s f).scopeState (by decide) (by decide) sc

/-- The functions whose DISCARD waits for the restore of a scope, with one more. -/
def State.waitersWith (s : State) (sc : Nat) (f : Func) : List Nat :=
  let l := tabGet [] s.image.restoring sc
  if l.contains f.idx then l else l ++ [f.idx]

theorem mem_waitersWith (s : State) (sc : Nat) (f : Func) (k : Nat) : k ∈ s.waitersWith sc f ↔ k = f.idx ∨ k ∈ tabGet [] s.image.restoring sc := by
  unfold State.waitersWith
  dsimp only
  split
  next there =>
    have named : f.idx ∈ tabGet [] s.image.restoring sc := List.contains_iff_mem.1 there
    exact ⟨.inr, fun m => m.elim (fun e => e ▸ named) id⟩
  · simp [or_comm]

/-- DISCARD of a scope with something staged notes the function for the scope's restore. -/
theorem effDiscard_restores {s : State} {f : Func} {scope : Nat} (small : discardScope f scope ≤ 16)
    (state : s.scopeState (discardScope f scope) = 3 ∨ s.scopeState (discardScope f scope) = 4 ∨ s.scopeState (discardScope f scope) = 7) :
    s.effDiscard f scope = { s.imgBegin f with image := { s.image with
      restoring := tabSet [] s.image.restoring (discardScope f scope) (s.waitersWith (discardScope f scope) f) } } := by
  unfold State.effDiscard
  extract_lets begun sc
  have same : sc = discardScope f scope := by cases f <;> rfl
  rw [← same] at small state ⊢
  rw [if_neg (Nat.not_lt.2 small), imgBegin_scopeState]
  rcases state with e | e | e <;> rw [e] <;> rfl

/-- DISCARD of a SYNCED scope completes at once. -/
theorem effDiscard_synced {s : State} {f : Func} {scope : Nat} (small : discardScope f scope ≤ 16) (state : s.scopeState (discardScope f scope) = 1) :
    s.effDiscard f scope = (s.imgBegin f).imgDone f imgOk 0 0 := by
  unfold State.effDiscard
  extract_lets begun sc
  have same : sc = discardScope f scope := by cases f <;> rfl
  rw [← same] at small state
  rw [if_neg (Nat.not_lt.2 small), imgBegin_scopeState, state]
  rfl

/-! ## APPROVE (R58) -/

/-- The countersignature written to `IMG_CSIG`. -/
def State.csig (s : State) : Nat := ((List.range 4).map fun i => s.fget F.IMG_CSIG.bytes 0 i * 2 ^ (32 * i)).sum

theorem regsOnly.csig {rs : List Reg} {s t : State} (h : regsOnly rs s t) (other : .IMG_CSIG ∉ rs) : t.csig = s.csig := by
  unfold State.csig
  exact congrArg List.sum (List.map_congr_left fun i _ => by rw [h.fget F.IMG_CSIG.bytes 0 i other])

/-- APPROVE of an AWAITING scope with the loader's CMAC. -/
theorem effApprove_awaiting {s : State} {f : Func} {scope : Nat} (own : f = .pf ∨ f = .console) (small : scope ≤ 16)
    (state : s.scopeState scope = 3) (signed : s.csig = tabGet 0 s.image.cmac scope) :
    s.effApprove f scope = ((s.imgBegin f).setScopeState scope 4).imgDone f imgOk 0 0 := by
  have signed' : (s.imgBegin f).csig = tabGet 0 (s.imgBegin f).image.cmac scope :=
    ((imgBegin_regsOnly s f).csig (by decide)).trans signed
  unfold State.effApprove
  extract_lets begun sum
  rw [imgBegin_scopeState, state, if_neg (by tauto), if_neg (by simp), if_neg (by simpa using small)]
  exact if_pos signed'

/-! ## Restores of SHADOW banks (R57, R68) -/

theorem finishRestores_idle {s : State} (idle : s.image.waitRestore = []) : s.finishRestores = s := by
  unfold State.finishRestores
  rw [idle]
  rfl

/-- A restore is due: a DISCARD waits for it, or the scope's previous generation has drained. -/
def State.restoreDue (s : State) (sc : Nat) : Prop :=
  (s.scopeState sc = 6 ∧ s.flag F.IMG_STATUS.drained = true) ∨
    ((s.scopeState sc = 3 ∨ s.scopeState sc = 4 ∨ s.scopeState sc = 7) ∧ tabGet [] s.image.restoring sc ≠ [])

/-- A restore that is due and that no engine holds up is made, and the DISCARDs that wait for it complete. -/
theorem exec_shadowRestoreDone {s : State} {sc : Nat} (due : s.restoreDue sc) (free : s.storeLatched sc (sc = 16) = none)
    (idle : s.image.waitRestore = []) :
    exec (.shadowRestoreDone sc) s = .next ((((s.restoreBank sc).setScopeState sc 1).finishDiscard sc).withQueue s.pending) := by
  have due' : ((tabGet [] s.image.restoring sc ≠ [] && [3, 4, 7].contains (s.scopeState sc)) ||
      (s.scopeState sc = 6 && s.flag F.IMG_STATUS.drained)) = true := by
    rcases due with ⟨state, drained⟩ | ⟨state | state | state, waits⟩
    · simp [state, drained]
    all_goals simp [state, waits]
  show execShadowRestoreDone sc s = _
  unfold execShadowRestoreDone State.act
  dsimp only
  rw [finishRestores_idle idle]
  simp only [due', if_true, free]

theorem funcOf_idx {k : Nat} (small : k < 18) : (funcOf k).idx = k := by
  unfold funcOf
  split
  · rfl
  · split
    · exact Eq.symm ‹k = 16›
    · show 17 = k
      omega

theorem plane_congr {s t : State} (h : t.planes = s.planes) (sc bank : Nat) : t.plane sc bank = s.plane sc bank := by
  unfold State.plane
  rw [h]

/-- The restored bank holds what ACTIVE holds. -/
theorem plane_restoreBank (s : State) (sc : Nat) : (s.restoreBank sc).plane sc (s.shadowOf sc) = s.plane sc (s.activeOf sc) :=
  tabGet_set_same _ _ _ _

/-- Where nothing waits, the end of a restore changes only the list of waiters. -/
theorem finishDiscard_regsOnly (s : State) (sc : Nat) :
    regsOnly [.IMG_RESULT, .IMG_REFUSED] { s with image := { s.image with restoring := tabErase s.image.restoring sc } } (s.finishDiscard sc) := by
  unfold State.finishDiscard
  exact foldl_rel (R := regsOnly [.IMG_RESULT, .IMG_REFUSED]) regsOnly.refl (fun h k => (h.trans k).mono (by simp))
    (fun u k => imgDone_regsOnly u (funcOf k) imgOk 0 0) _ _

/-- After a restore that was due the scope is SYNCED, its SHADOW bank a copy of ACTIVE, and nobody waits. -/
theorem restored_scope (s : State) {sc : Nat} (small : sc ≤ 16) :
    let t := ((s.restoreBank sc).setScopeState sc 1).finishDiscard sc
    t.scopeState sc = 1 ∧ t.plane sc (s.shadowOf sc) = s.plane sc (s.activeOf sc) ∧ tabGet [] t.image.restoring sc = [] := by
  have synced := scopeState_setScopeState_same (s.restoreBank sc) (n := 1) small (by decide)
  have state := setScopeState_regsOnly (s.restoreBank sc) sc 1
  have rest := finishDiscard_regsOnly ((s.restoreBank sc).setScopeState sc 1) sc
  refine ⟨?_, ?_, ?_⟩
  · exact (rest.scopeState (by decide) (by decide) sc).trans synced
  · exact (plane_congr (rest.planes.trans state.planes) _ _).trans (plane_restoreBank s sc)
  · rw [rest.image]
    exact tabGet_erase_same _ _ _

/-- The one DISCARD that waits for a restore completes with OK. -/
theorem finishDiscard_one {s : State} {sc k : Nat} (waits : tabGet [] s.image.restoring sc = [k]) (small : k < 18) :
    (s.finishDiscard sc).fget F.IMG_RESULT.done k = 1 ∧ (s.finishDiscard sc).fget F.IMG_RESULT.code k = 0 := by
  have answered := imgDone_fields { s with image := { s.image with restoring := tabErase s.image.restoring sc } } (funcOf k) (code := imgOk) 0 0
    (by decide)
  unfold State.finishDiscard
  rw [waits]
  rwa [funcOf_idx small] at answered

/-! ## The statement -/

/-- A DISCARD has its effect on the scope that it names. -/
theorem goesTo_discard {s : State} {f : Func} {scope : Nat} {P : State → Prop} (taken : opens s f .IMG_CMD 0 f.idx)
    (holds : ∀ u, regsOnly [.IMG_CMD] s u → P ((u.effDiscard f (scope % 32)).withQueue s.pending)) :
    goesTo (exec (.discard f scope) s) P :=
  goesTo_imgCmd taken fun u only => by
    rw [effImgCmd_discard]
    exact holds u only

/-- Settles O9: what each command leaves is said by its own lemma above, on the state that the write of `IMG_CMD` leaves. -/
theorem shadowBanksAreRestoredAndApproved : Obligations.ShadowBanksAreRestoredAndApproved := by
  unfold Obligations.ShadowBanksAreRestoredAndApproved
  refine ⟨fun s f scope taken => ?waits, fun s f scope taken => ?synced, fun s f scope own taken small state signed => ?approve,
    fun s sc small state drained _ free idle => ?drained, fun s sc k small state fn waits free idle => ?discarded,
    fun s f op high low taken => ?invalid⟩
  case waits =>
    intro sc small state
    have named : sc = discardScope f (scope % 32) := by cases f <;> rfl
    clear_value sc
    subst named
    refine goesTo_discard taken fun u only => ?_
    have kept := only.scopeState (by decide) (by decide) (discardScope f (scope % 32))
    rw [effDiscard_restores small (by rwa [kept]), ← only.image]
    have listed {k : Nat} (m : k ∈ u.waitersWith (discardScope f (scope % 32)) f) :
        k ∈ tabGet [] (tabSet [] u.image.restoring (discardScope f (scope % 32)) (u.waitersWith (discardScope f (scope % 32)) f))
          (discardScope f (scope % 32)) := by rwa [tabGet_set_same]
    exact ⟨listed ((mem_waitersWith u _ f _).2 (.inl rfl)), fun k m => listed ((mem_waitersWith u _ f k).2 (.inr m)), imgBegin_done u f⟩
  case synced =>
    intro sc small state
    have named : sc = discardScope f (scope % 32) := by cases f <;> rfl
    clear_value sc
    subst named
    refine goesTo_discard taken fun u only => ?_
    rw [effDiscard_synced small ((only.scopeState (by decide) (by decide) _).trans state)]
    obtain ⟨done, code⟩ := imgDone_fields (u.imgBegin f) f (code := imgOk) 0 0 (by decide)
    have planes := (((imgBegin_regsOnly u f).trans (imgDone_regsOnly (u.imgBegin f) f imgOk 0 0)).planes).trans only.planes
    exact ⟨done, code, planes⟩
  case approve =>
    refine goesTo_imgCmd taken fun u only => ?_
    have kept := (only.scopeState (by decide) (by decide) scope).trans state
    have signed' : u.csig = tabGet 0 u.image.cmac scope := (only.csig (by decide)).trans (by rw [only.image]; exact signed)
    rw [effImgCmd_approve u own small, effApprove_awaiting own small kept signed']
    have staged := scopeState_setScopeState_same (u.imgBegin f) (n := 4) small (by decide)
    have answer := imgDone_regsOnly ((u.imgBegin f).setScopeState scope 4) f imgOk 0 0
    obtain ⟨done, code⟩ := imgDone_fields ((u.imgBegin f).setScopeState scope 4) f (code := imgOk) 0 0 (by decide)
    exact ⟨(answer.scopeState (by decide) (by decide) scope).trans staged, done, code⟩
  case drained =>
    obtain ⟨synced, plane, -⟩ := restored_scope s small
    exact ⟨_, exec_shadowRestoreDone (.inl ⟨state, drained⟩) free idle, synced, plane⟩
  case discarded =>
    obtain ⟨synced, plane, nobody⟩ := restored_scope s small
    have state' := setScopeState_regsOnly (s.restoreBank sc) sc 1
    obtain ⟨done, code⟩ := finishDiscard_one (s := (s.restoreBank sc).setScopeState sc 1) (by rw [state'.image]; exact waits) fn
    exact ⟨_, exec_shadowRestoreDone (.inr ⟨state, by simp [waits]⟩) free idle, synced, plane, done, code, nobody⟩
  case invalid =>
    refine goesTo_imgCmd taken fun u _ => ?_
    rw [effImgCmd_invalid u f high low]
    exact imgDone_fields (u.imgBegin f) f (code := imgBadHeader) 0 0 (by decide)

end Sys2Proof.Machine
end

section
/-! PROOFS. The start and the end of image loads (R52–R55, R58), which settle O8. -/

namespace Sys2Proof.Machine

theorem regsOnly_fset (s : State) (f : Fld) (c i n : Nat) : regsOnly [f.reg] s (s.fset f c i n) := regsOnly_wr s _ _ _ _

/-! ## The start of a load (R52–R55) -/

/-- Checks 1 to 4 read the length register, whether there is an ACTIVE image, and the states of scopes, and nothing else of the state. -/
theorem headCode_congr {s t : State} (l : Load) (head : List Byte) (len : t.fget F.IMG_LEN.bytes l.fn.idx = s.fget F.IMG_LEN.bytes l.fn.idx)
    (active : t.flag F.IMG_STATUS.active_ok = s.flag F.IMG_STATUS.active_ok) (states : ∀ sc, t.scopeState sc = s.scopeState sc) :
    t.headCode l head = s.headCode l head := by
  unfold State.headCode State.targetCode
  simp only [len, active, states]

theorem regsOnly.headCode {rs : List Reg} {s t : State} (h : regsOnly rs s t) (l : Load) (head : List Byte) (len : .IMG_LEN ∉ rs)
    (status : .IMG_STATUS ∉ rs) (low : .IMG_SCOPE_STATE0 ∉ rs) (high : .IMG_SCOPE_STATE1 ∉ rs) : t.headCode l head = s.headCode l head :=
  headCode_congr l head (h.fget F.IMG_LEN.bytes _ _ len) (h.flag F.IMG_STATUS.active_ok 0 0 status) (h.scopeState low high)

/-- That a load runs is not among what the checks of a header read. -/
theorem headCode_loading (s : State) (l : Load) (head : List Byte) (n : Nat) :
    (s.fset F.IMG_STATUS.loading 0 0 n).headCode l head = s.headCode l head := by
  have only := regsOnly_fset s F.IMG_STATUS.loading 0 0 n
  refine headCode_congr l head (only.fget F.IMG_LEN.bytes _ _ (by decide)) ?_ (only.scopeState (by decide) (by decide))
  unfold State.flag
  rw [s.fget_fset_fld (f := F.IMG_STATUS.loading) (g := F.IMG_STATUS.active_ok) 0 0 n rfl (.inr (by decide))]

/-- The header's load is in progress once checks 1 to 4 have passed. -/
theorem load_loadHead {s : State} {l h : Load} {head : List Byte} (passes : s.headCode l head = (h, imgOk, 0)) :
    (s.loadHead l head).image.load = some h := by
  unfold State.loadHead
  rw [passes]
  rfl

/-- A load starts: none runs, the loader is not fenced, the function may read the source, and the header passes its checks. -/
theorem load_effLoad {s : State} {f : Func} {flash : Option Nat} {head : List Byte} {h : Load} (idle : s.image.load = none)
    (free : 0xC30 ∉ s.flt.fenced) (may : flash.isSome → f = .pf ∨ f = .console) (aligned : flash.isNone → s.fget F.IMG_SRC.addr f.idx % 64 = 0)
    (passes : s.headCode (noHeader f flash false) head = (h, imgOk, 0)) : (s.effLoad f flash (some head)).image.load = some h := by
  have begun := imgBegin_regsOnly s f
  unfold State.effLoad
  extract_lets b l refuse _ loading
  have unloaded : ¬ (b.image.load.isSome = true ∨ b.flt.fenced.contains 0xC30 = true) := by
    rw [begun.image, begun.flt, idle]
    simpa using free
  have source : ¬ (flash.isSome = true ∧ f ≠ .pf ∧ f ≠ .console) := fun ⟨slot, pf, console⟩ => (may slot).elim pf console
  have address : ¬ (flash.isNone = true ∧ b.fget F.IMG_SRC.addr f.idx % 64 ≠ 0) := fun ⟨host, odd⟩ =>
    odd (by rw [begun.fget F.IMG_SRC.addr _ _ (by decide)]; exact aligned host)
  rw [if_neg unloaded, if_neg source, if_neg address]
  have checked : loading.headCode l head = b.headCode l head := headCode_loading { b with image := { b.image with load := some l } } l head 1
  exact load_loadHead (checked.trans ((begun.headCode l head (by decide) (by decide) (by decide) (by decide)).trans passes))

/-- The flash slot that a LOAD_FLASH names. -/
theorem effImgCmd_loadFlash (s : State) (f : Func) (slot : Nat) (head : Option (List Byte)) :
    s.effImgCmd f ((2 + slot % 2 * 2 ^ 9) % 2 ^ 36) head = s.effLoad f (some (slot % 2)) head := by
  have op : bits ((2 + slot % 2 * 2 ^ 9) % 2 ^ 36) 3 0 = 2 := by
    simp only [bits, Nat.shiftRight_eq_div_pow]
    omega
  have named : bits ((2 + slot % 2 * 2 ^ 9) % 2 ^ 36) 9 9 = slot % 2 := by
    simp only [bits, Nat.shiftRight_eq_div_pow]
    omega
  unfold State.effImgCmd
  rw [op, named]
  rfl

/-! ## The end of a load (R55, R58) -/

theorem slotResult_later {l : Load} (s : State) (code : Nat) (later : l.boot = false) : s.slotResult l code = s := by
  unfold State.slotResult
  rw [later]

theorem sentOnly.image {s t : State} (h : sentOnly s t) : t.image = s.image := by
  obtain ⟨⟨_, _, _, _, rfl⟩, _⟩ := h
  rfl

theorem loadRecord_sentOnly (s : State) (p code scope result detail sec serial length : Nat) :
    sentOnly s (s.loadRecord p code scope result detail sec serial length) := emitBoth_sentOnly s p clsImage _

theorem targets_partial {l : Load} (one : l.scope < 17) : l.targets = [l.scope] := by
  have partly : ¬ l.full = true := by
    simp only [Load.full, decide_eq_true_eq]
    omega
  exact if_neg partly

section
variable (s : State) (f : Func) (code detail sec p kind scope serial length : Nat)

/-- The answer to a load and its record leave the loader's state alone. -/
theorem loadAnswer_image : ((s.imgDone f code detail sec).loadRecord p kind scope code detail sec serial length).image = s.image :=
  (loadRecord_sentOnly _ p kind scope code detail sec serial length).image.trans (imgDone_regsOnly s f code detail sec).image

/-- They leave the states of scopes alone. -/
theorem loadAnswer_scopeState (sc : Nat) :
    ((s.imgDone f code detail sec).loadRecord p kind scope code detail sec serial length).scopeState sc = s.scopeState sc :=
  ((loadRecord_sentOnly _ p kind scope code detail sec serial length).scopeState sc).trans
    ((imgDone_regsOnly s f code detail sec).scopeState (by decide) (by decide) sc)

end

/-- The loader is idle again: no load runs. -/
def State.loadOver (s : State) (wait : List Nat) : State :=
  { s with image := { s.image with load := none, waitRestore := wait } }.fset F.IMG_STATUS.loading 0 0 0

/-- A load of one scope that had begun to write its bank and fails after the first image. -/
theorem loadRefused_later (s : State) {l : Load} (code detail sec : Nat) (later : l.boot = false) (one : l.scope < 17) :
    s.loadRefused l code detail sec true = (((s.loadOver []).setScopeState l.scope 7).imgDone l.fn code detail sec).loadRecord
      l.fn.part 0x31 l.scope code detail sec l.serial l.length := by
  unfold State.loadRefused
  rw [targets_partial one]
  simp only [later, slotResult_later _ _ later, if_true, Bool.false_eq_true, if_false, List.foldl_cons, List.foldl_nil]
  rfl

/-- Its scope is INVALID. -/
theorem loadRefused_invalid (s : State) {l : Load} (code detail sec : Nat) (later : l.boot = false) (one : l.scope < 17) :
    (s.loadRefused l code detail sec true).image.load = none ∧ (s.loadRefused l code detail sec true).scopeState l.scope = 7 := by
  rw [loadRefused_later s code detail sec later one, loadAnswer_image, loadAnswer_scopeState]
  refine ⟨?_, scopeState_setScopeState_same _ (by omega) (by decide)⟩
  rw [(setScopeState_regsOnly _ _ _).image]
  rfl

/-- A load that ends well after the first image, with what its scope's state and serial become. -/
theorem loadEnd_passes {s : State} {l : Load} {img : List Byte} (later : l.boot = false) (one : l.scope < 17)
    (active : s.flag F.IMG_STATUS.active_ok = true) (sections : s.firstBad l img l.sections 0 = none) (whole : l.length ≤ img.length)
    (free : s.latchedSection l img = none) (idle : s.image.waitRestore = []) {awaits : Bool}
    (awaiting : (decide (l.scope < 16) && decide (l.csig = 0)) = awaits)
    (signed : awaits = false → s.imageCmac (img.take l.length) = if l.scope < 16 then l.csig else l.tag) :
    (s.loadEnd l img).image.load = none ∧ (s.loadEnd l img).scopeState l.scope = (if awaits then 3 else 4) ∧
      tabGet 0 (s.loadEnd l img).image.stagedFrom l.scope = l.serial := by
  have verified : ¬ (!awaits && decide (s.imageCmac (img.take l.length) ≠ if decide (l.scope < 16) = true then l.csig else l.tag)) = true := by
    cases awaits with
    | true => simp
    | false => simp [signed rfl]
  have wait : ¬ s.finishRestores.image.waitRestore ≠ [] := by
    rw [finishRestores_idle idle, idle]
    simp
  unfold State.loadEnd
  rw [sections]
  dsimp only
  rw [if_neg (Nat.not_lt.2 whole), awaiting, if_neg verified, if_neg wait, free, finishRestores_idle idle]
  simp only [active, targets_partial one, later, slotResult_later _ _ later, Bool.not_true, Bool.false_eq_true, if_false, List.foldl_cons,
    List.foldl_nil]
  rw [loadAnswer_image, loadAnswer_scopeState]
  refine ⟨?_, ?_, tabGet_set_same _ _ _ _⟩
  · rw [(setScopeState_regsOnly _ _ _).image]
    rfl
  · exact scopeState_setScopeState_same (State.loadOver _ _) (by omega) (by split <;> decide)

/-! ## The statement -/

/-- Settles O8: the checks of the header on the state that the write of `IMG_CMD` leaves, and the four ends of a load by one lemma each. -/
theorem imageLoadsStartAndEnd : Obligations.ImageLoadsStartAndEnd := by
  unfold Obligations.ImageLoadsStartAndEnd
  refine ⟨fun s f head h taken idle free aligned passes => ?host, fun s f slot head h own taken idle free passes => ?flash,
    fun s l img running checked later one active sections whole latched idle => ?complete,
    fun s l img running checked later one sections => ?error⟩
  case host =>
    refine goesTo_imgCmd taken fun u only => ?_
    show ((u.effLoad f none (some head)).withQueue s.pending).image.load = some h
    refine load_effLoad (by rw [only.image, idle]) (by rwa [only.flt]) (by simp) (fun _ => ?_)
      ((only.headCode _ _ (by decide) (by decide) (by decide) (by decide)).trans passes)
    rw [only.fget F.IMG_SRC.addr _ _ (by decide), aligned]
  case flash =>
    refine goesTo_imgCmd taken fun u only => ?_
    rw [effImgCmd_loadFlash]
    exact load_effLoad (by rw [only.image, idle]) (by rwa [only.flt]) (fun _ => own) (by simp)
      ((only.headCode _ _ (by decide) (by decide) (by decide) (by decide)).trans passes)
  case complete =>
    intro awaits signed
    have reached : exec (.imgLoadComplete img) s = .next ((s.loadEnd l img).withQueue s.pending) := by
      show execImgLoadComplete img s = _
      simp only [execImgLoadComplete, State.act, running, State.imageRead, checked, if_false]
    exact ⟨_, reached, loadEnd_passes later one active sections whole latched idle rfl signed⟩
  case error =>
    have reached : exec (.imgBusError img) s = .next ((s.loadRefused l l.readError 0 0 true).withQueue s.pending) := by
      show execImgBusError img s = _
      simp only [execImgBusError, State.act, running, State.loadError, checked, if_false, sections]
    exact ⟨_, reached, loadRefused_invalid s l.readError 0 0 later one⟩

end Sys2Proof.Machine
end

section
/-! PROOFS. RWL writes (R40, R95): those that reach the SHADOW copy and those that are LOCKED. O5 takes a VF with the number of partition H for
the PF, and fails there. -/

namespace Sys2Proof.Machine

/-- A command does not go to a state with a property and to one without. -/
theorem goesTo_absurd {o : Host.Outcome State Fault Refusal} {P : State → Prop} (yes : goesTo o P) (no : goesTo o fun t => ¬ P t) : False := by
  obtain ⟨t, ran, holds⟩ := yes
  obtain ⟨u, ran', fails⟩ := no
  rw [ran] at ran'
  cases ran'
  exact fails holds

/-! ## Refusals (R95) -/

/-- The registers that a refusal changes. -/
def refusalRegs : List Reg := [.GLB_REFUSED, .GLB_TREF, .GLB_REFUSED_LAST]

theorem refuse_regsOnly (s : State) (f : Func) (reason : Nat) (write : Bool) (a : Nat) : regsOnly refusalRegs s (s.refuse f reason write a) := by
  unfold State.refuse
  split
  · extract_lets counted tenant
    have kept : regsOnly [.GLB_REFUSED] s counted := regsOnly_wr s _ _ _ _
    have tenants : regsOnly [.GLB_REFUSED, .GLB_TREF] s tenant := by
      unfold tenant
      split
      · exact kept.trans (regsOnly_wr counted .GLB_TREF _ _ _)
      · exact kept.mono (by simp)
    exact tenants.trans (regsOnly_wr tenant .GLB_REFUSED_LAST _ _ _)
  · exact .refl s

/-! ## RWL writes (R40) -/

theorem rwlTarget_plain (s : State) (f : Func) {r : Reg} (c : Nat) (direct : isInd r = false) : s.rwlTarget f r c = s.rwlScope r c := by
  unfold State.rwlTarget
  split
  · cases direct
  · cases direct
  · cases direct
  · rfl

theorem filterState_direct (s : State) (f : Func) {r : Reg} (direct : isInd r = false) : s.filterState f r = false := by
  unfold State.filterState
  rw [decide_eq_false (by rintro rfl; cases direct)]
  rfl

theorem latchedInd_direct (s : State) (f : Func) {r : Reg} (direct : isInd r = false) : s.latchedInd f r = none :=
  if_neg (by rintro rfl; cases direct)

/-- An RWL write through a VF is LOCKED, whatever the state of the scope. -/
theorem writeCode_vf (s : State) (n : Nat) {r : Reg} (c : Nat) (v : RegVal) (rwl : isRwl r = true) (direct : isInd r = false) :
    s.writeCode (.vf n) r c v = 3 :=
  if_pos ⟨rwl, by simp [filterState_direct s _ direct], .inl rfl⟩

/-- So is one of a scope whose SHADOW bank takes no writes. -/
theorem writeCode_shut {s : State} (f : Func) {r : Reg} {c : Nat} (v : RegVal) (rwl : isRwl r = true) (direct : isInd r = false)
    (shut : s.rwlOpen (s.rwlScope r c) = false) : s.writeCode f r c v = 3 :=
  if_pos ⟨rwl, by simp [filterState_direct s _ direct], .inr (.inl (by simp [rwlTarget_plain s f c direct, shut]))⟩

/-- The PF and the console write the SHADOW copy of a scope whose bank takes writes. -/
theorem writeCode_open {s : State} {f : Func} {r : Reg} {c : Nat} (v : RegVal) (own : f = .pf ∨ f = .console) (rwl : isRwl r = true)
    (direct : isInd r = false) (takes : s.rwlOpen (s.rwlScope r c) = true) : s.writeCode f r c v = 0 := by
  have lane : r ≠ .CPH_LOCK := by
    rintro rfl
    cases rwl
  have taken := rwlTarget_plain s f c direct
  rcases own with rfl | rfl <;> simp [State.writeCode, lane, taken, takes, latchedInd_direct s _ direct]

/-- A write that would reach a register of one word and is LOCKED changes nothing but the counts of refusals. -/
theorem rwlWrite_locked {s : State} {f : Func} {a v : Nat} {r : Reg} {c i : Nat} (direct : isInd r = false) (word : r.place.wide = false)
    (reach : s.reachable f = true) (target : s.target f (a / 8 * 8) true = .reg r c i false)
    (locked : ∀ w, s.writeCode f r c w = 3) : exec (.rwlWrite f a v) s = .next ((s.refuse f 3 true (a / 8 * 8)).withQueue s.pending) := by
  have free := latchedInd_direct s f direct
  show execRwlWrite f a v s = _
  simp only [execRwlWrite, State.act, State.regWrite, reach, if_true, State.writeWord, target, State.commit, word, Bool.false_and, Bool.false_eq_true,
    if_false, locked, free, ne_eq, OfNat.ofNat_ne_zero, not_false_eq_true]

/-- The reason of a refusal, while the main domains can hold it. -/
theorem refuse_reason {s : State} (f : Func) {reason : Nat} (write : Bool) (a : Nat) (held : s.flag F.AON_STATUS.main_on = true)
    (small : reason < 16) :
    (s.refuse f reason write a).fget F.GLB_REFUSED_LAST.reason f.idx = reason := by
  unfold State.refuse
  rw [if_pos (.inl held)]
  unfold State.fget
  rw [show F.GLB_REFUSED_LAST.reason.reg = .GLB_REFUSED_LAST from rfl, State.rd_wr_same]
  simp only [fldGet, BitVec.toNat_ofNat, Nat.shiftRight_eq_div_pow, F.GLB_REFUSED_LAST.reason]
  cases write
  · simp only [Bool.false_eq_true, if_false]
    omega
  · simp only [if_true]
    omega

/-- An RWL write that is LOCKED keeps the banks, and its reason is LOCKED: of the second clause of O5, what the device does. -/
theorem rwlWrite_refused {s : State} {f : Func} {a v : Nat} {r : Reg} {c i : Nat} (rwl : isRwl r = true) (direct : isInd r = false)
    (word : r.place.wide = false) (reach : s.reachable f = true) (held : s.flag F.AON_STATUS.main_on = true)
    (target : s.target f (a / 8 * 8) true = .reg r c i false) (locked : (∃ n, f = .vf n) ∨ s.rwlOpen (s.rwlScope r c) = false) :
    goesTo (exec (.rwlWrite f a v) s) fun t => t.planes = s.planes ∧ t.fget F.GLB_REFUSED_LAST.reason f.idx = 3 := by
  have code (w : RegVal) : s.writeCode f r c w = 3 := by
    rcases locked with ⟨n, rfl⟩ | shut
    · exact writeCode_vf s n c w rwl direct
    · exact writeCode_shut f w rwl direct shut
  exact ⟨_, rwlWrite_locked direct word reach target code, (refuse_regsOnly s f 3 true _).planes, refuse_reason f true _ held (by decide)⟩

/-- An RWL register's value in a bank, as an RWL write leaves it. -/
theorem rwlPut_direct (s : State) (f : Func) {r : Reg} (c i : Nat) (v : RegVal) (direct : isInd r = false) (carve : r ≠ .TCM_BANK_CFG) :
    let sc := s.rwlScope r c
    let pl := s.plane sc (s.shadowOf sc)
    s.rwlPut f r c i v = s.setPlane sc (s.shadowOf sc) { pl with regs := regSet pl.regs r c i (maskWrite r (regGet pl.regs r c i) v) } := by
  unfold State.rwlPut
  split
  · cases direct
  · cases direct
  · cases direct
  · cases direct
  · exact if_neg carve

/-- What an RWL write that is taken leaves: the SHADOW copy's writable bits, the scope STAGED, and all else as it was. -/
def rwlStaged (s t : State) (r : Reg) (c i v : Nat) : Prop :=
  let sc := s.rwlScope r c
  (∀ b, b < 36 → (rwMask r).getLsbD b → (t.rdPlane sc (s.shadowOf sc) r c i).getLsbD b = v.testBit b) ∧
  (∀ x y, planeKey x y ≠ planeKey sc (s.shadowOf sc) → t.plane x y = s.plane x y) ∧ (sc ≤ 16 → t.scopeState sc = 4) ∧
  (∀ q d j, q ≠ .IMG_SCOPE_STATE0 → q ≠ .IMG_SCOPE_STATE1 → t.rd q d j = s.rd q d j)

theorem rwlStage_staged (s : State) (f : Func) {r : Reg} (c i v : Nat) (direct : isInd r = false) (carve : r ≠ .TCM_BANK_CFG) :
    rwlStaged s (s.rwlStage f r c i (BitVec.ofNat 72 (v % 2 ^ 36))) r c i v := by
  unfold State.rwlStage
  rw [rwlTarget_plain s f c direct, rwlPut_direct s f c i _ direct carve]
  have marked (w : State) := setScopeState_regsOnly w (s.rwlScope r c) 4
  refine ⟨fun b low writable => ?bits, fun x y other => ?banks, fun small => ?state, fun q d j one two => ?registers⟩
  case bits =>
    unfold State.rdPlane
    rw [plane_congr (marked _).planes, State.setPlane, State.plane, tabGet_set_same, regGet_regSet_same, maskWrite_bit, if_pos writable,
      decide_eq_true low, Bool.true_and]
  case banks =>
    rw [plane_congr (marked _).planes]
    exact tabGet_set_ne _ _ _ other
  case state => exact scopeState_setScopeState_same _ small (by decide)
  case registers => exact (marked _).2 q d j (by simp [one, two])

/-- Through the PF or the console, an RWL write goes to the SHADOW copy: the first clause of O5 for the functions that it means. -/
theorem rwlWrite_staged {s : State} {f : Func} {a v : Nat} {r : Reg} {c i : Nat} (own : f = .pf ∨ f = .console) (rwl : isRwl r = true)
    (direct : isInd r = false) (word : r.place.wide = false) (carve : r ≠ .TCM_BANK_CFG) (reach : s.reachable f = true)
    (target : s.target f (a / 8 * 8) true = .reg r c i false) (takes : s.rwlOpen (s.rwlScope r c) = true) :
    goesTo (exec (.rwlWrite f a v) s) fun t => rwlStaged s t r c i v := by
  have state (w : State) : w.filterState f r = false := filterState_direct w f direct
  have reached : exec (.rwlWrite f a v) s =
      .next (((s.emptyHalf f (a / 8 * 8)).rwlStage f r c i (BitVec.ofNat 72 (v % 2 ^ 64 % 2 ^ 36))).withQueue s.pending) := by
    show execRwlWrite f a v s = _
    simp only [execRwlWrite, State.act, State.regWrite, reach, if_true, State.writeWord, target, State.commit, State.commitValue, word,
      Bool.false_eq_true, if_false, writeCode_open _ own rwl direct takes, ne_eq, not_true, State.putReg, rwl, state, Bool.not_false, Bool.and_true]
  rw [show v % 2 ^ 64 % 2 ^ 36 = v % 2 ^ 36 by omega] at reached
  exact ⟨_, reached, rwlStage_staged (s.emptyHalf f (a / 8 * 8)) f c i v direct carve⟩

/-- After main reset with the main domains up, the PCIe link in L0, and scope H SYNCED. -/
def syncedState : State :=
  let s := (State.reset.fset F.AON_STATUS.main_on 0 0 1).setScopeState 16 1
  { s with pcie := { s.pcie with l0 := true } }

/-- Refutes O5: its first clause takes every function of partition H for one that may write, `f.part = 16`, and so a VF numbered 16. The device
has no such function (`Func.wf`), and the clause does not ask for one that it has. The model, as the statement's own words and R40 have it, refuses
an RWL write through any VF as LOCKED: scope H stays SYNCED. What the clause means holds for the PF and the console (`rwlWrite_staged`), and its
second clause for every function (`rwlWrite_refused`). -/
theorem not_rwlWritesGoToTheShadowCopy : ¬ Obligations.RwlWritesGoToTheShadowCopy := by
  unfold Obligations.RwlWritesGoToTheShadowCopy
  rintro ⟨staged, -⟩
  have reach : syncedState.reachable (.vf 16) = true := by decide +kernel
  have target : syncedState.target (.vf 16) (slotOf .CCX_P_QSHARE 0 / 8 * 8) true = .reg .CCX_P_QSHARE 16 0 false := by decide +kernel
  have scope : syncedState.rwlScope .CCX_P_QSHARE 16 = 16 := by decide +kernel
  have synced : syncedState.scopeState 16 = 1 := by decide +kernel
  have taken := staged syncedState (.vf 16) (slotOf .CCX_P_QSHARE 0) 0 .CCX_P_QSHARE 16 0 rfl rfl rfl rfl (by decide) reach target
    (.inl (scope ▸ synced))
  refine goesTo_absurd taken ⟨_, rwlWrite_locked rfl rfl reach target fun w => writeCode_vf _ 16 16 w rfl rfl, ?_⟩
  rintro ⟨-, -, now, -⟩
  rw [scope] at now
  have kept := (refuse_regsOnly syncedState (.vf 16) 3 true (slotOf .CCX_P_QSHARE 0 / 8 * 8)).scopeState (by decide) (by decide) 16
  have still := kept.trans synced
  generalize syncedState.refuse (.vf 16) 3 true (slotOf .CCX_P_QSHARE 0 / 8 * 8) = u at still now
  have staged : u.scopeState 16 = 4 := now (by decide)
  rw [still] at staged
  cases staged

end Sys2Proof.Machine
end

section
/-! PROOFS. A castling is requested, accepted and cancelled (R63–R66, R69). O11 takes a VF with the number of partition H for the PF, and fails
there. -/

namespace Sys2Proof.Machine

/-! ## Requests and their checks (R63, R64) -/

/-- The request that a CASTLE makes: the function's mask, a VF's own scope whatever was written, and the time written. -/
def State.castleAsked (s : State) (f : Func) : Castle :=
  { fn := f
    mask := match f with | .vf n => 2 ^ n | _ => s.fget F.IMG_CASTLE_MASK.scopes f.idx
    time := (s.rd .IMG_CASTLE_AT f.idx).toNat
    accepted := false }

theorem regsOnly.castleAsked {rs : List Reg} {s t : State} (h : regsOnly rs s t) (f : Func) (mask : .IMG_CASTLE_MASK ∉ rs)
    (time : .IMG_CASTLE_AT ∉ rs) : t.castleAsked f = s.castleAsked f := by
  unfold State.castleAsked
  rw [h.fget F.IMG_CASTLE_MASK.scopes _ _ mask, h.2 .IMG_CASTLE_AT _ _ time]

theorem effCastle_idle {s : State} (f : Func) (idle : s.image.castle = none) : (s.effCastle f).image.castle = some (s.castleAsked f) := by
  have begun := imgBegin_regsOnly s f
  rw [← begun.castleAsked f (by decide) (by decide)]
  unfold State.effCastle
  extract_lets b
  rw [if_neg (by rw [begun.image, idle]; exact Bool.false_ne_true)]
  rfl

/-- CASTLE with none pending begins the checks of a request: the first clause of O11. -/
theorem castle_requests {s : State} {f : Func} (taken : opens s f .IMG_CMD 0 f.idx) (idle : s.image.castle = none) :
    goesTo (exec (.castle f) s) fun t => t.image.castle = some (s.castleAsked f) := by
  refine goesTo_imgCmd taken fun u only => ?_
  rw [← only.castleAsked f (by decide) (by decide)]
  exact effCastle_idle f (by rw [only.image]; exact idle)

/-- The mask's scopes after a run that makes them all PENDING. -/
theorem scopeState_pending (s : State) {mask sc : Nat} (small : sc ≤ 16) (named : mask.testBit sc = true) :
    ((scopesOf mask).foldl (fun s sc => s.setScopeState sc 5) s).scopeState sc = 5 := by
  rw [foldl_read (read := State.scopeState) (g := fun _ => 5) (scopesOf_nodup mask), if_pos (mem_scopesOf.2 ⟨small, named⟩)]
  · exact fun u _ => scopeState_setScopeState_same u small (by decide)
  · exact fun u k _ other => scopeState_setScopeState_ne u other

/-- A castling is accepted: it is pending, and so are its scopes. -/
def State.accept (s : State) (c : Castle) : State :=
  let named := { s with image := { s.image with castle := some { c with accepted := true, time := s.timeAt (BitVec.ofNat 72 c.time) } } }
  ((scopesOf c.mask).foldl (fun s sc => s.setScopeState sc 5) named).fset F.IMG_STATUS.castle_pending 0 0 1

theorem accept_castle (s : State) (c : Castle) :
    (s.accept c).image.castle = some { c with accepted := true, time := s.timeAt (BitVec.ofNat 72 c.time) } :=
  (BanksKept.fset (.foldl (.refl _) (fun u _ => .setScopeState (.refl u)) _) (by decide)).castle

theorem accept_scopeState (s : State) (c : Castle) {sc : Nat} (small : sc ≤ 16) (named : c.mask.testBit sc = true) : (s.accept c).scopeState sc = 5 :=
  ((regsOnly_fset _ _ _ _ _).scopeState (by decide) (by decide) sc).trans (scopeState_pending _ small named)

theorem accept_pending (s : State) (c : Castle) : (s.accept c).fget F.IMG_STATUS.castle_pending = 1 := State.fget_fset_same _ _ _ _ (by decide)

/-- A request whose checks pass is accepted: the second clause of O11. -/
theorem castleCheckDone_accepts {s : State} {c : Castle} (castle : s.image.castle = some c) (asked : c.accepted = false)
    (passes : s.castleCode c = (imgOk, 0)) :
    goesTo (exec .castleCheckDone s) fun t =>
      t.image.castle = some { c with accepted := true, time := s.timeAt (BitVec.ofNat 72 c.time) } ∧
      (∀ sc, sc ≤ 16 → c.mask.testBit sc = true → t.scopeState sc = 5) ∧ t.flag F.IMG_STATUS.castle_pending = true := by
  let recorded := (s.accept c).castleRecord c.fn 0x33 imgOk c.mask (s.accept c).stamp false
  have reached : exec .castleCheckDone s = .next ((recorded.imgDone c.fn imgOk 0 0).withQueue s.pending) := by
    show execCastleCheckDone s = _
    simp only [execCastleCheckDone, State.act, castle, asked, passes, Bool.false_eq_true, if_false, ne_eq, not_true]
    rfl
  have sent : sentOnly (s.accept c) recorded := emitBoth_sentOnly _ _ _ _
  have answer := imgDone_regsOnly recorded c.fn imgOk 0 0
  have image := answer.image.trans sent.image
  have status := (answer.2 .IMG_STATUS 0 0 (by decide)).trans (sent.2 .IMG_STATUS 0 0 (by decide))
  refine ⟨_, reached, ?_, fun sc small named => ?_, ?_⟩
  · exact (congrArg ImageSt.castle image).trans (accept_castle s c)
  · exact (answer.scopeState (by decide) (by decide) sc).trans ((sent.scopeState sc).trans (accept_scopeState s c small named))
  · have flag : (recorded.imgDone c.fn imgOk 0 0).fget F.IMG_STATUS.castle_pending = 1 := (congrArg (fldGet · 2 2) status).trans (accept_pending s c)
    exact decide_eq_true flag

/-! ## Cancellation (R69) -/

/-- CANCEL by a VF that did not ask for the castling leaves it pending. -/
theorem effCancel_other {s : State} {n : Nat} {c : Castle} (castle : s.image.castle = some c) (accepted : c.accepted = true) (other : .vf n ≠ c.fn) :
    (s.effCancel (.vf n)).image.castle = some c := by
  have begun := imgBegin_regsOnly s (.vf n)
  unfold State.effCancel
  extract_lets b
  rw [begun.image, castle]
  simp only [accepted, other, Bool.not_true, Bool.false_eq_true, if_false, ne_eq, not_false_eq_true, decide_true, if_true]
  rw [(imgDone_regsOnly b _ _ _ _).image, begun.image, castle]

/-- A castling that ends is not pending any more. -/
theorem endCastle_castle (s : State) (c : Castle) (result : Nat) (bad : Option Nat) : (s.endCastle c result bad).image.castle = none := by
  unfold State.endCastle
  extract_lets _ ended staged
  have kept : BanksKept ended staged := .foldl (.refl _) (fun u _ => .setScopeState (.refl u)) _
  exact (BanksKept.takeEnables (.castleRecord kept)).castle

/-- CANCEL by the PF, the console or the requester, at least 100 microseconds ahead, ends a castling: the last clause of O11 for the functions that
it means. -/
theorem cancel_ends {s : State} {f : Func} {c : Castle} (taken : opens s f .IMG_CMD 0 f.idx) (castle : s.image.castle = some c)
    (accepted : c.accepted = true) (early : s.time.now + 100000 * 2 ^ 48 ≤ c.time) (may : f = .pf ∨ f = .console ∨ f = c.fn) :
    goesTo (exec (.cancel f) s) fun t => t.image.castle = none := by
  refine goesTo_imgCmd taken fun u only => ?_
  show ((u.effCancel f).withQueue s.pending).image.castle = none
  have begun := imgBegin_regsOnly u f
  have ended : (u.effCancel f).image.castle = none := by
    unfold State.effCancel
    extract_lets b
    rw [begun.image, only.image, castle]
    dsimp only
    rw [accepted, if_neg (by simp), if_neg ?may, if_neg (by rw [begun.time, only.time]; exact Nat.not_lt.2 early), (imgDone_regsOnly _ _ _ _ _).image]
    · exact endCastle_castle b c imgOk none
    case may =>
      rcases may with rfl | rfl | rfl
      · exact Bool.false_ne_true
      · exact Bool.false_ne_true
      · split <;> simp
  exact ended

/-- A castling of the PF, accepted, 100 microseconds ahead. -/
def pfCastle : Castle := { fn := .pf, mask := 0, time := 100000 * 2 ^ 48, accepted := true }

/-- After main reset with the main domains up, the PCIe link in L0, and that castling pending. -/
def castlingState : State :=
  let s := State.reset.fset F.AON_STATUS.main_on 0 0 1
  { s with pcie := { s.pcie with l0 := true }, image := { s.image with castle := some pfCastle } }

/-- Refutes O11: its last clause takes every function of partition H for one that may cancel any castling, `f.part = 16`, and so a VF numbered 16,
which is not the requester. The device has no such function (`Func.wf`), and the clause does not ask for one that it has. The model, as R69 has it,
answers a VF that is not the requester with SCOPE, and the castling stays. What the clause means holds for the PF, the console and the requester
(`cancel_ends`), and the first two clauses hold (`castle_requests`, `castleCheckDone_accepts`). -/
theorem not_castlingsAreRequestedAcceptedAndCancelled : ¬ Obligations.CastlingsAreRequestedAcceptedAndCancelled := by
  unfold Obligations.CastlingsAreRequestedAcceptedAndCancelled
  rintro ⟨-, -, ended⟩
  have taken : opens castlingState (.vf 16) .IMG_CMD 0 (Func.vf 16).idx := by
    constructor
    · decide +kernel
    · decide +kernel
  have early : castlingState.time.now + 100000 * 2 ^ 48 ≤ pfCastle.time := by decide +kernel
  have cancelled := ended castlingState (.vf 16) pfCastle taken rfl rfl early (.inl rfl)
  refine goesTo_absurd cancelled (goesTo_imgCmd taken fun u only => ?_)
  have stays : (u.effCancel (.vf 16)).image.castle = some pfCastle :=
    effCancel_other (by rw [only.image]; rfl) rfl (by decide)
  intro none
  exact Option.some_ne_none _ (stays.symm.trans none)

end Sys2Proof.Machine
end

section
/-! PROOFS. The queue of commands (log entry 2): every command completes and leaves the queue alone, so commands run in order. -/

namespace Sys2Proof.Machine

/-- Every command completes: the arm of `exec` of each command of the table answers a next state, with the queue of commands put back. -/
theorem exec_completes (c : Instr) (s : State) : ∃ u : State, exec c s = .next (u.withQueue s.pending) := by
  cases c <;> exact ⟨_, rfl⟩

/-- Settles O58: every command completes, and what completes leaves the queue as it was. -/
theorem everyCommandGoesOn : Obligations.EveryCommandGoesOn := by
  unfold Obligations.EveryCommandGoesOn
  intro c s
  obtain ⟨u, completes⟩ := exec_completes c s
  exact ⟨_, completes, u.withQueue_pending s.pending⟩

/-- Where a command goes, the queue is as it was. -/
theorem exec_pending {c : Instr} {s t : State} (ran : exec c s = .next t) : t.pending = s.pending := by
  obtain ⟨u, completes⟩ := exec_completes c s
  rw [completes] at ran
  cases ran
  exact u.withQueue_pending s.pending

/-- With nothing waiting a step is one core clock. -/
theorem step_idle {s : State} (none : s.pending = []) : step s = .next s.idle := by
  unfold step
  rw [none]

/-- With a command waiting a step is that command, on the queue's rest. -/
theorem step_front {s : State} {c : Instr} {rest : List Instr} (front : s.pending = c :: rest) : step s = exec c (s.withQueue rest) := by
  unfold step
  rw [front]

/-- A step with a command waiting leaves the queue's rest. -/
theorem step_pending {s t : State} {c : Instr} {rest : List Instr} (front : s.pending = c :: rest) (went : step s = .next t) : t.pending = rest :=
  exec_pending ((step_front front).symm.trans went)

/-- Settles O56, by the step's two cases. -/
theorem stepRunsFrontCommand : Obligations.StepRunsFrontCommand := by
  unfold Obligations.StepRunsFrontCommand
  exact fun s c rest front => ⟨step_front front, fun t went => step_pending front went⟩

/-- As many steps as there are commands at the front run them in order. -/
theorem stepsTo_iff_served {cs rest : List Instr} {s t : State} (queued : s.pending = cs ++ rest) :
    stepsTo cs.length s t ↔ served cs rest s t := by
  induction cs generalizing s with
  | nil => exact Iff.rfl
  | cons c cs ih =>
    have front : step s = exec c (s.withQueue (cs ++ rest)) := step_front queued
    constructor
    · rintro ⟨u, went, more⟩
      exact ⟨u, front.symm.trans went, (ih (step_pending queued went)).1 more⟩
    · rintro ⟨u, ran, more⟩
      have went : step s = .next u := front.trans ran
      exact ⟨u, went, (ih (step_pending queued went)).2 more⟩

/-- They leave the commands behind them waiting. -/
theorem stepsTo_pending {cs rest : List Instr} {s t : State} (queued : s.pending = cs ++ rest) (went : stepsTo cs.length s t) : t.pending = rest := by
  induction cs generalizing s with
  | nil =>
    cases went
    exact queued
  | cons c cs ih =>
    obtain ⟨u, first, more⟩ := went
    exact ih (step_pending queued first) more

/-- A step takes nothing into the queue, so its commands stay well-formed. -/
theorem step_queueWf {s t : State} (wf : queueWf s) (went : step s = .next t) : queueWf t := by
  unfold queueWf at wf ⊢
  cases queued : s.pending with
  | nil =>
    rw [step_idle queued] at went
    cases went
    exact wf
  | cons c rest =>
    rw [queued] at wf
    rw [step_pending queued went]
    exact fun d waits => wf d (List.mem_cons_of_mem c waits)

/-- Settles O59, by induction on the commands at the front. -/
theorem queueIsServedInOrder : Obligations.QueueIsServedInOrder := by
  unfold Obligations.QueueIsServedInOrder
  exact ⟨fun cs rest s t queued => ⟨stepsTo_iff_served queued, stepsTo_pending queued⟩, fun s t => step_queueWf⟩

end Sys2Proof.Machine
end

section
/-! PROOFS. Accesses to slots (R79–R83, R97): whole-slot and half-slot writes and reads of registers, and fence reads. -/

namespace Sys2Proof.Machine

/-! ## What a function's access comes to -/

/-- An access to BAR0 by a function that reaches the device. -/
theorem bar0_access {s : State} {f : Func} {bar : Nat} (reach : s.reachable f = true) (bar0 : bar ≠ 2 ∨ f = .console) (x y : State) :
    (if !s.reachable f then s else if toBar2 f bar then x else y) = y := by
  have own : toBar2 f bar = false := by
    rcases bar0 with other | rfl
    · simp [toBar2, other]
    · simp [toBar2]
  rw [reach, own]
  rfl

section
variable {s : State} {f : Func} {bar : Nat} {P : State → Prop} (reach : s.reachable f = true) (bar0 : bar ≠ 2 ∨ f = .console)
include reach bar0

/-- A command that accesses BAR0 or BAR2 goes where its access of BAR0 goes. -/
theorem goesTo_bar0 {c : Instr} {x y : State}
    (arm : exec c s = .next ((if !s.reachable f then s else if toBar2 f bar then x else y).withQueue s.pending))
    (holds : P (y.withQueue s.pending)) : goesTo (exec c s) P := by
  rw [bar0_access reach bar0] at arm
  exact ⟨_, arm, holds⟩

theorem goesTo_wordWrite {a v : Nat} (holds : P ((s.writeWord f (a / 8 * 8) (v % 2 ^ 64)).withQueue s.pending)) :
    goesTo (exec (.wordWrite f bar 0xFF a v) s) P := goesTo_bar0 reach bar0 rfl holds

theorem goesTo_lowHalfWrite {a v : Nat} (holds : P ((s.writeLow f (a / 8 * 8) v).withQueue s.pending)) :
    goesTo (exec (.lowHalfWrite f bar a v) s) P := goesTo_bar0 reach bar0 rfl holds

theorem goesTo_highHalfWrite {a v : Nat} (holds : P ((s.writeHigh f (a / 8 * 8) v).withQueue s.pending)) :
    goesTo (exec (.highHalfWrite f bar a v) s) P := goesTo_bar0 reach bar0 rfl holds

theorem goesTo_readClearAccess {a : Nat} (holds : P ((s.readWord f (a / 8 * 8)).withQueue s.pending)) :
    goesTo (exec (.readClearAccess f bar 0xFF a) s) P := goesTo_bar0 reach bar0 rfl holds

theorem goesTo_lowHalfRead {a : Nat} (holds : P ((s.readLow f (a / 8 * 8)).withQueue s.pending)) :
    goesTo (exec (.lowHalfRead f bar a) s) P := goesTo_bar0 reach bar0 rfl holds

theorem goesTo_highHalfRead {a : Nat} (holds : P ((s.readHigh f (a / 8 * 8)).withQueue s.pending)) :
    goesTo (exec (.highHalfRead f bar a) s) P := goesTo_bar0 reach bar0 rfl holds

end

/-! ## Whole-slot writes (R79) -/

/-- From `s` to `t` a register has taken a word as its access codes have it (R9), and every other register is as it was. -/
def tookWord (s t : State) (r : Reg) (c i v : Nat) : Prop :=
  (∀ b, (t.rd r c i).getLsbD b =
    if (rwMask r).getLsbD b then decide (b < 36) && v.testBit b
    else (s.rd r c i).getLsbD b && !((w1cMask r).getLsbD b && decide (b < 36) && v.testBit b)) ∧
  (∀ q d j, regKey q d j ≠ regKey r c i → t.rd q d j = s.rd q d j)

/-- The commit of a register that a write only stores to: it takes the word, and the half stage of the slot is emptied. -/
theorem commit_tookWord (s : State) (f : Func) (a : Nat) {r : Reg} (c i : Nat) (h : Bool) (w host : Nat) (head : Option (List Byte))
    (stores : storesOnly r = true) :
    tookWord s (s.commit f a r c i h w host head) r c i w ∧ ((s.commit f a r c i h w host head).fn f).half = ((s.emptyHalf f a).fn f).half := by
  rw [commit_storesOnly s f a r c i h w host head stores]
  refine ⟨⟨fun b => ?_, fun q d j other => ?_⟩, rfl⟩
  · rw [State.rd_wr_same, maskWrite_bit]
  · exact regGet_regSet_ne _ c i d j _ other

/-- Bits past the 36 of a word do not count (R78). -/
theorem tookWord.low {s t : State} {r : Reg} {c i v : Nat} (took : tookWord s t r c i (v % 2 ^ 64)) : tookWord s t r c i v := by
  refine ⟨fun b => (took.1 b).trans ?_, took.2⟩
  by_cases word : b < 36
  · rw [Nat.testBit_mod_two_pow, decide_eq_true (show b < 64 by omega), Bool.true_and]
  · simp [word]

theorem writeWord_tookWord {s : State} {f : Func} {a v : Nat} {r : Reg} {c i : Nat} (stores : storesOnly r = true)
    (target : s.target f a true = .reg r c i false) : tookWord s (s.writeWord f a (v % 2 ^ 64)) r c i v := by
  unfold State.writeWord
  rw [target]
  exact (commit_tookWord s f a c i false (v % 2 ^ 64) 0 none stores).1.low

/-- Settles O1: both commands are the write of the slot, whose commit the register takes. -/
theorem wordWritesStoreTheirSlot : Obligations.WordWritesStoreTheirSlot := by
  unfold Obligations.WordWritesStoreTheirSlot
  intro s f bar a v r c i stores reach bar0 target
  have took : tookWord s (s.writeWord f (a / 8 * 8) (v % 2 ^ 64)) r c i v := writeWord_tookWord stores target
  refine ⟨goesTo_wordWrite reach bar0 took, goesTo_act ?_⟩
  have written : s.regWrite f a v = s.writeWord f (a / 8 * 8) (v % 2 ^ 64) := if_pos reach
  show tookWord s ((s.regWrite f a v).withQueue s.pending) r c i v
  rw [written]
  exact took

/-! ## Half-slot writes (R80) -/

/-- A refusal leaves the stages, latches and replies of functions. -/
theorem fn_refuse (s : State) (f g : Func) (reason : Nat) (write : Bool) (a : Nat) : (s.refuse f reason write a).fn g = s.fn g := by
  unfold State.refuse State.fn
  split
  · dsimp only
    rw [State.wr_fns]
    cases f <;> rfl
  · rfl

/-- A refusal is counted, up to the counter's largest value, while the main domains can hold the count. -/
theorem refuse_count {s : State} (f : Func) (reason : Nat) (write : Bool) (a : Nat) (held : s.flag F.AON_STATUS.main_on = true) :
    (s.refuse f reason write a).fget F.GLB_REFUSED.count f.idx = min (s.fget F.GLB_REFUSED.count f.idx + 1) F.GLB_REFUSED.count.top := by
  unfold State.refuse
  rw [if_pos (.inl held)]
  have counted := s.fget_bumpSat_same (f := F.GLB_REFUSED.count) f.idx 0 1 rfl
  dsimp only
  rw [State.fget_wr_reg _ _ _ _ _ _ (by decide)]
  cases f with
  | vf n => exact (State.fget_fset_reg _ _ _ _ _ _ (by decide)).trans counted
  | pf => exact counted
  | console => exact counted

/-- The address of a refusal, while the main domains can hold it. -/
theorem refuse_addr {s : State} (f : Func) {reason : Nat} (write : Bool) (a : Nat) (held : s.flag F.AON_STATUS.main_on = true) :
    (s.refuse f reason write a).fget F.GLB_REFUSED_LAST.addr f.idx = a % 2 ^ 26 := by
  unfold State.refuse
  rw [if_pos (.inl held)]
  unfold State.fget
  rw [show F.GLB_REFUSED_LAST.addr.reg = .GLB_REFUSED_LAST from rfl, State.rd_wr_same]
  simp only [fldGet, BitVec.toNat_ofNat, Nat.shiftRight_eq_div_pow, F.GLB_REFUSED_LAST.addr]
  cases write
  · simp only [Bool.false_eq_true, if_false]
    omega
  · simp only [if_true]
    omega

/-- A low-half write of an open slot is staged. -/
theorem writeLow_reg {s : State} {f : Func} {a v : Nat} {r : Reg} {c i : Nat} {h : Bool} (target : s.target f a true = .reg r c i h) :
    s.writeLow f a v = s.stageHalf f a v := by
  unfold State.writeLow
  rw [target]

/-- What a function's stages hold once a low half is staged. -/
theorem fn_stageHalf (s : State) (f : Func) (a v : Nat) : (s.stageHalf f a v).fn f = { s.fn f with half := some (a, v % 2 ^ 32) } := by
  have staged := fn_modFn s f fun x => { x with half := some (a, v % 2 ^ 32) }
  unfold State.stageHalf
  dsimp only
  split
  · split
    · exact staged
    · exact (fn_refuse _ f f 7 true _).trans staged
  · exact staged

/-- The first clause of O2: with no write of another slot staged, a low-half write changes the half stage and no register. -/
theorem lowHalfWrite_stages {s : State} {f : Func} {bar a v : Nat} {r : Reg} {c i : Nat} {h : Bool} (reach : s.reachable f = true)
    (bar0 : bar ≠ 2 ∨ f = .console) (target : s.target f (a / 8 * 8) true = .reg r c i h)
    (own : ∀ k w, (s.fn f).half = some (k, w) → k = a / 8 * 8) :
    goesTo (exec (.lowHalfWrite f bar a v) s) fun t => (t.fn f).half = some (a / 8 * 8, v % 2 ^ 32) ∧ t.regs = s.regs := by
  refine goesTo_lowHalfWrite reach bar0 ?_
  rw [writeLow_reg target]
  refine ⟨congrArg FnState.half (fn_stageHalf s f (a / 8 * 8) v), ?_⟩
  unfold State.stageHalf
  split
  · next held =>
    rw [if_pos (own _ _ held)]
    rfl
  · rfl

/-- The second clause of O2: a low-half write of another slot than the staged one takes its place, and the write discarded is counted as a refusal
with its own address (R95). -/
theorem lowHalfWrite_replaces {s : State} {f : Func} {bar a v : Nat} {r : Reg} {c i : Nat} {h : Bool} {k w : Nat} (reach : s.reachable f = true)
    (bar0 : bar ≠ 2 ∨ f = .console) (target : s.target f (a / 8 * 8) true = .reg r c i h) (held : (s.fn f).half = some (k, w))
    (other : k ≠ a / 8 * 8) (on : s.flag F.AON_STATUS.main_on = true) :
    goesTo (exec (.lowHalfWrite f bar a v) s) fun t =>
      (t.fn f).half = some (a / 8 * 8, v % 2 ^ 32) ∧
      t.fget F.GLB_REFUSED.count f.idx = min (s.fget F.GLB_REFUSED.count f.idx + 1) F.GLB_REFUSED.count.top ∧
      t.fget F.GLB_REFUSED_LAST.reason f.idx = 7 ∧ t.fget F.GLB_REFUSED_LAST.addr f.idx = k % 2 ^ 26 := by
  refine goesTo_lowHalfWrite reach bar0 ?_
  have discards : s.stageHalf f (a / 8 * 8) v =
      (s.modFn f fun x => { x with half := some (a / 8 * 8, v % 2 ^ 32) }).refuse f 7 true k := by
    unfold State.stageHalf
    rw [held]
    exact if_neg other
  rw [writeLow_reg target]
  refine ⟨congrArg FnState.half (fn_stageHalf s f (a / 8 * 8) v), ?_⟩
  rw [discards]
  exact ⟨refuse_count f 7 true k on, refuse_reason f true k on (by decide), refuse_addr f true k on⟩

/-- The word that a high-half write commits: bits [35:32] as written, and bits [31:0] of the stage or of the register. -/
def State.highWord (s : State) (f : Func) (a v : Nat) (r : Reg) (c i : Nat) : Nat :=
  v % 16 * 2 ^ 32 + s.lowHalf f a (s.readReg f r c i).toNat

/-- A high-half write of a register that a write only stores to commits that word, and empties the half stage of the slot. -/
theorem highHalfWrite_commits {s : State} {f : Func} {bar a v : Nat} {r : Reg} {c i : Nat} (stores : storesOnly r = true)
    (reach : s.reachable f = true) (bar0 : bar ≠ 2 ∨ f = .console) (target : s.target f (a / 8 * 8) true = .reg r c i false) :
    goesTo (exec (.highHalfWrite f bar a v) s) fun t =>
      tookWord s t r c i (s.highWord f (a / 8 * 8) v r c i) ∧ (t.fn f).half = ((s.emptyHalf f (a / 8 * 8)).fn f).half := by
  refine goesTo_highHalfWrite reach bar0 ?_
  unfold State.writeHigh
  rw [target]
  exact commit_tookWord s f (a / 8 * 8) c i false (s.highWord f (a / 8 * 8) v r c i) 0 none stores

/-- Bits [31:0] that a high-half write commits are 32 bits, where the stage holds 32 bits. -/
theorem lowHalf_lt {s : State} {f : Func} {a now : Nat} (fits : ∀ k w, (s.fn f).half = some (k, w) → w < 2 ^ 32) : s.lowHalf f a now < 2 ^ 32 := by
  have small : now % 2 ^ 32 < 2 ^ 32 := Nat.mod_lt _ (by decide)
  unfold State.lowHalf
  split
  · next k w held =>
    split
    · exact fits k w held
    · exact small
  · exact small

/-- The third clause of O2 for the stages that low-half writes leave, which hold 32 bits (`fn_stageHalf`). -/
theorem highHalfWrite_stores {s : State} {f : Func} {bar a v : Nat} {r : Reg} {c i : Nat} (stores : storesOnly r = true)
    (reach : s.reachable f = true) (bar0 : bar ≠ 2 ∨ f = .console) (target : s.target f (a / 8 * 8) true = .reg r c i false)
    (fits : ∀ k w, (s.fn f).half = some (k, w) → w < 2 ^ 32) :
    goesTo (exec (.highHalfWrite f bar a v) s) fun t =>
      (∀ b, b < 32 → (rwMask r).getLsbD b →
        (t.rd r c i).getLsbD b = (s.lowHalf f (a / 8 * 8) (s.readReg f r c i).toNat).testBit b) ∧
      (∀ b, 32 ≤ b → b < 36 → (rwMask r).getLsbD b → (t.rd r c i).getLsbD b = v.testBit (b - 32)) ∧
      (∀ q d j, regKey q d j ≠ regKey r c i → t.rd q d j = s.rd q d j) ∧
      (t.fn f).half = match (s.fn f).half with | some (k, w) => if k = a / 8 * 8 then none else some (k, w) | none => none := by
  obtain ⟨t, ran, ⟨bits, others⟩, half⟩ := highHalfWrite_commits (bar := bar) (v := v) stores reach bar0 target
  have word (b : Nat) (inside : b < 36) (writable : (rwMask r).getLsbD b) :
      (t.rd r c i).getLsbD b = (s.highWord f (a / 8 * 8) v r c i).testBit b := by
    rw [bits, if_pos writable, decide_eq_true inside, Bool.true_and]
  have joined (b : Nat) : (s.highWord f (a / 8 * 8) v r c i).testBit b =
      if b < 32 then (s.lowHalf f (a / 8 * 8) (s.readReg f r c i).toNat).testBit b else (v % 16).testBit (b - 32) := by
    unfold State.highWord
    rw [Nat.mul_comm, Nat.testBit_two_pow_mul_add _ (lowHalf_lt fits)]
  refine ⟨t, ran, fun b low writable => ?_, fun b high inside writable => ?_, others, half.trans (emptyHalf_half s f _)⟩
  · rw [word b (by omega) writable, joined, if_pos low]
  · rw [word b inside writable, joined, if_neg (by omega), show 16 = 2 ^ 4 from rfl, Nat.testBit_mod_two_pow,
      decide_eq_true (show b - 32 < 4 by omega), Bool.true_and]

/-- After main reset with the main domains up, the console's half stage holding 33 bits for `TIM_RATE`. -/
def overfullStage : State :=
  (State.reset.fset F.AON_STATUS.main_on 0 0 1).modFn .console fun x => { x with half := some (slotOf .TIM_RATE 0, 2 ^ 32) }

/-- Refutes O2: its third clause takes states in which the half stage holds more than 32 bits, which no low-half write leaves
(`fn_stageHalf`). The bits above then reach bits [35:32] of the register: with 2 ^ 32 staged, a high-half write of 0 sets bit 32 of `TIM_RATE`,
where the clause has the written bit, 0. The first two clauses hold (`lowHalfWrite_stages`, `lowHalfWrite_replaces`), and so does the third for
stages of 32 bits (`highHalfWrite_stores`). -/
theorem not_halfWritesStageAndCommit : ¬ Obligations.HalfWritesStageAndCommit := by
  unfold Obligations.HalfWritesStageAndCommit
  rintro ⟨-, -, commits⟩
  have target : overfullStage.target .console (slotOf .TIM_RATE 0 / 8 * 8) true = .reg .TIM_RATE 0 0 false := by decide +kernel
  have stores : storesOnly .TIM_RATE = true := by decide +kernel
  have claimed := commits overfullStage .console 0 (slotOf .TIM_RATE 0) 0 .TIM_RATE 0 0 stores rfl (.inr rfl) target
  obtain ⟨t, ran, ⟨bits, -⟩, -⟩ := highHalfWrite_commits (v := 0) stores rfl (.inr rfl) target
  have writable : (rwMask .TIM_RATE).getLsbD 32 = true := by decide +kernel
  have carried : (overfullStage.highWord .console (slotOf .TIM_RATE 0 / 8 * 8) 0 .TIM_RATE 0 0).testBit 32 = true := by decide +kernel
  have set : (t.rd .TIM_RATE 0 0).getLsbD 32 = true := by
    rw [bits 32, if_pos writable, carried]
    rfl
  refine goesTo_absurd claimed ⟨t, ran, ?_⟩
  rintro ⟨-, high, -, -⟩
  have clear : (t.rd .TIM_RATE 0 0).getLsbD 32 = false := high 32 (by decide) (by decide) writable
  exact Bool.noConfusion (set.symm.trans clear)

/-! ## Reads (R79, R81, R83) -/

/-- The reply of a function to its read. -/
theorem reply_replyWith (s : State) (f : Func) (v : Nat) : ((s.replyWith f v).fn f).reply = v := congrArg FnState.reply (fn_modFn s f _)

/-- The latch of a function stays at its reply. -/
theorem latch_replyWith (s : State) (f : Func) (v : Nat) : ((s.replyWith f v).fn f).latch = (s.fn f).latch := by
  unfold State.replyWith
  rw [fn_modFn]

/-- A 64-bit read of a register's low word answers the word shown. -/
theorem readWord_reg {s : State} {f : Func} {a : Nat} {r : Reg} {c i : Nat} (target : s.target f a false = .reg r c i false) :
    s.readWord f a = (s.slotRead f a r c i false).replyWith f ((s.readReg f r c i).toNat % 2 ^ 36) := by
  unfold State.readWord
  rw [target]
  rfl

/-- A low-half read of a register's low word latches and answers the word shown. -/
theorem readLow_reg {s : State} {f : Func} {a : Nat} {r : Reg} {c i : Nat} (target : s.target f a false = .reg r c i false) :
    let w := (s.readReg f r c i).toNat % 2 ^ 36
    s.readLow f a = ((s.slotRead f a r c i false).modFn f fun x => { x with latch := some (a, w / 2 ^ 32) }).replyWith f (w % 2 ^ 32) := by
  unfold State.readLow
  rw [target]
  rfl

/-- A high-half read of a register's low word answers the bits latched for the slot, or those shown now. -/
theorem readHigh_reg {s : State} {f : Func} {a : Nat} {r : Reg} {c i : Nat} (target : s.target f a false = .reg r c i false) :
    s.readHigh f a = s.replyWith f (match (s.fn f).latch with
      | some (k, b) => if k = a then b else (s.readReg f r c i).toNat % 2 ^ 36 / 2 ^ 32
      | none => (s.readReg f r c i).toNat % 2 ^ 36 / 2 ^ 32) := by
  unfold State.readHigh
  rw [target]
  cases (s.fn f).latch with
  | none => rfl
  | some held => rfl

/-- Settles O3: what the latch holds decides the answer of a high-half read. -/
theorem halfReadsLatchTheHighBits : Obligations.HalfReadsLatchTheHighBits := by
  unfold Obligations.HalfReadsLatchTheHighBits
  refine ⟨fun s f bar a r c i reach bar0 target => ?low, fun s f bar a r c i b reach bar0 target hit => ?hit,
    fun s f bar a r c i reach bar0 target miss => ?miss⟩
  case low =>
    refine goesTo_lowHalfRead reach bar0 ?_
    rw [readLow_reg target]
    exact ⟨reply_replyWith _ f _, (latch_replyWith _ f _).trans (congrArg FnState.latch (fn_modFn _ f _))⟩
  case hit =>
    refine goesTo_highHalfRead reach bar0 ?_
    rw [readHigh_reg target, hit]
    exact ⟨(reply_replyWith s f _).trans (if_pos rfl), rfl⟩
  case miss =>
    refine goesTo_highHalfRead reach bar0 ?_
    rw [readHigh_reg target]
    refine ⟨(reply_replyWith s f _).trans ?_, rfl⟩
    split
    · next k b held => exact if_neg fun same => miss b (by rw [held, same])
    · rfl

/-- The read of a register clears its read-clear fields, but for the two whose read does more. -/
theorem readEffect_plain (s : State) (f : Func) {r : Reg} (c i : Nat) (pool : r ≠ .BPM_PMIN) (now : r ≠ .TIM_NOW) :
    s.readEffect f r c i = if rcMask r = 0 then s else s.wr r c i (s.rd r c i &&& ~~~(rcMask r)) := by
  unfold State.readEffect
  split
  · exact absurd rfl pool
  · exact absurd rfl now
  · rfl

/-- A register once its read-clear fields are clear. -/
theorem rd_readEffect_same (s : State) (f : Func) {r : Reg} (c i : Nat) (pool : r ≠ .BPM_PMIN) (now : r ≠ .TIM_NOW) :
    (s.readEffect f r c i).rd r c i = s.rd r c i &&& ~~~(rcMask r) := by
  rw [readEffect_plain s f c i pool now]
  split
  · next plain => rw [plain, show ~~~(0 : RegVal) = BitVec.allOnes 72 from rfl, BitVec.and_allOnes]
  · exact s.rd_wr_same r c i _

/-- The registers beside one that is read. -/
theorem rd_readEffect_ne (s : State) (f : Func) {r q : Reg} {c i d j : Nat} (pool : r ≠ .BPM_PMIN) (now : r ≠ .TIM_NOW)
    (other : regKey q d j ≠ regKey r c i) : (s.readEffect f r c i).rd q d j = s.rd q d j := by
  rw [readEffect_plain s f c i pool now]
  split
  · rfl
  · exact regGet_regSet_ne s.regs c i d j _ other

/-- A bit of a value without the bits of a mask. -/
theorem getLsbD_and_not (v m : RegVal) (b : Nat) : (v &&& ~~~m).getLsbD b = (v.getLsbD b && !m.getLsbD b) := by
  rw [BitVec.getLsbD_and, BitVec.getLsbD_not]
  by_cases inside : b < 72
  · rw [decide_eq_true inside, Bool.true_and]
  · rw [BitVec.getLsbD_of_ge v b (by omega), Bool.false_and, Bool.false_and]

/-- The word latch that the read of a 72-bit register leaves is no register (R82). -/
theorem slotRead_effect (s : State) (f : Func) (a : Nat) (r : Reg) (c i : Nat) :
    ∃ u : State, u.regs = s.regs ∧ s.slotRead f a r c i false = u.readEffect f r c i := by
  unfold State.slotRead
  rw [if_neg Bool.false_ne_true]
  exact ⟨_, by split <;> rfl, rfl⟩

/-- A fence read of a slot that leads to a register answers whether it was late (R97). -/
theorem goesTo_glbFenceRead {s : State} {f : Func} {late : Bool} {r : Reg} {c i : Nat} {h : Bool} {P : State → Prop} (reach : s.reachable f = true)
    (target : s.target f 0x30 false = .reg r c i h) (holds : P ((s.replyWith f (oneIf late)).withQueue s.pending)) :
    goesTo (exec (.glbFenceRead f late) s) P := by
  refine ⟨_, ?_, holds⟩
  show execGlbFenceRead f late s = _
  simp only [execGlbFenceRead, State.act, reach, target, Bool.not_true, Bool.false_eq_true, if_false]

/-- Settles O4: a 64-bit read is the register's reply and the clearing of its read-clear fields, a fence read a reply alone. -/
theorem readsClearOnceAndFencesAnswer : Obligations.ReadsClearOnceAndFencesAnswer := by
  unfold Obligations.ReadsClearOnceAndFencesAnswer
  refine ⟨fun s f bar a r c i reach bar0 target pool now => ?read, fun s f late r c i h reach target => ?fence⟩
  case read =>
    refine goesTo_readClearAccess reach bar0 ?_
    obtain ⟨u, same, effect⟩ := slotRead_effect s f (a / 8 * 8) r c i
    have before (q : Reg) (d j : Nat) : u.rd q d j = s.rd q d j := congrArg (regGet · q d j) same
    rw [readWord_reg target, effect]
    refine ⟨reply_replyWith _ f _, fun b => ?_, fun q d j other => ?_⟩
    · rw [← getLsbD_and_not, ← before]
      exact congrArg (BitVec.getLsbD · b) (rd_readEffect_same u f c i pool now)
    · exact (rd_readEffect_ne u f pool now other).trans (before q d j)
  case fence =>
    exact goesTo_glbFenceRead reach target ⟨reply_replyWith s f _, rfl⟩

end Sys2Proof.Machine
end

section
/-! PROOFS. Select registers (R90), and resets of blocks, functions and the endpoint (R98, R99, R434, R465, R623, R631, R632). -/

namespace Sys2Proof.Machine

/-! ## Select registers (R90) -/

/-- Partition records are as they were after a change of registers beside the generation. -/
theorem regsOnly.partWord {rs : List Reg} {s t : State} (h : regsOnly rs s t) (gen : .IMG_GEN ∉ rs) (p w : Nat) :
    t.partWord p w = s.partWord p w := by
  have tag : t.tagNow = s.tagNow := h.fget F.IMG_GEN.tag 0 0 gen
  simp only [State.partWord, State.pword, State.bankOf, State.scope, State.plane, tag, h.planes, h.image]

/-- Nor do the ports, queue sets, search banks and channels of a partition change. -/
theorem regsOnly.holdings {rs : List Reg} {s t : State} (h : regsOnly rs s t) (gen : .IMG_GEN ∉ rs) :
    t.holdsPort = s.holdsPort ∧ t.holdsSet = s.holdsSet ∧ t.bankOwner = s.bankOwner ∧ t.chanOn = s.chanOn := by
  have records := h.partWord gen
  have enabled (p : Nat) : t.partEnabled p = s.partEnabled p := by simp only [State.partEnabled, records]
  refine ⟨funext₂ fun p n => ?_, funext₂ fun p n => ?_, funext fun b => ?_, funext fun ch => ?_⟩
  · simp only [State.holdsPort, enabled, records]
  · simp only [State.holdsSet, enabled, records]
  · simp only [State.bankOwner, enabled, records]
  · simp only [State.chanOn, enabled, records]

/-- Which indices are open does not turn on what the select registers hold. -/
theorem regsOnly.selOpen {rs : List Reg} {s t : State} (h : regsOnly rs s t) (sels : rs ⊆ selRegs) (f : Func) (r : Reg) (n : Nat) :
    t.selOpen f r n = s.selOpen f r n := by
  have beside (q : Reg) (other : q ∉ selRegs) : q ∉ rs := fun m => other (sels m)
  obtain ⟨ports, sets, banks, channels⟩ := h.holdings (beside .IMG_GEN (by decide))
  have lanes : t.holderOf = s.holderOf := funext fun l => h.fget F.CPH_LOCK.holder l 0 (beside .CPH_LOCK (by decide))
  have threads : t.thrPart = s.thrPart := funext fun x => h.fget F.CCX_T_STATUS.part x 0 (beside .CCX_T_STATUS (by decide))
  have view : t.view f = s.view f := by
    unfold State.view State.viewOf
    rw [ports, channels, lanes, sets]
  unfold State.selOpen
  rw [ports, banks, sets, threads, view]

/-- The select register of a block is one. -/
theorem selOfBlock_mem {b : Nat} {r : Reg} (sel : selOfBlock b = some r) : r ∈ selRegs := by
  unfold selOfBlock at sel
  split at sel <;> cases sel <;> decide

/-- Select registers are registers of one word, with no RWL copy, window or lane of their own. -/
theorem selRegs_plain {r : Reg} (sel : r ∈ selRegs) :
    r.place.wide = false ∧ isRwl r = false ∧ isInd r = false ∧ r ≠ .CPH_LOCK ∧ r ≠ .MAC_CTL ∧ r ≠ .SCH_SET := by
  revert r
  decide

/-- The two fields of a select register's value: the index, and an error unless it is open. -/
theorem selValue_fields {n : Nat} (index : n < 2 ^ 12) (ok : Bool) :
    fldGet (BitVec.ofNat 72 (n + if ok then 0 else 2 ^ 12)) 11 0 = n ∧
      (fldGet (BitVec.ofNat 72 (n + if ok then 0 else 2 ^ 12)) 12 12 = 0 ↔ ok = true) := by
  simp only [fldGet, BitVec.toNat_ofNat, Nat.shiftRight_eq_div_pow]
  cases ok
  · simp only [Bool.false_eq_true, if_false, iff_false]
    omega
  · simp only [if_true, iff_true]
    omega

/-- Settles O6: the index is stored, and `sel_err` beside it says whether it was open. -/
theorem selectWritesChooseAnInstance : Obligations.SelectWritesChooseAnInstance := by
  unfold Obligations.SelectWritesChooseAnInstance
  intro s f b v r sel taken
  have mem := selOfBlock_mem sel
  obtain ⟨word, rwl, ind, lock, ctl, set⟩ := selRegs_plain mem
  have command : exec (.selWrite f b v) s = s.act fun s => s.writeTo f r 0 v := by
    show execSelWrite f b v s = _
    unfold execSelWrite
    rw [sel]
  rw [command]
  refine goesTo_writeTo taken word rwl ind lock ctl set fun u old was only => ?_
  have stored : u.wrote f r f.idx 0 old (BitVec.ofNat 72 (v % 2 ^ 36)) was 0 none =
      u.wr r f.idx 0 (BitVec.ofNat 72 (v % 2 ^ 12 + if s.selOpen f r (v % 2 ^ 12) then 0 else 2 ^ 12)) := by
    unfold State.wrote State.wroteSel
    rw [if_pos (List.contains_iff_mem.2 mem), fldGet_written v (by decide)]
    dsimp only
    rw [only.selOpen (by simp [mem])]
  rw [stored, State.rd_withQueue, State.rd_wr_same]
  exact selValue_fields (Nat.mod_lt _ (by decide)) _

/-! ## Block resets (R98, R632) -/

/-- A sparse table without some of its keys. -/
theorem tabGet_filter {α : Type} (d : α) (p : Nat → Bool) (t : Tab α) (k : Nat) :
    tabGet d (t.filter fun e => p e.1) k = if p k then tabGet d t k else d := by
  induction t with
  | nil => simp
  | cons e t ih =>
    rw [List.filter_cons]
    by_cases here : e.1 = k
    · subst here
      split
      · simp [tabGet]
      · next drop => rw [ih, if_neg drop]
    · split <;> simp [tabGet, here, ih]

/-- A key names its register. -/
theorem regKey_reg (r : Reg) (c i : Nat) : regKey r c i / 2 ^ 32 = r.ctorIdx := by
  unfold regKey
  omega

/-- Registers that return to their reset values read as those. -/
theorem rd_eraseRegs (s : State) {rs : List Reg} {r : Reg} (c i : Nat) (erased : r ∈ rs) : (s.eraseRegs rs).rd r c i = regReset r c i := by
  refine (tabGet_filter _ (fun k => !(rs.map Reg.ctorIdx).contains (k / 2 ^ 32)) s.regs _).trans (if_neg ?_)
  rw [regKey_reg, List.contains_iff_mem.2 (List.mem_map_of_mem erased)]
  exact Bool.false_ne_true

/-- A reset of blocks resets those that the value names, in order. -/
theorem effBreset_eq (s : State) (blocks : Nat) : ∃ u : State, u = ((List.range 20).filter (bit blocks)).foldl State.resetBlock s ∧
    s.effBreset blocks = { u with held := (List.range 20).filter fun b => u.held.contains b || bit blocks b } := by
  refine ⟨_, rfl, ?_⟩
  rw [List.foldl_filter]
  rfl

/-- A write of `GLB_BRESET` is the reset of the blocks that its low 20 bits name. -/
theorem goesTo_glbBresetWrite {s : State} {f : Func} {blocks : Nat} {P : State → Prop} (taken : opens s f .GLB_BRESET 0 0)
    (holds : ∀ u : State, P ((u.effBreset (blocks % 2 ^ 20)).withQueue s.pending)) : goesTo (exec (.glbBresetWrite f blocks) s) P := by
  refine goesTo_writeTo taken rfl (by decide) rfl (by decide) (by decide) (by decide) fun u _ _ _ => ?_
  rw [wrote_GLB_BRESET, fldGet_written blocks (by decide)]
  exact holds u

/-- A block that a reset names is held in reset. -/
theorem effBreset_held (s : State) {blocks b : Nat} (block : b < 20) (named : bit blocks b = true) : b ∈ (s.effBreset blocks).held := by
  obtain ⟨u, -, effect⟩ := effBreset_eq s blocks
  rw [effect]
  exact List.mem_filter.2 ⟨List.mem_range.2 block, by rw [named, Bool.or_true]⟩

/-- A reset of `PRS` alone unblocks every filter and returns every register of the block to its reset value. -/
theorem effBreset_prs (s : State) :
    (s.effBreset (2 ^ 3)).blocked = [] ∧ ∀ r ∈ Reg.listPRS, ∀ c i, (s.effBreset (2 ^ 3)).rd r c i = regReset r c i := by
  obtain ⟨u, ran, effect⟩ := effBreset_eq s (2 ^ 3)
  rw [show (List.range 20).filter (bit (2 ^ 3)) = [3] from by decide] at ran
  have prs : u = s.prePrs.eraseRegs Reg.listPRS := by
    rw [ran]
    show s.prePrs.resetBlockRegs 3 = _
    unfold State.resetBlockRegs
    rw [show (blockRegs 3).filter (fun r => !(blockKeep 3).contains r) = Reg.listPRS from by decide, show blockSel 3 = [] from by decide]
    rfl
  rw [effect, prs]
  exact ⟨rfl, fun r mem c i => rd_eraseRegs s.prePrs c i mem⟩

/-- A block whose reset ends is let go, and the others are held as before. -/
theorem blockResetEnd_lets (s : State) (b : Nat) :
    goesTo (exec (.blockResetEnd b) s) fun t => b ∉ t.held ∧ (∀ x, x ≠ b → (x ∈ t.held ↔ x ∈ s.held)) ∧ t.regs = s.regs := by
  have mem (x : Nat) : x ∈ s.held.filter (· ≠ b) ↔ x ∈ s.held ∧ x ≠ b := by rw [List.mem_filter, decide_eq_true_iff]
  refine ⟨_, rfl, ?_⟩
  exact ⟨fun held => ((mem b).1 held).2 rfl, fun x other => (mem x).trans (and_iff_left other), rfl⟩

/-! ## Function-level reset (R99, R434) -/

/-- The reset of select registers leaves the MSI-X tables. -/
theorem resetSels_msix (s : State) (f : Func) (rs : List Reg) : (rs.foldl (fun s r => s.resetSel f r) s).msix = s.msix := by
  refine foldl_rel (R := fun s t : State => t.msix = s.msix) (fun _ => rfl) (fun h k => k.trans h) (fun u r => ?_) rs s
  unfold State.resetSel
  split
  · split <;> rfl
  · rfl

/-- What a function's reset leaves of it: no stages and latches, and its counts, its last refusal and its view at their reset values. -/
theorem resetFunc_clears (s : State) (f : Func) :
    (s.resetFunc f).fn f = {} ∧ (s.resetFunc f).fget F.GLB_REFUSED.count f.idx = 0 ∧ (s.resetFunc f).rd .GLB_REFUSED_LAST f.idx = 0 ∧
      (s.resetFunc f).fget F.IMG_VIEW.shadow f.idx = 0 ∧ (s.resetFunc f).msix = s.msix := by
  unfold State.resetFunc
  extract_lets sels cleared
  refine ⟨tabGet_erase_same _ _ _, ?count, ?last, State.fget_fset_same _ _ _ _ rfl, resetSels_msix s f selRegs⟩
  case count =>
    rw [State.fget_fset_reg _ _ _ _ _ _ (by decide), State.fget_wr_reg _ _ _ _ _ _ (by decide)]
    exact (congrArg (fldGet · _ _) (State.rd_wr_same _ _ _ _ _)).trans (by decide)
  case last =>
    rw [State.rd_fset_reg _ _ _ _ _ _ (by decide)]
    exact State.rd_wr_same _ _ _ _ _

/-- The vectors of a function whose MSI-X table is reset. -/
theorem vec_resetMsix (s : State) (fn : Nat) {v : Nat} (small : v < 512) : (s.resetMsix fn).vec fn v = {} := by
  have row : (fn * 512 + v) / 512 = fn := by omega
  exact (tabGet_filter _ (fun k => decide (k / 512 ≠ fn)) s.msix _).trans (if_neg (by simp [row]))

/-- A function-level reset of the PF or a VF ends with the reset of the function's MSI-X table, registers and stages. -/
theorem functionLevelReset_ends (s : State) {f : Func} (host : f ≠ .console) :
    ∃ u : State, exec (.functionLevelReset f) s = .next (((u.resetMsix f.idx).resetFunc f).withQueue s.pending) := by
  cases f with
  | pf => exact ⟨_, rfl⟩
  | vf n => exact ⟨_, rfl⟩
  | console => exact absurd rfl host

theorem functionLevelReset_clears (s : State) {f : Func} (host : f ≠ .console) :
    goesTo (exec (.functionLevelReset f) s) fun t =>
      t.fn f = {} ∧ t.fget F.GLB_REFUSED.count f.idx = 0 ∧ t.rd .GLB_REFUSED_LAST f.idx = 0 ∧ t.fget F.IMG_VIEW.shadow f.idx = 0 ∧
      ∀ v, v < 512 → t.vec f.idx v = {} := by
  obtain ⟨u, ran⟩ := functionLevelReset_ends s host
  obtain ⟨fn, count, last, view, msix⟩ := resetFunc_clears (u.resetMsix f.idx) f
  refine ⟨_, ran, fn, count, last, view, fun v small => ?_⟩
  show tabGet {} ((u.resetMsix f.idx).resetFunc f).msix (f.idx * 512 + v) = {}
  rw [msix]
  exact vec_resetMsix u f.idx small

/-! ## The endpoint (R428, R465, R623, R631) -/

/-- `PERST_N` takes the link down, and clears every MSI-X table of an endpoint that is out of reset. -/
theorem perstAssert_downs (s : State) : goesTo (exec .perstAssert s) fun t =>
    t.pcie.perst = true ∧ t.pcie.l0 = false ∧ t.pcie.detect = false ∧ (s.pcie.endpointUp = true → t.msix = []) := by
  refine ⟨_, rfl, ?_⟩
  dsimp only
  split
  · next held => exact ⟨rfl, rfl, rfl, fun up => by simp [up] at held⟩
  · exact ⟨rfl, rfl, rfl, fun _ => rfl⟩

/-- A field of the link register beside the one written. -/
theorem fget_link_beside (s : State) {f g : Fld} (n : Nat) (link : f.reg = .DMA_LINK ∧ g.reg = .DMA_LINK) (beside : f.hi < g.lo ∨ g.hi < f.lo) :
    (s.fset f 0 0 n).fget g = s.fget g :=
  s.fget_fset_fld 0 0 n (link.2.trans link.1.symm) beside

/-- The speed and width that a link trains to. -/
theorem linkTrained_fields (s : State) (speed width : Nat) :
    (s.linkTrained speed width).fget F.DMA_LINK.speed = speed % 2 ^ (F.DMA_LINK.speed.hi + 1 - F.DMA_LINK.speed.lo) ∧
      (s.linkTrained speed width).fget F.DMA_LINK.width = width % 2 ^ (F.DMA_LINK.width.hi + 1 - F.DMA_LINK.width.lo) ∧
      (s.linkTrained speed width).fget F.DMA_LINK.retrains = s.fget F.DMA_LINK.retrains := by
  unfold State.linkTrained
  refine ⟨?speed, State.fget_fset_same _ _ _ _ rfl, ?retrains⟩
  case speed =>
    rw [fget_link_beside _ _ ⟨rfl, rfl⟩ (by decide)]
    exact State.fget_fset_same _ _ _ _ rfl
  case retrains =>
    rw [fget_link_beside _ _ ⟨rfl, rfl⟩ (by decide), fget_link_beside _ _ ⟨rfl, rfl⟩ (by decide)]

/-- From Detect the link reaches L0. -/
theorem linkL0_trains {s : State} (speed width : Nat) (detect : s.pcie.detect = true) :
    goesTo (exec (.linkL0 speed width) s) fun t =>
      t.pcie.l0 = true ∧ t.fget F.DMA_LINK.speed = speed % 2 ^ (F.DMA_LINK.speed.hi + 1 - F.DMA_LINK.speed.lo) ∧
      t.fget F.DMA_LINK.width = width % 2 ^ (F.DMA_LINK.width.hi + 1 - F.DMA_LINK.width.lo) := by
  refine goesTo_act ?_
  rw [if_pos detect]
  obtain ⟨atSpeed, atWidth, -⟩ := linkTrained_fields { s with pcie := { s.pcie with l0 := true } } speed width
  exact ⟨rfl, atSpeed, atWidth⟩

/-- In L0 the link trains again, and that is counted. -/
theorem pcieLinkRetrain_trains {s : State} (speed width : Nat) (l0 : s.pcie.l0 = true) :
    goesTo (exec (.pcieLinkRetrain speed width) s) fun t =>
      t.pcie.l0 = true ∧ t.fget F.DMA_LINK.speed = speed % 2 ^ (F.DMA_LINK.speed.hi + 1 - F.DMA_LINK.speed.lo) ∧
      t.fget F.DMA_LINK.width = width % 2 ^ (F.DMA_LINK.width.hi + 1 - F.DMA_LINK.width.lo) ∧
      t.fget F.DMA_LINK.retrains = min (s.fget F.DMA_LINK.retrains + 1) F.DMA_LINK.retrains.top := by
  refine goesTo_act ?_
  rw [if_pos l0]
  obtain ⟨atSpeed, atWidth, before⟩ := linkTrained_fields s speed width
  have counted := (s.linkTrained speed width).fget_bumpSat_same (f := F.DMA_LINK.retrains) 0 0 1 rfl
  rw [before] at counted
  have beside (g : Fld) (link : g.reg = .DMA_LINK) (high : F.DMA_LINK.retrains.hi < g.lo) :
      ((s.linkTrained speed width).bumpSat F.DMA_LINK.retrains 0 0).fget g = (s.linkTrained speed width).fget g :=
    fget_link_beside _ _ ⟨rfl, link⟩ (.inl high)
  exact ⟨l0, (beside F.DMA_LINK.speed rfl (by decide)).trans atSpeed, (beside F.DMA_LINK.width rfl (by decide)).trans atWidth, counted⟩

/-- Settles O7, clause by clause. -/
theorem blockFunctionAndEndpointResets : Obligations.BlockFunctionAndEndpointResets := by
  unfold Obligations.BlockFunctionAndEndpointResets
  refine ⟨fun s f blocks taken => ?held, fun s f taken => ?prs, blockResetEnd_lets, fun s f host => functionLevelReset_clears s host,
    perstAssert_downs, fun s => ⟨_, rfl, rfl, rfl, rfl⟩, fun s speed width => linkL0_trains speed width,
    fun s speed width => pcieLinkRetrain_trains speed width⟩
  case held =>
    refine goesTo_glbBresetWrite taken fun u b block named => effBreset_held u block ?_
    rw [bit_eq_testBit, Nat.testBit_mod_two_pow, named, decide_eq_true block, Bool.true_and]
  case prs => exact goesTo_glbBresetWrite taken effBreset_prs

end Sys2Proof.Machine
end

section
/-! PROOFS. What the end of frames, copies and links leaves as it was (R26, R120, R130, R143, R275, R503): the image, the planes, what a port
keeps of its lanes, and every register beside the few that they change. -/

namespace Sys2Proof.Machine

/-! ## The relation -/

/-- From `s` to `t`, the image and the planes are as they were, what each port keeps of signal and EEE, and every register beside those listed. -/
structure Within (rs : List Reg) (s t : State) : Prop where
  image : t.image = s.image
  planes : t.planes = s.planes
  lanes : ∀ p, (t.port p).signal = (s.port p).signal ∧ (t.port p).eee = (s.port p).eee
  read : ∀ r c i, r ∉ rs → t.rd r c i = s.rd r c i

/-- The registers that ending frames and copies changes: counters, accounts and pools, faults and their records, states of units, and what a port
shows of MAC merge, its partners and its squelched outputs. -/
def endRegs : List Reg :=
  [.BPM_PORTUSE, .BPM_ACCT, .BPM_OCC, .BPM_COCC, .BPM_CNT, .BPM_QUAR, .BPM_BADH_LAST, .MAC_CNT, .MAC_PAUSE_STATE, .MAC_PFC_OCC,
   .CNT_TRACE_STAT, .IMG_OLD_FRAMES, .IMG_STATUS, .CCX_T_STATUS, .DMA_CH_STATUS, .FLT_CNT, .FLT_STATUS, .AON_STATUS, .AON_TAIL_STATUS,
   .MAC_PARTNER, .TIM_SYNCE, .MAC_MM] ++ recordRegs

namespace Within

variable {rs : List Reg} {s t u : State}

theorem refl (s : State) : Within rs s s := ⟨rfl, rfl, fun _ => ⟨rfl, rfl⟩, fun _ _ _ _ => rfl⟩

theorem trans (h : Within rs s t) (k : Within rs t u) : Within rs s u :=
  ⟨k.image.trans h.image, k.planes.trans h.planes, fun p => ⟨(k.lanes p).1.trans (h.lanes p).1, (k.lanes p).2.trans (h.lanes p).2⟩,
    fun r c i other => (k.read r c i other).trans (h.read r c i other)⟩

theorem mono {qs : List Reg} (h : Within rs s t) (sub : rs ⊆ qs) : Within qs s t :=
  ⟨h.image, h.planes, h.lanes, fun r c i other => h.read r c i fun m => other (sub m)⟩

theorem ite {c : Prop} [Decidable c] (h : Within rs s t) (k : Within rs s u) : Within rs s (if c then t else u) := by
  split
  · exact h
  · exact k

/-- A run of steps that each stay within the registers does. -/
theorem foldl {α : Type} {f : State → α → State} (h : Within rs s t) (step : ∀ u x, Within rs u (f u x)) (l : List α) :
    Within rs s (l.foldl f t) :=
  h.trans (foldl_rel refl trans step l t)

/-- A change of what the relation does not speak of. -/
theorem beside (h : Within rs s t) (image : u.image = t.image) (planes : u.planes = t.planes) (ports : u.ports = t.ports)
    (regs : u.regs = t.regs) : Within rs s u :=
  h.trans ⟨image, planes, fun p => by simp only [State.port, ports, and_self], fun _ _ _ _ => congrArg (regGet · _ _ _) regs⟩

/-! ## Registers, records and what is kept of a port -/

theorem wr (h : Within rs s t) {r : Reg} {c i : Nat} {v : RegVal} (mem : r ∈ rs) : Within rs s (t.wr r c i v) :=
  h.trans ⟨rfl, rfl, fun _ => ⟨rfl, rfl⟩, fun _ d j other => t.rd_wr_reg c i d j v fun e => other (ctorIdx_inj e ▸ mem)⟩

theorem fset (h : Within rs s t) {f : Fld} {c i n : Nat} (mem : f.reg ∈ rs) : Within rs s (t.fset f c i n) := h.wr mem

theorem bump (h : Within rs s t) {f : Fld} {c i n : Nat} (mem : f.reg ∈ rs) : Within rs s (t.bump f c i n) := h.wr mem

theorem bumpSat (h : Within rs s t) {f : Fld} {c i n : Nat} (mem : f.reg ∈ rs) : Within rs s (t.bumpSat f c i n) := h.wr mem

theorem drop (h : Within rs s t) {f : Fld} {c i n : Nat} (mem : f.reg ∈ rs) : Within rs s (t.drop f c i n) := h.wr mem

theorem sent (h : Within rs s t) (k : sentOnly t u) (sub : recordRegs ⊆ rs) : Within rs s u := by
  obtain ⟨⟨_, _, _, _, rfl⟩, read⟩ := k
  exact h.trans ⟨rfl, rfl, fun _ => ⟨rfl, rfl⟩, fun r c i other => read r c i fun m => other (sub m)⟩

theorem modPort (h : Within rs s t) {p : Nat} {g : PortSt → PortSt} (keeps : ∀ x, (g x).signal = x.signal ∧ (g x).eee = x.eee) :
    Within rs s (t.modPort p g) := by
  refine h.trans ⟨rfl, rfl, fun q => ?_, fun _ _ _ _ => rfl⟩
  unfold State.port State.modPort
  rw [tabGet_mod]
  split
  · next here => rw [here]; exact keeps _
  · exact ⟨rfl, rfl⟩

/-! ## Registers that the relation leaves -/

theorem fget (h : Within rs s t) (f : Fld) (c i : Nat) (other : f.reg ∉ rs) : t.fget f c i = s.fget f c i := by
  unfold State.fget
  rw [h.read _ _ _ other]

theorem flag (h : Within rs s t) (f : Fld) (c i : Nat) (other : f.reg ∉ rs) : t.flag f c i = s.flag f c i := by
  unfold State.flag
  rw [h.fget f c i other]

/-- The ports' records in the ACTIVE image are as they were. -/
theorem portRec (h : Within rs s t) (gen : .IMG_GEN ∉ rs) (p : Nat) : t.portRec p = s.portRec p := by
  have tag : t.tagNow = s.tagNow := h.fget F.IMG_GEN.tag 0 0 gen
  simp only [State.portRec, State.portWord, State.pword, State.bankOf, State.scope, State.plane, tag, h.planes, h.image]

theorem portState (h : Within rs s t) (status : .MAC_STATUS ∉ rs) (p : Nat) : t.portState p = s.portState p :=
  h.fget F.MAC_STATUS.state p 0 status

/-! ## Buffers (R140, R271–R275, R398) -/

theorem emitPart (h : Within endRegs s t) {p cls : Nat} {r : Record} : Within endRegs s (t.emitPart p cls r) :=
  h.sent (emitPart_sentOnly ..) (by decide)

theorem emitBoth (h : Within endRegs s t) {p cls : Nat} {r : Record} : Within endRegs s (t.emitBoth p cls r) :=
  h.sent (emitBoth_sentOnly ..) (by decide)

theorem setXoff (h : Within endRegs s t) {p c : Nat} {on : Bool} : Within endRegs s (t.setXoff p c on) :=
  .ite (.modPort (.fset h (by decide)) fun _ => ⟨rfl, rfl⟩) (.fset h (by decide))

theorem pfcCount (h : Within endRegs s t) {p c n : Nat} {up : Bool} : Within endRegs s (t.pfcCount p c up n) := by
  unfold State.pfcCount
  extract_lets counted
  have kept : Within endRegs s counted := .ite (.bumpSat h (by decide)) (.drop h (by decide))
  exact .ite (.ite (.setXoff kept) kept) (.ite (.setXoff kept) (.ite (.setXoff kept) kept))

theorem modThr (h : Within rs s t) {n : Nat} {g : Thread → Thread} : Within rs s (t.modThr n g) := h.beside rfl rfl rfl rfl

theorem leaveWindows (h : Within endRegs s t) {b : Nat} {keeps : Nat → Bool} : Within endRegs s (t.leaveWindows b keeps) :=
  .foldl h (fun u _ => .modThr (.refl u)) _

theorem uncharge (h : Within endRegs s t) {a : Acct} {n : Nat} : Within endRegs s (t.uncharge a n) := by
  cases a with
  | none => exact h
  | ingGen => exact .drop (.drop h (by decide)) (by decide)
  | ingExp p =>
    have taken : Within endRegs s ((t.drop F.BPM_PORTUSE.units 0 p n).drop F.BPM_ACCT.used 0 1 n) := .drop (.drop h (by decide)) (by decide)
    exact taken.beside rfl rfl rfl rfl
  | hdrm => exact h.beside rfl rfl rfl rfl
  | quota => exact .drop h (by decide)
  | common => exact .drop (.drop h (by decide)) (by decide)

theorem freeBuf (h : Within endRegs s t) {b : Nat} : Within endRegs s (t.freeBuf b) := by
  unfold State.freeBuf
  split
  · exact h
  next x _ =>
    have erased : Within endRegs s { t with bufs := tabErase t.bufs b } := h.beside rfl rfl rfl rfl
    extract_lets n freed _ marked
    have kept : Within endRegs s freed := .bump (.uncharge (.leaveWindows erased)) (by decide)
    have withdrawn : Within endRegs s marked := .ite (kept.beside rfl rfl rfl rfl) kept
    split
    · exact .pfcCount withdrawn
    · exact withdrawn

theorem freeDropped (h : Within endRegs s t) {b : Nat} : Within endRegs s (t.freeDropped b) := by
  unfold State.freeDropped
  split
  · exact .ite h (.freeBuf h)
  · exact h

/-! ## Traces (R525–R527) -/

theorem traceClose (h : Within endRegs s t) {n : Nat} : Within endRegs s (t.traceClose n) := by
  unfold State.traceClose
  split
  · next x _ =>
    have listed : Within endRegs s { t with trace := { t.trace with open_ := tabErase t.trace.open_ n } } := h.beside rfl rfl rfl rfl
    exact .ite (.fset listed (by decide)) h
  · exact h

theorem modTrace (h : Within endRegs s t) {n : Nat} {g : TraceSt → TraceSt} : Within endRegs s (t.modTrace n g) := by
  unfold State.modTrace
  split
  · exact h.beside rfl rfl rfl rfl
  · exact h

theorem traceRx (h : Within endRegs s t) {f : Frame} {code : Nat} : Within endRegs s (t.traceRx f code) := by
  unfold State.traceRx
  split
  · exact h
  · exact .traceClose (.modTrace (.emitPart h))

theorem traceTx (h : Within endRegs s t) {c : Copy} {kind outcome : Nat} {last : Option Nat} :
    Within endRegs s (t.traceTx c kind outcome last) := by
  unfold State.traceTx
  split
  · exact h
  · exact .traceClose (.modTrace (.emitPart h))

/-! ## Faults and the tailings log (R531–R538) -/

theorem tailAppend (h : Within endRegs s t) {ws : List Nat} {graver : Bool} : Within endRegs s (t.tailAppend ws graver) := by
  unfold State.tailAppend
  refine .ite (.bumpSat h (by decide)) ?_
  extract_lets tail _ entered counted
  have logged : Within endRegs s entered := h.beside rfl rfl rfl rfl
  have kept : Within endRegs s counted := .fset logged (by decide)
  exact .ite (.fset kept (by decide)) kept

theorem mergeFault (h : Within endRegs s t) {f : FaultRec} {cause unit cls : Nat} : Within endRegs s (t.mergeFault f cause unit cls) := by
  unfold State.mergeFault
  extract_lets g old new _ merged held counted overflowed frozen
  have recorded : Within endRegs s merged := h.beside rfl rfl rfl rfl
  have kept : Within endRegs s counted := .bump recorded (by decide)
  have full : Within endRegs s overflowed := .ite (.bump (.fset kept (by decide)) (by decide)) kept
  have froze : Within endRegs s frozen := .ite (.fset full (by decide)) full
  exact .fset (.emitBoth froze) (by decide)

theorem openFault (h : Within endRegs s t) {f : FaultRec} : Within endRegs s (t.openFault f) := by
  unfold State.openFault
  extract_lets slot g _ listed counted overflowed recorded logged
  have entered : Within endRegs s listed := .ite (h.beside rfl rfl rfl rfl) h
  have kept : Within endRegs s counted := .bump entered (by decide)
  have full : Within endRegs s overflowed := .ite (.bump (.fset kept (by decide)) (by decide)) kept
  exact .fset (.tailAppend (.emitBoth full)) (by decide)

theorem raise (h : Within endRegs s t) {f : FaultRec} : Within endRegs s (t.raise f) := by
  unfold State.raise
  split
  · exact .mergeFault h
  · exact .openFault h

theorem fenceUnit (h : Within endRegs s t) {n : Nat} : Within endRegs s (t.fenceUnit n) := by
  unfold State.fenceUnit
  have halted : Within endRegs s (t.fset F.DMA_CH_STATUS.state (n - 0xB00) 0 6) := .fset h (by decide)
  exact .ite (.ite (.fset h (by decide)) h) (.ite (halted.beside rfl rfl rfl rfl) (h.beside rfl rfl rfl rfl))

/-! ## Operations on buffers, and copies that leave them (R270–R275) -/

theorem setBuf (h : Within endRegs s t) {n : Nat} {b : Buf} : Within endRegs s (t.setBuf n b) := h.beside rfl rfl rfl rfl

theorem refuseOp (h : Within endRegs s t) {p status : Nat} : Within endRegs s (t.refuseOp p status) := by
  unfold State.refuseOp
  split
  · exact .bump h (by decide)
  · exact h

theorem opEffect (h : Within endRegs s t) {unit op n arg : Nat} {b : Buf} : Within endRegs s (t.opEffect unit op n arg b) := by
  unfold State.opEffect
  split
  · exact .bump (.setBuf h) (by decide)
  · exact .bump (.setBuf h) (by decide)
  · exact .freeBuf h
  · exact .leaveWindows (.setBuf h)
  · exact .emitBoth (.bump (.drop (.freeBuf (.setBuf h)) (by decide)) (by decide))
  · exact .ite (.bump (.setBuf h) (by decide)) (.ite h (.freeBuf (.setBuf h)))
  · exact h

theorem bpmOp (h : Within endRegs s t) {unit p op n arg : Nat} : Within endRegs s (t.bpmOp unit p op n arg).2 := by
  unfold State.bpmOp
  split
  · exact .raise (.fenceUnit (.emitBoth (.wr (.bump h (by decide)) (by decide))))
  · split
    · exact refuseOp (p := p) (status := 3) h
    · extract_lets status refused
      have kept : Within endRegs s refused := .refuseOp h
      split
      · exact .opEffect h
      · split
        · exact .ite kept (.emitBoth (.bump (.bump (.setBuf kept) (by decide)) (by decide)))
        · exact kept

/-! ## Frames and queues (R26, R39, R286, R331) -/

theorem frameGone (h : Within endRegs s t) {id : Nat} : Within endRegs s (t.frameGone id) := by
  have erased : Within endRegs s { t with frames := tabErase t.frames id } := h.beside rfl rfl rfl rfl
  unfold State.frameGone State.refreshOld
  extract_lets n counted
  have kept : Within endRegs s counted := .fset erased (by decide)
  exact .ite erased (.ite (.emitPart (.fset kept (by decide))) kept)

theorem modFrame (h : Within endRegs s t) {id : Nat} {g : Frame → Frame} : Within endRegs s (t.modFrame id g) := by
  unfold State.modFrame
  split
  · exact h.beside rfl rfl rfl rfl
  · exact h

theorem copyGone (h : Within endRegs s t) {c : Copy} : Within endRegs s (t.copyGone c) := by
  unfold State.copyGone
  split
  · exact .ite (.frameGone h) (.modFrame h)
  · exact h

theorem balAdd (h : Within rs s t) {p i n : Nat} : Within rs s (t.balAdd p i n) := h.beside rfl rfl rfl rfl

theorem balSub (h : Within rs s t) {p i n : Nat} : Within rs s (t.balSub p i n) := h.beside rfl rfl rfl rfl

theorem dropCopy (h : Within endRegs s t) {c : Copy} {balance outcome : Nat} : Within endRegs s (t.dropCopy c balance outcome) :=
  .copyGone (.traceTx (.balAdd (.bpmOp h)))

theorem dropPunt (h : Within endRegs s t) {q : Punt} {balance outcome : Nat} : Within endRegs s (t.dropPunt q balance outcome) :=
  .copyGone (.traceTx (.balAdd (.bpmOp h)))

theorem withdrawPunts (h : Within endRegs s t) {id : Nat} : Within endRegs s (t.withdrawPunts id) := by
  unfold State.withdrawPunts
  refine .foldl h (fun u e => ?_) _
  have emptied : Within endRegs u { u with punts := tabSet [] u.punts e.1 (e.2.filter fun q => q.frame ≠ id) } :=
    (refl u).beside rfl rfl rfl rfl
  exact .ite (.refl u) (.foldl emptied (fun v _ => .dropPunt (.refl v)) _)

theorem setQueue (h : Within rs s t) {n : Nat} {q : Queue} : Within rs s (t.setQueue n q) := h.beside rfl rfl rfl rfl

theorem modSetNode (h : Within rs s t) {port set : Nat} {g : SetNode → SetNode} : Within rs s (t.modSetNode port set g) :=
  h.beside rfl rfl rfl rfl

theorem refreshTag (h : Within endRegs s t) {port set c : Nat} : Within endRegs s (t.refreshTag port set c) := by
  unfold State.refreshTag
  refine .ite h ?_
  extract_lets n q st tagged any node
  have kept : Within endRegs s tagged := by
    unfold tagged
    split
    · exact .setQueue h
    · exact .setQueue h
    · exact h
  exact .ite (.modSetNode kept) (.ite (.modSetNode kept) kept)

theorem withdraw (h : Within endRegs s t) {id : Nat} : Within endRegs s (t.withdraw id) :=
  .foldl (.withdrawPunts h)
    (fun u _ => .ite (.refl u) (.foldl (.refreshTag (.setQueue (.refl u))) (fun v _ => .dropCopy (.refl v)) _)) _

theorem freeFrameBuf (h : Within endRegs s t) {f : Frame} : Within endRegs s (t.freeFrameBuf f) :=
  .ite (.drop (.freeDropped h) (by decide)) h

theorem preDrop (h : Within endRegs s t) {id : Nat} {f : Frame} : Within endRegs s (t.preDrop id f) := by
  unfold State.preDrop
  extract_lets added taken freed traced
  have left : Within endRegs s taken := .ite (.balSub (.balAdd h)) (.balSub (.balAdd h))
  have kept : Within endRegs s freed := .ite (.freeDropped left) (.freeFrameBuf left)
  exact .ite (.modFrame (.traceRx kept)) (.frameGone (.traceRx kept))

theorem failFrame (h : Within endRegs s t) {id : Nat} : Within endRegs s (t.failFrame id) := by
  unfold State.failFrame
  split
  · exact h
  · refine .ite (.preDrop h) ?_
    extract_lets marked withdrawn
    have kept : Within endRegs s withdrawn := .withdraw (.modFrame h)
    split
    · exact .ite (.bump kept (by decide)) (.ite kept (.frameGone kept))
    · exact kept

/-! ## What a link that ends leaves (R120, R130, R143, R503) -/

theorem macCount (h : Within endRegs s t) {p i n : Nat} : Within endRegs s (t.macCount p i n) := h.bump (by decide)

theorem clearRx (h : Within rs s t) {id p : Nat} : Within rs s (t.clearRx id p) := h.modPort fun _ => ⟨rfl, rfl⟩

theorem cutRx (h : Within endRegs s t) {p : Nat} : Within endRegs s (t.cutRx p) := by
  unfold State.cutRx
  extract_lets cut
  have kept {u : State} (k : Within endRegs s u) (pmac : Bool) : Within endRegs s (cut u pmac) := by
    unfold cut
    split
    · split
      · exact .failFrame (.clearRx (.macCount k))
      · exact k
    · exact k
  exact kept (kept h false) true

theorem clearPartners (h : Within endRegs s t) {p : Nat} : Within endRegs s (t.clearPartners p) :=
  .modPort (.foldl h (fun u _ => .wr (.refl u) (by decide)) _) fun _ => ⟨rfl, rfl⟩

theorem squelchPort (h : Within endRegs s t) {p cause : Nat} {lane : Option Nat} : Within endRegs s (t.squelchPort p cause lane) :=
  .foldl h (fun u _ => .ite (.ite (.refl u) (.emitPart (.fset (.refl u) (by decide)))) (.refl u)) _

theorem setVerify (h : Within endRegs s t) {p st : Nat} : Within endRegs s (t.setVerify p st) := .ite h (.emitBoth (.fset h (by decide)))

theorem refreshMm (h : Within endRegs s t) {p : Nat} {restart : Bool} : Within endRegs s (t.refreshMm p restart) :=
  have restarted : Within endRegs s (t.modPort p fun q => { q with verifySent := 0 }) := h.modPort fun _ => ⟨rfl, rfl⟩
  .fset (.ite (.setVerify h) (.ite (.setVerify restarted) h)) (by decide)

end Within
end Sys2Proof.Machine
end

section
/-! PROOFS. What a port's transmitter changes when control frames go ahead, a frame on the wire is cut or a held remainder goes on (R137, R140,
R142, R144, R342). -/

namespace Sys2Proof.Machine

/-! ## Fields and what is kept of a port -/

@[simp] theorem port_modPort_same (s : State) (p : Nat) (g : PortSt → PortSt) : (s.modPort p g).port p = g (s.port p) :=
  tabGet_mod_same _ _ _ _

theorem port_modPort_ne (s : State) {p q : Nat} (g : PortSt → PortSt) (other : q ≠ p) : (s.modPort p g).port q = s.port q :=
  tabGet_mod_ne _ _ _ other

@[simp] theorem port_wr (s : State) (r : Reg) (c i : Nat) (v : RegVal) (p : Nat) : (s.wr r c i v).port p = s.port p := rfl

@[simp] theorem port_fset (s : State) (f : Fld) (c i n p : Nat) : (s.fset f c i n).port p = s.port p := rfl

@[simp] theorem port_macCount (s : State) (p i n q : Nat) : (s.macCount p i n).port q = s.port q := rfl

@[simp] theorem port_withQueue (s : State) (q : List Instr) (p : Nat) : (s.withQueue q).port p = s.port p := rfl

@[simp] theorem fget_modPort (s : State) (p : Nat) (g : PortSt → PortSt) (f : Fld) (c i : Nat) : (s.modPort p g).fget f c i = s.fget f c i := rfl

@[simp] theorem flag_modPort (s : State) (p : Nat) (g : PortSt → PortSt) (f : Fld) (c i : Nat) : (s.modPort p g).flag f c i = s.flag f c i := rfl

@[simp] theorem portState_modPort (s : State) (p q : Nat) (g : PortSt → PortSt) : (s.modPort p g).portState q = s.portState q := rfl

@[simp] theorem portState_withQueue (s : State) (q : List Instr) (p : Nat) : (s.withQueue q).portState p = s.portState p := rfl

/-- A one-bit field that is set. -/
theorem flag_of_fget {s : State} {f : Fld} {c i : Nat} (one : s.fget f c i = 1) : s.flag f c i = true := decide_eq_true one

/-- A one-bit field that is clear. -/
theorem flag_of_fget_zero {s : State} {f : Fld} {c i : Nat} (zero : s.fget f c i = 0) : s.flag f c i = false :=
  decide_eq_false (by omega)

/-! ## Records -/

theorem sentOnly.port {s t : State} (h : sentOnly s t) (p : Nat) : t.port p = s.port p := by
  obtain ⟨⟨_, _, _, _, rfl⟩, -⟩ := h
  rfl

theorem sentOnly.flt {s t : State} (h : sentOnly s t) : t.flt = s.flt := by
  obtain ⟨⟨_, _, _, _, rfl⟩, -⟩ := h
  rfl

/-- A field of a register that sending a record leaves. -/
theorem sentOnly.fget {s t : State} (h : sentOnly s t) (f : Fld) (c i : Nat) (other : f.reg ∉ recordRegs) : t.fget f c i = s.fget f c i :=
  congrArg (fldGet · f.hi f.lo) (h.2 f.reg c i other)

/-! ## Changes of one port -/

/-- From `s` to `t`, nothing has changed but what is kept of port `p`, and the registers listed. -/
structure PortOnly (rs : List Reg) (p : Nat) (s t : State) : Prop where
  rest : t = { s with regs := t.regs, ports := t.ports }
  others : ∀ q, q ≠ p → t.port q = s.port q
  read : ∀ r c i, r ∉ rs → t.rd r c i = s.rd r c i

namespace PortOnly

variable {rs : List Reg} {p : Nat} {s t u : State}

theorem refl (s : State) : PortOnly rs p s s := ⟨rfl, fun _ _ => rfl, fun _ _ _ _ => rfl⟩

theorem trans (h : PortOnly rs p s t) (k : PortOnly rs p t u) : PortOnly rs p s u :=
  ⟨by rw [k.rest, h.rest], fun q other => (k.others q other).trans (h.others q other),
    fun r c i other => (k.read r c i other).trans (h.read r c i other)⟩

theorem mono {qs : List Reg} (h : PortOnly rs p s t) (sub : rs ⊆ qs) : PortOnly qs p s t :=
  ⟨h.rest, h.others, fun r c i other => h.read r c i fun m => other (sub m)⟩

theorem ite {c : Prop} [Decidable c] (h : PortOnly rs p s t) (k : PortOnly rs p s u) : PortOnly rs p s (if c then t else u) := by
  split
  · exact h
  · exact k

theorem foldl {α : Type} {f : State → α → State} (h : PortOnly rs p s t) (step : ∀ u x, PortOnly rs p u (f u x)) (l : List α) :
    PortOnly rs p s (l.foldl f t) :=
  h.trans (foldl_rel refl trans step l t)

theorem modPort (h : PortOnly rs p s t) {g : PortSt → PortSt} : PortOnly rs p s (t.modPort p g) :=
  h.trans ⟨rfl, fun _ other => port_modPort_ne t g other, fun _ _ _ _ => rfl⟩

theorem fset (h : PortOnly rs p s t) {f : Fld} {c i n : Nat} (mem : f.reg ∈ rs) : PortOnly rs p s (t.fset f c i n) :=
  h.trans ⟨rfl, fun _ _ => rfl, fun _ d j other => t.rd_fset_reg c i d j n fun e => other (ctorIdx_inj e ▸ mem)⟩

theorem macCount (h : PortOnly rs p s t) {q i n : Nat} (mem : .MAC_CNT ∈ rs) : PortOnly rs p s (t.macCount q i n) := h.fset mem

/-- A field of a register that is not listed. -/
theorem fget (h : PortOnly rs p s t) (f : Fld) (c i : Nat) (other : f.reg ∉ rs) : t.fget f c i = s.fget f c i :=
  congrArg (fldGet · f.hi f.lo) (h.read f.reg c i other)

/-- The frames of other ports, the queues, the buffers and CMEM are as they were. -/
theorem apart (h : PortOnly rs p s t) : (∀ q, q ≠ p → t.port q = s.port q) ∧ t.queues = s.queues ∧ t.bufs = s.bufs ∧ t.cmem = s.cmem :=
  ⟨h.others, by rw [h.rest], by rw [h.rest], by rw [h.rest]⟩

end PortOnly

/-! ## Changes by a port's transmitter -/

/-- From `s` to `t`, nothing has changed but what is kept of port `p`, its counters, and `lpi_tx` in its status. -/
structure SendsOnly (p : Nat) (s t : State) : Prop extends PortOnly [.MAC_CNT, .MAC_STATUS] p s t where
  status : ∀ f : Fld, f.reg = .MAC_STATUS → f.hi < 9 ∨ 9 < f.lo → t.fget f p 0 = s.fget f p 0

namespace SendsOnly

variable {p : Nat} {s t u : State}

theorem refl (p : Nat) (s : State) : SendsOnly p s s := ⟨.refl s, fun _ _ _ => rfl⟩

theorem trans (h : SendsOnly p s t) (k : SendsOnly p t u) : SendsOnly p s u :=
  ⟨h.toPortOnly.trans k.toPortOnly, fun f st beside => (k.status f st beside).trans (h.status f st beside)⟩

theorem ite {c : Prop} [Decidable c] (h : SendsOnly p s t) (k : SendsOnly p s u) : SendsOnly p s (if c then t else u) := by
  split
  · exact h
  · exact k

theorem modPort (h : SendsOnly p s t) {g : PortSt → PortSt} : SendsOnly p s (t.modPort p g) := h.trans ⟨.modPort (.refl t), fun _ _ _ => rfl⟩

theorem macCount (h : SendsOnly p s t) {i n : Nat} : SendsOnly p s (t.macCount p i n) :=
  h.trans ⟨.macCount (.refl t) (by decide), fun f st _ => t.fget_fset_reg _ _ _ _ _ (by rw [st]; decide)⟩

theorem lpiTx (h : SendsOnly p s t) {n : Nat} : SendsOnly p s (t.fset F.MAC_STATUS.lpi_tx p 0 n) :=
  h.trans ⟨.fset (.refl t) (by decide), fun _ st beside => t.fget_fset_fld p 0 n st beside.symm⟩

/-! ## The transmitter's operations -/

theorem cutWire (h : SendsOnly p s t) {x : TxCopy} {d : Nat} : SendsOnly p s (t.cutWire p x d) := .macCount (.macCount (.modPort h))

theorem sendCtl (h : SendsOnly p s t) {f : CtlFrame} : SendsOnly p s (t.sendCtl p f) := .lpiTx (.macCount (.modPort h))

theorem pauseCut (h : SendsOnly p s t) : SendsOnly p s (t.pauseCut p) := by
  unfold State.pauseCut
  split
  · exact h
  · split
    · split
      · exact .cutWire h
      · exact h
    · exact h

theorem ctlGo (h : SendsOnly p s t) : SendsOnly p s (t.ctlGo p) := by
  unfold State.ctlGo
  refine .ite h (.ite (.modPort h) (.ite h ?_))
  extract_lets cut
  have kept : SendsOnly p s cut := by
    unfold cut
    split
    · split
      · exact .cutWire h
      · exact h
    · exact h
  have sent (l : List CtlFrame) (u : State) : SendsOnly p u (l.foldl (fun s f => s.sendCtl p f) u) :=
    foldl_rel (refl p) trans (fun u _ => .sendCtl (.refl p u)) l u
  exact .ite kept ((SendsOnly.modPort kept).trans (sent _ _))

theorem resume (h : SendsOnly p s t) : SendsOnly p s (t.resume p) := by
  unfold State.resume
  extract_lets q
  split
  · exact h
  · exact .ite h (.modPort (.lpiTx h))

end SendsOnly
end Sys2Proof.Machine
end

section
/-! PROOFS. The port state machine (R117–R125), which settles O14: what entering a state leaves, and what each event of a module or a link does. -/

namespace Sys2Proof.Machine

/-- A port's state, after a write of another field of its status. -/
theorem portState_fset (s : State) {f : Fld} (p n : Nat) (status : f.reg = .MAC_STATUS) (beside : 2 < f.lo) :
    (s.fset f p 0 n).portState p = s.portState p := s.fget_fset_fld p 0 n status.symm (.inr beside)

/-! ## Entering a state (R117, R118, R122) -/

/-- The registers that a change of a port's state changes. -/
def linkRegs : List Reg := .MAC_STATUS :: endRegs

namespace Within

variable {s t : State}

theorem lostLink (h : Within linkRegs s t) {p : Nat} : Within linkRegs s (t.lostLink p) :=
  .fset (.fset (.fset (.fset (.fset h (by decide)) (by decide)) (by decide)) (by decide)) (by decide)

/-- What keeps to the registers of frames and links that end keeps to those of a change of state. -/
theorem link {u : State} (h : Within linkRegs s t) (k : Within endRegs t u) : Within linkRegs s u :=
  h.trans (k.mono (List.subset_cons_self _ _))

theorem portTo (h : Within linkRegs s t) {p new cause : Nat} : Within linkRegs s (t.portTo p new cause) := by
  unfold State.portTo
  extract_lets old status timed entered cut
  have set : Within linkRegs s status := .fset (.fset h (by decide)) (by decide)
  have begun : Within linkRegs s timed := set.modPort fun _ => ⟨rfl, rfl⟩
  have kept : Within linkRegs s entered := begun.link (.emitBoth (.refl _))
  have left : Within linkRegs s cut := .modPort (kept.link (.cutRx (.refl _))) fun _ => ⟨rfl, rfl⟩
  have lost : Within linkRegs s ((cut.clearPartners p).lostLink p) := .lostLink (left.link (.clearPartners (.refl _)))
  exact .ite h (.ite (lost.link (.refreshMm (.squelchPort (.refl _)))) (.ite (kept.link (.refreshMm (.refl _))) kept))

theorem portPresent (h : Within linkRegs s t) {p cause : Nat} : Within linkRegs s (t.portPresent p cause) :=
  .ite (.portTo (.portTo h)) (.portTo h)

end Within

theorem portState_lostLink (s : State) (p : Nat) : (s.lostLink p).portState p = s.portState p := by
  unfold State.lostLink
  rw [portState_fset _ _ _ rfl (by decide), portState_fset _ _ _ rfl (by decide), portState_fset _ _ _ rfl (by decide),
    portState_fset _ _ _ rfl (by decide), portState_fset _ _ _ rfl (by decide)]

/-- What keeps to the registers of frames and links that end keeps every port's state. -/
theorem Within.portState_end {s t : State} (h : Within endRegs s t) (p : Nat) : t.portState p = s.portState p := h.portState (by decide) p

/-- A port is in the state that it enters. -/
theorem portState_portTo (s : State) (p : Nat) {new : Nat} (cause : Nat) (code : new < 8) : (s.portTo p new cause).portState p = new := by
  unfold State.portTo
  extract_lets old status timed entered cut
  have here : status.portState p = new := by
    refine (portState_fset _ p cause rfl (by decide)).trans ?_
    exact (s.fget_fset_same p 0 new (by decide)).trans (Nat.mod_eq_of_lt code)
  have told : Within endRegs timed entered := .emitBoth (.refl _)
  have at_ : entered.portState p = new := (told.portState_end p).trans here
  have ended : Within endRegs entered (entered.cutRx p) := .cutRx (.refl _)
  have left : cut.portState p = new := (ended.portState_end p).trans at_
  have cleared : Within endRegs cut (cut.clearPartners p) := .clearPartners (.refl _)
  have lost : ((cut.clearPartners p).lostLink p).portState p = new :=
    (portState_lostLink _ p).trans ((cleared.portState_end p).trans left)
  have squelched (u : State) : Within endRegs u ((u.squelchPort p 2).refreshMm p false) := .refreshMm (.squelchPort (.refl _))
  have merged : Within endRegs entered (entered.refreshMm p true) := .refreshMm (.refl _)
  split
  · next same => exact same
  · split
    · exact ((squelched _).portState_end p).trans lost
    · split
      · exact (merged.portState_end p).trans at_
      · exact at_

/-- A port that enters PRESENT goes on to TRAINING without AN where its lanes already show signal. -/
theorem portState_portPresent (s : State) (p cause : Nat) : (s.portPresent p cause).portState p =
    if bit (s.portRec p) 13 = false ∧ (s.port p).signal = true then pTraining else pPresent := by
  have kept : Within linkRegs s (s.portTo p pPresent cause) := .portTo (.refl s)
  unfold State.portPresent
  dsimp only
  rw [kept.portRec (by decide), (kept.lanes p).1]
  cases bit (s.portRec p) 13 <;> cases (s.port p).signal <;> simp [portState_portTo, pPresent, pTraining]

theorem portState_portPresent_an {s : State} {p : Nat} (cause : Nat) (an : bit (s.portRec p) 13 = true) :
    (s.portPresent p cause).portState p = pPresent := by
  rw [portState_portPresent, if_neg (by simp [an])]

/-! ## Modules (R118, R124, R125) -/

theorem goesTo_awake {s : State} {g : State → State} {P : State → Prop} (awake : s.frozen = false) (holds : P ((g s).withQueue s.pending)) :
    goesTo (s.actAwake g) P := by
  refine goesTo_act ?_
  rw [awake]
  exact holds

@[simp] theorem master_modMaster_same (s : State) (m : Nat) (g : I2cSt → I2cSt) : (s.modMaster m g).master m = g (s.master m) :=
  tabGet_mod_same _ _ _ _

/-- The state with other I²C masters. -/
def State.withI2c (s : State) (l : Tab I2cSt) : State := { s with i2c := l }

/-- An access that comes to an idle master is the one that it runs. -/
theorem joinMaster_idle {s : State} {p : Nat} (j : I2cJob) (idle : (s.master (s.i2cNo p)).jobs = []) :
    ∃ l, s.joinMaster p j = (s.withI2c l).runMaster (s.i2cNo p) 1 ∧ ((s.withI2c l).master (s.i2cNo p)).jobs = [j] := by
  unfold State.joinMaster
  dsimp only
  rw [idle]
  refine ⟨_, rfl, ?_⟩
  show ((s.modMaster (s.i2cNo p) fun q => { q with jobs := q.jobs ++ [j] }).master (s.i2cNo p)).jobs = [j]
  rw [master_modMaster_same, idle, List.nil_append]

/-- A poll that comes to an idle master runs. -/
theorem joinMaster_poll {s : State} {p : Nat} (ack modFault : Bool) (idle : (s.master (s.i2cNo p)).jobs = []) :
    ∃ l, s.joinMaster p (.poll p ack modFault) = (s.withI2c l).pollDone p ack modFault := by
  obtain ⟨l, ran, first⟩ := joinMaster_idle (.poll p ack modFault) idle
  rw [ran, State.runMaster, first]
  exact ⟨_, rfl⟩

/-- A bring-up step that comes to an idle master runs. -/
theorem joinMaster_step {s : State} {p : Nat} (cmis : Nat) (apps : List (Nat × Nat × Nat)) (idle : (s.master (s.i2cNo p)).jobs = []) :
    ∃ l, s.joinMaster p (.step p cmis apps) = (s.withI2c l).stepDone p cmis apps := by
  obtain ⟨l, ran, first⟩ := joinMaster_idle (.step p cmis apps) idle
  rw [ran, State.runMaster, first]
  exact ⟨_, rfl⟩

/-- Presence seen on an ABSENT port begins its bring-up. -/
theorem presenceSeen_begins {s : State} {p : Nat} (absent : s.portState p = pAbsent) (fresh : (s.port p).bringup = 0) :
    (s.presenceSeen p).flag F.MAC_MOD.present p = true ∧ ((s.presenceSeen p).port p).bringup = 1 := by
  have seen : (s.fset F.MAC_MOD.present p 0 1).fget F.MAC_MOD.present p = 1 := s.fget_fset_same p 0 1 (by decide)
  have still : (s.fset F.MAC_MOD.present p 0 1).portState p = pAbsent := (s.fget_fset_reg p 0 p 0 1 (by decide)).trans absent
  unfold State.presenceSeen
  simp only [portState_modPort, still, port_modPort_same, port_fset, fresh, and_self, if_true, and_true]
  exact flag_of_fget seen

/-- A poll that a module acknowledges, on an ABSENT port: presence is seen, and bring-up begins. -/
theorem presencePoll_begins {s : State} {p : Nat} (awake : s.frozen = false) (absent : s.portState p = pAbsent) (media : s.portMedia p ≠ 0)
    (free : s.i2cUnit p ∉ s.flt.fenced) (polled : bit (s.portRec p) 17 = false) (fresh : (s.port p).bringup = 0)
    (idle : (s.master (s.i2cNo p)).jobs = []) :
    goesTo (exec (.presencePoll p true false) s) fun t => t.flag F.MAC_MOD.present p = true ∧ (t.port p).bringup = 1 := by
  obtain ⟨l, ran⟩ := joinMaster_poll (s := s) (p := p) true false idle
  have seen : (s.withI2c l).pollDone p true false = (s.withI2c l).presenceSeen p := by
    unfold State.pollDone
    rw [if_neg (by simp)]
    exact if_neg (by rw [Bool.not_eq_true]; exact polled)
  show goesTo (execPresencePoll p true false s) _
  refine goesTo_awake awake ?_
  rw [if_neg (by simp [free, absent, media, pAbsent, pDisabled]), ran, seen]
  exact presenceSeen_begins (s := s.withI2c l) absent fresh

section
variable {s : State} {p cmis : Nat} {apps : List (Nat × Nat × Nat)}

/-- An application that a module advertises is of the port's speed and lanes. -/
def State.fits (s : State) (p : Nat) (a : Nat × Nat × Nat) : Prop := 0 < a.1 ∧ a.2.1 = s.portSpeed p ∧ a.2.2 = s.portLanes p

theorem mem_fitting {a : Nat} : a ∈ (apps.filter fun a => decide (0 < a.1 ∧ a.2.1 = s.portSpeed p ∧ a.2.2 = s.portLanes p)).map Prod.fst ↔
    ∃ b ∈ apps, s.fits p b ∧ b.1 = a := by
  simp only [List.mem_map, List.mem_filter, decide_eq_true_eq, State.fits, and_assoc]

/-- The application chosen is the lowest-numbered of those that fit. -/
theorem chooseApp_least {a : Nat × Nat × Nat} (mem : a ∈ apps) (fits : s.fits p a) (least : ∀ b ∈ apps, s.fits p b → a.1 ≤ b.1) :
    s.chooseApp p apps = some a.1 := by
  refine List.min?_eq_some_iff.2 ⟨mem_fitting.2 ⟨a, mem, fits, rfl⟩, fun n listed => ?_⟩
  obtain ⟨b, here, fit, rfl⟩ := mem_fitting.1 listed
  exact least b here fit

theorem chooseApp_none (unfit : ∀ a ∈ apps, ¬ s.fits p a) : s.chooseApp p apps = none := by
  refine List.min?_eq_none_iff.2 (List.eq_nil_iff_forall_not_mem.2 fun n listed => ?_)
  obtain ⟨b, here, fit, rfl⟩ := mem_fitting.1 listed
  exact unfit b here fit

/-- A bring-up step of an ABSENT port with an idle master is done at once. -/
theorem goesTo_bringupStep {P : State → Prop} (awake : s.frozen = false) (idle : (s.master (s.i2cNo p)).jobs = []) (under : (s.port p).bringup ≠ 0)
    (holds : ∀ l, P (((s.withI2c l).stepDone p cmis apps).withQueue s.pending)) :
    goesTo (exec (.moduleBringupStep p (cmis, apps)) s) P := by
  obtain ⟨l, ran⟩ := joinMaster_step (s := s) (p := p) cmis apps idle
  show goesTo (execModuleBringupStep p (cmis, apps) s) _
  refine goesTo_awake awake ?_
  rw [if_neg under, ran]
  exact holds l

variable (absent : s.portState p = pAbsent)
include absent

theorem stepDone_fault (under : (s.port p).bringup ≠ 0) : (s.stepDone p 5 apps).portState p = pFault := by
  unfold State.stepDone
  rw [if_neg (by simp [absent, under]), if_pos rfl]
  exact portState_portTo _ _ _ (by decide)

variable (sound : cmis ≠ 5)
include sound

theorem stepDone_first (step : (s.port p).bringup = 1) :
    s.stepDone p cmis apps = (s.fset F.MAC_MOD.cmis_st p 0 cmis).modPort p fun q => { q with bringup := 2 } := by
  simp [State.stepDone, absent, sound, step]

theorem stepDone_second (step : (s.port p).bringup = 2) :
    s.stepDone p cmis apps = (s.fset F.MAC_MOD.cmis_st p 0 3).modPort p fun q => { q with bringup := 3 } := by
  simp [State.stepDone, absent, sound, step]

theorem stepDone_chosen {app : Nat} (step : (s.port p).bringup = 3) (chosen : s.chooseApp p apps = some app) :
    s.stepDone p cmis apps = (s.fset F.MAC_MOD.app p 0 app).modPort p fun q => { q with bringup := 4 } := by
  simp [State.stepDone, absent, sound, step, chosen]

theorem stepDone_unmatched (step : (s.port p).bringup = 3) (none : s.chooseApp p apps = none) :
    s.stepDone p cmis apps = s.portTo p pFault 10 := by
  simp [State.stepDone, absent, sound, step, none]

theorem stepDone_last (step : (s.port p).bringup = 4) : s.stepDone p cmis apps = s.portPresent p 2 := by
  simp [State.stepDone, absent, sound, step]

end

/-! ## Links (R120) -/

/-- A port that receives nothing has nothing to truncate. -/
theorem cutRx_idle {s : State} {p : Nat} (whole : s.rxFrame p false = none) (part : s.rxFrame p true = none) : s.cutRx p = s := by
  simp only [State.cutRx, whole, part]

/-! ## The statement -/

/-- Settles O14: what a module's poll and bring-up step do to an ABSENT port, and the entry of the state that each event of a link brings. -/
theorem modulesAndLinksMoveThePort : Obligations.ModulesAndLinksMoveThePort := by
  unfold Obligations.ModulesAndLinksMoveThePort
  refine ⟨fun s p awake absent media free polled fresh idle => presencePoll_begins awake absent media free polled fresh idle,
    fun s p cmis apps awake absent idle => ⟨fun sound => ⟨fun step => ?first, fun step => ?second, fun a mem step fits least => ?third,
      fun step unfit => ?unmatched, fun step an => ?last⟩, fun under fault => ?fault⟩,
    fun s p awake under => ?timeout, fun s p present an => ?page, fun s p present plain power leaving => ?signal,
    fun s p eee training => ?conditions, fun s p training an => ?retry, fun s p lane kind up other whole part => ?loss, fun s p => ?lossEnd,
    fun s p up lost an => ?down, fun s p up => ?remote, fun s p => ?remoteEnd⟩
  case first =>
    refine goesTo_bringupStep awake idle (by omega) fun l => ?_
    rw [stepDone_first (s := s.withI2c l) absent sound step]
    exact ⟨by rw [port_withQueue, port_modPort_same], State.fget_fset_same _ _ _ _ (by decide)⟩
  case second =>
    refine goesTo_bringupStep awake idle (by omega) fun l => ?_
    rw [stepDone_second (s := s.withI2c l) absent sound step]
    exact ⟨by rw [port_withQueue, port_modPort_same], State.fget_fset_same _ _ _ _ (by decide)⟩
  case third =>
    refine goesTo_bringupStep awake idle (by omega) fun l => ?_
    rw [stepDone_chosen (s := s.withI2c l) absent sound step (chooseApp_least (s := s.withI2c l) mem fits least)]
    exact ⟨by rw [port_withQueue, port_modPort_same], State.fget_fset_same _ _ _ _ (by decide)⟩
  case unmatched =>
    refine goesTo_bringupStep awake idle (by omega) fun l => ?_
    rw [stepDone_unmatched (s := s.withI2c l) absent sound step (chooseApp_none (s := s.withI2c l) unfit)]
    exact portState_portTo _ p 10 (by decide)
  case last =>
    refine goesTo_bringupStep awake idle (by omega) fun l => ?_
    rw [stepDone_last (s := s.withI2c l) absent sound step]
    exact portState_portPresent_an 2 an
  case fault =>
    refine goesTo_bringupStep awake idle under fun l => ?_
    rw [fault]
    exact stepDone_fault absent under
  case timeout =>
    show goesTo (execModuleBringupTimeout p s) _
    refine goesTo_awake awake ?_
    rw [if_neg under]
    exact portState_portTo s p 9 (by decide)
  case page =>
    refine goesTo_act ?_
    rw [if_pos ⟨present, an⟩]
    exact portState_portTo s p 4 (by decide)
  case signal =>
    have awake : ¬ (s.pstate = psRest ∨ s.power.entering = true) := by simpa [leaving] using power
    let seen := s.modPort p fun q => { q with signal := true }
    have shows : (seen.port p).signal = true := by rw [port_modPort_same]
    have entered : Within linkRegs seen (seen.portTo p pTraining 4) := .portTo (.refl seen)
    show goesTo (execSignalDetect p s) _
    refine goesTo_act ?_
    dsimp only
    rw [if_neg (show ¬ (seen.pstate = psRest ∨ seen.power.entering = true) from awake),
      if_pos (show seen.portState p = pPresent ∧ (!bit (seen.portRec p) 13) = true from ⟨present, congrArg not plain⟩)]
    exact ⟨portState_portTo seen p 4 (by decide), (entered.lanes p).1.trans shows⟩
  case conditions =>
    refine goesTo_act ?_
    rw [if_pos training]
    exact ⟨portState_portTo _ p 5 (by decide), ((Within.refl _).portTo.lanes p).2.trans (congrArg PortSt.eee (port_modPort_same _ p _))⟩
  case retry =>
    refine goesTo_act ?_
    rw [if_pos training]
    have counted : Within linkRegs s ((s.bumpSat F.MAC_STATUS.retries p 0).macCount p 26) :=
      .bump (.bumpSat (.refl s) (by decide)) (by decide)
    dsimp only
    split
    · exact portState_portTo _ p 7 (by decide)
    · exact portState_portPresent_an 6 ((counted.portRec (by decide) p).symm ▸ an)
  case loss =>
    have begun : (s.modPort p fun q => { q with lossOn := true }).cutRx p = s.modPort p fun q => { q with lossOn := true } :=
      cutRx_idle (by simpa [State.rxFrame] using part) (by simpa [State.rxFrame] using whole)
    show goesTo (execLinkLossBegin p lane kind s) _
    refine goesTo_act ?_
    rw [if_neg other, if_neg (not_not.2 up), begun]
    exact ⟨by rw [port_withQueue, port_modPort_same], up⟩
  case lossEnd => exact ⟨_, rfl, by rw [port_withQueue, port_modPort_same], rfl⟩
  case down =>
    refine goesTo_act ?_
    rw [if_pos ⟨up, lost⟩]
    have counted : Within linkRegs s (s.macCount p 25) := .bump (.refl s) (by decide)
    exact portState_portPresent_an 8 ((counted.portRec (by decide) p).symm ▸ an)
  case remote =>
    refine goesTo_act ?_
    rw [if_pos up]
    exact flag_of_fget (s.fget_fset_same p 0 1 (by decide))
  case remoteEnd =>
    show goesTo (execRemoteFaultEnd p s) _
    refine goesTo_act ?_
    have sent : SendsOnly p (s.fset F.MAC_STATUS.rem_fault p 0 0) (((s.fset F.MAC_STATUS.rem_fault p 0 0).ctlGo p).resume p) :=
      .resume (.ctlGo (.refl p _))
    exact flag_of_fget_zero ((sent.status F.MAC_STATUS.rem_fault rfl (by decide)).trans (s.fget_fset_same p 0 0 (by decide)))

end Sys2Proof.Machine
end

section
/-! PROOFS. PAUSE and PFC frames, and the timers of held classes (R134–R138), which settle O17. -/

namespace Sys2Proof.Machine

/-! ## Bits of a number -/

/-- A power of two added where its bit is clear sets that bit alone. -/
theorem testBit_two_pow_add {x c : Nat} (clear : x.testBit c = false) (d : Nat) : (2 ^ c + x).testBit d = (decide (d = c) || x.testBit d) := by
  rcases Nat.lt_trichotomy d c with below | here | above
  · rw [Nat.testBit_two_pow_add_gt below, decide_eq_false (by omega), Bool.false_or]
  · rw [here, Nat.testBit_two_pow_add_eq, clear, decide_eq_true rfl]
    rfl
  · obtain ⟨k, rfl⟩ := Nat.exists_eq_add_of_lt above
    have even : x / 2 ^ c % 2 = 0 := by
      rw [Nat.testBit_eq_decide_div_mod_eq, decide_eq_false_iff_not] at clear
      omega
    have high (y : Nat) : y.testBit (c + k + 1) = (y / 2 ^ c / 2).testBit k := by
      rw [Nat.add_assoc, Nat.add_comm, ← Nat.testBit_div_two_pow, Nat.testBit_succ]
    rw [high, high, Nat.add_div_left _ (Nat.two_pow_pos c), decide_eq_false (by omega), Bool.false_or]
    congr 1
    omega

/-- A power of two taken where its bit is set clears that bit alone. -/
theorem testBit_sub_two_pow {x c : Nat} (set : x.testBit c = true) (d : Nat) : (x - 2 ^ c).testBit d = (decide (d ≠ c) && x.testBit d) := by
  obtain ⟨y, rfl⟩ := Nat.exists_eq_add_of_le (Nat.ge_two_pow_of_testBit set)
  have clear : y.testBit c = false := by simpa [Nat.testBit_two_pow_add_eq] using set
  rw [Nat.add_sub_cancel_left, testBit_two_pow_add clear]
  by_cases here : d = c
  · simp [here, clear]
  · simp [here]

/-! ## Holding a class (R136, R138) -/

/-- A class of a port is held. -/
def State.holds (s : State) (p c : Nat) : Bool := bit (s.fget F.MAC_PAUSE_STATE.held p) c

/-- What `held` shows when it is written. -/
theorem holds_fset (s : State) {p d n : Nat} (class_ : d < 8) : (s.fset F.MAC_PAUSE_STATE.held p 0 n).holds p d = n.testBit d := by
  have written : (s.fset F.MAC_PAUSE_STATE.held p 0 n).fget F.MAC_PAUSE_STATE.held p = n % 2 ^ 8 := s.fget_fset_same p 0 n (by decide)
  unfold State.holds
  rw [written, bit_eq_testBit, Nat.testBit_mod_two_pow, decide_eq_true class_, Bool.true_and]

/-- A class held for a time is held, for a time of zero it is released, and the other classes are as they were. -/
theorem holds_holdClass (s : State) {p c d time : Nat} (class_ : d < 8) :
    (s.holdClass p c time).holds p d = if d = c then decide (time ≠ 0) else s.holds p d := by
  have set (u : State) (n : Nat) (g : PortSt → PortSt) : ((u.fset F.MAC_PAUSE_STATE.held p 0 n).modPort p g).holds p d = n.testBit d :=
    holds_fset u class_
  unfold State.holdClass
  dsimp only
  rw [apply_ite (fun u : State => u.holds p d), set, set]
  unfold State.holds
  simp only [bit_eq_testBit]
  generalize s.fget F.MAC_PAUSE_STATE.held p = held
  cases was : held.testBit c with
  | true =>
    rw [if_pos rfl, if_pos rfl, testBit_sub_two_pow was]
    by_cases here : d = c
    · subst here; by_cases none : time = 0 <;> simp [none, was]
    · simp [here]
  | false =>
    rw [if_neg Bool.false_ne_true, if_neg Bool.false_ne_true, Nat.add_comm, testBit_two_pow_add was]
    by_cases here : d = c
    · subst here; by_cases none : time = 0 <;> simp [none, was]
    · simp [here]

/-- The registers that receiving a PAUSE or PFC frame changes. -/
def pauseRegs : List Reg := [.MAC_CNT, .MAC_PAUSE_STATE]

theorem PortOnly.holdClass {p : Nat} {s t : State} (h : PortOnly pauseRegs p s t) {c time : Nat} :
    PortOnly pauseRegs p s (t.holdClass p c time) := by
  unfold State.holdClass
  dsimp only
  have counted : PortOnly pauseRegs p s (t.countHeld p) := .modPort (.macCount h (by decide))
  exact .ite (.modPort (.fset (.ite counted h) (by decide))) (.modPort (.fset (.ite (.modPort h) h) (by decide)))

/-- The transmitter leaves what is held. -/
theorem SendsOnly.holds {p : Nat} {s t : State} (h : SendsOnly p s t) (c : Nat) : t.holds p c = s.holds p c :=
  congrArg (bit · c) (h.fget F.MAC_PAUSE_STATE.held p 0 (by decide))

/-! ## PAUSE frames (R134, R136) -/

/-- What a PAUSE frame does to one class. -/
def State.pauseClass (s : State) (p time c : Nat) : State := if s.holdable p c then s.holdClass p c time else s

section
variable {s : State} {p : Nat} (up : s.portState p = pUp)
include up

theorem pauseRx_acts (time : Nat) (mode : s.fget F.MAC_PAUSE.mode p = 1) :
    s.pauseRx p time = (List.range 8).foldl (fun s c => s.pauseClass p time c) (s.macCount p 9) := by
  unfold State.pauseRx
  rw [if_neg (not_not.2 up), if_pos mode]
  rfl

theorem pauseRx_portOnly (time : Nat) (mode : s.fget F.MAC_PAUSE.mode p = 1) : PortOnly pauseRegs p s (s.pauseRx p time) := by
  rw [pauseRx_acts up time mode]
  have counted : PortOnly pauseRegs p s (s.macCount p 9) := .macCount (.refl s) (by decide)
  exact counted.foldl (fun u _ => .ite (.holdClass (.refl u)) (.refl u)) _

/-- A PAUSE frame holds each of the classes 0 to 6, or releases it. -/
theorem pauseRx_holds (time : Nat) (mode : s.fget F.MAC_PAUSE.mode p = 1) {c : Nat} (class_ : c < 7) :
    (s.pauseRx p time).holds p c = decide (time ≠ 0) := by
  have here (u : State) : (u.pauseClass p time c).holds p c = decide (time ≠ 0) := by
    have may : u.holdable p c = true := by simp [State.holdable, class_]
    unfold State.pauseClass
    rw [if_pos may, holds_holdClass u (by omega), if_pos rfl]
  have other (u : State) (k : Nat) (apart : c ≠ k) : (u.pauseClass p time k).holds p c = u.holds p c := by
    unfold State.pauseClass
    split
    · rw [holds_holdClass u (by omega), if_neg apart]
    · rfl
  rw [pauseRx_acts up time mode, foldl_read (read := fun u c => u.holds p c) (g := fun _ => decide (time ≠ 0)) List.nodup_range
    (fun u _ => here u) (fun u k _ => other u k), if_pos (List.mem_range.2 (by omega))]

/-! ## PFC frames (R134, R136) -/

/-- What a PFC frame does to one class. -/
def State.pfcClass (s : State) (p enables : Nat) (times : List Nat) (c : Nat) : State :=
  let pr := bits (s.fget F.MAC_PFC_MAP.map p) (3 * c + 2) (3 * c)
  if s.holdable p c ∧ bit enables pr ∧ bit (s.fget F.MAC_PFC_MAP.rx_en p) pr then s.holdClass p c (times.getD pr 0) else s

theorem pfcRx_acts (enables : Nat) (times : List Nat) (mode : s.fget F.MAC_PAUSE.mode p = 2) :
    s.pfcRx p enables times = (List.range 8).foldl (fun s c => s.pfcClass p enables times c) (s.macCount p 9) := by
  unfold State.pfcRx
  rw [if_neg (not_not.2 up), if_pos mode]
  rfl

theorem pfcRx_portOnly (enables : Nat) (times : List Nat) (mode : s.fget F.MAC_PAUSE.mode p = 2) :
    PortOnly pauseRegs p s (s.pfcRx p enables times) := by
  rw [pfcRx_acts up enables times mode]
  have counted : PortOnly pauseRegs p s (s.macCount p 9) := .macCount (.refl s) (by decide)
  exact counted.foldl (fun u _ => .ite (.holdClass (.refl u)) (.refl u)) _

end

/-- What a PFC frame's effect on a class turns on: the priorities' map and enables, and whether the class is held. -/
def State.pfcView (s : State) (p c : Nat) : Nat × Nat × Bool := (s.fget F.MAC_PFC_MAP.map p, s.fget F.MAC_PFC_MAP.rx_en p, s.holds p c)

/-- The class as a PFC frame leaves it: held or released where the frame names its priority and that one's reception is enabled. -/
def pfcTaken (enables : Nat) (times : List Nat) (c : Nat) (x : Nat × Nat × Bool) : Nat × Nat × Bool :=
  let pr := bits x.1 (3 * c + 2) (3 * c)
  (x.1, x.2.1, if bit enables pr ∧ bit x.2.1 pr then decide (times.getD pr 0 ≠ 0) else x.2.2)

theorem pfcView_holdClass (s : State) {p c d time : Nat} (class_ : d < 8) : (s.holdClass p c time).pfcView p d =
    (s.fget F.MAC_PFC_MAP.map p, s.fget F.MAC_PFC_MAP.rx_en p, if d = c then decide (time ≠ 0) else s.holds p d) := by
  have kept : PortOnly pauseRegs p s (s.holdClass p c time) := .holdClass (.refl s)
  unfold State.pfcView
  rw [kept.fget F.MAC_PFC_MAP.map p 0 (by decide), kept.fget F.MAC_PFC_MAP.rx_en p 0 (by decide), holds_holdClass s class_]

theorem pfcView_pfcClass_same (s : State) {p c : Nat} (enables : Nat) (times : List Nat) (class_ : c < 7) :
    (s.pfcClass p enables times c).pfcView p c = pfcTaken enables times c (s.pfcView p c) := by
  have may : s.holdable p c = true := by simp [State.holdable, class_]
  unfold State.pfcClass
  simp only [may, true_and]
  split
  · next named =>
    rw [pfcView_holdClass s (by omega), if_pos rfl]
    exact Prod.ext rfl (Prod.ext rfl (if_pos named).symm)
  · next named => exact Prod.ext rfl (Prod.ext rfl (if_neg named).symm)

theorem pfcView_pfcClass_ne (s : State) {p c k : Nat} (enables : Nat) (times : List Nat) (class_ : c < 8) (apart : c ≠ k) :
    (s.pfcClass p enables times k).pfcView p c = s.pfcView p c := by
  unfold State.pfcClass
  dsimp only
  split
  · rw [pfcView_holdClass s class_, if_neg apart]
    rfl
  · rfl

/-- A PFC frame holds or releases each of the classes 0 to 6 that it names and whose reception is enabled, and leaves the others. -/
theorem pfcRx_view {s : State} {p : Nat} (up : s.portState p = pUp) (enables : Nat) (times : List Nat) (mode : s.fget F.MAC_PAUSE.mode p = 2)
    {c : Nat} (class_ : c < 7) : (s.pfcRx p enables times).pfcView p c = pfcTaken enables times c (s.pfcView p c) := by
  have counted : (s.macCount p 9).pfcView p c = s.pfcView p c := by
    have kept : PortOnly [.MAC_CNT] p s (s.macCount p 9) := .macCount (.refl s) (by decide)
    simp only [State.pfcView, State.holds, kept.fget F.MAC_PFC_MAP.map p 0 (by decide), kept.fget F.MAC_PFC_MAP.rx_en p 0 (by decide),
      kept.fget F.MAC_PAUSE_STATE.held p 0 (by decide)]
  rw [pfcRx_acts up enables times mode, foldl_read (read := fun u c => u.pfcView p c) (g := pfcTaken enables times c) List.nodup_range
    (fun u _ => pfcView_pfcClass_same u enables times class_) (fun u k _ => pfcView_pfcClass_ne u enables times (by omega)),
    if_pos (List.mem_range.2 (by omega)), counted]

/-! ## The statement -/

/-- What follows the reception of a PAUSE or PFC frame is the transmitter's alone. -/
theorem pauseCut_resume (p : Nat) (u : State) : SendsOnly p u ((u.pauseCut p).resume p) := .resume (.pauseCut (.refl p u))

/-- The end of a chain of changes of one port. -/
theorem PortOnly.sends {rs : List Reg} {p : Nat} {s t u : State} (h : PortOnly rs p s t) (k : SendsOnly p t u) :
    PortOnly (rs ++ [.MAC_CNT, .MAC_STATUS]) p s u :=
  (h.mono (List.subset_append_left _ _)).trans (k.toPortOnly.mono (List.subset_append_right _ _))

/-- Settles O17: what each frame and each timer does to the classes held, and that the transmitter's part leaves those. -/
theorem pausesHoldAndReleaseClasses : Obligations.PausesHoldAndReleaseClasses := by
  unfold Obligations.PausesHoldAndReleaseClasses
  refine ⟨fun s p time up mode => ?pause, fun s p enables times up mode => ?pfc, fun s p c class_ => ?timer⟩
  case pause =>
    have sent := pauseCut_resume p (s.pauseRx p time)
    show goesTo (execPauseFrameRx p time s) _
    refine goesTo_act ?_
    refine ⟨fun c class_ => ?_, ((pauseRx_portOnly up time mode).sends sent).apart⟩
    exact (sent.holds c).trans (pauseRx_holds up time mode class_)
  case pfc =>
    have sent := pauseCut_resume p (s.pfcRx p enables times)
    show goesTo (execPfcFrameRx p enables times s) _
    refine goesTo_act ?_
    refine ⟨fun c class_ => ?_, ((pfcRx_portOnly up enables times mode).sends sent).apart⟩
    exact (sent.holds c).trans (congrArg (·.2.2) (pfcRx_view up enables times mode class_))
  case timer =>
    have held : PortOnly pauseRegs p s (s.holdClass p c 0) := .holdClass (.refl s)
    have sent : SendsOnly p (s.holdClass p c 0) ((s.holdClass p c 0).resume p) := .resume (.refl p _)
    show goesTo (execPauseTimerExpiry p c s) _
    refine goesTo_act ?_
    refine ⟨fun d small => ?_, (held.sends sent).apart⟩
    refine ((sent.holds d).trans (holds_holdClass s small)).trans ?_
    by_cases here : d = c
    · simp [here]
    · simp [here, State.holds]

end Sys2Proof.Machine
end

section
/-! PROOFS. Control frames, MAC merge verification and low-power idle (R134, R140–R143, R149, R150), which settle O16. -/

namespace Sys2Proof.Machine

/-! ## PFC frames (R140) -/

/-- A run that joins what some members of a list give is not zero where one of them gives something. -/
theorem foldl_or_ne_zero {α : Type} {named : α → Prop} [DecidablePred named] {g : α → Nat} {l : List α} {a : Nat}
    (some_ : a ≠ 0 ∨ ∃ c ∈ l, named c ∧ g c ≠ 0) : l.foldl (fun a c => if named c then a ||| g c else a) a ≠ 0 := by
  induction l generalizing a with
  | nil => simpa using some_
  | cons x l ih =>
    refine ih ?_
    dsimp only
    rcases some_ with start | ⟨c, mem, here, gives⟩
    · left
      split
      · simp [Nat.or_eq_zero_iff, start]
      · exact start
    · rcases List.mem_cons.1 mem with rfl | later
      · left
        rw [if_pos here]
        simp [Nat.or_eq_zero_iff, gives]
      · exact .inr ⟨c, later, here, gives⟩

/-- A change of a class that has a priority on the wire sends a PFC frame. -/
theorem pfcFrame_some {s : State} {p c changed : Nat} (class_ : c < 8) (named : changed.testBit c = true) (wired : s.prioritiesOf p c ≠ 0) :
    ∃ x, s.pfcFrame p changed = some x ∧ x.pfc = true := by
  have own : (List.range 8).foldl (fun a c => if bit changed c then a ||| s.prioritiesOf p c else a) 0 ≠ 0 :=
    foldl_or_ne_zero (.inr ⟨c, List.mem_range.2 class_, (bit_eq_testBit changed c).trans named, wired⟩)
  unfold State.pfcFrame
  dsimp only
  rw [if_neg own]
  exact ⟨_, rfl, rfl⟩

/-! ## Control frames at a transmitter (R140, R142) -/

/-- A held remainder that goes on leaves the registers beside the status. -/
theorem fget_resume (s : State) (p : Nat) (f : Fld) (c i : Nat) (other : f.reg ≠ .MAC_STATUS) : (s.resume p).fget f c i = s.fget f c i := by
  unfold State.resume
  extract_lets q
  split
  · rfl
  · split
    · rfl
    · exact s.fget_fset_reg _ _ _ _ _ fun e => other (ctorIdx_inj e)

/-- It leaves the control frame last sent. -/
theorem lastCtl_resume (s : State) (p : Nat) : ((s.resume p).port p).lastCtl = (s.port p).lastCtl := by
  unfold State.resume
  extract_lets q
  split
  · rfl
  · split
    · rfl
    · rw [port_modPort_same, port_fset]

/-- Nothing goes on behind a frame on the wire. -/
theorem resume_busy {s : State} {p : Nat} (busy : (s.port p).wire.isSome = true) : s.resume p = s := by
  unfold State.resume
  extract_lets q
  split
  · rfl
  · exact if_pos (.inr (.inl busy))

section
variable {s : State} {p : Nat} (up : s.portState p = pUp)
include up

/-- The state with a control frame that waits at a port behind the others. -/
def State.ctlQueued (s : State) (p : Nat) (x : CtlFrame) : State := s.modPort p fun q => { q with ctlWait := q.ctlWait ++ [x] }

omit up in
theorem port_ctlQueued (s : State) (p : Nat) (x : CtlFrame) : (s.ctlQueued p x).port p = { s.port p with ctlWait := (s.port p).ctlWait ++ [x] } :=
  port_modPort_same ..

/-- The one control frame that waits goes on a free wire. -/
theorem ctlGo_free (x : CtlFrame) (near : s.flag F.MAC_STATUS.rem_fault p = false) (free : (s.port p).wire = none)
    (first : (s.port p).ctlWait = []) :
    (s.ctlQueued p x).ctlGo p = ((s.ctlQueued p x).modPort p fun q => { q with ctlWait := [] }).sendCtl p x := by
  have queued := port_ctlQueued s p x
  have on : (s.ctlQueued p x).txOn p = true := by
    show (decide (s.portState p = pUp) && !s.flag F.MAC_STATUS.rem_fault p) = true
    rw [near, decide_eq_true up]
    rfl
  have whole : (s.ctlQueued p x).wireCuttable p = none := by simp only [State.wireCuttable, queued, free]
  have up' : (s.ctlQueued p x).portState p = pUp := up
  unfold State.ctlGo
  rw [whole]
  simp only [queued, first, free, on, List.nil_append, List.foldl_cons, List.foldl_nil]
  rw [if_neg (by simp), if_neg (not_not.2 up'), if_neg (by simp), if_neg (by simp)]

/-- A control frame waits behind a frame on the wire that cannot be cut. -/
theorem ctlGo_busy (x : CtlFrame) (busy : (s.port p).wire.isSome = true) (whole : s.wireCuttable p = none) :
    (s.ctlQueued p x).ctlGo p = s.ctlQueued p x := by
  have queued := port_ctlQueued s p x
  have whole' : (s.ctlQueued p x).wireCuttable p = none := by
    rw [← whole]
    unfold State.wireCuttable
    rw [queued]
    rfl
  have up' : (s.ctlQueued p x).portState p = pUp := up
  unfold State.ctlGo
  rw [whole']
  simp only [queued, busy, if_true]
  rw [if_neg (by simp), if_neg (not_not.2 up'), ite_self]

end

/-- A control frame on the wire is counted, and is the last that the port sent. -/
theorem sendCtl_sends (s : State) (p : Nat) (x : CtlFrame) :
    countedUp s (s.sendCtl p x) F.MAC_CNT.count p 20 1 ∧ ∃ y, ((s.sendCtl p x).port p).lastCtl = some y ∧ y.pfc = x.pfc := by
  refine ⟨?_, { x with sa := s.fget F.MAC_SA.addr p }, ?_, rfl⟩
  · exact (State.fget_fset_reg _ _ _ _ _ _ (by decide)).trans (State.fget_bump_same _ _ _ _ (by decide))
  · unfold State.sendCtl
    dsimp only
    rw [port_fset, port_macCount, port_modPort_same]

section
variable {s : State} {p c : Nat} (pfc : s.fget F.MAC_PAUSE.mode p = 2) (class_ : c < 8)
  (paused : (s.fget F.MAC_PAUSE_STATE.xoff p).testBit c = true) (wired : s.prioritiesOf p c ≠ 0) (up : s.portState p = pUp)
include pfc class_ paused wired up

/-- A refresh has a PFC frame wait at the transmitter, which takes its turn. -/
theorem goesTo_pfcRefresh {P : State → Prop} (holds : ∀ x : CtlFrame, x.pfc = true → P (((s.ctlQueued p x).ctlGo p).resume p |>.withQueue s.pending)) :
    goesTo (exec (.pfcRefresh p) s) P := by
  obtain ⟨x, frame, isPfc⟩ := pfcFrame_some class_ paused wired
  have some_ : s.fget F.MAC_PAUSE_STATE.xoff p ≠ 0 := by
    intro none
    rw [none, Nat.zero_testBit] at paused
    cases paused
  show goesTo (execPfcRefresh p s) _
  refine goesTo_act ?_
  rw [if_pos ⟨pfc, some_, up⟩, frame]
  exact holds x isPfc

theorem pfcRefresh_sends (near : s.flag F.MAC_STATUS.rem_fault p = false) (free : (s.port p).wire = none) (first : (s.port p).ctlWait = []) :
    goesTo (exec (.pfcRefresh p) s) fun t => countedUp s t F.MAC_CNT.count p 20 1 ∧ ∃ x, (t.port p).lastCtl = some x ∧ x.pfc = true := by
  refine goesTo_pfcRefresh pfc class_ paused wired up fun x isPfc => ?_
  obtain ⟨counted, y, last, same⟩ := sendCtl_sends ((s.ctlQueued p x).modPort p fun q => { q with ctlWait := [] }) p x
  rw [ctlGo_free up x near free first]
  refine ⟨(fget_resume _ p _ _ _ (by decide)).trans counted, y, ?_, same.trans isPfc⟩
  rw [port_withQueue, lastCtl_resume, last]

theorem pfcRefresh_waits (busy : (s.port p).wire.isSome = true) (whole : s.wireCuttable p = none) :
    goesTo (exec (.pfcRefresh p) s) fun t => ∃ x, (t.port p).ctlWait = (s.port p).ctlWait ++ [x] ∧ x.pfc = true := by
  refine goesTo_pfcRefresh pfc class_ paused wired up fun x isPfc => ⟨x, ?_, isPfc⟩
  rw [ctlGo_busy up x busy whole, resume_busy (by rw [port_ctlQueued]; exact busy), port_withQueue, port_ctlQueued]

end

/-! ## Verification (R143) -/

@[simp] theorem port_setVerify (s : State) (p st q : Nat) : (s.setVerify p st).port q = s.port q := by
  unfold State.setVerify
  split
  · rfl
  · exact (emitBoth_sentOnly ..).port q

/-- Verification is in the state that it is set to. -/
theorem verify_setVerify (s : State) (p : Nat) {st : Nat} (code : st < 8) : (s.setVerify p st).fget F.MAC_MM.verify_st p = st := by
  unfold State.setVerify
  split
  · next same => exact same
  · refine ((emitBoth_sentOnly ..).fget F.MAC_MM.verify_st p 0 (by decide)).trans ?_
    exact (s.fget_fset_same p 0 st (by decide)).trans (Nat.mod_eq_of_lt code)

/-- Whether preemption is active is shown beside it. -/
theorem verify_setMmActive (s : State) (p : Nat) : (s.setMmActive p).fget F.MAC_MM.verify_st p = s.fget F.MAC_MM.verify_st p :=
  s.fget_fset_fld p 0 _ rfl (by decide)

section
variable {s : State} {p : Nat} (up : s.portState p = pUp)
include up

/-- The verify timer sends the first verify mPacket. -/
theorem mmVerifyTimer_first (initial : s.fget F.MAC_MM.verify_st p = 1) :
    goesTo (exec (.mmVerifyTimer p) s) fun t => t.fget F.MAC_MM.verify_st p = 2 ∧ (t.port p).verifySent = 1 := by
  have ran : exec (.mmVerifyTimer p) s = .next (((s.modPort p fun q => { q with verifySent := 1 }).setVerify p 2).withQueue s.pending) := by
    show execMmVerifyTimer p s = _
    simp only [execMmVerifyTimer, State.act, up, initial, ne_eq, not_true, if_false]
  refine ⟨_, ran, verify_setVerify _ p (by decide), ?_⟩
  rw [port_withQueue, port_setVerify, port_modPort_same]

/-- It sends up to three of them. -/
theorem mmVerifyTimer_next (waiting : s.fget F.MAC_MM.verify_st p = 2) (more : (s.port p).verifySent < 3) :
    goesTo (exec (.mmVerifyTimer p) s) fun t =>
      t.fget F.MAC_MM.verify_st p = 2 ∧ (t.port p).verifySent = (s.port p).verifySent + 1 := by
  have ran : exec (.mmVerifyTimer p) s = .next ((s.modPort p fun q => { q with verifySent := q.verifySent + 1 }).withQueue s.pending) := by
    show execMmVerifyTimer p s = _
    simp only [execMmVerifyTimer, State.act, up, waiting, more, ne_eq, not_true, if_false, if_true]
  refine ⟨_, ran, waiting, ?_⟩
  rw [port_withQueue, port_modPort_same]

/-- After three unanswered ones verification fails. -/
theorem mmVerifyTimer_fails (waiting : s.fget F.MAC_MM.verify_st p = 2) (all : 3 ≤ (s.port p).verifySent) :
    goesTo (exec (.mmVerifyTimer p) s) fun t => t.fget F.MAC_MM.verify_st p = 4 := by
  have ran : exec (.mmVerifyTimer p) s = .next ((((s.macCount p 30).setVerify p 4).setMmActive p).withQueue s.pending) := by
    show execMmVerifyTimer p s = _
    simp only [execMmVerifyTimer, State.act, up, waiting, Nat.not_lt.2 all, ne_eq, not_true, if_false]
  exact ⟨_, ran, (verify_setMmActive _ p).trans (verify_setVerify _ p (by decide))⟩

end

/-! ## Low-power idle (R149) -/

/-- A port with nothing queued, selected or on the wire enters low-power idle where EEE is enabled and agreed. -/
theorem lpiIdleExpiry_enters {s : State} {p : Nat} (able : bit (s.portRec p) 15 = true) (enabled : s.flag F.MAC_LPI.en p = true)
    (agreed : (s.port p).eee = true) (up : s.portState p = pUp)
    (empty : ∀ e ∈ s.queues, e.1 / 128 = p → e.2.head = [] ∧ e.2.deep = [] ∧ e.2.pend = []) (idle : s.portIdle p = true)
    (out : s.flag F.MAC_STATUS.lpi_tx p = false) :
    goesTo (exec (.lpiIdleExpiry p) s) fun t => t.flag F.MAC_STATUS.lpi_tx p = true ∧ countedUp s t F.MAC_CNT.count p 27 1 := by
  have none_ : (s.queues.all fun e => e.1 / 128 ≠ p || decide (e.2.head = [] ∧ e.2.deep = [] ∧ e.2.pend = [])) = true := by
    rw [List.all_eq_true]
    intro e mem
    by_cases own : e.1 / 128 = p
    · simp [empty e mem own]
    · simp [own]
  have ran : exec (.lpiIdleExpiry p) s = .next (((s.fset F.MAC_STATUS.lpi_tx p 0 1).macCount p 27).withQueue s.pending) := by
    show execLpiIdleExpiry p s = _
    simp only [execLpiIdleExpiry, State.act, able, enabled, agreed, up, none_, idle, out, Bool.and_self, Bool.not_false, and_self, if_true]
  let shown := s.fset F.MAC_STATUS.lpi_tx p 0 1
  refine ⟨_, ran, flag_of_fget ?_, ?_⟩
  · exact (shown.fget_fset_reg p 27 p 0 _ (by decide)).trans (s.fget_fset_same p 0 1 (by decide))
  · refine (shown.fget_bump_same (f := F.MAC_CNT.count) p 27 1 (by decide)).trans ?_
    rw [show shown.fget F.MAC_CNT.count p 27 = s.fget F.MAC_CNT.count p 27 from s.fget_fset_reg p 0 p 27 1 (by decide)]

/-! ## The statement -/

/-- Settles O16: the counters, frames and states that each command leaves. -/
theorem controlFramesAndMergeVerification : Obligations.ControlFramesAndMergeVerification := by
  unfold Obligations.ControlFramesAndMergeVerification
  refine ⟨fun s p up => ?discard, fun s p c pfc class_ paused wired up => ⟨fun near free first => ?sends, fun busy whole => ?waits⟩,
    fun s p up => ⟨mmVerifyTimer_first up, mmVerifyTimer_next up, mmVerifyTimer_fails up⟩, fun s p waiting => ?respond,
    fun s p enter => ?partner, fun s p able enabled agreed up empty idle out => ?idle⟩
  case discard =>
    refine goesTo_act ?_
    rw [if_pos up]
    exact s.fget_bump_same p 10 1 (by decide)
  case sends => exact pfcRefresh_sends pfc class_ paused wired up near free first
  case waits => exact pfcRefresh_waits pfc class_ paused wired up busy whole
  case respond =>
    refine goesTo_act ?_
    rw [if_pos waiting]
    exact (verify_setMmActive _ p).trans (verify_setVerify s p (by decide))
  case partner =>
    refine goesTo_act ?_
    cases enter with
    | true => exact flag_of_fget (State.fget_fset_same _ p 0 1 (by decide))
    | false => exact flag_of_fget_zero (s.fget_fset_same p 0 0 (by decide))
  case idle => exact lpiIdleExpiry_enters able enabled agreed up empty idle out

end Sys2Proof.Machine
end

section
/-! PROOFS. Module transactions and link partners (R126, R130, R531), which settle O15. -/

namespace Sys2Proof.Machine

/-! ## Writes that a register takes (R9, R79) -/

/-- The state in which a register has taken a written value. -/
def State.tookValue (s : State) (f : Func) (r : Reg) (c i v : Nat) : State :=
  (s.emptyHalf f (slotOf r i)).wr r c i (maskWrite r (s.rd r c i) (BitVec.ofNat 72 (v % 2 ^ 36)))

theorem tookValue_regsOnly (s : State) (f : Func) (r : Reg) (c i v : Nat) : regsOnly [r] s (s.tookValue f r c i v) :=
  (regsOnly_modFn s f _).trans (regsOnly_wr _ r c i _)

theorem rd_tookValue (s : State) (f : Func) (r : Reg) (c i v : Nat) :
    (s.tookValue f r c i v).rd r c i = maskWrite r (s.rd r c i) (BitVec.ofNat 72 (v % 2 ^ 36)) := State.rd_wr_same ..

/-- A field whose bits are all writable reads as it was written. -/
theorem fget_tookValue_writable (s : State) (f : Func) {g : Fld} (c i v : Nat) (word : g.hi < 36)
    (writable : ∀ b, b < g.hi + 1 - g.lo → (rwMask g.reg).getLsbD (g.lo + b) = true) :
    (s.tookValue f g.reg c i v).fget g c i = bits v g.hi g.lo := by
  refine Nat.eq_of_testBit_eq fun b => ?_
  unfold State.fget bits
  rw [testBit_fldGet, rd_tookValue, maskWrite_bit, Nat.testBit_mod_two_pow, Nat.testBit_shiftRight]
  by_cases inside : b < g.hi + 1 - g.lo
  · rw [writable b inside, if_pos rfl, decide_eq_true (show g.lo + b < 36 by omega), Bool.true_and]
  · rw [decide_eq_false inside, Bool.false_and, Bool.false_and]

/-- A field whose bits are neither writable nor cleared by ones stays as it was. -/
theorem fget_tookValue_readOnly (s : State) (f : Func) {g : Fld} (c i v : Nat)
    (fixed : ∀ b, b < g.hi + 1 - g.lo → (rwMask g.reg).getLsbD (g.lo + b) = false ∧ (w1cMask g.reg).getLsbD (g.lo + b) = false) :
    (s.tookValue f g.reg c i v).fget g c i = s.fget g c i := by
  refine Nat.eq_of_testBit_eq fun b => ?_
  unfold State.fget
  rw [testBit_fldGet, testBit_fldGet, rd_tookValue, maskWrite_bit]
  by_cases inside : b < g.hi + 1 - g.lo
  · obtain ⟨unwritable, kept⟩ := fixed b inside
    rw [unwritable, kept]
    simp
  · rw [decide_eq_false inside, Bool.false_and, Bool.false_and]

/-- A write of a register of one word, as the register takes it, has that register's effect. -/
theorem writeTo_took {s : State} {f : Func} {r : Reg} {i c : Nat} (v : Nat) (taken : opens s f r i c)
    (word : r.place.wide = false) (rwl : isRwl r = false) (ind : isInd r = false) (lock : r ≠ .CPH_LOCK) (ctl : r ≠ .MAC_CTL) (set : r ≠ .SCH_SET) :
    s.writeTo f r i v =
      (s.tookValue f r c i v).wrote f r c i (s.rd r c i) (BitVec.ofNat 72 (v % 2 ^ 36)) (s.portAdmin c) 0 none := by
  rw [writeTo_opens v 0 none taken word (writeCode_plain s f r c _ rwl lock), putReg_plain _ f r c i _ 0 none rwl ind ctl set]
  rfl

theorem bits_mod_word (v : Nat) {hi lo : Nat} (word : hi < 36) : bits (v % 2 ^ 36) hi lo = bits v hi lo := by
  refine Nat.eq_of_testBit_eq fun b => ?_
  unfold bits
  simp only [Nat.testBit_mod_two_pow, Nat.testBit_shiftRight]
  by_cases inside : b < hi + 1 - lo
  · rw [decide_eq_true (show lo + b < 36 by omega), Bool.true_and]
  · rw [decide_eq_false inside, Bool.false_and, Bool.false_and]

theorem bit_mod_word (v : Nat) {b : Nat} (word : b < 36) : bit (v % 2 ^ 36) b = v.testBit b := by
  rw [bit_eq_testBit, Nat.testBit_mod_two_pow, decide_eq_true word, Bool.true_and]

/-- What leaves all but registers is within those. -/
theorem regsOnly.within {rs : List Reg} {s t : State} (h : regsOnly rs s t) : Within rs s t :=
  ⟨h.image, h.planes, fun p => by rw [h.1]; exact ⟨rfl, rfl⟩, h.2⟩

theorem regsOnly.i2c {rs : List Reg} {s t : State} (h : regsOnly rs s t) : t.i2c = s.i2c := by rw [h.1]

/-! ## Software transactions (R126) -/

theorem master_congr {s t : State} (same : t.i2c = s.i2c) (m : Nat) : t.master m = s.master m := by
  unfold State.master
  rw [same]

/-- A transaction that comes to a master waits behind what waits there already, and changes nothing else. -/
theorem joinMaster_software (s : State) (p : Nat) : ∃ l, s.joinMaster p (.software p) = s.withI2c l ∧
    ((s.withI2c l).master (s.i2cNo p)).jobs = (s.master (s.i2cNo p)).jobs ++ [.software p] := by
  cases before : (s.master (s.i2cNo p)).jobs with
  | nil =>
    obtain ⟨l, ran, first⟩ := joinMaster_idle (.software p) before
    rw [ran, State.runMaster, first]
    refine ⟨_, rfl, ?_⟩
    show (((s.withI2c l).startSoftware (s.i2cNo p) p).master (s.i2cNo p)).jobs = _
    unfold State.startSoftware
    rw [master_modMaster_same]
    exact first
  | cons j js =>
    unfold State.joinMaster
    dsimp only
    rw [before]
    refine ⟨_, rfl, ?_⟩
    show ((s.modMaster (s.i2cNo p) fun q => { q with jobs := q.jobs ++ [.software p] }).master (s.i2cNo p)).jobs = _
    rw [master_modMaster_same, before]

/-- A `go` that starts a transaction makes the slot busy and has it wait for the port's master. -/
theorem effI2cCmd_starts {s : State} {p v : Nat} (go : bit v 35 = true) (read : bit v 30 = false) (some_ : 1 ≤ bits v 29 26)
    (few : bits v 29 26 ≤ 8) (free : s.flag F.MAC_I2C_CMD.busy p = false) (served : s.i2cUnit p ∉ s.flt.fenced)
    (plugged : s.flag F.MAC_MOD.present p = true) :
    (s.effI2cCmd p v).flag F.MAC_I2C_CMD.busy p = true ∧ (s.effI2cCmd p v).fget F.MAC_I2C_CMD.offset p = s.fget F.MAC_I2C_CMD.offset p ∧
      ((s.effI2cCmd p v).master (s.i2cNo p)).jobs = (s.master (s.i2cNo p)).jobs ++ [.software p] := by
  let begun := (s.fset F.MAC_I2C_CMD.busy p 0 1).modPort p fun q => { q with i2cOp := 0 + bits v 29 26 }
  have starts : s.effI2cCmd p v = begun.joinMaster p (.software p) := by
    unfold State.effI2cCmd
    simp only [go, read, free, plugged, Bool.not_true, Bool.false_eq_true, if_false, false_and, or_false]
    rw [if_neg (by omega), if_neg (by simpa using served)]
  have kept : Within [.MAC_I2C_CMD] s begun := .modPort (.fset (.refl s) (by decide)) fun _ => ⟨rfl, rfl⟩
  have number : begun.i2cNo p = s.i2cNo p := congrArg (bits · 19 18) (kept.portRec (by decide) p)
  obtain ⟨l, joined, jobs⟩ := joinMaster_software begun p
  rw [number] at jobs
  rw [starts, joined]
  exact ⟨flag_of_fget (s.fget_fset_same p 0 1 (by decide)), s.fget_fset_fld (f := F.MAC_I2C_CMD.busy) p 0 1 rfl (by decide), jobs⟩

theorem i2cTransactionGo_starts {s : State} {f : Func} {v p : Nat} (taken : opens s f .MAC_I2C_CMD 0 p) (go : v.testBit 35 = true)
    (read : v.testBit 30 = false) (some_ : 1 ≤ bits v 29 26) (few : bits v 29 26 ≤ 8) (free : s.flag F.MAC_I2C_CMD.busy p = false)
    (served : s.i2cUnit p ∉ s.flt.fenced) (plugged : s.flag F.MAC_MOD.present p = true) :
    goesTo (exec (.i2cTransactionGo f v) s) fun t => t.flag F.MAC_I2C_CMD.busy p = true ∧ t.fget F.MAC_I2C_CMD.offset p = bits v 7 0 ∧
      (t.master (s.i2cNo p)).jobs = (s.master (s.i2cNo p)).jobs ++ [.software p] := by
  let u := s.tookValue f .MAC_I2C_CMD p 0 v
  have only : regsOnly [.MAC_I2C_CMD] s u := tookValue_regsOnly s f _ p 0 v
  have record : u.portRec p = s.portRec p := only.within.portRec (by decide) p
  have number : u.i2cNo p = s.i2cNo p := congrArg (bits · 19 18) record
  have masters : u.master (s.i2cNo p) = s.master (s.i2cNo p) := master_congr only.i2c _
  have length : bits (v % 2 ^ 36) 29 26 = bits v 29 26 := bits_mod_word v (by decide)
  have still : u.fget F.MAC_I2C_CMD.busy p = s.fget F.MAC_I2C_CMD.busy p := fget_tookValue_readOnly s f (g := F.MAC_I2C_CMD.busy) p 0 v (by decide)
  have offset : u.fget F.MAC_I2C_CMD.offset p = bits v 7 0 := fget_tookValue_writable s f (g := F.MAC_I2C_CMD.offset) p 0 v (by decide) (by decide)
  obtain ⟨busy, same, jobs⟩ := effI2cCmd_starts (s := u) (p := p) (v := v % 2 ^ 36) ((bit_mod_word v (by decide)).trans go)
    ((bit_mod_word v (by decide)).trans read) (length ▸ some_) (length ▸ few) (by rw [State.flag, still]; exact free)
    (by rw [State.i2cUnit, record, only.flt]; exact served) ((only.flag F.MAC_MOD.present p 0 (by decide)).trans plugged)
  rw [number, masters] at jobs
  show goesTo (execI2cTransactionGo f v s) _
  refine goesTo_act ?_
  rw [writeTo_took v taken rfl (by decide) rfl (by decide) (by decide) (by decide), wrote_MAC_I2C_CMD, toNat_written]
  exact ⟨busy, same.trans offset, jobs⟩

/-- A software transaction that ends leaves the slot free, and its result. -/
theorem softwareDone_fields (s : State) (p result : Nat) (data : List Byte) :
    (s.softwareDone p result data).fget F.MAC_I2C_CMD.busy p = 0 ∧
      (s.softwareDone p result data).fget F.MAC_I2C_CMD.result p = result % 2 ^ 3 := by
  let ended := (s.fset F.MAC_I2C_CMD.busy p 0 0).fset F.MAC_I2C_CMD.result p 0 result
  have free : ended.fget F.MAC_I2C_CMD.busy p = 0 :=
    (State.fget_fset_fld _ (f := F.MAC_I2C_CMD.result) (g := F.MAC_I2C_CMD.busy) p 0 result rfl (by decide)).trans
      (s.fget_fset_same (f := F.MAC_I2C_CMD.busy) p 0 0 (by decide))
  have coded : ended.fget F.MAC_I2C_CMD.result p = result % 2 ^ 3 := State.fget_fset_same _ p 0 result (by decide)
  have stored (a b : Nat) : Within [.MAC_I2C_DATA] ended ((ended.fset F.MAC_I2C_DATA.lo p 0 a).fset F.MAC_I2C_DATA.hi p 0 b) :=
    .fset (.fset (.refl ended) (by decide)) (by decide)
  unfold State.softwareDone
  dsimp only
  split
  · exact ⟨((stored _ _).fget F.MAC_I2C_CMD.busy p 0 (by decide)).trans free, ((stored _ _).fget F.MAC_I2C_CMD.result p 0 (by decide)).trans coded⟩
  · exact ⟨free, coded⟩

theorem softwareDone_i2c (s : State) (p result : Nat) (data : List Byte) : (s.softwareDone p result data).i2c = s.i2c := by
  unfold State.softwareDone
  dsimp only
  split <;> rfl

/-- The end of the one transaction at a master frees its slot and gives its result. -/
theorem i2cTransactionDone_frees {s : State} {p : Nat} (result : Nat) (data : List Byte) (awake : s.frozen = false)
    (running : (s.master (s.i2cNo p)).jobs = [.software p]) :
    goesTo (exec (.i2cTransactionDone p result data) s) fun t =>
      t.flag F.MAC_I2C_CMD.busy p = false ∧ t.fget F.MAC_I2C_CMD.result p = result % 2 ^ 3 := by
  let ended := (s.softwareDone p result data).modMaster (s.i2cNo p) fun q => { q with jobs := q.jobs.drop 1 }
  have jobs : (ended.master (s.i2cNo p)).jobs = [] := by
    have before : (s.softwareDone p result data).master (s.i2cNo p) = s.master (s.i2cNo p) :=
      master_congr (softwareDone_i2c s p result data) _
    rw [master_modMaster_same, before, running]
    rfl
  obtain ⟨free, coded⟩ := softwareDone_fields s p result data
  show goesTo (execI2cTransactionDone p result data s) _
  refine goesTo_awake awake ?_
  dsimp only
  rw [if_pos (by rw [running]; rfl), show (ended.master (s.i2cNo p)).jobs.length = 0 by rw [jobs]; rfl]
  exact ⟨flag_of_fget_zero free, coded⟩

/-! ## A bus that is stuck (R531) -/

theorem tailAppend_fenced (s : State) (ws : List Nat) (graver : Bool) : (s.tailAppend ws graver).flt.fenced = s.flt.fenced := by
  unfold State.tailAppend
  split
  · rfl
  · dsimp only
    split <;> rfl

theorem mergeFault_fenced (s : State) (f : FaultRec) (cause unit cls : Nat) : (s.mergeFault f cause unit cls).flt.fenced = s.flt.fenced := by
  unfold State.mergeFault
  extract_lets g old new _ merged held counted overflowed frozen
  have full : overflowed.flt = counted.flt := by unfold overflowed; split <;> rfl
  have froze : frozen.flt = overflowed.flt := by unfold frozen; split <;> rfl
  have sent : (frozen.emitFault 0x81 g).flt = frozen.flt := (emitBoth_sentOnly ..).flt
  exact (congrArg (·.fenced) (sent.trans (froze.trans full)) :)

theorem openFault_fenced (s : State) (f : FaultRec) : (s.openFault f).flt.fenced = s.flt.fenced := by
  unfold State.openFault
  extract_lets slot g _ listed counted overflowed recorded logged
  have entered : listed.flt.fenced = s.flt.fenced := by unfold listed; split <;> rfl
  have full : overflowed.flt = listed.flt := by unfold overflowed; split <;> rfl
  have sent : recorded.flt = overflowed.flt := (emitBoth_sentOnly ..).flt
  exact (tailAppend_fenced recorded _ _).trans ((congrArg FaultSt.fenced (sent.trans full)).trans entered)

/-- A fault that is raised leaves the units fenced. -/
theorem raise_fenced (s : State) (f : FaultRec) : (s.raise f).flt.fenced = s.flt.fenced := by
  unfold State.raise
  split
  · exact mergeFault_fenced ..
  · exact openFault_fenced ..

theorem i2cStuck_fences (s : State) (m : Nat) : 0xC03 + m % 4 ∈ (s.i2cStuck m).flt.fenced := by
  unfold State.i2cStuck
  extract_lets n jobs emptied ended
  refine (raise_fenced _ _).symm ▸ ?_
  exact List.mem_append_right _ (List.mem_singleton_self _)

/-! ## Link partners (R130) -/

/-- A slot in use that is freed reads zero. -/
theorem partnerFree_clears {s : State} {p slot : Nat} (used : s.flag F.MAC_PARTNER.valid p slot = true) :
    (s.partnerFree p slot).rd .MAC_PARTNER p slot = 0 := by
  unfold State.partnerFree
  rw [if_pos used]
  exact State.rd_wr_same (s.partnerRecord p slot 0x42) .MAC_PARTNER p slot 0

/-- A 1 written to a slot's valid bit frees the slot as it stood before the write. -/
theorem partnerSlotFree_clears {s : State} {f : Func} {p slot : Nat} (taken : opens s f .MAC_PARTNER slot p)
    (used : s.flag F.MAC_PARTNER.valid p slot = true) :
    goesTo (exec (.partnerSlotFree f slot) s) fun t => t.rd .MAC_PARTNER p slot = 0 := by
  let restored := (s.tookValue f .MAC_PARTNER p slot (2 ^ 35)).wr .MAC_PARTNER p slot (s.rd .MAC_PARTNER p slot)
  have still : restored.flag F.MAC_PARTNER.valid p slot = true :=
    (congrArg (fun v => decide (fldGet v 35 35 = 1)) (State.rd_wr_same _ .MAC_PARTNER p slot _)).trans used
  show goesTo (execPartnerSlotFree f slot s) _
  refine goesTo_act ?_
  rw [writeTo_took (2 ^ 35) taken rfl (by decide) rfl (by decide) (by decide) (by decide), wrote_MAC_PARTNER, if_pos (by decide)]
  exact partnerFree_clears still

/-! ## The statement -/

/-- Settles O15: how a transaction begins and ends, what a stuck bus fences, and that a freed slot is cleared. -/
theorem moduleTransactionsAndPartnerSlots : Obligations.ModuleTransactionsAndPartnerSlots := by
  unfold Obligations.ModuleTransactionsAndPartnerSlots
  refine ⟨fun s f v p taken go read some_ few free served plugged => i2cTransactionGo_starts taken go read some_ few free served plugged,
    fun s p result data awake running => i2cTransactionDone_frees result data awake running, fun s m awake => ?stuck,
    fun s f p slot taken used => partnerSlotFree_clears taken used, fun s p slot aged used => ?age⟩
  case stuck =>
    show goesTo (execI2cBusStuck m s) _
    exact goesTo_awake awake (i2cStuck_fences s m)
  case age =>
    show goesTo (execPartnerAgeExpiry p slot s) _
    refine goesTo_act ?_
    rw [if_neg aged]
    exact partnerFree_clears used

end Sys2Proof.Machine
end

section
/-! PROOFS. Writes of `MAC_CTL` (R118, R119): what administrative enable, restart and `clr_fault` do to a port. O13 takes a VF with the number of
partition H for the PF, and fails there. -/

namespace Sys2Proof.Machine

/-! ## What a write of `MAC_CTL` leaves in the register (R9, R150) -/

/-- A one-bit field is its bit of the register. -/
theorem flag_eq_bit (s : State) {g : Fld} (c i : Nat) (one : g.hi = g.lo) : s.flag g c i = (s.rd g.reg c i).getLsbD g.lo := by
  unfold State.flag State.fget
  rw [one, fldGet, Nat.add_sub_cancel_left, Nat.shiftRight_eq_div_pow]
  exact (Nat.testBit_eq_decide_div_mod_eq ..).symm

/-- A writable bit takes the value written. -/
theorem maskWrite_writable (r : Reg) (old v : RegVal) {b : Nat} (writable : (rwMask r).getLsbD b = true) :
    (maskWrite r old v).getLsbD b = v.getLsbD b := by
  rw [maskWrite, BitVec.getLsbD_or, BitVec.getLsbD_and, BitVec.getLsbD_and, BitVec.getLsbD_and, BitVec.getLsbD_not, writable, Bool.not_true,
    Bool.and_false, Bool.and_false, Bool.false_and, Bool.false_or, Bool.and_true]

/-- The owner's enable of a port after a write of its `MAC_CTL`: through a VF it stays as it was. -/
def State.ownerAfter (s : State) (f : Func) (p v : Nat) : Bool :=
  match f with
  | .vf _ => s.flag F.MAC_CTL.admin_owner p
  | _ => v.testBit 1

/-- A port is administratively enabled after a write of its `MAC_CTL`. -/
def State.adminAfter (s : State) (f : Func) (p v : Nat) : Bool := s.ownerAfter f p v && v.testBit 0

theorem adminAfter_own (s : State) {f : Func} (p v : Nat) (own : f = .pf ∨ f = .console) : s.adminAfter f p v = (v.testBit 1 && v.testBit 0) := by
  rcases own with rfl | rfl <;> rfl

theorem adminAfter_taken {s : State} {f : Func} {p v : Nat} (tenant : v.testBit 0 = false) : s.adminAfter f p v = false :=
  (congrArg (_ && ·) tenant).trans (Bool.and_false _)

theorem adminAfter_kept {s : State} (f : Func) {p v : Nat} (admin : s.portAdmin p = true) (owner : v.testBit 1 = true)
    (tenant : v.testBit 0 = true) : s.adminAfter f p v = true := by
  have held : s.flag F.MAC_CTL.admin_owner p = true := (Bool.and_eq_true_iff.1 admin).1
  cases f <;> simp [State.adminAfter, State.ownerAfter, owner, tenant, held]

/-- The value written to `MAC_CTL` by a function: its bits but that of the owner's enable, which a VF leaves as it was. -/
theorem asWritten_macCtl (s : State) (f : Func) (p v b : Nat) (word : b < 36) :
    (s.asWritten f .MAC_CTL p 0 (BitVec.ofNat 72 (v % 2 ^ 36))).getLsbD b =
      if b = 1 then s.ownerAfter f p v else v.testBit b := by
  have plain : (BitVec.ofNat 72 (v % 2 ^ 36)).getLsbD b = v.testBit b := by
    rw [BitVec.getLsbD_ofNat, Nat.testBit_mod_two_pow, decide_eq_true word, decide_eq_true (by omega), Bool.true_and, Bool.true_and]
  have owner : (s.fget F.MAC_CTL.admin_owner p).testBit 0 = s.flag F.MAC_CTL.admin_owner p := by
    rw [flag_eq_bit s p 0 rfl, State.fget, testBit_fldGet]
    rfl
  cases f with
  | vf n =>
    refine (getLsbD_fldSet _ 1 1 _ b).trans ?_
    by_cases here : b = 1
    · rw [if_pos (by omega), if_pos here, here]
      exact owner
    · rw [if_neg (by omega), if_neg here]
      exact plain
  | pf => split <;> simp_all [State.asWritten, State.ownerAfter]
  | console => split <;> simp_all [State.asWritten, State.ownerAfter]

/-- A write of `MAC_CTL` sets the enables and has the effect of the value written. -/
theorem macCtl_wrote {s : State} {f : Func} {p v : Nat} (taken : opens s f .MAC_CTL 0 p) :
    ∃ u w, regsOnly [.MAC_CTL] s u ∧ s.writeTo f .MAC_CTL 0 v = u.effMacCtl p (s.portAdmin p) w ∧ u.portAdmin p = s.adminAfter f p v ∧
      bit w 3 = v.testBit 3 ∧ bit w 4 = v.testBit 4 := by
  let value := (s.emptyHalf f (slotOf .MAC_CTL 0)).asWritten f .MAC_CTL p 0 (BitVec.ofNat 72 (v % 2 ^ 36))
  let u := (s.emptyHalf f (slotOf .MAC_CTL 0)).wr .MAC_CTL p 0 (maskWrite .MAC_CTL (s.rd .MAC_CTL p) value)
  have wrote (b : Nat) (word : b < 36) := asWritten_macCtl (s.emptyHalf f (slotOf .MAC_CTL 0)) f p v b word
  have bits_ (b : Nat) (word : b < 36) (other : b ≠ 1) : bit value.toNat b = v.testBit b :=
    (bit_eq_testBit ..).trans ((wrote b word).trans (if_neg other))
  have stored : u.rd .MAC_CTL p = maskWrite .MAC_CTL (s.rd .MAC_CTL p) value := State.rd_wr_same ..
  have enables : u.portAdmin p = s.adminAfter f p v := by
    unfold State.portAdmin
    rw [flag_eq_bit u (g := F.MAC_CTL.admin_owner) p 0 rfl, flag_eq_bit u (g := F.MAC_CTL.admin_tenant) p 0 rfl]
    show ((u.rd .MAC_CTL p).getLsbD 1 && (u.rd .MAC_CTL p).getLsbD 0) = s.adminAfter f p v
    rw [stored, maskWrite_writable _ _ _ (by decide), maskWrite_writable _ _ _ (by decide)]
    exact congrArg₂ (· && ·) (wrote 1 (by decide)) (wrote 0 (by decide))
  refine ⟨u, value.toNat, (regsOnly_modFn s f _).trans (regsOnly_wr _ .MAC_CTL p 0 _), ?_, enables, bits_ 3 (by decide) (by decide),
    bits_ 4 (by decide) (by decide)⟩
  rw [writeTo_opens v 0 none taken rfl (writeCode_plain s f .MAC_CTL p _ (by decide) (by decide))]
  show u.wrote f .MAC_CTL p 0 (s.rd .MAC_CTL p) value (s.portAdmin p) 0 none = _
  exact wrote_MAC_CTL ..

/-- A command that writes `MAC_CTL` reaches the effect of the write. -/
theorem goesTo_macCtl {s : State} {f : Func} {p v : Nat} {P : State → Prop} (taken : opens s f .MAC_CTL 0 p)
    (holds : ∀ u w, Within [.MAC_CTL] s u → u.portAdmin p = s.adminAfter f p v → bit w 3 = v.testBit 3 → bit w 4 = v.testBit 4 →
      P ((u.effMacCtl p (s.portAdmin p) w).withQueue s.pending)) :
    goesTo (s.act fun s => s.writeTo f .MAC_CTL 0 v) P := by
  obtain ⟨u, w, only, ran, enables, restart, clear⟩ := macCtl_wrote (v := v) taken
  refine goesTo_act ?_
  rw [ran]
  exact holds u w only.within enables restart clear

/-! ## The effect of the write (R118) -/

section
variable {s : State} {p w : Nat}

/-- A port that was not enabled and is not now stays as it is. -/
theorem effMacCtl_off (off : s.portAdmin p = false) (restart : bit w 3 = false) (clear : bit w 4 = false) : s.effMacCtl p false w = s := by
  simp [State.effMacCtl, off, restart, clear]

theorem effMacCtl_enables (on : s.portAdmin p = true) (restart : bit w 3 = false) (clear : bit w 4 = false) (castle : s.image.castle = none) :
    s.effMacCtl p false w = s.portEnable p 1 := by
  simp [State.effMacCtl, State.castleCovers, on, restart, clear, castle]

theorem effMacCtl_disables (off : s.portAdmin p = false) : s.effMacCtl p true w = s.portDisable p := by
  simp [State.effMacCtl, off]

theorem effMacCtl_restarts (on : s.portAdmin p = true) (restart : bit w 3 = true) (clear : bit w 4 = false) :
    s.effMacCtl p true w = s.portRestart p := by
  simp [State.effMacCtl, on, restart, clear]

theorem effMacCtl_clears (on : s.portAdmin p = true) (restart : bit w 3 = false) (clear : bit w 4 = true) :
    s.effMacCtl p true w = s.portClear p := by
  simp [State.effMacCtl, on, restart, clear]

theorem Within.portAdmin {rs : List Reg} {t : State} (h : Within rs s t) (other : .MAC_CTL ∉ rs) : t.portAdmin p = s.portAdmin p :=
  congrArg₂ (· && ·) (h.flag F.MAC_CTL.admin_owner p 0 other) (h.flag F.MAC_CTL.admin_tenant p 0 other)

/-- A port with media that is enabled enters ABSENT. -/
theorem portEnable_media (disabled : s.portState p = pDisabled) (valid : s.portValid p = true) (media : s.portMedia p ≠ 0)
    (polled : bit (s.portRec p) 17 = false) : s.portEnable p 1 = s.portTo p pAbsent 1 := by
  have kept : Within linkRegs s (s.portTo p pAbsent 1) := .portTo (.refl s)
  unfold State.portEnable
  rw [if_neg (by simp [disabled, valid]), if_neg media]
  exact if_neg (by rw [kept.portRec (by decide), polled]; simp)

/-- A port without media that is enabled enters PRESENT. -/
theorem portEnable_noMedia (disabled : s.portState p = pDisabled) (valid : s.portValid p = true) (media : s.portMedia p = 0) :
    s.portEnable p 1 = s.portPresent p 1 := by
  unfold State.portEnable
  rw [if_neg (by simp [disabled, valid]), if_pos media]

/-- A port that is disabled is DISABLED, with no retries. -/
theorem portDisable_fields (s : State) (p : Nat) :
    (s.portDisable p).portState p = pDisabled ∧ (s.portDisable p).fget F.MAC_STATUS.retries p = 0 :=
  ⟨(portState_fset _ p 0 rfl (by decide)).trans (portState_portTo _ p 1 (by decide)), State.fget_fset_same _ _ _ _ (by decide)⟩

theorem portRestart_presents (linked : s.portState p = pTraining ∨ s.portState p = pUp) : s.portRestart p = s.portPresent p 13 := by
  unfold State.portRestart
  rw [if_neg (by rcases linked with h | h <;> rw [h] <;> decide), if_pos linked]

/-- A port with neither end of the change in UP keeps its retries. -/
theorem retries_portTo {new : Nat} (cause : Nat) (down : s.portState p ≠ pUp) (other : new ≠ pUp) :
    (s.portTo p new cause).fget F.MAC_STATUS.retries p = s.fget F.MAC_STATUS.retries p := by
  unfold State.portTo
  extract_lets old status timed entered cut
  have told : Within endRegs timed entered := .emitBoth (.refl _)
  have set : status.fget F.MAC_STATUS.retries p = s.fget F.MAC_STATUS.retries p :=
    (State.fget_fset_fld (f := F.MAC_STATUS.cause) (g := F.MAC_STATUS.retries) _ p 0 cause rfl (by decide)).trans
      (s.fget_fset_fld (f := F.MAC_STATUS.state) (g := F.MAC_STATUS.retries) p 0 new rfl (by decide))
  split
  · rfl
  · exact (told.fget _ p 0 (by decide)).trans set

/-- A port in FAULT with media and no module seen, no lane of which is in the safe state, goes to ABSENT with no retries. -/
theorem portClear_fields (fault : s.portState p = pFault) (safe : s.flag F.MAC_STATUS.safe p = false) (media : s.portMedia p ≠ 0)
    (empty : s.flag F.MAC_MOD.present p = false) :
    (s.portClear p).portState p = pAbsent ∧ (s.portClear p).fget F.MAC_STATUS.retries p = 0 := by
  let fresh := s.fset F.MAC_STATUS.retries p 0 0
  have still : fresh.portState p = pFault := (portState_fset s p 0 rfl (by decide)).trans fault
  have reset : Within linkRegs s fresh := .fset (.refl s) (by decide)
  have kept : Within linkRegs s (fresh.portTo p pAbsent 12) := .portTo reset
  have cleared : s.portClear p = fresh.portTo p pAbsent 12 := by
    unfold State.portClear
    rw [if_pos (by simp [fault, safe])]
    dsimp only
    refine (if_neg (show ¬ fresh.portMedia p = 0 from ?_)).trans (if_neg ?_)
    · rw [State.portMedia, reset.portRec (by decide)]
      exact media
    · rw [kept.flag _ p 0 (by decide), empty]
      exact Bool.false_ne_true
  rw [cleared]
  refine ⟨portState_portTo fresh p 12 (by decide), (retries_portTo 12 (by rw [still]; decide) (by decide)).trans ?_⟩
  exact s.fget_fset_same p 0 0 (by decide)

end

/-! ## What O13 means

Each of its clauses, the first two of them for the functions of partition H that the device has. -/

section
variable {s : State} {f : Func} {p : Nat} (taken : opens s f .MAC_CTL 0 p)
include taken

/-- The PF or the console enables a port with media: it goes to ABSENT. -/
theorem macAdminWrite_absent (own : f = .pf ∨ f = .console) (off : s.portAdmin p = false) (disabled : s.portState p = pDisabled)
    (valid : s.portValid p = true) (castle : s.image.castle = none) (media : s.portMedia p ≠ 0) (polled : bit (s.portRec p) 17 = false) :
    goesTo (exec (.macAdminWrite f true true) s) fun t => t.portState p = pAbsent ∧ t.portAdmin p = true := by
  show goesTo (execMacAdminWrite f true true s) _
  refine goesTo_macCtl taken fun u w only enables restart clear => ?_
  have on : u.portAdmin p = true := enables.trans (adminAfter_own s p _ own)
  have record : u.portRec p = s.portRec p := only.portRec (by decide) p
  have entered : Within linkRegs u (u.portTo p pAbsent 1) := .portTo (.refl u)
  rw [off, effMacCtl_enables on restart clear (only.image ▸ castle), portEnable_media ((only.portState (by decide) p).trans disabled)
    (by rw [State.portValid, record]; exact valid) (by rw [State.portMedia, record]; exact media) (by rw [record]; exact polled)]
  exact ⟨portState_portTo u p 1 (by decide), (entered.portAdmin (by decide)).trans on⟩

/-- The PF or the console enables a port without media, with AN: it goes to PRESENT. -/
theorem macAdminWrite_present (own : f = .pf ∨ f = .console) (off : s.portAdmin p = false) (disabled : s.portState p = pDisabled)
    (valid : s.portValid p = true) (castle : s.image.castle = none) (media : s.portMedia p = 0) (an : bit (s.portRec p) 13 = true) :
    goesTo (exec (.macAdminWrite f true true) s) fun t => t.portState p = pPresent ∧ t.portAdmin p = true := by
  show goesTo (execMacAdminWrite f true true s) _
  refine goesTo_macCtl taken fun u w only enables restart clear => ?_
  have on : u.portAdmin p = true := enables.trans (adminAfter_own s p _ own)
  have record : u.portRec p = s.portRec p := only.portRec (by decide) p
  have entered : Within linkRegs u (u.portPresent p 1) := .portPresent (.refl u)
  rw [off, effMacCtl_enables on restart clear (only.image ▸ castle), portEnable_noMedia ((only.portState (by decide) p).trans disabled)
    (by rw [State.portValid, record]; exact valid) (by rw [State.portMedia, record]; exact media)]
  exact ⟨portState_portPresent_an 1 (by rw [record]; exact an), (entered.portAdmin (by decide)).trans on⟩

variable (admin : s.portAdmin p = true)
include admin

/-- A write that takes the tenant's enable away leaves the port DISABLED. -/
theorem macAdminWrite_disables (owner : Bool) :
    goesTo (exec (.macAdminWrite f owner false) s) fun t => t.portState p = pDisabled ∧ t.fget F.MAC_STATUS.retries p = 0 := by
  show goesTo (execMacAdminWrite f owner false s) _
  refine goesTo_macCtl taken fun u w only enables restart clear => ?_
  have off : u.portAdmin p = false := enables.trans (adminAfter_taken (by cases owner <;> rfl))
  rw [admin, effMacCtl_disables off]
  exact portDisable_fields u p

theorem macRestart_presents (linked : s.portState p = pTraining ∨ s.portState p = pUp) :
    goesTo (exec (.macRestart f true true) s) fun t =>
      t.portState p = (if bit (s.portRec p) 13 = false ∧ (s.port p).signal = true then pTraining else pPresent) := by
  show goesTo (execMacRestart f true true s) _
  refine goesTo_macCtl taken fun u w only enables restart clear => ?_
  have state : u.portState p = s.portState p := only.portState (by decide) p
  rw [admin, effMacCtl_restarts (enables.trans (adminAfter_kept f admin rfl rfl)) restart clear, portRestart_presents (by rw [state]; exact linked),
    ← only.portRec (by decide) p, ← (only.lanes p).1]
  exact portState_portPresent u p 13

theorem macClrFault_clears (fault : s.portState p = pFault) (safe : s.flag F.MAC_STATUS.safe p = false) (media : s.portMedia p ≠ 0)
    (empty : s.flag F.MAC_MOD.present p = false) :
    goesTo (exec (.macClrFault f true true) s) fun t => t.portState p = pAbsent ∧ t.fget F.MAC_STATUS.retries p = 0 := by
  show goesTo (execMacClrFault f true true s) _
  refine goesTo_macCtl taken fun u w only enables restart clear => ?_
  have record : u.portRec p = s.portRec p := only.portRec (by decide) p
  rw [admin, effMacCtl_clears (enables.trans (adminAfter_kept f admin rfl rfl)) restart clear]
  exact portClear_fields ((only.portState (by decide) p).trans fault) ((only.flag _ p 0 (by decide)).trans safe)
    (by rw [State.portMedia, record]; exact media) ((only.flag _ p 0 (by decide)).trans empty)

end

/-! ## The refutation -/

/-- An image of scope H in which VF 16 holds port 8, a valid port with media. -/
def tenantPlane : Plane :=
  (({} : Plane).putWord 1 (128 + 8 * 8) (2 ^ 35 + 2 ^ 11)).putWord 2 (28 * 16 + 1) (2 ^ 8)

/-- After main reset with the main domains up, the PCIe link in L0, and that image ACTIVE; VF 16 has port 8 selected. -/
def tenantPortState : State :=
  let s := ((State.reset.fset F.AON_STATUS.main_on 0 0 1).fset F.MAC_SEL.index 16 0 8).setPlane 16 0 tenantPlane
  { s with pcie := { s.pcie with l0 := true } }

/-- Refutes O13: its first two clauses take every function of partition H for one that may give both enables, `f.part = 16`, and so a VF numbered
16. The device has no such function (`Func.wf`), and the clauses do not ask for one that it has. The model, as R150 has it, leaves the
owner's enable as it was in a write of a VF, and the port stays DISABLED. What the clauses mean holds for the PF and the console
(`macAdminWrite_absent`, `macAdminWrite_present`), and the other three hold (`macAdminWrite_disables`, `macRestart_presents`,
`macClrFault_clears`). -/
theorem not_portStatesFollowAdministration : ¬ Obligations.PortStatesFollowAdministration := by
  unfold Obligations.PortStatesFollowAdministration
  rintro ⟨enabled, -⟩
  have taken : opens tenantPortState (.vf 16) .MAC_CTL 0 8 := by
    constructor
    · decide +kernel
    · decide +kernel
  have off : tenantPortState.portAdmin 8 = false := by decide +kernel
  have absent := enabled tenantPortState (.vf 16) 8 rfl taken off (by decide +kernel) (by decide +kernel) rfl (by decide +kernel) (by decide +kernel)
  have unowned : tenantPortState.flag F.MAC_CTL.admin_owner 8 = false := by decide +kernel
  refine goesTo_absurd absent ?_
  show goesTo (execMacAdminWrite (.vf 16) true true tenantPortState) _
  refine goesTo_macCtl taken fun u w _ enables restart clear => ?_
  have still : u.portAdmin 8 = false := by
    rw [enables, State.adminAfter, State.ownerAfter, unowned]
    rfl
  rw [off, effMacCtl_off still restart clear]
  rintro ⟨-, on⟩
  exact Bool.false_ne_true (still.symm.trans on)

end Sys2Proof.Machine
end

section
/-! PROOFS. Slice groups (R152–R165): what the sprayer's operations on groups, slices and frames change and what they leave, and how slices wake,
become active, drain and lose their slow mark, which settles O21. -/

namespace Sys2Proof.Machine

/-! ## Groups, slices and frames -/

@[simp] theorem group_modGroup_same (s : State) (g : Nat) (k : Group → Group) : (s.modGroup g k).group g = k (s.group g) :=
  tabGet_mod_same _ _ _ _

@[simp] theorem slice_modSlice_same (s : State) (g n : Nat) (k : SliceSt → SliceSt) : (s.modSlice g n k).slice g n = k (s.slice g n) :=
  tabGet_mod_same _ _ _ _

@[simp] theorem group_modJobs (s : State) (h n : Nat) (k : SliceSt → SliceSt) (g : Nat) : (s.modJobs h n k).group g = s.group g := rfl
@[simp] theorem group_sprCount (s : State) (h i n g : Nat) : (s.sprCount h i n).group g = s.group g := rfl
@[simp] theorem group_showGroup (s : State) (h g : Nat) : (s.showGroup h).group g = s.group g := rfl
@[simp] theorem group_withQueue (s : State) (q : List Instr) (g : Nat) : (s.withQueue q).group g = s.group g := rfl

@[simp] theorem slice_modGroup (s : State) (h : Nat) (k : Group → Group) (g n : Nat) : (s.modGroup h k).slice g n = s.slice g n := rfl
@[simp] theorem slice_showGroup (s : State) (h g n : Nat) : (s.showGroup h).slice g n = s.slice g n := rfl
@[simp] theorem slice_withQueue (s : State) (q : List Instr) (g n : Nat) : (s.withQueue q).slice g n = s.slice g n := rfl

@[simp] theorem slice_modJobs_same (s : State) (g n : Nat) (k : SliceSt → SliceSt) : (s.modJobs g n k).slice g n = k (s.slice g n) :=
  slice_modSlice_same s g n k

@[simp] theorem frame_modJobs (s : State) (g n : Nat) (k : SliceSt → SliceSt) (id : Nat) : (s.modJobs g n k).frame id = s.frame id := rfl
@[simp] theorem frame_showGroup (s : State) (g id : Nat) : (s.showGroup g).frame id = s.frame id := rfl

@[simp] theorem fget_modGroup (s : State) (g : Nat) (k : Group → Group) (f : Fld) (c i : Nat) : (s.modGroup g k).fget f c i = s.fget f c i := rfl


@[simp] theorem sliceState_withQueue (s : State) (q : List Instr) (g n : Nat) : (s.withQueue q).sliceState g n = s.sliceState g n := rfl

@[simp] theorem countedUp_withQueue (s t : State) (q : List Instr) (f : Fld) (c i n : Nat) :
    countedUp s (t.withQueue q) f c i n = countedUp s t f c i n := rfl

/-- A counter that is counted up goes up. -/
theorem State.countedUp_bump (s : State) {f : Fld} (c i n : Nat) (fits : f.ok = true) : countedUp s (s.bump f c i n) f c i n :=
  s.fget_bump_same c i n fits

/-- A counter goes up between states that hold it as the first and the last. -/
theorem countedUp_congr {s s' t t' : State} {f : Fld} {c i n : Nat} (up : countedUp s' t' f c i n)
    (before : s'.fget f c i = s.fget f c i) (after : t.fget f c i = t'.fget f c i) : countedUp s t f c i n := by
  unfold countedUp at up ⊢
  rw [after, up, before]

/-- A frame that is in the device, after a change of it. -/
theorem frame_modFrame_same {s : State} {id : Nat} {f : Frame} (k : Frame → Frame) (found : s.frame id = some f) :
    (s.modFrame id k).frame id = some (k f) := by
  unfold State.modFrame
  rw [found]
  exact frame_insert s id (k f)

@[simp] theorem group_modFrame (s : State) (id : Nat) (k : Frame → Frame) (g : Nat) : (s.modFrame id k).group g = s.group g := by
  unfold State.modFrame; split <;> rfl

@[simp] theorem slice_modFrame (s : State) (id : Nat) (k : Frame → Frame) (g n : Nat) : (s.modFrame id k).slice g n = s.slice g n := by
  unfold State.modFrame; split <;> rfl

/-! ## The registers of a group -/

namespace Within

variable {rs : List Reg} {s t : State}

theorem modGroup (h : Within rs s t) {g : Nat} {k : Group → Group} : Within rs s (t.modGroup g k) := h.beside rfl rfl rfl rfl

theorem modSlice (h : Within rs s t) {g n : Nat} {k : SliceSt → SliceSt} : Within rs s (t.modSlice g n k) := h.beside rfl rfl rfl rfl

theorem setSlice (h : Within rs s t) {g n st : Nat} (mem : .SPR_SLICE ∈ rs) : Within rs s (t.setSlice g n st) := .fset (.fset h mem) mem

theorem modJobs (h : Within rs s t) {g n : Nat} {k : SliceSt → SliceSt} (mem : .SPR_SLICE ∈ rs) : Within rs s (t.modJobs g n k) :=
  .setSlice (.modSlice h) mem

theorem sprCount (h : Within rs s t) {g i n : Nat} (mem : .SPR_CNT ∈ rs) : Within rs s (t.sprCount g i n) := h.bump mem

theorem drainSlice (h : Within rs s t) {g n dest : Nat} (mem : .SPR_SLICE ∈ rs) : Within rs s (t.drainSlice g n dest) :=
  .setSlice (.modSlice h) mem

/-- What a group's status registers show (R186). -/
theorem showGroup (h : Within rs s t) {g : Nat} (status : .SPR_STATUS ∈ rs) (reorder : .SPR_REORDER ∈ rs) : Within rs s (t.showGroup g) :=
  .fset (.fset (.fset (.fset (.fset h status) status) status) reorder) reorder

theorem sliceState (h : Within rs s t) (other : .SPR_SLICE ∉ rs) (g n : Nat) : t.sliceState g n = s.sliceState g n :=
  h.fget F.SPR_SLICE.state g n other

theorem wakeOne (h : Within rs s t) {g : Nat} (slice : .SPR_SLICE ∈ rs) (count : .SPR_CNT ∈ rs) : Within rs s (t.wakeOne g) := by
  unfold State.wakeOne
  split
  · exact .ite h (.sprCount (.setSlice h slice) count)
  · exact h

theorem wakeTo (h : Within rs s t) {g target n : Nat} (slice : .SPR_SLICE ∈ rs) (count : .SPR_CNT ∈ rs) :
    Within rs s (t.wakeTo g target n) := by
  induction n generalizing t with
  | zero => exact h
  | succ n ih => exact .ite (ih (.wakeOne h slice count)) h

end Within

/-- Showing a group's registers changes those alone. -/
theorem showGroup_within (s : State) (g : Nat) : Within [.SPR_STATUS, .SPR_REORDER] s (s.showGroup g) :=
  .showGroup (.refl s) (by decide) (by decide)

theorem sliceState_showGroup (s : State) (h g n : Nat) : (s.showGroup h).sliceState g n = s.sliceState g n :=
  (showGroup_within s h).sliceState (by decide) g n

/-- The target is a field of its own in the register that shows the counts. -/
theorem target_showGroup (s : State) (g : Nat) : (s.showGroup g).fget F.SPR_STATUS.target g = s.fget F.SPR_STATUS.target g := by
  unfold State.showGroup
  dsimp only
  rw [State.fget_fset_reg _ _ _ _ _ _ (by decide), State.fget_fset_reg _ _ _ _ _ _ (by decide),
    State.fget_fset_fld (f := F.SPR_STATUS.wait_exp) (g := F.SPR_STATUS.target) _ _ _ _ rfl (by decide),
    State.fget_fset_fld (f := F.SPR_STATUS.wait_gen) (g := F.SPR_STATUS.target) _ _ _ _ rfl (by decide),
    State.fget_fset_fld (f := F.SPR_STATUS.awake) (g := F.SPR_STATUS.target) _ _ _ _ rfl (by decide)]

/-! ## The states of slices (R155) -/

theorem sliceState_setSlice_same (s : State) (g n : Nat) {st : Nat} (code : st < 8) : (s.setSlice g n st).sliceState g n = st := by
  unfold State.setSlice State.sliceState
  dsimp only
  rw [State.fget_fset_fld (f := F.SPR_SLICE.credits) (g := F.SPR_SLICE.state) _ _ _ _ rfl (by decide),
    State.fget_fset_same _ _ _ _ (by decide)]
  exact Nat.mod_eq_of_lt code

theorem wakeOne_groups (s : State) (g : Nat) : (s.wakeOne g).groups = s.groups := by
  unfold State.wakeOne
  split
  · split <;> rfl
  · rfl

theorem wakeTo_groups (s : State) (g target n : Nat) : (s.wakeTo g target n).groups = s.groups := by
  induction n generalizing s with
  | zero => rfl
  | succ n ih =>
    unfold State.wakeTo
    split
    · exact (ih _).trans (wakeOne_groups s g)
    · rfl

/-- The lowest-numbered ASLEEP slice is woken, while fewer than the most that may be awake are up (R155, R157). -/
theorem wakeOne_eq {s : State} {g n : Nat} {l : List Nat} (asleep : s.slicesIn g slAsleep = n :: l) (room : s.upSlices g < s.maxSlices g) :
    s.wakeOne g = (s.setSlice g n slWaking).sprCount g 7 := by
  unfold State.wakeOne
  rw [asleep]
  exact if_neg (by omega)

theorem sliceIs_of_lt {g n : Nat} (group : g < 4) (slice : n < 13) : sliceIs g n = true := decide_eq_true ⟨group, slice⟩

/-! ## The statement -/

/-- WAKE_MARK_RETRY (R158): one slice is WAKING, and counted. -/
theorem wakeMarkRetry_wakes {s : State} {g n : Nat} {l : List Nat} (below : s.belowMark g = true) (asleep : s.slicesIn g slAsleep = n :: l)
    (room : s.upSlices g < s.maxSlices g) :
    goesTo (exec (.wakeMarkRetry g) s) fun t => t.sliceState g n = slWaking ∧ countedUp s t F.SPR_CNT.count g 7 1 := by
  let waking := s.setSlice g n slWaking
  let woken := (waking.sprCount g 7).modGroup g fun q => { q with wokeAt := some s.time.cycles }
  have counter : waking.fget F.SPR_CNT.count g 7 = s.fget F.SPR_CNT.count g 7 :=
    (Within.setSlice (rs := [.SPR_SLICE]) (.refl s) (by decide)).fget F.SPR_CNT.count g 7 (by decide)
  show goesTo (execWakeMarkRetry g s) _
  refine goesTo_act ?_
  rw [if_pos below, State.wakeForMark, wakeOne_eq asleep room, sliceState_withQueue, countedUp_withQueue]
  constructor
  · calc (woken.showGroup g).sliceState g n
      _ = woken.sliceState g n := sliceState_showGroup woken g g n
      _ = (waking.sprCount g 7).sliceState g n := fget_modGroup _ g _ F.SPR_SLICE.state g n
      _ = waking.sliceState g n := State.fget_fset_reg waking (f := F.SPR_CNT.count) g 7 g n _ (by decide)
      _ = slWaking := sliceState_setSlice_same s g n (by decide)
  · have shown := (showGroup_within woken g).fget F.SPR_CNT.count g 7 (by decide)
    exact countedUp_congr (waking.countedUp_bump g 7 1 (by decide)) counter (shown.trans (fget_modGroup _ g _ F.SPR_CNT.count g 7))

/-- SPRAYER_TARGET (R157): the target is shown, and the jobs accepted are counted anew. -/
theorem sprayerTarget_shows (s : State) (g : Nat) :
    goesTo (exec (.sprayerTarget g) s) fun t =>
      t.fget F.SPR_STATUS.target g = s.sliceTarget g (s.group g).accepted % 2 ^ (F.SPR_STATUS.target.hi + 1 - F.SPR_STATUS.target.lo) ∧
      (t.group g).accepted = 0 := by
  show goesTo (execSprayerTarget g s) _
  refine goesTo_act ?_
  extract_lets g' target counted woken idle above timed due drained
  subst g'
  have restarted : (timed.group g).accepted = 0 := by
    have groups : woken.group g = counted.group g := by
      unfold State.group
      rw [wakeTo_groups counted g target 12]
    simp only [timed, groups, counted, group_modGroup_same]
  have told : Within [.SPR_SLICE, .SPR_CNT] counted timed := .modGroup (.wakeTo (.refl counted) (by decide) (by decide))
  have shown : counted.fget F.SPR_STATUS.target g = target % 2 ^ (F.SPR_STATUS.target.hi + 1 - F.SPR_STATUS.target.lo) :=
    s.fget_fset_same (f := F.SPR_STATUS.target) g 0 target (by decide)
  clear_value timed counted
  have kept : Within [.SPR_SLICE, .SPR_CNT] counted drained ∧ drained.group g = timed.group g := by
    unfold drained
    split
    · split
      · exact ⟨.sprCount (.drainSlice told (by decide)) (by decide), rfl⟩
      · exact ⟨told, rfl⟩
    · exact ⟨told, rfl⟩
  obtain ⟨within, groups⟩ := kept
  rw [State.fget_withQueue, target_showGroup, within.fget F.SPR_STATUS.target g 0 (by decide), shown, group_withQueue, group_showGroup, groups]
  exact ⟨rfl, restarted⟩

/-- SLICE_READY (R155) of a slice that replaces none. -/
theorem sliceReady_activates {s : State} {g n : Nat} (group : g < 4) (slice : n < 13) (waking : s.sliceState g n = slWaking)
    (replaces : ∀ p ∈ s.flt.promos, p.spare ≠ sliceUnit g n) :
    goesTo (exec (.sliceReady g n) s) fun t => t.sliceState g n = slActive := by
  let active := s.setSlice g n slActive
  have none_ : (active.flt.promos.find? fun p => p.spare = sliceUnit g n) = none :=
    List.find?_eq_none.2 fun p mem => by simpa using replaces p mem
  show goesTo (execSliceReady g n s) _
  refine goesTo_act ?_
  rw [if_neg (by simp [sliceIs_of_lt group slice, waking])]
  dsimp only
  rw [none_]
  rw [sliceState_withQueue]
  exact (sliceState_showGroup active g g n).trans (sliceState_setSlice_same s g n (by decide))

/-- SLICE_DRAINED (R155) of a slice that was not replaced. -/
theorem sliceDrained_sleeps {s : State} {g n : Nat} (group : g < 4) (slice : n < 13) (draining : s.sliceState g n = slDraining)
    (express : (s.slice g n).fifoE = []) (general : (s.slice g n).fifoG = []) (taken : (s.slice g n).pipe = [])
    (kept : (s.slice g n).drainTo ≠ slBench) : goesTo (exec (.sliceDrained g n) s) fun t => t.sliceState g n = slAsleep := by
  let asleep := s.setSlice g n slAsleep
  show goesTo (execSliceDrained g n s) _
  refine goesTo_act ?_
  dsimp only
  rw [if_neg (by simp [sliceIs_of_lt group slice, draining, express, general, taken]), if_neg kept, if_neg (by decide)]
  rw [sliceState_withQueue]
  exact (sliceState_showGroup asleep g g n).trans (sliceState_setSlice_same s g n (by decide))

/-- SLOWNESS_WINDOW_END (R165): the count restarts, and `slow` clears when no job exceeded the mark. -/
theorem slownessWindowEnd_restarts (s : State) {g n : Nat} (group : g < 4) (slice : n < 13) :
    goesTo (exec (.slownessWindowEnd g n) s) fun t =>
      t.fget F.SPR_SLICE.slowness g n = 0 ∧ (t.slice g n).marked = false ∧ (t.slice g n).advised = false ∧
      t.flag F.SPR_SLICE.slow g n = ((s.slice g n).marked && s.flag F.SPR_SLICE.slow g n) := by
  show goesTo (execSlownessWindowEnd g n s) _
  refine goesTo_act ?_
  rw [if_neg (by simp [sliceIs_of_lt group slice])]
  extract_lets cleared
  let ended := cleared.fset F.SPR_SLICE.slowness g n 0
  have slow : ended.fget F.SPR_SLICE.slow g n = cleared.fget F.SPR_SLICE.slow g n :=
    cleared.fget_fset_fld (f := F.SPR_SLICE.slowness) g n 0 rfl (by decide)
  have fresh : (ended.modSlice g n fun q => { q with marked := false, advised := false }).slice g n =
      { ended.slice g n with marked := false, advised := false } := slice_modSlice_same ended g n _
  refine ⟨cleared.fget_fset_same g n 0 (by decide), congrArg SliceSt.marked fresh, congrArg SliceSt.advised fresh, ?_⟩
  show decide (ended.fget F.SPR_SLICE.slow g n = 1) = _
  rw [slow]
  cases marked : (s.slice g n).marked with
  | true => simp [cleared, marked, State.flag]
  | false => simp [cleared, marked, s.fget_fset_same (f := F.SPR_SLICE.slow) g n 0 (by decide)]

/-- Settles O21, clause by clause. -/
theorem slicesWakeAndSleep : Obligations.SlicesWakeAndSleep := by
  unfold Obligations.SlicesWakeAndSleep
  exact ⟨fun _ _ _ _ => wakeMarkRetry_wakes, sprayerTarget_shows, fun _ _ _ => sliceReady_activates, fun _ _ _ => sliceDrained_sleeps,
    fun s _ _ => slownessWindowEnd_restarts s⟩

end Sys2Proof.Machine
end

section
/-! PROOFS. Jobs in a slice group (R152–R154, R161, R162): hand-over to the sprayer, dispatch to a slice, the take by its pipeline and the release of
its result, which settle O22. -/

namespace Sys2Proof.Machine

/-! ## Counting and showing -/

@[simp] theorem State.sprCount_groups (s : State) (g i n : Nat) : (s.sprCount g i n).groups = s.groups := rfl
@[simp] theorem State.sprCount_frames (s : State) (g i n : Nat) : (s.sprCount g i n).frames = s.frames := rfl
@[simp] theorem State.sprCount_seqs (s : State) (g i n : Nat) : (s.sprCount g i n).seqs = s.seqs := rfl
@[simp] theorem State.showGroup_groups (s : State) (g : Nat) : (s.showGroup g).groups = s.groups := rfl
@[simp] theorem State.showGroup_frames (s : State) (g : Nat) : (s.showGroup g).frames = s.frames := rfl
@[simp] theorem State.showGroup_seqs (s : State) (g : Nat) : (s.showGroup g).seqs = s.seqs := rfl

/-! ## Hand-over (R161) -/

/-- The jobs of a kind in a group's store depend on the store and the frames. -/
theorem storeOf_congr {s t : State} {g : Nat} (store : (t.group g).store = (s.group g).store) (frames : t.frames = s.frames) (express : Bool) :
    t.storeOf g express = s.storeOf g express := by
  unfold State.storeOf State.frame
  rw [store, frames]

/-- A job that is ready, with room in the store of its kind, is entered at the end of the store and of its waiting list, under the next number of its
sequence. -/
theorem jobHandover_enters {s : State} {id : Nat} {f : Frame} (found : s.frame id = some f) (fresh : f.hand = none) (whole : f.failed = false)
    (ready : id ∈ (s.group f.group).inject ∨ (f.alloc = true ∧ (256 ≤ f.len ∨ f.ended = true)))
    (room : (s.storeOf f.group f.express).length < (if f.express then 1024 else 15360)) :
    goesTo (exec (.jobHandover id) s) fun t =>
      (t.group f.group).store = (s.group f.group).store ++ [id] ∧
      (if f.express then (t.group f.group).waitE = (s.group f.group).waitE ++ [id]
        else (t.group f.group).waitG = (s.group f.group).waitG ++ [id]) ∧
      (∃ h, t.frame id = some h ∧ h.seq = tabGet 0 s.seqs (seqKey f) ∧ h.hand = some s.time.cycles) ∧
      tabGet 0 t.seqs (seqKey f) = (tabGet 0 s.seqs (seqKey f) + 1) % 16384 := by
  show goesTo (execJobHandover id s) _
  refine goesTo_act ?_
  rw [found]
  dsimp -zeta only
  extract_lets g waits taken slots refused key number counted stamped queued tallied
  subst g
  have stored : taken.storeOf f.group f.express = s.storeOf f.group f.express :=
    storeOf_congr (s := s) (t := taken) (by simp only [taken, group_modGroup_same]) rfl _
  rw [if_neg (by simpa [fresh, whole, waits, imp_iff_not_or] using ready), stored, if_neg (by omega)]
  have group : queued.group f.group = { s.group f.group with
      inject := (s.group f.group).inject.filter (· ≠ id), store := (s.group f.group).store ++ [id],
      accepted := (s.group f.group).accepted + 1, jobsMs := (s.group f.group).jobsMs + 1,
      waitE := if f.express then (s.group f.group).waitE ++ [id] else (s.group f.group).waitE,
      waitG := if f.express then (s.group f.group).waitG else (s.group f.group).waitG ++ [id] } := by
    have before : stamped.group f.group = { s.group f.group with inject := (s.group f.group).inject.filter (· ≠ id) } := by
      rw [group_modFrame, show counted.group f.group = taken.group f.group from rfl]
      simp only [taken, group_modGroup_same]
    simp only [queued, group_modGroup_same, before]
  have frame : queued.frame id = some { f with seq := number, hand := some s.time.cycles, tHand := some s.time.now } :=
    frame_modFrame_same (s := counted) _ found
  have seqs : tabGet 0 queued.seqs key = (number + 1) % 16384 := by
    have kept : stamped.seqs = counted.seqs := by unfold stamped State.modFrame; split <;> rfl
    rw [show queued.seqs = counted.seqs from kept]
    exact tabGet_set_same _ _ _ _
  clear_value queued
  have entered (u : State) (groups : u.groups = queued.groups) (frames : u.frames = queued.frames) (sequences : u.seqs = queued.seqs) :
      (u.group f.group).store = (s.group f.group).store ++ [id] ∧
      (if f.express then (u.group f.group).waitE = (s.group f.group).waitE ++ [id]
        else (u.group f.group).waitG = (s.group f.group).waitG ++ [id]) ∧
      (∃ h, u.frame id = some h ∧ h.seq = tabGet 0 s.seqs (seqKey f) ∧ h.hand = some s.time.cycles) ∧
      tabGet 0 u.seqs (seqKey f) = (tabGet 0 s.seqs (seqKey f) + 1) % 16384 := by
    rw [show u.group f.group = queued.group f.group by unfold State.group; rw [groups],
      show u.frame id = queued.frame id by unfold State.frame; rw [frames], group, sequences]
    refine ⟨rfl, ?_, ⟨_, frame, rfl, rfl⟩, seqs⟩
    cases f.express <;> rfl
  split
  · exact entered _ (by simp [tallied]) (by simp [tallied]) (by simp [tallied])
  · exact entered _ (by simp [tallied]) (by simp [tallied]) (by simp [tallied])

/-! ## Dispatch (R153, R154) -/

theorem dispatchOne_idle {s : State} {g : Nat} {express : Bool} (idle : (if express then (s.group g).waitE else (s.group g).waitG) = []) :
    s.dispatchOne g express = none := by
  unfold State.dispatchOne
  extract_lets q
  subst q
  rw [idle]

/-- A sprayer with no waiting job dispatches none. -/
theorem dispatch_idle {s : State} {g : Nat} (express : (s.group g).waitE = []) (general : (s.group g).waitG = []) (n : Nat) : s.dispatch g n = s := by
  cases n with
  | zero => rfl
  | succ n => rw [State.dispatch, dispatchOne_idle (express := true) express, dispatchOne_idle (express := false) general]

/-- The only waiting job of a group goes to the slice that is picked, and it leaves the waiting list. -/
theorem dispatchOne_gives {s : State} {g id n : Nat} {express slow : Bool} {f : Frame}
    (waitE : (s.group g).waitE = if express then [id] else []) (waitG : (s.group g).waitG = if express then [] else [id])
    (picked : s.pickSlice g express = some (n, slow)) (found : s.frame id = some f) :
    ∃ u, s.dispatchOne g express = some u ∧ (u.group g).waitE = [] ∧ (u.group g).waitG = [] ∧
      u.slice g n = (if express then { s.slice g n with fifoE := (s.slice g n).fifoE ++ [id] }
        else { s.slice g n with fifoG := (s.slice g n).fifoG ++ [id] }) ∧ u.frame id = some { f with slice := some n } := by
  have waiting : (if express then (s.group g).waitE else (s.group g).waitG) = [id] := by
    cases express
    · exact waitG
    · exact waitE
  unfold State.dispatchOne
  extract_lets q
  subst q
  rw [waiting, picked]
  dsimp -zeta only
  extract_lets left sent given
  have group : given.group g = { s.group g with
      waitE := if express then [] else (s.group g).waitE, waitG := if express then (s.group g).waitG else [],
      rotE := if express && !slow then n else (s.group g).rotE, rotG := if express && !slow then (s.group g).rotG else n } := by
    simp only [given, group_modJobs, sent, group_modFrame, left, group_modGroup_same]
  have slice : given.slice g n = (if express then { s.slice g n with fifoE := (s.slice g n).fifoE ++ [id] }
      else { s.slice g n with fifoG := (s.slice g n).fifoG ++ [id] }) := by
    simp only [given, slice_modJobs_same, sent, slice_modFrame, left, slice_modGroup]
  have frame : given.frame id = some { f with slice := some n } := by
    simp only [given, frame_modJobs]
    exact frame_modFrame_same (s := left) _ found
  clear_value given
  have emptyE : (given.group g).waitE = [] := by rw [group, waitE]; cases express <;> rfl
  have emptyG : (given.group g).waitG = [] := by rw [group, waitG]; cases express <;> rfl
  refine ⟨_, rfl, ?_⟩
  split
  · exact ⟨emptyE, emptyG, slice, frame⟩
  · exact ⟨emptyE, emptyG, slice, frame⟩

/-- Waking slices for the mark leaves the jobs where they are. -/
theorem wakeMark_jobs (s : State) (g : Nat) :
    ((s.wakeMark g).group g).waitE = (s.group g).waitE ∧ ((s.wakeMark g).group g).waitG = (s.group g).waitG ∧
      (s.wakeMark g).slices = s.slices ∧ (s.wakeMark g).frames = s.frames := by
  have woken : (s.wakeOne g).slices = s.slices ∧ (s.wakeOne g).frames = s.frames := by
    unfold State.wakeOne
    split
    · split
      · exact ⟨rfl, rfl⟩
      · exact ⟨rfl, rfl⟩
    · exact ⟨rfl, rfl⟩
  have group : (s.wakeOne g).group g = s.group g := by
    unfold State.group
    rw [wakeOne_groups]
  unfold State.wakeMark
  extract_lets soon
  split
  · unfold State.wakeForMark
    rw [group_modGroup_same, group]
    exact ⟨rfl, rfl, woken⟩
  · exact ⟨rfl, rfl, rfl, rfl⟩

/-- JOB_DISPATCH (R153, R154) with one waiting job. -/
theorem jobDispatch_gives {s : State} {g id n : Nat} {express slow : Bool} {f : Frame}
    (waitE : (s.group g).waitE = if express then [id] else []) (waitG : (s.group g).waitG = if express then [] else [id])
    (picked : s.pickSlice g express = some (n, slow)) (found : s.frame id = some f) {P : State → Prop}
    (holds : ∀ t : State, (t.group g).waitE = [] → (t.group g).waitG = [] →
      t.slice g n = (if express then { s.slice g n with fifoE := (s.slice g n).fifoE ++ [id] }
        else { s.slice g n with fifoG := (s.slice g n).fifoG ++ [id] }) → (∃ h, t.frame id = some h ∧ h.slice = some n) → P t) :
    goesTo (exec (.jobDispatch g) s) P := by
  obtain ⟨u, given, emptyE, emptyG, slice, frame⟩ := dispatchOne_gives waitE waitG picked found
  have ran : s.dispatch g 12 = u := by
    rw [State.dispatch]
    cases express with
    | true => rw [given]; exact dispatch_idle emptyE emptyG 11
    | false => rw [dispatchOne_idle (express := true) waitE, given]; exact dispatch_idle emptyE emptyG 11
  obtain ⟨keptE, keptG, slices, frames⟩ := wakeMark_jobs u g
  show goesTo (execJobDispatch g s) P
  refine goesTo_act (holds _ ?_ ?_ ?_ ⟨{ f with slice := some n }, ?_, rfl⟩)
  · rw [ran, group_withQueue, group_showGroup, keptE, emptyE]
  · rw [ran, group_withQueue, group_showGroup, keptG, emptyG]
  · rw [ran, slice_withQueue, slice_showGroup, ← slice]
    unfold State.slice
    rw [slices]
  · rw [ran, frame_withQueue, frame_showGroup, ← frame]
    unfold State.frame
    rw [frames]

/-! ## The take by a slice's pipeline (R152) -/

/-- A slice that is ACTIVE or DRAINING takes the job given, with the change of its FIFOs. -/
theorem sliceTake_takes {s : State} {g n id : Nat} {l : List Nat} (group : g < 4) (slice : n < 13)
    (runs : s.sliceState g n = slActive ∨ s.sliceState g n = slDraining) :
    ((s.slice g n).fifoE = id :: l →
      goesTo (exec (.sliceTake g n) s) fun t => (t.slice g n).fifoE = l ∧ (t.slice g n).pipe = (s.slice g n).pipe ++ [id]) ∧
    ((s.slice g n).fifoE = [] → (s.slice g n).fifoG = id :: l →
      goesTo (exec (.sliceTake g n) s) fun t => (t.slice g n).fifoG = l ∧ (t.slice g n).pipe = (s.slice g n).pipe ++ [id]) := by
  have served : ¬ ((!sliceIs g n) = true ∨ s.sliceState g n ≠ slActive ∧ s.sliceState g n ≠ slDraining) := by
    simpa [sliceIs_of_lt group slice, imp_iff_not_or] using runs
  constructor
  · intro express
    show goesTo (execSliceTake g n s) _
    refine goesTo_act ?_
    dsimp only
    rw [if_neg served, express]
    dsimp only
    rw [slice_withQueue, slice_modFrame, slice_modJobs_same]
    exact ⟨rfl, rfl⟩
  · intro none_ general
    show goesTo (execSliceTake g n s) _
    refine goesTo_act ?_
    dsimp only
    rw [if_neg served, none_, general]
    dsimp only
    rw [slice_withQueue, slice_modFrame, slice_modJobs_same]
    exact ⟨rfl, rfl⟩

/-! ## Release (R162) -/

@[simp] theorem releaseSome_nil (s : State) (g n : Nat) : s.releaseSome g [] n = (s, n) := by
  unfold State.releaseSome
  rfl

/-- A job whose result may go is released, and counts against the number that may. -/
theorem releaseSome_ready {s : State} {g id : Nat} (ready : s.releasable g id = true) (n : Nat) :
    ∃ u, s.releaseSome g [id] (n + 1) = (u, n) ∧
      u.group g = { s.group g with store := (s.group g).store.filter (· ≠ id), released := (s.group g).released ++ [id] } := by
  unfold State.releaseSome
  rw [if_pos ready, releaseSome_nil]
  exact ⟨_, rfl, (group_modFrame _ _ _ _).trans (group_modGroup_same _ _ _)⟩

/-- The kind of the only job of a store. -/
theorem storeOf_single {s : State} {g id : Nat} {f : Frame} (alone : (s.group g).store = [id]) (found : s.frame id = some f) (express : Bool) :
    s.storeOf g express = if f.express = express then [id] else [] := by
  unfold State.storeOf
  rw [alone, List.filter_singleton, found]
  simp only [beq_iff_eq, Bool.cond_eq_ite]

/-- The only job of a store is released when its result is back. -/
theorem reorderRelease_releases {s : State} {g id : Nat} (room : (s.group g).copyFifo.length < 256) (alone : (s.group g).store = [id])
    (ready : s.releasable g id = true) :
    goesTo (exec (.reorderRelease g) s) fun t => (t.group g).released = (s.group g).released ++ [id] ∧ (t.group g).store = [] := by
  obtain ⟨f, found⟩ : ∃ f, s.frame id = some f := by
    unfold State.releasable at ready
    split at ready
    · exact ⟨_, ‹_›⟩
    · cases ready
  show goesTo (execReorderRelease g s) _
  refine goesTo_act ?_
  rw [if_neg (by omega), storeOf_single alone found]
  cases kind : f.express with
  | true =>
    obtain ⟨u, released, group⟩ := releaseSome_ready ready 11
    have left : u.storeOf g false = [] := by simp [State.storeOf, group, alone]
    rw [if_pos rfl, released]
    dsimp only
    rw [left, releaseSome_nil, group_withQueue, group_showGroup, group]
    exact ⟨rfl, by simp [alone]⟩
  | false =>
    obtain ⟨u, released, group⟩ := releaseSome_ready ready 11
    rw [if_neg (by decide), releaseSome_nil]
    dsimp only
    rw [storeOf_single alone found, kind, if_pos rfl, released, group_withQueue, group_showGroup, group]
    exact ⟨rfl, by simp [alone]⟩

/-- Settles O22: a job's way through its group, step by step. -/
theorem jobsAreHandedOverInOrder : Obligations.JobsAreHandedOverInOrder := by
  unfold Obligations.JobsAreHandedOverInOrder
  refine ⟨fun s id f => jobHandover_enters, fun s g id n slow f waitE waitG picked found => ?general,
    fun s g id n slow f waitE waitG picked found => ?express, fun s g n id l => sliceTake_takes, fun s g id => reorderRelease_releases⟩
  case general => exact jobDispatch_gives (express := false) waitE waitG picked found fun t _ emptyG slice frame => ⟨emptyG, by rw [slice]; rfl, frame⟩
  case express => exact jobDispatch_gives (express := true) waitE waitG picked found fun t emptyE _ slice frame => ⟨emptyE, by rw [slice]; rfl, frame⟩

end Sys2Proof.Machine
end

section
/-! PROOFS. What slices decide, and late jobs (R164–R185): every step of a decision leaves the frames and the jobs of all groups alone, which settles
O23 with what the slice writes at its end. -/

namespace Sys2Proof.Machine

/-! ## The relation -/

/-- From `s` to `t`, the frames are as they were, and so are the stores and lists of every slice group. -/
structure JobsKept (s t : State) : Prop where
  frames : t.frames = s.frames
  groups : t.groups = s.groups

namespace JobsKept

theorem refl (s : State) : JobsKept s s := ⟨rfl, rfl⟩

variable {s t u : State}

theorem trans (h : JobsKept s t) (k : JobsKept t u) : JobsKept s u := ⟨k.frames.trans h.frames, k.groups.trans h.groups⟩

theorem frame (h : JobsKept s t) (id : Nat) : t.frame id = s.frame id := by
  unfold State.frame; rw [h.frames]

theorem group (h : JobsKept s t) (g : Nat) : t.group g = s.group g := by
  unfold State.group; rw [h.groups]

theorem ite {c : Prop} [Decidable c] (h : JobsKept s t) (k : JobsKept s u) : JobsKept s (if c then t else u) := by
  split
  · exact h
  · exact k

/-- A run of steps that each keep the jobs keeps them. -/
theorem foldl {α : Type} {f : State → α → State} (h : JobsKept s t) (step : ∀ u x, JobsKept u (f u x)) (l : List α) : JobsKept s (l.foldl f t) :=
  h.trans (foldl_rel refl trans step l t)

/-- A change of what holds neither frames nor jobs. -/
theorem beside (h : JobsKept s t) (frames : u.frames = t.frames) (groups : u.groups = t.groups) : JobsKept s u := h.trans ⟨frames, groups⟩

theorem flt (h : JobsKept s t) {x : FaultSt} : JobsKept s { t with flt := x } := h.beside rfl rfl
theorem tbl (h : JobsKept s t) {x : TblSt} : JobsKept s { t with tbl := x } := h.beside rfl rfl
theorem hbm (h : JobsKept s t) {x : HbmSt} : JobsKept s { t with hbm := x } := h.beside rfl rfl
theorem engines (h : JobsKept s t) {x : Tab Engine} : JobsKept s { t with engines := x } := h.beside rfl rfl

/-! ## Registers and records -/

theorem wr (h : JobsKept s t) {r : Reg} {c i : Nat} {v : RegVal} : JobsKept s (t.wr r c i v) := h.beside rfl rfl
theorem fset (h : JobsKept s t) {f : Fld} {c i n : Nat} : JobsKept s (t.fset f c i n) := h.wr
theorem bump (h : JobsKept s t) {f : Fld} {c i n : Nat} : JobsKept s (t.bump f c i n) := h.wr
theorem bumpSat (h : JobsKept s t) {f : Fld} {c i n : Nat} : JobsKept s (t.bumpSat f c i n) := h.wr
theorem drop (h : JobsKept s t) {f : Fld} {c i n : Nat} : JobsKept s (t.drop f c i n) := h.wr

theorem sent (h : JobsKept s t) (k : sentOnly t u) : JobsKept s u := by
  obtain ⟨⟨_, _, _, _, rfl⟩, -⟩ := k
  exact h.beside rfl rfl

theorem emitPart (h : JobsKept s t) {p cls : Nat} {r : Record} : JobsKept s (t.emitPart p cls r) := h.sent (emitPart_sentOnly ..)
theorem emitBoth (h : JobsKept s t) {p cls : Nat} {r : Record} : JobsKept s (t.emitBoth p cls r) := h.sent (emitBoth_sentOnly ..)

/-! ## Faults and the tailings log (R531–R538) -/

theorem tailAppend (h : JobsKept s t) {ws : List Nat} {graver : Bool} : JobsKept s (t.tailAppend ws graver) := by
  unfold State.tailAppend
  refine .ite (.bumpSat h) ?_
  extract_lets tail _ entered counted
  have logged : JobsKept s entered := .flt h
  exact .ite (.fset (.fset logged)) (.fset logged)

theorem mergeFault (h : JobsKept s t) {f : FaultRec} {cause unit cls : Nat} : JobsKept s (t.mergeFault f cause unit cls) := by
  unfold State.mergeFault
  extract_lets g old new _ merged held counted overflowed frozen
  have recorded : JobsKept s merged := .flt h
  have full : JobsKept s overflowed := .ite (.bump (.fset (.bump recorded))) (.bump recorded)
  exact .fset (.emitBoth (.ite (.fset full) full))

theorem openFault (h : JobsKept s t) {f : FaultRec} : JobsKept s (t.openFault f) := by
  unfold State.openFault
  extract_lets slot g _ listed counted overflowed recorded logged
  have entered : JobsKept s listed := .ite (.flt h) h
  have full : JobsKept s overflowed := .ite (.bump (.fset (.bump entered))) (.bump entered)
  exact .fset (.tailAppend (.emitBoth full))

theorem raise (h : JobsKept s t) {f : FaultRec} : JobsKept s (t.raise f) := by
  unfold State.raise
  split
  · exact .mergeFault h
  · exact .openFault h

theorem corrected (h : JobsKept s t) {cause unit d4 d5 : Nat} : JobsKept s (t.corrected cause unit d4 d5) := by
  unfold State.corrected
  extract_lets counted key due _ noted
  have bumped : JobsKept s counted := .bump h
  split
  · exact .mergeFault bumped
  · exact .ite (.emitBoth (.flt bumped)) bumped

/-! ## The bench (R549–R555) -/

theorem benchOut (h : JobsKept s t) {k n : Nat} : JobsKept s (t.benchOut k n) := by
  unfold State.benchOut State.benchEmpty
  exact .ite h (.ite h (.emitPart (.flt h)))

theorem settleSpare (h : JobsKept s t) {k n spare : Nat} : JobsKept s (t.settleSpare k n spare) := by
  unfold State.settleSpare
  extract_lets back others _ settled
  have kept : JobsKept s settled := .flt h
  exact .ite kept (.drop kept)

theorem finishPromo (h : JobsKept s t) {n : Nat} : JobsKept s (t.finishPromo n) := by
  unfold State.finishPromo
  split
  · exact h
  · extract_lets _ ended settled
    have kept : JobsKept s ended := .flt h
    have told (p : Promo) : JobsKept s (settled.benchDone p) := .tailAppend (.emitPart (.bump (.settleSpare kept)))
    exact .benchOut (.flt (told _))

theorem migrateFrom (h : JobsKept s t) {k : Nat} {l : List Nat} : JobsKept s (t.migrateFrom k l) := by
  induction l generalizing t with
  | nil => exact h
  | cons n l ih =>
    have drawn : JobsKept s t.nextFree := h.beside rfl rfl
    have copied (g : Thread → Thread) (n : Nat) : JobsKept s (t.modThr n g) := h.beside rfl rfl
    exact .ite (ih h) (.ite (.fset (copied _ _)) (ih (.emitPart drawn)))

theorem beginPromo (h : JobsKept s t) {k n spare : Nat} : JobsKept s (t.beginPromo k n spare) := by
  unfold State.beginPromo
  split
  · exact .fset h
  · exact .fset (.tbl h)
  · exact .ite (.fset h) (.ite (.fset (.fset h)) (.engines h))
  · exact .fset h
  · exact .fset (.fset (.hbm h))
  · exact h

theorem startPromo (h : JobsKept s t) {k n spare reason : Nat} : JobsKept s (t.startPromo k n spare reason) := by
  unfold State.startPromo
  extract_lets _ listed _ repaired begun moved
  have entered : JobsKept s listed := .flt h
  have kept : JobsKept s repaired := .ite (.flt entered) entered
  have migrated : JobsKept s moved := .ite (.migrateFrom (.beginPromo kept)) (.beginPromo kept)
  exact .ite (.finishPromo migrated) migrated

theorem wearAdvisory (h : JobsKept s t) {cause n k d4 d5 wear : Nat} : JobsKept s (t.wearAdvisory cause n k d4 d5 wear) := by
  unfold State.wearAdvisory
  extract_lets f
  refine .ite (.raise h) ?_
  split
  · exact .raise h
  · exact .ite (.ite (.raise h) (.flt (.raise h))) (.startPromo (.raise h))

/-! ## Slices (R152, R158, R165, R166) -/

theorem modSlice (h : JobsKept s t) {g n : Nat} {k : SliceSt → SliceSt} : JobsKept s (t.modSlice g n k) := h.beside rfl rfl

theorem setSlice (h : JobsKept s t) {g n st : Nat} : JobsKept s (t.setSlice g n st) := .fset (.fset h)

theorem modJobs (h : JobsKept s t) {g n : Nat} {k : SliceSt → SliceSt} : JobsKept s (t.modJobs g n k) := .setSlice (.modSlice h)

theorem slowCount (h : JobsKept s t) {g n : Nat} : JobsKept s (t.slowCount g n) := by
  unfold State.slowCount
  extract_lets counted c
  have bumped : JobsKept s counted := .bumpSat h
  exact .ite (.wearAdvisory (.modSlice bumped)) bumped

theorem wakeOne (h : JobsKept s t) {g : Nat} : JobsKept s (t.wakeOne g) := by
  unfold State.wakeOne
  split
  · exact .ite h (.bump (.setSlice h))
  · exact h

theorem slowJob (h : JobsKept s t) {g n : Nat} : JobsKept s (t.slowJob g n) := by
  unfold State.slowJob
  extract_lets was marked us counted
  have slow : JobsKept s marked := .modSlice (.fset h)
  have kept : JobsKept s counted := .ite slow (.slowCount (.modSlice slow))
  exact .ite (.wakeOne kept) kept

/-! ## Tables and search banks (R219–R254) -/

theorem tblUncorr (h : JobsKept s t) {g n : Nat} : JobsKept s (t.tblUncorr g n) := by
  unfold State.tblUncorr
  extract_lets row noted _ listed acts
  have kept : JobsKept s noted := .wr (.ite (.bumpSat h) (.bumpSat h))
  have entered : JobsKept s listed := .tbl kept
  exact .raise (.bump entered)

theorem wakeBanks (h : JobsKept s t) {g tag n : Nat} : JobsKept s (t.wakeBanks g tag n) := .tbl h

theorem noteTcm (h : JobsKept s t) {g phys row : Nat} {action corr : Bool} : JobsKept s (t.noteTcm g phys row action corr) :=
  .wr (.ite (.bumpSat h) (.bumpSat h))

theorem tcmRowFail (h : JobsKept s t) {g phys row : Nat} {action : Bool} : JobsKept s (t.tcmRowFail g phys row action) := by
  unfold State.tcmRowFail
  extract_lets noted _ fenced acts
  have kept : JobsKept s noted := .noteTcm h
  exact .raise (.ite kept (.bump (.tbl kept)))

theorem tcmHit (h : JobsKept s t) {g b row : Nat} : JobsKept s (t.tcmHit g b row) := h.beside rfl rfl

theorem twinSend (h : JobsKept s t) {m : TwinMsg} : JobsKept s (t.twinSend m) := h.beside rfl rfl

theorem learnRaise (h : JobsKept s t) {g n p key port kind prof old ctl : Nat} : JobsKept s (t.learnRaise g n p key port kind prof old ctl) := by
  have filtered : JobsKept s (t.learnFilter g p key).2 := by
    unfold State.learnFilter
    extract_lets
    split
    · split
      · exact h
      · exact .tbl h
    · exact .tbl h
  unfold State.learnRaise
  split
  next pass v found =>
    have kept : JobsKept s v := by rwa [found] at filtered
    refine .ite (.bump kept) ?_
    extract_lets counted
    have noted : JobsKept s counted := .bump kept
    split
    extract_lets r listed
    have entered : JobsKept s listed := noted.beside rfl rfl
    exact .ite (.bump (.twinSend entered)) entered

/-! ## The steps of a decision (R176) -/

theorem emStep (h : JobsKept s t) {g n prof w : Nat} {f : Frame} {mark : Bool} : JobsKept s (t.emStep g f n prof w mark).2 := by
  unfold State.emStep
  extract_lets c key hit met counted found
  have kept : JobsKept s counted := .ite (.bump h) h
  have bumped : JobsKept s found := .bump kept
  clear_value hit found
  split
  · exact h
  · split
    · exact .ite (.tbl bumped) bumped
    · exact .bump kept

theorem lpmStep (h : JobsKept s t) {g n prof : Nat} {f : Frame} : JobsKept s (t.lpmStep g f n prof).2 := by
  unfold State.lpmStep
  extract_lets w
  split
  · exact h
  · exact .bump (.ite (.bump h) h)

theorem learnStep (h : JobsKept s t) {g k n prof : Nat} {f : Frame} {hit : Option (Nat × EmEntry)} :
    JobsKept s (t.learnStep g k f n prof hit) := by
  unfold State.learnStep
  extract_lets w key
  refine .ite h ?_
  split
  · exact .learnRaise h
  · refine .ite h ?_
    split
    · exact .ite (.learnRaise h) h
    · exact h

theorem tableStep (h : JobsKept s t) {g k n prof : Nat} {f : Frame} {r : Result} : JobsKept s (t.tableStep g k f n prof r).2 :=
  .learnStep (.lpmStep (.emStep (.emStep h)))

theorem searchStep (h : JobsKept s t) {g n prof : Nat} {f : Frame} {rd : MatchRead} {r : Result} :
    JobsKept s (t.searchStep g f n prof rd r).2 := by
  unfold State.searchStep
  extract_lets w c k m key
  split
  · exact .bump h
  · extract_lets act found hit
    have kept : JobsKept s hit := .tcmHit h
    split
    · exact kept
    · exact .corrected (.noteTcm kept)
    · exact .tcmRowFail kept
    · exact .tcmRowFail kept

theorem filterStep (h : JobsKept s t) {g n k : Nat} {f : Frame} {meter : Option Nat} : JobsKept s (t.filterStep g f n k meter).2.2 := by
  have blocked (l : Tab Nat) : JobsKept s { t with blocked := l } := h.beside rfl rfl
  unfold State.filterStep
  extract_lets w w0 key
  split
  · exact h
  · split
    · exact .ite (blocked _) h
    · split
      · exact h
      · split
        · exact h
        · exact h

theorem setBucket (h : JobsKept s t) {k : Nat} {b : Bucket} : JobsKept s (t.setBucket k b) := h.beside rfl rfl

theorem meterStep (h : JobsKept s t) {g n m pre : Nat} {f : Frame} : JobsKept s (t.meterStep g f n m pre).2 := by
  unfold State.meterStep
  extract_lets w count cd ed key b dt aware put
  have stored (c e : Nat) : JobsKept s (put c e) := .setBucket h
  split
  split
  split
  · split
    · exact stored _ _
    · split
      · exact stored _ _
      · exact stored _ _
  · extract_lets fed
    split
    · exact stored _ _
    · split
      · exact stored _ _
      · exact stored _ _

theorem policeStep (h : JobsKept s t) {g n pre : Nat} {f : Frame} {meter : Option Nat} : JobsKept s (t.policeStep g f n meter pre).2.2 := by
  unfold State.policeStep
  split
  · exact h
  next m =>
    extract_lets w0
    split
    · exact h
    · have marked : JobsKept s (t.meterStep g f n m pre).2 := .meterStep h
      split
      next col v found =>
        have kept : JobsKept s v := by rwa [found] at marked
        split
        · exact kept
        · exact .ite (.bump kept) kept

theorem admitStep (h : JobsKept s t) {g n : Nat} {f : Frame} : JobsKept s (t.admitStep g f n).2 := by
  unfold State.admitStep
  extract_lets rate depth m key b
  split
  split
  · exact h
  · split
    · exact .setBucket h
    · exact .setBucket h

theorem puntStep (h : JobsKept s t) {n reason : Nat} : JobsKept s (t.puntStep n reason).2 := by
  unfold State.puntStep
  extract_lets rate depth key b
  split
  split
  · exact .setBucket h
  · exact .setBucket h

theorem lateSteps (h : JobsKept s t) {g n filt : Nat} {f : Frame} {r : Result} {meter : Option Nat} :
    JobsKept s (t.lateSteps g f n r meter filt).2 := by
  have filtered : JobsKept s (t.filterStep g f n filt meter).2.2 := .filterStep h
  unfold State.lateSteps
  split
  · exact h
  · split
    next cut m v step =>
      rw [step] at filtered
      split
      · exact filtered
      · have policed : JobsKept s (v.policeStep g f n m r.colour).2.2 := .policeStep filtered
        split
        next colour dropped w step =>
          rw [step] at policed
          extract_lets coloured demote counted taken
          have kept : JobsKept s counted := .ite (.bump policed) policed
          split
          · exact policed
          · split
            · exact .admitStep kept
            · exact kept

theorem profileSteps (h : JobsKept s t) {g k n prof : Nat} {f : Frame} {rd : MatchRead} {r : Result} :
    JobsKept s (t.profileSteps g k f n prof rd r).2 := by
  unfold State.profileSteps
  extract_lets w cls described
  split
  · exact h
  · split
    · exact h
    · have looked : JobsKept s (t.tableStep g k f n prof described).2 := .tableStep h
      split
      next x v u step =>
        rw [step] at looked
        split
        · exact looked
        · have searched : JobsKept s (u.searchStep g f n prof rd x).2 := .searchStep looked
          split
          next step =>
            rw [step] at searched
            split
            · exact searched
            · exact .lateSteps searched

theorem classify (h : JobsKept s t) {g k : Nat} {f : Frame} {rd : MatchRead} : JobsKept s (t.classify g k f rd).2 := by
  unfold State.classify
  extract_lets n r counted
  have begun : JobsKept s counted := .bump h
  split
  next x v u step =>
    have kept : JobsKept s u := by
      split at step
      · cases step
        exact begun
      · split at step
        next prof _ =>
          have described : JobsKept s (counted.profileSteps g k f n prof rd r).2 := .profileSteps begun
          rwa [step] at described
        · cases step
          exact begun
    split
    · exact kept
    · exact .bump kept
    next reason =>
      have punted : JobsKept s (u.puntStep n reason).2 := .puntStep kept
      split
      next step =>
        rw [step] at punted
        extract_lets told
        split
        · exact .bump punted
        · exact .bump punted

/-! ## The result of a job (R185) -/

theorem modPort (h : JobsKept s t) {p : Nat} {g : PortSt → PortSt} : JobsKept s (t.modPort p g) := h.beside rfl rfl

theorem partnerSeen (h : JobsKept s t) {port n : Nat} {bs : List Byte} : JobsKept s (t.partnerSeen port n bs) := by
  unfold State.partnerSeen
  extract_lets c key stamp
  have stamped {u : State} (k : JobsKept s u) (i : Nat) : JobsKept s (stamp u i) := .modPort k
  split
  · exact stamped h _
  · split
    · exact .emitBoth (stamped (.wr h) _)
    · exact h

theorem jobResult (h : JobsKept s t) {g n : Nat} {f : Frame} {bad : List Nat} {rd : MatchRead} : JobsKept s (t.jobResult g n f bad rd).2 := by
  unfold State.jobResult
  split
  · exact h
  · extract_lets found
    have classified : JobsKept s ((found.wakeBanks g f.tag (found.frameTenant f)).classify g n f rd).2 :=
      .classify (.wakeBanks (.foldl h (fun u _ => .tblUncorr (.refl u)) _))
    split
    next step =>
      rw [step] at classified
      exact .ite (.partnerSeen classified) classified

/-! ## The end of a frame (R275, R520) -/

theorem modThr (h : JobsKept s t) {n : Nat} {g : Thread → Thread} : JobsKept s (t.modThr n g) := h.beside rfl rfl

theorem pfcCount (h : JobsKept s t) {p c n : Nat} {up : Bool} : JobsKept s (t.pfcCount p c up n) := by
  unfold State.pfcCount
  extract_lets counted
  have kept : JobsKept s counted := .ite (.bumpSat h) (.drop h)
  have switched (on : Bool) : JobsKept s (counted.setXoff p c on) := .ite (.modPort (.fset kept)) (.fset kept)
  exact .ite (.ite (switched _) kept) (.ite (switched _) (.ite (switched _) kept))

theorem uncharge (h : JobsKept s t) {a : Acct} {n : Nat} : JobsKept s (t.uncharge a n) := by
  cases a with
  | none => exact h
  | ingGen => exact .drop (.drop h)
  | ingExp p =>
    have taken : JobsKept s ((t.drop F.BPM_PORTUSE.units 0 p n).drop F.BPM_ACCT.used 0 1 n) := .drop (.drop h)
    exact taken.beside rfl rfl
  | hdrm => exact h.beside rfl rfl
  | quota => exact .drop h
  | common => exact .drop (.drop h)

theorem freeDropped (h : JobsKept s t) {b : Nat} : JobsKept s (t.freeDropped b) := by
  have freed : JobsKept s (t.freeBuf b) := by
    unfold State.freeBuf
    split
    · exact h
    · extract_lets n left _ marked
      have erased : JobsKept s { t with bufs := tabErase t.bufs b } := h.beside rfl rfl
      have kept : JobsKept s left := .bump (.uncharge (.foldl erased (fun u _ => .modThr (.refl u)) _))
      have withdrawn : JobsKept s marked := .ite (.flt kept) kept
      split
      · exact .pfcCount withdrawn
      · exact withdrawn
  unfold State.freeDropped
  split
  · exact .ite h freed
  · exact h

theorem traceRx (h : JobsKept s t) {f : Frame} {code : Nat} : JobsKept s (t.traceRx f code) := by
  have traced {u : State} (k : JobsKept s u) (x : Tracer) : JobsKept s { u with trace := x } := k.beside rfl rfl
  have closed {u : State} (k : JobsKept s u) (n : Nat) : JobsKept s (u.traceClose n) := by
    unfold State.traceClose
    split
    · exact .ite (.fset (traced k _)) k
    · exact k
  unfold State.traceRx
  split
  · exact h
  · refine closed ?_ _
    unfold State.modTrace
    split
    · exact traced (.emitPart h) _
    · exact .emitPart h

theorem refreshOld (h : JobsKept s t) : JobsKept s t.refreshOld := by
  unfold State.refreshOld
  refine .ite h ?_
  extract_lets n counted
  have kept : JobsKept s counted := .fset h
  exact .ite (.emitPart (.fset kept)) kept

end JobsKept

/-! ## Frames that leave -/

@[simp] theorem tabFind_erase_same {α : Type} (t : Tab α) (k : Nat) : tabFind (tabErase t k) k = none := by
  induction t with
  | nil => rfl
  | cons e t ih => by_cases here : e.1 = k <;> simp [tabErase, tabFind, here, ih]

theorem frame_frameGone (s : State) (id : Nat) : (s.frameGone id).frame id = none :=
  (JobsKept.refreshOld (.refl { s with frames := tabErase s.frames id })).frame id |>.trans (tabFind_erase_same s.frames id)

theorem group_frameGone (s : State) (id g : Nat) : (s.frameGone id).group g = s.group g :=
  (JobsKept.refreshOld (.refl { s with frames := tabErase s.frames id })).group g

/-- A frame that is dropped leaves the stores and lists of the groups as they are. -/
theorem group_preDrop (s : State) (id : Nat) (f : Frame) (g : Nat) : (s.preDrop id f).group g = s.group g := by
  unfold State.preDrop
  extract_lets added taken freed traced
  have counted : JobsKept s taken := .ite ⟨rfl, rfl⟩ ⟨rfl, rfl⟩
  have kept : JobsKept s traced := .traceRx (.ite (.freeDropped counted) (.ite (.drop (.freeDropped counted)) counted))
  split
  · exact (group_modFrame _ _ _ _).trans (kept.group g)
  · exact (group_frameGone _ _ _).trans (kept.group g)

/-! ## Late jobs (R164) -/

/-- A job that is declared late leaves its group's store. -/
theorem lateJob_leaves {s : State} {id : Nat} {f : Frame} (found : s.frame id = some f) (stored : id ∈ (s.group f.group).store)
    (unanswered : f.result = none) : id ∉ ((s.lateJob id).group f.group).store := by
  unfold State.lateJob
  rw [found]
  dsimp -zeta only
  extract_lets g held counted orphan port cut gone
  subst g
  rw [if_neg (by simp [stored, unanswered])]
  have left : id ∉ (counted.group f.group).store := by
    rw [group_sprCount, State.unstore, group_modGroup_same]
    simp
  have group : gone.group f.group = counted.group f.group := by
    have orphaned : orphan.group f.group = counted.group f.group := by unfold orphan; split <;> rfl
    have counted_ : port.group f.group = orphan.group f.group := by unfold port; split <;> rfl
    have dropped_ : cut.group f.group = orphan.group f.group := by
      unfold cut
      split
      · rfl
      · exact (group_preDrop _ _ _ _).trans counted_
    unfold gone
    split
    · exact (group_frameGone _ _ _).trans (dropped_.trans orphaned)
    · exact dropped_.trans orphaned
  rw [group_showGroup, group]
  exact left

/-- JOB_LATE (R163, R164): a job without a result leaves the store. -/
theorem jobLate_leaves {s : State} {id : Nat} {f : Frame} (found : s.frame id = some f) (stored : id ∈ (s.group f.group).store)
    (unanswered : f.result = none) : goesTo (exec (.jobLate id) s) fun t => id ∉ (t.group f.group).store := by
  have left := lateJob_leaves found stored unanswered
  show goesTo (execJobLate id s) _
  refine goesTo_act ?_
  rw [found]
  dsimp -zeta only
  rw [if_neg (by simp [stored, unanswered])]
  extract_lets held late
  rw [group_withQueue]
  clear_value held
  cases held with
  | none => exact left
  | some n => rwa [JobsKept.group (.slowCount (.refl late))]

/-! ## The result of a slice's oldest job (R185) -/

/-- The state in which a slice's oldest job has left its pipeline, and is counted where its time there exceeds the mark (R165). -/
def State.leftPipe (s : State) (g n : Nat) (l : List Nat) (f : Frame) : State :=
  let t := s.modJobs g n fun q => { q with pipe := l }
  if max 352 (t.fget F.SPR_SLOW.mark g) < t.time.cycles - f.took.getD t.time.cycles then t.slowJob g n else t

theorem leftPipe_jobsKept (s : State) (g n : Nat) (l : List Nat) (f : Frame) : JobsKept s (s.leftPipe g n l f) :=
  .ite (.slowJob (.modJobs (.refl s))) (.modJobs (.refl s))

/-- A job within the mark leaves nothing but its place free. -/
theorem leftPipe_fast {s : State} {g : Nat} {f : Frame} (fast : s.time.cycles - f.took.getD s.time.cycles ≤ max 352 (s.fget F.SPR_SLOW.mark g))
    (n : Nat) (l : List Nat) : s.leftPipe g n l f = s.modJobs g n fun q => { q with pipe := l } := by
  have mark := (Within.modJobs (k := fun q => { q with pipe := l }) (g := g) (n := n) (rs := [.SPR_SLICE]) (.refl s) (by decide)).fget
    F.SPR_SLOW.mark g 0 (by decide)
  unfold State.leftPipe
  dsimp only
  rw [mark]
  exact if_neg (Nat.not_lt.2 fast)

/-- SLICE_RESULT: the oldest job's result goes to the store, or is STALE there. -/
theorem goesTo_sliceResult {s : State} {g n id : Nat} {l bad : List Nat} {rd : MatchRead} {f : Frame} {P : State → Prop}
    (first : (s.slice g n).pipe = id :: l) (found : s.frame id = some f)
    (holds : let u := s.leftPipe g n l f
      let r := u.jobResult g n f bad rd
      P ((if id ∈ (s.group g).store then
        (r.2.modFrame id fun f => { f with result := some r.1, slice := some n, tResult := some r.2.time.now }).showGroup g
        else ((u.sprCount g 5).frameGone id).showGroup g).withQueue s.pending)) : goesTo (exec (.sliceResult g n bad rd) s) P := by
  have group := (leftPipe_jobsKept s g n l f).group g
  show goesTo (execSliceResult g n bad rd s) P
  refine goesTo_act ?_
  rw [first]
  dsimp -zeta only
  extract_lets left
  rw [show left.frame id = some f from found]
  dsimp -zeta only
  extract_lets slow
  have same : (slow.group g).store.contains id = decide (id ∈ (s.group g).store) := by
    rw [← group]
    exact List.contains_eq_mem _ _
  simp only [same, decide_eq_true_eq]
  exact holds

/-- A job in the store has a result of the slice. -/
theorem sliceResult_answers {s : State} {g n id : Nat} {l bad : List Nat} {rd : MatchRead} {f : Frame} (first : (s.slice g n).pipe = id :: l)
    (found : s.frame id = some f) (stored : id ∈ (s.group g).store) :
    goesTo (exec (.sliceResult g n bad rd) s) fun t => t.frame id = some { f with
      result := some ((s.leftPipe g n l f).jobResult g n f bad rd).1, slice := some n,
      tResult := some ((s.leftPipe g n l f).jobResult g n f bad rd).2.time.now } := by
  have kept : JobsKept s ((s.leftPipe g n l f).jobResult g n f bad rd).2 := .jobResult (leftPipe_jobsKept s g n l f)
  refine goesTo_sliceResult first found ?_
  dsimp only
  rw [if_pos stored, frame_withQueue, frame_showGroup]
  exact frame_modFrame_same _ ((kept.frame id).trans found)

/-- The result of a job that has left the store is STALE, and its frame is gone (R164). -/
theorem sliceResult_stale {s : State} {g n id : Nat} {l bad : List Nat} {rd : MatchRead} {f : Frame} (first : (s.slice g n).pipe = id :: l)
    (found : s.frame id = some f) (left : id ∉ (s.group g).store)
    (fast : s.time.cycles - f.took.getD s.time.cycles ≤ max 352 (s.fget F.SPR_SLOW.mark g)) :
    goesTo (exec (.sliceResult g n bad rd) s) fun t => countedUp s t F.SPR_CNT.count g 5 1 ∧ t.frame id = none := by
  let taken := s.modJobs g n fun q => { q with pipe := l }
  let gone := (taken.sprCount g 5).frameGone id
  have before : taken.fget F.SPR_CNT.count g 5 = s.fget F.SPR_CNT.count g 5 :=
    (Within.modJobs (rs := [.SPR_SLICE]) (.refl s) (by decide)).fget F.SPR_CNT.count g 5 (by decide)
  have after : (gone.showGroup g).fget F.SPR_CNT.count g 5 = (taken.sprCount g 5).fget F.SPR_CNT.count g 5 :=
    ((showGroup_within gone g).fget F.SPR_CNT.count g 5 (by decide)).trans
      ((Within.frameGone (.refl (taken.sprCount g 5))).fget F.SPR_CNT.count g 5 (by decide))
  refine goesTo_sliceResult first found ?_
  dsimp only
  rw [if_neg left, leftPipe_fast fast, countedUp_withQueue, frame_withQueue, frame_showGroup]
  exact ⟨countedUp_congr (taken.countedUp_bump g 5 1 (by decide)) before after, frame_frameGone _ id⟩

/-! ## What a decision is read from (R168, R170) -/

/-- The words of the sections in force are read from the planes, the bank map and the generation. -/
theorem Within.pword {rs : List Reg} {s t : State} (h : Within rs s t) (gen : .IMG_GEN ∉ rs) (scope tag type i : Nat) :
    t.pword scope tag type i = s.pword scope tag type i := by
  have now : t.tagNow = s.tagNow := h.fget F.IMG_GEN.tag 0 0 gen
  simp only [State.pword, State.bankOf, State.scope, State.plane, now, h.planes, h.image]

section
variable {s t : State} (words : ∀ scope tag type i, t.pword scope tag type i = s.pword scope tag type i)
include words

theorem pword_congr : t.pword = s.pword := by
  funext scope tag type i
  exact words scope tag type i

theorem frameTenant_congr (f : Frame) : t.frameTenant f = s.frameTenant f := by
  delta State.frameTenant State.partnerTenant State.exclusiveT State.ruleOn State.ruleStag State.ruleChassis State.setFor
  delta State.sharesPortT State.holdsPortT State.ownerSet State.portWord State.ruleWord State.partWordT
  rw [pword_congr words]

theorem selectProfile_congr (tag n port pre : Nat) (bs : List Byte) : t.selectProfile tag n port pre bs = s.selectProfile tag n port pre bs := by
  delta State.selectProfile State.selHit State.selWord State.partWordT
  rw [pword_congr words]

end

/-- A frame that no profile of its tenant describes is dropped with reason 1, where the tenant does not punt such frames (R170, R185). -/
theorem classify_undescribed {s : State} {g n : Nat} {f : Frame} {rd : MatchRead} (plain : f.lldp = false)
    (described : s.selectProfile f.tag (s.frameTenant f) (if f.injected.isSome then 255 else f.port) f.pre f.bytes = none)
    (silent : s.flag F.PRS_TEN.nomatch_punt (s.frameTenant f) = false) :
    (s.classify g n f rd).1.kind = 3 ∧ (s.classify g n f rd).1.dest = 1 ∧ (s.classify g n f rd).1.tenant = s.frameTenant f := by
  let counted := s.bump F.PRS_CNT.count (s.frameTenant f) 0
  have within : Within [.PRS_CNT] s counted := .bump (.refl s) (by decide)
  have none_ : counted.selectProfile f.tag (s.frameTenant f) (if f.injected.isSome then 255 else f.port) f.pre f.bytes = none :=
    (selectProfile_congr (within.pword (by decide)) _ _ _ _ _).trans described
  have quiet : counted.flag F.PRS_TEN.nomatch_punt (s.frameTenant f) = false := (within.flag _ _ _ (by decide)).trans silent
  unfold State.classify
  extract_lets t r u
  rw [if_neg (by simp [plain]), show u.selectProfile f.tag t (if f.injected.isSome then 255 else f.port) f.pre f.bytes = none from none_]
  dsimp -zeta only
  rw [show u.flag F.PRS_TEN.nomatch_punt t = false from quiet]
  exact ⟨rfl, rfl, rfl⟩

/-- The result of a job within the mark that no profile describes (R185). -/
theorem jobResult_undescribed {s : State} {g n : Nat} {l : List Nat} {f : Frame} {rd : MatchRead} (whole : f.failed = false)
    (plain : f.lldp = false) (fast : s.time.cycles - f.took.getD s.time.cycles ≤ max 352 (s.fget F.SPR_SLOW.mark g))
    (described : s.selectProfile f.tag (s.frameTenant f) (if f.injected.isSome then 255 else f.port) f.pre f.bytes = none)
    (silent : s.flag F.PRS_TEN.nomatch_punt (s.frameTenant f) = false) :
    let r := ((s.leftPipe g n l f).jobResult g n f [] rd).1
    r.kind = 3 ∧ r.dest = 1 ∧ r.tenant = s.frameTenant f := by
  let taken := s.modJobs g n fun q => { q with pipe := l }
  let woken := taken.wakeBanks g f.tag (taken.frameTenant f)
  have moved : Within [.SPR_SLICE] s taken := .modJobs (.refl s) (by decide)
  have within : Within [.SPR_SLICE] s woken := moved.beside rfl rfl rfl rfl
  have words := within.pword (by decide)
  have tenant : woken.frameTenant f = s.frameTenant f := frameTenant_congr words f
  have decided : (s.leftPipe g n l f).jobResult g n f [] rd = woken.classify g n f rd := by
    rw [leftPipe_fast fast]
    simp [State.jobResult, whole, plain, byUnit, woken, taken]
  have ended := classify_undescribed (s := woken) (g := g) (n := n) (rd := rd) plain
    (by rw [tenant]; exact (selectProfile_congr words _ _ _ _ _).trans described)
    (by rw [tenant]; exact (within.flag _ _ _ (by decide)).trans silent)
  rw [decided]
  rwa [tenant] at ended

/-! ## The statement -/

/-- Settles O23: a stored job has a result, a job that has left is STALE, and a late one leaves. -/
theorem slicesDecideResults : Obligations.SlicesDecideResults := by
  unfold Obligations.SlicesDecideResults
  refine ⟨fun s g n id l bad rd f first found stored => ?answers, fun s g n id l rd f first found stored whole plain fast described silent => ?drops,
    fun s g n id l rd f first found left _ fast => sliceResult_stale first found left fast, fun s id f => jobLate_leaves⟩
  case answers =>
    obtain ⟨t, ran, frame⟩ := sliceResult_answers (bad := bad) (rd := rd) first found stored
    exact ⟨t, ran, _, frame, rfl, rfl⟩
  case drops =>
    obtain ⟨t, ran, frame⟩ := sliceResult_answers (bad := []) (rd := rd) first found stored
    exact ⟨t, ran, _, _, frame, rfl, jobResult_undescribed whole plain fast described silent⟩

end Sys2Proof.Machine
end

section
/-! PROOFS. Register commands of the parser, switch core, buffer manager, deep buffer and rewrite engines (R178, R181, R183, R288, R292, R308,
R314, R319, R377), which settle O35. -/

namespace Sys2Proof.Machine

/-! ## Commands that write a register -/

/-- A command that is a write of a register of one word has that register's effect, where the register has taken the value. -/
theorem goesTo_took {s : State} {f : Func} {r : Reg} {i c v : Nat} {P : State → Prop} (taken : opens s f r i c)
    (word : r.place.wide = false) (rwl : isRwl r = false) (ind : isInd r = false) (lock : r ≠ .CPH_LOCK) (ctl : r ≠ .MAC_CTL) (set : r ≠ .SCH_SET)
    (holds : P (((s.tookValue f r c i v).wrote f r c i (s.rd r c i) (BitVec.ofNat 72 (v % 2 ^ 36)) (s.portAdmin c) 0 none).withQueue s.pending)) :
    goesTo (s.act fun s => s.writeTo f r i v) P :=
  goesTo_act (by rwa [writeTo_took v taken word rwl ind lock ctl set])

/-- The state in which a slot's commit has stored a word in a register. -/
def State.stored (s : State) (f : Func) (a : Nat) (r : Reg) (c i v : Nat) : State :=
  (s.emptyHalf f a).wr r c i (maskWrite r (s.rd r c i) (BitVec.ofNat 72 (v % 2 ^ 36)))

/-- A write of a partition's copy of a register, as the copy takes it, has that register's effect (R93). -/
theorem writePart_stored {s : State} {f : Func} {r : Reg} {p i : Nat} (v : Nat) (taken : opensPart s f r p i)
    (word : r.place.wide = false) (rwl : isRwl r = false) (ind : isInd r = false) (lock : r ≠ .CPH_LOCK) (ctl : r ≠ .MAC_CTL) (set : r ≠ .SCH_SET) :
    s.writePart f r p i v =
      (s.stored f (partAddr f r p i / 8 * 8) r p i v).wrote f r p i (s.rd r p i) (BitVec.ofNat 72 (v % 2 ^ 36)) (s.portAdmin p) 0 none := by
  obtain ⟨reaches, target⟩ := taken
  have code := writeCode_plain s f r p (BitVec.ofNat 72 (v % 2 ^ 36)) rwl lock
  have low : v % 2 ^ 64 % 2 ^ 36 = v % 2 ^ 36 := Nat.mod_mod_of_dvd v (Nat.pow_dvd_pow 2 (by omega))
  change s.regWrite f (partAddr f r p i) v = _
  unfold State.regWrite State.writeWord
  rw [reaches, if_pos rfl, target]
  simp only [State.commit, State.commitValue, word, low, code, Bool.false_and, Bool.false_eq_true, if_false, ne_eq, not_true]
  rw [putReg_plain _ f r p i _ 0 none rwl ind ctl set]
  rfl

/-- A command that writes a partition's copy of a register has that register's effect, where the copy has taken the value. -/
theorem goesTo_writePart {s : State} {f : Func} {r : Reg} {p i v : Nat} {P : State → Prop} (taken : opensPart s f r p i)
    (word : r.place.wide = false) (rwl : isRwl r = false) (ind : isInd r = false) (lock : r ≠ .CPH_LOCK) (ctl : r ≠ .MAC_CTL) (set : r ≠ .SCH_SET)
    (holds : P (((s.stored f (partAddr f r p i / 8 * 8) r p i v).wrote f r p i (s.rd r p i) (BitVec.ofNat 72 (v % 2 ^ 36))
      (s.portAdmin p) 0 none).withQueue s.pending)) :
    goesTo (s.act fun s => s.writePart f r p i v) P :=
  goesTo_act (by rwa [writePart_stored v taken word rwl ind lock ctl set])

/-! ## The buckets and filters of the parser (R178, R181, R183) -/

theorem prsAdmitWrite_fills {s : State} {f : Func} {p g : Nat} (v : Nat) (taken : opensPart s f .PRS_ADMIT p g) :
    goesTo (exec (.prsAdmitWrite f p g v) s) fun t =>
      t.rd .PRS_ADMIT p g = maskWrite .PRS_ADMIT (s.rd .PRS_ADMIT p g) (BitVec.ofNat 72 (v % 2 ^ 36)) ∧
        tabFind t.buckets (2 ^ 24 + g * 32 + p) = none := by
  refine goesTo_writePart taken rfl (by decide) rfl (by decide) (by decide) (by decide) ?_
  rw [wrote_PRS_ADMIT]
  exact ⟨State.rd_wr_same .., tabFind_erase_same ..⟩

theorem prsPuntWrite_fills {s : State} {f : Func} {p n : Nat} (v : Nat) (taken : opensPart s f .PRS_PUNT p (n - 1)) :
    goesTo (exec (.prsPuntWrite f p n v) s) fun t =>
      t.rd .PRS_PUNT p (n - 1) = maskWrite .PRS_PUNT (s.rd .PRS_PUNT p (n - 1)) (BitVec.ofNat 72 (v % 2 ^ 36)) ∧
        tabFind t.buckets (2 ^ 25 + p * 8 + (n - 1) + 1) = none := by
  refine goesTo_writePart taken rfl (by decide) rfl (by decide) (by decide) (by decide) ?_
  rw [wrote_PRS_PUNT]
  exact ⟨State.rd_wr_same .., tabFind_erase_same ..⟩

theorem wrote_PRS_IND_DATA (s : State) (f : Func) (c i : Nat) (old v : RegVal) (was : Bool) (host : Nat) (head : Option (List Byte)) :
    s.wrote f .PRS_IND_DATA c i old v was host head = s.wrotePrs f .PRS_IND_DATA c i v := by
  unfold State.wrote
  rw [show selRegs.contains .PRS_IND_DATA = false from rfl, show blockOf (Reg.place .PRS_IND_DATA).addr = 3 from rfl]
  rfl

/-- A write of `PRS_IND_DATA` at filter state goes to no SHADOW bank: it unblocks the filter addressed (R178). -/
theorem filterUnblock_unblocks {s : State} {f : Func} {v c sc ty k : Nat} (taken : opens s f .PRS_IND_DATA 0 c)
    (addressed : s.prsInd f = some (4, sc, ty, k)) (set : v.testBit 0 = true) :
    goesTo (exec (.filterUnblock f v) s) fun t => tabGet 0 t.blocked k = 0 := by
  let u := s.emptyHalf f (slotOf .PRS_IND_DATA 0)
  have there : u.prsInd f = some (4, sc, ty, k) := addressed
  have state (t : State) (ind : t.prsInd f = some (4, sc, ty, k)) : t.filterState f .PRS_IND_DATA = true := by
    unfold State.filterState
    rw [ind]
    rfl
  have code : s.writeCode f .PRS_IND_DATA c (BitVec.ofNat 72 (v % 2 ^ 36)) = 0 := by
    unfold State.writeCode
    simp [state s addressed]
  have written : u.asWritten f .PRS_IND_DATA c 0 (BitVec.ofNat 72 (v % 2 ^ 36)) = BitVec.ofNat 72 (v % 2 ^ 36) := by
    cases f <;> rfl
  have one : fldGet (BitVec.ofNat 72 (v % 2 ^ 36)) 0 0 = 1 := by
    rw [fldGet_written v (by decide)]
    simpa [Nat.testBit_zero] using set
  have effect : s.writeTo f .PRS_IND_DATA 0 v = { u with blocked := tabErase u.blocked k } := by
    rw [writeTo_opens v 0 none taken rfl code]
    change u.putReg f .PRS_IND_DATA c 0 _ 0 none = _
    unfold State.putReg
    rw [state u there, written, show isInd .PRS_IND_DATA = true from rfl]
    simp only [Bool.not_true, Bool.and_false, Bool.false_eq_true, if_false, if_true]
    rw [wrote_PRS_IND_DATA]
    unfold State.wrotePrs
    rw [there]
    simp only [one, if_true]
  exact ⟨_, rfl, (congrArg (fun t : State => tabGet 0 t.blocked k) effect).trans (tabGet_erase_same ..)⟩

/-! ## The watch list (R288) -/

theorem bit_of_div (v b : Nat) : bit v b = decide (v / 2 ^ b % 2 = 1) := by
  rw [bit, Nat.shiftRight_eq_div_pow]

/-- The command to write an entry of the watch list, as `SWC_WATCH_CMD` takes it: `go`, `write` and the entry. -/
theorem watchWrite_fields (i : Nat) :
    let v := (2 ^ 35 + 2 ^ 34 + i % 2 ^ 12) % 2 ^ 36
    bit v 35 = true ∧ bit v 34 = true ∧ bits v 11 0 = i % 4096 := by
  dsimp only
  rw [bit_of_div, bit_of_div, decide_eq_true_eq, decide_eq_true_eq, bits, Nat.shiftRight_zero]
  omega

/-- The command to read an entry of the watch list. -/
theorem watchRead_fields (i : Nat) :
    let v := (2 ^ 35 + i % 2 ^ 12) % 2 ^ 36
    bit v 35 = true ∧ bit v 34 = false ∧ bits v 11 0 = i % 4096 := by
  dsimp only
  rw [bit_of_div, bit_of_div, decide_eq_true_eq, decide_eq_false_iff_not, bits, Nat.shiftRight_zero]
  omega

theorem effWatchCmd_write {s : State} {f : Func} {v : Nat} (go : bit v 35 = true) (write : bit v 34 = true)
    (known : bits (s.rd .SWC_WATCH0 f.idx).toNat 30 26 < 17) :
    s.effWatchCmd f v = State.fset { s with
      watch := tabSet (0, 0) s.watch (bits v 11 0) ((s.rd .SWC_WATCH0 f.idx).toNat, (s.rd .SWC_WATCH1 f.idx).toNat) }
      F.SWC_WATCH_CMD.result f.idx 0 0 := by
  unfold State.effWatchCmd
  simp only [go, write, Bool.not_true, Bool.false_eq_true, if_false, if_true, if_neg (Nat.not_le.2 known)]

theorem effWatchCmd_read {s : State} {f : Func} {v : Nat} (go : bit v 35 = true) (read : bit v 34 = false) :
    s.effWatchCmd f v = ((s.wr .SWC_WATCH0 f.idx 0 (BitVec.ofNat 72 (tabGet (0, 0) s.watch (bits v 11 0)).1)).wr .SWC_WATCH1 f.idx 0
      (BitVec.ofNat 72 (tabGet (0, 0) s.watch (bits v 11 0)).2)).fset F.SWC_WATCH_CMD.result f.idx 0 0 := by
  unfold State.effWatchCmd
  simp only [go, read, Bool.not_true, Bool.false_eq_true, if_false]

theorem swcWatchWrite_stores {s : State} {f : Func} {c : Nat} (i : Nat) (taken : opens s f .SWC_WATCH_CMD 0 c)
    (known : bits (s.rd .SWC_WATCH0 f.idx).toNat 30 26 < 17) :
    goesTo (exec (.swcWatchWrite f i) s) fun t =>
      tabGet (0, 0) t.watch (i % 4096) = ((s.rd .SWC_WATCH0 f.idx).toNat, (s.rd .SWC_WATCH1 f.idx).toNat) ∧
        t.fget F.SWC_WATCH_CMD.result f.idx = 0 := by
  obtain ⟨go, write, index⟩ := watchWrite_fields i
  refine goesTo_took taken rfl (by decide) rfl (by decide) (by decide) (by decide) ?_
  have only := tookValue_regsOnly s f .SWC_WATCH_CMD c 0 (2 ^ 35 + 2 ^ 34 + i % 2 ^ 12)
  generalize s.tookValue f .SWC_WATCH_CMD c 0 (2 ^ 35 + 2 ^ 34 + i % 2 ^ 12) = u at only
  have w0 : u.rd .SWC_WATCH0 f.idx = s.rd .SWC_WATCH0 f.idx := only.2 _ _ _ (by decide)
  have w1 : u.rd .SWC_WATCH1 f.idx = s.rd .SWC_WATCH1 f.idx := only.2 _ _ _ (by decide)
  rw [wrote_SWC_WATCH_CMD, toNat_written, effWatchCmd_write go write (by rw [w0]; exact known), index, w0, w1]
  rw [State.fget_withQueue, State.fget_fset_same _ _ _ _ (by decide)]
  exact ⟨tabGet_set_same .., rfl⟩

theorem swcWatchRead_shows {s : State} {f : Func} {c : Nat} (i : Nat) (taken : opens s f .SWC_WATCH_CMD 0 c) :
    goesTo (exec (.swcWatchRead f i) s) fun t =>
      t.rd .SWC_WATCH0 f.idx = BitVec.ofNat 72 (tabGet (0, 0) s.watch (i % 4096)).1 ∧
      t.rd .SWC_WATCH1 f.idx = BitVec.ofNat 72 (tabGet (0, 0) s.watch (i % 4096)).2 ∧ t.fget F.SWC_WATCH_CMD.result f.idx = 0 := by
  obtain ⟨go, read, index⟩ := watchRead_fields i
  refine goesTo_took taken rfl (by decide) rfl (by decide) (by decide) (by decide) ?_
  have only := tookValue_regsOnly s f .SWC_WATCH_CMD c 0 (2 ^ 35 + i % 2 ^ 12)
  generalize s.tookValue f .SWC_WATCH_CMD c 0 (2 ^ 35 + i % 2 ^ 12) = u at only
  have list : u.watch = s.watch := by rw [only.1]
  rw [wrote_SWC_WATCH_CMD, toNat_written, effWatchCmd_read go read, index, list]
  rw [State.fget_withQueue, State.fget_fset_same _ _ _ _ (by decide), State.rd_withQueue, State.rd_withQueue]
  refine ⟨?_, ?_, rfl⟩
  · rw [State.rd_fset_reg (r := .SWC_WATCH0) (f := F.SWC_WATCH_CMD.result) (h := by decide),
      State.rd_wr_reg (q := .SWC_WATCH0) (r := .SWC_WATCH1) (h := by decide), State.rd_wr_same]
  · rw [State.rd_fset_reg (r := .SWC_WATCH1) (f := F.SWC_WATCH_CMD.result) (h := by decide), State.rd_wr_same]

/-! ## Inspecting and reclaiming buffers (R276, R292) -/

theorem bufs_setXoff (s : State) (p c : Nat) (on : Bool) : (s.setXoff p c on).bufs = s.bufs := by
  unfold State.setXoff
  extract_lets old new t
  split
  · rfl
  · rfl

theorem bufs_pfcCount (s : State) (p c : Nat) (up : Bool) (n : Nat) : (s.pfcCount p c up n).bufs = s.bufs := by
  unfold State.pfcCount
  extract_lets t xoff on m
  have counted : t.bufs = s.bufs := by
    change (ite _ _ _ : State).bufs = _
    split
    · rfl
    · rfl
  have changed (b : Bool) : (t.setXoff p c b).bufs = s.bufs := (bufs_setXoff t p c b).trans counted
  split
  · split
    · exact changed false
    · exact counted
  · split
    · exact changed true
    · split
      · exact changed false
      · exact counted

theorem bufs_leaveWindows (s : State) (h : Nat) (keeps : Nat → Bool) : (s.leaveWindows h keeps).bufs = s.bufs := by
  unfold State.leaveWindows
  exact foldl_rel (R := fun s t : State => t.bufs = s.bufs) (fun _ => rfl) (fun h k => k.trans h) (fun u e => u.modThr_bufs _ _) _ s

theorem bufs_uncharge (s : State) (a : Acct) (u : Nat) : (s.uncharge a u).bufs = s.bufs := by
  cases a <;> rfl

theorem bufs_emitBoth (s : State) (p cls : Nat) (r : Record) : (s.emitBoth p cls r).bufs = s.bufs := by
  obtain ⟨⟨_, _, _, _, sent⟩, _⟩ := emitBoth_sentOnly s p cls r
  rw [sent]

/-- A buffer that is freed is no longer held (R272). -/
theorem buf_freeBuf (s : State) (h : Nat) : (s.freeBuf h).buf h = none := by
  unfold State.freeBuf
  split
  next free => exact free
  next b held =>
    extract_lets u t flt v
    have counted : t.bufs = tabErase s.bufs h :=
      (bufs_uncharge _ _ _).trans (bufs_leaveWindows { s with bufs := tabErase s.bufs h } h _)
    have withdrawn : v.bufs = t.bufs := by
      change (ite _ _ _ : State).bufs = _
      split
      · rfl
      · rfl
    have erased : tabFind v.bufs h = none := by
      rw [withdrawn, counted]
      exact tabFind_erase_same ..
    clear_value v
    unfold State.buf
    split
    · rw [bufs_pfcCount]
      exact erased
    · exact erased

/-- What the owner's write of `BPM_INSPECT` shows: that it is done, and BAD_HANDLE or none. -/
theorem effBpmInspect_answers (s : State) {f : Func} (h : Nat) (owner : f.part = 16) :
    ∃ (t : State) (r : RegVal), t.bufs = s.bufs ∧
      s.effBpmInspect f h = (t.wr .BPM_OPRES f.idx 0 (BitVec.ofNat 72 (2 ^ 35 + if s.handleOk h then 0 else 2))).wr .BPM_INSPECT_R f.idx 0 r := by
  unfold State.effBpmInspect
  rw [owner]
  cases s.handleOk h with
  | false => exact ⟨_, _, State.bump_bufs .., rfl⟩
  | true =>
    simp only [Bool.not_true, Bool.false_eq_true, if_false, if_true]
    split
    · exact ⟨s, _, rfl, if_neg (Nat.lt_irrefl 16)⟩
    · exact ⟨s, _, rfl, if_neg fun foreign => Nat.lt_irrefl 16 foreign.1⟩

theorem opStatus_reclaim (s : State) (unit : Nat) {b : Buf} (quar : b.quar = true) (last : b.count = 1) :
    s.opStatus unit 16 opReclaim 0 b = 0 := by
  unfold State.opStatus
  simp [opReclaim, opRelease, opLeave, opRetain, opFree, opGive, quar, last]

theorem opEffect_reclaim (s : State) (unit h arg : Nat) (b : Buf) :
    s.opEffect unit opReclaim h arg b =
      ((((s.setBuf h { b with quar := false }).freeBuf h).drop F.BPM_QUAR.buffers b.part 0).bpmCount b.part 13).bufRecord
        0x5A unit b.part h opReclaim 0 b.tag b.count := rfl

/-- A quarantined buffer at count 1 that the owner reclaims is freed (R276). -/
theorem bpmOp_reclaim {s : State} {unit h : Nat} {b : Buf} (known : s.handleOk h = true) (held : s.buf h = some b) (quar : b.quar = true)
    (last : b.count = 1) : ∃ t, s.bpmOp unit 16 opReclaim h 0 = (0, t) ∧ t.buf h = none := by
  refine ⟨s.opEffect unit opReclaim h 0 b, ?_, ?_⟩
  · unfold State.bpmOp
    simp [known, held, opStatus_reclaim s unit quar last]
  · rw [opEffect_reclaim, State.buf, State.bufRecord, bufs_emitBoth]
    exact buf_freeBuf _ h

theorem Within.poolWord {rs : List Reg} {s t : State} (h : Within rs s t) (gen : .IMG_GEN ∉ rs) : t.poolWord = s.poolWord := by
  have now : t.tagNow = s.tagNow := h.fget F.IMG_GEN.tag 0 0 gen
  funext i
  rw [State.poolWord, now]
  exact h.pword gen 16 s.tagNow 7 i

/-- Which handles name buffers is read from the words of POOLS (R270). -/
theorem handleOk_congr {s t : State} (words : t.poolWord = s.poolWord) (h : Nat) : t.handleOk h = s.handleOk h := by
  delta State.handleOk State.poolCount State.poolExists State.poolSize
  rw [words]

theorem bpmInspectWrite_shows {s : State} {f : Func} {c : Nat} (h : Nat) (taken : opens s f .BPM_INSPECT 0 c) (owner : f.part = 16) :
    goesTo (exec (.bpmInspectWrite f h) s) fun t =>
      t.rd .BPM_OPRES f.idx = BitVec.ofNat 72 (2 ^ 35 + if s.handleOk (h % 2 ^ 36) then 0 else 2) ∧ t.bufs = s.bufs := by
  refine goesTo_took taken rfl (by decide) rfl (by decide) (by decide) (by decide) ?_
  have only := tookValue_regsOnly s f .BPM_INSPECT c 0 h
  generalize s.tookValue f .BPM_INSPECT c 0 h = u at only
  obtain ⟨t, r, bufs, shown⟩ := effBpmInspect_answers u (h % 2 ^ 36) owner
  rw [wrote_BPM_INSPECT, fldGet_written h (by decide), shown, State.rd_withQueue,
    State.rd_wr_reg (q := .BPM_OPRES) (r := .BPM_INSPECT_R) (h := by decide), State.rd_wr_same, handleOk_congr (only.within.poolWord (by decide))]
  exact ⟨rfl, bufs.trans (by rw [only.1])⟩

theorem bpmReclaimWrite_frees {s : State} {f : Func} {h c : Nat} {b : Buf} (taken : opens s f .BPM_RECLAIM 0 c) (owner : f.part = 16)
    (known : s.handleOk (h % 2 ^ 36) = true) (held : s.buf (h % 2 ^ 36) = some b) (quar : b.quar = true) (last : b.count = 1) :
    goesTo (exec (.bpmReclaimWrite f h) s) fun t => t.rd .BPM_OPRES f.idx = BitVec.ofNat 72 (2 ^ 35) ∧ t.buf (h % 2 ^ 36) = none := by
  refine goesTo_took taken rfl (by decide) rfl (by decide) (by decide) (by decide) ?_
  have only := tookValue_regsOnly s f .BPM_RECLAIM c 0 h
  generalize s.tookValue f .BPM_RECLAIM c 0 h = u at only
  have knows : u.handleOk (h % 2 ^ 36) = true := (handleOk_congr (only.within.poolWord (by decide)) _).trans known
  have holds : u.buf (h % 2 ^ 36) = some b := by rw [only.1]; exact held
  obtain ⟨t, accepted, freed⟩ := bpmOp_reclaim (unit := 0xFFF) knows holds quar last
  have effect : u.effBpmReclaim f (h % 2 ^ 36) = t.wr .BPM_OPRES f.idx 0 (BitVec.ofNat 72 (2 ^ 35)) := by
    unfold State.effBpmReclaim
    rw [owner, accepted, knows]
    rfl
  rw [wrote_BPM_RECLAIM, fldGet_written h (by decide), effect, State.rd_withQueue]
  exact ⟨State.rd_wr_same .., freed⟩

/-! ## The stacks of the deep buffer (R308, R314, R319) -/

theorem hbcClose_closes {s : State} {f : Func} {h : Nat} (taken : opens s f .HBC_CTL 0 h) (open_ : s.fget F.HBC_STACK.state h = 1) :
    goesTo (exec (.hbcClose f) s) fun t => t.fget F.HBC_STACK.state h = 2 := by
  refine goesTo_took taken rfl (by decide) rfl (by decide) (by decide) (by decide) ?_
  have only := tookValue_regsOnly s f .HBC_CTL h 0 1
  generalize s.tookValue f .HBC_CTL h 0 1 = u at only
  have still : u.fget F.HBC_STACK.state h = 1 := (only.fget _ _ _ (by decide)).trans open_
  have effect : u.effHbcCtl h (1 % 2 ^ 36) = u.fset F.HBC_STACK.state h 0 2 := if_pos still
  rw [wrote_HBC_CTL, toNat_written, effect, State.fget_withQueue]
  exact State.fget_fset_same _ _ _ 2 (by decide)

theorem hbcOpen_opens {s : State} {f : Func} {h : Nat} (taken : opens s f .HBC_CTL 0 h) (closed : s.fget F.HBC_STACK.state h = 2) :
    goesTo (exec (.hbcOpen f) s) fun t => t.fget F.HBC_STACK.state h = 1 := by
  refine goesTo_took taken rfl (by decide) rfl (by decide) (by decide) (by decide) ?_
  have only := tookValue_regsOnly s f .HBC_CTL h 0 2
  generalize s.tookValue f .HBC_CTL h 0 2 = u at only
  have still : u.fget F.HBC_STACK.state h = 2 := (only.fget _ _ _ (by decide)).trans closed
  have effect : u.effHbcCtl h (2 % 2 ^ 36) = u.fset F.HBC_STACK.state h 0 1 := if_pos still
  rw [wrote_HBC_CTL, toNat_written, effect, State.fget_withQueue]
  exact State.fget_fset_same _ _ _ 1 (by decide)

/-- A visit to an ACTIVE pseudo-channel takes the bench one, with no copy running (R314). -/
theorem visit_copies {s : State} {h p b : Nat} (active : s.fget F.HBC_PC.state h p = 0) (free : s.hbmCopying h = false)
    (bench : s.benchPc h = some b) : (s.visit h p).fget F.HBC_PC.state h b = 2 := by
  have visited : s.visit h p = State.showBench { s.fset F.HBC_PC.state h b 2 with
      hbm := { s.hbm with visits := s.hbm.visits ++ [({ stack := h, src := p, dst := b } : HbmVisit)] } } h := by
    unfold State.visit
    rw [if_neg (by simp [active, free]), bench]
    rfl
  rw [visited, State.showBench, State.fget_fset_reg (f := F.HBC_STACK.bench) (g := F.HBC_PC.state) (h := by decide)]
  change (s.fset F.HBC_PC.state h b 2).fget F.HBC_PC.state h b = 2
  exact State.fget_fset_same _ _ _ 2 (by decide)

theorem retrain_fields (p : Nat) : let v := (3 + p % 32 * 2 ^ 2) % 2 ^ 36
    bits v 1 0 = 3 ∧ bits v 6 2 = p % 32 := by
  dsimp only
  rw [bits, bits, Nat.shiftRight_zero, Nat.shiftRight_eq_div_pow]
  omega

theorem hbcRetrain_visits {s : State} {f : Func} {h p b : Nat} (taken : opens s f .HBC_CTL 0 h)
    (active : s.fget F.HBC_PC.state h (p % 32) = 0) (free : s.hbmCopying h = false) (bench : s.benchPc h = some b) :
    goesTo (exec (.hbcRetrain f p) s) fun t => t.fget F.HBC_PC.state h b = 2 := by
  obtain ⟨retrain, channel⟩ := retrain_fields p
  refine goesTo_took taken rfl (by decide) rfl (by decide) (by decide) (by decide) ?_
  have only := tookValue_regsOnly s f .HBC_CTL h 0 (3 + p % 32 * 2 ^ 2)
  generalize s.tookValue f .HBC_CTL h 0 (3 + p % 32 * 2 ^ 2) = u at only
  have states (i : Nat) : u.fget F.HBC_PC.state h i = s.fget F.HBC_PC.state h i := only.fget _ _ _ (by decide)
  have effect : u.effHbcCtl h ((3 + p % 32 * 2 ^ 2) % 2 ^ 36) = u.visit h (p % 32) := by
    unfold State.effHbcCtl
    rw [retrain, channel]
    rfl
  rw [wrote_HBC_CTL, toNat_written, effect, State.fget_withQueue]
  refine visit_copies ((states _).trans active) ?_ ?_
  · simpa only [State.hbmCopying, states] using free
  · simpa only [State.benchPc, states] using bench

/-- The blocks in use are those of the queues and of the pools (R308). -/
theorem stackUsed_congr {s t : State} (words : t.poolWord = s.poolWord) (queues : t.queues = s.queues) (h : Nat) :
    t.stackUsed h = s.stackUsed h := by
  delta State.stackUsed State.pcUsed State.poolBlocks State.poolDeep State.poolBase State.poolCount State.poolExists State.poolSize
  rw [words, queues]

theorem hbcBmaskWrite_masks {s : State} {f : Func} {i h : Nat} (v : Nat) (taken : opens s f .HBC_BMASK i h) :
    goesTo (exec (.hbcBmaskWrite f i v) s) fun t =>
      if s.stackUsed h then t.rd .HBC_BMASK h i = s.rd .HBC_BMASK h i ∧ t.flag F.HBC_STACK.mask_err h = true
      else t.rd .HBC_BMASK h i = maskWrite .HBC_BMASK (s.rd .HBC_BMASK h i) (BitVec.ofNat 72 (v % 2 ^ 36)) := by
  refine goesTo_took taken rfl (by decide) rfl (by decide) (by decide) (by decide) ?_
  have only := tookValue_regsOnly s f .HBC_BMASK h i v
  have masked := rd_tookValue s f .HBC_BMASK h i v
  generalize s.tookValue f .HBC_BMASK h i v = u at only masked
  have used : u.stackUsed h = s.stackUsed h := stackUsed_congr (only.within.poolWord (by decide)) (by rw [only.1]) h
  rw [wrote_HBC_BMASK, State.effHbcBmask, used]
  cases s.stackUsed h with
  | true =>
    rw [if_pos rfl, if_pos rfl, State.rd_withQueue, State.flag_withQueue,
      State.rd_fset_reg (r := .HBC_BMASK) (f := F.HBC_STACK.mask_err) (h := by decide), State.rd_wr_same]
    exact ⟨rfl, flag_of_fget (State.fget_fset_same _ _ _ 1 (by decide))⟩
  | false =>
    rw [if_neg Bool.false_ne_true, if_neg Bool.false_ne_true, State.rd_withQueue]
    exact masked

/-! ## Indirect words of the rewrite engines (R377) -/

theorem plane_setPlane (s : State) (sc b : Nat) (p : Plane) : (s.setPlane sc b p).plane sc b = p := tabGet_set_same ..

/-- A tenant does not reach a register of the owner (R91). -/
theorem target_ownerOnly {s : State} {n : Nat} {a : Nat} {r : Reg} {i : Nat} {h write : Bool} (at_ : regAt a = some (r, i, h))
    (owner : r.place.who = .owner) : s.target (.vf n) a write = .refused 1 := by
  unfold State.target
  rw [at_]
  unfold State.openReg State.vfClosed
  simp [owner]

theorem owner_of_opens_rweInd {s : State} {f : Func} {c : Nat} (taken : opens s f .RWE_IND_DATA 0 c) : ∀ n, f ≠ .vf n := by
  rintro n rfl
  obtain ⟨_, target⟩ := taken
  rw [target_ownerOnly (show regAt (slotOf .RWE_IND_DATA 0) = some (.RWE_IND_DATA, 0, false) by decide +kernel) rfl] at target
  cases target

/-- The owner's write of a control-store word of an open scope that no engine has latched is taken (R40, R377). -/
theorem writeCode_rweInd {s : State} {f : Func} {c sp sc k n : Nat} (v : RegVal) (owner : ∀ n, f ≠ .vf n)
    (addressed : s.rweInd f = some (sp, sc, k, n)) (open_ : s.rwlOpen sc = true) (free : s.latchedBy sp sc (s.shadowOf sc) = none) :
    s.writeCode f .RWE_IND_DATA c v = 0 := by
  have target : s.rwlTarget f .RWE_IND_DATA c = sc := by
    unfold State.rwlTarget
    rw [addressed]
  have latched : s.latchedInd f .RWE_IND_DATA = none := by
    unfold State.latchedInd
    rw [if_pos rfl, addressed]
    exact free
  unfold State.writeCode
  cases f with
  | vf m => exact (owner m rfl).elim
  | pf => simp [target, open_, latched]
  | console => simp [target, open_, latched]

theorem words_shadowWord (s : State) (sc t i : Nat) (v : RegVal) :
    ((s.shadowWord sc t i v).plane sc (s.shadowOf sc)).words =
      tabSet 0 (s.plane sc (s.shadowOf sc)).words (t * 2 ^ 28 + i) (BitVec.ofNat 36 (v.toNat % 2 ^ 36)) := by
  unfold State.shadowWord
  dsimp only
  rw [plane_setPlane]
  rfl

/-- A word of microcode or of the header table goes to the SHADOW bank; a written one of the code marks the code as not of the image. -/
theorem rwlPut_rweInd {s : State} {f : Func} {c i sp sc k n : Nat} (v : RegVal) (addressed : s.rweInd f = some (sp, sc, k, n)) (store : sp ≠ 2) :
    tabGet 0 ((s.rwlPut f .RWE_IND_DATA c i v).plane sc (s.shadowOf sc)).words (11 * 2 ^ 28 + k) = BitVec.ofNat 36 (v.toNat % 2 ^ 36) := by
  have put : tabGet 0 ((s.shadowWord sc 11 k v).plane sc (s.shadowOf sc)).words (11 * 2 ^ 28 + k) = BitVec.ofNat 36 (v.toNat % 2 ^ 36) := by
    rw [words_shadowWord]
    exact tabGet_set_same (0 : Word) _ _ _
  unfold State.rwlPut
  rw [addressed]
  dsimp only
  split
  next same => cases same; exact absurd rfl store
  next same =>
    cases same
    split
    · have marked := words_shadowWord (s.shadowWord sc 11 k v) sc 11 150000 0
      change (State.plane _ sc (s.shadowOf sc)).words = _ at marked
      rw [marked, tabGet_set_ne _ _ _ (by omega)]
      exact put
    · exact put
  next none_ => cases none_

theorem rweIndWrite_stores {s : State} {f : Func} {v c sp sc k n : Nat} (taken : opens s f .RWE_IND_DATA 0 c)
    (addressed : s.rweInd f = some (sp, sc, k, n)) (store : sp ≠ 2) (open_ : s.rwlOpen sc = true)
    (free : s.latchedBy sp sc (s.shadowOf sc) = none) :
    goesTo (exec (.rweIndWrite f v) s) fun t =>
      tabGet 0 (t.plane sc (s.shadowOf sc)).words (11 * 2 ^ 28 + k) = BitVec.ofNat 36 v := by
  let u := s.emptyHalf f (slotOf .RWE_IND_DATA 0)
  let put := u.rwlPut f .RWE_IND_DATA c 0 (BitVec.ofNat 72 (v % 2 ^ 36))
  have code := writeCode_rweInd (c := c) (BitVec.ofNat 72 (v % 2 ^ 36)) (owner_of_opens_rweInd taken) addressed open_ free
  have effect : s.writeTo f .RWE_IND_DATA 0 v = put.setScopeState (u.rwlTarget f .RWE_IND_DATA c) 4 := by
    rw [writeTo_opens v 0 none taken rfl code]
    unfold State.putReg
    rw [show isRwl .RWE_IND_DATA = true by decide, show u.filterState f .RWE_IND_DATA = false from rfl]
    rfl
  have word := rwlPut_rweInd (s := u) (c := c) (i := 0) (BitVec.ofNat 72 (v % 2 ^ 36)) addressed store
  have value : BitVec.ofNat 36 ((BitVec.ofNat 72 (v % 2 ^ 36)).toNat % 2 ^ 36) = BitVec.ofNat 36 v := by
    rw [toNat_written]
    exact BitVec.eq_of_toNat_eq (by simp)
  refine ⟨_, rfl, ?_⟩
  have planes : (s.writeTo f .RWE_IND_DATA 0 v).plane sc (s.shadowOf sc) = put.plane sc (s.shadowOf sc) := by
    rw [effect, State.plane, (setScopeState_regsOnly put _ 4).planes]
    rfl
  change tabGet 0 ((s.writeTo f .RWE_IND_DATA 0 v).plane sc (s.shadowOf sc)).words (11 * 2 ^ 28 + k) = _
  rw [planes]
  exact word.trans value

/-! ## The statement -/

/-- Settles O35: each write is taken by its register, and the effect of that register follows from the state that the write has stored. -/
theorem memoryBlocksObeyTheirRegisters : Obligations.MemoryBlocksObeyTheirRegisters := by
  unfold Obligations.MemoryBlocksObeyTheirRegisters
  exact ⟨fun _ _ _ _ v => prsAdmitWrite_fills v, fun _ _ _ _ v => prsPuntWrite_fills v, fun _ _ _ _ _ _ _ => filterUnblock_unblocks,
    fun _ _ i _ => swcWatchWrite_stores i, fun _ _ i _ => swcWatchRead_shows i, fun _ _ h _ => bpmInspectWrite_shows h,
    fun _ _ _ _ _ => bpmReclaimWrite_frees, fun _ _ _ => hbcClose_closes, fun _ _ _ => hbcOpen_opens, fun _ _ _ _ _ => hbcRetrain_visits,
    fun _ _ _ v _ => hbcBmaskWrite_masks v, fun _ _ _ _ _ _ _ _ _ => rweIndWrite_stores⟩

end Sys2Proof.Machine
end

section
/-! PROOFS. What leaves the table engine alone (R217, R531–R536): faults and their records, the end of a row's repair, and what completing a command
does beside showing its result. -/

namespace Sys2Proof.Machine

/-! ## The relation -/

/-- From `s` to `t`, the table engine's state is as it was, and all else that `Within` speaks of. -/
structure EngineKept (rs : List Reg) (s t : State) : Prop extends Within rs s t where
  tbl : t.tbl = s.tbl

namespace EngineKept

variable {rs : List Reg} {s t u : State}

theorem refl (s : State) : EngineKept rs s s := ⟨.refl s, rfl⟩

theorem trans (h : EngineKept rs s t) (k : EngineKept rs t u) : EngineKept rs s u := ⟨h.toWithin.trans k.toWithin, k.tbl.trans h.tbl⟩

theorem mono {qs : List Reg} (h : EngineKept rs s t) (sub : rs ⊆ qs) : EngineKept qs s t := ⟨h.toWithin.mono sub, h.tbl⟩

theorem ite {c : Prop} [Decidable c] (h : EngineKept rs s t) (k : EngineKept rs s u) : EngineKept rs s (if c then t else u) := by
  split
  · exact h
  · exact k

/-- A run of steps that each keep the engine keeps it. -/
theorem foldl {α : Type} {f : State → α → State} (h : EngineKept rs s t) (step : ∀ u x, EngineKept rs u (f u x)) (l : List α) :
    EngineKept rs s (l.foldl f t) :=
  h.trans (foldl_rel refl trans step l t)

/-- A change of what the relation does not speak of. -/
theorem beside (h : EngineKept rs s t) (image : u.image = t.image) (planes : u.planes = t.planes) (ports : u.ports = t.ports)
    (regs : u.regs = t.regs) (tbl : u.tbl = t.tbl) : EngineKept rs s u :=
  ⟨h.toWithin.beside image planes ports regs, tbl.trans h.tbl⟩

theorem flt (h : EngineKept rs s t) {x : FaultSt} : EngineKept rs s { t with flt := x } := h.beside rfl rfl rfl rfl rfl

/-! ## Registers, records and words of CMEM -/

theorem wr (h : EngineKept rs s t) {r : Reg} {c i : Nat} {v : RegVal} (mem : r ∈ rs) : EngineKept rs s (t.wr r c i v) :=
  ⟨h.toWithin.wr mem, h.tbl⟩

theorem fset (h : EngineKept rs s t) {f : Fld} {c i n : Nat} (mem : f.reg ∈ rs) : EngineKept rs s (t.fset f c i n) := h.wr mem
theorem bump (h : EngineKept rs s t) {f : Fld} {c i n : Nat} (mem : f.reg ∈ rs) : EngineKept rs s (t.bump f c i n) := h.wr mem
theorem bumpSat (h : EngineKept rs s t) {f : Fld} {c i n : Nat} (mem : f.reg ∈ rs) : EngineKept rs s (t.bumpSat f c i n) := h.wr mem
theorem drop (h : EngineKept rs s t) {f : Fld} {c i n : Nat} (mem : f.reg ∈ rs) : EngineKept rs s (t.drop f c i n) := h.wr mem

theorem sent (h : EngineKept rs s t) (k : sentOnly t u) (sub : recordRegs ⊆ rs) : EngineKept rs s u :=
  ⟨h.toWithin.sent k sub, by obtain ⟨⟨_, _, _, _, rfl⟩, -⟩ := k; exact h.tbl⟩

theorem emitPart (h : EngineKept rs s t) {p cls : Nat} {r : Record} (sub : recordRegs ⊆ rs) : EngineKept rs s (t.emitPart p cls r) :=
  h.sent (emitPart_sentOnly ..) sub

theorem emitBoth (h : EngineKept rs s t) {p cls : Nat} {r : Record} (sub : recordRegs ⊆ rs) : EngineKept rs s (t.emitBoth p cls r) :=
  h.sent (emitBoth_sentOnly ..) sub

theorem cput (h : EngineKept rs s t) {w : Nat} {v : Word} (chan : .DMA_CH_STATUS ∈ rs) (lane : .CPH_STATUS ∈ rs) :
    EngineKept rs s (t.cput w v) := by
  have stored : EngineKept rs s (t.cset w v) := h.beside rfl rfl rfl rfl rfl
  obtain ⟨⟨_, _, _, eq⟩, read⟩ := cput_rereadOnly t w v
  refine stored.trans ⟨⟨by rw [eq], by rw [eq], fun _ => by rw [eq]; exact ⟨rfl, rfl⟩, fun r c i other => ?_⟩, by rw [eq]⟩
  exact read r c i (fun e => other (e ▸ chan)) (fun e => other (e ▸ lane))

theorem blockWrite (h : EngineKept rs s t) {a : Nat} {ws : List Nat} (chan : .DMA_CH_STATUS ∈ rs) (lane : .CPH_STATUS ∈ rs) :
    EngineKept rs s (t.blockWrite a ws) := by
  induction ws generalizing t a with
  | nil => exact h
  | cons w ws ih => exact ih (.cput h chan lane)

/-! ## Control threads -/

theorem modThr (h : EngineKept rs s t) {n : Nat} {g : Thread → Thread} : EngineKept rs s (t.modThr n g) := h.beside rfl rfl rfl rfl rfl

theorem setG (h : EngineKept rs s t) {n r : Nat} {v : Word} : EngineKept rs s (t.setG n r v) := .ite h (.modThr h)

theorem wakeThread (h : EngineKept rs s t) {n : Nat} (status : .CCX_T_STATUS ∈ rs) : EngineKept rs s (t.wakeThread n) :=
  .ite (.fset (.modThr h) status) (.ite (.modThr (.modThr h)) (.modThr h))

theorem setEvents (h : EngineKept rs s t) {n evs : Nat} (status : .CCX_T_STATUS ∈ rs) : EngineKept rs s (t.setEvents n evs) := by
  unfold State.setEvents
  refine .ite h ?_
  extract_lets ev
  split
  · extract_lets woken taken
    have kept : EngineKept rs s taken := .fset (.modThr (.setG h)) status
    exact .ite (.ite (.fset kept status) (.modThr kept)) (.fset h status)
  · exact .fset h status

/-! ## Faults and the tailings log (R531–R538) -/

theorem tailAppend (h : EngineKept rs s t) {ws : List Nat} {graver : Bool} (status : .AON_TAIL_STATUS ∈ rs) :
    EngineKept rs s (t.tailAppend ws graver) := by
  unfold State.tailAppend
  refine .ite (.bumpSat h status) ?_
  extract_lets tail _ entered counted
  have logged : EngineKept rs s counted := .fset (.flt h) status
  exact .ite (.fset logged status) logged

theorem mergeFault_tbl (s : State) (f : FaultRec) (cause unit cls : Nat) : (s.mergeFault f cause unit cls).tbl = s.tbl := by
  unfold State.mergeFault
  extract_lets g old new _ merged held counted overflowed frozen
  have full : overflowed.tbl = s.tbl := by unfold overflowed; split <;> rfl
  have froze : frozen.tbl = s.tbl := by unfold frozen; split <;> exact full
  obtain ⟨⟨_, _, _, _, sent⟩, -⟩ := emitBoth_sentOnly frozen g.part clsFault { faultPayload g with code := 0x81 }
  exact (congrArg State.tbl sent).trans froze

theorem openFault_tbl (s : State) (f : FaultRec) : (s.openFault f).tbl = s.tbl := by
  unfold State.openFault
  extract_lets slot g _ listed counted overflowed recorded logged
  have entered : listed.tbl = s.tbl := by unfold listed; split <;> rfl
  have full : overflowed.tbl = s.tbl := by unfold overflowed; split <;> exact entered
  obtain ⟨⟨_, _, _, _, sent⟩, -⟩ := emitBoth_sentOnly overflowed g.part clsFault { faultPayload g with code := 0x80 }
  have told : recorded.tbl = s.tbl := (congrArg State.tbl sent).trans full
  have appended : EngineKept [.AON_TAIL_STATUS] recorded logged := .tailAppend (.refl _) (by decide)
  exact appended.tbl.trans told

/-- An error that is recorded keeps what the end of frames keeps, and the engine. -/
theorem raise (h : EngineKept endRegs s t) {f : FaultRec} : EngineKept endRegs s (t.raise f) := by
  refine ⟨.raise h.toWithin, Eq.trans ?_ h.tbl⟩
  unfold State.raise
  split
  · exact mergeFault_tbl ..
  · exact openFault_tbl ..

/-- A CORRECTED error keeps the engine (R532). -/
theorem corrected (h : EngineKept endRegs s t) {cause unit d4 d5 : Nat} : EngineKept endRegs s (t.corrected cause unit d4 d5) := by
  unfold State.corrected
  extract_lets counted key due _ noted
  have bumped : EngineKept endRegs s counted := .bump h (by decide)
  split
  · exact ⟨.mergeFault bumped.toWithin, (mergeFault_tbl ..).trans bumped.tbl⟩
  · exact .ite (.emitBoth (.flt bumped) (by decide)) bumped

/-- The end of a row's repair keeps the engine (R552). -/
theorem rowsDone (h : EngineKept endRegs s t) {n : Nat} : EngineKept endRegs s (t.rowsDone n) := by
  unfold State.rowsDone
  extract_lets ended listed
  have kept : EngineKept endRegs s ended := .flt h
  exact .ite (.emitPart (.raise (.flt kept)) (by decide)) kept

end EngineKept

/-! ## What an entry of a search bank is read from (R234–R237) -/

/-- The header of a bank is read from the planes, the bank map and the generation. -/
theorem Within.headerNow {rs : List Reg} {s t : State} (h : Within rs s t) (gen : .IMG_GEN ∉ rs) (b : Nat) : t.headerNow b = s.headerNow b := by
  have now : t.tagNow = s.tagNow := h.fget F.IMG_GEN.tag 0 0 gen
  simp only [State.headerNow, State.bankHeader, State.bankOwner, State.partEnabled, State.partWord, State.pword, State.pget, State.rdPlane,
    State.bankOf, State.scope, State.plane, now, h.planes, h.image]

theorem EngineKept.tcmEntry {rs : List Reg} {s t : State} (h : EngineKept rs s t) (gen : .IMG_GEN ∉ rs) (b e : Nat) :
    t.tcmEntry b e = s.tcmEntry b e := by
  simp only [State.tcmEntry, State.entryAt, State.rowWords, State.tcmRow, h.toWithin.headerNow gen, h.tbl]

/-! ## Completing a command (R217, R250, R413) -/

/-- The register that shows a function the result of its commands of a kind. -/
def resultReg (tcm : Bool) : Reg := if tcm then .TCM_RESULT else .TBL_RESULT

/-- The word that it shows: done, the sequence number, the moves or the valid bit, the status. -/
def resultWord (r : TblReq) (status moves : Nat) (valid : Bool) : Nat :=
  2 ^ 35 + r.seq * 2 ^ 23 + (if r.tcm then (if valid then 2 ^ 22 else 0) else moves * 2 ^ 13) + status

/-- The state in which a function that has issued a command is shown a word. -/
def State.resultShown (s : State) (r : TblReq) (w : Nat) : State :=
  match r.issuer with
  | .fn f => s.wr (resultReg r.tcm) f.idx 0 (BitVec.ofNat 72 w)
  | _ => s

/-- The registers that completing a command changes beside the one that shows its result. -/
def answerRegs : List Reg :=
  [.TBL_COMMIT_AT, .TBL_RD, .TCM_COMMIT_AT, .TCM_ACT, .TCM_VAL, .TCM_CARE, .TCM_HIT, .CCX_T_STATUS, .DMA_CH_STATUS, .CPH_STATUS, .TWN_CNT] ++
    recordRegs

/-- Completing a command shows its result, and beside it changes what answers the issuer only. -/
theorem complete_engineKept (s : State) (r : TblReq) (status moves : Nat) (valid : Bool) (reads : List Nat) (commit : Bool) :
    EngineKept answerRegs (s.resultShown r (resultWord r status moves valid)) (s.complete r status moves valid reads commit) := by
  unfold State.complete
  extract_lets w stamp written answered p unit told
  have kept : EngineKept answerRegs (s.resultShown r w) answered := by
    unfold answered State.resultShown
    cases r.issuer with
    | ager => exact .refl _
    | twin => exact .bump (.refl _) (by decide)
    | thread n =>
      have block : EngineKept answerRegs s written :=
        .ite (.refl s) (.ite (.ite (.blockWrite (.refl s) (by decide) (by decide)) (.blockWrite (.refl s) (by decide) (by decide)))
          (.blockWrite (.refl s) (by decide) (by decide)))
      dsimp -zeta only
      split
      · exact .wakeThread (.setG block) (by decide)
      · exact block
    | fn f =>
      dsimp -zeta only
      extract_lets c shown timed shown' timed'
      unfold resultReg
      split
      · have base : EngineKept answerRegs (s.wr .TCM_RESULT f.idx 0 (BitVec.ofNat 72 w)) timed :=
          .ite (.wr (.refl _) (by decide)) (.refl _)
        refine .ite (.foldl base (fun u i => ?_) _) (.ite (.wr base (by decide)) base)
        exact .ite (.fset (.refl u) (by decide)) (.ite (.wr (.refl u) (by decide)) (.wr (.refl u) (by decide)))
      · have base : EngineKept answerRegs (s.wr .TBL_RESULT f.idx 0 (BitVec.ofNat 72 w)) timed' :=
          .ite (.wr (.refl _) (by decide)) (.refl _)
        exact .ite base (.foldl base (fun u i => .wr (.refl u) (by decide)) _)
  refine .ite ?_ kept
  have sent : EngineKept answerRegs (s.resultShown r w) told := .emitPart kept (by decide)
  split
  · exact .setEvents sent (by decide)
  · exact sent

/-- The registers that completing a command changes. -/
def completeRegs : List Reg := [.TBL_RESULT, .TCM_RESULT] ++ answerRegs

theorem resultShown_engineKept (s : State) (r : TblReq) (w : Nat) : EngineKept completeRegs s (s.resultShown r w) := by
  unfold State.resultShown
  split
  · exact .wr (.refl s) (by cases r.tcm <;> decide)
  · exact .refl s

/-- Completing a command leaves the engine as it is, and what its entries are read from. -/
theorem complete_kept (s : State) (r : TblReq) (status moves : Nat) (valid : Bool) (reads : List Nat) (commit : Bool) :
    EngineKept completeRegs s (s.complete r status moves valid reads commit) :=
  (resultShown_engineKept s r _).trans ((complete_engineKept s r status moves valid reads commit).mono (by decide))

@[simp] theorem complete_tbl (s : State) (r : TblReq) (status moves : Nat) (valid : Bool) (reads : List Nat) (commit : Bool) :
    (s.complete r status moves valid reads commit).tbl = s.tbl := (complete_kept ..).tbl

end Sys2Proof.Machine
end

section
/-! PROOFS. How a function's table and search-bank commands reach the engine (R211, R212, R247, R248), which settles O36. -/

namespace Sys2Proof.Machine

/-! ## Waiting, or BUSY (R212, R217) -/

/-- The bit that says whether a function's command of a kind has completed. -/
def resultDone (tcm : Bool) : Fld := ⟨resultReg tcm, 35, 35⟩

/-- The status of a function's completed command of a kind. -/
def resultStatus (tcm : Bool) : Fld := ⟨resultReg tcm, 5, 0⟩

theorem resultReg_not_answer (tcm : Bool) : resultReg tcm ∉ answerRegs := by
  cases tcm <;> decide

/-- A function is shown the result of its command. -/
theorem rd_complete {s : State} {r : TblReq} {f : Func} (issued : r.issuer = .fn f) (status moves : Nat) (valid : Bool) (reads : List Nat)
    (commit : Bool) :
    (s.complete r status moves valid reads commit).rd (resultReg r.tcm) f.idx = BitVec.ofNat 72 (resultWord r status moves valid) := by
  rw [(complete_engineKept ..).read _ _ _ (resultReg_not_answer r.tcm), State.resultShown, issued]
  exact State.rd_wr_same ..

/-- The state in which a function's command of a kind has its sequence number, and the bit of its completion is clear. -/
def State.numbered (s : State) (f : Func) (tcm : Bool) : State := (s.nextSeq (.fn f) tcm).2.fset (resultDone tcm) f.idx 0 0

/-- The command with its sequence number. -/
def State.withSeq (s : State) (f : Func) (r : TblReq) : TblReq := { r with seq := (s.nextSeq (.fn f) r.tcm).1 }

/-- What issuing a function's command comes to. -/
theorem issue_fn {s : State} {r : TblReq} {f : Func} (issued : r.issuer = .fn f) :
    s.issue r = if s.issuerBusy (.fn f) r.tcm || s.power.entering then (s.numbered f r.tcm).complete (s.withSeq f r) 1 0 false [] false
      else { s.numbered f r.tcm with tbl := { (s.numbered f r.tcm).tbl with waiting := s.tbl.waiting ++ [s.withSeq f r] } } := by
  cases r with
  | mk issuer tcm =>
    cases issued
    cases tcm with
    | false => rfl
    | true => rfl

/-- A command that waits: its issuer is shown that it has not completed. -/
theorem issue_waits {s : State} {r : TblReq} {f : Func} (issued : r.issuer = .fn f) (free : s.issuerBusy (.fn f) r.tcm = false)
    (awake : s.power.entering = false) :
    (s.issue r).flag (resultDone r.tcm) f.idx = false ∧ (s.issue r).tbl.waiting = s.tbl.waiting ++ [s.withSeq f r] := by
  have cleared : (s.numbered f r.tcm).flag (resultDone r.tcm) f.idx = false := by
    unfold State.flag State.numbered
    rw [State.fget_fset_same _ _ _ _ rfl]
    exact decide_eq_false (by simp)
  rw [issue_fn issued, if_neg (by simp [free, awake])]
  exact ⟨cleared, rfl⟩

/-- The word of a command that has ended as BUSY: done, and status 1 beside the sequence number. -/
theorem resultWord_busy {r : TblReq} (small : r.seq < 4096) :
    fldGet (BitVec.ofNat 72 (resultWord r 1 0 false)) 35 35 = 1 ∧ fldGet (BitVec.ofNat 72 (resultWord r 1 0 false)) 5 0 = 1 := by
  have word : resultWord r 1 0 false = 2 ^ 35 + r.seq * 2 ^ 23 + 1 := by simp [resultWord]
  have number : (BitVec.ofNat 72 (resultWord r 1 0 false)).toNat = 2 ^ 35 + r.seq * 2 ^ 23 + 1 := by
    rw [word, BitVec.toNat_ofNat, Nat.mod_eq_of_lt (by omega)]
  constructor
  · rw [fldGet, number, Nat.shiftRight_eq_div_pow]
    omega
  · rw [fldGet, number, Nat.shiftRight_eq_div_pow]
    omega

/-- A function's command that ends as BUSY shows it. -/
theorem complete_busy {s : State} {r : TblReq} {f : Func} (issued : r.issuer = .fn f) (small : r.seq < 4096) :
    (s.complete r 1 0 false [] false).flag (resultDone r.tcm) f.idx = true ∧
      (s.complete r 1 0 false [] false).fget (resultStatus r.tcm) f.idx = 1 := by
  obtain ⟨done, status⟩ := resultWord_busy small
  have shown := rd_complete (s := s) issued 1 0 false [] false
  exact ⟨decide_eq_true ((congrArg (fldGet · 35 35) shown).trans done), (congrArg (fldGet · 5 0) shown).trans status⟩

/-- A command that finds its issuer's previous one of the kind not completed ends as BUSY. -/
theorem issue_busy {s : State} {r : TblReq} {f : Func} (issued : r.issuer = .fn f) (busy : s.issuerBusy (.fn f) r.tcm = true) :
    (s.issue r).flag (resultDone r.tcm) f.idx = true ∧ (s.issue r).fget (resultStatus r.tcm) f.idx = 1 ∧
      (s.issue r).tbl.waiting = s.tbl.waiting := by
  have small : (s.withSeq f r).seq < 4096 := Nat.mod_lt _ (by decide)
  obtain ⟨done, status⟩ := complete_busy (s := s.numbered f r.tcm) (r := s.withSeq f r) issued small
  rw [issue_fn issued, if_pos (by simp [busy]), complete_tbl]
  exact ⟨done, status, rfl⟩

/-- How the engine takes a function's command of a kind: it waits with all that `is` says of it, or ends as BUSY. -/
def issuedAs (s : State) (f : Func) (tcm : Bool) (is : TblReq → Prop) (t : State) : Prop :=
  (s.issuerBusy (.fn f) tcm = false → s.power.entering = false →
    t.flag (resultDone tcm) f.idx = false ∧ ∃ r, t.tbl.waiting = s.tbl.waiting ++ [r] ∧ is r) ∧
  (s.issuerBusy (.fn f) tcm = true →
    t.flag (resultDone tcm) f.idx = true ∧ t.fget (resultStatus tcm) f.idx = 1 ∧ t.tbl.waiting = s.tbl.waiting)

theorem issue_issuedAs {s : State} {r : TblReq} {f : Func} {is : TblReq → Prop} (issued : r.issuer = .fn f) (holds : is (s.withSeq f r)) :
    issuedAs s f r.tcm is (s.issue r) :=
  ⟨fun free awake => ⟨(issue_waits issued free awake).1, _, (issue_waits issued free awake).2, holds⟩, issue_busy issued⟩

theorem issuedAs_withQueue (s : State) (f : Func) (tcm : Bool) (is : TblReq → Prop) (t : State) (q : List Instr) :
    issuedAs s f tcm is (t.withQueue q) = issuedAs s f tcm is t := rfl

/-! ## Table commands (R211) -/

/-- The fields of the word of `TBL_CMD` that a command writes. -/
theorem tblWord_fields {op : Nat} (small : op < 16) (cmd : Nat) :
    let v := (op * 2 ^ 32 + cmd % 2 ^ 32) % 2 ^ 36
    v / 2 ^ 32 % 2 ^ 4 = op ∧ bits v 25 21 = bits cmd 25 21 ∧ bit v 31 = cmd.testBit 31 := by
  dsimp only
  rw [Nat.testBit_eq_decide_div_mod_eq, bit_of_div, bits, bits, Nat.shiftRight_eq_div_pow, Nat.shiftRight_eq_div_pow, decide_eq_decide]
  omega

/-- A command's write of `TBL_CMD` issues what its word spells. -/
theorem tblCommand_issues {s : State} {f : Func} {c op : Nat} (cmd : Nat) (taken : opens s f .TBL_CMD 0 c) (known : 1 ≤ op ∧ op < 16) :
    goesTo (s.act fun s => s.writeTo f .TBL_CMD 0 (op * 2 ^ 32 + cmd % 2 ^ 32)) (issuedAs s f false fun r =>
      r.tcm = false ∧ r.op = op ∧ r.issuer = .fn f ∧ r.part = (if f.part < 16 then f.part else bits cmd 25 21) ∧
        r.notify = cmd.testBit 31 ∧ r.seq = (s.nextSeq (.fn f) false).1) := by
  obtain ⟨code, part, notify⟩ := tblWord_fields known.2 cmd
  have named : op ≠ 0 := Nat.pos_iff_ne_zero.1 known.1
  refine goesTo_took taken rfl (by decide) rfl (by decide) (by decide) (by decide) ?_
  have op_ : fldGet (BitVec.ofNat 72 ((op * 2 ^ 32 + cmd % 2 ^ 32) % 2 ^ 36)) 35 32 = op := by
    rw [fldGet, toNat_written, Nat.shiftRight_eq_div_pow]
    exact code
  rw [wrote_TBL_CMD, op_, if_neg named, toNat_written]
  rw [issuedAs_withQueue, State.tblFn, part]
  exact issue_issuedAs (s := s.tookValue ..) (r := tblReqOf ..) rfl ⟨rfl, rfl, rfl, rfl, notify, rfl⟩

/-! ## Search-bank commands (R247) -/

/-- The fields of the word of `TCM_CMD` that a command writes. -/
theorem tcmWord_fields {op : Nat} (small : op < 16) (e : Nat) (n : Bool) :
    let v := (op * 2 ^ 32 + flagAt n 31 + e % 1024 * 2 ^ 20) % 2 ^ 36
    bits v 35 32 = op ∧ bits v 29 20 = e % 1024 ∧ bit v 31 = n := by
  dsimp only
  rw [bit_of_div, bits, bits, Nat.shiftRight_eq_div_pow, Nat.shiftRight_eq_div_pow]
  cases n with
  | false => rw [show flagAt false 31 = 0 from rfl, decide_eq_false_iff_not]; omega
  | true => rw [show flagAt true 31 = 2 ^ 31 from rfl, decide_eq_true_iff]; omega

/-- A command's write of `TCM_CMD` issues what its word spells, for the bank selected. -/
theorem tcmCommand_issues {s : State} {f : Func} {c op : Nat} (e : Nat) (n : Bool) (taken : opens s f .TCM_CMD 0 c)
    (known : 1 ≤ op ∧ op < 16) :
    goesTo (s.act fun s => s.writeTo f .TCM_CMD 0 (op * 2 ^ 32 + flagAt n 31 + e % 1024 * 2 ^ 20)) (issuedAs s f true fun r =>
      r.tcm = true ∧ r.op = op ∧ r.issuer = .fn f ∧ r.bank = s.fget F.TCM_SEL.index f.idx % 64 ∧ r.entry = e % 1024 ∧ r.notify = n) := by
  obtain ⟨code, entry, notify⟩ := tcmWord_fields known.2 e n
  have named : op ≠ 0 := Nat.pos_iff_ne_zero.1 known.1
  refine goesTo_took taken rfl (by decide) rfl (by decide) (by decide) (by decide) ?_
  have only := tookValue_regsOnly s f .TCM_CMD c 0 (op * 2 ^ 32 + flagAt n 31 + e % 1024 * 2 ^ 20)
  rw [wrote_TCM_CMD, toNat_written, State.effTcmCmd, code, if_neg named]
  rw [issuedAs_withQueue, only.fget F.TCM_SEL.index f.idx 0 (by decide)]
  exact issue_issuedAs (s := s.tookValue ..) (r := TblReq.mk ..) rfl ⟨rfl, rfl, rfl, rfl, entry, notify⟩

/-! ## The statement -/

/-- Settles O36: each command is a write of its register, whose word is issued as it spells. -/
theorem tableCommandsAreIssued : Obligations.TableCommandsAreIssued := by
  unfold Obligations.TableCommandsAreIssued
  refine ⟨fun s f c cmd taken => ?tables, fun s f c e n taken => ?banks⟩
  case tables =>
    have issues {op : Nat} (known : 1 ≤ op ∧ op < 16) := tblCommand_issues cmd taken known
    exact ⟨issues (by decide), issues (by decide), issues (by decide), issues (by decide), issues (by decide), issues (by decide),
      issues (by decide), issues (by decide), issues (by decide)⟩
  case banks =>
    have issues {op : Nat} (known : 1 ≤ op ∧ op < 16) := tcmCommand_issues e n taken known
    exact ⟨issues (by decide), issues (by decide), issues (by decide), issues (by decide), issues (by decide), issues (by decide),
      issues (by decide)⟩

end Sys2Proof.Machine
end

section
/-! PROOFS. What the table engine accepts and commits (R213, R217, R249, R250), and the rows of a search bank's entry (R234, R235), which settle
O37. -/

namespace Sys2Proof.Machine

/-! ## Acceptance (R213) -/

theorem acceptOp_accepted {s : State} {o : TblOp} (ok : o.status = 0) :
    (s.acceptOp o).tbl.waiting = s.tbl.waiting ∧ (s.acceptOp o).tbl.ops = s.tbl.ops ++ [o] := by
  unfold State.acceptOp
  rw [if_neg (by simp [ok])]
  extract_lets drawn _ turned
  have same : drawn.tbl = s.tbl := by unfold drawn; split <;> rfl
  have kept : turned.tbl.waiting = s.tbl.waiting ∧ turned.tbl.ops = s.tbl.ops := by
    rw [← same]
    unfold turned
    split <;> exact ⟨rfl, rfl⟩
  exact ⟨kept.1, congrArg (· ++ [o]) kept.2⟩

theorem planMeets_nil (s : State) (r : TblReq) : s.planMeets r [] = [] := by
  unfold State.planMeets
  split <;> rfl

/-- A plan that has found no unit uncorrectable is the plan. -/
theorem planWith_nil (s : State) (r : TblReq) : s.planWith r [] = s.planTbl r := if_pos (.inl (planMeets_nil s r))

/-- The state in which a command that is no delete of the ager's has left the waiting ones. -/
def State.taken (s : State) (r : TblReq) : State :=
  { s with tbl := { s.tbl with waiting := dropFirst r s.tbl.waiting, agerTurn := min 7 (s.tbl.agerTurn + 1) } }

/-- The plan of a command that has left the waiting ones. -/
def State.takenPlan (s : State) (r : TblReq) : TblOp :=
  if r.tcm then (s.taken r).planTcm r else ((s.taken r).wakeRegion r.part r.kind).planTbl r

/-- TBL_ACCEPT accepts or refuses the plan of the command whose plan is next. -/
theorem goesTo_tblAccept {s : State} {r : TblReq} {P : State → Prop} (sound : s.tbl.met = []) (next : s.nextPlan = some r)
    (other : r.issuer ≠ .ager)
    (holds : ∀ u : State, u.tbl.waiting = dropFirst r s.tbl.waiting → u.tbl.ops = s.tbl.ops →
      P ((u.acceptOp (s.takenPlan r)).withQueue s.pending)) :
    goesTo (exec .tblAccept s) P := by
  show goesTo (execTblAccept s) P
  refine goesTo_act ?_
  rw [next]
  dsimp -zeta only
  extract_lets bad _ left woken met accepted
  have same : left = s.taken r := by
    unfold left State.taken
    rw [sound, ite_self, if_neg other, ← sound]
  have clear : met = [] := by
    unfold met bad
    rw [sound, planMeets_nil]
  rw [clear, List.foldl_nil]
  unfold State.takenPlan at holds
  split
  next kind =>
    rw [if_pos kind] at holds
    rw [same]
    exact holds _ rfl rfl
  next kind =>
    rw [if_neg kind] at holds
    unfold accepted woken bad
    rw [if_neg fun stale => other stale.1, sound, planWith_nil, same]
    exact holds _ rfl rfl

/-- TBL_ACCEPT takes no command while a row waits for its repair (R226, R254). -/
theorem tblAccept_repairs {s : State} (waits : s.repairsWait = true) : goesTo (exec .tblAccept s) fun t => t = s := by
  have none_ : s.nextPlan = none := if_pos waits
  show goesTo (execTblAccept s) _
  refine goesTo_act ?_
  rw [none_]
  rfl

/-! ## Commit (R213, R217) -/

/-- The state in which the first accepted command has left. -/
def State.committing (s : State) (l : List TblOp) : State := { s with tbl := { s.tbl with ops := l } }

/-- The first accepted command commits. -/
theorem commitHead_first {s : State} {o : TblOp} {l : List TblOp} (first : s.tbl.ops = o :: l) :
    s.commitHead o.req.tcm =
      ((if o.req.tcm then ((s.committing l).wakeTcm o.req.bank).setTcm o.req.bank o.req.entry
          (tcmApply o.req ((s.committing l).tcmEntry o.req.bank o.req.entry))
        else ((s.committing l).wakeRegion o.req.part o.req.kind).takeTbl o).complete o.req 0 o.moves (o.moves = 1) o.reads true).replayOut o := by
  unfold State.commitHead
  rw [first]
  dsimp only
  rw [if_neg (by simp)]
  rfl

theorem replayOut_engineKept (s : State) (o : TblOp) : EngineKept [] s (s.replayOut o) := .ite ⟨.beside (.refl s) rfl rfl rfl rfl, rfl⟩ (.refl s)

theorem takeTbl_writes (s : State) (o : TblOp) :
    (s.takeTbl o).tbl.units = applyWrites s.tbl.units o.writes ∧ (s.takeTbl o).tbl.ops = s.tbl.ops := by
  unfold State.takeTbl
  extract_lets kept left
  split <;> exact ⟨rfl, rfl⟩

theorem tblCommit_writes {s : State} {o : TblOp} {l : List TblOp} (first : s.tbl.ops = o :: l) (kind : o.req.tcm = false) :
    goesTo (exec .tblCommit s) fun t =>
      t.tbl.ops = l ∧ t.tbl.units = applyWrites s.tbl.units o.writes ∧
      ∀ f, o.req.issuer = .fn f →
        t.rd .TBL_RESULT f.idx = BitVec.ofNat 72 (2 ^ 35 + o.req.seq * 2 ^ 23 + o.moves * 2 ^ 13) := by
  let written := ((s.committing l).wakeRegion o.req.part o.req.kind).takeTbl o
  let shown := written.complete o.req 0 o.moves (o.moves = 1) o.reads true
  obtain ⟨units, ops⟩ := takeTbl_writes ((s.committing l).wakeRegion o.req.part o.req.kind) o
  have effect : s.commitHead false = shown.replayOut o := by
    rw [← kind, commitHead_first first, if_neg (by simp [kind])]
  have tbl : (shown.replayOut o).tbl = written.tbl := (replayOut_engineKept shown o).tbl.trans (complete_tbl ..)
  show goesTo (execTblCommit s) _
  refine goesTo_act ?_
  rw [effect, State.withQueue_tbl, tbl]
  refine ⟨ops, units, fun f issued => ?_⟩
  have result := rd_complete (s := written) issued 0 o.moves (o.moves = 1) o.reads true
  have word : resultWord o.req 0 o.moves (o.moves = 1) = 2 ^ 35 + o.req.seq * 2 ^ 23 + o.moves * 2 ^ 13 := by simp [resultWord, kind]
  rw [kind, word] at result
  rw [State.rd_withQueue, (replayOut_engineKept shown o).read _ _ _ List.not_mem_nil]
  exact result

/-! ## The rows of an entry (R234, R235) -/

/-- Rows of a bank from one on that are changed, each by its own function, and nothing else. -/
theorem foldl_modRow (s : State) (b row n : Nat) (g : Nat → TcmRow → TcmRow) :
    ∃ T, (List.range n).foldl (fun s i => s.modRow b (row + i) (g i)) s = { s with tbl := { s.tbl with tcm := T } } ∧
      ∀ i, tabGet {} T (b * 1024 + (row + i)) = if i < n then g i (s.tcmRow b (row + i)) else s.tcmRow b (row + i) := by
  induction n with
  | zero => exact ⟨s.tbl.tcm, rfl, fun i => rfl⟩
  | succ n ih =>
    obtain ⟨T, run, rows⟩ := ih
    rw [List.range_succ, List.foldl_append, run]
    refine ⟨_, rfl, fun i => ?_⟩
    rw [tabGet_set]
    by_cases here : i = n
    · subst here
      have old : State.tcmRow { s with tbl := { s.tbl with tcm := T } } b (row + i) = s.tcmRow b (row + i) :=
        (rows i).trans (if_neg (Nat.lt_irrefl i))
      rw [if_pos rfl, if_pos (Nat.lt_succ_self i), old]
    · rw [if_neg (by omega), rows i]
      exact if_congr (by omega) rfl rfl

/-- What row `i` of an entry becomes when the entry is replaced. -/
def TcmEntry.onRow (x : TcmEntry) (w i : Nat) (r : TcmRow) : TcmRow :=
  if i = 0 then { valid := x.valid, words := x.rowAt w 0, action := x.action, hits := x.hits } else { r with words := x.rowAt w i }

theorem TcmEntry.onRow_words (x : TcmEntry) (w i : Nat) (r : TcmRow) : (x.onRow w i r).words = x.rowAt w i := by
  unfold TcmEntry.onRow
  split
  next first => rw [first]
  next => rfl

/-- The words of a list, read by fours, are the list. -/
theorem map_getD_range {l : List Nat} {n : Nat} (length : l.length = n) : (List.range n).map (fun j => l.getD j 0) = l := by
  subst length
  exact List.ext_getElem (by simp) fun i _ bound => by simp [List.getElem?_eq_getElem bound]

/-- Word `k` of a row of an entry, below its value's rows or from there on. -/
theorem TcmEntry.rowAt_getD (x : TcmEntry) {w i k : Nat} (small : k < 4) :
    (x.rowAt w i).getD k 0 = if i < w then x.value.getD (4 * i + k) 0 else x.care.getD (4 * (i - w) + k) 0 := by
  unfold TcmEntry.rowAt
  rw [List.getD_eq_getElem _ _ (by simpa using small)]
  simp

/-- The words of consecutive rows are a list that the rows hold by fours. -/
theorem rowWords_of_rows {s : State} {b row n : Nat} {l : List Nat} (length : l.length = 4 * n)
    (reads : ∀ i, i < n → ∀ k, k < 4 → (s.tcmRow b (row + i)).words.getD k 0 = l.getD (4 * i + k) 0) : s.rowWords b row n = l := by
  rw [State.rowWords, ← map_getD_range length]
  refine List.map_congr_left fun j inside => ?_
  have small : j < 4 * n := List.mem_range.1 inside
  rw [reads (j / 4) (by omega) (j % 4) (Nat.mod_lt _ (by decide)), Nat.div_add_mod]

theorem rowWords_length (s : State) (b row n : Nat) : (s.rowWords b row n).length = 4 * n := by simp [State.rowWords]

/-- The entry has as many words of value and care as the header gives it. -/
def TcmEntry.fits (x : TcmEntry) (h : Nat) : Prop :=
  x.value.length = 4 * widthUnits (bits h 33 32) ∧ x.care.length = if bit h 34 then 4 * widthUnits (bits h 33 32) else 0

theorem tcmEntry_fits (s : State) (b e : Nat) : (s.tcmEntry b e).fits (s.headerNow b) := by
  refine ⟨rowWords_length .., ?_⟩
  unfold State.tcmEntry State.entryAt
  dsimp only
  split
  · exact rowWords_length ..
  · rfl

theorem widthUnits_pos (c : Nat) : 0 < widthUnits c := by
  unfold widthUnits
  split <;> decide

/-- Rows that hold an entry's words, the first with the rest of it, read as the entry. -/
theorem entryAt_of_rows {s : State} {h b row : Nat} {x : TcmEntry} (whole : x.fits h)
    (rows : ∀ i, i < rowsPer h → ∃ r, s.tcmRow b (row + i) = x.onRow (widthUnits (bits h 33 32)) i r) : s.entryAt h b row = x := by
  obtain ⟨valueLength, careLength⟩ := whole
  have some_ := widthUnits_pos (bits h 33 32)
  have count : rowsPer h = widthUnits (bits h 33 32) * if bit h 34 then 2 else 1 := rfl
  unfold State.entryAt
  generalize widthUnits (bits h 33 32) = w at *
  have words (i : Nat) (inside : i < rowsPer h) {k : Nat} (small : k < 4) :
      (s.tcmRow b (row + i)).words.getD k 0 = if i < w then x.value.getD (4 * i + k) 0 else x.care.getD (4 * (i - w) + k) 0 := by
    obtain ⟨r, held⟩ := rows i inside
    rw [held, TcmEntry.onRow_words, TcmEntry.rowAt_getD x small]
  have enough : w ≤ rowsPer h := by rw [count]; split <;> omega
  obtain ⟨r, first⟩ := rows 0 (by omega)
  have value : s.rowWords b row w = x.value := rowWords_of_rows valueLength fun i inside k small => by
    rw [words i (by omega) small, if_pos inside]
  have care : (if bit h 34 then s.rowWords b (row + w) w else []) = x.care := by
    split
    next oz =>
      rw [if_pos oz] at careLength count
      refine rowWords_of_rows careLength fun i inside k small => ?_
      rw [Nat.add_assoc, words (w + i) (by omega) small, if_neg (by omega), Nat.add_sub_cancel_left]
    next plain =>
      rw [if_neg plain] at careLength
      exact (List.eq_nil_of_length_eq_zero careLength).symm
  dsimp only
  rw [value, care, show s.tcmRow b row = x.onRow w 0 r from first]
  rfl

/-- An entry that is replaced reads as it was written, and nothing changes but the bank's rows. -/
theorem setTcm_replaces {s : State} {b : Nat} {x : TcmEntry} (e : Nat) (whole : x.fits (s.headerNow b)) :
    (∃ T, s.setTcm b e x = { s with tbl := { s.tbl with tcm := T } }) ∧ (s.setTcm b e x).tcmEntry b e = x := by
  obtain ⟨T, run, rows⟩ := foldl_modRow s b (rowsPer (s.headerNow b) * e) (rowsPer (s.headerNow b))
    (x.onRow (widthUnits (bits (s.headerNow b) 33 32)))
  have set : s.setTcm b e x = { s with tbl := { s.tbl with tcm := T } } := run
  refine ⟨⟨T, set⟩, ?_⟩
  rw [set]
  exact entryAt_of_rows whole fun i inside => ⟨_, (rows i).trans (if_pos inside)⟩

theorem tcmEntry_withQueue (s : State) (q : List Instr) (b e : Nat) : (s.withQueue q).tcmEntry b e = s.tcmEntry b e := rfl

/-! ## Commit of a search-bank command (R249, R250) -/

/-- What a command makes of an entry has the words that the header gives it, where a WRITE brings as many. -/
theorem tcmApply_fits {r : TblReq} {x : TcmEntry} {h : Nat} (whole : x.fits h)
    (brings : r.op = 2 → r.val.length = 4 * widthUnits (bits h 33 32) ∧
      r.care.length = if bit h 34 then 4 * widthUnits (bits h 33 32) else 0) : (tcmApply r x).fits h := by
  unfold tcmApply
  split
  next => exact whole
  next write => exact brings write
  all_goals exact whole

theorem tcmCommit_writes {s : State} {o : TblOp} {l : List TblOp} (first : s.tbl.ops = o :: l) (kind : o.req.tcm = true)
    (brings : o.req.op = 2 → o.req.val.length = 4 * widthUnits (bits (s.headerNow o.req.bank) 33 32) ∧
      o.req.care.length = if bit (s.headerNow o.req.bank) 34 then 4 * widthUnits (bits (s.headerNow o.req.bank) 33 32) else 0) :
    goesTo (exec .tcmCommit s) fun t =>
      t.tbl.ops = l ∧ t.tcmEntry o.req.bank o.req.entry = tcmApply o.req (s.tcmEntry o.req.bank o.req.entry) ∧ t.tbl.units = s.tbl.units := by
  let woken := (s.committing l).wakeTcm o.req.bank
  let entry := tcmApply o.req (s.tcmEntry o.req.bank o.req.entry)
  let shown := (woken.setTcm o.req.bank o.req.entry entry).complete o.req 0 o.moves (o.moves = 1) o.reads true
  have effect : s.commitHead true = shown.replayOut o := by
    rw [← kind, commitHead_first first, if_pos kind]
    rfl
  obtain ⟨⟨T, set⟩, replaced⟩ := setTcm_replaces (s := woken) (x := entry) o.req.entry (tcmApply_fits (tcmEntry_fits s ..) brings)
  have kept : EngineKept completeRegs (woken.setTcm o.req.bank o.req.entry entry) (shown.replayOut o) :=
    (complete_kept ..).trans ((replayOut_engineKept shown o).mono (by decide))
  show goesTo (execTcmCommit s) _
  refine goesTo_act ?_
  rw [effect, State.withQueue_tbl, tcmEntry_withQueue, kept.tcmEntry (by decide), kept.tbl, replaced, set]
  exact ⟨rfl, rfl, rfl⟩

/-! ## The statement -/

/-- Settles O37: the plan of the next command is accepted, none while a repair waits, and the first accepted command commits by its kind. -/
theorem tableEngineAcceptsAndCommits : Obligations.TableEngineAcceptsAndCommits := by
  unfold Obligations.TableEngineAcceptsAndCommits
  refine ⟨fun s r repaired sound next other => ?accepts, fun s => tblAccept_repairs, fun s o l first kind => tblCommit_writes first kind,
    fun s o l first kind => tcmCommit_writes first kind⟩
  case accepts =>
    intro u o ok
    refine goesTo_tblAccept sound next other fun v waiting ops => ?_
    obtain ⟨left, entered⟩ := acceptOp_accepted (s := v) (o := s.takenPlan r) ok
    exact ⟨left.trans waiting, entered.trans (congrArg (· ++ [o]) ops)⟩

end Sys2Proof.Machine
end

section
/-! PROOFS. Where learn notifications go, and what the ager makes of an entry (R221, R223, R224), which settles O38. -/

namespace Sys2Proof.Machine

/-! ## Sinks (R221) -/

/-- From `s` to `t`, only what signals to control threads change: registers and threads. -/
def signalledOnly (s t : State) : Prop := ∃ r h, t = { s with regs := r, threads := h }

theorem signalledOnly_refl (s : State) : signalledOnly s s := ⟨_, _, rfl⟩

theorem signalledOnly_trans {s t u : State} (h : signalledOnly s t) (k : signalledOnly t u) : signalledOnly s u := by
  obtain ⟨_, _, rfl⟩ := h
  obtain ⟨_, _, rfl⟩ := k
  exact ⟨_, _, rfl⟩

theorem signalledOnly.learned {s t : State} (h : signalledOnly s t) : t.learned = s.learned := by
  obtain ⟨_, _, rfl⟩ := h
  rfl

theorem signalledOnly.events {s t : State} (h : signalledOnly s t) : t.events = s.events := by
  obtain ⟨_, _, rfl⟩ := h
  rfl

theorem setG_signalledOnly (s : State) (n r : Nat) (v : Word) : signalledOnly s (s.setG n r v) := by
  unfold State.setG
  split
  · exact signalledOnly_refl s
  · exact ⟨_, _, rfl⟩

theorem signalledOnly.fset {s t : State} (h : signalledOnly s t) {f : Fld} {c i n : Nat} : signalledOnly s (t.fset f c i n) := by
  obtain ⟨_, _, rfl⟩ := h
  exact ⟨_, _, rfl⟩

theorem signalledOnly.modThr {s t : State} (h : signalledOnly s t) {n : Nat} {g : Thread → Thread} : signalledOnly s (t.modThr n g) := by
  obtain ⟨_, _, rfl⟩ := h
  exact ⟨_, _, rfl⟩

theorem setEvents_signalledOnly (s : State) (n evs : Nat) : signalledOnly s (s.setEvents n evs) := by
  unfold State.setEvents
  split
  · exact signalledOnly_refl s
  · extract_lets ev
    split
    · split
      · extract_lets woken taken
        have kept : signalledOnly s taken := .fset (.modThr (setG_signalledOnly ..))
        split
        · exact kept.fset
        · exact kept.modThr
      · exact (signalledOnly_refl s).fset
    · exact (signalledOnly_refl s).fset

/-- Waking the threads that wait for a queue changes threads and their registers only (R411). -/
theorem queueSignal_signalledOnly (s : State) (p arm q ev : Nat) (open_ : Nat → Bool) : signalledOnly s (s.queueSignal p arm q ev open_) := by
  unfold State.queueSignal
  extract_lets armed waits
  split
  · split
    · exact setEvents_signalledOnly ..
    · refine foldl_rel signalledOnly_refl signalledOnly_trans (fun u n => ?_) _ s
      split
      · exact setEvents_signalledOnly ..
      · exact signalledOnly_refl u
  · exact signalledOnly_refl s

/-- An event queue that takes a record has it last. -/
theorem eventPut_taken {s t : State} {p q : Nat} {ws : List Nat} (taken : s.eventPut p q ws = some t) :
    signalledOnly { s with events := tabSet [] s.events (p * 16 + q) (tabGet [] s.events (p * 16 + q) ++ [ws]) } t := by
  unfold State.eventPut at taken
  dsimp only at taken
  split at taken
  · cases taken
  · cases taken
    exact queueSignal_signalledOnly ..

theorem eventPut_room {s : State} {p q : Nat} (ws : List Nat) (room : (tabGet [] s.events (p * 16 + q)).length < 256) :
    ∃ t, s.eventPut p q ws = some t := ⟨_, if_neg (Nat.not_le.2 room)⟩

/-- A sink takes a record without a change of the notifications to be delivered. -/
theorem sinkSend_learned (s : State) (p : Nat) (r : Record) : (s.sinkSend p r).learned = s.learned := by
  have put : (s.sinkPut p r).2.learned = s.learned := by
    unfold State.sinkPut
    split
    · extract_lets c ch room
      obtain ⟨⟨_, _, _, _, sent⟩, -⟩ := emitChan_sentOnly s ch p r
      show (s.emitChan ch p r).learned = s.learned
      rw [sent]
    · split
      next taken =>
        exact (eventPut_taken taken).learned
      · rfl
    · rfl
  unfold State.sinkSend
  split
  next step =>
    rw [step] at put
    split
    · exact put
    · exact put

/-- A partition without a sink takes no record. -/
theorem sinkSend_none {s : State} {p : Nat} (sink : s.fget F.TBL_LEARN.sink p = 0) (r : Record) : s.sinkSend p r = s := by
  unfold State.sinkSend State.sinkPut
  rw [sink]
  rfl

/-- An event queue with room has the record last. -/
theorem sinkSend_queue {s : State} {p : Nat} (sink : s.fget F.TBL_LEARN.sink p = 2)
    (room : (tabGet [] s.events (p * 16 + s.fget F.TBL_LEARN.queue p)).length < 256) (r : Record) :
    tabGet [] (s.sinkSend p r).events (p * 16 + s.fget F.TBL_LEARN.queue p) =
      tabGet [] s.events (p * 16 + s.fget F.TBL_LEARN.queue p) ++ [offRing r p] := by
  obtain ⟨t, put⟩ := eventPut_room (offRing r p) room
  have sent : s.sinkSend p r = t := by
    unfold State.sinkSend State.sinkPut
    rw [sink]
    dsimp only
    rw [put]
    rfl
  rw [sent, (eventPut_taken put).events]
  exact tabGet_set_same ..

theorem learnDeliver_delivers {s : State} {p : Nat} {r : Record} {l : List (Nat × Record)} (first : s.learned = (p, r) :: l) :
    goesTo (exec .learnDeliver s) fun t =>
      t.learned = l ∧ (s.fget F.TBL_LEARN.sink p = 0 → t.regs = s.regs ∧ t.events = s.events) ∧
      (s.fget F.TBL_LEARN.sink p = 2 → (tabGet [] s.events (p * 16 + s.fget F.TBL_LEARN.queue p)).length < 256 →
        tabGet [] t.events (p * 16 + s.fget F.TBL_LEARN.queue p) =
          tabGet [] s.events (p * 16 + s.fget F.TBL_LEARN.queue p) ++ [offRing r p]) := by
  let rest : State := { s with learned := l }
  show goesTo (execLearnDeliver s) _
  refine goesTo_act ?_
  rw [first]
  change (rest.sinkSend p r).learned = l ∧ (_ → (rest.sinkSend p r).regs = s.regs ∧ (rest.sinkSend p r).events = s.events) ∧ _
  refine ⟨sinkSend_learned rest p r, fun sink => ?_, fun sink room => sinkSend_queue (s := rest) sink room r⟩
  rw [sinkSend_none (s := rest) sink r]
  exact ⟨rfl, rfl⟩

/-! ## The ager (R223, R224) -/

/-- Outside REST, a command of a part that REST stops has its effect. -/
theorem goesTo_actAwake {s : State} {g : State → State} {P : State → Prop} (awake : s.frozen = false) (holds : P ((g s).withQueue s.pending)) :
    goesTo (s.actAwake g) P :=
  goesTo_act (by rwa [awake])

/-- A visit of a partition that holds one entry is a visit of the entry. -/
theorem goesTo_agerVisit {s : State} {p b : Nat} {e : EmEntry} {P : State → Prop} (awake : s.frozen = false)
    (period : s.fget F.TBL_AGE.period p ≠ 0) (used : s.usedBuckets p = [b]) (held : bucketEntries s.tbl.units b = [e])
    (holds : P (((s.wakeRegion p 0).ageEntry p (b + e.off) e).withQueue s.pending)) : goesTo (exec (.agerVisit p) s) P := by
  show goesTo (execAgerVisit p s) P
  refine goesTo_actAwake awake ?_
  rw [if_neg period, used, List.foldl_cons, List.foldl_nil, show bucketEntries (s.wakeRegion p 0).tbl.units b = [e] from held]
  exact holds

theorem ageEntry_hit {s : State} {u : Nat} {e : EmEntry} (dynamic : bit e.ctl 34 = false) (hit : tabGet 0 s.tbl.hits u ≠ 0) (p : Nat) :
    s.ageEntry p u e = { s with tbl := { s.tbl with hits := tabSet 0 s.tbl.hits u 0 } } := by
  unfold State.ageEntry
  dsimp only
  rw [if_neg (by simp [dynamic]), if_pos hit]

theorem ageEntry_aged {s : State} {p u : Nat} {e : EmEntry} (dynamic : bit e.ctl 34 = false) (idle : tabGet 0 s.tbl.hits u = 0)
    (sink : s.fget F.TBL_LEARN.sink p = 0) :
    countedUp s (s.ageEntry p u e) F.TBL_CNT.count p 11 1 ∧ (s.ageEntry p u e).tbl.units = s.tbl.units := by
  have silent : (s.tblCount p 11).fget F.TBL_LEARN.sink p = 0 := (s.fget_fset_reg _ _ _ _ _ (by decide)).trans sink
  have counted : countedUp s (s.tblCount p 11) F.TBL_CNT.count p 11 1 := s.countedUp_bump p 11 1 (by decide)
  unfold State.ageEntry
  dsimp only
  rw [if_neg (by simp [dynamic]), if_neg (not_not.2 idle), sinkSend_none silent]
  split
  · exact ⟨counted, rfl⟩
  · exact ⟨counted, rfl⟩

/-! ## The statement -/

/-- Settles O38: the oldest notification goes to its sink, and a visit of one entry clears its hit bits or counts it as aged. -/
theorem learningAndAgeing : Obligations.LearningAndAgeing := by
  unfold Obligations.LearningAndAgeing
  refine ⟨fun s p r l => learnDeliver_delivers, fun s p b e awake period used held dynamic => ⟨fun hit => ?clears, fun idle sink => ?ages⟩⟩
  case clears =>
    refine goesTo_agerVisit awake period used held ?_
    rw [ageEntry_hit (s := s.wakeRegion p 0) dynamic hit]
    exact ⟨tabGet_set_same 0 s.tbl.hits _ 0, rfl, rfl⟩
  case ages => exact goesTo_agerVisit awake period used held (ageEntry_aged (s := s.wakeRegion p 0) dynamic idle sink)

end Sys2Proof.Machine
end

section
/-! PROOFS. Scrubbing, row repair, retention and promotion of table and search-bank memory (R225–R229, R253–R258), which settles O39. -/

namespace Sys2Proof.Machine

/-! ## Errors that are found (R225, R228, R253, R254) -/

/-- A counter that stops at its top goes up by one. -/
theorem State.countedSat_bumpSat (s : State) {f : Fld} (c i : Nat) (fits : f.ok = true) : countedSat s (s.bumpSat f c i) f c i :=
  s.fget_bumpSat_same c i 1 fits

/-- What leaves a counter's register leaves it counted. -/
theorem Within.countedSat {rs : List Reg} {s t u : State} {f : Fld} {c i : Nat} (h : Within rs t u) (other : f.reg ∉ rs)
    (counted : countedSat s t f c i) : countedSat s u f c i := (h.fget f c i other).trans counted

/-- The counter of corrected errors of the table memory, or of uncorrectable ones. -/
def eccCounter (uncorr : Bool) : Fld := if uncorr then F.TBL_ECC.uncorr else F.TBL_ECC.corr

/-- The counter of corrected action words of the search banks, or of failed rows. -/
def tcmCounter (corr : Bool) : Fld := if corr then F.TCM_ERR.corr else F.TCM_ERR.rows

theorem noteEcc_eq (s : State) (g u : Nat) (uncorr : Bool) :
    ∃ v, s.noteEcc g u uncorr = (s.bumpSat (eccCounter uncorr) 0 0).wr .TBL_ECC_LAST 0 0 v := by
  unfold State.noteEcc
  cases uncorr with
  | false => exact ⟨_, rfl⟩
  | true => exact ⟨_, rfl⟩

theorem noteTcm_eq (s : State) (g phys row : Nat) (action corr : Bool) :
    ∃ v, s.noteTcm g phys row action corr = (s.bumpSat (tcmCounter corr) 0 0).wr .TCM_ERR_LAST 0 0 v := by
  unfold State.noteTcm
  cases corr with
  | false => exact ⟨_, rfl⟩
  | true => exact ⟨_, rfl⟩

/-- An error that is noted is counted, and nothing of the engine changes. -/
theorem noteEcc_counts (s : State) (g u : Nat) (uncorr : Bool) :
    countedSat s (s.noteEcc g u uncorr) (eccCounter uncorr) 0 0 ∧ (s.noteEcc g u uncorr).tbl = s.tbl := by
  obtain ⟨v, eq⟩ := noteEcc_eq s g u uncorr
  rw [eq]
  refine ⟨(State.fget_wr_reg _ _ _ _ _ _ ?_).trans (s.countedSat_bumpSat 0 0 ?_), rfl⟩
  · cases uncorr <;> decide
  · cases uncorr <;> decide

theorem noteTcm_counts (s : State) (g phys row : Nat) (action corr : Bool) :
    countedSat s (s.noteTcm g phys row action corr) (tcmCounter corr) 0 0 ∧ (s.noteTcm g phys row action corr).tbl = s.tbl := by
  obtain ⟨v, eq⟩ := noteTcm_eq s g phys row action corr
  rw [eq]
  refine ⟨(State.fget_wr_reg _ _ _ _ _ _ ?_).trans (s.countedSat_bumpSat 0 0 ?_), rfl⟩
  · cases corr <;> decide
  · cases corr <;> decide

theorem tblCorrected_counts (s : State) (g u : Nat) :
    countedSat s (s.tblCorrected g u) F.TBL_ECC.corr 0 0 ∧ (s.tblCorrected g u).tbl = s.tbl := by
  obtain ⟨counted, same⟩ := noteEcc_counts s g u false
  unfold State.tblCorrected
  generalize s.noteEcc g u false = noted at *
  have kept : EngineKept endRegs noted (noted.corrected 1 (tblBankUnit g (unitBank u)) u g) := .corrected (.refl noted)
  exact ⟨kept.countedSat (by decide) counted, kept.tbl.trans same⟩

theorem tcmCorrected_counts (s : State) (g phys row : Nat) :
    countedSat s (s.tcmCorrected g phys row) F.TCM_ERR.corr 0 0 ∧ (s.tcmCorrected g phys row).tbl = s.tbl := by
  obtain ⟨counted, same⟩ := noteTcm_counts s g phys row true true
  unfold State.tcmCorrected
  generalize s.noteTcm g phys row true true = noted at *
  have kept : EngineKept endRegs noted (noted.corrected 2 (tcmUnit g phys) row g) := .corrected (.refl noted)
  exact ⟨kept.countedSat (by decide) counted, kept.tbl.trans same⟩

/-- What is listed, or new and appended to the list, is listed. -/
theorem mem_append_new {α : Type} [BEq α] [LawfulBEq α] (l : List α) {m : List α} {x : α} (here : x ∈ m) :
    x ∈ l ++ m.filter fun x => !l.contains x := by
  by_cases listed : x ∈ l
  · exact List.mem_append_left _ listed
  · exact List.mem_append_right _ (List.mem_filter.2 ⟨here, by simpa using listed⟩)

/-- Fencing a row leaves the counters of errors. -/
theorem countedSat_rowFenced {s t u : State} {f : Fld} {c i : Nat} (counted : countedSat s t f c i) (regs : u.regs = t.regs)
    (spare : f.reg ≠ .FLT_SPARE) : countedSat s u.rowFenced f c i := by
  have fenced : u.rowFenced.fget f c i = u.fget f c i :=
    Within.fget (rs := [.FLT_SPARE]) (.bump (f := F.FLT_SPARE.fenced) (.refl u) (by decide)) f c i (by simpa using spare)
  have listed : u.fget f c i = t.fget f c i := congrArg (fun r => fldGet (regGet r f.reg c i) f.hi f.lo) regs
  exact (fenced.trans listed).trans counted

/-- A FENCING fault leaves the engine, and the counters of errors. -/
theorem fencing_kept (s : State) (cause unit d4 d5 part : Nat) (busy : Bool) (safe action promoted : Nat) (acts : List Nat) :
    EngineKept endRegs s (s.fencing cause unit d4 d5 part busy safe action promoted acts) := .raise (.refl s)

/-- An uncorrectable unit is counted, and its row of two units is unreadable in the replica. -/
theorem tblUncorr_fences (s : State) (g u : Nat) :
    countedSat s (s.tblUncorr g u) F.TBL_ECC.uncorr 0 0 ∧
      (g, u / 2 * 2) ∈ (s.tblUncorr g u).tbl.bad ∧ (g, u / 2 * 2 + 1) ∈ (s.tblUncorr g u).tbl.bad := by
  obtain ⟨counted, same⟩ := noteEcc_counts s g u true
  unfold State.tblUncorr
  generalize s.noteEcc g u true = noted at *
  extract_lets row _ _ listed acts
  have uncorr : countedSat s noted F.TBL_ECC.uncorr 0 0 := counted
  refine ⟨(fencing_kept ..).countedSat (by decide) (countedSat_rowFenced uncorr rfl (by decide)), ?_⟩
  rw [(fencing_kept ..).tbl]
  show _ ∈ noted.tbl.bad ++ row ∧ _ ∈ noted.tbl.bad ++ row
  rw [same]
  have first : (g, u / 2 * 2) ∈ [(g, u / 2 * 2), (g, u / 2 * 2 + 1)] := List.mem_cons_self
  have second : (g, u / 2 * 2 + 1) ∈ [(g, u / 2 * 2), (g, u / 2 * 2 + 1)] := List.mem_cons_of_mem _ List.mem_cons_self
  exact ⟨mem_append_new s.tbl.bad first, mem_append_new s.tbl.bad second⟩

/-- A row that fails is counted, and unreadable in the replica. -/
theorem tcmRowFail_fences (s : State) (g phys row : Nat) (action : Bool) :
    countedSat s (s.tcmRowFail g phys row action) F.TCM_ERR.rows 0 0 ∧ (g, phys, row) ∈ (s.tcmRowFail g phys row action).tbl.tcmBad := by
  obtain ⟨counted, same⟩ := noteTcm_counts s g phys row action false
  unfold State.tcmRowFail
  generalize s.noteTcm g phys row action false = noted at *
  extract_lets _ _ fenced acts
  have rows : countedSat s noted F.TCM_ERR.rows 0 0 := counted
  have marked : countedSat s fenced F.TCM_ERR.rows 0 0 ∧ (g, phys, row) ∈ fenced.tbl.tcmBad := by
    unfold fenced
    split
    next there => exact ⟨rows, List.contains_iff_mem.1 there⟩
    next =>
      refine ⟨countedSat_rowFenced rows rfl (by decide), ?_⟩
      exact List.mem_append_right _ (List.mem_singleton_self _)
  refine ⟨(fencing_kept ..).countedSat (by decide) marked.1, ?_⟩
  rw [(fencing_kept ..).tbl]
  exact marked.2

/-- What is filtered out of a list is not in it. -/
theorem not_mem_filter_ne {l : List Nat} (x : Nat) : x ∉ l.filter (· ≠ x) := by simp

theorem tblScrub_corrects {s : State} (g u : Nat) (awake : s.frozen = false) :
    goesTo (exec (.tblScrub g u 1) s) fun t => countedSat s t F.TBL_ECC.corr 0 0 ∧ tblBankUnit g (unitBank u) ∉ t.tbl.asleep := by
  show goesTo (execTblScrub g u 1 s) _
  refine goesTo_actAwake awake ?_
  extract_lets _ woken
  obtain ⟨counted, kept⟩ := tblCorrected_counts woken g u
  refine ⟨counted, ?_⟩
  show _ ∉ (woken.tblCorrected g u).tbl.asleep
  rw [kept]
  exact not_mem_filter_ne _

theorem tblScrub_fences {s : State} (g u : Nat) (awake : s.frozen = false) :
    goesTo (exec (.tblScrub g u 2) s) fun t =>
      countedSat s t F.TBL_ECC.uncorr 0 0 ∧ (g, u / 2 * 2) ∈ t.tbl.bad ∧ (g, u / 2 * 2 + 1) ∈ t.tbl.bad := by
  show goesTo (execTblScrub g u 2 s) _
  refine goesTo_actAwake awake ?_
  extract_lets _ woken
  exact tblUncorr_fences woken g u

theorem tcmScrub_corrects {s : State} (g p row : Nat) (awake : s.frozen = false) :
    goesTo (exec (.tcmScrub g p row 1) s) fun t => countedSat s t F.TCM_ERR.corr 0 0 ∧ tcmUnit g p ∉ t.tbl.tcmSleep := by
  show goesTo (execTcmScrub g p row 1 s) _
  refine goesTo_actAwake awake ?_
  extract_lets _ woken
  obtain ⟨counted, kept⟩ := tcmCorrected_counts woken g p row
  refine ⟨counted, ?_⟩
  show _ ∉ (woken.tcmCorrected g p row).tbl.tcmSleep
  rw [kept]
  exact not_mem_filter_ne _

theorem tcmScrub_fences {s : State} (g p row : Nat) (awake : s.frozen = false) :
    goesTo (exec (.tcmScrub g p row 2) s) fun t => countedSat s t F.TCM_ERR.rows 0 0 ∧ (g, p, row) ∈ t.tbl.tcmBad := by
  show goesTo (execTcmScrub g p row 2 s) _
  refine goesTo_actAwake awake ?_
  extract_lets _ woken
  exact tcmRowFail_fences woken g p row false

/-! ## Retention (R229, R258) -/

theorem tblBankRetention_sleeps {s : State} (g b : Nat) (idle : s.fget F.TBL_CFG.idle ≠ 0) :
    goesTo (exec (.tblBankRetention g b) s) fun t => (s.tblOff b = false → tblBankUnit g b ∈ t.tbl.asleep) ∧ t.regs = s.regs := by
  show goesTo (execTblBankRetention g b s) _
  refine goesTo_act ?_
  extract_lets u
  split
  next stays =>
    refine ⟨fun on => ?_, rfl⟩
    obtain never | asleep | off := stays
    · exact absurd never idle
    · exact List.contains_iff_mem.1 asleep
    · rw [on] at off
      cases off
  next => exact ⟨fun _ => List.mem_append_right _ (List.mem_singleton_self _), rfl⟩

theorem tcmBankRetention_sleeps {s : State} (g p : Nat) (idle : s.fget F.TCM_CFG.idle ≠ 0) :
    goesTo (exec (.tcmBankRetention g p) s) fun t => (s.tcmOff g p = false → tcmUnit g p ∈ t.tbl.tcmSleep) ∧ t.regs = s.regs := by
  show goesTo (execTcmBankRetention g p s) _
  refine goesTo_act ?_
  extract_lets u
  split
  next stays =>
    refine ⟨fun on => ?_, rfl⟩
    obtain ⟨never, -⟩ | asleep | off := stays
    · exact absurd never idle
    · exact List.contains_iff_mem.1 asleep
    · rw [on] at off
      cases off
  next => exact ⟨fun _ => List.mem_append_right _ (List.mem_singleton_self _), rfl⟩

/-! ## Row repair (R226, R227, R254, R255) -/

/-- The end of a repair, where the bank has no failed row left, keeps the engine. -/
theorem repairEnd_kept (s : State) (left : Bool) (u : Nat) : EngineKept endRegs s (if left then s else s.rowsDone u) :=
  .ite (.refl s) (.rowsDone (.refl s))

theorem tableRowRepair_ends (s : State) (g u : Nat) :
    goesTo (exec (.tableRowRepair g u) s) fun t => (g, u / 2 * 2) ∉ t.tbl.bad ∧ (g, u / 2 * 2 + 1) ∉ t.tbl.bad := by
  show goesTo (execTableRowRepair g u s) _
  refine goesTo_act ?_
  dsimp -zeta only [State.withQueue_tbl]
  extract_lets r bank _ woken clear finish readable ok
  split
  next sound => simpa using sound
  next =>
    have repaired (v : State) : (g, r) ∉ (finish (clear v)).tbl.bad ∧ (g, r + 1) ∉ (finish (clear v)).tbl.bad := by
      have kept : (finish (clear v)).tbl = (clear v).tbl := (repairEnd_kept (clear v) _ bank).tbl
      rw [kept]
      have even : r / 2 * 2 = r ∧ (r + 1) / 2 * 2 = r := by unfold r; omega
      simp [clear, even]
    split
    · exact repaired _
    · exact repaired _

/-! ## Failed rows of the search banks (R255) -/

theorem showRows_tbl (s : State) (g phys : Nat) : (s.showRows g phys).tbl = s.tbl := by
  unfold State.showRows
  extract_lets left shown
  have same : shown.tbl = s.tbl := by unfold shown; split <;> rfl
  split
  · exact same
  · exact same

/-- Whether a bank has a repair row left is read from the rows used. -/
theorem takeRow_isSome {s : State} {u : Nat} : (s.takeRow u).isSome = true ↔ s.rowsUsed u < rowsTotal u := by
  unfold State.takeRow
  split
  next none_ => exact ⟨fun taken => absurd taken Bool.false_ne_true, fun room => absurd none_ (Nat.not_le.2 room)⟩
  next room => exact ⟨fun _ => Nat.not_le.1 room, fun _ => rfl⟩

/-- TCM_ROW_REPAIR does nothing for a row that has not failed. -/
theorem tcmRowRepair_sound {s : State} {g p row : Nat} (sound : (g, p, row) ∉ s.tbl.tcmBad) :
    goesTo (exec (.tcmRowRepair g p row) s) fun t => t = s := by
  show goesTo (execTcmRowRepair g p row s) _
  refine goesTo_act ?_
  rw [if_pos (by simpa using sound)]
  rfl

/-- The banks of the engine that a repair of a search bank's row wakes. -/
def State.repairWoken (s : State) (g p : Nat) : State := match s.logicalOf g p with | some b => s.wakeTcm b | none => s

/-- A row of a search bank is no longer listed as failed. -/
def State.unfailed (s : State) (g p row : Nat) : State :=
  { s with tbl := { s.tbl with tcmBad := s.tbl.tcmBad.filter (· ≠ (g, p, row)) } }

/-- A replica reads the row for the logical bank that the physical one serves, or the bank serves none. -/
def State.rowCopied (s : State) (g p row : Nat) : Bool :=
  match s.logicalOf g p with
  | some b => (List.range 4).any fun h => s.rowReads h (s.physOf h b) row
  | none => true

/-- The state after a failed row has been remapped, or lost. -/
def State.rowEnded (s : State) (g p row : Nat) : State :=
  match (if s.rowCopied g p row then (s.repairWoken g p).takeRow (tcmUnit g p) else none) with
  | some t => (t.unfailed g p row).showRows g p
  | none => ((s.repairWoken g p).unfailed g p row).loseRow g p row

/-- TCM_ROW_REPAIR remaps or loses a failed row, and ends the reaction with the bank's last one. -/
theorem goesTo_tcmRowRepair {s : State} {g p row : Nat} {P : State → Prop} (failed : (g, p, row) ∈ s.tbl.tcmBad)
    (holds : ∀ t, EngineKept endRegs (s.rowEnded g p row) t → P t) : goesTo (exec (.tcmRowRepair g p row) s) P := by
  show goesTo (execTcmRowRepair g p row s) P
  refine goesTo_act ?_
  rw [if_neg (by simpa using failed)]
  refine holds _ ?_
  exact .beside (repairEnd_kept _ _ _) rfl rfl rfl rfl rfl

/-- A repair changes of the engine what sleeps, and nothing that a header or an entry is read from. -/
theorem repairWoken_same (s : State) (g p : Nat) :
    (s.repairWoken g p).flt = s.flt ∧ (s.repairWoken g p).tbl.ops = s.tbl.ops ∧ (s.repairWoken g p).logicalOf g p = s.logicalOf g p ∧
      ∀ b, (s.repairWoken g p).headerNow b = s.headerNow b := by
  unfold State.repairWoken
  split
  · exact ⟨rfl, rfl, rfl, fun _ => rfl⟩
  · exact ⟨rfl, rfl, rfl, fun _ => rfl⟩

/-- A failed row that has a copy, or serves no bank, and finds a repair row, is readable again. -/
theorem tcmRowRepair_remaps {s : State} {g p row : Nat} (room : (s.takeRow (tcmUnit g p)).isSome = true)
    (copied : ∀ b, s.logicalOf g p = some b → ∃ h, h < 4 ∧ s.rowReads h (s.physOf h b) row = true) :
    goesTo (exec (.tcmRowRepair g p row) s) fun t => (g, p, row) ∉ t.tbl.tcmBad := by
  by_cases failed : (g, p, row) ∈ s.tbl.tcmBad
  case neg =>
    obtain ⟨t, ran, same⟩ := tcmRowRepair_sound failed
    exact ⟨t, ran, same ▸ failed⟩
  case pos =>
    refine goesTo_tcmRowRepair failed fun t kept => ?_
    have read : s.rowCopied g p row = true := by
      unfold State.rowCopied
      split
      next b serves =>
        obtain ⟨h, small, reads⟩ := copied b serves
        exact List.any_eq_true.2 ⟨h, List.mem_range.2 small, reads⟩
      next => rfl
    have woken : ((s.repairWoken g p).takeRow (tcmUnit g p)).isSome = true := by
      rw [takeRow_isSome] at room ⊢
      rwa [State.rowsUsed, (repairWoken_same s g p).1]
    obtain ⟨u, taken⟩ := Option.isSome_iff_exists.1 woken
    have ended : s.rowEnded g p row = (u.unfailed g p row).showRows g p := by
      unfold State.rowEnded
      rw [if_pos read, taken]
    rw [kept.tbl, ended, showRows_tbl]
    simp [State.unfailed]

theorem commitAll_none {s : State} (none_ : s.tbl.ops = []) : s.commitAll = s := by
  unfold State.commitAll
  rw [none_]
  rfl

theorem tcmLost_kept (s : State) (g b e : Nat) (whole : Bool) : EngineKept (.TBL_CNT :: recordRegs) s (s.tcmLost g b e whole) := by
  unfold State.tcmLost
  exact .emitPart (.bump (f := F.TBL_CNT.count) (.refl s) (by decide)) (by decide)

/-- A row that is lost stays so, and the entry that has it is invalid. -/
theorem loseRow_invalidates {s : State} {g p row b : Nat} (none_ : s.tbl.ops = []) (serves : s.logicalOf g p = some b) :
    (g, p, row) ∈ (s.loseRow g p row).tbl.tcmDead ∧
      ((s.loseRow g p row).tcmEntry b (row / rowsPer (s.headerNow b))).valid = false := by
  let dead : State := { s with tbl := { s.tbl with tcmDead := s.tbl.tcmDead ++ [(g, p, row)] } }
  let e := row / rowsPer (s.headerNow b)
  let x : TcmEntry := { s.tcmEntry b e with valid := false }
  have effect : s.loseRow g p row = (dead.tcmLost g b e false).setTcm b e x := by
    unfold State.loseRow
    rw [commitAll_none none_]
    dsimp only
    rw [show State.logicalOf dead g p = some b from serves]
    rfl
  have lost := tcmLost_kept dead g b e false
  have whole : x.fits ((dead.tcmLost g b e false).headerNow b) := by
    rw [lost.toWithin.headerNow (by decide)]
    exact tcmEntry_fits s b e
  obtain ⟨⟨T, set⟩, replaced⟩ := setTcm_replaces e whole
  rw [effect]
  refine ⟨?_, congrArg TcmEntry.valid replaced⟩
  rw [set]
  show _ ∈ (dead.tcmLost g b e false).tbl.tcmDead
  rw [lost.tbl]
  exact List.mem_append_right _ (List.mem_singleton_self _)

/-- A failed row without a good copy is lost, and its entry invalid. -/
theorem tcmRowRepair_loses {s : State} {g p row b : Nat} (failed : (g, p, row) ∈ s.tbl.tcmBad) (none_ : s.tbl.ops = [])
    (serves : s.logicalOf g p = some b) (unread : ∀ h, h < 4 → s.rowReads h (s.physOf h b) row = false) :
    goesTo (exec (.tcmRowRepair g p row) s) fun t =>
      (g, p, row) ∈ t.tbl.tcmDead ∧ (t.tcmEntry b (row / rowsPer (s.headerNow b))).valid = false := by
  refine goesTo_tcmRowRepair failed fun t kept => ?_
  have uncopied : s.rowCopied g p row = false := by
    unfold State.rowCopied
    rw [serves]
    exact List.any_eq_false.2 fun h small => by rw [unread h (List.mem_range.1 small)]; decide
  obtain ⟨-, ops, logical, header⟩ := repairWoken_same s g p
  have ended : s.rowEnded g p row = ((s.repairWoken g p).unfailed g p row).loseRow g p row := by
    unfold State.rowEnded
    rw [if_neg (by simp [uncopied])]
  have lost := loseRow_invalidates (s := (s.repairWoken g p).unfailed g p row) (row := row) (b := b) (ops.trans none_) (logical.trans serves)
  rw [kept.tbl, kept.tcmEntry (by decide), ended, ← header]
  exact lost

/-! ## Promotion (R256) -/

/-- A write of another field of a bank's register leaves which physical bank serves a logical one. -/
theorem physOf_fset (s : State) {f : Fld} (g v : Nat) {b n : Nat} (logical : b < 64) (small : n < 64) (reg : f.reg = .TCM_BANK)
    (apart : f.hi < F.TCM_BANK.phys.lo ∨ F.TCM_BANK.phys.hi < f.lo) : (s.fset f (64 * g + n) 0 v).physOf g b = s.physOf g b := by
  by_cases same : n = b
  · subst same
    exact s.fget_fset_fld _ 0 v reg.symm apart
  · exact s.fget_fset_copy v (.inl (by omega))

theorem Within.physOf {rs : List Reg} {s t : State} (h : Within rs s t) (other : .TCM_BANK ∉ rs) (g b : Nat) : t.physOf g b = s.physOf g b :=
  h.fget F.TCM_BANK.phys (64 * g + b) 0 other

theorem logicalOf_lt {s : State} {g p b : Nat} (serves : s.logicalOf g p = some b) : b < 32 :=
  List.mem_range.1 (List.mem_of_find?_eq_some serves)

theorem physOf_showRows (s : State) (g : Nat) {p b : Nat} (logical : b < 64) (small : p < 64) : (s.showRows g p).physOf g b = s.physOf g b := by
  unfold State.showRows
  extract_lets left shown
  have same : shown.physOf g b = s.physOf g b := by
    unfold shown
    split
    · exact physOf_fset s g left logical small rfl (by decide)
    · rfl
  split
  next c serves =>
    have bound := logicalOf_lt serves
    exact (physOf_fset shown g left logical (by omega) rfl (by decide)).trans same
  next => exact same

/-- The registers that the end of a promotion changes. -/
def promoRegs : List Reg := .FLT_SPARE :: endRegs

theorem settleSpare_kept (s : State) (k u spare : Nat) : EngineKept promoRegs s (s.settleSpare k u spare) := by
  unfold State.settleSpare
  extract_lets back others _ settled
  have kept : EngineKept promoRegs s settled := .flt (.refl s)
  exact .ite kept (.drop (f := F.FLT_SPARE.left) kept (by decide))

theorem benchOut_kept (s : State) (k u : Nat) : EngineKept promoRegs s (s.benchOut k u) := by
  unfold State.benchOut State.benchEmpty
  exact .ite (.refl s) (.ite (.refl s) (.emitPart (.flt (.refl s)) (by decide)))

theorem benchDone_kept (s : State) (p : Promo) : EngineKept promoRegs s (s.benchDone p) := by
  unfold State.benchDone
  exact .tailAppend (.emitPart (.refl s) (by decide)) (by decide)

theorem finishPromo_kept (s : State) (n : Nat) : EngineKept promoRegs s (s.finishPromo n) := by
  unfold State.finishPromo
  split
  · exact .refl s
  next p _ =>
    extract_lets _ ended settled
    have kept : EngineKept promoRegs s ended := .flt (.refl s)
    have counted : EngineKept promoRegs ended settled := .bump (f := F.FLT_CNT.count) (settleSpare_kept ended _ _ _) (by decide)
    have told : EngineKept promoRegs settled ((settled.benchDone p).endReaction n) := .flt (benchDone_kept settled p)
    exact ((kept.trans counted).trans told).trans (benchOut_kept _ _ _)

theorem countFenced_kept (s : State) (k u : Nat) : EngineKept promoRegs s (s.countFenced k u) := by
  unfold State.countFenced
  exact .flt (.bump (f := F.FLT_SPARE.fenced) (.refl s) (by decide))

/-- The bank's registers once the spare `new` serves the logical bank `b` in place of the bank `old`. -/
def State.bankRemapped (s : State) (g b old new : Nat) : State :=
  let s := (s.fset F.TCM_BANK.phys (64 * g + b) 0 new).fset F.TCM_BANK.margin (64 * g + b) 0 (s.fget F.TCM_BANK.margin (64 * g + new))
  let s := s.fset F.TCM_BANK.state (64 * g + new) 0 0
  let s := if 32 ≤ old then s.fset F.TCM_BANK.state (64 * g + old) 0 3 else s
  s.showRows g new

theorem bankRemapped_physOf (s : State) (g : Nat) {b old new : Nat} (logical : b < 64) (failed : old < 64) (spare : new < 64) :
    (s.bankRemapped g b old new).physOf g b = new := by
  unfold State.bankRemapped
  extract_lets mapped freed fenced
  have served : mapped.physOf g b = new :=
    calc mapped.physOf g b
      _ = (s.fset F.TCM_BANK.phys (64 * g + b) 0 new).physOf g b := physOf_fset _ g _ logical logical rfl (by decide)
      _ = new % 64 := s.fget_fset_same _ 0 new (by decide)
      _ = new := Nat.mod_eq_of_lt spare
  have kept : freed.physOf g b = mapped.physOf g b := physOf_fset mapped g 0 logical spare rfl (by decide)
  have ended : fenced.physOf g b = freed.physOf g b := by
    unfold fenced
    split
    · exact physOf_fset freed g 3 logical failed rfl (by decide)
    · rfl
  exact (physOf_showRows fenced g logical spare).trans (ended.trans (kept.trans served))

/-- At the end of a promotion the spare serves the logical bank that the failed one served. -/
theorem tcmPromotionDone_remaps {s : State} {u b : Nat} {p : Promo}
    (found : (s.flt.promos.find? fun x => decide (x.unit = u ∧ x.kind = 1)) = some p)
    (serves : s.logicalOf ((u - 0x200) / 64) ((u - 0x200) % 64) = some b) :
    goesTo (exec (.tcmPromotionDone u) s) fun t => t.physOf ((u - 0x200) / 64) b = (p.spare - 0x200) % 64 := by
  show goesTo (execTcmPromotionDone u s) _
  refine goesTo_act ?_
  have logical : b < 64 := (logicalOf_lt serves).trans (by decide)
  split
  case h_1 missing => exact absurd (found.symm.trans missing) (Option.some_ne_none p)
  case h_2 q first =>
    obtain rfl : p = q := Option.some.inj (found.symm.trans first)
    extract_lets g old new
    have mapped : (s.bankRemapped g b old new).physOf g b = new :=
      bankRemapped_physOf s g logical (Nat.mod_lt _ (by decide)) (Nat.mod_lt _ (by decide))
    split
    case h_1 unserved => exact absurd (serves.symm.trans unserved) (Option.some_ne_none b)
    case h_2 c serving =>
      obtain rfl : b = c := Option.some.inj (serves.symm.trans serving)
      extract_lets owner moved freed fenced shown counted recorded
      have fence : EngineKept promoRegs shown counted := .ite (.refl shown) (countFenced_kept shown 1 u)
      have told : EngineKept promoRegs counted recorded := .emitPart (.refl counted) (by decide)
      have ended := (fence.trans told).trans (finishPromo_kept recorded u)
      exact (ended.toWithin.physOf (by decide) g b).trans mapped

/-- Settles O39: an error found is counted or makes its unit unreadable, a repair remaps the row or gives its entry up, a promotion remaps the bank,
and a bank idle for long enough sleeps. -/
theorem tableMemoryIsScrubbedAndRepaired : Obligations.TableMemoryIsScrubbedAndRepaired := by
  unfold Obligations.TableMemoryIsScrubbedAndRepaired
  exact ⟨fun _ g u => tblScrub_corrects g u, fun _ g u => tblScrub_fences g u, fun _ g b => tblBankRetention_sleeps g b,
    fun s g u => tableRowRepair_ends s g u, fun _ g p row => tcmScrub_corrects g p row, fun _ g p row => tcmScrub_fences g p row,
    fun _ g p => tcmBankRetention_sleeps g p, fun _ _ _ _ => tcmRowRepair_remaps, fun _ _ _ _ _ => tcmRowRepair_loses,
    fun _ _ _ _ => tcmRowRepair_sound, fun _ _ _ _ => tcmPromotionDone_remaps⟩

end Sys2Proof.Machine
end

section
/-! PROOFS. The operations of the buffer pool manager (R270–R277): the status by which each is refused, and what each makes of the buffer, which
settle O34. -/

namespace Sys2Proof.Machine

/-! ## Buffers that change -/

@[simp] theorem buf_setBuf (s : State) (h : Nat) (b : Buf) : (s.setBuf h b).buf h = some b := tabFind_insert_same ..

theorem bufs_charge (s : State) (a : Acct) (u : Nat) : (s.charge a u).bufs = s.bufs := by
  cases a <;> rfl

theorem bufs_refuseOp (s : State) (p status : Nat) : (s.refuseOp p status).bufs = s.bufs := by
  unfold State.refuseOp
  split
  · rfl
  · rfl

/-- A FREE buffer that is held stands under its tag at count 1 (R272). -/
theorem buf_hold (s : State) (h tag part : Nat) (a : Acct) :
    (s.hold h tag part a).buf h = some { count := 1, tag := tag, part := part, acct := a } :=
  (congrArg (tabFind · h) (bufs_charge ..)).trans (buf_setBuf ..)

/-- A buffer that is quarantined keeps its count, its tag and its account (R276). -/
theorem buf_quarantine {s : State} {h : Nat} {b : Buf} (held : s.buf h = some b) (unit op status : Nat) :
    (s.quarantine unit op status h b).buf h = some { b with quar := true } := by
  unfold State.quarantine
  split
  next quar => rw [held, ← quar]
  · rw [State.buf, State.bufRecord, bufs_emitBoth]
    exact buf_setBuf ..

/-! ## Why an operation is refused (R273) -/

section
variable (s : State) (unit part arg : Nat) (b : Buf)

theorem opStatus_retain : s.opStatus unit part opRetain arg b =
    if b.part ≠ part ∧ part ≠ 16 then 4 else if b.quar then 6 else if 16383 < b.count + arg then 7 else 0 := by
  simp [State.opStatus, opRetain, opRelease, opFree, opGive, opReclaim, opLeave]

theorem opStatus_release : s.opStatus unit part opRelease arg b =
    if b.part ≠ part ∧ part ≠ 16 then 4 else if b.count = 1 then 8 else 0 := by
  simp [State.opStatus, opRetain, opRelease, opFree, opGive, opReclaim, opLeave]

theorem opStatus_free : s.opStatus unit part opFree arg b =
    if b.part ≠ part ∧ part ≠ 16 then 4 else if b.quar then 6 else if b.count ≠ 1 then 8 else if b.tag ≠ unit then 9 else 0 := by
  simp [State.opStatus, opRetain, opRelease, opFree, opGive, opReclaim, opLeave]

theorem opStatus_give : s.opStatus unit part opGive arg b =
    if b.part ≠ part ∧ part ≠ 16 then 4 else if b.quar then 6 else if b.tag ≠ unit then 9
    else if s.unitPart arg ≠ b.part ∧ s.unitPart arg ≠ 16 then 9 else 0 := by
  simp [State.opStatus, opRetain, opRelease, opFree, opGive, opReclaim, opLeave]

theorem opStatus_reclaimed : s.opStatus unit part opReclaim arg b =
    if b.part ≠ part ∧ part ≠ 16 then 4 else if !b.quar then 5 else if b.count ≠ 1 then 8 else 0 := by
  simp [State.opStatus, opRetain, opRelease, opFree, opGive, opReclaim, opLeave]

theorem opStatus_leave : s.opStatus unit 16 opLeave arg b = 0 := by
  simp [State.opStatus, opRetain, opRelease, opFree, opGive, opReclaim, opLeave]

end

/-! ## What an operation makes of its buffer (R272, R275, R276) -/

section
variable (s : State) (unit h arg : Nat) (b : Buf)

theorem buf_opEffect_retain : (s.opEffect unit opRetain h arg b).buf h = some { b with count := b.count + arg } := buf_setBuf ..

theorem buf_opEffect_release : (s.opEffect unit opRelease h arg b).buf h = some { b with count := b.count - 1 } := buf_setBuf ..

theorem buf_opEffect_free : (s.opEffect unit opFree h arg b).buf h = none := buf_freeBuf ..

theorem buf_opEffect_give : (s.opEffect unit opGive h arg b).buf h = some { b with tag := arg } :=
  (congrArg (tabFind · h) (bufs_leaveWindows ..)).trans (buf_setBuf ..)

theorem buf_opEffect_reclaim : (s.opEffect unit opReclaim h arg b).buf h = none := by
  rw [opEffect_reclaim, State.buf, State.bufRecord, bufs_emitBoth]
  exact buf_freeBuf _ h

theorem opEffect_leave : s.opEffect unit opLeave h arg b =
    if 1 < b.count then (s.setBuf h { b with count := b.count - 1 }).bpmCount b.part 6
    else if b.quar then s else (s.setBuf h { b with tag := arg }).freeBuf h := rfl

end

/-! ## Operations that are presented -/

theorem bpmOp_accepted {s : State} {unit part op h arg : Nat} {b : Buf} (known : s.handleOk h = true) (held : s.buf h = some b)
    (accepted : s.opStatus unit part op arg b = 0) : s.bpmOp unit part op h arg = (0, s.opEffect unit op h arg b) := by
  unfold State.bpmOp
  simp only [known, held, accepted, Bool.not_true, Bool.false_eq_true, if_false, if_true]

theorem bpmOp_lastRelease {s : State} {unit part h arg : Nat} {b : Buf} (known : s.handleOk h = true) (held : s.buf h = some b)
    (last : s.opStatus unit part opRelease arg b = 8) :
    s.bpmOp unit part opRelease h arg = (8, (s.refuseOp part 8).quarantine unit opRelease 8 h b) := by
  unfold State.bpmOp
  simp [known, held, last]

/-- A command that presents an operation which is accepted answers 0, with the operation's effect on its buffer. -/
theorem goesTo_accepted {s : State} {cmd : Instr} {unit part op h arg : Nat} {b : Buf} {after : Option Buf}
    (runs : exec cmd s = .next (((s.bpmOp unit part op h arg).2.answer (s.bpmOp unit part op h arg).1 h).withQueue s.pending))
    (known : s.handleOk h = true) (held : s.buf h = some b) (accepted : s.opStatus unit part op arg b = 0)
    (effect : (s.opEffect unit op h arg b).buf h = after) : goesTo (exec cmd s) fun t => t.bpmReply = (0, h) ∧ t.buf h = after := by
  rw [bpmOp_accepted known held accepted] at runs
  exact ⟨_, runs, rfl, effect⟩

/-- The presenter of an operation is of the buffer's partition, or one of the owner's units (R273). -/
theorem not_foreign {b : Buf} {p : Nat} (own : b.part = p ∨ p = 16) : ¬(b.part ≠ p ∧ p ≠ 16) := by
  rintro ⟨other, notOwner⟩
  exact own.elim other notOwner

section
variable {s : State} {u h : Nat} {b : Buf} (known : s.handleOk h = true) (held : s.buf h = some b)
include known held

theorem bpmRetain_adds {n : Nat} (own : b.part = s.unitPart u ∨ s.unitPart u = 16) (whole : b.quar = false) (small : b.count + n ≤ 16383) :
    goesTo (exec (.bpmRetain u h n) s) fun t => t.bpmReply = (0, h) ∧ t.buf h = some { b with count := b.count + n } := by
  refine goesTo_accepted rfl known held ?_ (buf_opEffect_retain ..)
  rw [opStatus_retain, if_neg (not_foreign own), whole, if_neg Bool.false_ne_true, if_neg (Nat.not_lt.2 small)]

theorem bpmRelease_takes (own : b.part = s.unitPart u ∨ s.unitPart u = 16) (more : b.count ≠ 1) :
    goesTo (exec (.bpmRelease u h) s) fun t => t.bpmReply = (0, h) ∧ t.buf h = some { b with count := b.count - 1 } := by
  refine goesTo_accepted rfl known held ?_ (buf_opEffect_release ..)
  rw [opStatus_release, if_neg (not_foreign own), if_neg more]

/-- RELEASE at count 1 is refused: the buffer goes into quarantine (R273, R276). -/
theorem bpmRelease_quarantines (own : b.part = s.unitPart u ∨ s.unitPart u = 16) (last : b.count = 1) :
    goesTo (exec (.bpmRelease u h) s) fun t => t.bpmReply = (8, h) ∧ t.buf h = some { b with quar := true } := by
  have status : s.opStatus u (s.unitPart u) opRelease 0 b = 8 := by
    rw [opStatus_release, if_neg (not_foreign own), if_pos last]
  show goesTo (execBpmRelease u h s) _
  refine goesTo_act ?_
  rw [bpmOp_lastRelease known held status]
  exact ⟨rfl, buf_quarantine ((congrArg (tabFind · h) (bufs_refuseOp ..)).trans held) ..⟩

theorem bpmFree_frees (own : b.part = s.unitPart u ∨ s.unitPart u = 16) (whole : b.quar = false) (last : b.count = 1) (tagged : b.tag = u) :
    goesTo (exec (.bpmFree u h) s) fun t => t.bpmReply = (0, h) ∧ t.buf h = none := by
  refine goesTo_accepted rfl known held ?_ (buf_opEffect_free ..)
  rw [opStatus_free, if_neg (not_foreign own), whole, if_neg Bool.false_ne_true, if_neg (not_not.2 last), if_neg (not_not.2 tagged)]

theorem bpmGive_tags {v : Nat} (own : b.part = s.unitPart u ∨ s.unitPart u = 16) (whole : b.quar = false) (tagged : b.tag = u)
    (takes : s.unitPart v = b.part ∨ s.unitPart v = 16) :
    goesTo (exec (.bpmGive u h v) s) fun t => t.bpmReply = (0, h) ∧ t.buf h = some { b with tag := v } := by
  refine goesTo_accepted rfl known held ?_ (buf_opEffect_give ..)
  rw [opStatus_give, if_neg (not_foreign own), whole, if_neg Bool.false_ne_true, if_neg (not_not.2 tagged),
    if_neg fun refused => takes.elim refused.1 refused.2]

theorem bpmReclaim_frees (own : b.part = s.unitPart u ∨ s.unitPart u = 16) (quar : b.quar = true) (last : b.count = 1) :
    goesTo (exec (.bpmReclaim u h) s) fun t => t.bpmReply = (0, h) ∧ t.buf h = none := by
  refine goesTo_accepted rfl known held ?_ (buf_opEffect_reclaim ..)
  rw [opStatus_reclaimed, if_neg (not_foreign own), quar, if_neg (by decide), if_neg (not_not.2 last)]

theorem bpmLeave_takes (p : Nat) (more : 1 < b.count) :
    goesTo (exec (.bpmLeave p h) s) fun t => t.bpmReply = (0, h) ∧ t.buf h = some { b with count := b.count - 1 } := by
  refine goesTo_accepted rfl known held (opStatus_leave ..) ?_
  rw [opEffect_leave, if_pos more]
  exact buf_setBuf ..

/-- The last LEAVE frees a buffer that is not in quarantine (R275). -/
theorem bpmLeave_frees (p : Nat) (last : b.count ≤ 1) (whole : b.quar = false) :
    goesTo (exec (.bpmLeave p h) s) fun t => t.bpmReply = (0, h) ∧ t.buf h = none := by
  refine goesTo_accepted rfl known held (opStatus_leave ..) ?_
  rw [opEffect_leave, if_neg (Nat.not_lt.2 last), whole, if_neg Bool.false_ne_true]
  exact buf_freeBuf ..

end

/-! ## Allocation (R272, R277) -/

/-- An existing pool's free buffer is allocated to the presenter, charged to the account that admits it. -/
theorem bpmAlloc_holds {s : State} {u pool h : Nat} (free : s.pickBuf pool = some h) (there : s.poolExists pool = true)
    (admits : pool < 4 → (s.admitPart s.tagNow (s.unitPart u) (poolCharge pool)).isSome = true)
    (owns : 4 ≤ pool → s.poolPart pool = s.unitPart u) :
    goesTo (exec (.bpmAlloc u pool) s) fun t =>
      t.bpmReply = (0, h) ∧ ∃ b, t.buf h = some b ∧ b.count = 1 ∧ b.tag = u ∧ b.part = s.unitPart u ∧ b.quar = false := by
  have allocated : ∃ a, s.bpmAlloc u (s.unitPart u) pool = (0, h, (s.nextFree.hold h u (s.unitPart u) a).bpmCount (s.unitPart u) 0) := by
    unfold State.bpmAlloc
    rw [free]
    dsimp only
    rw [there, Bool.not_true, if_neg Bool.false_ne_true]
    by_cases packet : pool < 4
    · obtain ⟨a, admitted⟩ := Option.isSome_iff_exists.1 (admits packet)
      exact ⟨a, by rw [if_pos packet, admitted]⟩
    · exact ⟨.none, by rw [if_neg packet, if_neg (not_not.2 (owns (Nat.not_lt.1 packet)))]⟩
  obtain ⟨a, allocated⟩ := allocated
  show goesTo (execBpmAlloc u pool s) _
  refine goesTo_act ?_
  rw [allocated]
  exact ⟨rfl, _, buf_hold .., rfl, rfl, rfl, rfl⟩

theorem bpmAlloc_none {s : State} {pool : Nat} (u : Nat) (none_ : s.pickBuf pool = none) :
    goesTo (exec (.bpmAlloc u pool) s) fun t => t.bpmReply = (1, 0) ∧ t.bufs = s.bufs := by
  have refused : s.bpmAlloc u (s.unitPart u) pool = (1, 0, s.refuseOp (s.unitPart u) 1) := by
    unfold State.bpmAlloc
    rw [none_]
  show goesTo (execBpmAlloc u pool s) _
  refine goesTo_act ?_
  rw [refused]
  exact ⟨rfl, bufs_refuseOp ..⟩

/-! ## The statement -/

/-- Settles O34: each operation of the buffer pool manager, by its status and its effect on the buffer. -/
theorem bufferOperationsAnswer : Obligations.BufferOperationsAnswer := by
  unfold Obligations.BufferOperationsAnswer
  exact ⟨fun _ _ _ _ => bpmAlloc_holds, fun _ u _ => bpmAlloc_none u,
    fun _ _ _ _ known held own => ⟨fun _ => bpmRetain_adds known held own, bpmRelease_takes known held own,
      bpmRelease_quarantines known held own, bpmFree_frees known held own, fun _ => bpmGive_tags known held own,
      bpmReclaim_frees known held own⟩,
    fun _ p _ _ known held => ⟨bpmLeave_takes known held p, bpmLeave_frees known held p⟩⟩

end Sys2Proof.Machine
end

section
/-! PROOFS. Making copies (R279–R291): what charging, tracing and enqueueing leave alone of frames, groups and the switch core's own counts, and
how a frame's copies only grow until it is settled. -/

namespace Sys2Proof.Machine

/-! ## Frames that change -/

theorem tabFind_insert_ne {α : Type} (t : Tab α) {k j : Nat} (v : α) (other : j ≠ k) : tabFind (tabInsert t k v) j = tabFind t j := by
  induction t with
  | nil => simp [tabInsert, tabFind, other.symm]
  | cons e t ih =>
    by_cases before : k < e.1
    · simp [tabInsert, tabFind, before, other.symm]
    · by_cases here : e.1 = k
      · simp [tabInsert, tabFind, here, other.symm]
      · simp [tabInsert, tabFind, before, here, ih]

/-- A change of one frame leaves the others. -/
theorem frame_modFrame_ne (s : State) {id k : Nat} (g : Frame → Frame) (other : k ≠ id) : (s.modFrame id g).frame k = s.frame k := by
  unfold State.modFrame
  split
  · exact tabFind_insert_ne _ _ other
  · rfl

theorem modFrame_framesOnly (s : State) (id : Nat) (g : Frame → Frame) : ∃ l, s.modFrame id g = { s with frames := l } := by
  unfold State.modFrame
  split
  · exact ⟨_, rfl⟩
  · exact ⟨s.frames, rfl⟩

/-! ## The relations -/

/-- The switch core's registers that making copies reads or counts in. -/
def switchRegs : List Reg := [.SWC_CNT, .SWC_PMIR]

/-- From `s` to `t`, no copy is made: frames and groups are as they were, and so are the number of the next copy, the watch list, the balance of
dropped and decided frames and the switch core's counters and mirror settings. -/
structure CopiesKept (s t : State) : Prop extends JobsKept s t where
  next : t.nextCopy = s.nextCopy
  watch : t.watch = s.watch
  bal : ∀ p i, i = 2 ∨ i = 3 → t.bal p i = s.bal p i
  read : ∀ r c i, r ∈ switchRegs → t.rd r c i = s.rd r c i

/-- From `s` to `t`, copies may be made: groups and the balance of dropped and decided frames are as they were, and so is the counter of MULTICAST
results; copies are numbered upwards, and a frame that has a copy loses none. -/
structure CopiesGrow (s t : State) : Prop where
  groups : t.groups = s.groups
  next : s.nextCopy ≤ t.nextCopy
  bal : ∀ p i, i = 2 ∨ i = 3 → t.bal p i = s.bal p i
  lists : ∀ p, t.fget F.SWC_CNT.count p 1 = s.fget F.SWC_CNT.count p 1
  copies : ∀ id f, s.frame id = some f → f.copies ≠ 0 → ∃ h, t.frame id = some h ∧ f.copies ≤ h.copies

theorem bal_balAdd_same (s : State) (p i n : Nat) : (s.balAdd p i n).bal p i = (s.bal p i + n) % 2 ^ 72 := tabGet_set_same ..

theorem bal_balAdd_ne (s : State) (p q : Nat) {i j : Nat} (n : Nat) (other : j ≠ i) (hi : i < 16) (hj : j < 16) :
    (s.balAdd p i n).bal q j = s.bal q j := tabGet_set_ne _ _ _ (by omega)

theorem bal_balSub_ne (s : State) (p q : Nat) {i j : Nat} (n : Nat) (other : j ≠ i) (hi : i < 16) (hj : j < 16) :
    (s.balSub p i n).bal q j = s.bal q j := tabGet_set_ne _ _ _ (by omega)

theorem flag_congr {s t : State} {f : Fld} {c i : Nat} (read : t.rd f.reg c i = s.rd f.reg c i) : t.flag f c i = s.flag f c i := by
  unfold State.flag State.fget
  rw [read]

/-- The as-received sessions of a frame are read from the mirror settings and the watch list (R286, R288). -/
theorem inSessions_congr {s t : State} (watch : t.watch = s.watch) (read : ∀ i n, t.rd .SWC_PMIR i n = s.rd .SWC_PMIR i n) (f : Frame) (r : Result) :
    t.inSessions f r = s.inSessions f r := by
  unfold State.inSessions State.watchSession State.flag State.fget
  rw [show F.SWC_PMIR.in_en.reg = .SWC_PMIR from rfl, show F.SWC_PMIR.in_sess.reg = .SWC_PMIR from rfl, read, watch]

namespace CopiesKept

theorem refl (s : State) : CopiesKept s s := ⟨.refl s, rfl, rfl, fun _ _ _ => rfl, fun _ _ _ _ => rfl⟩

variable {s t u : State}

theorem trans (h : CopiesKept s t) (k : CopiesKept t u) : CopiesKept s u :=
  ⟨h.toJobsKept.trans k.toJobsKept, k.next.trans h.next, k.watch.trans h.watch, fun p i own => (k.bal p i own).trans (h.bal p i own),
    fun r c i own => (k.read r c i own).trans (h.read r c i own)⟩

theorem ite {c : Prop} [Decidable c] (h : CopiesKept s t) (k : CopiesKept s u) : CopiesKept s (if c then t else u) := by
  split
  · exact h
  · exact k

/-- A run of steps that each make no copy makes none. -/
theorem foldl {α : Type} {f : State → α → State} (h : CopiesKept s t) (step : ∀ u x, CopiesKept u (f u x)) (l : List α) :
    CopiesKept s (l.foldl f t) :=
  h.trans (foldl_rel refl trans step l t)

/-- A change of what the relation does not speak of. -/
theorem beside (h : CopiesKept s t) (frames : u.frames = t.frames) (groups : u.groups = t.groups) (next : u.nextCopy = t.nextCopy)
    (watch : u.watch = t.watch) (balance : u.balance = t.balance) (regs : u.regs = t.regs) : CopiesKept s u :=
  h.trans ⟨⟨frames, groups⟩, next, watch, fun _ _ _ => congrArg (tabGet 0 · _) balance, fun _ _ _ _ => congrArg (regGet · _ _ _) regs⟩

theorem fget (h : CopiesKept s t) (f : Fld) (c i : Nat) (own : f.reg ∈ switchRegs) : t.fget f c i = s.fget f c i := by
  unfold State.fget
  rw [h.read _ _ _ own]

theorem flag (h : CopiesKept s t) (f : Fld) (c i : Nat) (own : f.reg ∈ switchRegs) : t.flag f c i = s.flag f c i := by
  unfold State.flag
  rw [h.fget f c i own]

/-! ## Registers, counts of other kinds and records -/

theorem wr (h : CopiesKept s t) {r : Reg} {c i : Nat} {v : RegVal} (other : r ∉ switchRegs) : CopiesKept s (t.wr r c i v) :=
  h.trans ⟨⟨rfl, rfl⟩, rfl, rfl, fun _ _ _ => rfl, fun _ d j own => t.rd_wr_reg c i d j v fun e => other (ctorIdx_inj e ▸ own)⟩

theorem fset (h : CopiesKept s t) {f : Fld} {c i n : Nat} (other : f.reg ∉ switchRegs) : CopiesKept s (t.fset f c i n) := h.wr other
theorem bump (h : CopiesKept s t) {f : Fld} {c i n : Nat} (other : f.reg ∉ switchRegs) : CopiesKept s (t.bump f c i n) := h.wr other
theorem bumpSat (h : CopiesKept s t) {f : Fld} {c i n : Nat} (other : f.reg ∉ switchRegs) : CopiesKept s (t.bumpSat f c i n) := h.wr other
theorem drop (h : CopiesKept s t) {f : Fld} {c i n : Nat} (other : f.reg ∉ switchRegs) : CopiesKept s (t.drop f c i n) := h.wr other

theorem balAdd (h : CopiesKept s t) {p i n : Nat} (other : 4 ≤ i ∧ i < 16) : CopiesKept s (t.balAdd p i n) :=
  h.trans ⟨⟨rfl, rfl⟩, rfl, rfl, fun q j own => bal_balAdd_ne t p q n (by omega) other.2 (by omega), fun _ _ _ _ => rfl⟩

theorem balSub (h : CopiesKept s t) {p i n : Nat} (other : 4 ≤ i ∧ i < 16) : CopiesKept s (t.balSub p i n) :=
  h.trans ⟨⟨rfl, rfl⟩, rfl, rfl, fun q j own => bal_balSub_ne t p q n (by omega) other.2 (by omega), fun _ _ _ _ => rfl⟩

theorem flt (h : CopiesKept s t) {x : FaultSt} : CopiesKept s { t with flt := x } := h.beside rfl rfl rfl rfl rfl rfl

theorem sent (h : CopiesKept s t) (k : sentOnly t u) : CopiesKept s u := by
  obtain ⟨⟨_, _, _, _, rfl⟩, read⟩ := k
  exact h.trans ⟨⟨rfl, rfl⟩, rfl, rfl, fun _ _ _ => rfl,
    fun r c i own => read r c i ((by decide : ∀ q ∈ switchRegs, q ∉ recordRegs) r own)⟩

theorem emitPart (h : CopiesKept s t) {p cls : Nat} {r : Record} : CopiesKept s (t.emitPart p cls r) := h.sent (emitPart_sentOnly ..)
theorem emitBoth (h : CopiesKept s t) {p cls : Nat} {r : Record} : CopiesKept s (t.emitBoth p cls r) := h.sent (emitBoth_sentOnly ..)

/-! ## Faults and the tailings log (R531–R538) -/

theorem tailAppend (h : CopiesKept s t) {ws : List Nat} {graver : Bool} : CopiesKept s (t.tailAppend ws graver) := by
  unfold State.tailAppend
  refine .ite (.bumpSat h (by decide)) ?_
  extract_lets tail _ entered counted
  have logged : CopiesKept s counted := .fset (.flt h) (by decide)
  exact .ite (.fset logged (by decide)) logged

theorem mergeFault (h : CopiesKept s t) {f : FaultRec} {cause unit cls : Nat} : CopiesKept s (t.mergeFault f cause unit cls) := by
  unfold State.mergeFault
  extract_lets g old new _ merged held counted overflowed frozen
  have recorded : CopiesKept s counted := .bump (.flt h) (by decide)
  have full : CopiesKept s overflowed := .ite (.bump (.fset recorded (by decide)) (by decide)) recorded
  exact .fset (.emitBoth (.ite (.fset full (by decide)) full)) (by decide)

theorem openFault (h : CopiesKept s t) {f : FaultRec} : CopiesKept s (t.openFault f) := by
  unfold State.openFault
  extract_lets slot g _ listed counted overflowed recorded logged
  have entered : CopiesKept s counted := .bump (.ite (.flt h) h) (by decide)
  have full : CopiesKept s overflowed := .ite (.bump (.fset entered (by decide)) (by decide)) entered
  exact .fset (.tailAppend (.emitBoth full)) (by decide)

theorem raise (h : CopiesKept s t) {f : FaultRec} : CopiesKept s (t.raise f) := by
  unfold State.raise
  split
  · exact .mergeFault h
  · exact .openFault h

/-! ## Buffers (R140, R270–R277) -/

theorem modThr (h : CopiesKept s t) {n : Nat} {g : Thread → Thread} : CopiesKept s (t.modThr n g) := h.beside rfl rfl rfl rfl rfl rfl
theorem modPort (h : CopiesKept s t) {p : Nat} {g : PortSt → PortSt} : CopiesKept s (t.modPort p g) := h.beside rfl rfl rfl rfl rfl rfl
theorem setBuf (h : CopiesKept s t) {n : Nat} {b : Buf} : CopiesKept s (t.setBuf n b) := h.beside rfl rfl rfl rfl rfl rfl

theorem charge (h : CopiesKept s t) {a : Acct} {n : Nat} : CopiesKept s (t.charge a n) := by
  cases a with
  | none => exact h
  | ingGen => exact .bump (.bump h (by decide)) (by decide)
  | ingExp p =>
    have added : CopiesKept s ((t.bump F.BPM_PORTUSE.units 0 p n).bump F.BPM_ACCT.used 0 1 n) := .bump (.bump h (by decide)) (by decide)
    exact added.beside rfl rfl rfl rfl rfl rfl
  | hdrm => exact h.beside rfl rfl rfl rfl rfl rfl
  | quota => exact .bump h (by decide)
  | common => exact .bump (.bump h (by decide)) (by decide)

theorem uncharge (h : CopiesKept s t) {a : Acct} {n : Nat} : CopiesKept s (t.uncharge a n) := by
  cases a with
  | none => exact h
  | ingGen => exact .drop (.drop h (by decide)) (by decide)
  | ingExp p =>
    have taken : CopiesKept s ((t.drop F.BPM_PORTUSE.units 0 p n).drop F.BPM_ACCT.used 0 1 n) := .drop (.drop h (by decide)) (by decide)
    exact taken.beside rfl rfl rfl rfl rfl rfl
  | hdrm => exact h.beside rfl rfl rfl rfl rfl rfl
  | quota => exact .drop h (by decide)
  | common => exact .drop (.drop h (by decide)) (by decide)

theorem pfcCount (h : CopiesKept s t) {p c n : Nat} {up : Bool} : CopiesKept s (t.pfcCount p c up n) := by
  unfold State.pfcCount
  extract_lets counted
  have kept : CopiesKept s counted := .ite (.bumpSat h (by decide)) (.drop h (by decide))
  have switched (on : Bool) : CopiesKept s (counted.setXoff p c on) := .ite (.modPort (.fset kept (by decide))) (.fset kept (by decide))
  exact .ite (.ite (switched _) kept) (.ite (switched _) (.ite (switched _) kept))

theorem leaveWindows (h : CopiesKept s t) {b : Nat} {keeps : Nat → Bool} : CopiesKept s (t.leaveWindows b keeps) :=
  .foldl h (fun u _ => .modThr (.refl u)) _

theorem freeBuf (h : CopiesKept s t) {b : Nat} : CopiesKept s (t.freeBuf b) := by
  unfold State.freeBuf
  split
  · exact h
  · extract_lets n left _ marked
    have erased : CopiesKept s { t with bufs := tabErase t.bufs b } := h.beside rfl rfl rfl rfl rfl rfl
    have kept : CopiesKept s left := .bump (.uncharge (.leaveWindows erased)) (by decide)
    have withdrawn : CopiesKept s marked := .ite (.flt kept) kept
    split
    · exact .pfcCount withdrawn
    · exact withdrawn

theorem freeDropped (h : CopiesKept s t) {b : Nat} : CopiesKept s (t.freeDropped b) := by
  unfold State.freeDropped
  split
  · exact .ite h (.freeBuf h)
  · exact h

theorem fenceUnit (h : CopiesKept s t) {n : Nat} : CopiesKept s (t.fenceUnit n) := by
  unfold State.fenceUnit
  have halted : CopiesKept s (t.fset F.DMA_CH_STATUS.state (n - 0xB00) 0 6) := .fset h (by decide)
  exact .ite (.ite (.fset h (by decide)) h) (.ite (halted.beside rfl rfl rfl rfl rfl rfl) (.flt h))

theorem refuseOp (h : CopiesKept s t) {p status : Nat} : CopiesKept s (t.refuseOp p status) := by
  unfold State.refuseOp
  split
  · exact .bump h (by decide)
  · exact h

theorem opEffect (h : CopiesKept s t) {unit op n arg : Nat} {b : Buf} : CopiesKept s (t.opEffect unit op n arg b) := by
  unfold State.opEffect
  split
  · exact .bump (.setBuf h) (by decide)
  · exact .bump (.setBuf h) (by decide)
  · exact .freeBuf h
  · exact .leaveWindows (.setBuf h)
  · exact .emitBoth (.bump (.drop (.freeBuf (.setBuf h)) (by decide)) (by decide))
  · exact .ite (.bump (.setBuf h) (by decide)) (.ite h (.freeBuf (.setBuf h)))
  · exact h

theorem bpmOp (h : CopiesKept s t) {unit p op n arg : Nat} : CopiesKept s (t.bpmOp unit p op n arg).2 := by
  unfold State.bpmOp
  split
  · exact .raise (.fenceUnit (.emitBoth (.wr (.bump h (by decide)) (by decide))))
  · split
    · exact refuseOp (p := p) (status := 3) h
    · extract_lets status refused
      have kept : CopiesKept s refused := .refuseOp h
      split
      · exact .opEffect h
      · split
        · exact .ite kept (.emitBoth (.bump (.bump (.setBuf kept) (by decide)) (by decide)))
        · exact kept

/-- The quota move changes the frame's account only (R277). -/
theorem quotaMove {f : Frame} {n : Nat} (h : CopiesKept s t) (moved : t.quotaMove f n = some u) : CopiesKept s u := by
  unfold State.quotaMove at moved
  split at moved
  · cases moved
    exact h
  · extract_lets units at moved
    split at moved
    · cases moved
      exact h
    · split at moved
      · cases moved
      · cases moved
        exact .setBuf (.charge (.uncharge h))

/-! ## Traces (R525–R527) -/

theorem trace (h : CopiesKept s t) {x : Tracer} : CopiesKept s { t with trace := x } := h.beside rfl rfl rfl rfl rfl rfl

theorem traceClose (h : CopiesKept s t) {n : Nat} : CopiesKept s (t.traceClose n) := by
  unfold State.traceClose
  split
  · exact .ite (.fset (.trace h) (by decide)) h
  · exact h

theorem modTrace (h : CopiesKept s t) {n : Nat} {g : TraceSt → TraceSt} : CopiesKept s (t.modTrace n g) := by
  unfold State.modTrace
  split
  · exact .trace h
  · exact h

theorem traceRx (h : CopiesKept s t) {f : Frame} {code : Nat} : CopiesKept s (t.traceRx f code) := by
  unfold State.traceRx
  split
  · exact h
  · exact .traceClose (.modTrace (.emitPart h))

theorem traceCopy (h : CopiesKept s t) {x : Option Nat} : CopiesKept s (t.traceCopy x).2 := by
  unfold State.traceCopy
  split
  · exact h
  · split
    · exact h
    · split
      · exact .modTrace h
      · exact .balAdd h (by decide)

/-! ## Threads that wait for a queue (R411) -/

theorem setEvents (h : CopiesKept s t) {n evs : Nat} : CopiesKept s (t.setEvents n evs) := by
  unfold State.setEvents
  refine .ite h ?_
  extract_lets ev
  split
  · extract_lets woken taken
    have answered : CopiesKept s woken := .modThr (.ite h (.modThr h))
    have kept : CopiesKept s taken := .fset answered (by decide)
    exact .ite (.ite (.fset kept (by decide)) (.modThr kept)) (.fset h (by decide))
  · exact .fset h (by decide)

theorem queueSignal (h : CopiesKept s t) {p arm q ev : Nat} {open_ : Nat → Bool} : CopiesKept s (t.queueSignal p arm q ev open_) := by
  unfold State.queueSignal
  extract_lets armed waits
  refine .ite ?_ h
  split
  · exact .setEvents h
  · exact .foldl h (fun u _ => .ite (.setEvents (.refl u)) (.refl u)) _

/-! ## Queues (R281, R295, R331) -/

theorem setQueue (h : CopiesKept s t) {n : Nat} {q : Queue} : CopiesKept s (t.setQueue n q) := h.beside rfl rfl rfl rfl rfl rfl

theorem modSetNode (h : CopiesKept s t) {port set : Nat} {g : SetNode → SetNode} : CopiesKept s (t.modSetNode port set g) :=
  h.beside rfl rfl rfl rfl rfl rfl

theorem refreshTag (h : CopiesKept s t) {port set c : Nat} : CopiesKept s (t.refreshTag port set c) := by
  unfold State.refreshTag
  refine .ite h ?_
  extract_lets n q st tagged any node
  have kept : CopiesKept s tagged := by
    unfold tagged
    split
    · exact .setQueue h
    · exact .setQueue h
    · exact h
  exact .ite (.modSetNode kept) (.ite (.modSetNode kept) kept)

theorem deepSettle (h : CopiesKept s t) {n : Nat} : CopiesKept s (t.deepSettle n) := by
  unfold State.deepSettle
  extract_lets q
  refine .ite h ?_
  split
  · exact .setQueue h
  · split
    extract_lets moved counted
    have kept : CopiesKept s counted := .foldl (.setQueue h) (fun u _ => .bump (.refl u) (by decide)) _
    exact .refreshTag kept

theorem appendCopy (h : CopiesKept s t) {c : Copy} : CopiesKept s (t.appendCopy c) := by
  unfold State.appendCopy
  extract_lets n shown q
  have kept : CopiesKept s shown := .fset h (by decide)
  exact .ite (.deepSettle (.setQueue kept)) (.ite (.deepSettle (.setQueue kept)) (.refreshTag (.setQueue kept)))

/-! ## Frames that are settled, and buckets (R68, R183) -/

theorem refreshOld (h : CopiesKept s t) : CopiesKept s t.refreshOld := by
  unfold State.refreshOld
  refine .ite h ?_
  extract_lets n counted
  have kept : CopiesKept s counted := .fset h (by decide)
  exact .ite (.emitPart (.fset kept (by decide))) kept

theorem puntStep (h : CopiesKept s t) {n reason : Nat} : CopiesKept s (t.puntStep n reason).2 := by
  have stored {k : Nat} {b : Bucket} : CopiesKept s (t.setBucket k b) := h.beside rfl rfl rfl rfl rfl rfl
  unfold State.puntStep
  extract_lets rate depth key b
  split
  split
  · exact stored
  · exact stored

/-- Where nothing is copied, no frame loses a copy. -/
theorem grow (h : CopiesKept s t) : CopiesGrow s t :=
  ⟨h.groups, Nat.le_of_eq h.next.symm, h.bal, fun p => h.fget F.SWC_CNT.count p 1 (by decide),
    fun id f found _ => ⟨f, (h.frame id).trans found, Nat.le_refl _⟩⟩

end CopiesKept

/-! ## Copies that are made -/

namespace CopiesGrow

theorem refl (s : State) : CopiesGrow s s := (CopiesKept.refl s).grow

variable {s t u : State}

theorem trans (h : CopiesGrow s t) (k : CopiesGrow t u) : CopiesGrow s u := by
  refine ⟨k.groups.trans h.groups, h.next.trans k.next, fun p i own => (k.bal p i own).trans (h.bal p i own),
    fun p => (k.lists p).trans (h.lists p), fun id f found copied => ?_⟩
  obtain ⟨g, found, more⟩ := h.copies id f found copied
  obtain ⟨h, found, most⟩ := k.copies id g found (Nat.ne_of_gt ((Nat.pos_of_ne_zero copied).trans_le more))
  exact ⟨h, found, more.trans most⟩

theorem group (h : CopiesGrow s t) (g : Nat) : t.group g = s.group g := by
  unfold State.group; rw [h.groups]

theorem ite {c : Prop} [Decidable c] (h : CopiesGrow s t) (k : CopiesGrow s u) : CopiesGrow s (if c then t else u) := by
  split
  · exact h
  · exact k

/-- A run of steps that each lose no copy loses none. -/
theorem foldl {α : Type} {f : State → α → State} (h : CopiesGrow s t) (step : ∀ u x, CopiesGrow u (f u x)) (l : List α) :
    CopiesGrow s (l.foldl f t) :=
  h.trans (foldl_rel refl trans step l t)

theorem kept (h : CopiesGrow s t) (k : CopiesKept t u) : CopiesGrow s u := h.trans k.grow

/-- A counter of the switch core other than that of MULTICAST results. -/
theorem swcCount (h : CopiesGrow s t) {p i n : Nat} (other : i ≠ 1 ∧ i < 16) : CopiesGrow s (t.swcCount p i n) :=
  h.trans ⟨rfl, Nat.le_refl _, fun _ _ _ => rfl, fun _ => t.fget_fset_copy _ (.inr (by omega)),
    fun _ f found _ => ⟨f, found, Nat.le_refl _⟩⟩

theorem modFrame (h : CopiesGrow s t) {id : Nat} {g : Frame → Frame} (more : ∀ f, f.copies ≤ (g f).copies) : CopiesGrow s (t.modFrame id g) := by
  have copies (k : Nat) (f : Frame) (there : t.frame k = some f) : ∃ h, (t.modFrame id g).frame k = some h ∧ f.copies ≤ h.copies := by
    by_cases here : k = id
    · subst here
      exact ⟨g f, frame_modFrame there g, more f⟩
    · exact ⟨f, (frame_modFrame_ne t g here).trans there, Nat.le_refl _⟩
  obtain ⟨l, changed⟩ := modFrame_framesOnly t id g
  rw [changed] at copies ⊢
  exact h.trans ⟨rfl, Nat.le_refl _, fun _ _ _ => rfl, fun _ => rfl, fun k f there _ => copies k f there⟩

end CopiesGrow

end Sys2Proof.Machine
end

section
/-! PROOFS. The copies of a result (R279–R288): a copy that is enqueued, the copies of a group's list, mirror copies and the settling of
their frame. -/

namespace Sys2Proof.Machine

/-! ## Settling a frame (R275, R527) -/

theorem tabFind_erase_ne {α : Type} (t : Tab α) {k j : Nat} (other : j ≠ k) : tabFind (tabErase t k) j = tabFind t j := by
  induction t with
  | nil => rfl
  | cons e t ih =>
    by_cases here : e.1 = k
    · simp [tabErase, tabFind, here, ih, other.symm]
    · simp [tabErase, tabFind, here, ih]

/-- The state in which a frame's trace holds that all its copies are made. -/
def State.traceMade (s : State) (f : Frame) : State :=
  match f.trace with
  | some n => (s.modTrace n fun t => { t with made := true }).traceClose n
  | none => s

theorem settleFrame_found {s : State} {id : Nat} {f : Frame} (found : s.frame id = some f) : s.settleFrame id =
    if f.copies ≠ 0 then s.traceMade f
    else if f.ended then ((s.traceMade f).freeDropped f.handle).frameGone id
    else (((s.traceMade f).freeDropped f.handle).modFrame id fun f => { f with alloc := false }).refreshOld := by
  unfold State.settleFrame
  rw [found]
  rfl

theorem CopiesKept.traceMade (s : State) (f : Frame) : CopiesKept s (s.traceMade f) := by
  unfold State.traceMade
  split
  · exact .traceClose (.modTrace (.refl s))
  · exact .refl s

/-- A frame that has copies stays as it is when it is settled. -/
theorem settleFrame_copied {s : State} {id : Nat} {f : Frame} (found : s.frame id = some f) (copied : f.copies ≠ 0) :
    CopiesKept s (s.settleFrame id) := by
  rw [settleFrame_found found, if_pos copied]
  exact .traceMade s f

theorem CopiesGrow.refreshOld {s t : State} (h : CopiesGrow s t) : CopiesGrow s t.refreshOld := h.kept (.refreshOld (.refl t))

theorem CopiesGrow.settleFrame {s t : State} (h : CopiesGrow s t) (id : Nat) : CopiesGrow s (t.settleFrame id) := by
  refine h.trans ?_
  cases found : t.frame id with
  | none =>
    unfold State.settleFrame
    rw [found]
    exact .refl t
  | some f =>
    rw [settleFrame_found found]
    have freed : CopiesKept t ((t.traceMade f).freeDropped f.handle) := .freeDropped (.traceMade t f)
    split
    · exact (CopiesKept.traceMade t f).grow
    next bare =>
      split
      · refine .refreshOld ⟨freed.groups, freed.grow.next, freed.bal, freed.grow.lists, fun k x there copied => ⟨x, ?_, Nat.le_refl _⟩⟩
        have other : k ≠ id := by
          rintro rfl
          obtain rfl : f = x := Option.some.inj (found.symm.trans there)
          exact bare copied
        exact (tabFind_erase_ne _ other).trans ((freed.frame k).trans there)
      · exact .refreshOld (.modFrame freed.grow fun _ => Nat.le_refl _)

/-! ## A copy that is enqueued (R280, R281) -/

/-- The state in which a copy is made: it takes a number, is appended to its queue and counted. -/
def State.copied (s : State) (c x : Copy) : State :=
  ((({ s with nextCopy := s.nextCopy + 1 }.modFrame c.frame fun f => { f with copies := f.copies + 1 }).appendCopy x).swcCount c.part
    (if c.mirror then 10 else 0)).balAdd c.part 6

theorem enqueue_copied {s : State} {c : Copy} {holder : Nat} (trace : Option Nat) (clear : s.enqueueCheck c holder = 0) :
    ∃ u x, CopiesKept s u ∧ s.enqueue c holder trace = (0, u.copied c x) := by
  let n := match s.frame c.frame with | some f => f.copies | none => 0
  let held := if n = 0 then s else s.retainOne c.port c.handle
  have kept : CopiesKept s held := .ite (.refl s) (.bpmOp (.refl s))
  unfold State.enqueue
  rw [clear]
  exact ⟨(held.traceCopy trace).2, _, .traceCopy kept, rfl⟩

section
variable {s : State} (c x : Copy)

/-- Every step of making a copy but the last two, which count it. -/
theorem copied_steps : ∃ l u, CopiesKept { s with nextCopy := s.nextCopy + 1, frames := l } u ∧
    ({ s with nextCopy := s.nextCopy + 1 } : State).modFrame c.frame (fun f => { f with copies := f.copies + 1 }) =
      { s with nextCopy := s.nextCopy + 1, frames := l } ∧
    s.copied c x = (u.swcCount c.part (if c.mirror then 10 else 0)).balAdd c.part 6 := by
  obtain ⟨l, changed⟩ := modFrame_framesOnly { s with nextCopy := s.nextCopy + 1 } c.frame fun f => { f with copies := f.copies + 1 }
  exact ⟨l, _, .appendCopy (.refl _), changed, by rw [State.copied, changed]⟩

theorem copied_next : (s.copied c x).nextCopy = s.nextCopy + 1 := by
  obtain ⟨l, u, kept, -, made⟩ := copied_steps (s := s) c x
  rw [made]
  exact kept.next

theorem copied_frame {f : Frame} (found : s.frame c.frame = some f) :
    (s.copied c x).frame c.frame = some { f with copies := f.copies + 1 } := by
  obtain ⟨l, u, kept, changed, made⟩ := copied_steps (s := s) c x
  have counted := frame_modFrame (s := { s with nextCopy := s.nextCopy + 1 }) (id := c.frame) found fun f => { f with copies := f.copies + 1 }
  rw [changed] at counted
  rw [made]
  exact (kept.frame c.frame).trans counted

theorem copied_counts (own : c.mirror = false) : countedUp s (s.copied c x) F.SWC_CNT.count c.part 0 1 := by
  obtain ⟨l, u, kept, -, made⟩ := copied_steps (s := s) c x
  rw [made, own]
  exact countedUp_congr (u.countedUp_bump (f := F.SWC_CNT.count) c.part 0 1 (by decide)) (kept.fget F.SWC_CNT.count c.part 0 (by decide)) rfl

/-- Making a copy leaves what mirror copies are decided from (R286). -/
theorem copied_mirrors : (s.copied c x).watch = s.watch ∧ ∀ i n, (s.copied c x).rd .SWC_PMIR i n = s.rd .SWC_PMIR i n := by
  obtain ⟨l, u, kept, -, made⟩ := copied_steps (s := s) c x
  rw [made]
  exact ⟨kept.watch, fun i n => (u.rd_bump_reg _ _ i n 1 (by decide)).trans (kept.read _ i n (by decide))⟩

theorem CopiesGrow.copied {r t : State} (h : CopiesGrow r t) : CopiesGrow r (t.copied c x) := by
  have numbered : CopiesGrow t { t with nextCopy := t.nextCopy + 1 } :=
    ⟨rfl, Nat.le_succ _, fun _ _ _ => rfl, fun _ => rfl, fun _ f found _ => ⟨f, found, Nat.le_refl _⟩⟩
  have appended := CopiesGrow.kept (numbered.modFrame (id := c.frame) (g := fun f => { f with copies := f.copies + 1 }) fun _ => Nat.le_succ _)
    (.appendCopy (c := x) (.refl _))
  exact .kept (.swcCount (h.trans appended) (by split <;> decide)) (.balAdd (.refl _) (by decide))

end

theorem CopiesGrow.countDrop {s t : State} (h : CopiesGrow s t) {c : Copy} {why : Nat} : CopiesGrow s (t.countDrop c why) := by
  unfold State.countDrop
  split
  · exact .swcCount h (by decide)
  · split
    · exact .swcCount (.swcCount h (by decide)) (by decide)
    · exact .swcCount (.swcCount h (by decide)) (by decide)
    · exact .swcCount h (by decide)
    · exact .swcCount h (by decide)

theorem CopiesGrow.enqueue {s t : State} (h : CopiesGrow s t) {c : Copy} {holder : Nat} {trace : Option Nat} :
    CopiesGrow s (t.enqueue c holder trace).2 := by
  by_cases clear : t.enqueueCheck c holder = 0
  · obtain ⟨u, x, kept, made⟩ := enqueue_copied trace clear
    rw [made]
    exact .copied c x (.kept h kept)
  · unfold State.enqueue
    extract_lets why
    rw [if_pos clear]
    exact .countDrop h

theorem CopiesGrow.makeCopy {s t : State} (h : CopiesGrow s t) {acc : List Copy} {c : Copy} {holder : Nat} {trace : Option Nat} :
    CopiesGrow s (t.makeCopy acc c holder trace).2 := .enqueue h

/-! ## Mirror copies (R285–R288) -/

theorem CopiesGrow.mirrorCopy {s t : State} (h : CopiesGrow s t) {g sess : Nat} {like : Copy} {asSent : Bool} {trace : Option Nat} :
    CopiesGrow s (t.mirrorCopy g like asSent sess trace) := by
  have counted (x : Tab Nat) : CopiesGrow s { t with mirrors := x } := .kept h (.beside (.refl t) rfl rfl rfl rfl rfl rfl)
  unfold State.mirrorCopy
  extract_lets a p k n reset
  refine .ite (.swcCount h (by decide)) (.ite (.swcCount (counted _) (by decide)) ?_)
  exact .enqueue (counted _)

theorem CopiesGrow.mirrorCopies {s t : State} (h : CopiesGrow s t) {g : Nat} {made : List Copy} {like : Copy} {sess : List Nat}
    {trace : Option Nat} : CopiesGrow s (t.mirrorCopies g made like sess trace) := by
  have egress := h.foldl (f := fun s c => if s.flag F.SWC_PMIR.eg_en 0 c.port then s.mirrorCopy g c true (s.fget F.SWC_PMIR.eg_sess 0 c.port) trace
    else s) (fun u _ => .ite (.mirrorCopy (.refl u)) (.refl u)) made
  exact .foldl egress (fun u _ => .mirrorCopy (.refl u)) sess

/-! ## A result's own copies (R279, R284) -/

theorem CopiesGrow.puntCopy {s t : State} (h : CopiesGrow s t) {id : Nat} {f : Frame} {r : Result} : CopiesGrow s (t.puntCopy id f r) := by
  unfold State.puntCopy
  extract_lets k l _
  split
  · exact .swcCount h (by decide)
  · have traced : CopiesKept t (t.traceCopy f.trace).2 := .traceCopy (.refl t)
    cases step : t.traceCopy f.trace with
    | mk tr u =>
      rw [step] at traced
      dsimp -zeta only at traced ⊢
      extract_lets punt listed counted
      have entered : CopiesGrow s listed := .kept h (.beside traced rfl rfl rfl rfl rfl rfl)
      have made : CopiesGrow s counted := .swcCount (.modFrame entered fun _ => Nat.le_succ _) (by decide)
      exact .kept made (.queueSignal (.balAdd (.refl _) (by decide)))

theorem CopiesGrow.ownCopy {s t : State} (h : CopiesGrow s t) {id : Nat} {f : Frame} {r : Result} : CopiesGrow s (t.ownCopy id f r).2 := by
  unfold State.ownCopy
  split
  · exact .puntCopy h
  · exact .makeCopy h

theorem CopiesGrow.mcastCopies {s t : State} (h : CopiesGrow s t) {id : Nat} {f : Frame} {r : Result} {prune : Bool} (ws : List Nat)
    (acc : List Copy) : CopiesGrow s (t.mcastCopies id f r prune ws acc).2 := by
  induction ws generalizing t acc with
  | nil => exact h
  | cons w ws ih =>
    unfold State.mcastCopies
    extract_lets port qc demote demoted c
    split
    · exact ih h acc
    · have counted : CopiesGrow s demoted := .ite (.swcCount h (by decide)) h
      refine ih (t := ((demoted.swcCount r.tenant 2).makeCopy acc c r.tenant f.trace).2) ?_ _
      exact .makeCopy (.swcCount counted (by decide))

/-- The copies of a group whose records are readable and valid are made once the result is counted MULTICAST. -/
theorem listCopies_valid {s : State} {g : Nat} (id : Nat) {f : Frame} {r : Result} {w : Nat} {ws : List Nat}
    (list : s.groupList g f.tag r.tenant r.dest = some (w, ws)) (valid : bit w 35 = true) :
    ∃ out, s.listCopies g id f r = some out ∧ CopiesGrow (s.swcCount r.tenant 1) out.2 := by
  unfold State.listCopies
  rw [list]
  refine ⟨_, rfl, ?_⟩
  dsimp -zeta only
  rw [valid, Bool.not_true, if_neg Bool.false_ne_true]
  extract_lets counted kept
  split
  · exact .swcCount (.refl _) (by decide)
  · exact .mcastCopies (.refl _) ws []

/-- From `s` to `t`, copies may be made, and one result may be counted MULTICAST first. -/
def copiesMade (s t : State) : Prop := CopiesGrow s t ∨ ∃ p, CopiesGrow (s.swcCount p 1) t

theorem copiesMade.trans {s t u : State} (h : copiesMade s t) (k : CopiesGrow t u) : copiesMade s u :=
  h.imp (·.trans k) fun ⟨p, made⟩ => ⟨p, made.trans k⟩

theorem copiesMade.group {s t : State} (h : copiesMade s t) (g : Nat) : t.group g = s.group g := by
  obtain grown | ⟨p, grown⟩ := h
  · exact grown.group g
  · exact grown.group g

theorem copiesMade.bal {s t : State} (h : copiesMade s t) (p : Nat) {i : Nat} (own : i = 2 ∨ i = 3) : t.bal p i = s.bal p i := by
  obtain grown | ⟨q, grown⟩ := h
  · exact grown.bal p i own
  · exact grown.bal p i own

theorem listCopies_made {s : State} {g id : Nat} {f : Frame} {r : Result} {out : List Copy × State} (given : s.listCopies g id f r = some out) :
    copiesMade s out.2 := by
  cases list : s.groupList g f.tag r.tenant r.dest with
  | none =>
    unfold State.listCopies at given
    rw [list] at given
    cases given
  | some e =>
    obtain ⟨w, ws⟩ := e
    cases valid : bit w 35 with
    | true =>
      obtain ⟨made, listed, grown⟩ := listCopies_valid id list valid
      obtain rfl : out = made := Option.some.inj (given.symm.trans listed)
      exact .inr ⟨_, grown⟩
    | false =>
      unfold State.listCopies at given
      rw [list] at given
      dsimp only [Option.map_some] at given
      rw [valid, Bool.not_false, if_pos rfl] at given
      cases given
      exact .inl (CopiesKept.grow (.bump (.refl s) (by decide)))

theorem groupMiss_made (s : State) (g id : Nat) (f : Frame) (r : Result) : copiesMade s (s.groupMiss g id f r).2 := by
  have missed (code : Nat) : copiesMade s (s.bump F.PRS_CNT.count r.tenant code) := .inl (CopiesKept.grow (.bump (.refl s) (by decide)))
  unfold State.groupMiss
  split
  · exact missed 5
  · split
    next n v _ =>
      cases v with
      | go =>
        dsimp only
        split
        · exact .inl (.ownCopy (.refl s))
        · cases list : s.listCopies g id f n with
          | none => exact missed 5
          | some out => exact listCopies_made list
      | drop code => exact missed code
      | punt reason =>
        have stepped : CopiesKept s (s.puntStep r.tenant reason).2 := .puntStep (.refl s)
        dsimp only
        split
        · exact .inl (.ownCopy stepped.grow)
        · exact .inl (CopiesKept.grow (.bump stepped (by decide)))

theorem groupCopies_made (s : State) (g id : Nat) (f : Frame) (r : Result) : copiesMade s (s.groupCopies g id f r).2 := by
  unfold State.groupCopies
  cases list : s.listCopies g id f r with
  | none => exact groupMiss_made s g id f r
  | some out => exact listCopies_made list

/-! ## All copies of a result -/

/-- The mirror copies of a result, and the settling of its frame, once its own copies are made. -/
def State.mirrored (s : State) (g id : Nat) (f : Frame) (r : Result) (made : List Copy) : State :=
  (s.mirrorCopies g made (copyFor id f r 0 0 r.qclass 0) (s.inSessions f r) f.trace).settleFrame id

theorem CopiesGrow.mirrored {s t : State} (h : CopiesGrow s t) {g id : Nat} {f : Frame} {r : Result} {made : List Copy} :
    CopiesGrow s (t.mirrored g id f r made) := .settleFrame (.mirrorCopies h) id

theorem resultCopies_group {s : State} {g id : Nat} {f : Frame} {r : Result} (multicast : r.kind = 1) :
    s.resultCopies g id f r = (s.groupCopies g id f r).2.mirrored g id f r (s.groupCopies g id f r).1 := by
  unfold State.resultCopies
  rw [if_pos multicast]
  rfl

theorem resultCopies_own {s : State} {g id : Nat} {f : Frame} {r : Result} (other : r.kind ≠ 1) :
    s.resultCopies g id f r = (s.ownCopy id f r).2.mirrored g id f r (s.ownCopy id f r).1 := by
  unfold State.resultCopies
  rw [if_neg other]
  rfl

theorem resultCopies_made (s : State) (g id : Nat) (f : Frame) (r : Result) : copiesMade s (s.resultCopies g id f r) := by
  by_cases multicast : r.kind = 1
  · rw [resultCopies_group multicast]
    exact (groupCopies_made s g id f r).trans (.mirrored (.refl _))
  · rw [resultCopies_own multicast]
    exact .inl (.mirrored (.ownCopy (.refl s)))

/-- A MULTICAST result whose group's records are readable and valid is counted (R284). -/
theorem resultCopies_listed {s : State} {g : Nat} (id : Nat) {f : Frame} {r : Result} {w : Nat} {ws : List Nat} (multicast : r.kind = 1)
    (list : s.groupList g f.tag r.tenant r.dest = some (w, ws)) (valid : bit w 35 = true) :
    countedUp s (s.resultCopies g id f r) F.SWC_CNT.count r.tenant 1 1 := by
  obtain ⟨out, listed, grown⟩ := listCopies_valid id list valid
  have given : s.groupCopies g id f r = out := by rw [State.groupCopies, listed, Option.getD_some]
  rw [resultCopies_group multicast, given]
  exact countedUp_congr (s.countedUp_bump (f := F.SWC_CNT.count) r.tenant 1 1 (by decide)) rfl (CopiesGrow.lists (.mirrored grown) r.tenant)

/-- A UNICAST result's copy for the port, queue set and class that it names (R279). -/
def unicastCopy (id : Nat) (f : Frame) (r : Result) : Copy := copyFor id f r r.dest r.qset r.qclass r.edit

section
variable {s : State} {g id : Nat} {f x : Frame} {r : Result} (unicast : r.kind = 0) (clear : s.enqueueCheck (unicastCopy id f r) r.tenant = 0)
include unicast clear

/-- A UNICAST result whose queue checks pass makes its copy before its mirror copies. -/
theorem resultCopies_copied (g : Nat) : ∃ u c, CopiesKept s u ∧
    s.resultCopies g id f r = (u.copied (unicastCopy id f r) c).mirrored g id f r [unicastCopy id f r] := by
  obtain ⟨u, c, kept, made⟩ := enqueue_copied f.trace clear
  have own : s.ownCopy id f r = ([unicastCopy id f r], u.copied (unicastCopy id f r) c) := by
    unfold State.ownCopy State.makeCopy
    rw [if_neg (by omega), show copyFor id f r r.dest r.qset r.qclass r.edit = unicastCopy id f r from rfl, made]
    rfl
  exact ⟨u, c, kept, by rw [resultCopies_own (by omega), own]⟩

/-- A UNICAST result gives its frame a copy; mirror copies may come to it (R279, R286). -/
theorem resultCopies_unicast (found : s.frame id = some x) : s.nextCopy + 1 ≤ (s.resultCopies g id f r).nextCopy ∧
    ∃ h, (s.resultCopies g id f r).frame id = some h ∧ x.copies + 1 ≤ h.copies := by
  obtain ⟨u, c, kept, made⟩ := resultCopies_copied unicast clear g
  have frame := copied_frame (unicastCopy id f r) c ((kept.frame id).trans found)
  have grown : CopiesGrow (u.copied (unicastCopy id f r) c) (s.resultCopies g id f r) := made ▸ .mirrored (.refl _)
  rw [← kept.next, ← copied_next (unicastCopy id f r) c]
  exact ⟨grown.next, grown.copies id _ frame (Nat.succ_ne_zero _)⟩

/-- Where nothing is mirrored, a UNICAST result makes one copy (R279). -/
theorem resultCopies_one (found : s.frame id = some x) (unmirrored : s.inSessions f r = []) (egress : s.flag F.SWC_PMIR.eg_en 0 r.dest = false) :
    (s.resultCopies g id f r).nextCopy = s.nextCopy + 1 ∧ countedUp s (s.resultCopies g id f r) F.SWC_CNT.count r.tenant 0 1 ∧
      (s.resultCopies g id f r).groups = s.groups ∧
      (s.resultCopies g id f r).frame id = some { x with copies := x.copies + 1 } := by
  obtain ⟨u, c, kept, made⟩ := resultCopies_copied unicast clear g
  have frame := copied_frame (unicastCopy id f r) c ((kept.frame id).trans found)
  obtain ⟨watch, mirrors⟩ := copied_mirrors (s := u) (unicastCopy id f r) c
  have quiet : (u.copied (unicastCopy id f r) c).flag F.SWC_PMIR.eg_en 0 r.dest = false :=
    (flag_congr (mirrors ..)).trans ((kept.flag F.SWC_PMIR.eg_en 0 r.dest (by decide)).trans egress)
  have none_ : (u.copied (unicastCopy id f r) c).inSessions f r = [] :=
    (inSessions_congr watch mirrors f r).trans ((inSessions_congr kept.watch (fun i n => kept.read _ i n (by decide)) f r).trans unmirrored)
  have alone : (u.copied (unicastCopy id f r) c).mirrored g id f r [unicastCopy id f r] =
      (u.copied (unicastCopy id f r) c).settleFrame id := by
    unfold State.mirrored State.mirrorCopies
    rw [none_, List.foldl_nil, List.foldl_cons, List.foldl_nil, show (unicastCopy id f r).port = r.dest from rfl, quiet,
      if_neg Bool.false_ne_true]
  have settled : CopiesKept (u.copied (unicastCopy id f r) c) (s.resultCopies g id f r) :=
    (made.trans alone) ▸ settleFrame_copied frame (Nat.succ_ne_zero _)
  refine ⟨settled.next.trans ((copied_next ..).trans (congrArg (· + 1) kept.next)), ?_, ?_, (settled.frame id).trans frame⟩
  · exact countedUp_congr (copied_counts (unicastCopy id f r) c rfl) (kept.fget F.SWC_CNT.count r.tenant 0 (by decide))
      (settled.fget F.SWC_CNT.count r.tenant 0 (by decide))
  · exact settled.groups.trans ((CopiesGrow.copied _ c (.refl u)).groups.trans kept.groups)

end

end Sys2Proof.Machine
end

section
/-! PROOFS. Released results (R277, R279, R281, R284, R520): which one the switch core and the copy engine take, and what becomes of it, which settle
O24. -/

namespace Sys2Proof.Machine

/-! ## Taking a result (R279, R526) -/

/-- The state in which a result's frame awaits no decision and its receive trace is written. -/
def State.resultTraced (s : State) (f : Frame) (r : Result) : State :=
  (if f.injected.isSome then s.balSub f.owner 5 else (s.balSub f.owner 5).drop F.BPM_PORTUSE.frames 0 f.port).traceRx f
    (if r.kind = 2 then r.reason else if r.kind = 3 then r.dest else 0)

/-- The state in which a result is taken, before it is counted. -/
def State.resultTaken (s : State) (id : Nat) (f : Frame) (r : Result) : State :=
  (s.resultTraced f r).modFrame id fun f => { f with switched := true }

theorem takeResult_drop (s : State) (id : Nat) (f : Frame) {r : Result} (dropped : r.kind = 3) :
    s.takeResult id f r = (false, ((s.resultTaken id f r).balAdd f.owner 2).settleFrame id) := by
  unfold State.takeResult
  extract_lets awaited taken traced switched
  exact if_pos dropped

theorem takeResult_decided (s : State) (id : Nat) (f : Frame) {r : Result} (decided : r.kind ≠ 3) : s.takeResult id f r =
    match ((s.resultTaken id f r).balAdd f.owner 3).quotaMove f r.tenant with
    | none => (false, (((s.resultTaken id f r).balAdd f.owner 3).swcCount r.tenant 5).settleFrame id)
    | some t => (true, t) := by
  unfold State.takeResult
  extract_lets awaited taken traced switched
  rw [if_neg decided]
  rfl

theorem traceRx_rest (s : State) (f : Frame) (code : Nat) :
    (s.traceRx f code).queues = s.queues ∧ (s.traceRx f code).bufs = s.bufs := by
  have closed (u : State) (n : Nat) : (u.traceClose n).queues = u.queues ∧ (u.traceClose n).bufs = u.bufs := by
    unfold State.traceClose
    split
    · split
      · exact ⟨rfl, rfl⟩
      · exact ⟨rfl, rfl⟩
    · exact ⟨rfl, rfl⟩
  have marked (u : State) (n : Nat) (g : TraceSt → TraceSt) : (u.modTrace n g).queues = u.queues ∧ (u.modTrace n g).bufs = u.bufs := by
    unfold State.modTrace
    split
    · exact ⟨rfl, rfl⟩
    · exact ⟨rfl, rfl⟩
  unfold State.traceRx
  split
  · exact ⟨rfl, rfl⟩
  · extract_lets base offs k o r unit sent
    obtain ⟨⟨_, _, _, _, only⟩, -⟩ : sentOnly s sent := emitPart_sentOnly ..
    rw [(closed _ _).1, (closed _ _).2, (marked _ _ _).1, (marked _ _ _).2, only]
    exact ⟨rfl, rfl⟩

section
variable (s : State) (id : Nat) (f : Frame) (r : Result)

theorem CopiesKept.resultTraced : CopiesKept s (s.resultTraced f r) :=
  .traceRx (.ite (.balSub (.refl s) (by decide)) (.drop (.balSub (.refl s) (by decide)) (by decide)))

theorem Within.resultTraced : Within endRegs s (s.resultTraced f r) :=
  .traceRx (.ite (.balSub (.refl s)) (.drop (.balSub (.refl s)) (by decide)))

theorem resultTraced_rest : (s.resultTraced f r).queues = s.queues ∧ (s.resultTraced f r).bufs = s.bufs := by
  unfold State.resultTraced
  rw [(traceRx_rest ..).1, (traceRx_rest ..).2]
  split
  · exact ⟨rfl, rfl⟩
  · exact ⟨rfl, rfl⟩

/-- Taking a result changes nothing that is read of it later, but that its frame is switched. -/
theorem resultTaken_only : ∃ l, s.resultTaken id f r = { s.resultTraced f r with frames := l } := modFrame_framesOnly ..

theorem resultTaken_grow : CopiesGrow s (s.resultTaken id f r) :=
  .modFrame (CopiesKept.resultTraced s f r).grow fun _ => Nat.le_refl _

theorem resultTaken_next : (s.resultTaken id f r).nextCopy = s.nextCopy := by
  obtain ⟨l, taken⟩ := resultTaken_only s id f r
  rw [taken]
  exact (CopiesKept.resultTraced s f r).next

theorem resultTaken_buf (h : Nat) : (s.resultTaken id f r).buf h = s.buf h := by
  obtain ⟨l, taken⟩ := resultTaken_only s id f r
  rw [taken]
  exact congrArg (tabFind · h) (resultTraced_rest s f r).2

theorem resultTaken_frame {s : State} {id : Nat} {x : Frame} (found : s.frame id = some x) (f : Frame) (r : Result) :
    (s.resultTaken id f r).frame id = some { x with switched := true } :=
  frame_modFrame (((CopiesKept.resultTraced s f r).frame id).trans found) _

theorem resultTaken_read {q : Reg} (c i : Nat) (own : q ∈ switchRegs) : (s.resultTaken id f r).rd q c i = s.rd q c i := by
  obtain ⟨l, taken⟩ := resultTaken_only s id f r
  rw [taken]
  exact (CopiesKept.resultTraced s f r).read q c i own

theorem resultTaken_watch : (s.resultTaken id f r).watch = s.watch := by
  obtain ⟨l, taken⟩ := resultTaken_only s id f r
  rw [taken]
  exact (CopiesKept.resultTraced s f r).watch

theorem Within.resultTaken : Within endRegs s (s.resultTaken id f r) := .modFrame (.resultTraced s f r)

end

/-! ## What the checks of a copy are read from (R280, R281) -/

section
variable {rs : List Reg} {s t : State}

/-- A register of the ACTIVE image is read from the planes, the bank map and the generation. -/
theorem Within.pget (h : Within rs s t) (gen : .IMG_GEN ∉ rs) (scope tag : Nat) (f : Fld) (c i : Nat) :
    t.pget scope tag f c i = s.pget scope tag f c i := by
  have now : t.tagNow = s.tagNow := h.fget F.IMG_GEN.tag 0 0 gen
  simp only [State.pget, State.rdPlane, State.bankOf, State.scope, State.plane, now, h.planes, h.image]

theorem Within.queueProf (h : Within rs s t) (gen : .IMG_GEN ∉ rs) (tag port set c : Nat) :
    t.queueProf tag port set c = s.queueProf tag port set c := by
  have now : t.tagNow = s.tagNow := h.fget F.IMG_GEN.tag 0 0 gen
  simp only [State.queueProf, State.rdPlane, State.bankOf, State.scope, State.plane, now, h.planes, h.image]

theorem Within.setCovered (h : Within rs s t) (gen : .IMG_GEN ∉ rs) (port set : Nat) : t.setCovered port set = s.setCovered port set := by
  have now : t.tagNow = s.tagNow := h.fget F.IMG_GEN.tag 0 0 gen
  have words : t.pword = s.pword := pword_congr (h.pword gen)
  delta State.setCovered State.holdsPortT State.sharesPortT State.exclusiveT State.ownerSet State.portWord State.partWordT State.shadowOf State.scope
    State.plane
  simp only [now, words, h.image, h.planes]

/-- Whether a copy passes is read from the image, from the queues and from the lengths of copies. -/
theorem enqueueCheck_congr (h : Within rs s t) (gen : .IMG_GEN ∉ rs) (queues : t.queues = s.queues) (lens : ∀ c, t.copyLen c = s.copyLen c)
    (c : Copy) (holder : Nat) : t.enqueueCheck c holder = s.enqueueCheck c holder := by
  have words : t.pword = s.pword := pword_congr (h.pword gen)
  have found (tag n port : Nat) : t.setFor tag n port = s.setFor tag n port := by
    delta State.setFor State.exclusiveT State.sharesPortT State.holdsPortT State.ownerSet State.portWord State.partWordT
    rw [words]
  have edits (tag p edit : Nat) : t.editOk tag p edit = s.editOk tag p edit := by
    delta State.editOk State.partWordT
    rw [words]
  have limit (tag port set k : Nat) : t.queueLimit tag port set k = s.queueLimit tag port set k := by
    simp only [State.queueLimit, h.queueProf gen, h.pget gen]
  have red (tag port set k occ : Nat) : t.redDrops tag port set k occ = s.redDrops tag port set k occ := by
    simp only [State.redDrops, h.queueProf gen, h.pget gen]
  have bytes (n : Nat) : t.queueBytes (t.queue n) = s.queueBytes (s.queue n) := by
    simp only [State.queueBytes, State.queue, queues, funext lens]
  unfold State.enqueueCheck
  simp only [found, edits, h.setCovered gen, limit, red, bytes, lens]

end

/-- The length of a copy does not depend on whether its frame's result is taken. -/
theorem resultTaken_copyLen (s : State) (id : Nat) (f : Frame) (r : Result) (c : Copy) : (s.resultTaken id f r).copyLen c = s.copyLen c := by
  have size (h : Nat) : (s.resultTaken id f r).bufSizeOf h = s.bufSizeOf h := by
    unfold State.bufSizeOf State.poolSize
    rw [(Within.resultTaken s id f r).poolWord (by decide)]
  have kept := (CopiesKept.resultTraced s f r).frame c.frame
  unfold State.copyLen
  by_cases here : c.frame = id
  · cases found : s.frame c.frame with
    | none =>
      rw [State.resultTaken, State.modFrame, ← here, kept, found]
      dsimp only
      rw [kept, found]
    | some x =>
      rw [here] at found
      rw [here, resultTaken_frame found, size]
  · rw [State.resultTaken, frame_modFrame_ne _ _ here, kept, ← State.resultTaken, size]

theorem resultTaken_enqueueCheck (s : State) (id : Nat) (f : Frame) (r : Result) (c : Copy) (holder : Nat) :
    (s.resultTaken id f r).enqueueCheck c holder = s.enqueueCheck c holder := by
  refine enqueueCheck_congr (.resultTaken s id f r) (by decide) ?_ (resultTaken_copyLen s id f r) c holder
  obtain ⟨l, taken⟩ := resultTaken_only s id f r
  rw [taken]
  exact (resultTraced_rest s f r).1

/-! ## What becomes of a result -/

/-- The state in which a result has left its group's released list. -/
def State.popReleased (s : State) (g id : Nat) : State := s.modGroup g fun q => { q with released := q.released.filter (· ≠ id) }

/-- The state in which a result is dropped, waits for the copy engine, or has its copies. -/
def State.resultHandled (s : State) (g id : Nat) (f : Frame) (r : Result) (engine : Bool) : State :=
  let p := s.takeResult id f r
  if !p.1 then p.2
  else if engine then p.2.modGroup g fun q => { q with copyFifo := q.copyFifo ++ [id] }
  else p.2.resultCopies g id f r

theorem popReleased_left (s : State) (g id : Nat) : id ∉ ((s.popReleased g id).group g).released := by
  rw [State.popReleased, group_modGroup_same]
  exact not_mem_filter_ne id

theorem popReleased_copyFifo (s : State) (g id : Nat) : ((s.popReleased g id).group g).copyFifo = (s.group g).copyFifo := by
  rw [State.popReleased, group_modGroup_same]

/-- The state in which a result that is not dropped is counted as decided (R520). -/
def State.resultDecided (s : State) (id : Nat) (f : Frame) (r : Result) : State := (s.resultTaken id f r).balAdd f.owner 3

theorem resultDecided_group (s : State) (id : Nat) (f : Frame) (r : Result) (g : Nat) : (s.resultDecided id f r).group g = s.group g :=
  (resultTaken_grow s id f r).group g

/-- A result that is not dropped is counted once as decided, whatever becomes of it. -/
theorem resultHandled_decides (s : State) (g id : Nat) (f : Frame) {r : Result} (decided : r.kind ≠ 3) (engine : Bool) :
    ((s.resultHandled g id f r engine).group g).released = (s.group g).released ∧
      (s.resultHandled g id f r engine).bal f.owner 3 = (s.bal f.owner 3 + 1) % 2 ^ 72 := by
  have counted : (s.resultDecided id f r).bal f.owner 3 = (s.bal f.owner 3 + 1) % 2 ^ 72 := by
    rw [State.resultDecided, bal_balAdd_same, (resultTaken_grow s id f r).bal f.owner 3 (.inr rfl)]
  rw [← counted, ← resultDecided_group s id f r g]
  unfold State.resultHandled
  rw [takeResult_decided s id f decided, ← State.resultDecided]
  cases moved : (s.resultDecided id f r).quotaMove f r.tenant with
  | none =>
    have grown : CopiesGrow (s.resultDecided id f r) (((s.resultDecided id f r).swcCount r.tenant 5).settleFrame id) :=
      .settleFrame (.swcCount (.refl _) (by decide)) id
    exact ⟨congrArg Group.released (grown.group g), grown.bal f.owner 3 (.inr rfl)⟩
  | some t =>
    have kept : CopiesKept (s.resultDecided id f r) t := .quotaMove (.refl _) moved
    rw [← kept.group g, ← kept.bal f.owner 3 (.inr rfl)]
    cases engine with
    | true =>
      refine ⟨?_, rfl⟩
      show ((t.modGroup g _).group g).released = _
      rw [group_modGroup_same]
    | false =>
      have made := resultCopies_made t g id f r
      exact ⟨congrArg Group.released (made.group g), made.bal f.owner (.inr rfl)⟩

/-- A buffer that is quarantined, or charged to the result's tenant already, is not charged anew (R276, R277). -/
theorem quotaMove_charged {s : State} {f : Frame} {n : Nat} (charged : ∀ b, s.buf f.handle = some b → b.quar = true ∨ acctOf n b.acct = true) :
    s.quotaMove f n = some s := by
  unfold State.quotaMove
  split
  · rfl
  next b held => exact if_pos (charged b held)

/-- A result whose buffer needs no new charge is taken. -/
theorem takeResult_charged {s : State} (id : Nat) {f : Frame} {r : Result} (decided : r.kind ≠ 3)
    (charged : ∀ b, s.buf f.handle = some b → b.quar = true ∨ acctOf r.tenant b.acct = true) :
    s.takeResult id f r = (true, s.resultDecided id f r) := by
  have still : (s.resultDecided id f r).quotaMove f r.tenant = some (s.resultDecided id f r) :=
    quotaMove_charged fun b held => charged b ((resultTaken_buf s id f r f.handle).symm.trans held)
  rw [takeResult_decided s id f decided, ← State.resultDecided, still]

theorem kind_of_needsEngine {s : State} {f : Frame} {r : Result} (engine : s.needsEngine f r = true) : r.kind ≠ 3 := by
  intro dropped
  simp [State.needsEngine, dropped] at engine

theorem needsEngine_dropped {s : State} {f : Frame} {r : Result} (dropped : r.kind = 3) : s.needsEngine f r = false := by
  simp [State.needsEngine, dropped]

/-- A UNICAST result that does not need the copy engine is not mirrored (R284). -/
theorem needsEngine_unicast {s : State} {f : Frame} {r : Result} (unicast : r.kind = 0) (direct : s.needsEngine f r = false) :
    s.inSessions f r = [] ∧ s.flag F.SWC_PMIR.eg_en 0 r.dest = false := by
  simpa [State.needsEngine, unicast] using direct

/-! ## The next released result (R284) -/

theorem noneOfSeq_of_clear {s : State} {f : Frame} {l : List Nat} (clear : ∀ x ∈ l, ∀ h, s.frame x = some h → seqKey h ≠ seqKey f) :
    s.noneOfSeq f l = true := by
  refine List.all_eq_true.2 fun x here => ?_
  cases found : s.frame x with
  | none => rfl
  | some h => exact decide_eq_true (clear x here h found)

section
variable {s : State} {g id : Nat} {l : List Nat} {f : Frame} {r : Result} (first : (s.group g).released = id :: l)
  (found : s.frame id = some f) (result : f.result = some r) (whole : f.failed = false)
  (clear : ∀ x ∈ (s.group g).copyFifo, ∀ h, s.frame x = some h → seqKey h ≠ seqKey f)
include first found clear

theorem takable_first : s.takable g id = true := by
  unfold State.takable
  rw [found, first, List.takeWhile_cons_of_neg (by simp)]
  dsimp only
  rw [noneOfSeq_of_clear clear, Bool.or_true, Bool.and_true]
  rfl

include result whole

/-- The first released result, of a frame that has not failed, is taken where none of its sequence waits for the copy engine. -/
theorem goesTo_switchResult {P : State → Prop} (room : s.needsEngine f r = true → (s.group g).copyFifo.length < 256)
    (holds : P (((s.popReleased g id).resultHandled g id f r (s.needsEngine f r)).withQueue s.pending)) :
    goesTo (exec (.switchResult g) s) P := by
  have next : (s.group g).released.find? (fun id => s.takable g id) = some id := by
    rw [first, List.find?_cons_of_pos (takable_first first found clear)]
  show goesTo (execSwitchResult g s) _
  refine goesTo_act ?_
  rw [next]
  dsimp -zeta only
  extract_lets pop
  rw [found]
  dsimp -zeta only
  rw [result]
  dsimp -zeta only
  rw [whole, if_neg Bool.false_ne_true]
  extract_lets eng
  rw [if_neg fun full => absurd (room full.1) (Nat.not_lt.2 full.2)]
  exact holds

/-- A DROP result counts one dropped frame of its owner (R520). -/
theorem switchResult_drops (dropped : r.kind = 3) : goesTo (exec (.switchResult g) s) fun t =>
    id ∉ (t.group g).released ∧ t.bal f.owner 2 = (s.bal f.owner 2 + 1) % 2 ^ 72 := by
  have direct : s.needsEngine f r = false := needsEngine_dropped dropped
  refine goesTo_switchResult first found result whole clear (fun engine => absurd (direct.symm.trans engine) Bool.false_ne_true) ?_
  have popped := popReleased_left s g id
  have before : (s.popReleased g id).bal f.owner 2 = s.bal f.owner 2 := rfl
  generalize s.popReleased g id = u at popped before
  have grown : CopiesGrow ((u.resultTaken id f r).balAdd f.owner 2) (((u.resultTaken id f r).balAdd f.owner 2).settleFrame id) :=
    .settleFrame (.refl _) id
  have taken := resultTaken_grow u id f r
  unfold State.resultHandled
  rw [takeResult_drop u id f dropped]
  refine ⟨?_, ?_⟩
  · exact ((grown.group g).trans (taken.group g)) ▸ popped
  · exact (grown.bal f.owner 2 (.inl rfl)).trans ((bal_balAdd_same ..).trans (by rw [taken.bal f.owner 2 (.inl rfl), before]))

/-- Every other result counts one decided frame of its owner (R520). -/
theorem switchResult_decides (decided : r.kind ≠ 3) (room : (s.group g).copyFifo.length < 256) : goesTo (exec (.switchResult g) s) fun t =>
    id ∉ (t.group g).released ∧ t.bal f.owner 3 = (s.bal f.owner 3 + 1) % 2 ^ 72 := by
  refine goesTo_switchResult first found result whole clear (fun _ => room) ?_
  obtain ⟨released, counted⟩ := resultHandled_decides (s.popReleased g id) g id f decided (s.needsEngine f r)
  exact ⟨released ▸ popReleased_left s g id, counted⟩

section
variable (charged : ∀ b, s.buf f.handle = some b → b.quar = true ∨ acctOf r.tenant b.acct = true)
include charged

/-- A result that needs the copy engine goes to the end of its FIFO (R284). -/
theorem switchResult_queues (engine : s.needsEngine f r = true) (room : (s.group g).copyFifo.length < 256) :
    goesTo (exec (.switchResult g) s) fun t =>
      id ∉ (t.group g).released ∧ (t.group g).copyFifo = (s.group g).copyFifo ++ [id] := by
  refine goesTo_switchResult first found result whole clear (fun _ => room) ?_
  have taken : (s.popReleased g id).takeResult id f r = _ := takeResult_charged id (kind_of_needsEngine engine) charged
  have popped := popReleased_left s g id
  rw [← popReleased_copyFifo s g id, engine]
  generalize s.popReleased g id = u at taken popped
  unfold State.resultHandled
  rw [taken, group_withQueue]
  dsimp only
  rw [Bool.not_true, if_neg Bool.false_ne_true, if_pos rfl, group_modGroup_same, resultDecided_group]
  exact ⟨popped, rfl⟩

/-- A UNICAST result without mirroring whose queue checks pass makes one copy (R279, R281). -/
theorem switchResult_copies (unicast : r.kind = 0) (direct : s.needsEngine f r = false)
    (passes : s.enqueueCheck (unicastCopy id f r) r.tenant = 0) :
    goesTo (exec (.switchResult g) s) fun t =>
      id ∉ (t.group g).released ∧ t.nextCopy = s.nextCopy + 1 ∧ countedUp s t F.SWC_CNT.count r.tenant 0 1 ∧
      ∃ h, t.frame id = some h ∧ h.switched = true ∧ h.copies = f.copies + 1 := by
  refine goesTo_switchResult first found result whole clear (fun engine => absurd (direct.symm.trans engine) Bool.false_ne_true) ?_
  let u := s.popReleased g id
  let v := u.resultDecided id f r
  have read (i n : Nat) : v.rd .SWC_PMIR i n = s.rd .SWC_PMIR i n := resultTaken_read u id f r i n (by decide)
  have count : v.fget F.SWC_CNT.count r.tenant 0 = s.fget F.SWC_CNT.count r.tenant 0 :=
    congrArg (fldGet · _ _) (resultTaken_read u id f r (q := .SWC_CNT) r.tenant 0 (by decide))
  obtain ⟨unmirrored, egress⟩ := needsEngine_unicast unicast direct
  have handled : u.resultHandled g id f r (s.needsEngine f r) = v.resultCopies g id f r := by
    unfold State.resultHandled
    rw [takeResult_charged (s := u) id (by omega) charged, direct]
    rfl
  obtain ⟨next, counted, groups, frame⟩ := resultCopies_one (s := v) (g := g) unicast
    ((resultTaken_enqueueCheck u id f r _ _).trans passes) (resultTaken_frame (s := u) found f r)
    ((inSessions_congr (resultTaken_watch u id f r) read f r).trans unmirrored) ((flag_congr (read ..)).trans egress)
  have group : (v.resultCopies g id f r).group g = u.group g := by
    rw [State.group, groups]
    exact resultDecided_group u id f r g
  rw [show (s.popReleased g id).resultHandled g id f r (s.needsEngine f r) = _ from handled]
  refine ⟨?_, next.trans (congrArg (· + 1) (resultTaken_next u id f r)), countedUp_congr counted count rfl, _, frame, rfl, rfl⟩
  rw [group_withQueue, group]
  exact popReleased_left s g id

end

end

/-! ## The copy engine (R284) -/

/-- The state in which a result has left the copy engine's FIFO. -/
def State.popCopy (s : State) (g id : Nat) : State := s.modGroup g fun q => { q with copyFifo := q.copyFifo.filter (· ≠ id) }

/-- A frame that is in the device and express. -/
def State.expressFrame (s : State) (id : Nat) : Bool := match s.frame id with | some f => f.express | none => false

theorem expressFrame_none {s : State} {l : List Nat} (general : ∀ x ∈ l, ∀ h, s.frame x = some h → h.express = false) :
    l.find? s.expressFrame = none := by
  refine List.find?_eq_none.2 fun x here => ?_
  unfold State.expressFrame
  cases found : s.frame x with
  | none => exact Bool.false_ne_true
  | some h => exact fun express => Bool.false_ne_true ((general x here h found).symm.trans express)

section
variable {s : State} {g id : Nat} {a l : List Nat} {f : Frame} {r : Result} (fifo : (s.group g).copyFifo = a ++ id :: l)
  (found : s.frame id = some f) (result : f.result = some r) (whole : f.failed = false)
  (before : ∀ x ∈ a, ∀ h, s.frame x = some h → h.express = false)
  (next : f.express = true ∨ (a = [] ∧ ∀ x ∈ l, ∀ h, s.frame x = some h → h.express = false))
include fifo found before next

/-- The copy engine's next result is the first express one, or the first when none is express. -/
theorem copyEngine_next : (((s.group g).copyFifo.find? s.expressFrame).orElse fun _ => (s.group g).copyFifo.head?) = some id := by
  have own : s.expressFrame id = f.express := by
    unfold State.expressFrame
    rw [found]
  rw [fifo, List.find?_append, expressFrame_none before, Option.none_or]
  cases express : f.express with
  | true =>
    rw [List.find?_cons_of_pos (own.trans express)]
    rfl
  | false =>
    obtain ⟨rfl, general⟩ := next.resolve_left (by simp [express])
    rw [List.find?_cons_of_neg (by simp [own, express]), expressFrame_none general]
    rfl

include result whole

theorem goesTo_copyEngineResult {P : State → Prop} (holds : P (((s.popCopy g id).resultCopies g id f r).withQueue s.pending)) :
    goesTo (exec (.copyEngineResult g) s) P := by
  show goesTo (execCopyEngineResult g s) _
  refine goesTo_act ?_
  extract_lets l exp
  rw [show (exp.orElse fun _ => l.head?) = some id from copyEngine_next fifo found before next]
  dsimp -zeta only
  extract_lets popped
  rw [show popped.frame id = some f from found]
  dsimp -zeta only
  rw [result]
  dsimp -zeta only
  rw [whole, if_neg Bool.false_ne_true]
  exact holds

omit fifo found result whole before next in
theorem popCopy_left (s : State) (g id : Nat) (f : Frame) (r : Result) :
    (((s.popCopy g id).resultCopies g id f r).group g).copyFifo = (s.group g).copyFifo.filter (· ≠ id) := by
  rw [(resultCopies_made (s.popCopy g id) g id f r).group g, State.popCopy, group_modGroup_same]

theorem copyEngineResult_takes : goesTo (exec (.copyEngineResult g) s) fun t =>
    (t.group g).copyFifo = (s.group g).copyFifo.filter (· ≠ id) :=
  goesTo_copyEngineResult fifo found result whole before next (popCopy_left s g id f r)

/-- A UNICAST result whose queue checks pass makes its copy (R281). -/
theorem copyEngineResult_copies (unicast : r.kind = 0) (passes : s.enqueueCheck (unicastCopy id f r) r.tenant = 0) :
    goesTo (exec (.copyEngineResult g) s) fun t =>
      (t.group g).copyFifo = (s.group g).copyFifo.filter (· ≠ id) ∧ s.nextCopy + 1 ≤ t.nextCopy ∧
      ∃ h, t.frame id = some h ∧ f.copies + 1 ≤ h.copies :=
  goesTo_copyEngineResult fifo found result whole before next
    ⟨popCopy_left s g id f r, resultCopies_unicast (s := s.popCopy g id) unicast passes found⟩

/-- A MULTICAST result whose group's records are readable and valid is counted (R284). -/
theorem copyEngineResult_counts {w : Nat} {ws : List Nat} (multicast : r.kind = 1)
    (list : s.groupList g f.tag r.tenant r.dest = some (w, ws)) (valid : bit w 35 = true) :
    goesTo (exec (.copyEngineResult g) s) fun t =>
      (t.group g).copyFifo = (s.group g).copyFifo.filter (· ≠ id) ∧ countedUp s t F.SWC_CNT.count r.tenant 1 1 :=
  goesTo_copyEngineResult fifo found result whole before next
    ⟨popCopy_left s g id f r, resultCopies_listed (s := s.popCopy g id) id multicast list valid⟩

end

/-! ## The statement -/

/-- Settles O24: what the switch core makes of a group's first released result, and the copy engine of its next. -/
theorem switchTakesReleasedResults : Obligations.SwitchTakesReleasedResults := by
  unfold Obligations.SwitchTakesReleasedResults
  refine ⟨fun s g id l f r first found result whole clear => ⟨?drops, ?decides, ?queues, ?copies⟩,
    fun s g id a l f r fifo found result whole before next => ⟨?takes, ?unicast, ?multicast⟩⟩
  case drops => exact switchResult_drops first found result whole clear
  case decides => exact switchResult_decides first found result whole clear
  case queues => exact switchResult_queues first found result whole clear
  case copies => exact switchResult_copies first found result whole clear
  case takes => exact copyEngineResult_takes fifo found result whole before next
  case unicast => exact copyEngineResult_copies fifo found result whole before next
  case multicast => exact fun w ws => copyEngineResult_counts fifo found result whole before next

end Sys2Proof.Machine
end

section
/-! PROOFS. Rows, refreshes and power-down of the HBM controller (R311–R313): the settling of O26. -/

namespace Sys2Proof.Machine

/-! ## Rows, refresh and power (R311–R313) -/

theorem hbmRowClose_closes (s : State) (u b : Nat) : goesTo (exec (.hbmRowClose u b) s) fun t =>
    tabGet 0 t.hbm.rows ((u - 0x900) * 64 + b) = 0 ∧ t.regs = s.regs ∧ t.queues = s.queues := by
  show goesTo (execHbmRowClose u b s) _
  exact goesTo_act ⟨tabGet_set_same 0 s.hbm.rows _ 0, rfl, rfl⟩

/-- A bank is busy where a queued request of its pseudo-channel targets it. -/
theorem bankBusy_iff (s : State) (k bank : Nat) :
    s.bankBusy k bank = true ↔ ∃ r ∈ s.reqs false k ++ s.reqs true k, (s.reqRow k r).1 = bank := by
  simp only [State.bankBusy, List.any_eq_true, decide_eq_true_eq]

/-- A refreshed bank has no row open (R312). -/
theorem refreshBanks_rows (s : State) {l : List Nat} {k : Nat} (refreshed : k ∈ l) : tabGet 0 (s.refreshBanks l).hbm.rows k = 0 := by
  have closed : tabGet 0 (s.refreshBanks l).hbm.rows k = if !l.contains k then tabGet 0 s.hbm.rows k else 0 :=
    tabGet_filter 0 (fun k => !l.contains k) s.hbm.rows k
  rw [closed, if_neg (by simp [refreshed])]

section
variable {s : State} {u b : Nat}

/-- The refresh of all banks closes every row of the pseudo-channel. -/
theorem hbmRefresh_allBanks (all : s.flag F.HBC_REFRESH.all_bank ((u - 0x900) / 32) = true) : goesTo (exec (.hbmRefresh u b) s) fun t =>
    (∀ c, c < 64 → tabGet 0 t.hbm.rows ((u - 0x900) * 64 + c) = 0) ∧ t.regs = s.regs ∧ t.queues = s.queues := by
  show goesTo (execHbmRefresh u b s) _
  refine goesTo_act ?_
  extract_lets pc k
  rw [if_pos all]
  exact ⟨fun c bank => refreshBanks_rows s (List.mem_map_of_mem (List.mem_range.2 bank)), rfl, rfl⟩

/-- The refresh of one bank closes its row, unless a request waits for the bank and the refresh may be postponed. -/
theorem hbmRefresh_closes (one : s.flag F.HBC_REFRESH.all_bank ((u - 0x900) / 32) = false)
    (due : s.bankBusy (u - 0x900) ((u - 0x900) * 64 + b) = false ∨
      Config.refreshPostpone ≤ tabGet 0 s.hbm.postponed ((u - 0x900) * 64 + b)) : goesTo (exec (.hbmRefresh u b) s) fun t =>
    tabGet 0 t.hbm.rows ((u - 0x900) * 64 + b) = 0 ∧ t.regs = s.regs ∧ t.queues = s.queues := by
  show goesTo (execHbmRefresh u b s) _
  refine goesTo_act ?_
  extract_lets pc k
  have now : ¬(s.bankBusy pc k = true ∧ tabGet 0 s.hbm.postponed k < Config.refreshPostpone) := by
    rintro ⟨busy, few⟩
    rcases due with idle | often
    · exact Bool.false_ne_true (idle.symm.trans busy)
    · exact Nat.not_lt.2 often few
  rw [if_neg (by rw [one]; exact Bool.false_ne_true), if_neg now]
  exact ⟨refreshBanks_rows s List.mem_cons_self, rfl, rfl⟩

/-- The refresh of a bank that a request waits for is postponed as long as it may be. -/
theorem hbmRefresh_postpones (one : s.flag F.HBC_REFRESH.all_bank ((u - 0x900) / 32) = false)
    (busy : s.bankBusy (u - 0x900) ((u - 0x900) * 64 + b) = true)
    (few : tabGet 0 s.hbm.postponed ((u - 0x900) * 64 + b) < Config.refreshPostpone) : goesTo (exec (.hbmRefresh u b) s) fun t =>
    tabGet 0 t.hbm.postponed ((u - 0x900) * 64 + b) = tabGet 0 s.hbm.postponed ((u - 0x900) * 64 + b) + 1 ∧ t.hbm.rows = s.hbm.rows ∧
      t.regs = s.regs ∧ t.queues = s.queues := by
  show goesTo (execHbmRefresh u b s) _
  refine goesTo_act ?_
  extract_lets pc k
  rw [if_neg (by rw [one]; exact Bool.false_ne_true), if_pos ⟨busy, few⟩]
  exact ⟨tabGet_set_same 0 s.hbm.postponed k (tabGet 0 s.hbm.postponed k + 1), rfl, rfl, rfl⟩

theorem hbmPowerDown_sleeps (timed : s.fget F.HBC_CFG.pd_idle ≠ 0) (idle : s.pcIdle (u - 0x900) = true) :
    goesTo (exec (.hbmPowerDown u) s) fun t => u ∈ t.hbm.asleep ∧ t.regs = s.regs ∧ t.queues = s.queues := by
  show goesTo (execHbmPowerDown u s) _
  refine goesTo_act ?_
  by_cases asleep : u ∈ s.hbm.asleep
  · rw [if_pos (.inr (.inl (List.contains_iff_mem.2 asleep)))]
    exact ⟨asleep, rfl, rfl⟩
  · rw [if_neg (by simp [timed, idle, asleep])]
    exact ⟨List.mem_append_right _ List.mem_cons_self, rfl, rfl⟩

end

/-- Settles O26: rows close at their timers and refreshes, a refresh is postponed for a request, and an idle pseudo-channel powers down. -/
theorem hbmRowsRefreshAndPower : Obligations.HbmRowsRefreshAndPower := by
  unfold Obligations.HbmRowsRefreshAndPower
  refine ⟨hbmRowClose_closes, fun s u b _ => ⟨hbmRefresh_allBanks, fun one => ⟨fun due => ?closes, fun asked few => ?postpones⟩⟩,
    fun s u => hbmPowerDown_sleeps⟩
  case closes => exact hbmRefresh_closes one (due.imp_left fun none_ => Bool.eq_false_iff.2 fun busy => none_ ((bankBusy_iff ..).1 busy))
  case postpones => exact hbmRefresh_postpones one ((bankBusy_iff ..).2 asked) few

end Sys2Proof.Machine
end

section
/-! PROOFS. The HBM controller's retraining visits, read errors, row repairs and drained pseudo-channels (R314–R318): the settling of O27. -/

namespace Sys2Proof.Machine

/-! ## Retraining (R314, R315) -/

section
variable {s : State} {h : Nat}

/-- A round goes on to an ACTIVE pseudo-channel, where one serves a logical pseudo-channel from the next on. -/
theorem roundNext_copies {b lp p : Nat} (bench : s.benchPc h = some b) (still : s.hbmCopying h = false) (channel : p < 32)
    (active : s.fget F.HBC_PC.state h p = 0) (next : lp ≤ s.fget F.HBC_PC.logical h p) (serves : s.fget F.HBC_PC.logical h p < 31) :
    (s.roundNext h lp).fget F.HBC_PC.state h b = 2 := by
  unfold State.roundNext
  rw [if_neg (by simp [bench])]
  split
  case h_1 missing =>
    refine absurd ?_ (List.find?_eq_none.1 missing _ (List.mem_filter.2 ⟨List.mem_range.2 serves, decide_eq_true next⟩))
    exact List.any_eq_true.2 ⟨p, List.mem_range.2 channel, by simp [active]⟩
  case h_2 l found =>
    have some_ := List.find?_some (p := fun l => (List.range 32).any fun p =>
      decide (s.fget F.HBC_PC.logical h p = l) && decide (s.fget F.HBC_PC.state h p = 0)) found
    obtain ⟨q, here, served⟩ := List.any_eq_true.1 some_
    have first : ((List.range 32).find? fun p => s.fget F.HBC_PC.logical h p = l ∧ s.fget F.HBC_PC.state h p = 0).isSome = true :=
      List.find?_isSome.2 ⟨q, here, by simpa using served⟩
    obtain ⟨x, picked⟩ := Option.isSome_iff_exists.1 first
    have idle : s.fget F.HBC_PC.logical h x = l ∧ s.fget F.HBC_PC.state h x = 0 := by simpa using List.find?_some picked
    dsimp only
    rw [picked]
    exact visit_copies idle.2 still bench

theorem hbmRetrainTimer_copies {b p : Nat} (awake : s.frozen = false) (timed : s.fget F.HBC_CFG.retrain ≠ 0)
    (open_ : s.fget F.HBC_STACK.state h = 1) (bench : s.benchPc h = some b) (still : s.hbmCopying h = false)
    (fresh : tabFind s.hbm.round h = none) (channel : p < 32) (active : s.fget F.HBC_PC.state h p = 0)
    (serves : s.fget F.HBC_PC.logical h p < 31) :
    goesTo (exec (.hbmRetrainTimer h) s) fun t => t.fget F.HBC_PC.state h b = 2 := by
  show goesTo (execHbmRetrainTimer h s) _
  refine goesTo_actAwake awake ?_
  rw [if_neg (by simp [timed, open_]), if_neg (by simp [bench]), if_neg (by simp [fresh])]
  exact roundNext_copies bench still channel active (Nat.zero_le _) serves

/-! ## The end of a copy and of training (R314, R317) -/

/-- Passing requests on leaves the registers and the visits. -/
theorem moveReqs_fields (s : State) (old new : Nat) : (s.moveReqs old new).regs = s.regs ∧ (s.moveReqs old new).hbm.visits = s.hbm.visits := by
  have listed (s : State) (write : Bool) (k : Nat) (l : List LineReq) :
      (s.setReqs write k l).regs = s.regs ∧ (s.setReqs write k l).hbm.visits = s.hbm.visits := by
    cases write <;> exact ⟨rfl, rfl⟩
  unfold State.moveReqs
  exact foldl_rel (R := fun s t : State => t.regs = s.regs ∧ t.hbm.visits = s.hbm.visits) (fun _ => ⟨rfl, rfl⟩)
    (fun h k => ⟨k.1.trans h.1, k.2.trans h.2⟩) (fun u w => ⟨(listed _ _ _ _).1.trans (listed _ _ _ _).1, (listed _ _ _ _).2.trans (listed _ _ _ _).2⟩) _ s

/-- The logical pseudo-channel of the one passes to the other, which is ACTIVE. -/
theorem remap_serves {old new : Nat} (cause : Nat) (source : old < 32) (dest : new < 32) (apart : old ≠ new) :
    (s.remap h old new cause).fget F.HBC_PC.state h new = 0 ∧
      (s.remap h old new cause).fget F.HBC_PC.logical h new = s.fget F.HBC_PC.logical h old ∧
      (s.remap h old new cause).hbm.visits = s.hbm.visits := by
  unfold State.remap
  extract_lets lp active counted moved
  have elsewhere : new % 2 ^ 16 ≠ old % 2 ^ 16 := by omega
  obtain ⟨regs, visits⟩ : moved.regs = counted.regs ∧ moved.hbm.visits = counted.hbm.visits := moveReqs_fields ..
  have kept (f : Fld) (own : f.reg = .HBC_PC) : moved.fget f h new = active.fget f h new :=
    calc moved.fget f h new
      _ = counted.fget f h new := by rw [State.fget, State.rd, regs]; rfl
      _ = (active.fset F.HBC_PC.logical h old 31).fget f h new := State.fget_fset_reg _ _ _ _ _ _ (by rw [own]; decide)
      _ = active.fget f h new := State.fget_fset_copy _ _ (.inr elsewhere)
  have sent := emitPart_sentOnly moved 16 clsFault
    { code := 0x5C, unit := pcUnit h old, stamp := moved.stamp, p3 := h + lp * 2 ^ 8 + old * 2 ^ 16 + new * 2 ^ 24 + cause * 2 ^ 32 }
  have small : lp < 2 ^ 5 := fldGet_lt _ 32 28
  refine ⟨?_, ?_, ?_⟩
  · rw [sent.fget _ _ _ (by decide), kept _ rfl]
    exact State.fget_fset_same _ _ _ 0 (by decide)
  · rw [sent.fget _ _ _ (by decide), kept _ rfl]
    have beside : active.fget F.HBC_PC.logical h new = (s.fset F.HBC_PC.logical h new lp).fget F.HBC_PC.logical h new :=
      State.fget_fset_fld _ _ _ _ rfl (by decide)
    exact (beside.trans (State.fget_fset_same _ _ _ _ (by decide))).trans (Nat.mod_eq_of_lt small)
  · obtain ⟨⟨_, _, _, _, same⟩, -⟩ := sent
    rw [same]
    exact visits

theorem hbmCopyDone_remaps {v : HbmVisit} (visiting : ∀ p ∈ s.flt.promos, ¬(p.kind = 4 ∧ (p.unit - 0x900) / 32 = h))
    (found : (s.hbm.visits.find? fun v => decide (v.stack = h)) = some v) (source : v.src < 32) (dest : v.dst < 32) (apart : v.src ≠ v.dst) :
    goesTo (exec (.hbmCopyDone h) s) fun t =>
      t.fget F.HBC_PC.state h v.src = 4 ∧ t.fget F.HBC_PC.state h v.dst = 0 ∧
      t.fget F.HBC_PC.logical h v.dst = s.fget F.HBC_PC.logical h v.src ∧ v ∉ t.hbm.visits := by
  show goesTo (execHbmCopyDone h s) _
  refine goesTo_act ?_
  rw [show (s.flt.promos.find? fun p => p.kind = 4 ∧ (p.unit - 0x900) / 32 = h) = none from
    List.find?_eq_none.2 fun p mem => by simpa using visiting p mem]
  dsimp -zeta only
  rw [found]
  dsimp -zeta only
  extract_lets _ ended
  obtain ⟨active, logical, visits⟩ := remap_serves (s := ended) (h := h) 1 source dest apart
  have elsewhere : v.dst % 2 ^ 16 ≠ v.src % 2 ^ 16 := by omega
  refine ⟨State.fget_fset_same _ _ _ 4 (by decide), ?_, ?_, ?_⟩
  · exact (State.fget_fset_copy _ _ (.inr elsewhere)).trans active
  · exact (State.fget_fset_copy _ _ (.inr elsewhere)).trans logical
  · rw [State.withQueue_hbm, State.fset_hbm, visits]
    simp [ended]

theorem fget_showBench (s : State) (k : Nat) (c i : Nat) : (s.showBench k).fget F.HBC_PC.state c i = s.fget F.HBC_PC.state c i :=
  State.fget_fset_reg _ _ _ _ _ _ (by decide)

theorem hbmTrainDone_benches {p : Nat} (training : ((List.range 32).find? fun p => decide (s.fget F.HBC_PC.state h p = 4)) = some p)
    (alone : tabFind s.hbm.round h = none) : goesTo (exec (.hbmTrainDone h) s) fun t => t.fget F.HBC_PC.state h p = 1 := by
  show goesTo (execHbmTrainDone h s) _
  refine goesTo_act ?_
  rw [training]
  dsimp -zeta only
  extract_lets shown
  rw [show tabFind shown.hbm.round h = none from alone]
  rw [State.fget_withQueue]
  show (State.showBench _ h).fget _ _ _ = 1
  rw [fget_showBench]
  exact State.fget_fset_same _ _ _ 1 (by decide)

end

/-! ## Errors, repairs and drained pseudo-channels (R316, R318) -/

/-- A corrected error of a read line is counted for its stack, whatever else follows. -/
theorem hbmLineError_counts (s : State) (b j : Nat) : countedUp s (s.hbmLineError b j false) F.HBC_SCNT.count (blockStack b) 4 1 := by
  unfold State.hbmLineError
  have stack : (s.lineHome b j).1 = blockStack b := rfl
  generalize s.lineHome b j = home at stack ⊢
  obtain ⟨h, p, sid, bank, row⟩ := home
  obtain rfl : h = blockStack b := stack
  dsimp -zeta only
  extract_lets u d5 k start _ _ _ noted n m _ listed trended
  rw [if_neg Bool.false_ne_true]
  have counted : countedUp s (s.scnt (blockStack b) 4) F.HBC_SCNT.count (blockStack b) 4 1 := State.countedUp_bump s _ 4 1 (by decide)
  have recorded : EngineKept endRegs (s.scnt (blockStack b) 4) noted := .corrected (.refl _)
  have shown : trended.fget F.HBC_SCNT.count (blockStack b) 4 = listed.fget F.HBC_SCNT.count (blockStack b) 4 :=
    State.fget_fset_reg _ _ _ _ _ _ (by decide)
  have kept : trended.fget F.HBC_SCNT.count (blockStack b) 4 = (s.scnt (blockStack b) 4).fget F.HBC_SCNT.count (blockStack b) 4 :=
    shown.trans (recorded.fget _ _ _ (by decide))
  have started : (start trended).fget F.HBC_SCNT.count (blockStack b) 4 = trended.fget F.HBC_SCNT.count (blockStack b) 4 := by
    unfold start
    split <;> rfl
  split
  · exact countedUp_congr counted rfl (started.trans kept)
  · exact countedUp_congr counted rfl kept

/-- An uncorrectable error of a read line starts the repair of its row. -/
theorem hbmLineError_repairs (s : State) (b j : Nat) :
    ∃ e ∈ (s.hbmLineError b j true).hbm.repairing, e.1 = pcUnit (blockStack b) (s.lineHome b j).2.1 := by
  unfold State.hbmLineError
  have stack : (s.lineHome b j).1 = blockStack b := rfl
  generalize s.lineHome b j = home at stack ⊢
  obtain ⟨h, p, sid, bank, row⟩ := home
  obtain rfl : h = blockStack b := stack
  dsimp -zeta only
  extract_lets u d5 k start fenced marked
  rw [if_pos rfl]
  refine ⟨(u, k), ?_, rfl⟩
  unfold start
  split
  next listed => exact List.contains_iff_mem.1 listed
  next => exact List.mem_append_right _ List.mem_cons_self

theorem hbmReadError_counts (s : State) (b j : Nat) :
    goesTo (exec (.hbmReadError b j false) s) fun t => countedUp s t F.HBC_SCNT.count (blockStack b) 4 1 := by
  show goesTo (execHbmReadError b j false s) _
  exact goesTo_act (hbmLineError_counts s b j)

theorem hbmReadError_repairs (s : State) (b j : Nat) : goesTo (exec (.hbmReadError b j true) s) fun t =>
    ∃ e ∈ t.hbm.repairing, e.1 = pcUnit (blockStack b) (s.lineHome b j).2.1 := by
  show goesTo (execHbmReadError b j true s) _
  exact goesTo_act (hbmLineError_repairs s b j)

/-- The end of a unit's reactions, unless some repair of it is left, changes the records of faults only. -/
theorem endedUnless_fields (s : State) (u : Nat) (c : Prop) [Decidable c] :
    (if c then s else s.endReaction u).regs = s.regs ∧ (if c then s else s.endReaction u).hbm = s.hbm := by
  split <;> exact ⟨rfl, rfl⟩

theorem hbmRowRepairDone_ends {s : State} {u k : Nat} (found : (s.hbm.repairing.find? fun e => decide (e.1 = u)) = some (u, k))
    (left : tabGet 0 s.hbm.repairs (k / 16384) < 14) : goesTo (exec (.hbmRowRepairDone u) s) fun t =>
      countedUp s t F.HBC_SCNT.count ((u - 0x900) / 32) 6 1 ∧ (u, k) ∉ t.hbm.repairing := by
  show goesTo (execHbmRowRepairDone u s) _
  refine goesTo_act ?_
  rw [found]
  dsimp -zeta only
  extract_lets h p bank n _ taken counted spared ended
  have one : countedUp s counted F.HBC_SCNT.count h 6 1 := State.countedUp_bump taken h 6 1 (by decide)
  rw [if_neg (show ¬15 ≤ tabGet 0 s.hbm.repairs (k / 16384) + 1 by omega)]
  have shown : spared.fget F.HBC_SCNT.count h 6 = counted.fget F.HBC_SCNT.count h 6 := State.fget_fset_reg _ _ _ _ _ _ (by decide)
  have removed : (u, k) ∉ taken.hbm.repairing := by simp [taken]
  have same : spared.hbm = taken.hbm := (counted.fset_hbm ..).trans (taken.bump_hbm ..)
  clear_value spared
  have kept : ended.regs = spared.regs ∧ ended.hbm = spared.hbm := endedUnless_fields ..
  rw [countedUp_withQueue, State.withQueue_hbm]
  refine ⟨?_, ?_⟩
  · have read : ended.fget F.HBC_SCNT.count h 6 = spared.fget F.HBC_SCNT.count h 6 := by
      unfold State.fget State.rd
      rw [kept.1]
    exact countedUp_congr one rfl (read.trans shown)
  · rw [kept.2, same]
    exact removed

theorem hbmPcDrained_fences {s : State} {u : Nat} (draining : s.fget F.HBC_PC.state ((u - 0x900) / 32) ((u - 0x900) % 32) = 5)
    (empty : ∀ e ∈ s.queues, ∀ b ∈ e.2.blocks,
      ¬(blockStack b = (u - 0x900) / 32 ∧ blockLogical b = s.fget F.HBC_PC.logical ((u - 0x900) / 32) ((u - 0x900) % 32))) :
    goesTo (exec (.hbmPcDrained u) s) fun t => t.fget F.HBC_PC.state ((u - 0x900) / 32) ((u - 0x900) % 32) = 3 := by
  show goesTo (execHbmPcDrained u s) _
  refine goesTo_act ?_
  extract_lets h p lp busy fenced
  have idle : busy = false := by
    refine List.any_eq_false.2 fun b mem => ?_
    obtain ⟨e, listed, own⟩ := List.mem_flatMap.1 mem
    simpa using empty e listed b own
  have still : fenced.fget F.HBC_PC.state h p = 3 := State.fget_fset_same _ _ _ 3 (by decide)
  rw [if_neg (by simp [idle, draining, h, p]), State.fget_withQueue]
  split
  · exact still
  · exact ((countFenced_kept fenced 4 u).fget F.HBC_PC.state h p (by decide)).trans still

/-- Settles O27: what the retraining timer, the end of a copy and of training, a read error, the end of a repair and a drained pseudo-channel do. -/
theorem hbmRetrainsRepairsAndDrains : Obligations.HbmRetrainsRepairsAndDrains := by
  unfold Obligations.HbmRetrainsRepairsAndDrains
  refine ⟨?timer, ?copied, ?trained, hbmReadError_counts, hbmReadError_repairs, ?repaired, ?drained⟩
  case timer => exact fun s h b p => hbmRetrainTimer_copies
  case copied => exact fun s h v => hbmCopyDone_remaps
  case trained => exact fun s h p => hbmTrainDone_benches
  case repaired => exact fun s u k => hbmRowRepairDone_ends
  case drained => exact fun s u => hbmPcDrained_fences

end Sys2Proof.Machine
end

section
/-! PROOFS. What the BPM does to buffers leaves the egress queues and the HBM controller alone (R270–R276): one line for each operation. -/

namespace Sys2Proof.Machine

/-! ## The relation -/

/-- From `s` to `t`, the egress queues and the HBM controller's state beside its registers are as they were. -/
structure DeepKept (s t : State) : Prop where
  queues : t.queues = s.queues
  hbm : t.hbm = s.hbm

namespace DeepKept

theorem refl (s : State) : DeepKept s s := ⟨rfl, rfl⟩

variable {s t u : State}

theorem trans (h : DeepKept s t) (k : DeepKept t u) : DeepKept s u := ⟨k.queues.trans h.queues, k.hbm.trans h.hbm⟩

theorem queue (h : DeepKept s t) (n : Nat) : t.queue n = s.queue n := by
  unfold State.queue; rw [h.queues]

theorem ite {c : Prop} [Decidable c] (h : DeepKept s t) (k : DeepKept s u) : DeepKept s (if c then t else u) := by
  split
  · exact h
  · exact k

/-- A run of steps that each keep the queues and the controller keeps them. -/
theorem foldl {α : Type} {f : State → α → State} (h : DeepKept s t) (step : ∀ u x, DeepKept u (f u x)) (l : List α) :
    DeepKept s (l.foldl f t) :=
  h.trans (foldl_rel refl trans step l t)

/-- A change of what the relation does not speak of. -/
theorem beside (h : DeepKept s t) (queues : u.queues = t.queues) (hbm : u.hbm = t.hbm) : DeepKept s u := h.trans ⟨queues, hbm⟩

/-! ## Registers and records -/

theorem wr (h : DeepKept s t) {r : Reg} {c i : Nat} {v : RegVal} : DeepKept s (t.wr r c i v) := h.beside rfl rfl
theorem fset (h : DeepKept s t) {f : Fld} {c i n : Nat} : DeepKept s (t.fset f c i n) := h.wr
theorem bump (h : DeepKept s t) {f : Fld} {c i n : Nat} : DeepKept s (t.bump f c i n) := h.wr
theorem bumpSat (h : DeepKept s t) {f : Fld} {c i n : Nat} : DeepKept s (t.bumpSat f c i n) := h.wr
theorem drop (h : DeepKept s t) {f : Fld} {c i n : Nat} : DeepKept s (t.drop f c i n) := h.wr
theorem modPort (h : DeepKept s t) {p : Nat} {g : PortSt → PortSt} : DeepKept s (t.modPort p g) := h.beside rfl rfl
theorem modThr (h : DeepKept s t) {n : Nat} {g : Thread → Thread} : DeepKept s (t.modThr n g) := h.beside rfl rfl
theorem setBuf (h : DeepKept s t) {n : Nat} {b : Buf} : DeepKept s (t.setBuf n b) := h.beside rfl rfl
theorem flt (h : DeepKept s t) {x : FaultSt} : DeepKept s { t with flt := x } := h.beside rfl rfl

theorem emitBoth (h : DeepKept s t) {p cls : Nat} {r : Record} : DeepKept s (t.emitBoth p cls r) := by
  obtain ⟨⟨_, _, _, _, sent⟩, -⟩ := emitBoth_sentOnly t p cls r
  exact h.beside (by rw [sent]) (by rw [sent])

/-! ## Faults and the tailings log (R531–R538) -/

theorem tailAppend (h : DeepKept s t) {ws : List Nat} {graver : Bool} : DeepKept s (t.tailAppend ws graver) := by
  unfold State.tailAppend
  refine .ite (.bumpSat h) ?_
  extract_lets tail _ entered counted
  have logged : DeepKept s counted := .fset (.flt h)
  exact .ite (.fset logged) logged

theorem mergeFault (h : DeepKept s t) {f : FaultRec} {cause unit cls : Nat} : DeepKept s (t.mergeFault f cause unit cls) := by
  unfold State.mergeFault
  extract_lets g old new _ merged held counted overflowed frozen
  have recorded : DeepKept s counted := .bump (.flt h)
  have full : DeepKept s overflowed := .ite (.bump (.fset recorded)) recorded
  exact .fset (.emitBoth (.ite (.fset full) full))

theorem openFault (h : DeepKept s t) {f : FaultRec} : DeepKept s (t.openFault f) := by
  unfold State.openFault
  extract_lets slot g _ listed counted overflowed recorded logged
  have entered : DeepKept s counted := .bump (.ite (.flt h) h)
  have full : DeepKept s overflowed := .ite (.bump (.fset entered)) entered
  exact .fset (.tailAppend (.emitBoth full))

theorem raise (h : DeepKept s t) {f : FaultRec} : DeepKept s (t.raise f) := by
  unfold State.raise
  split
  · exact .mergeFault h
  · exact .openFault h

/-! ## Accounts and buffers (R140, R271–R278, R398) -/

theorem charge (h : DeepKept s t) {a : Acct} {n : Nat} : DeepKept s (t.charge a n) := by
  cases a <;> exact h.beside rfl rfl

theorem uncharge (h : DeepKept s t) {a : Acct} {n : Nat} : DeepKept s (t.uncharge a n) := by
  cases a <;> exact h.beside rfl rfl

theorem setXoff (h : DeepKept s t) {p c : Nat} {on : Bool} : DeepKept s (t.setXoff p c on) := .ite (.modPort (.fset h)) (.fset h)

theorem pfcCount (h : DeepKept s t) {p c n : Nat} {up : Bool} : DeepKept s (t.pfcCount p c up n) := by
  unfold State.pfcCount
  extract_lets counted
  have kept : DeepKept s counted := .ite (.bumpSat h) (.drop h)
  exact .ite (.ite (.setXoff kept) kept) (.ite (.setXoff kept) (.ite (.setXoff kept) kept))

theorem leaveWindows (h : DeepKept s t) {b : Nat} {keeps : Nat → Bool} : DeepKept s (t.leaveWindows b keeps) :=
  .foldl h (fun u _ => .modThr (.refl u)) _

theorem hold (h : DeepKept s t) {b tag part : Nat} {a : Acct} {src : Option (Nat × Nat)} : DeepKept s (t.hold b tag part a src) := by
  unfold State.hold
  extract_lets p charged counted
  have kept : DeepKept s counted := .fset (.charge (.setBuf h))
  split
  · exact .pfcCount kept
  · exact kept

theorem freeBuf (h : DeepKept s t) {b : Nat} : DeepKept s (t.freeBuf b) := by
  unfold State.freeBuf
  split
  · exact h
  · extract_lets n left _ marked
    have erased : DeepKept s { t with bufs := tabErase t.bufs b } := h.beside rfl rfl
    have kept : DeepKept s left := .bump (.uncharge (.leaveWindows erased))
    have withdrawn : DeepKept s marked := .ite (.flt kept) kept
    split
    · exact .pfcCount withdrawn
    · exact withdrawn

theorem fenceUnit (h : DeepKept s t) {n : Nat} : DeepKept s (t.fenceUnit n) := by
  unfold State.fenceUnit
  have halted : DeepKept s (t.fset F.DMA_CH_STATUS.state (n - 0xB00) 0 6) := .fset h
  exact .ite (.ite (.fset h) h) (.ite (halted.beside rfl rfl) (.flt h))

theorem refuseOp (h : DeepKept s t) {p status : Nat} : DeepKept s (t.refuseOp p status) := by
  unfold State.refuseOp
  split
  · exact .bump h
  · exact h

theorem opEffect (h : DeepKept s t) {unit op n arg : Nat} {b : Buf} : DeepKept s (t.opEffect unit op n arg b) := by
  unfold State.opEffect
  split
  · exact .bump (.setBuf h)
  · exact .bump (.setBuf h)
  · exact .freeBuf h
  · exact .leaveWindows (.setBuf h)
  · exact .emitBoth (.bump (.drop (.freeBuf (.setBuf h))))
  · exact .ite (.bump (.setBuf h)) (.ite h (.freeBuf (.setBuf h)))
  · exact h

theorem bpmOp (h : DeepKept s t) {unit p op n arg : Nat} : DeepKept s (t.bpmOp unit p op n arg).2 := by
  unfold State.bpmOp
  split
  · exact .raise (.fenceUnit (.emitBoth (.wr (.bump h))))
  · split
    · exact refuseOp (p := p) (status := 3) h
    · extract_lets status refused
      have kept : DeepKept s refused := .refuseOp h
      split
      · exact .opEffect h
      · split
        · exact .ite kept (.emitBoth (.bump (.bump (.setBuf kept))))
        · exact kept

theorem leave (h : DeepKept s t) {port b : Nat} : DeepKept s (t.leave port b) := .bpmOp h

/-! ## Bytes of buffers (R76, R265) -/

theorem cput (h : DeepKept s t) {w : Nat} {v : Word} : DeepKept s (t.cput w v) := by
  obtain ⟨⟨_, _, _, put⟩, -⟩ := cput_rereadOnly t w v
  exact h.beside (by rw [put]; rfl) (by rw [put]; rfl)

theorem setBufByte (h : DeepKept s t) {b i : Nat} {v : Byte} : DeepKept s (t.setBufByte b i v) := by
  unfold State.setBufByte
  exact .ite (.cput h) (h.beside rfl rfl)

theorem bufWrite (h : DeepKept s t) {b i : Nat} {bs : List Byte} : DeepKept s (t.bufWrite b i bs) := by
  induction bs generalizing t i with
  | nil => exact h
  | cons x bs ih => exact ih (.setBufByte h)

end DeepKept
end Sys2Proof.Machine
end

section
/-! PROOFS. Egress queues and their deep parts (R295–R298, R301): what each step of writing and of reading back does to a queue. -/

namespace Sys2Proof.Machine

/-! ## Queues and entries of a table -/

@[simp] theorem queue_setQueue_same (s : State) (n : Nat) (q : Queue) : (s.setQueue n q).queue n = q := tabGet_set_same ..

theorem queue_setQueue_ne (s : State) {n k : Nat} (q : Queue) (other : k ≠ n) : (s.setQueue n q).queue k = s.queue k :=
  tabGet_set_ne _ _ _ other

/-- Replacing a queue whose pending part may have a new front copy sets when that came to the front. -/
theorem queue_putQueue_same (s : State) (n : Nat) (q : Queue) : ∃ since, (s.putQueue n q).queue n = { q with frontAt := since } :=
  ⟨_, queue_setQueue_same ..⟩

section
variable {α : Type} {d : α} {t : Tab α} {n : Nat}

theorem le_of_mem_tabSorted {lo : Nat} {e : Nat × α} (sorted : tabSorted lo t = true) (mem : e ∈ t) : lo ≤ e.1 := by
  induction t generalizing lo with
  | nil => cases mem
  | cons x t ih =>
    obtain ⟨le, sorted⟩ : lo ≤ x.1 ∧ tabSorted (x.1 + 1) t = true := by simpa [tabSorted] using sorted
    rcases List.mem_cons.1 mem with rfl | mem
    · exact le
    · exact le.trans ((Nat.le_succ _).trans (ih sorted mem))

/-- What a table gives under a key is listed there, or is what an unlisted key reads as. -/
theorem mem_of_tabGet_ne (listed : tabGet d t n ≠ d) : (n, tabGet d t n) ∈ t := by
  induction t with
  | nil => exact absurd rfl listed
  | cons e t ih =>
    by_cases here : e.1 = n
    · subst here
      simp [tabGet]
    · rw [tabGet, if_neg here] at listed ⊢
      exact List.mem_cons_of_mem _ (ih listed)

theorem tabGet_of_mem {lo : Nat} {e : Nat × α} (sorted : tabSorted lo t = true) (mem : e ∈ t) : tabGet d t e.1 = e.2 := by
  induction t generalizing lo with
  | nil => cases mem
  | cons x t ih =>
    obtain ⟨-, sorted⟩ : lo ≤ x.1 ∧ tabSorted (x.1 + 1) t = true := by simpa [tabSorted] using sorted
    rcases List.mem_cons.1 mem with rfl | mem
    · exact if_pos rfl
    · have above : x.1 < e.1 := le_of_mem_tabSorted sorted mem
      rw [tabGet, if_neg (Nat.ne_of_lt above)]
      exact ih sorted mem

/-- Where one entry of a canonical table alone has an image, the table's images are that one. -/
theorem filterMap_only {β : Type} {lo : Nat} {f : Nat × α → Option β} {y : β} (sorted : tabSorted lo t = true)
    (listed : (n, tabGet d t n) ∈ t) (here : f (n, tabGet d t n) = some y) (other : ∀ e ∈ t, e.1 ≠ n → f e = none) : t.filterMap f = [y] := by
  induction t generalizing lo with
  | nil => cases listed
  | cons e t ih =>
    obtain ⟨-, rest⟩ : lo ≤ e.1 ∧ tabSorted (e.1 + 1) t = true := by simpa [tabSorted] using sorted
    by_cases first : e.1 = n
    · subst first
      have missing : t.filterMap f = [] := List.filterMap_eq_nil_iff.2 fun x mem =>
        other x (List.mem_cons_of_mem _ mem) (Nat.ne_of_gt (le_of_mem_tabSorted rest mem))
      rw [tabGet, if_pos rfl] at here
      rw [List.filterMap_cons_some here, missing]
    · rw [tabGet, if_neg first] at here listed
      rw [List.filterMap_cons_none (other e List.mem_cons_self first)]
      refine ih rest ((List.mem_cons.1 listed).resolve_left ?_) here fun x mem => other x (List.mem_cons_of_mem _ mem)
      exact fun same => first (congrArg Prod.fst same).symm

end

theorem mem_queues {s : State} {n : Nat} (used : s.queue n ≠ {}) : (n, s.queue n) ∈ s.queues := mem_of_tabGet_ne used

theorem tabSorted_of_wf {α : Type} [DecidableEq α] {d : α} {t : Tab α} (wf : tabWf d t = true) : tabSorted 0 t = true :=
  (Bool.and_eq_true _ _ ▸ wf : _ ∧ _).1

/-! ## Requests for lines (R309, R313) -/

/-- From `s` to `t`, the HBM controller's state alone may change. -/
def hbmOnly (s t : State) : Prop := ∃ x, t = { s with hbm := x }

theorem hbmOnly_refl (s : State) : hbmOnly s s := ⟨_, rfl⟩

theorem hbmOnly_trans {s t u : State} (h : hbmOnly s t) (k : hbmOnly t u) : hbmOnly s u := by
  obtain ⟨_, rfl⟩ := h
  obtain ⟨_, rfl⟩ := k
  exact ⟨_, rfl⟩

theorem hbmOnly.queue {s t : State} (h : hbmOnly s t) (n : Nat) : t.queue n = s.queue n := by
  obtain ⟨_, rfl⟩ := h
  rfl

theorem setReqs_hbmOnly (s : State) (write : Bool) (k : Nat) (l : List LineReq) : hbmOnly s (s.setReqs write k l) := by
  cases write <;> exact ⟨_, rfl⟩

theorem enterReq_hbmOnly (s : State) (write : Bool) (r : LineReq) : hbmOnly s (s.enterReq write r) := by
  unfold State.enterReq
  split
  · exact hbmOnly_refl s
  · split
    · exact setReqs_hbmOnly ..
    · exact ⟨_, rfl⟩

theorem lineRequest_hbmOnly (s : State) (write : Bool) (queue : Option Nat) (b j : Nat) : hbmOnly s (s.lineRequest write queue b j) := by
  unfold State.lineRequest
  split
  · exact hbmOnly_refl s
  · extract_lets r _ awake
    have woken : hbmOnly s awake := ⟨_, rfl⟩
    split
    · exact woken
    · exact hbmOnly_trans woken (enterReq_hbmOnly ..)

theorem linesRequest_hbmOnly (s : State) (write : Bool) (queue : Option Nat) (blk a b : Nat) :
    hbmOnly s (s.linesRequest write queue blk a b) :=
  foldl_rel hbmOnly_refl hbmOnly_trans (fun u _ => lineRequest_hbmOnly u ..) _ _

/-- The write of a line that finds a place in its queue enters it. -/
theorem lineRequest_writes {s : State} {queue : Option Nat} {b j k : Nat} (serves : s.blockPc b = some k)
    (room : (s.reqs true k).length < 64) (first : s.late true k = []) :
    ∃ r, (s.lineRequest true queue b j).reqs true k = s.reqs true k ++ [r] ∧ r.line = j ∧ r.queue = queue := by
  unfold State.lineRequest
  rw [serves]
  dsimp -zeta only
  extract_lets r _ awake
  refine ⟨r, ?_, rfl, rfl⟩
  have entered : awake.enterReq true r = awake.setReqs true k (awake.reqs true k ++ [r]) := by
    unfold State.enterReq
    rw [show awake.blockPc r.block = some k from serves]
    exact if_pos ⟨room, first⟩
  rw [Bool.not_true, Bool.false_and, if_neg Bool.false_ne_true, entered]
  exact tabGet_set_same ..

/-! ## Staging lines and write blocks (R296, R301) -/

theorem dropStaging_kept (s : State) (n : Nat) :
    (s.dropStaging n).queue n = { s.queue n with staging := none } ∧ (s.dropStaging n).hbm = s.hbm := by
  unfold State.dropStaging
  extract_lets q
  split
  next h _ => exact ⟨queue_setQueue_same .., (DeepKept.freeBuf (.refl s)).hbm⟩
  next missing => exact ⟨by rw [← missing], rfl⟩

/-- The blocks of a queue that hold a record, and the write block. -/
def Queue.liveBlocks (q : Queue) : List Nat :=
  q.blocks.filter fun b => (q.deep.any fun d => d.block = b) || (q.isDeep && q.blocks.getLast? == some b)

/-- Blocks that no record needs leave the queue (R301). -/
theorem queue_dropBlocks (s : State) (n : Nat) :
    (s.dropBlocks n).queue n =
      { s.queue n with
        blocks := (s.queue n).liveBlocks
        woff := if (s.queue n).liveBlocks.getLast? = (s.queue n).blocks.getLast? ∧ (s.queue n).liveBlocks ≠ [] then (s.queue n).woff else 65536
        asked := (s.queue n).asked.filter fun e => (s.queue n).liveBlocks.contains e.1 } := by
  unfold State.dropBlocks
  extract_lets q last live keep left
  have kept : left.queue n = _ := queue_setQueue_same ..
  split
  · exact kept
  · exact kept

/-- A queue's write offset and staging line after a flush of its partly filled staging line (R296). -/
theorem flushStaging_flushes {s : State} {n : Nat} (partly : (s.queue n).woff % 256 ≠ 0) :
    ((s.flushStaging n).queue n = { s.queue n with woff := ((s.queue n).woff / 256 + 1) * 256, staging := none }) ∧
      (s.flushStaging n).hbm = (s.lineRequest true (some n) ((s.queue n).blocks.getLastD 0) ((s.queue n).woff / 256)).hbm := by
  unfold State.flushStaging
  extract_lets q line asked
  rw [if_neg partly]
  obtain ⟨left, kept⟩ := dropStaging_kept (asked.setQueue n { asked.queue n with woff := (line + 1) * 256 }) n
  rw [left, kept, queue_setQueue_same, (lineRequest_hbmOnly ..).queue]
  exact ⟨rfl, rfl⟩

theorem stagingFlush_flushes {s : State} {n : Nat} (partly : (s.queue n).woff % 256 ≠ 0) :
    goesTo (exec (.stagingFlush n) s) fun t =>
      (t.queue n).woff = ((s.queue n).woff / 256 + 1) * 256 ∧ (t.queue n).staging = none ∧ (t.queue n).deep = (s.queue n).deep ∧
      ∀ k, s.blockPc ((s.queue n).blocks.getLastD 0) = some k → (s.reqs true k).length < 64 → s.late true k = [] →
        ∃ r, t.reqs true k = s.reqs true k ++ [r] ∧ r.line = (s.queue n).woff / 256 ∧ r.queue = some n := by
  show goesTo (execStagingFlush n s) _
  refine goesTo_act ?_
  obtain ⟨flushed, asked⟩ := flushStaging_flushes partly
  have left : ((s.flushStaging n).withQueue s.pending).queue n = _ := flushed
  rw [left]
  refine ⟨rfl, rfl, rfl, fun k serves room first => ?_⟩
  obtain ⟨r, entered, line⟩ := lineRequest_writes (queue := some n) (j := (s.queue n).woff / 256) serves room first
  refine ⟨r, ?_, line⟩
  rw [← entered]
  exact congrArg (fun x : HbmSt => tabGet [] x.writes k) asked

end Sys2Proof.Machine
end

section
/-! PROOFS. Writing the front pending copy of a deep queue (R296, R297, R301, R305, R310). -/

namespace Sys2Proof.Machine

/-! ## Records (R297) -/

/-- The record of a copy with its stored bytes, at an offset of a block. -/
def recordFor (c : Copy) (n blk off : Nat) (bytes : List Byte) : DeepRec :=
  let c := { c with wentDeep := true, len := bytes.length }
  { copy := c, bytes := bytes, block := blk, off := off, staged := true, header := recordHeader c n bytes.length }

/-- The last of a row of words, where it is a function of those before it. -/
theorem getD_append_last (f : List Nat → Nat) {ws : List Nat} {k : Nat} (length : ws.length = k) :
    (ws ++ [f ws]).getD k 0 = f ((ws ++ [f ws]).take k) := by
  simp [← length]

/-- A header's last word is the CRC of the seven before it. -/
theorem recordHeader_crc (c : Copy) (n len : Nat) : (recordHeader c n len).getD 7 0 = headerCrc ((recordHeader c n len).take 7) :=
  getD_append_last headerCrc (ws := headerWords c n len) rfl

theorem headerOk_recordFor (c : Copy) (n blk off : Nat) (bytes : List Byte) : (recordFor c n blk off bytes).headerOk = true :=
  beq_iff_eq.2 (recordHeader_crc ..)

/-- From `s` to `t`, the front pending copy of a queue is appended to its deep part as a record at an offset of a block. -/
def wroteRecord (s : State) (n : Nat) (c : Copy) (l : List Copy) (t : State) (b off : Nat) : Prop :=
  (t.queue n).pend = l ∧ (t.queue n).woff = off + recordSize (s.storedLen c) ∧
    ∃ d, (t.queue n).deep = (s.queue n).deep ++ [d] ∧ d.copy.id = c.id ∧ d.block = b ∧ d.off = off ∧
      d.bytes = s.bufBytes c.handle 0 (s.storedLen c) ∧ d.staged = true ∧ d.headerOk = true

@[simp] theorem length_bufBytes (s : State) (h i n : Nat) : (s.bufBytes h i n).length = n := by
  simp [State.bufBytes]

/-- What appending a record makes of the queue. -/
theorem queue_appendRecord (s : State) (n : Nat) (c : Copy) (bytes : List Byte) :
    let q := s.queue n
    let r := (s.appendRecord n c bytes).queue n
    r.deep = q.deep ++ [recordFor c n (q.blocks.getLastD 0) q.woff bytes] ∧ r.pend = q.pend.drop 1 ∧
      r.woff = q.woff + recordSize bytes.length ∧ r.blocks = q.blocks := by
  unfold State.appendRecord
  extract_lets q blk off upTo asked q' c' d written r
  have same : q' = q := (linesRequest_hbmOnly ..).queue n
  obtain ⟨since, put⟩ : ∃ since, written.queue n = { q' with deep := q'.deep ++ [d], pend := q'.pend.drop 1, woff := upTo, frontAt := since } :=
    queue_putQueue_same ..
  rw [same] at put
  unfold r
  split
  · rw [(dropStaging_kept written n).1, put]
    exact ⟨rfl, rfl, rfl, rfl⟩
  · rw [put]
    exact ⟨rfl, rfl, rfl, rfl⟩

/-! ## A block for the queue (R310) -/

/-- A logical pseudo-channel of a stack has a block to give. -/
def State.channelGives (s : State) (h lp : Nat) : Bool := s.pcOpen h lp && decide (0 < s.pcFree h lp)

/-- A stack has a block to give. -/
def State.stackGives (s : State) (h : Nat) : Bool := s.fget F.HBC_STACK.state h = 1 && (List.range 31).any (s.channelGives h)

/-- The state in which the rotations have come to a stack and its logical pseudo-channel. -/
def State.blockTaken (s : State) (h lp : Nat) : State :=
  ({ s with hbm := { s.hbm with rot := h, pcRot := tabSet 30 s.hbm.pcRot h lp } }).nextFree

/-- A block is taken of the next stack that has one to give, and of its next such pseudo-channel. -/
theorem takeBlock_eq (s : State) : s.takeBlock =
    (nextIn 4 s.hbm.rot s.stackGives).bind fun h => (nextIn 31 (tabGet 30 s.hbm.pcRot h) (s.channelGives h)).bind fun lp =>
      (s.freeBlock h lp 12288 (s.freeNat 14)).map fun b => (b, s.blockTaken h lp) := by
  unfold State.takeBlock
  dsimp only
  split
  next missing => exact (congrArg (Option.bind · _) missing).symm
  next h stack =>
    refine Eq.trans ?_ (congrArg (Option.bind · _) stack).symm
    split
    next missing => exact (congrArg (Option.bind · _) missing).symm
    next lp channel =>
      refine Eq.trans ?_ (congrArg (Option.bind · _) channel).symm
      split
      next missing => exact (congrArg (Option.map _) missing).symm
      next b free => exact (congrArg (Option.map fun b => (b, s.blockTaken h lp)) free).symm

theorem takeBlock_queues {s u : State} {b : Nat} (taken : s.takeBlock = some (b, u)) : u.queues = s.queues := by
  simp only [takeBlock_eq, Option.bind_eq_some_iff, Option.map_eq_some_iff, Prod.mk.injEq] at taken
  obtain ⟨h, -, lp, -, b, -, -, rfl⟩ := taken
  rfl

/-- The state in which the write side of the controller has another turn. -/
def State.withWrTurn (s : State) (turn : Nat × Nat) : State := { s with hbm := { s.hbm with wrTurn := turn } }

/-- The search for a free block reads the queues and the pools. -/
theorem freeBlock_withWrTurn (s : State) (turn : Nat × Nat) (h lp fuel k : Nat) :
    (s.withWrTurn turn).freeBlock h lp fuel k = s.freeBlock h lp fuel k := by
  induction fuel generalizing k with
  | zero => rfl
  | succ fuel ih =>
    rw [State.freeBlock, State.freeBlock, ih]
    rfl

/-- Whether a block is to be had does not depend on whose turn it is to write. -/
theorem takeBlock_withWrTurn (s : State) (turn : Nat × Nat) : (s.withWrTurn turn).takeBlock.isSome = s.takeBlock.isSome := by
  have gives : (s.withWrTurn turn).stackGives = s.stackGives ∧ (s.withWrTurn turn).channelGives = s.channelGives ∧
      (s.withWrTurn turn).hbm.rot = s.hbm.rot ∧ (s.withWrTurn turn).hbm.pcRot = s.hbm.pcRot ∧
      (s.withWrTurn turn).freeNat = s.freeNat := ⟨rfl, rfl, rfl, rfl, rfl⟩
  obtain ⟨stack, channel, rot, pcRot, free⟩ := gives
  simp only [takeBlock_eq, Option.isSome_bind, Option.isSome_map, freeBlock_withWrTurn, stack, channel, rot, pcRot, free]

/-- The state in which a queue has a new block to write to. -/
def State.withBlock (s : State) (n b : Nat) : State := s.setQueue n { s.queue n with blocks := (s.queue n).blocks ++ [b], woff := 0 }

/-- Blocks all of which hold records stay. -/
theorem queue_dropBlocks_live {s : State} {n b : Nat} (one : (s.queue n).blocks = [b]) (live : ∃ d ∈ (s.queue n).deep, d.block = b) :
    let r := (s.dropBlocks n).queue n
    r.deep = (s.queue n).deep ∧ r.pend = (s.queue n).pend ∧ r.woff = (s.queue n).woff ∧ r.blocks = [b] := by
  have kept : (s.queue n).liveBlocks = [b] := by
    obtain ⟨d, listed, here⟩ := live
    have needed : ((s.queue n).deep.any fun d => decide (d.block = b)) = true := List.any_eq_true.2 ⟨d, listed, decide_eq_true here⟩
    rw [Queue.liveBlocks, one, List.filter_cons_of_pos (by rw [needed]; rfl), List.filter_nil]
  rw [queue_dropBlocks, kept, one]
  exact ⟨rfl, rfl, if_pos ⟨rfl, List.cons_ne_nil b []⟩, rfl⟩

/-! ## The front pending copy (R296, R301) -/

section
variable {s : State} {n hb : Nat} {c : Copy} {l : List Copy}

theorem takeStaging_staged (staged : (s.queue n).staging = some hb) (c : Copy) : s.takeStaging n c = some s :=
  if_pos (by rw [staged]; rfl)

/-- A copy that fits the write block is appended to it. -/
theorem deepWrite_fits (front : (s.queue n).pend = c :: l) (staged : (s.queue n).staging = some hb)
    (fits : (s.queue n).woff + recordSize (s.storedLen c) ≤ 65536) :
    s.deepWrite n = s.appendRecord n c (s.bufBytes c.handle 0 (s.storedLen c)) := by
  unfold State.deepWrite
  rw [front]
  dsimp only
  rw [takeStaging_staged staged c]
  dsimp only
  rw [length_bufBytes, if_pos fits]

/-- A copy of a queue whose write block is full opens a block, where its quota admits one and one is to be had. -/
theorem deepWrite_opens {u : State} {b : Nat} (front : (s.queue n).pend = c :: l) (staged : (s.queue n).staging = some hb)
    (full : (s.queue n).woff = 65536) (taken : s.takeBlock = some (b, u))
    (quota : s.deepUse c.tag (s.queuePart n c) < bits (s.partWordT c.tag (s.queuePart n c) 19) 20 0) :
    s.deepWrite n = ((u.withBlock n b).appendRecord n c (s.bufBytes c.handle 0 (s.storedLen c))).dropBlocks n := by
  have flushed : s.flushStaging n = s := if_pos (by rw [full])
  unfold State.deepWrite
  rw [front]
  dsimp only
  rw [takeStaging_staged staged c]
  dsimp only
  rw [if_neg (by rw [full, recordSize]; omega), flushed, takeStaging_staged staged c]
  dsimp only
  rw [if_neg (Nat.not_lt.2 quota), taken]
  rfl

theorem deepWrite_wrote (front : (s.queue n).pend = c :: l) (staged : (s.queue n).staging = some hb)
    (fits : (s.queue n).woff + recordSize (s.storedLen c) ≤ 65536) :
    wroteRecord s n c l (s.deepWrite n) ((s.queue n).blocks.getLastD 0) (s.queue n).woff := by
  obtain ⟨deep, pend, woff, -⟩ := queue_appendRecord s n c (s.bufBytes c.handle 0 (s.storedLen c))
  rw [length_bufBytes] at woff
  rw [deepWrite_fits front staged fits]
  exact ⟨by rw [pend, front]; rfl, woff, _, deep, rfl, rfl, rfl, rfl, rfl, headerOk_recordFor ..⟩

theorem deepWrite_wroteFirst (front : (s.queue n).pend = c :: l) (staged : (s.queue n).staging = some hb) (blocks : (s.queue n).blocks = [])
    (full : (s.queue n).woff = 65536) (had : s.takeBlock.isSome = true)
    (quota : s.deepUse c.tag (s.queuePart n c) < bits (s.partWordT c.tag (s.queuePart n c) 19) 20 0) :
    ∃ b, wroteRecord s n c l (s.deepWrite n) b 0 ∧ ((s.deepWrite n).queue n).blocks = [b] := by
  obtain ⟨⟨b, u⟩, taken⟩ := Option.isSome_iff_exists.1 had
  have opened : (u.withBlock n b).queue n = { s.queue n with blocks := [b], woff := 0 } := by
    have same : u.queue n = s.queue n := by rw [State.queue, takeBlock_queues taken]; rfl
    rw [State.withBlock, queue_setQueue_same, same, blocks, List.nil_append]
  obtain ⟨deep, pend, woff, one⟩ := queue_appendRecord (u.withBlock n b) n c (s.bufBytes c.handle 0 (s.storedLen c))
  rw [opened] at deep pend woff one
  rw [length_bufBytes] at woff
  rw [deepWrite_opens front staged full taken quota]
  generalize (u.withBlock n b).appendRecord n c (s.bufBytes c.handle 0 (s.storedLen c)) = t at deep pend woff one ⊢
  have here : recordFor c n b 0 (s.bufBytes c.handle 0 (s.storedLen c)) ∈ (t.queue n).deep := by
    rw [deep]
    exact List.mem_append_right _ List.mem_cons_self
  obtain ⟨deep', pend', woff', blocks'⟩ := queue_dropBlocks_live one ⟨_, here, rfl⟩
  refine ⟨b, ⟨?_, woff'.trans woff, _, deep'.trans deep, rfl, rfl, rfl, rfl, rfl, headerOk_recordFor ..⟩, blocks'⟩
  rw [pend', pend, front]
  rfl

end

/-! ## Whose turn it is (R305) -/

theorem queuePart_lt (s : State) (n : Nat) (c : Copy) : s.queuePart n c < 17 := by
  unfold State.queuePart State.setPart
  split <;> omega

/-- A round robin over the partitions in which one alone is ready comes to it. -/
theorem pickTurn_only {p : Nat} {ready : Nat → Bool} (part : p < 17) (only : ∀ k, ready k = true ↔ k = p) (turn : Nat × Nat)
    (weight : Nat → Nat) :
    ∃ next, pickTurn turn weight ready = some (p, next) := by
  obtain ⟨last, left⟩ := turn
  unfold pickTurn
  dsimp only
  split
  next here =>
    obtain rfl : last = p := (only last).1 here.2
    exact ⟨_, rfl⟩
  next =>
    have passed : p ∈ (List.range 17).map fun i => (last + 1 + i) % 17 :=
      List.mem_map.2 ⟨(p + 17 - (last + 1) % 17) % 17, List.mem_range.2 (Nat.mod_lt _ (by decide)), by omega⟩
    have met : (nextIn 17 last ready).isSome = true := List.find?_isSome.2 ⟨p, passed, (only p).2 rfl⟩
    obtain ⟨k, found⟩ := Option.isSome_iff_exists.1 met
    obtain rfl : k = p := (only k).1 (List.find?_some found)
    rw [found]
    exact ⟨_, rfl⟩

theorem deepReady_staged {s : State} {n hb : Nat} {c : Copy} {l : List Copy} (deep : (s.queue n).isDeep = true)
    (front : (s.queue n).pend = c :: l) (whole : s.copyWhole c = true) (good : ∀ f, s.frame c.frame = some f → f.failed = false) (staged : (s.queue n).staging = some hb) (room : s.writeRoom n = true) :
    s.deepReady n = true := by
  have sound : ((s.frame c.frame).any fun f => f.failed) = false := by
    cases found : s.frame c.frame with
    | none => rfl
    | some f => exact good f found
  unfold State.deepReady
  dsimp only
  rw [front]
  simp only [deep, room, whole, sound, takeStaging_staged staged c, Option.isSome_some, Bool.not_false, Bool.and_self]

/-- Where one queue alone is ready, DEEP_WRITE writes its front pending copy. -/
theorem goesTo_deepWrite {s : State} {n : Nat} {c : Copy} {l : List Copy} {P : State → Prop} (wf : tabWf {} s.queues = true)
    (alone : ∀ e ∈ s.queues, e.1 ≠ n → s.deepReady e.1 = false) (front : (s.queue n).pend = c :: l) (ready : s.deepReady n = true)
    (holds : ∀ turn, P (((s.withWrTurn turn).deepWrite n).withQueue s.pending)) : goesTo (exec .deepWrite s) P := by
  have used : s.queue n ≠ {} := fun missing => by rw [missing] at front; cases front
  show goesTo (execDeepWrite s) _
  refine goesTo_act ?_
  extract_lets asks
  have only : asks = [(s.queuePart n c, n, s.wrSince n c)] := by
    refine filterMap_only (tabSorted_of_wf wf) (mem_queues used) ?_ fun e mem apart => ?_
    · rw [show (n, tabGet {} s.queues n).2.pend = c :: l from front]
      exact if_pos ready
    · split
      · rw [alone e mem apart]
        rfl
      · rfl
  clear_value asks
  subst only
  obtain ⟨turn, picked⟩ := pickTurn_only (queuePart_lt s n c)
    (ready := fun p => [(s.queuePart n c, n, s.wrSince n c)].any fun e => decide (e.1 = p))
    (by simp [eq_comm]) s.hbm.wrTurn (fun p => max 1 (s.fget F.HBC_TEN.wr_weight p))
  rw [picked]
  dsimp only
  rw [show ([(s.queuePart n c, n, s.wrSince n c)].filter fun e => decide (e.1 = s.queuePart n c)) = [(s.queuePart n c, n, s.wrSince n c)] by simp]
  exact holds turn

/-! ## DEEP_WRITE -/

/-- Whose turn it is to write is no part of what is written. -/
theorem wroteRecord_withWrTurn {s t : State} {turn : Nat × Nat} {n b off : Nat} {c : Copy} {l : List Copy}
    (wrote : wroteRecord (s.withWrTurn turn) n c l t b off) : wroteRecord s n c l t b off := by
  have len : (s.withWrTurn turn).storedLen c = s.storedLen c := rfl
  have bytes : (s.withWrTurn turn).bufBytes = s.bufBytes := rfl
  have deep : ((s.withWrTurn turn).queue n).deep = (s.queue n).deep := rfl
  rwa [wroteRecord, len, bytes, deep] at wrote

section
variable {s : State} {n hb : Nat} {c : Copy} {l : List Copy} (wf : tabWf {} s.queues = true)
  (alone : ∀ e ∈ s.queues, e.1 ≠ n → s.deepReady e.1 = false) (deep : (s.queue n).isDeep = true) (front : (s.queue n).pend = c :: l)
  (whole : s.copyWhole c = true) (good : ∀ f, s.frame c.frame = some f → f.failed = false) (staged : (s.queue n).staging = some hb)
  (room : s.writeRoom n = true)
include wf alone deep front whole good staged room

/-- A record that fits the write block is appended to it. -/
theorem execDeepWrite_fits (fits : (s.queue n).woff + recordSize (s.storedLen c) ≤ 65536) : goesTo (exec .deepWrite s) fun t =>
    wroteRecord s n c l t ((s.queue n).blocks.getLastD 0) (s.queue n).woff :=
  goesTo_deepWrite wf alone front (deepReady_staged deep front whole good staged room) fun turn =>
    wroteRecord_withWrTurn (deepWrite_wrote (s := s.withWrTurn turn) front staged fits)

/-- The first record of a queue opens a block. -/
theorem execDeepWrite_opens (blocks : (s.queue n).blocks = []) (full : (s.queue n).woff = 65536)
    (quota : s.deepUse c.tag (s.queuePart n c) < bits (s.partWordT c.tag (s.queuePart n c) 19) 20 0) (had : s.takeBlock.isSome = true) :
    goesTo (exec .deepWrite s) fun t => ∃ b, wroteRecord s n c l t b 0 ∧ (t.queue n).blocks = [b] := by
  refine goesTo_deepWrite wf alone front (deepReady_staged deep front whole good staged room) fun turn => ?_
  have given : (s.withWrTurn turn).takeBlock.isSome = true := (takeBlock_withWrTurn s turn).trans had
  obtain ⟨b, wrote, one⟩ := deepWrite_wroteFirst (s := s.withWrTurn turn) front staged blocks full given quota
  exact ⟨b, wroteRecord_withWrTurn wrote, one⟩

end

end Sys2Proof.Machine
end

section
/-! PROOFS. Read-back of deep queues (R295, R298, R301): which lines are asked for, and what a returned record makes of its queue. -/

namespace Sys2Proof.Machine

/-! ## Reads that wait (R309) -/

/-- A read waits in the queue of a pseudo-channel, or for a place in one. -/
def State.readWaits (s : State) (r : LineReq) : Prop := (∃ e ∈ s.hbm.reads, r ∈ e.2) ∨ (false, r) ∈ s.hbm.issue

theorem lineWaits_iff (s : State) (n b j : Nat) :
    s.lineWaits false n b j = true ↔ ∃ r, s.readWaits r ∧ r.queue = some n ∧ r.block = b ∧ r.line = j := by
  simp only [State.lineWaits, State.readWaits, Bool.false_eq_true, if_false, Bool.or_eq_true, List.any_eq_true, Bool.and_eq_true, beq_iff_eq]
  constructor
  · rintro (⟨e, listed, r, mem, ⟨queue, block⟩, line⟩ | ⟨⟨_, r⟩, mem, rfl, ⟨queue, block⟩, line⟩)
    · exact ⟨r, .inl ⟨e, listed, mem⟩, queue, block, line⟩
    · exact ⟨r, .inr mem, queue, block, line⟩
  · rintro ⟨r, ⟨e, listed, mem⟩ | mem, queue, block, line⟩
    · exact .inl ⟨e, listed, r, mem, ⟨queue, block⟩, line⟩
    · exact .inr ⟨_, mem, rfl, ⟨queue, block⟩, line⟩

theorem mem_tabSet {α : Type} [DecidableEq α] {d : α} {t : Tab α} {k : Nat} {v : α} {e : Nat × α} (mem : e ∈ tabSet d t k v) :
    e = (k, v) ∨ e ∈ t := by
  unfold tabSet at mem
  split at mem
  · exact .inr (mem_erase mem)
  · exact mem_insert mem

theorem readWaits_of_mem_reqs {s : State} {k : Nat} {r : LineReq} (mem : r ∈ s.reqs false k) : s.readWaits r := by
  have listed : tabGet [] s.hbm.reads k ≠ [] := List.ne_nil_of_mem mem
  exact .inl ⟨_, mem_of_tabGet_ne listed, mem⟩

/-- A read that waits once a request has been entered is that request, or waited before. -/
theorem readWaits_enterReq {s : State} {r x : LineReq} (waits : (s.enterReq false r).readWaits x) : s.readWaits x ∨ x = r := by
  unfold State.enterReq at waits
  split at waits
  · exact .inl waits
  next k _ =>
    split at waits
    · rcases waits with ⟨e, listed, mem⟩ | late
      · rcases mem_tabSet listed with rfl | before
        · rcases List.mem_append.1 mem with before | new
          · exact .inl (readWaits_of_mem_reqs before)
          · exact .inr (List.mem_singleton.1 new)
        · exact .inl (.inl ⟨e, before, mem⟩)
      · exact .inl (.inr late)
    · rcases waits with before | late
      · exact .inl (.inl before)
      · rcases List.mem_append.1 late with before | new
        · exact .inl (.inr before)
        · exact .inr (congrArg Prod.snd (List.mem_singleton.1 new))

theorem readWaits_lineRequest {s : State} {queue : Option Nat} {b j : Nat} {x : LineReq}
    (waits : (s.lineRequest false queue b j).readWaits x) : s.readWaits x ∨ (x.block, x.line) = (b, j) := by
  unfold State.lineRequest at waits
  split at waits
  · exact .inl waits
  · extract_lets r _ awake at waits
    split at waits
    · exact .inl waits
    · rcases readWaits_enterReq waits with before | rfl
      · exact .inl before
      · exact .inr rfl

/-- Reads of lines change the controller alone, and only reads of those lines are new. -/
theorem readLines (s : State) (queue : Option Nat) (l : List (Nat × Nat)) :
    hbmOnly s (l.foldl (fun s e => s.lineRequest false queue e.1 e.2) s) ∧
      ∀ x, (l.foldl (fun s e => s.lineRequest false queue e.1 e.2) s).readWaits x → s.readWaits x ∨ (x.block, x.line) ∈ l := by
  induction l generalizing s with
  | nil => exact ⟨hbmOnly_refl s, fun _ => .inl⟩
  | cons e l ih =>
    obtain ⟨only, new⟩ := ih (s.lineRequest false queue e.1 e.2)
    refine ⟨hbmOnly_trans (lineRequest_hbmOnly ..) only, fun x waits => ?_⟩
    rcases new x waits with before | listed
    · rcases readWaits_lineRequest before with before | here
      · exact .inl before
      · exact .inr (List.mem_cons.2 (.inl here))
    · exact .inr (List.mem_cons_of_mem e listed)

/-! ## Lines asked for ahead (R298) -/

/-- From `s` to `t`, a queue may have asked for more lines: the controller and what that queue has asked for change only, and no line that it had
asked for waits that did not. -/
structure AskedMore (n : Nat) (s t : State) : Prop where
  only : ∃ x q, t = { s with hbm := x, queues := q }
  wf : tabWf {} s.queues = true → tabWf {} t.queues = true
  other : ∀ k, k ≠ n → t.queue k = s.queue k
  here : ∃ more, t.queue n = { s.queue n with asked := (s.queue n).asked ++ more }
  waits : ∀ e ∈ (s.queue n).asked, t.lineWaits false n e.1 e.2 = true → s.lineWaits false n e.1 e.2 = true

theorem AskedMore.refl (n : Nat) (s : State) : AskedMore n s s :=
  ⟨⟨_, _, rfl⟩, id, fun _ _ => rfl, ⟨[], by rw [List.append_nil]⟩, fun _ _ => id⟩

theorem AskedMore.trans {n : Nat} {s t u : State} (h : AskedMore n s t) (k : AskedMore n t u) : AskedMore n s u := by
  obtain ⟨more, asked⟩ := h.here
  obtain ⟨further, asked'⟩ := k.here
  obtain ⟨_, _, same⟩ := h.only
  obtain ⟨_, _, same'⟩ := k.only
  refine ⟨⟨_, _, by rw [same', same]⟩, fun wf => k.wf (h.wf wf), fun m apart => (k.other m apart).trans (h.other m apart),
    ⟨more ++ further, ?_⟩, fun e mem waits => h.waits e mem (k.waits e ?_ waits)⟩
  · rw [asked', asked, List.append_assoc]
  · rw [asked]
    exact List.mem_append_left _ mem

theorem readAhead_asks (s : State) (n : Nat) : AskedMore n s (s.readAhead n) := by
  unfold State.readAhead
  split
  · exact .refl n s
  · extract_lets new asked q
    obtain ⟨only, waits⟩ : hbmOnly s asked ∧ ∀ x, asked.readWaits x → s.readWaits x ∨ (x.block, x.line) ∈ new :=
      readLines s (some n) new
    have queue (k : Nat) : asked.queue k = s.queue k := only.queue k
    obtain ⟨x, same⟩ := only
    refine ⟨?_, fun wf => ?_, fun k apart => ?_, ⟨new, ?_⟩, fun e mem waiting => ?_⟩
    · rw [State.setQueue, same]
      exact ⟨x, _, rfl⟩
    · have before : tabWf {} asked.queues = true := by rw [same]; exact wf
      exact tabWf_set _ _ _ before
    · rw [queue_setQueue_ne _ _ apart, queue]
    · rw [queue_setQueue_same, queue, show q = s.queue n from queue n]
    · obtain ⟨r, now, own, block, line⟩ := (lineWaits_iff ..).1 waiting
      have before : s.readWaits r := (waits r now).resolve_right fun fresh => by
        rw [block, line] at fresh
        have unasked := (List.mem_filter.1 fresh).2
        rw [List.contains_iff_mem.2 mem] at unasked
        cases unasked
      exact (lineWaits_iff ..).2 ⟨r, before, own, block, line⟩

theorem readAhead_idle {s : State} {n : Nat} (idle : (s.queue n).reading = false) : s.readAhead n = s :=
  if_pos (by rw [idle]; rfl)

/-- Where one queue alone reads back, it alone asks for lines. -/
theorem readAheads_ask {s : State} {n : Nat} (alone : ∀ k, k ≠ n → (s.queue k).reading = false) (l : List (Nat × Queue)) :
    AskedMore n s (l.foldl (fun s e => s.readAhead e.1) s) := by
  suffices ask : ∀ t, AskedMore n s t → AskedMore n s (l.foldl (fun s e => s.readAhead e.1) t) from ask s (.refl n s)
  induction l with
  | nil => exact fun _ => id
  | cons e l ih =>
    refine fun t before => ih _ ?_
    show AskedMore n s (t.readAhead e.1)
    by_cases own : e.1 = n
    · rw [own]
      exact before.trans (readAhead_asks t n)
    · rw [readAhead_idle (by rw [before.other _ own]; exact alone _ own)]
      exact before

/-! ## The head of a queue grows (R295, R298) -/

/-- From `s` to `t`, a queue's deep part is as it was and its head may have grown at its end. -/
def headGrows (n : Nat) (s t : State) : Prop :=
  (t.queue n).deep = (s.queue n).deep ∧ ∃ later, (t.queue n).head = (s.queue n).head ++ later

theorem headGrows_of_eq {n : Nat} {s t : State} (deep : (t.queue n).deep = (s.queue n).deep) (head : (t.queue n).head = (s.queue n).head) :
    headGrows n s t := ⟨deep, [], by rw [head, List.append_nil]⟩

theorem headGrows.trans {n : Nat} {s t u : State} (h : headGrows n s t) (k : headGrows n t u) : headGrows n s u := by
  obtain ⟨deep, more, head⟩ := h
  obtain ⟨deep', more', head'⟩ := k
  exact ⟨deep'.trans deep, more ++ more', by rw [head', head, List.append_assoc]⟩

theorem queueNo_parts (n : Nat) : queueNo (n / 128) (n / 8 % 16) (n % 8) = n := by
  unfold queueNo
  omega

theorem refreshTag_headGrows (s : State) (n : Nat) : headGrows n s (s.refreshTag (n / 128) (n / 8 % 16) (n % 8)) := by
  unfold State.refreshTag
  rw [queueNo_parts]
  split
  · exact headGrows_of_eq rfl rfl
  · extract_lets _ q st tagged any node
    have kept : (tagged.queue n).deep = (s.queue n).deep ∧ (tagged.queue n).head = (s.queue n).head := by
      unfold tagged
      split
      · rw [queue_setQueue_same]; exact ⟨rfl, rfl⟩
      · rw [queue_setQueue_same]; exact ⟨rfl, rfl⟩
      · exact ⟨rfl, rfl⟩
    obtain ⟨deep, head⟩ := kept
    split
    · exact headGrows_of_eq deep head
    · split
      · exact headGrows_of_eq deep head
      · exact headGrows_of_eq deep head

theorem dropBlocks_headGrows (s : State) (n : Nat) : headGrows n s (s.dropBlocks n) := by
  apply headGrows_of_eq <;> rw [queue_dropBlocks]

/-- Copies that move to the head go to its end. -/
theorem bypass_head (s : State) (refill : Nat) (head pend : List Copy) (k : Nat) : ∃ later, (s.bypass refill head pend k).1 = head ++ later := by
  induction pend generalizing head k with
  | nil => exact ⟨[], (List.append_nil head).symm⟩
  | cons c pend ih =>
    unfold State.bypass
    split
    · obtain ⟨later, eq⟩ := ih (head ++ [c]) (k + 1)
      exact ⟨c :: later, by rw [eq, List.append_assoc]; rfl⟩
    · exact ⟨[], (List.append_nil head).symm⟩

theorem deepSettle_headGrows (s : State) (n : Nat) : headGrows n s (s.deepSettle n) := by
  unfold State.deepSettle
  extract_lets q
  split
  · exact headGrows_of_eq rfl rfl
  · split
    · apply headGrows_of_eq <;> rw [queue_setQueue_same]
    next c rest _ =>
      have grown := bypass_head s (s.queueRefill c.tag (n / 128) (n / 8 % 16) (n % 8)) q.head q.pend 0
      generalize s.bypass (s.queueRefill c.tag (n / 128) (n / 8 % 16) (n % 8)) q.head q.pend 0 = moved at grown ⊢
      obtain ⟨head, pend, k⟩ := moved
      obtain ⟨later, rfl⟩ := grown
      dsimp -zeta only
      extract_lets put counted
      have kept : DeepKept put counted := .foldl (.refl put) (fun u _ => .bump (.refl u)) _
      have settled : headGrows n s counted := by
        obtain ⟨since, same⟩ : ∃ since, put.queue n =
            { q with head := q.head ++ later, pend := pend, isDeep := pend ≠ [], reading := q.reading && pend ≠ [], frontAt := since } :=
          queue_putQueue_same ..
        rw [headGrows, kept.queue, same]
        exact ⟨rfl, later, rfl⟩
      exact settled.trans (refreshTag_headGrows counted n)

theorem readAhead_headGrows (s : State) (n : Nat) : headGrows n s (s.readAhead n) := by
  obtain ⟨more, asked⟩ := (readAhead_asks s n).here
  apply headGrows_of_eq <;> rw [asked]

/-- A record that is returned leaves the deep part and joins the head. -/
theorem returnRecord_joins {s : State} {n : Nat} {d : DeepRec} {l : List DeepRec} (first : (s.queue n).deep = d :: l) (h : Nat) (a : Acct) :
    ((s.returnRecord n d h a).queue n).deep = l ∧
      ∃ c later, ((s.returnRecord n d h a).queue n).head = (s.queue n).head ++ c :: later ∧ c.handle = h ∧ c.id = d.copy.id := by
  unfold State.returnRecord
  extract_lets p filled counted left q _ c head rest mark joined
  have advanced : DeepKept s s.nextFree := ⟨rfl, rfl⟩
  have held : DeepKept s counted := .bump (.bufWrite (.hold advanced))
  have kept : DeepKept s left := .ite (.leave held) (.bump held)
  have same : q = s.queue n := kept.queue n
  have queue : (joined.queue n).deep = rest ∧ (joined.queue n).head = head := by
    rw [queue_setQueue_same]
    exact ⟨rfl, rfl⟩
  obtain ⟨deep, later, grown⟩ := (((refreshTag_headGrows joined n).trans (dropBlocks_headGrows _ n)).trans (deepSettle_headGrows _ n)).trans
    (readAhead_headGrows _ n)
  refine ⟨?_, c, later, ?_, rfl, rfl⟩
  · rw [deep, queue.1]
    unfold rest
    rw [same, first]
    rfl
  · rw [grown, queue.2]
    unfold head
    rw [same, List.append_assoc]
    rfl

end Sys2Proof.Machine
end

section
/-! PROOFS. HEAD_REFILL and DEEP_RECORD_RETURN (R295, R298), and what they settle with the writes of deep queues. -/

namespace Sys2Proof.Machine

/-! ## HEAD_REFILL -/

theorem execHeadRefill_reads {s : State} {n : Nat} {d : DeepRec} {l : List DeepRec} (first : (s.queue n).deep = d :: l)
    (deep : (s.queue n).isDeep = true)
    (low : s.copiesBytes (s.queue n).head < s.queueRefill d.copy.tag (n / 128) (n / 8 % 16) (n % 8)) :
    goesTo (exec (.headRefill n) s) fun t => (t.queue n).reading = true ∧ (t.queue n).deep = d :: l ∧ (t.queue n).head = (s.queue n).head := by
  show goesTo (execHeadRefill n s) _
  refine goesTo_act ?_
  dsimp only
  rw [first]
  dsimp only
  rw [if_pos ⟨deep, low⟩]
  generalize started : s.setQueue n _ = u
  obtain ⟨more, asked⟩ := (readAhead_asks u n).here
  show ((u.readAhead n).queue n).reading = true ∧ ((u.readAhead n).queue n).deep = d :: l ∧ ((u.readAhead n).queue n).head = _
  rw [asked, ← started, queue_setQueue_same]
  exact ⟨rfl, rfl, rfl⟩

/-! ## DEEP_RECORD_RETURN -/

/-- The turn of read-back. -/
def State.withRdTurn (s : State) (turn : Nat × Nat) : State := { s with hbm := { s.hbm with rdTurn := turn } }

section
variable {s t : State} {n : Nat}

/-- Whose turn it is to read back is no part of what has been asked for. -/
theorem AskedMore.withRdTurn (more : AskedMore n s t) (turn : Nat × Nat) : AskedMore n s (t.withRdTurn turn) where
  only := by
    obtain ⟨_, _, rfl⟩ := more.only
    exact ⟨_, _, rfl⟩
  wf := more.wf
  other := more.other
  here := more.here
  waits := more.waits

theorem AskedMore.deep (more : AskedMore n s t) : (t.queue n).deep = (s.queue n).deep := by
  obtain ⟨_, asked⟩ := more.here
  rw [asked]

theorem AskedMore.head (more : AskedMore n s t) : (t.queue n).head = (s.queue n).head := by
  obtain ⟨_, asked⟩ := more.here
  rw [asked]

theorem AskedMore.reading (more : AskedMore n s t) : (t.queue n).reading = (s.queue n).reading := by
  obtain ⟨_, asked⟩ := more.here
  rw [asked]

theorem AskedMore.inStaging (more : AskedMore n s t) (d : DeepRec) : inStaging (t.queue n) d = inStaging (s.queue n) d := by
  obtain ⟨_, asked⟩ := more.here
  rw [asked]
  rfl

/-- The buffer for a record is no matter of lines asked for. -/
theorem AskedMore.returnBuf (more : AskedMore n s t) (d : DeepRec) : t.returnBuf n d = s.returnBuf n d := by
  obtain ⟨x, queues, same⟩ := more.only
  have pick (p : Nat) : t.pickBuf p = s.pickBuf p := by rw [same]; exact pickBuf_congr rfl rfl rfl rfl rfl
  have allow (tag p u : Nat) : t.admitPart tag p u = s.admitPart tag p u := by rw [same]; rfl
  have part : t.queuePart n d.copy = s.queuePart n d.copy := by rw [same]; rfl
  simp only [State.returnBuf, pick, allow, part]

/-- A record whose lines have all been asked for, and do not wait, is on the chip. -/
theorem recordHere_iff (s : State) (n : Nat) (d : DeepRec) : s.recordHere n d = true ↔ inStaging (s.queue n) d = true ∨
    ∀ i, i < d.lines.2 - d.lines.1 → (d.block, d.lines.1 + i) ∈ (s.queue n).asked ∧ s.lineWaits false n d.block (d.lines.1 + i) = false := by
  simp [State.recordHere]

/-- A record on the chip stays there when more lines are asked for. -/
theorem AskedMore.recordHere (more : AskedMore n s t) {d : DeepRec} (here : s.recordHere n d = true) : t.recordHere n d = true := by
  rw [recordHere_iff, more.inStaging]
  refine ((recordHere_iff ..).1 here).imp_right fun came i line => ?_
  obtain ⟨listed, came⟩ := came i line
  obtain ⟨_, asked⟩ := more.here
  refine ⟨?_, Bool.eq_false_iff.2 fun waits => ?_⟩
  · rw [asked]
    exact List.mem_append_left _ listed
  · rw [more.waits _ listed waits] at came
    cases came

end

/-- Where one queue alone reads back, its record is the one that is returned. -/
theorem goesTo_deepRecordReturn {s : State} {n : Nat} {d : DeepRec} {l : List DeepRec} {P : State → Prop} (wf : tabWf {} s.queues = true)
    (alone : ∀ e ∈ s.queues, e.1 ≠ n → e.2.reading = false) (reading : (s.queue n).reading = true) (first : (s.queue n).deep = d :: l)
    (here : s.recordHere n d = true) (sound : d.staged = true ∨ d.headerOk = true) {h : Nat} {a : Acct} (had : s.returnBuf n d = some (h, a))
    (holds : ∀ t, AskedMore n s t → P ((t.returnRecord n d h a).withQueue s.pending)) : goesTo (exec .deepRecordReturn s) P := by
  have apart (k : Nat) (other : k ≠ n) : (s.queue k).reading = false := by
    by_cases used : s.queue k = {}
    · rw [used]
    · exact alone _ (mem_queues used) other
  show goesTo (execDeepRecordReturn s) _
  refine goesTo_act ?_
  extract_lets asked want marked ready
  have more : AskedMore n s asked := readAheads_ask apart s.queues
  have used : asked.queue n ≠ {} := fun missing => by
    have now := more.reading
    rw [missing, reading] at now
    cases now
  have only : want = [(asked.queuePart n d.copy, n, (asked.queue n).rdSince.getD 0, true)] := by
    have sorted := tabSorted_of_wf (more.wf wf)
    refine filterMap_only sorted (mem_queues used) ?_ fun e mem other => ?_
    · rw [show (n, tabGet {} asked.queues n).2.deep = d :: l from more.deep.trans first]
      refine Eq.trans (if_pos ?_) ?_
      · rw [more.recordHere here, Bool.and_true]
        exact more.reading.trans reading
      · rw [more.returnBuf, had]
        rfl
    · have idle : e.2.reading = false := by
        rw [← tabGet_of_mem (d := {}) sorted mem]
        exact (congrArg Queue.reading (more.other _ other)).trans (apart _ other)
      split
      · rw [idle]
        rfl
      · rfl
  clear_value want
  subst only
  obtain ⟨turn, picked⟩ := pickTurn_only (queuePart_lt asked n d.copy)
    (ready := fun p => ready.any fun e => decide (e.1 = p)) (by simp [ready, eq_comm]) marked.hbm.rdTurn
    (fun p => max 1 (marked.fget F.HBC_TEN.rd_weight p))
  rw [picked]
  dsimp only
  rw [show ((ready.filter fun e => decide (e.1 = asked.queuePart n d.copy)).map fun e => (e.2.1, e.2.2.1)) = [(n, (asked.queue n).rdSince.getD 0)] by
    simp [ready]]
  have turned : AskedMore n s (asked.withRdTurn turn) := more.withRdTurn turn
  have checked : (!d.staged && !d.headerOk) = false := by rcases sound with ok | ok <;> simp [ok]
  show P (State.withQueue (match ((asked.withRdTurn turn).queue n).deep with
    | d :: _ => if !d.staged && !d.headerOk then _ else match (asked.withRdTurn turn).returnBuf n d with
      | some (h, a) => (asked.withRdTurn turn).returnRecord n d h a
      | none => _
    | [] => _) _)
  rw [turned.deep, first]
  dsimp only
  rw [checked, turned.returnBuf, had]
  exact holds _ turned

theorem execDeepRecordReturn_joins {s : State} {n : Nat} {d : DeepRec} {l : List DeepRec} (wf : tabWf {} s.queues = true)
    (alone : ∀ e ∈ s.queues, e.1 ≠ n → e.2.reading = false) (reading : (s.queue n).reading = true) (first : (s.queue n).deep = d :: l)
    (here : s.recordHere n d = true) (sound : d.staged = true ∨ d.headerOk = true) {h : Nat} {a : Acct} (had : s.returnBuf n d = some (h, a)) :
    goesTo (exec .deepRecordReturn s) fun t =>
      (t.queue n).deep = l ∧ ∃ c later, (t.queue n).head = (s.queue n).head ++ c :: later ∧ c.handle = h ∧ c.id = d.copy.id := by
  refine goesTo_deepRecordReturn wf alone reading first here sound had fun t more => ?_
  show ((t.returnRecord n d h a).queue n).deep = l ∧ ∃ c later, ((t.returnRecord n d h a).queue n).head = _ ∧ _
  rw [← more.head]
  exact returnRecord_joins (more.deep.trans first) h a

theorem staged_of_inStaging {q : Queue} {d : DeepRec} (staged : inStaging q d = true) : d.staged = true :=
  ((Bool.and_eq_true _ _).mp staged).1

/-- Settles O25: the rounds of the arbiter come to the one queue that is ready; its records are followed from the pending part to the deep part
and from there to the end of the head. -/
theorem deepQueuesWriteAndReadBack : Obligations.DeepQueuesWriteAndReadBack := by
  unfold Obligations.DeepQueuesWriteAndReadBack
  refine ⟨?written, ?flushed, ?refilled, ?returned⟩
  case written =>
    intro s n hb c l wf alone q size deep front whole good staged room wrote
    exact ⟨execDeepWrite_fits wf alone deep front whole good staged room, execDeepWrite_opens wf alone deep front whole good staged room⟩
  case flushed => exact fun s n => stagingFlush_flushes
  case refilled => exact fun s n d l => execHeadRefill_reads
  case returned =>
    intro s n d l wf alone reading first onChip h a had
    have sound : d.staged = true ∨ d.headerOk = true := onChip.elim (fun staged => .inl (staged_of_inStaging staged)) And.left
    have here : s.recordHere n d = true := (recordHere_iff ..).2 (onChip.imp_right And.right)
    exact execDeepRecordReturn_joins wf alone reading first here sound had

end Sys2Proof.Machine
end

section
/-! PROOFS. The refill of shapers (R335, R338), and frames that a gate list cuts or lets go on (R339, R342, R344). -/

namespace Sys2Proof.Machine

/-! ## The refill of shapers -/

/-- A shaper: the rate and burst that the ACTIVE bank gives it, the rate that it has taken, and its credit. -/
structure ShaperView where
  rate : Nat
  burst : Nat
  taken : Nat
  credit : Int

/-- The shaper after a refill tick (R335, R338). -/
def ShaperView.refilled (x : ShaperView) : ShaperView :=
  if x.rate = 0 then { x with taken := 0, credit := 0 }
  else { x with taken := x.rate, credit := min ((x.burst : Int) * 64 * 400) (x.credit + x.rate) }

/-- A shaper of a state. -/
def State.shaperView (s : State) (n : Nat) : ShaperView := ⟨s.shRate n, s.shBurst n, tabGet 0 s.rates n, s.credit n⟩

theorem shaperView_refillShaper_same (s : State) (n : Nat) : (s.refillShaper n).shaperView n = (s.shaperView n).refilled := by
  unfold State.refillShaper
  extract_lets r cap
  by_cases unlimited : s.shRate n = 0
  · rw [if_pos unlimited, ShaperView.refilled, if_pos (show (s.shaperView n).rate = 0 from unlimited)]
    exact congrArg₂ (ShaperView.mk _ _) (tabGet_erase_same ..) (tabGet_erase_same ..)
  · rw [if_neg unlimited, ShaperView.refilled, if_neg (show ¬ (s.shaperView n).rate = 0 from unlimited)]
    exact congrArg₂ (ShaperView.mk _ _) (tabGet_set_same ..) (tabGet_set_same ..)

theorem shaperView_refillShaper_ne (s : State) {n m : Nat} (other : m ≠ n) : (s.refillShaper n).shaperView m = s.shaperView m := by
  unfold State.refillShaper
  extract_lets r cap
  split
  · exact congrArg₂ (ShaperView.mk _ _) (tabGet_erase_ne _ _ other) (tabGet_erase_ne _ _ other)
  · exact congrArg₂ (ShaperView.mk _ _) (tabGet_set_ne _ _ _ other) (tabGet_set_ne _ _ _ other)

/-- A refill tick refills every shaper listed once. -/
theorem shaperView_refill (s : State) {n : Nat} (listed : n ∈ s.shapers) :
    (s.shapers.foldl (fun s n => s.refillShaper n) s).shaperView n = (s.shaperView n).refilled := by
  have run := foldl_read (read := State.shaperView) (g := ShaperView.refilled) (l := s.shapers) (j := n) (List.nodup_dedup _)
    (fun u _ => shaperView_refillShaper_same u n) (fun u k _ other => shaperView_refillShaper_ne u other) s
  rw [run, if_pos listed]

theorem shaperRefillTick_refills (s : State) : goesTo (exec .shaperRefillTick s) fun t => ∀ n, n ∈ s.shapers → s.shRate n ≠ 0 →
    tabGet 0 t.rates n = s.shRate n ∧ t.credit n = min ((s.shBurst n : Int) * 64 * 400) (s.credit n + s.shRate n) := by
  show goesTo (execShaperRefillTick s) _
  refine goesTo_act fun n listed rated => ?_
  have view := shaperView_refill s listed
  rw [ShaperView.refilled, if_neg (show ¬ (s.shaperView n).rate = 0 from rated)] at view
  exact ⟨congrArg ShaperView.taken view, congrArg ShaperView.credit view⟩

/-! ## Cuts by a gate list (R339, R342) -/

/-- A cut of the frame on the wire counts one cut at the port. -/
theorem cutWire_counts (s : State) (p : Nat) (x : TxCopy) (d : Nat) : countedUp s (s.cutWire p x d) F.MAC_CNT.count p 18 1 :=
  (State.fget_fset_copy _ _ (.inr (by decide))).trans (State.fget_bump_same _ p 18 1 (by decide))

/-- The gate list of a port asks for a cut of a frame, and the cut point for it is there: the next one for the hold, the last one for a gate that
has closed. -/
def State.asksCut (s : State) (p : Nat) (x : TxCopy) (d : Nat) : Prop :=
  (s.portHold p s.time.now = true ∧ s.cutPoint p x s.time.now true = some d) ∨
    (s.holdRule x.copy = true ∧ s.gateOpen p x.copy.tag x.copy.qclass s.time.now = false ∧ s.cutPoint p x s.time.now false = some d)

/-- A frame is cut when the hold is in force or its gate has closed, and the cut point that this asks for is there. -/
theorem gateCutAt_some {s : State} {p d : Nat} {x : TxCopy}
    (cuts : s.asksCut p x d) :
    ∃ e, s.gateCutAt p x = some e := by
  unfold State.gateCutAt
  extract_lets closed
  rcases cuts with ⟨hold, point⟩ | ⟨governed, shut, point⟩
  · rw [if_pos hold, point]
    cases closed with
    | none => exact ⟨d, rfl⟩
    | some e => exact ⟨e, rfl⟩
  · have cut : closed = some d := (if_pos ⟨governed, by rw [shut]; rfl⟩).trans point
    rw [cut]
    exact ⟨d, rfl⟩

/-- A frame that a gate list cuts counts at its port and as a preemption of its queue set. -/
theorem gateCut_counts {s : State} {p e : Nat} {x : TxCopy} (onWire : s.wireCuttable p = some x) (point : s.gateCutAt p x = some e) :
    countedUp s (s.gateCut p) F.MAC_CNT.count p 18 1 ∧ countedUp s (s.gateCut p) F.SCH_CNT.count (x.copy.port * 16 + x.copy.set) 5 1 := by
  have cut : s.gateCut p = (s.cutWire p x e).bump F.SCH_CNT.count (x.copy.port * 16 + x.copy.set) 5 := by
    unfold State.gateCut
    rw [onWire]
    dsimp only
    rw [point]
  have sends : SendsOnly p s (s.cutWire p x e) := .cutWire (.refl p s)
  rw [cut]
  exact ⟨countedUp_congr (cutWire_counts s p x e) rfl (State.fget_fset_reg _ _ _ _ _ _ (by decide)),
    countedUp_congr (State.countedUp_bump _ _ 5 1 (by decide)) (sends.fget F.SCH_CNT.count _ 5 (by decide)) rfl⟩

theorem gateEntryChange_cuts {s : State} {p d : Nat} {x : TxCopy} (onWire : s.wireCuttable p = some x)
    (cuts : s.asksCut p x d) :
    goesTo (exec (.gateEntryChange p) s) fun t =>
      countedUp s t F.MAC_CNT.count p 18 1 ∧ countedUp s t F.SCH_CNT.count (x.copy.port * 16 + x.copy.set) 5 1 := by
  obtain ⟨e, point⟩ := gateCutAt_some cuts
  obtain ⟨cut, preempted⟩ := gateCut_counts onWire point
  show goesTo (execGateEntryChange p s) _
  exact goesTo_act ⟨countedUp_congr cut rfl (fget_resume (s.gateCut p) p _ _ _ (by decide)),
    countedUp_congr preempted rfl (fget_resume (s.gateCut p) p _ _ _ (by decide))⟩

/-! ## A held remainder goes on (R342) -/

/-- The time at which the wire of a port is free, with the gap after the last frame. -/
def State.freeAt (s : State) (p : Nat) : Nat := max s.time.now ((s.port p).lastEnd + s.wireTime p 12)

theorem resume_none {s : State} {p : Nat} (unheld : (s.port p).remainder = none) : s.resume p = s := by
  unfold State.resume
  extract_lets q
  rw [show q.remainder = none from unheld]

/-- A held remainder goes on when it may, on a free wire, with nothing ready before it. -/
theorem resume_goesOn {s : State} {p : Nat} {x : TxCopy} (free : (s.port p).wire = none) (held : (s.port p).remainder = some x)
    (noExpress : (s.port p).fifo7 = []) (noCtl : (s.port p).ctlWait = []) (on : s.txOn p = true)
    (may : s.mayResume p x (s.freeAt p) = true) :
    ((s.resume p).port p).wire = some { x with start := s.freeAt p } ∧
      ((s.resume p).port p).remainder = none := by
  unfold State.freeAt at may
  unfold State.resume State.freeAt
  simp only [held, free, noExpress, noCtl, on, may]
  simp

/-- A list cuts nothing where nothing is on the wire. -/
theorem gateCut_free {s : State} {p : Nat} (free : (s.port p).wire = none) : s.gateCut p = s := by
  have none_ : s.wireCuttable p = none := by
    unfold State.wireCuttable
    rw [free]
  unfold State.gateCut
  rw [none_]

theorem gateEntryChange_resumes {s : State} {p : Nat} {x : TxCopy} (free : (s.port p).wire = none) (held : (s.port p).remainder = some x)
    (noExpress : (s.port p).fifo7 = []) (noCtl : (s.port p).ctlWait = []) (up : s.portState p = pUp)
    (near : s.flag F.MAC_STATUS.rem_fault p = false)
    (may : s.mayResume p x (s.freeAt p) = true) :
    goesTo (exec (.gateEntryChange p) s) fun t =>
      (t.port p).wire = some { x with start := s.freeAt p } ∧ (t.port p).remainder = none := by
  show goesTo (execGateEntryChange p s) _
  refine goesTo_act ?_
  rw [port_withQueue, gateCut_free free]
  have on : s.txOn p = true := by
    unfold State.txOn
    rw [up, near]
    rfl
  exact resume_goesOn free held noExpress noCtl on may

end Sys2Proof.Machine
end

section
/-! PROOFS. What the selection of a copy changes and what it leaves (R329–R337, R356): the head leaves its queue, the virtual times and shapers
move on, and the copy enters its rewrite cluster and its port's order. -/

namespace Sys2Proof.Machine

/-! ## What it leaves -/

/-- The registers that the selection of a copy of a whole frame changes: the virtual times, and the counters of the deep buffer. -/
def schedRegs : List Reg := [.SCH_SET_VT, .SCH_VT_NOW, .HBC_CNT]

/-- From `s` to `t`, the frames, the ports beside their registers, and every register beside those of a selection are as they were. -/
structure SchedOnly (s t : State) : Prop where
  frames : t.frames = s.frames
  ports : t.ports = s.ports
  read : ∀ r c i, r ∉ schedRegs → t.rd r c i = s.rd r c i

namespace SchedOnly

variable {s t u : State}

theorem refl (s : State) : SchedOnly s s := ⟨rfl, rfl, fun _ _ _ _ => rfl⟩

theorem trans (h : SchedOnly s t) (k : SchedOnly t u) : SchedOnly s u :=
  ⟨k.frames.trans h.frames, k.ports.trans h.ports, fun r c i other => (k.read r c i other).trans (h.read r c i other)⟩

theorem ite {c : Prop} [Decidable c] (h : SchedOnly s t) (k : SchedOnly s u) : SchedOnly s (if c then t else u) := by
  split
  · exact h
  · exact k

/-- A change of what the relation does not speak of. -/
theorem beside (h : SchedOnly s t) (frames : u.frames = t.frames) (ports : u.ports = t.ports) (regs : u.regs = t.regs) : SchedOnly s u :=
  h.trans ⟨frames, ports, fun _ _ _ _ => congrArg (regGet · _ _ _) regs⟩

theorem fset (h : SchedOnly s t) {f : Fld} {c i n : Nat} (mem : f.reg ∈ schedRegs) :
    SchedOnly s (t.fset f c i n) :=
  h.trans ⟨rfl, rfl, fun _ d j other => t.rd_fset_reg c i d j n fun e => other (ctorIdx_inj e ▸ mem)⟩

theorem setQueue (h : SchedOnly s t) {n : Nat} {q : Queue} : SchedOnly s (t.setQueue n q) := h.beside rfl rfl rfl

theorem modSetNode (h : SchedOnly s t) {port set : Nat} {g : SetNode → SetNode} : SchedOnly s (t.modSetNode port set g) := h.beside rfl rfl rfl

theorem refreshTag (h : SchedOnly s t) {port set c : Nat} : SchedOnly s (t.refreshTag port set c) := by
  unfold State.refreshTag
  refine .ite h ?_
  extract_lets n q st tagged any node
  have kept : SchedOnly s tagged := by
    unfold tagged
    split
    · exact .setQueue h
    · exact .setQueue h
    · exact h
  exact .ite (.modSetNode kept) (.ite (.modSetNode kept) kept)

theorem filterQueue (h : SchedOnly s t) {n : Nat} {keep : Copy → Bool} : SchedOnly s (t.filterQueue n keep) := .refreshTag (.setQueue h)

theorem deepSettle (h : SchedOnly s t) {n : Nat} : SchedOnly s (t.deepSettle n) := by
  unfold State.deepSettle
  extract_lets q
  refine .ite h ?_
  split
  · exact .setQueue h
  · split
    extract_lets moved counted
    have kept : SchedOnly s counted := (SchedOnly.setQueue h).trans (foldl_rel refl trans (fun u _ => .fset (.refl u) (by decide)) _ _)
    exact .refreshTag kept

theorem popHead (h : SchedOnly s t) {n : Nat} : SchedOnly s (t.popHead n) := by
  unfold State.popHead
  split
  · exact h
  · exact .deepSettle (.filterQueue h)

theorem shCharge (h : SchedOnly s t) {n : Nat} {b : Int} : SchedOnly s (t.shCharge n b) := .ite h (h.beside rfl rfl rfl)

theorem shCopy (h : SchedOnly s t) {c : Copy} {b : Int} : SchedOnly s (t.shCopy c b) := .ite (.shCharge h) (.shCharge (.shCharge (.shCharge h)))

theorem advanceNodes (h : SchedOnly s t) {n f : Nat} : SchedOnly s (t.advanceNodes n f) :=
  .setQueue (.modSetNode (.fset (.fset h (by decide)) (by decide)))

theorem copyWhole (h : SchedOnly s t) (c : Copy) : t.copyWhole c = s.copyWhole c := by
  simp only [State.copyWhole, State.frame, h.frames]

theorem fget (h : SchedOnly s t) (f : Fld) (c i : Nat) (other : f.reg ∉ schedRegs) :
    t.fget f c i = s.fget f c i :=
  congrArg (fldGet · f.hi f.lo) (h.read f.reg c i other)

theorem dhState (h : SchedOnly s t) (p n : Nat) : t.dhState p n = s.dhState p n := by
  unfold State.dhState State.flag
  rw [h.fget F.TWN_CFG.en 0 0 (by decide), h.fget F.TWN_DH.valid 0 p (by decide), h.fget F.TWN_DH.state 0 p (by decide)]

theorem port (h : SchedOnly s t) (p : Nat) : t.port p = s.port p := by
  simp only [State.port, h.ports]

end SchedOnly

/-! ## The queue that loses its head -/

/-- A new tag of a queue changes nothing else of it. -/
theorem queue_refreshTag (s : State) (n : Nat) : ∃ tag, (s.refreshTag (n / 128) (n / 8 % 16) (n % 8)).queue n = { s.queue n with tag := tag } := by
  unfold State.refreshTag
  rw [queueNo_parts]
  split
  · exact ⟨_, rfl⟩
  · extract_lets _ q st tagged any node
    have kept : ∃ tag, tagged.queue n = { s.queue n with tag := tag } := by
      unfold tagged
      split
      · exact ⟨_, queue_setQueue_same ..⟩
      · exact ⟨_, queue_setQueue_same ..⟩
      · exact ⟨_, rfl⟩
    split
    · exact kept
    · split
      · exact kept
      · exact kept

theorem queue_filterQueue (s : State) (n : Nat) (keep : Copy → Bool) : ((s.filterQueue n keep).queue n).head = (s.queue n).head.filter keep ∧
    ((s.filterQueue n keep).queue n).pend = (s.queue n).pend.filter keep := by
  unfold State.filterQueue
  extract_lets q head tag
  obtain ⟨tag', same⟩ := queue_refreshTag (s.putQueue n { q with head := head, pend := q.pend.filter keep, tag := tag }) n
  obtain ⟨since, put⟩ := queue_putQueue_same s n { q with head := head, pend := q.pend.filter keep, tag := tag }
  rw [same, put]
  exact ⟨rfl, rfl⟩

/-- A queue without pending copies moves none to its head. -/
theorem head_deepSettle {s : State} {n : Nat} (pend : (s.queue n).pend = []) : ((s.deepSettle n).queue n).head = (s.queue n).head := by
  unfold State.deepSettle
  extract_lets q
  split
  · rfl
  · split
    · rw [queue_setQueue_same]
    next c l more => exact absurd (more.symm.trans pend) (List.cons_ne_nil c l)

theorem head_popHead {s : State} {n : Nat} {c : Copy} (head : (s.queue n).head = [c]) (pend : (s.queue n).pend = []) :
    ((s.popHead n).queue n).head = [] := by
  unfold State.popHead
  rw [head]
  dsimp only
  obtain ⟨left, waiting⟩ := queue_filterQueue s n fun x => x.id ≠ c.id
  rw [head_deepSettle (by rw [waiting, pend]; rfl), left, head]
  simp

theorem queue_shCharge (s : State) (k : Nat) (b : Int) (n : Nat) : (s.shCharge k b).queue n = s.queue n := by
  unfold State.shCharge
  split <;> rfl

theorem queue_shCopy (s : State) (c : Copy) (b : Int) (n : Nat) : (s.shCopy c b).queue n = s.queue n := by
  unfold State.shCopy
  extract_lets charged
  split
  · exact queue_shCharge ..
  · rw [queue_shCharge, queue_shCharge, queue_shCharge]

theorem queue_advanceNodes (s : State) (n f : Nat) : ∃ last, (s.advanceNodes n f).queue n = { s.queue n with lastF := last } :=
  ⟨_, queue_setQueue_same ..⟩

/-! ## The copy that is selected -/

/-- From `s` to `t`, the one copy of a queue has gone into its rewrite cluster and its port's order of copies (R356). -/
def selectedTo (n : Nat) (c : Copy) (s t : State) : Prop :=
  (t.queue n).head = [] ∧ (∃ x ∈ (tabGet {} t.clusters (c.port / 8)).input, x.id = c.id) ∧
    if c.qclass = 7 then (t.port c.port).order7 = (s.port c.port).order7 ++ [c.id]
    else (t.port c.port).orderG = (s.port c.port).orderG ++ [c.id]

/-- A copy that enters its cluster is the last of its port's order. -/
theorem toCluster_enters (s : State) (c : Copy) (ws : Nat) : (∃ x ∈ (tabGet {} (s.toCluster c ws).clusters (c.port / 8)).input, x.id = c.id) ∧
    if c.qclass = 7 then ((s.toCluster c ws).port c.port).order7 = (s.port c.port).order7 ++ [c.id]
    else ((s.toCluster c ws).port c.port).orderG = (s.port c.port).orderG ++ [c.id] := by
  unfold State.toCluster
  extract_lets fin ordered
  refine ⟨⟨c, ?_, rfl⟩, ?_⟩
  · rw [tabGet_mod_same]
    exact List.mem_append_right _ List.mem_cons_self
  · show if c.qclass = 7 then (ordered.port c.port).order7 = _ else (ordered.port c.port).orderG = _
    unfold ordered
    rw [port_modPort_same]
    split <;> rfl

/-- The one copy of a queue of a port that is not PEER goes to its cluster. -/
theorem selectHead_selects {s : State} {n : Nat} {c : Copy} (setF : Option Nat) (head : (s.queue n).head = [c]) (pend : (s.queue n).pend = [])
    (whole : s.copyWhole c = true) (own : s.dhState c.port 2 = false) : selectedTo n c s (s.selectHead n setF) := by
  unfold State.selectHead
  rw [head]
  dsimp -zeta only
  generalize s.wireStart c.port c.qclass = ws
  extract_lets _ timed popped charged counted x
  have moved : SchedOnly s timed ∧ (timed.queue n).head = [c] ∧ (timed.queue n).pend = [] := by
    cases setF with
    | none => exact ⟨.refl s, head, pend⟩
    | some f =>
      obtain ⟨last, same⟩ := queue_advanceNodes s n f
      exact ⟨.advanceNodes (.refl s), (congrArg Queue.head same).trans head, (congrArg Queue.pend same).trans pend⟩
  obtain ⟨timedKept, timedHead, timedPend⟩ := moved
  have kept : SchedOnly s charged := .shCopy (.popHead timedKept)
  have empty : (charged.queue n).head = [] := by
    unfold charged
    rw [queue_shCopy]
    exact head_popHead timedHead timedPend
  have uncut : counted = charged := if_pos ((kept.copyWhole c).trans whole)
  rw [uncut, kept.dhState, own, if_neg Bool.false_ne_true]
  obtain ⟨input, order⟩ := toCluster_enters charged x ws
  refine ⟨empty, input, ?_⟩
  rw [← kept.port]
  exact order

end Sys2Proof.Machine
end

section
/-! PROOFS. SCHED_SELECT at a port with one copy (R329, R330, R356), and what it settles with the shapers and the gate lists. -/

namespace Sys2Proof.Machine

/-! ## Heads that stay as they are (R345) -/

theorem dropNeverFits_keeps {s : State} {n : Nat} {c : Copy} (head : (s.queue n).head = [c]) (fits : s.neverFits c = false) (fuel : Nat) :
    s.dropNeverFits n fuel = s := by
  cases fuel with
  | zero => rfl
  | succ fuel =>
    unfold State.dropNeverFits
    rw [head]
    simp only [fits, Bool.and_false, Bool.false_eq_true, if_false]

/-- A head whose gate fits waits for no gate. -/
theorem noteDefer_keeps {s : State} {n : Nat} {c : Copy} (head : (s.queue n).head = [c])
    (fits : s.gateFits c (s.wireStart c.port c.qclass) = true) : s.noteDefer n = s := by
  unfold State.noteDefer
  extract_lets q
  rw [show q.head = [c] from head]
  simp only [fits, Bool.not_true, Bool.false_eq_true, and_false, if_false]

/-- Of a range, the one number that is another one. -/
theorem range_filter_eq {m k : Nat} (small : m < k) : (List.range k).filter (fun x => decide (x = m)) = [m] := by
  rw [List.filter_eq, List.count_eq_one_of_mem List.nodup_range (List.mem_range.2 small)]
  rfl

/-! ## The one queue of a device -/

/-- The one queue of a device holds one copy and nothing behind it. -/
structure OneCopy (s : State) (n : Nat) (q : Queue) (c : Copy) : Prop where
  only : s.queues = [(n, q)]
  head : q.head = [c]
  pend : q.pend = []
  port : n / 128 = c.port
  set : n / 8 % 16 = c.set
  qclass : n % 8 = c.qclass

/-- The state whose one queue notes since when its head has been eligible. -/
def State.readied (s : State) (n : Nat) (q : Queue) (since : Option (Nat × Nat)) : State := { s with queues := [(n, { q with ready := since })] }

namespace OneCopy

variable {s : State} {n : Nat} {q : Queue} {c : Copy} (h : OneCopy s n q c)
include h

theorem queue : s.queue n = q := by
  unfold State.queue
  rw [h.only]
  exact if_pos rfl

theorem front : (s.queue n).head = [c] := by rw [h.queue, h.head]

theorem used (since : Option (Nat × Nat)) : { q with ready := since } ≠ {} :=
  fun none_ => List.cons_ne_nil c [] (h.head.symm.trans (congrArg Queue.head none_))

theorem portQueues : s.portQueues c.port = [n] := by
  unfold State.portQueues
  rw [h.only]
  simp [h.port, h.head]

theorem readied (since : Option (Nat × Nat)) : OneCopy (s.readied n q since) n { q with ready := since } c :=
  ⟨rfl, h.head, h.pend, h.port, h.set, h.qclass⟩

theorem readied_same : s.readied n q q.ready = s := by
  unfold State.readied
  rw [← h.only]

theorem setQueue_readied (since : Option (Nat × Nat)) : s.setQueue n { q with ready := since } = s.readied n q since := by
  unfold State.setQueue tabSet State.readied
  rw [h.only, if_neg (h.used since)]
  simp [tabInsert]

/-- Noting since when the head has been eligible changes nothing else of the queue. -/
theorem noteReady : ∃ since, s.noteReady n = s.readied n q since := by
  unfold State.noteReady
  rw [h.queue]
  extract_lets _
  split
  next none_ => exact absurd (h.head.symm.trans none_) (List.cons_ne_nil c [])
  extract_lets r
  split
  · exact ⟨_, h.readied_same.symm⟩
  · exact ⟨r, h.setQueue_readied r⟩

/-- Whether a head is eligible does not depend on since when it is noted to be. -/
theorem headEligible_readied (since : Option (Nat × Nat)) : (s.readied n q since).headEligible c = s.headEligible c := by
  rw [← h.readied_same]
  rfl

/-! ## The choice among queues (R329) -/

theorem queueEligible (eligible : s.headEligible c = true) : s.queueEligible n = true := by
  unfold State.queueEligible
  rw [h.front]
  exact eligible

theorem pickExpress (express : c.qclass = 7) (eligible : s.headEligible c = true) : s.pickExpress c.port = some n := by
  unfold State.pickExpress
  extract_lets since
  rw [h.portQueues, List.filter_singleton, h.qclass, express, h.queueEligible eligible]
  rfl

theorem pickExpress_none (general : c.qclass ≠ 7) : s.pickExpress c.port = none := by
  unfold State.pickExpress
  extract_lets since
  rw [h.portQueues, List.filter_singleton, h.qclass, decide_eq_false general]
  rfl

/-- The one set with an eligible queue is selected, and in it that queue. -/
theorem pickGeneral (general : c.qclass ≠ 7) (eligible : s.headEligible c = true) (unheld : (s.port c.port).remainder = none)
    (portAllows : s.shAllows (shPort c.port) = true) (setAllows : s.shAllows (shSet c.port c.set) = true) :
    ∃ f, s.pickGeneral c.port = some (n, f) := by
  unfold State.pickGeneral
  rw [if_neg (by simp [portAllows, unheld])]
  extract_lets el sets fOf
  have queues : el = [n] := by
    unfold el
    rw [h.portQueues, List.filter_singleton, h.qclass, decide_eq_true general, h.queueEligible eligible]
    rfl
  have one : sets = [c.set] := by
    unfold sets
    rw [queues, ← range_filter_eq (h.set ▸ Nat.mod_lt (n / 8) (by decide) : c.set < 16)]
    refine List.filter_congr fun k _ => ?_
    by_cases here : k = c.set
    · simp [here, setAllows, h.set]
    · simp [here, Ne.symm here, h.set]
  have picked : s.setPick el c.set = some n := by
    unfold State.setPick
    rw [queues, List.filter_singleton, decide_eq_true h.set]
    rfl
  rw [one]
  exact ⟨_, congrArg (Option.map _) picked⟩

end OneCopy

/-! ## The selection (R329, R330) -/

/-- A copy may be selected: it is complete and eligible, its port is not PEER, holds no remainder and has room, no copy waits before it, and
the shapers of port and set allow one of classes 0–6. -/
structure Selectable (s : State) (c : Copy) : Prop where
  whole : s.copyWhole c = true
  eligible : s.headEligible c = true
  unheld : (s.port c.port).remainder = none
  own : s.dhState c.port 2 = false
  room : s.fifoRoom c.port c.qclass = true
  first : s.noneWaits c.port c.qclass = true
  allowed : c.qclass ≠ 7 → s.shAllows (shPort c.port) = true ∧ s.shAllows (shSet c.port c.set) = true

theorem Selectable.readied {s : State} {n : Nat} {q : Queue} {c : Copy} (may : Selectable s c) (h : OneCopy s n q c) (since : Option (Nat × Nat)) :
    Selectable (s.readied n q since) c :=
  { may with eligible := (h.headEligible_readied since).trans may.eligible }

/-- The classes 0–6 share one part of the egress FIFO. -/
theorem fifoRoom_general (s : State) (p : Nat) {k : Nat} (general : k ≠ 7) : s.fifoRoom p 0 = s.fifoRoom p k := by
  simp [State.fifoRoom, general]

theorem noneWaits_general (s : State) (p : Nat) {k : Nat} (general : k ≠ 7) : s.noneWaits p 0 = s.noneWaits p k := by
  simp [State.noneWaits, State.selWaiting, general]

theorem selectCopy_selects {s : State} {n : Nat} {q : Queue} {c : Copy} (h : OneCopy s n q c) (may : Selectable s c) :
    selectedTo n c s (s.selectCopy c.port) := by
  have selects (setF : Option Nat) : selectedTo n c s (s.selectHead n setF) :=
    selectHead_selects setF h.front (h.queue ▸ h.pend) may.whole may.own
  unfold State.selectCopy
  by_cases express : c.qclass = 7
  · have room := may.room
    have first := may.first
    rw [express] at room first
    rw [h.pickExpress express may.eligible]
    dsimp only
    rw [room, first]
    exact selects none
  · obtain ⟨portAllows, setAllows⟩ := may.allowed express
    obtain ⟨f, picked⟩ := h.pickGeneral express may.eligible may.unheld portAllows setAllows
    rw [h.pickExpress_none express]
    dsimp only
    rw [fifoRoom_general s c.port express, noneWaits_general s c.port express, may.room, may.first, picked]
    exact selects (some f)

/-- Before the selection, nothing is dropped, goes on or is deferred; at most the queue notes since when its head has been eligible. -/
theorem schedSelect_selects {s : State} {n : Nat} {q : Queue} {c : Copy} (h : OneCopy s n q c) (may : Selectable s c)
    (serving : s.serving c.port = true) (fits : s.neverFits c = false) : goesTo (exec (.schedSelect c.port) s) (selectedTo n c s) := by
  show goesTo (execSchedSelect c.port s) _
  refine goesTo_act ?_
  obtain ⟨-, gate⟩ := (Bool.and_eq_true _ _).mp may.eligible
  have noted : ∃ since, (if n % 8 = 7 then s.noteReady n else s) = s.readied n q since := by
    split
    · exact h.noteReady
    · exact ⟨_, h.readied_same.symm⟩
  obtain ⟨since, noted⟩ := noted
  have ran : selectedTo n c s ((s.readied n q since).selectCopy c.port) := selectCopy_selects (h.readied since) (may.readied h since)
  simp only [serving, Bool.not_true, Bool.false_eq_true, if_false, h.portQueues, List.foldl_cons, List.foldl_nil,
    dropNeverFits_keeps h.front fits, resume_none may.unheld, noteDefer_keeps h.front gate, noted]
  exact ran

/-- Settles O33: the tick is a run over shapers listed once, each refilled on its own; the one queue of a served port stays as it is until its
head is the one selected; a list cuts at the cut point that its hold or its closed gate asks for. -/
theorem shapersGatesAndSelection : Obligations.ShapersGatesAndSelection := by
  unfold Obligations.ShapersGatesAndSelection
  refine ⟨shaperRefillTick_refills, ?selected, fun s p d x => gateEntryChange_cuts, fun s p x => gateEntryChange_resumes⟩
  case selected =>
    intro s n q c serving only head pend _ port set qclass whole fits eligible unheld own room first allowed
    have h : OneCopy s n q c := ⟨only, head, pend, port.symm, set.symm, qclass.symm⟩
    exact schedSelect_selects h ⟨whole, eligible, unheld, own, room, first, allowed⟩ (port ▸ serving) fits

end Sys2Proof.Machine
end

section
/-! PROOFS. The edited head (R361, R364): numbers as bytes, what is read of a head some bytes of which are overwritten, and fields of bits. -/

namespace Sys2Proof.Machine

/-! ## Numbers as bytes -/

@[simp] theorem length_bytesLE (n v : Nat) : (bytesLE n v).length = n := by
  induction n generalizing v with
  | zero => rfl
  | succ n ih => simp [bytesLE, ih]

@[simp] theorem length_bytesBE (n v : Nat) : (bytesBE n v).length = n := by simp [bytesBE]

theorem ofLE_bytesLE (n v : Nat) : ofLE (bytesLE n v) = v % 2 ^ (8 * n) := by
  induction n generalizing v with
  | zero => simp [bytesLE, ofLE, Nat.mod_one]
  | succ n ih =>
    have split : v % 2 ^ (8 * (n + 1)) = v % 256 + 256 * (v / 256 % 2 ^ (8 * n)) := by
      rw [show 2 ^ (8 * (n + 1)) = 256 * 2 ^ (8 * n) by ring, Nat.mod_mul]
    simp [bytesLE, ofLE, ih, split]

theorem ofBE_bytesBE (n v : Nat) : ofBE (bytesBE n v) = v % 2 ^ (8 * n) := by
  unfold ofBE bytesBE
  rw [List.reverse_reverse, ofLE_bytesLE]

theorem ofLE_lt (bs : List Byte) : ofLE bs < 2 ^ (8 * bs.length) := by
  induction bs with
  | nil => exact Nat.one_pos
  | cons b bs ih =>
    have byte : b.toNat < 256 := b.isLt
    have split : 2 ^ (8 * (b :: bs).length) = 256 * 2 ^ (8 * bs.length) := by rw [List.length_cons]; ring
    rw [ofLE, split]
    omega

theorem headNum_lt (e : Edit) (o n : Nat) : headNum e o n < 2 ^ (8 * n) := by
  have read : (headBytes e o n).reverse.length ≤ n := by simp [headBytes]
  exact lt_of_lt_of_le (ofLE_lt _) (Nat.pow_le_pow_right (by decide) (Nat.mul_le_mul_left 8 read))

/-! ## Overwriting bytes -/

/-- From `r` to `x`, the head keeps its length and its bytes outside the `n` bytes from byte `a` on. -/
structure HeadOnly (a n : Nat) (r x : Edit) : Prop where
  length : x.head.length = r.head.length
  outside : ∀ i, i < a ∨ a + n ≤ i → x.head[i]? = r.head[i]?

namespace HeadOnly

variable {a b n m : Nat} {r x y : Edit}

theorem refl (a n : Nat) (r : Edit) : HeadOnly a n r r := ⟨rfl, fun _ _ => rfl⟩

theorem trans (h : HeadOnly a n r x) (k : HeadOnly a n x y) : HeadOnly a n r y :=
  ⟨k.length.trans h.length, fun i out => (k.outside i out).trans (h.outside i out)⟩

theorem mono (h : HeadOnly a n r x) (low : b ≤ a) (high : a + n ≤ b + m) : HeadOnly b m r x :=
  ⟨h.length, fun i out => h.outside i (by omega)⟩

theorem of_head (h : HeadOnly a n x y) (same : x.head = r.head) : HeadOnly a n r y :=
  ⟨h.length.trans (congrArg List.length same), fun i out => (h.outside i out).trans (congrArg (·[i]?) same)⟩

theorem to_head (h : HeadOnly a n r x) (same : y.head = x.head) : HeadOnly a n r y :=
  ⟨(congrArg List.length same).trans h.length, fun i out => (congrArg (·[i]?) same).trans (h.outside i out)⟩

/-- Bytes apart from those overwritten read as before. -/
theorem headNum (h : HeadOnly a n r x) (apart : b + m ≤ a ∨ a + n ≤ b) : headNum x b m = headNum r b m := by
  have same : headBytes x b m = headBytes r b m := by
    refine List.ext_getElem? fun i => ?_
    unfold headBytes
    rw [List.getElem?_take, List.getElem?_take, List.getElem?_drop, List.getElem?_drop]
    split
    · exact h.outside _ (by omega)
    · rfl
  exact congrArg ofBE same

end HeadOnly

theorem putHead_only {e : Edit} {o : Nat} {bs : List Byte} (fits : o + bs.length ≤ e.head.length) : HeadOnly o bs.length e (putHead e o bs) where
  length := by
    simp only [putHead, List.length_append, List.length_take, List.length_drop]
    omega
  outside i out := by
    have front : (e.head.take o).length = o := by rw [List.length_take]; omega
    unfold putHead
    dsimp only
    rcases out with before | behind
    · rw [List.append_assoc, List.getElem?_append_left (by omega), List.getElem?_take, if_pos before]
    · rw [List.getElem?_append_right (by rw [List.length_append]; omega), List.getElem?_drop, List.length_append, front]
      congr 1
      omega

/-- A number overwritten within the head changes its bytes only. -/
theorem putNum_only {e : Edit} {o n v : Nat} (fits : o + n ≤ e.head.length) : HeadOnly o n e (putHead e o (bytesBE n v)) := by
  have put := putHead_only (e := e) (o := o) (bs := bytesBE n v) (by rw [length_bytesBE]; exact fits)
  rwa [length_bytesBE] at put

/-- A number overwritten within the head reads as written. -/
theorem headNum_putNum {e : Edit} {o n v : Nat} (fits : o + n ≤ e.head.length) : headNum (putHead e o (bytesBE n v)) o n = v % 2 ^ (8 * n) := by
  have front : (e.head.take o).length = o := by rw [List.length_take]; omega
  have read : headBytes (putHead e o (bytesBE n v)) o n = bytesBE n v := by
    unfold headBytes putHead
    dsimp only
    rw [List.append_assoc, List.drop_left' front, List.take_left' (length_bytesBE n v)]
  rw [headNum, read, ofBE_bytesBE]

/-! ## Fields of bits -/

/-- `y` is `x` with the `w` bits above bit `sh` replaced by those of `v`. -/
structure FieldPut (sh w v x y : Nat) : Prop where
  field : y / 2 ^ sh % 2 ^ w = v % 2 ^ w
  below : y % 2 ^ sh = x % 2 ^ sh
  above : y / 2 ^ (sh + w) = x / 2 ^ (sh + w)

/-- A mask of `w` bits above bit `sh` leaves those bits. -/
theorem and_fieldMask (x sh w : Nat) : x &&& (2 ^ w - 1) * 2 ^ sh = x / 2 ^ sh % 2 ^ w * 2 ^ sh := by
  rw [← Nat.shiftLeft_eq, ← Nat.shiftLeft_eq, ← Nat.shiftRight_eq_div_pow, ← Nat.and_two_pow_sub_one_eq_mod]
  refine Nat.eq_of_testBit_eq fun i => ?_
  rw [Nat.testBit_and, Nat.testBit_shiftLeft, Nat.testBit_shiftLeft, Nat.testBit_and, Nat.testBit_shiftRight]
  by_cases above : sh ≤ i
  · simp [above]
  · simp [above]

theorem fieldPut_mask (sh w v x : Nat) : FieldPut sh w v x (x - (x &&& (2 ^ w - 1) * 2 ^ sh) + v % 2 ^ w * 2 ^ sh) := by
  have low : x % 2 ^ sh < 2 ^ sh := Nat.mod_lt _ (Nat.two_pow_pos sh)
  have parts : x = (x / 2 ^ (sh + w) * 2 ^ w + x / 2 ^ sh % 2 ^ w) * 2 ^ sh + x % 2 ^ sh := by
    rw [pow_add, ← Nat.div_div_eq_div_mul, Nat.div_add_mod', Nat.div_add_mod']
  have value : x - (x &&& (2 ^ w - 1) * 2 ^ sh) + v % 2 ^ w * 2 ^ sh = (x / 2 ^ (sh + w) * 2 ^ w + v % 2 ^ w) * 2 ^ sh + x % 2 ^ sh := by
    rw [and_fieldMask, Nat.add_mul] at *
    omega
  have quotient : (x - (x &&& (2 ^ w - 1) * 2 ^ sh) + v % 2 ^ w * 2 ^ sh) / 2 ^ sh = x / 2 ^ (sh + w) * 2 ^ w + v % 2 ^ w := by
    rw [value, Nat.add_comm, Nat.add_mul_div_right _ _ (Nat.two_pow_pos sh), Nat.div_eq_of_lt low, Nat.zero_add]
  constructor
  · rw [quotient, Nat.mul_add_mod_self_right, Nat.mod_mod]
  · rw [value, Nat.mul_add_mod_self_right, Nat.mod_mod]
  · rw [pow_add, ← Nat.div_div_eq_div_mul, quotient, Nat.add_comm, Nat.add_mul_div_right _ _ (Nat.two_pow_pos w),
      Nat.div_eq_of_lt (Nat.mod_lt _ (Nat.two_pow_pos w)), Nat.zero_add, pow_add]

section
variable {e : Edit} {o b w v : Nat}

/-- Bits overwritten within the head change the bytes that hold them only. -/
theorem putBits_only (fits : o + (b + w + 7) / 8 ≤ e.head.length) : HeadOnly o ((b + w + 7) / 8) e (putBits e o b w v) := putNum_only fits

/-- The bytes that hold overwritten bits read as those bits among the bits that were there. -/
theorem putBits_field (fits : o + (b + w + 7) / 8 ≤ e.head.length) :
    FieldPut (8 * ((b + w + 7) / 8) - b - w) w v (headNum e o ((b + w + 7) / 8)) (headNum (putBits e o b w v) o ((b + w + 7) / 8)) := by
  have put := fieldPut_mask (8 * ((b + w + 7) / 8) - b - w) w v (headNum e o ((b + w + 7) / 8))
  have small := headNum_lt e o ((b + w + 7) / 8)
  unfold putBits
  dsimp only
  rw [headNum_putNum fits, Nat.mod_eq_of_lt]
  · exact put
  · have top : 2 ^ (8 * ((b + w + 7) / 8)) = 2 ^ b * 2 ^ (8 * ((b + w + 7) / 8) - b - w + w) := by
      rw [← pow_add]
      congr 1
      omega
    rw [top] at small ⊢
    rw [← Nat.div_lt_iff_lt_mul (Nat.two_pow_pos _)] at small ⊢
    rwa [put.above]

end

end Sys2Proof.Machine
end

section
/-! PROOFS. An instruction on an engine (R361–R366, R371): when its routine runs to its end, and the edit that it then leaves. -/

namespace Sys2Proof.Machine

theorem goesTo_imp {o : Host.Outcome State Fault Refusal} {P Q : State → Prop} (h : goesTo o P) (imp : ∀ t, P t → Q t) : goesTo o Q := by
  obtain ⟨t, next, holds⟩ := h
  exact ⟨t, next, imp t holds⟩

/-! ## Engines -/

@[simp] theorem eng_modEng (s : State) (c e : Nat) (g : Engine → Engine) : (s.modEng c e g).eng c e = g (s.eng c e) := tabGet_mod_same _ _ _ _

/-- No fault or drain is pending: a boundary changes nothing (R379). -/
theorem boundary_calm {s : State} {c e : Nat} (calm : (s.eng c e).due = 0) : s.boundary c e = s := by
  unfold State.boundary
  rw [calm]
  rfl

/-- An engine runs an edit that goes on: it neither stalls nor has a fault or drain pending, and no word is fenced in its cluster. -/
structure Running (s : State) (c e : Nat) (r : Edit) : Prop where
  run : (s.eng c e).run = some r
  going : r.ended = false
  moving : (s.eng c e).stalledAt = none
  calm : (s.eng c e).due = 0
  clear : ∀ k, (c, k) ∉ s.rwFenced

/-- The offset at which `base` and `off` place an instruction (R361). -/
def editOffset (r : Edit) : Nat := baseVal r (bits (editWord r) 27 25) + bits (editWord r) 24 17

/-- The edit once the bytes below its instruction have passed (R363). -/
def placed (r : Edit) : Edit := { r with p := editOffset r }

/-- The microwords that a routine may run (R366). -/
def State.instrLimit (s : State) : Nat := max 8 (s.fget F.RWE_CFG.instr_max)

theorem le_instrLimit (s : State) {m : Nat} (short : m ≤ 8) : m ≤ s.instrLimit := le_max_of_le_left short

/-! ## Routines -/

/-- A routine within its limits runs to its end (R366). -/
theorem ranOk_ends {lim m d : Nat} {x : Edit} (short : m ≤ lim) (small : x.head.length ≤ x.orig + 128) :
    ranOk lim x m d = { edit := { x with cycles := x.cycles + m, word := x.word + 1 + d } } := by
  have fits : headGrown x = false := decide_eq_false (by omega)
  unfold ranOk
  rw [if_neg (by omega), fits]
  rfl

/-- An instruction at or after the position runs from its offset on (R363). -/
theorem atOffset_runs {r : Edit} {o : Nat} {f : Edit → Ran} (order : r.p ≤ o) : atOffset r o f = f { r with p := o } := if_neg (by omega)

/-- An instruction whose base mark is present runs at its offset (R361). -/
theorem stdOp_runs {lim d : Nat} {r : Edit} {f : Edit → Nat → Ran} (data : r.word + d ≤ 15)
    (present : baseAbsent r (bits (editWord r) 27 25) = false) (order : r.p ≤ editOffset r) :
    stdOp lim r d f = f (placed r) (editOffset r) := by
  have within : dataOk r d = true := decide_eq_true data
  unfold stdOp
  simp only [within, present, Bool.not_true, Bool.false_eq_true, if_false]
  exact atOffset_runs order

/-- An instruction lies within the program, or its opcode is 0 (R359). -/
theorem word_le_of_editOp {r : Edit} (op : editOp r ≠ 0) : r.word ≤ 15 := by
  by_contra beyond
  exact op (if_pos (by omega))

/-! ## Fenced words (R381) -/

theorem nanoSrc_code (m : Micro) (n : Nat) (a : Int) (sel : Nat) : (nanoSrc m n a sel).1 ≠ errFenced := by
  unfold nanoSrc
  dsimp only
  split
  case h_1 | h_6 => split <;> simp [errFenced, errRange, errData]
  all_goals simp [errFenced]

theorem nanoStore_code (m : Micro) (n : Nat) (a : Int) (v : Nat) : (nanoStore m n a v).1 ≠ errFenced := by
  unfold nanoStore
  dsimp only
  split
  case h_1 =>
    split
    · simp [errFenced, errRange]
    · split <;> simp [errFenced, errOrder]
  all_goals simp [errFenced]

theorem nanoMove_code (m : Micro) (n : Nat) (at_ : Int) (a : Nat) (bs : List Byte) : (nanoMove m n at_ a bs).1 ≠ errFenced := by
  unfold nanoMove
  dsimp only
  split
  case h_1 =>
    split
    · simp [errFenced, errRange]
    split
    · simp [errFenced, errOrder]
    · have either (p : Prop) [Decidable p] : (if p then errGrow else 0) ≠ errFenced := by split <;> decide
      exact either _
  case h_2 =>
    split
    · simp [errFenced, errRange]
    · split <;> simp [errFenced, errOrder]
  case h_3 => simp [errFenced]

/-- A nanoword by itself never ends a routine as one that reached a fenced word does. -/
theorem nanoStep_code (m : Micro) (n : Nat) : (nanoStep m n).1 ≠ errFenced := by
  unfold nanoStep
  split
  · simp [errFenced]
  split
  · simp [errFenced, errTrap]
  extract_lets w wait _ m₁ ins _ _ _
  split
  · simp [errFenced, errOrder]
  split
  · simp [errFenced, errRange]
  split
  · simp [errFenced, errData]
  split
  next c1 a m₂ first =>
  have code1 : c1 ≠ errFenced := by
    rw [show c1 = (c1, a, m₂).1 from rfl, ← first]
    split
    · simp [errFenced]
    · exact nanoSrc_code _ _ _ _
  split
  next c2 b m₃ second =>
  have code2 : c2 ≠ errFenced := by
    rw [show c2 = (c2, b, m₃).1 from rfl, ← second]
    exact nanoSrc_code _ _ _ _
  split
  · show (if _ then c1 else c2) ≠ errFenced
    split
    · exact code1
    · exact code2
  split
  dsimp only
  split
  · exact nanoStore_code _ _ _ _
  split
  · exact nanoMove_code _ _ _ _ _
  · exact Nat.zero_ne_add_one 6

/-- What holds of the value of a recursion at 0, and goes from each value to the next, holds of every value. -/
theorem brecOn_holds {α : Type} {f : (n : Nat) → Nat.below (motive := fun _ => α) n → α} {P : α → Prop} (zero : ∀ b, P (f 0 b))
    (succ : ∀ n b, P b.1 → P (f (n + 1) b)) (n : Nat) : P (Nat.brecOn (motive := fun _ => α) n f) := by
  induction n with
  | zero => exact zero _
  | succ n ih => exact succ n _ ih

section
variable {s : State} {c : Nat} (clear : ∀ k, (c, k) ∉ s.rwFenced)
include clear

theorem wordFenced_clear (key : Nat) : s.wordFenced c key = false := by
  unfold State.wordFenced
  rw [List.contains_eq_mem, decide_eq_false (clear key)]

/-- A routine reaches no fenced word where its cluster has none. A nanoword is a sum of four words at powers of 2 up to 2¹⁰⁸, which the kernel
must not evaluate at a variable bank, as it does for the equations of `runMicro`: the induction goes through the recursion itself, for any
nanostore. -/
theorem runMicro_code (m : Micro) (i k fuel : Nat) : (s.runMicro c m i k fuel).code ≠ errFenced := by
  delta State.runMicro
  refine brecOn_holds (α := Micro → Nat → Nat → Ran) (P := fun f => ∀ m i k, (f m i k).code ≠ errFenced) (fun b m i k => ?zero)
    (fun n b ih m i k => ?succ) fuel m i k
  case zero => exact (by decide : errLoop ≠ errFenced)
  case succ =>
    delta State.runMicro._f
    generalize State.nanoword s = nano
    revert nano
    refine id fun nano => ?_
    dsimp only
    rw [wordFenced_clear clear, wordFenced_clear clear, Bool.or_self, if_neg Bool.false_ne_true]
    split
    · exact nanoStep_code _ _
    · split
      · exact ih _ _ _
      · exact ih _ _ _
      · exact ih _ _ _
      · exact Nat.zero_ne_add_one 6

theorem runEntry_code (entry : Nat) (r : Edit) : (s.runEntry c entry r).code ≠ errFenced := runMicro_code clear _ _ _ _

theorem progFenced_clear (r : Edit) (a b : Nat) : s.progFenced c r a b = false := by
  unfold State.progFenced
  simp [wordFenced_clear clear]

/-! ## A standard instruction (R361, R371, R378) -/

/-- With the standard library in its bank, an instruction without a reserved operand has the effect that R361 gives it. -/
theorem stdRan_library {r : Edit} {run : Nat → Edit → Ran} (library : s.libraryIn r.bank = true) (allowed : editReserved r = false) :
    ∃ a, s.stdRan c r run = { run s.instrLimit r with addr := a } := by
  unfold State.stdRan
  split
  · exact ⟨_, rfl⟩
  · simp only [library, allowed, runEntry_code clear, decide_false, Bool.not_true, Bool.or_self, Bool.false_eq_true, if_false]
    exact ⟨_, rfl⟩

/-- One with a reserved base or operand value is a program error (R366, R378). -/
theorem stdRan_reserved {r : Edit} {run : Nat → Edit → Ran} (library : s.libraryIn r.bank = true) (reserved : editReserved r = true)
    (present : baseAbsent r (bits (editWord r) 27 25) = false) : s.stdRan c r run = { code := errReserved, edit := r } := by
  unfold State.stdRan
  simp only [present, library, reserved, runEntry_code clear, decide_false, Bool.and_false, Bool.not_true, Bool.or_self, Bool.false_eq_true,
    if_false, if_true]

end

/-- Without the library, an instruction that `base` does not place does what its bank's microwords do. -/
theorem stdRan_owner {s : State} {c : Nat} {r : Edit} {run : Nat → Edit → Ran} (missing : s.libraryIn r.bank = false)
    (unplaced : usesBase r = false) : s.stdRan c r run = s.runEntry c (editOp r) r := by
  unfold State.stdRan
  simp only [unplaced, missing, Bool.false_and, Bool.not_false, Bool.true_or, Bool.false_eq_true, if_false, if_true]

/-! ## The edit that an instruction leaves -/

/-- The engine runs an edit, of which as much has passed to the egress FIFO as may be. -/
def runsOn (c e : Nat) (x : Edit) (t : State) : Prop := ∃ d, (t.eng c e).run = some { x with drained := d }

namespace Running

variable {s : State} {c e : Nat} {r : Edit} (h : Running s c e r)
include h

/-- A routine that runs to its end leaves its edit, where the output FIFO takes the bytes below its position. -/
theorem runRoutine_ends {ran : Ran} (ok : ran.code = 0) (passes : s.moverStalls r ran.edit.p = false) :
    runsOn c e ran.edit (s.runRoutine c e r ran) := by
  unfold State.runRoutine
  simp only [progFenced_clear h.clear, passes, Bool.false_eq_true, if_false]
  unfold State.afterRoutine
  simp only [ok, if_true]
  rw [boundary_calm (by rw [eng_modEng]; exact h.calm)]
  exact ⟨_, congrArg Engine.run (eng_modEng ..)⟩

/-- Where it does not, the engine stalls and the instruction waits (R365). -/
theorem runRoutine_stalls {ran : Ran} (full : s.moverStalls r ran.edit.p = true) :
    ∃ d, (s.runRoutine c e r ran).eng c e =
      { s.eng c e with run := some { r with drained := d, waits := ran.edit.p }, stalledAt := some s.time.cycles } := by
  unfold State.runRoutine
  simp only [progFenced_clear h.clear, full, Bool.false_eq_true, if_false, if_true]
  exact ⟨_, eng_modEng ..⟩

/-- A standard instruction runs where the current word has its opcode. -/
theorem goesTo_editStep {op : Nat} {run : Nat → Edit → Ran} {P : State → Prop} (opcode : editOp r = op)
    (holds : P ((s.runRoutine c e r (s.stdRan c r run)).withQueue s.pending)) : goesTo (s.editStep c e op run) P := by
  refine goesTo_act ?_
  simpa only [h.run, h.going, opcode, h.moving, Bool.false_eq_true, ne_eq, not_true, Option.isSome_none, or_self, if_false] using holds

variable (library : s.libraryIn r.bank = true) (allowed : editReserved r = false)
include library allowed

/-- A standard instruction that R361 lets run to its end leaves what R361 says. -/
theorem edits {op : Nat} {run : Nat → Edit → Ran} {x : Edit} {m d : Nat} {Q : Edit → Prop} (opcode : editOp r = op)
    (runs : run s.instrLimit r = ranOk s.instrLimit x m d) (short : m ≤ s.instrLimit) (small : x.head.length ≤ x.orig + 128)
    (passes : s.moverStalls r x.p = false)
    (holds : ∀ n, Q { x with cycles := x.cycles + m, word := x.word + 1 + d, drained := n }) :
    goesTo (s.editStep c e op run) fun t => ∃ y, (t.eng c e).run = some y ∧ Q y := by
  obtain ⟨a, ran⟩ := stdRan_library (run := run) h.clear library allowed
  rw [runs, ranOk_ends short small] at ran
  refine h.goesTo_editStep opcode ?_
  obtain ⟨n, left⟩ := h.runRoutine_ends (ran := s.stdRan c r run) (by rw [ran]) (by rw [ran]; exact passes)
  rw [ran] at left ⊢
  exact ⟨_, left, holds n⟩

end Running

end Sys2Proof.Machine
end

section
/-! PROOFS. Instructions that insert, delete and overwrite bytes of the edited head (R361, R364), which settle O28. -/

namespace Sys2Proof.Machine

/-! ## The bytes that an instruction writes -/

@[simp] theorem length_srcBytes (r : Edit) (n : Nat) : (srcBytes r n).length = n := by
  unfold srcBytes
  split
  · rw [dataBytes, List.length_take, List.length_flatMap]
    simp only [length_bytesBE, List.map_const', List.length_range, List.sum_replicate, smul_eq_mul]
    omega
  · exact length_bytesBE ..
  · exact List.length_replicate ..

/-- The data words of INSERT and REPLACE. -/
def srcWords (r : Edit) : Nat := if bits (editWord r) 10 9 = 1 then (editN (editWord r) + 3) / 4 else 0

/-- Where COPY takes its bytes from: a position by `p` is that of the instruction itself. -/
def copyFrom (r : Edit) : Nat :=
  (if bits (dataWord r 0) 27 25 = 4 then editOffset r else baseVal r (bits (dataWord r 0) 27 25)) + bits (dataWord r 0) 24 17

theorem inHead_of_le {r : Edit} {o n : Nat} (fits : o + n ≤ r.head.length) : inHead r o n = true := decide_eq_true fits

theorem outside_of_le {r : Edit} {o n : Nat} (fits : o + n ≤ r.head.length) : ¬(!inHead r o n) = true := by
  simp [inHead_of_le fits]

/-- The head with bytes overwritten within it. -/
theorem putHead_length {r : Edit} {o : Nat} {bs : List Byte} (fits : o + bs.length ≤ r.head.length) :
    (putHead r o bs).head.length = r.head.length := (putHead_only fits).length

/-- The tag protocol that PUSH_TAG writes, but for one that a data word gives. -/
def tagProtocol (r : Edit) : Nat := if bits (editWord r) 16 15 = 0 then 0x8100 else if bits (editWord r) 16 15 = 1 then 0x88A8 else 0x9100

theorem baseVal_placed {r : Edit} {b : Nat} (mark : b ≠ 4) : baseVal (placed r) b = baseVal r b := by
  unfold baseVal
  split
  case h_4 => exact absurd rfl mark
  all_goals rfl

theorem baseAbsent_placed {r : Edit} (b : Nat) : baseAbsent (placed r) b = baseAbsent r b := by
  unfold baseAbsent
  by_cases mark : b = 4
  · subst mark; rfl
  · rw [baseVal_placed mark]

/-- INSERT, REPLACE and COPY without a reserved operand write at most 32 bytes. -/
theorem editN_le {r : Edit} (op : editOp r = 0x01 ∨ editOp r = 0x03 ∨ editOp r = 0x05) (allowed : editReserved r = false) :
    editN (editWord r) ≤ 32 := by
  unfold editReserved at allowed
  rcases op with op | op | op <;> simp [op] at allowed <;> omega

/-! ## The effect of each instruction -/

section
variable {lim : Nat} {r : Edit} (present : baseAbsent r (bits (editWord r) 27 25) = false) (order : r.p ≤ editOffset r)
include present order

theorem runInsert_ends (data : r.word + srcWords r ≤ 15) (fits : editOffset r ≤ r.head.length) :
    runInsert lim r = ranOk lim (insHead (placed r) (editOffset r) (srcBytes r (editN (editWord r))))
      (1 + (editN (editWord r) + 7) / 8) (srcWords r) := by
  unfold runInsert
  extract_lets w n d
  rw [stdOp_runs (d := d) data present order]
  exact if_neg (Nat.not_lt.2 fits)

theorem runDelete_ends (data : r.word ≤ 15) (fits : editOffset r + (bits (editWord r) 16 9 + 1) ≤ r.head.length) :
    runDelete lim r = ranOk lim (delHead (placed r) (editOffset r) (bits (editWord r) 16 9 + 1)) 1 0 := by
  unfold runDelete
  extract_lets n
  rw [stdOp_runs (d := 0) data present order]
  exact if_neg (outside_of_le fits)

theorem runReplace_ends (data : r.word + srcWords r ≤ 15) (fits : editOffset r + editN (editWord r) ≤ r.head.length) :
    runReplace lim r = ranOk lim (putHead (placed r) (editOffset r) (srcBytes r (editN (editWord r))))
      (1 + (editN (editWord r) + 7) / 8) (srcWords r) := by
  unfold runReplace
  extract_lets w n d
  rw [stdOp_runs (d := d) data present order]
  exact if_neg (outside_of_le fits)

theorem runCopy_ends (data : r.word + 1 ≤ 15) (source : baseAbsent r (bits (dataWord r 0) 27 25) = false)
    (within : copyFrom r + editN (editWord r) ≤ r.head.length) (fits : editOffset r + editN (editWord r) ≤ r.head.length) :
    runCopy lim r = ranOk lim (putHead (placed r) (editOffset r) (headBytes r (copyFrom r) (editN (editWord r))))
      (1 + (editN (editWord r) + 7) / 8) 1 := by
  have from_ : baseVal (placed r) (bits (dataWord (placed r) 0) 27 25) + bits (dataWord (placed r) 0) 24 17 = copyFrom r := by
    unfold copyFrom
    congr 1
    split
    next here => rw [show dataWord (placed r) 0 = dataWord r 0 from rfl, here]; rfl
    next other => exact baseVal_placed other
  have present_ : baseAbsent (placed r) (bits (dataWord (placed r) 0) 27 25) = false := (baseAbsent_placed _).trans source
  unfold runCopy
  extract_lets n
  rw [stdOp_runs (d := 1) data present order]
  dsimp only
  rw [from_, present_, inHead_of_le (r := placed r) within, inHead_of_le (r := placed r) fits]
  rfl

theorem runPushTag_ends (data : r.word ≤ 15) (fits : editOffset r ≤ r.head.length) (protocol : bits (editWord r) 16 15 ≠ 3)
    (meta_ : bits (editWord r) 14 13 = 0) (plain : bit (editWord r) 12 = false) :
    runPushTag lim r = ranOk lim (insHead (placed r) (editOffset r) (bytesBE 2 (tagProtocol r) ++ bytesBE 2 (r.copy.md % 65536))) 3 0 := by
  unfold runPushTag
  extract_lets w tp tc d
  have none_ : d = 0 := if_neg (by simp [tp, tc, w, protocol, meta_])
  rw [stdOp_runs (d := d) (none_ ▸ data) present order, none_]
  refine (if_neg ?_).trans ?_
  · simp [tc, w, meta_, placed, fits]
  extract_lets tpid tci tci_
  have protocol_ : tpid = tagProtocol r := by
    have small : tp < 4 := Nat.mod_lt _ (by decide)
    have listed : tp = 0 ∨ tp = 1 ∨ tp = 2 := by
      have other : tp ≠ 3 := protocol
      omega
    unfold tpid tagProtocol
    rcases listed with here | here | here <;> simp only [here, show bits (editWord r) 16 15 = tp from rfl] <;> rfl
  have control : tci_ = r.copy.md % 65536 := by
    unfold tci_ tci
    rw [show bit w 12 = false from plain, show tc = 0 from meta_]
    rfl
  rw [protocol_, control]

/-- POP_TAG removes the tag that stands at its offset. -/
theorem runPopTag_removes (data : r.word ≤ 15) (fits : editOffset r + 4 ≤ r.head.length) (tag : editTpid (headNum r (editOffset r) 2) = true) :
    runPopTag lim r = ranOk lim (delHead (placed r) (editOffset r) 4) 2 0 := by
  unfold runPopTag
  rw [stdOp_runs (d := 0) data present order]
  calc _ = _ := if_neg (outside_of_le (r := placed r) (Nat.le_of_add_right_le (k := 2) fits))
    _ = _ := if_pos tag
    _ = _ := if_neg (outside_of_le (r := placed r) fits)

/-- Where no tag protocol stands, it does nothing. -/
theorem runPopTag_leaves (data : r.word ≤ 15) (fits : editOffset r + 4 ≤ r.head.length) (tag : ¬editTpid (headNum r (editOffset r) 2) = true) :
    runPopTag lim r = ranOk lim (placed r) 2 0 := by
  unfold runPopTag
  rw [stdOp_runs (d := 0) data present order]
  calc _ = _ := if_neg (outside_of_le (r := placed r) (Nat.le_of_add_right_le (k := 2) fits))
    _ = _ := if_neg tag

end

/-! ## The statement -/

theorem length_insHead (r : Edit) (o : Nat) (bs : List Byte) : (insHead r o bs).head.length = r.head.length + bs.length := by
  simp only [insHead, List.length_append, List.length_take, List.length_drop]
  omega

theorem length_delHead_le (r : Edit) (o n : Nat) : (delHead r o n).head.length ≤ r.head.length := by
  simp only [delHead, List.length_append, List.length_take, List.length_drop]
  omega

/-- Settles O28: each instruction runs to its end within the limits of R366, and its routine's edit is the one that R361 gives. -/
theorem editsInsertAndDelete : Obligations.EditsInsertAndDelete := by
  unfold Obligations.EditsInsertAndDelete
  intro s c e r run going moving calm library clear allowed present grown w o order passes gave data n
  have h : Running s c e r := ⟨run, going, moving, calm, clear⟩
  have short (few : editN (editWord r) ≤ 32) : 1 + (editN (editWord r) + 7) / 8 ≤ s.instrLimit := le_instrLimit s (by omega)
  refine ⟨?insert, ?delete, ?replace, ?copy, ?push, ?pop⟩
  case insert =>
    intro opcode fits room words
    refine h.edits library allowed opcode (runInsert_ends present order words fits) (short (editN_le (.inl opcode) allowed)) ?_ passes fun _ => ?_
    · rw [length_insHead, length_srcBytes]
      exact room
    · simp only [insHead, length_srcBytes]
      exact ⟨rfl, rfl, rfl, rfl, rfl, rfl⟩
  case delete =>
    intro opcode fits
    refine h.edits library allowed opcode (runDelete_ends present order (word_le_of_editOp (by omega)) fits) (le_instrLimit s (by omega))
      ((length_delHead_le ..).trans grown) passes fun _ => ⟨rfl, rfl, rfl, rfl⟩
  case replace =>
    intro opcode fits words
    refine h.edits library allowed opcode (runReplace_ends present order words fits) (short (editN_le (.inr (.inl opcode)) allowed)) ?_ passes
      fun _ => ⟨?_, rfl, rfl, rfl⟩
    · rw [putHead_length (r := placed r) (by rw [length_srcBytes]; exact fits)]
      exact grown
    · simp only [putHead, length_srcBytes]
      rfl
  case copy =>
    intro opcode fits words dw from_ source within
    have length : (headBytes r (copyFrom r) (editN (editWord r))).length = editN (editWord r) := by
      have source_ : copyFrom r + editN (editWord r) ≤ r.head.length := within
      rw [headBytes, List.length_take, List.length_drop]
      omega
    refine h.edits library allowed opcode (runCopy_ends present order words source within fits)
      (short (editN_le (.inr (.inr opcode)) allowed)) ?_ passes fun _ => ⟨?_, rfl, rfl, rfl⟩
    · rw [putHead_length (r := placed r) (by rw [length]; exact fits)]
      exact grown
    · simp only [putHead, length]
      rfl
  case push =>
    intro opcode protocol control plain fits room
    refine h.edits library allowed opcode (runPushTag_ends present order (word_le_of_editOp (by omega)) fits protocol control plain)
      (le_instrLimit s (by decide)) ?_ passes fun _ => ⟨?_, rfl, rfl, trivial⟩
    · rw [length_insHead, List.length_append, length_bytesBE, length_bytesBE]
      exact room
    · exact congrArg (· ++ r.head.drop o) (List.append_assoc ..).symm
  case pop =>
    intro opcode fits
    have word : r.word ≤ 15 := word_le_of_editOp (by omega)
    by_cases tag : editTpid (headNum r o 2) = true
    · exact h.edits library allowed opcode (runPopTag_removes present order word fits tag) (le_instrLimit s (by decide))
        ((length_delHead_le ..).trans grown) passes fun _ => ⟨(if_pos tag).symm, rfl, rfl, trivial⟩
    · exact h.edits library allowed opcode (runPopTag_leaves present order word fits tag) (le_instrLimit s (by decide)) grown passes
        fun _ => ⟨(if_neg tag).symm, rfl, rfl, trivial⟩

end Sys2Proof.Machine
end

section
/-! PROOFS. Instructions that set fields of the edited head (R361): bits, checksums, hop limits, priorities and code points, which settle O29. -/

namespace Sys2Proof.Machine

theorem bits_lt (v hi lo : Nat) : bits v hi lo < 2 ^ (hi + 1 - lo) := Nat.mod_lt _ (Nat.two_pow_pos _)

theorem onesAdd_lt (a b : Nat) : onesAdd a b < 2 ^ 16 := by
  unfold onesAdd
  dsimp only
  split <;> omega

/-- The edit once the bytes below an offset have passed (R363). -/
def passedTo (r : Edit) (o : Nat) : Edit := { r with p := o }

/-! ## SET and CSUM -/

/-- The value that SET writes. -/
def setValue (r : Edit) : Nat :=
  match bits (editWord r) 8 7 with
  | 0 => r.copy.md
  | 1 => dataWord r 0
  | 2 => r.copy.cls
  | _ => r.copy.colour

/-- The data word that SET takes its value from, where it does. -/
def setWords (r : Edit) : Nat := if bits (editWord r) 8 7 = 1 then 1 else 0

section
variable {lim : Nat} {r : Edit} (present : baseAbsent r (bits (editWord r) 27 25) = false) (order : r.p ≤ editOffset r)
include present order

theorem runSet_ends (data : r.word + setWords r ≤ 15)
    (fits : editOffset r + (bits (editWord r) 11 9 + (bits (editWord r) 16 12 + 1) + 7) / 8 ≤ r.head.length) :
    runSet lim r = ranOk lim (putBits (placed r) (editOffset r) (bits (editWord r) 11 9) (bits (editWord r) 16 12 + 1) (setValue r)) 2
      (setWords r) := by
  unfold runSet
  extract_lets w wd b d
  rw [stdOp_runs (d := d) data present order]
  exact if_neg (outside_of_le (r := placed r) fits)

theorem runCsum_zero (data : r.word ≤ 15) (fits : editOffset r + 2 ≤ r.head.length) (zero : bits (editWord r) 16 15 = 1) :
    runCsum lim r = ranOk lim (putHead (placed r) (editOffset r) (bytesBE 2 0)) 1 0 := by
  unfold runCsum
  rw [stdOp_runs (d := 0) data present order]
  calc _ = _ := if_neg (outside_of_le (r := placed r) fits)
    _ = _ := if_pos zero

theorem runCsum_header (data : r.word ≤ 15) (fits : editOffset r + 2 ≤ r.head.length) (header : bits (editWord r) 16 15 = 0) (mark : r.l3 ≠ 0)
    (first : r.l3 + 1 ≤ r.head.length) (whole : r.l3 + 4 * (headNum r r.l3 1 % 16) ≤ r.head.length) :
    runCsum lim r = ranOk lim (putHead (placed r) (editOffset r) (bytesBE 2 (ipChecksum r))) (3 + (headNum r r.l3 1 % 16 + 1) / 2) 0 := by
  have computed : ¬bits (editWord r) 16 15 = 1 := by omega
  unfold runCsum
  rw [stdOp_runs (d := 0) data present order]
  calc _ = _ := if_neg (outside_of_le (r := placed r) fits)
    _ = _ := if_neg computed
    _ = _ := if_neg fun outside => by
      rcases outside with absent | byte | words
      · exact mark absent
      · exact outside_of_le (r := placed r) first byte
      · exact outside_of_le (r := placed r) whole words

/-! ## SET_PCP -/

/-- The priority that SET_PCP writes. -/
def pcpValue (r : Edit) : Nat :=
  if bit (editWord r) 16 then bits (dataWord r 0) (3 * r.copy.cls + 2) (3 * r.copy.cls) else r.copy.cls

/-- The head with the priority in the tag at the instruction's offset. -/
def withPcp (r : Edit) : Edit := putBits (placed r) (editOffset r + 2) 0 3 (pcpValue r)

/-- The head that SET_PCP leaves where a tag stands: the priority, and the colour in the tag's DEI where the instruction asks for it. -/
def pcpHead (r : Edit) : List Byte :=
  if bit (editWord r) 15 then (putBits (withPcp r) (editOffset r + 2) 3 1 (if r.copy.colour = 0 then 0 else 1)).head else (withPcp r).head

omit present order in
theorem pcpHead_eq (r : Edit) :
    (if bit (editWord r) 15 then putBits (withPcp r) (editOffset r + 2) 3 1 (if r.copy.colour = 0 then 0 else 1) else withPcp r) =
      { placed r with head := pcpHead r } := by
  unfold pcpHead
  split <;> rfl

theorem runSetPcp_tag (data : r.word + (if bit (editWord r) 16 then 1 else 0) ≤ 15) (fits : editOffset r + 4 ≤ r.head.length)
    (tag : editTpid (headNum r (editOffset r) 2) = true) :
    runSetPcp lim r = ranOk lim { placed r with head := pcpHead r } 2 (if bit (editWord r) 16 then 1 else 0) := by
  unfold runSetPcp
  extract_lets w d
  rw [stdOp_runs (d := d) data present order]
  calc _ = _ := if_neg (outside_of_le (r := placed r) (Nat.le_of_add_right_le (k := 2) fits))
    _ = _ := if_pos tag
    _ = _ := if_neg (outside_of_le (r := placed r) fits)
    _ = _ := congrArg (ranOk lim · 2 d) (pcpHead_eq r)

theorem runSetPcp_leaves (data : r.word + (if bit (editWord r) 16 then 1 else 0) ≤ 15) (fits : editOffset r + 4 ≤ r.head.length)
    (tag : ¬editTpid (headNum r (editOffset r) 2) = true) :
    runSetPcp lim r = ranOk lim (placed r) 2 (if bit (editWord r) 16 then 1 else 0) := by
  unfold runSetPcp
  extract_lets w d
  rw [stdOp_runs (d := d) data present order]
  calc _ = _ := if_neg (outside_of_le (r := placed r) (Nat.le_of_add_right_le (k := 2) fits))
    _ = _ := if_neg tag

end

theorem pcpValue_lt {r : Edit} (class_ : r.copy.cls < 8) : pcpValue r < 8 := by
  unfold pcpValue
  split
  · have small := bits_lt (dataWord r 0) (3 * r.copy.cls + 2) (3 * r.copy.cls)
    rwa [show 3 * r.copy.cls + 2 + 1 - 3 * r.copy.cls = 3 by omega] at small
  · exact class_

/-- SET_PCP writes the byte with the tag's priority only, and the priority into it. -/
theorem pcpHead_tag {r : Edit} (fits : editOffset r + 4 ≤ r.head.length) (class_ : r.copy.cls < 8) :
    HeadOnly (editOffset r + 2) 1 r { placed r with head := pcpHead r } ∧
      headNum { placed r with head := pcpHead r } (editOffset r + 2) 1 / 32 = pcpValue r := by
  have byte : editOffset r + 2 + (0 + 3 + 7) / 8 ≤ (placed r).head.length := by
    show editOffset r + 2 + 1 ≤ r.head.length
    omega
  have put : HeadOnly (editOffset r + 2) 1 r (withPcp r) := (putBits_only (b := 0) (w := 3) byte).of_head rfl
  have priority : headNum (withPcp r) (editOffset r + 2) 1 / 32 = pcpValue r := by
    have field : headNum (withPcp r) (editOffset r + 2) 1 / 2 ^ 5 % 2 ^ 3 = pcpValue r % 2 ^ 3 := (putBits_field (b := 0) (w := 3) byte).field
    have small := headNum_lt (withPcp r) (editOffset r + 2) 1
    have value := pcpValue_lt class_
    omega
  unfold pcpHead
  split
  · have byte_ : editOffset r + 2 + (3 + 1 + 7) / 8 ≤ (withPcp r).head.length := by rw [put.length]; omega
    have colour := putBits_only (b := 3) (w := 1) (v := if r.copy.colour = 0 then 0 else 1) byte_
    have above := (putBits_field (b := 3) (w := 1) (v := if r.copy.colour = 0 then 0 else 1) byte_).above
    exact ⟨(put.trans colour).to_head rfl, above.trans priority⟩
  · exact ⟨put.to_head rfl, priority⟩

/-! ## TTL -/

/-- The head after TTL has taken one from an IPv4 time to live and updated the header checksum for it. -/
def withTtl (r : Edit) : Edit :=
  putHead (putHead (passedTo r (r.l3 + 8)) (r.l3 + 8) (bytesBE 1 (headNum r (r.l3 + 8) 1 - 1))) (r.l3 + 10)
    (bytesBE 2 (onesAdd (headNum r (r.l3 + 10) 2) 0x0100))

section
variable {lim : Nat} {r : Edit}

theorem runTtl_v4 (four : isV4 r = true) (order : r.p ≤ r.l3 + 8) (fits : r.l3 + 12 ≤ r.head.length) (alive : headNum r (r.l3 + 8) 1 ≠ 0) :
    runTtl lim r = ranOk lim (withTtl r) 4 0 := by
  unfold runTtl
  rw [if_pos four, atOffset_runs order]
  calc _ = _ := if_neg (outside_of_le (r := passedTo r (r.l3 + 8)) fits)
    _ = _ := if_neg alive

theorem runTtl_dead (four : isV4 r = true) (order : r.p ≤ r.l3 + 8) (fits : r.l3 + 12 ≤ r.head.length) (dead : headNum r (r.l3 + 8) 1 = 0) :
    runTtl lim r = ranOk lim (passedTo r (r.l3 + 8)) 3 0 := by
  unfold runTtl
  rw [if_pos four, atOffset_runs order]
  calc _ = _ := if_neg (outside_of_le (r := passedTo r (r.l3 + 8)) fits)
    _ = _ := if_pos dead

theorem runTtl_v6 (four : isV4 r = false) (six : isV6 r = true) (order : r.p ≤ r.l3 + 7) (fits : r.l3 + 8 ≤ r.head.length) :
    runTtl lim r = ranOk lim (putHead (passedTo r (r.l3 + 7)) (r.l3 + 7) (bytesBE 1 (headNum r (r.l3 + 7) 1 - 1))) 2 0 := by
  unfold runTtl
  rw [four, if_neg Bool.false_ne_true, if_pos six, atOffset_runs order]
  exact if_neg (outside_of_le (r := passedTo r (r.l3 + 7)) fits)

/-- A byte that has lost one reads as one less. -/
theorem headNum_decremented {o : Nat} (fits : o + 1 ≤ r.head.length) :
    headNum (putHead (passedTo r o) o (bytesBE 1 (headNum r o 1 - 1))) o 1 = headNum r o 1 - 1 := by
  have byte := headNum_lt r o 1
  rw [headNum_putNum (e := passedTo r o) fits, Nat.mod_eq_of_lt (by omega)]

theorem withTtl_head (fits : r.l3 + 12 ≤ r.head.length) :
    HeadOnly (r.l3 + 8) 4 r (withTtl r) ∧ headNum (withTtl r) (r.l3 + 8) 1 = headNum r (r.l3 + 8) 1 - 1 ∧
      headNum (withTtl r) (r.l3 + 9) 1 = headNum r (r.l3 + 9) 1 ∧
      headNum (withTtl r) (r.l3 + 10) 2 = onesAdd (headNum r (r.l3 + 10) 2) 0x0100 := by
  have ttl : HeadOnly (r.l3 + 8) 1 r (putHead (passedTo r (r.l3 + 8)) (r.l3 + 8) (bytesBE 1 (headNum r (r.l3 + 8) 1 - 1))) :=
    (putNum_only (e := passedTo r (r.l3 + 8)) (by show r.l3 + 8 + 1 ≤ r.head.length; omega)).of_head rfl
  have word : r.l3 + 10 + 2 ≤ (putHead (passedTo r (r.l3 + 8)) (r.l3 + 8) (bytesBE 1 (headNum r (r.l3 + 8) 1 - 1))).head.length := by
    rw [ttl.length]; omega
  have sum : HeadOnly (r.l3 + 10) 2 _ (withTtl r) := putNum_only word
  refine ⟨(ttl.mono (by omega) (by omega)).trans (sum.mono (by omega) (by omega)), ?_, ?_, ?_⟩
  · rw [sum.headNum (.inl (by omega)), headNum_decremented (by omega)]
  · rw [sum.headNum (.inl (by omega)), ttl.headNum (.inr (by omega))]
  · exact (headNum_putNum word).trans (Nat.mod_eq_of_lt (onesAdd_lt _ _))

/-! ## SET_DSCP -/

/-- The head with an IPv4 code point set. -/
def withDscp (r : Edit) : Edit := putBits (passedTo r (r.l3 + 1)) (r.l3 + 1) 0 6 (bits (editWord r) 16 11)

/-- The head after SET_DSCP on IPv4: the code point, and the header checksum updated for it. -/
def withDscpSum (r : Edit) : Edit :=
  putHead (withDscp r) (r.l3 + 10) (bytesBE 2 (csumUpdate (headNum r (r.l3 + 10) 2) (headNum r r.l3 2) (headNum (withDscp r) r.l3 2)))

theorem runSetDscp_v4 (four : isV4 r = true) (order : r.p ≤ r.l3 + 1) (fits : r.l3 + 12 ≤ r.head.length) :
    runSetDscp lim r = ranOk lim (withDscpSum r) 4 0 := by
  unfold runSetDscp
  extract_lets ds
  rw [if_pos four, atOffset_runs order]
  exact if_neg (outside_of_le (r := passedTo r (r.l3 + 1)) fits)

theorem runSetDscp_v6 (four : isV4 r = false) (six : isV6 r = true) (order : r.p ≤ r.l3) (fits : r.l3 + 2 ≤ r.head.length) :
    runSetDscp lim r = ranOk lim (putBits (passedTo r r.l3) r.l3 4 6 (bits (editWord r) 16 11)) 2 0 := by
  unfold runSetDscp
  extract_lets ds
  rw [four, if_neg Bool.false_ne_true, if_pos six, atOffset_runs order]
  exact if_neg (outside_of_le (r := passedTo r r.l3) fits)

/-- On IPv4, SET_DSCP writes the code point's byte and the header checksum only, and the code point into its byte. -/
theorem withDscpSum_head (fits : r.l3 + 12 ≤ r.head.length) :
    (withDscpSum r).head.length = r.head.length ∧
      headNum (withDscpSum r) (r.l3 + 1) 1 = bits (editWord r) 16 11 * 4 + headNum r (r.l3 + 1) 1 % 4 ∧
      ∀ i, i ≠ r.l3 + 1 → i ≠ r.l3 + 10 → i ≠ r.l3 + 11 → (withDscpSum r).head[i]? = r.head[i]? := by
  have byte : r.l3 + 1 + (0 + 6 + 7) / 8 ≤ (passedTo r (r.l3 + 1)).head.length := by
    show r.l3 + 1 + 1 ≤ r.head.length
    omega
  have point : HeadOnly (r.l3 + 1) 1 r (withDscp r) := (putBits_only (b := 0) (w := 6) byte).of_head rfl
  have sum : HeadOnly (r.l3 + 10) 2 (withDscp r) (withDscpSum r) := putNum_only (by rw [point.length]; omega)
  refine ⟨sum.length.trans point.length, ?_, fun i off sum0 sum1 => (sum.outside i (by omega)).trans (point.outside i (by omega))⟩
  have put := putBits_field (b := 0) (w := 6) (v := bits (editWord r) 16 11) byte
  have field : headNum (withDscp r) (r.l3 + 1) 1 / 2 ^ 2 % 2 ^ 6 = bits (editWord r) 16 11 % 2 ^ 6 := put.field
  have below : headNum (withDscp r) (r.l3 + 1) 1 % 2 ^ 2 = headNum r (r.l3 + 1) 1 % 2 ^ 2 := put.below
  have small := headNum_lt (withDscp r) (r.l3 + 1) 1
  have value : bits (editWord r) 16 11 < 2 ^ 6 := bits_lt _ _ _
  rw [sum.headNum (.inl (by omega))]
  omega

end

/-! ## The statement -/

/-- Settles O29: each instruction runs to its end within the limits of R366 and overwrites bytes within the head, of which what it writes is read
back. -/
theorem editsChangeFields : Obligations.EditsChangeFields := by
  unfold Obligations.EditsChangeFields
  intro s c e r run going moving calm library clear allowed grown w o based reach gave only
  have h : Running s c e r := ⟨run, going, moving, calm, clear⟩
  have short {m : Nat} (few : m ≤ 8) : m ≤ s.instrLimit := le_instrLimit s few
  have small {x : Edit} {a n : Nat} (put : HeadOnly a n r x) (same : x.orig = r.orig) : x.head.length ≤ x.orig + 128 := by
    rw [put.length, same]
    exact grown
  refine ⟨?set, ?zero, ?header, ?pcp, ?ttl, ?dead, ?hops, ?dscp, ?traffic⟩
  case set =>
    rintro opcode ⟨present, order, passes⟩ wd b nb d v fits words
    have put : HeadOnly o nb r (putBits (placed r) o b wd v) := (putBits_only (e := placed r) fits).of_head rfl
    obtain ⟨field, below, above⟩ := putBits_field (e := placed r) (b := b) (w := wd) (v := v) fits
    have top : 8 * nb - b - wd + wd = 8 * nb - b := by omega
    rw [top] at above
    exact h.edits library allowed opcode (runSet_ends present order words fits) (short (by decide)) (small put rfl) passes
      fun _ => ⟨put.length, rfl, put.outside, field, below, above⟩
  case zero =>
    rintro opcode ⟨present, order, passes⟩ fits zero
    have put : HeadOnly o 2 r (putHead (placed r) o (bytesBE 2 0)) := (putNum_only (e := placed r) fits).of_head rfl
    exact h.edits library allowed opcode (runCsum_zero present order (word_le_of_editOp (by omega)) fits zero) (short (by decide))
      (small put rfl) passes fun _ => ⟨put.length, rfl, headNum_putNum (e := placed r) fits, put.outside⟩
  case header =>
    rintro opcode ⟨present, order, passes⟩ fits computed mark ihl first whole few
    have put : HeadOnly o 2 r (putHead (placed r) o (bytesBE 2 (ipChecksum r))) := (putNum_only (e := placed r) fits).of_head rfl
    have word : ipChecksum r < 2 ^ 16 := Nat.lt_succ_of_le (Nat.sub_le ..)
    exact h.edits library allowed opcode (runCsum_header present order (word_le_of_editOp (by omega)) fits computed mark first whole) few
      (small put rfl) passes
      fun _ => ⟨put.length, rfl, (headNum_putNum (e := placed r) fits).trans (Nat.mod_eq_of_lt word), put.outside⟩
  case pcp =>
    rintro opcode ⟨present, order, passes⟩ fits words class_
    by_cases tag : editTpid (headNum r o 2) = true
    · obtain ⟨put, priority⟩ := pcpHead_tag (r := r) fits class_
      exact h.edits library allowed opcode (runSetPcp_tag present order words fits tag) (short (by decide)) (small put rfl) passes
        fun _ => ⟨put.length, rfl, put.outside, fun _ => priority, fun untagged => absurd (tag.symm.trans untagged) (by decide)⟩
    · exact h.edits library allowed opcode (runSetPcp_leaves present order words fits tag) (short (by decide)) grown passes
        fun _ => ⟨rfl, rfl, fun _ _ => rfl, fun tagged => absurd tagged tag, fun _ => rfl⟩
  case ttl =>
    rintro opcode four ⟨order, passes⟩ fits alive
    obtain ⟨put, hops, protocol, sum⟩ := withTtl_head fits
    exact h.edits library allowed opcode (runTtl_v4 four order fits alive) (short (by decide)) (small put rfl) passes
      fun _ => ⟨put.length, rfl, hops, protocol, sum, put.outside⟩
  case dead =>
    rintro opcode four ⟨order, passes⟩ fits dead
    exact h.edits library allowed opcode (runTtl_dead four order fits dead) (short (by decide)) grown passes fun _ => ⟨rfl, rfl, rfl⟩
  case hops =>
    rintro opcode four six ⟨order, passes⟩ fits
    have put : HeadOnly (r.l3 + 7) 1 r (putHead (passedTo r (r.l3 + 7)) (r.l3 + 7) (bytesBE 1 (headNum r (r.l3 + 7) 1 - 1))) :=
      (putNum_only (e := passedTo r (r.l3 + 7)) (o := r.l3 + 7) (n := 1) fits).of_head rfl
    exact h.edits library allowed opcode (runTtl_v6 four six order fits) (short (by decide)) (small put rfl) passes
      fun _ => ⟨put.length, rfl, headNum_decremented fits, put.outside⟩
  case dscp =>
    rintro opcode four ⟨order, passes⟩ fits
    obtain ⟨length, point, outside⟩ := withDscpSum_head fits
    exact h.edits library allowed opcode (runSetDscp_v4 four order fits) (short (by decide)) (length.trans_le grown) passes
      fun _ => ⟨length, rfl, point, outside⟩
  case traffic =>
    rintro opcode four six ⟨order, passes⟩ fits
    have put : HeadOnly r.l3 2 r (putBits (passedTo r r.l3) r.l3 4 6 (bits w 16 11)) :=
      (putBits_only (e := passedTo r r.l3) (b := 4) (w := 6) fits).of_head rfl
    have field := (putBits_field (e := passedTo r r.l3) (b := 4) (w := 6) (v := bits w 16 11) fits).field
    have value : bits w 16 11 < 2 ^ 6 := bits_lt _ _ _
    exact h.edits library allowed opcode (runSetDscp_v6 four six order fits) (short (by decide)) (small put rfl) passes
      fun _ => ⟨put.length, rfl, field.trans (Nat.mod_eq_of_lt value), put.outside⟩

end Sys2Proof.Machine
end

section
/-! PROOFS. What a copy that leaves the device changes (R275, R521, R526, R532, R605): registers, faults, frames, buffers, records and traces, and of
what is kept of a port the window in which its PAUSE and PFC frames are due. -/

namespace Sys2Proof.Machine

/-! ## The relation -/

/-- What is kept of a port, beside the window in which its entries to and exits from XOFF share one frame (R140). -/
def portSends (p : PortSt) : PortSt := { p with ctlDue := none, ctlMask := 0 }

/-- From `s` to `t`, nothing has changed but what a copy that leaves changes. -/
structure CopyLeft (s t : State) : Prop where
  rest : t =
    { s with
      regs := t.regs, ports := t.ports, flt := t.flt, frames := t.frames, bufs := t.bufs, threads := t.threads, chans := t.chans
      hostMem := t.hostMem, msix := t.msix, expUsed := t.expUsed, hdrmUsed := t.hdrmUsed, trace := t.trace, balance := t.balance
      twin := t.twin }
  sends : ∀ p, portSends (t.port p) = portSends (s.port p)

namespace CopyLeft

variable {s t u : State}

theorem refl (s : State) : CopyLeft s s := ⟨rfl, fun _ => rfl⟩

theorem trans (h : CopyLeft s t) (k : CopyLeft t u) : CopyLeft s u :=
  ⟨by rw [k.rest, h.rest], fun p => (k.sends p).trans (h.sends p)⟩

theorem ite {c : Prop} [Decidable c] (h : CopyLeft s t) (k : CopyLeft s u) : CopyLeft s (if c then t else u) := by
  split
  · exact h
  · exact k

theorem foldl {α : Type} {f : State → α → State} (h : CopyLeft s t) (step : ∀ u x, CopyLeft u (f u x)) (l : List α) :
    CopyLeft s (l.foldl f t) :=
  h.trans (foldl_rel refl trans step l t)

theorem eng (h : CopyLeft s t) (c e : Nat) : t.eng c e = s.eng c e := by
  rw [h.rest]
  rfl

theorem now (h : CopyLeft s t) : t.time = s.time := by rw [h.rest]

theorem lastTx (h : CopyLeft s t) (p : Nat) : (t.port p).lastTx = (s.port p).lastTx :=
  show (portSends (t.port p)).lastTx = (portSends (s.port p)).lastTx from congrArg PortSt.lastTx (h.sends p)

theorem lastEnd (h : CopyLeft s t) (p : Nat) : (t.port p).lastEnd = (s.port p).lastEnd :=
  show (portSends (t.port p)).lastEnd = (portSends (s.port p)).lastEnd from congrArg PortSt.lastEnd (h.sends p)

theorem ctlWait (h : CopyLeft s t) (p : Nat) : (t.port p).ctlWait = (s.port p).ctlWait :=
  show (portSends (t.port p)).ctlWait = (portSends (s.port p)).ctlWait from congrArg PortSt.ctlWait (h.sends p)

/-! ## Registers and records -/

theorem wr (h : CopyLeft s t) {r : Reg} {c i : Nat} {v : RegVal} : CopyLeft s (t.wr r c i v) := h.trans ⟨rfl, fun _ => rfl⟩
theorem fset (h : CopyLeft s t) {f : Fld} {c i n : Nat} : CopyLeft s (t.fset f c i n) := h.wr
theorem bump (h : CopyLeft s t) {f : Fld} {c i n : Nat} : CopyLeft s (t.bump f c i n) := h.wr
theorem bumpSat (h : CopyLeft s t) {f : Fld} {c i n : Nat} : CopyLeft s (t.bumpSat f c i n) := h.wr
theorem drop (h : CopyLeft s t) {f : Fld} {c i n : Nat} : CopyLeft s (t.drop f c i n) := h.wr
theorem flt (h : CopyLeft s t) {x : FaultSt} : CopyLeft s { t with flt := x } := h.trans ⟨rfl, fun _ => rfl⟩
theorem setBuf (h : CopyLeft s t) {n : Nat} {b : Buf} : CopyLeft s (t.setBuf n b) := h.trans ⟨rfl, fun _ => rfl⟩
theorem modThr (h : CopyLeft s t) {n : Nat} {g : Thread → Thread} : CopyLeft s (t.modThr n g) := h.trans ⟨rfl, fun _ => rfl⟩
theorem balAdd (h : CopyLeft s t) {p i n : Nat} : CopyLeft s (t.balAdd p i n) := h.trans ⟨rfl, fun _ => rfl⟩

theorem sent (h : CopyLeft s t) (k : sentOnly t u) : CopyLeft s u := by
  obtain ⟨⟨_, _, _, _, rfl⟩, -⟩ := k
  exact h.trans ⟨rfl, fun _ => rfl⟩

theorem emitPart (h : CopyLeft s t) {p cls : Nat} {r : Record} : CopyLeft s (t.emitPart p cls r) := h.sent (emitPart_sentOnly ..)
theorem emitBoth (h : CopyLeft s t) {p cls : Nat} {r : Record} : CopyLeft s (t.emitBoth p cls r) := h.sent (emitBoth_sentOnly ..)

theorem modPort (h : CopyLeft s t) {p : Nat} {g : PortSt → PortSt} (keeps : ∀ x, portSends (g x) = portSends x) : CopyLeft s (t.modPort p g) := by
  refine h.trans ⟨rfl, fun q => ?_⟩
  unfold State.port State.modPort
  rw [tabGet_mod]
  split
  next here => rw [here]; exact keeps _
  next => rfl

/-! ## Faults and the tailings log (R531–R538) -/

theorem tailAppend (h : CopyLeft s t) {ws : List Nat} {graver : Bool} : CopyLeft s (t.tailAppend ws graver) := by
  unfold State.tailAppend
  refine .ite (.bumpSat h) ?_
  extract_lets tail _ entered counted
  have logged : CopyLeft s counted := .fset (.flt h)
  exact .ite (.fset logged) logged

theorem mergeFault (h : CopyLeft s t) {f : FaultRec} {cause unit cls : Nat} : CopyLeft s (t.mergeFault f cause unit cls) := by
  unfold State.mergeFault
  extract_lets g old new _ merged held counted overflowed frozen
  have recorded : CopyLeft s counted := .bump (.flt h)
  have full : CopyLeft s overflowed := .ite (.bump (.fset recorded)) recorded
  exact .fset (.emitBoth (.ite (.fset full) full))

theorem openFault (h : CopyLeft s t) {f : FaultRec} : CopyLeft s (t.openFault f) := by
  unfold State.openFault
  extract_lets slot g _ listed counted overflowed recorded logged
  have entered : CopyLeft s counted := .bump (.ite (.flt h) h)
  have full : CopyLeft s overflowed := .ite (.bump (.fset entered)) entered
  exact .fset (.tailAppend (.emitBoth full))

theorem raise (h : CopyLeft s t) {f : FaultRec} : CopyLeft s (t.raise f) := by
  unfold State.raise
  split
  · exact .mergeFault h
  · exact .openFault h

theorem fenceUnit (h : CopyLeft s t) {n : Nat} : CopyLeft s (t.fenceUnit n) := by
  unfold State.fenceUnit
  have halted : CopyLeft s (t.fset F.DMA_CH_STATUS.state (n - 0xB00) 0 6) := .fset h
  exact .ite (.ite (.fset h) h) (.ite (halted.trans ⟨rfl, fun _ => rfl⟩) (.flt h))

/-! ## Buffers (R140, R270–R277) -/

theorem uncharge (h : CopyLeft s t) {a : Acct} {n : Nat} : CopyLeft s (t.uncharge a n) := by
  cases a with
  | none => exact h
  | ingGen => exact .drop (.drop h)
  | ingExp p =>
    have taken : CopyLeft s ((t.drop F.BPM_PORTUSE.units 0 p n).drop F.BPM_ACCT.used 0 1 n) := .drop (.drop h)
    exact taken.trans ⟨rfl, fun _ => rfl⟩
  | hdrm => exact h.trans ⟨rfl, fun _ => rfl⟩
  | quota => exact .drop h
  | common => exact .drop (.drop h)

theorem setXoff (h : CopyLeft s t) {p c : Nat} {on : Bool} : CopyLeft s (t.setXoff p c on) :=
  .ite (.modPort (.fset h) fun _ => rfl) (.fset h)

theorem pfcCount (h : CopyLeft s t) {p c n : Nat} {up : Bool} : CopyLeft s (t.pfcCount p c up n) := by
  unfold State.pfcCount
  extract_lets counted
  have kept : CopyLeft s counted := .ite (.bumpSat h) (.drop h)
  exact .ite (.ite (.setXoff kept) kept) (.ite (.setXoff kept) (.ite (.setXoff kept) kept))

theorem leaveWindows (h : CopyLeft s t) {b : Nat} {keeps : Nat → Bool} : CopyLeft s (t.leaveWindows b keeps) :=
  .foldl h (fun u _ => .modThr (.refl u)) _

theorem freeBuf (h : CopyLeft s t) {b : Nat} : CopyLeft s (t.freeBuf b) := by
  unfold State.freeBuf
  split
  · exact h
  · extract_lets n left _ marked
    have erased : CopyLeft s { t with bufs := tabErase t.bufs b } := h.trans ⟨rfl, fun _ => rfl⟩
    have kept : CopyLeft s left := .bump (.uncharge (.leaveWindows erased))
    have withdrawn : CopyLeft s marked := .ite (.flt kept) kept
    split
    · exact .pfcCount withdrawn
    · exact withdrawn

theorem refuseOp (h : CopyLeft s t) {p status : Nat} : CopyLeft s (t.refuseOp p status) := by
  unfold State.refuseOp
  split
  · exact .bump h
  · exact h

theorem opEffect (h : CopyLeft s t) {unit op n arg : Nat} {b : Buf} : CopyLeft s (t.opEffect unit op n arg b) := by
  unfold State.opEffect
  split
  · exact .bump (.setBuf h)
  · exact .bump (.setBuf h)
  · exact .freeBuf h
  · exact .leaveWindows (.setBuf h)
  · exact .emitBoth (.bump (.drop (.freeBuf (.setBuf h))))
  · exact .ite (.bump (.setBuf h)) (.ite h (.freeBuf (.setBuf h)))
  · exact h

theorem bpmOp (h : CopyLeft s t) {unit p op n arg : Nat} : CopyLeft s (t.bpmOp unit p op n arg).2 := by
  unfold State.bpmOp
  split
  · exact .raise (.fenceUnit (.emitBoth (.wr (.bump h))))
  · split
    · exact refuseOp (p := p) (status := 3) h
    · extract_lets status refused
      have kept : CopyLeft s refused := .refuseOp h
      split
      · exact .opEffect h
      · split
        · exact .ite kept (.emitBoth (.bump (.bump (.setBuf kept))))
        · exact kept

theorem leave (h : CopyLeft s t) {p b : Nat} : CopyLeft s (t.leave p b) := .bpmOp h

/-! ## Traces and frames (R26, R68, R526) -/

theorem traceClose (h : CopyLeft s t) {n : Nat} : CopyLeft s (t.traceClose n) := by
  unfold State.traceClose
  split
  · exact .ite (h.trans ⟨rfl, fun _ => rfl⟩) h
  · exact h

theorem modTrace (h : CopyLeft s t) {n : Nat} {g : TraceSt → TraceSt} : CopyLeft s (t.modTrace n g) := by
  unfold State.modTrace
  split
  · exact h.trans ⟨rfl, fun _ => rfl⟩
  · exact h

theorem traceTx (h : CopyLeft s t) {c : Copy} {kind outcome : Nat} {last : Option Nat} : CopyLeft s (t.traceTx c kind outcome last) := by
  unfold State.traceTx
  split
  · exact h
  · exact .traceClose (.modTrace (.emitPart h))

theorem frameGone (h : CopyLeft s t) {id : Nat} : CopyLeft s (t.frameGone id) := by
  have erased : CopyLeft s { t with frames := tabErase t.frames id } := h.trans ⟨rfl, fun _ => rfl⟩
  unfold State.frameGone State.refreshOld
  extract_lets n counted
  have kept : CopyLeft s counted := .fset erased
  exact .ite erased (.ite (.emitPart (.fset kept)) kept)

theorem modFrame (h : CopyLeft s t) {id : Nat} {g : Frame → Frame} : CopyLeft s (t.modFrame id g) := by
  unfold State.modFrame
  split
  · exact h.trans ⟨rfl, fun _ => rfl⟩
  · exact h

theorem copyGone (h : CopyLeft s t) {c : Copy} : CopyLeft s (t.copyGone c) := by
  unfold State.copyGone
  split
  · exact .ite (.frameGone h) (.modFrame h)
  · exact h

theorem dropCopy (h : CopyLeft s t) {c : Copy} {balance outcome : Nat} : CopyLeft s (t.dropCopy c balance outcome) :=
  .copyGone (.traceTx (.balAdd (.leave h)))

/-! ## Copies that are sent (R350, R520, R605) -/

theorem countSent (h : CopyLeft s t) {x : TxCopy} : CopyLeft s (t.countSent x) := by
  unfold State.countSent
  extract_lets c n set sent express fragmented stomped queued
  have counted : CopyLeft s express := .ite (.bump (.bump (.bump h))) (.bump (.bump h))
  have cut : CopyLeft s fragmented := .ite (.bump counted) counted
  have bad : CopyLeft s stomped := .ite (.bump cut) cut
  have left : CopyLeft s queued := .ite (.bump (.bump bad)) (.bump (.bump bad))
  exact .balAdd (.ite (.bump left) left)

theorem twinSend (h : CopyLeft s t) {m : TwinMsg} : CopyLeft s (t.twinSend m) := h.trans ⟨rfl, fun _ => rfl⟩

theorem moveDone (h : CopyLeft s t) {code : Nat} : CopyLeft s (t.moveDone code) := by
  have idle : CopyLeft s { t with twin := { t.twin with moving := none } } := h.trans ⟨rfl, fun _ => rfl⟩
  exact .fset (.fset idle)

theorem movePair (h : CopyLeft s t) {p : Nat} : CopyLeft s (t.movePair p) := by
  have peer : CopyLeft s (t.dhTo p dhPeer 3) := .emitBoth (.fset h)
  exact .ite (.moveDone (.bump (.twinSend peer))) h

end CopyLeft
end Sys2Proof.Machine
end

section
/-! PROOFS. Copies at the transmitter (R136, R275, R341, R356): which one the MAC starts on a free wire, and what the end of one leaves, which settle
O18. -/

namespace Sys2Proof.Machine

/-! ## The next copy (R356) -/

theorem ctlGo_none {s : State} {p : Nat} (noCtl : (s.port p).ctlWait = []) : s.ctlGo p = s := if_pos noCtl

theorem wireCuttable_free {s : State} {p : Nat} (free : (s.port p).wire = none) : s.wireCuttable p = none := by
  unfold State.wireCuttable
  rw [free]

/-- The copy that may start at a port at a time: of class 7 first, then, with no remainder held, of the others (R356). -/
def State.nextCopyAt (s : State) (p at_ : Nat) : Option TxCopy :=
  ((s.firstFree p (s.port p).fifo7).filter fun x => s.mayStart x at_).orElse fun _ =>
    if (s.port p).remainder.isSome then none else (s.firstFree p (s.port p).fifoG).filter fun x => s.mayStart x at_

/-- A copy stands on the wire of a port from a time on, with as much of it sent as before. -/
def startedAt (p at_ : Nat) (x : TxCopy) (t : State) : Prop :=
  ∃ w, (t.port p).wire = some w ∧ w.copy.id = x.copy.id ∧ w.start = at_ ∧ w.first = some at_ ∧ w.sent = x.sent

theorem startWire_starts (s : State) (p : Nat) (x : TxCopy) (at_ : Nat) : startedAt p at_ x (s.startWire p x at_) :=
  ⟨_, congrArg PortSt.wire (port_modPort_same ..), rfl, rfl, rfl, rfl⟩

/-- The transmitter of a port sends: it is UP without a remote fault, and neither safe nor FENCED. -/
structure Sending (s : State) (p : Nat) : Prop where
  open_ : s.flag F.MAC_STATUS.safe p = false
  owned : s.dhState p 0 = false
  up : s.portState p = pUp
  near : s.flag F.MAC_STATUS.rem_fault p = false

/-- On a free wire with no control frame waiting, nothing is cut, and the copy that may start is put on the wire. -/
theorem startNext_picks {s : State} {p : Nat} {x : TxCopy} (free : (s.port p).wire = none) (noCtl : (s.port p).ctlWait = [])
    (next : s.nextCopyAt p (s.freeAt p) = some x) : s.startNext p = s.startWire p x (s.freeAt p) := by
  unfold State.startNext
  extract_lets gone cut q at_ go7 goG
  have uncut : cut = s := by
    have same : gone = s := ctlGo_none noCtl
    unfold cut
    rw [same, wireCuttable_free free]
    cases s.firstFree p (s.port p).fifo7 <;> rfl
  have port : q = s.port p := congrArg (State.port · p) uncut
  have from_ : at_ = s.freeAt p := by
    unfold at_ State.freeAt
    rw [port, uncut]
  have chosen : (go7.orElse fun _ => goG) = some x := by
    unfold go7 goG
    rw [uncut, port, from_]
    exact next
  rw [chosen, port, free, noCtl, if_neg (by simp), uncut, from_]

/-- On a free wire with no control frame waiting, the copy that may start does, as soon as the gap after the last frame has passed. -/
theorem txStart_starts {s : State} {p : Nat} {x : TxCopy} (sending : Sending s p) (free : (s.port p).wire = none)
    (noCtl : (s.port p).ctlWait = []) (next : s.nextCopyAt p (s.freeAt p) = some x) :
    goesTo (exec (.txStart p) s) (startedAt p (s.freeAt p) x) := by
  have on : s.txOn p = true := by
    unfold State.txOn
    rw [sending.up, sending.near]
    rfl
  have picks : s.startNext p = s.startWire p x (s.freeAt p) := startNext_picks free noCtl next
  show goesTo (execTxStart p s) _
  refine goesTo_act ?_
  simp only [sending.open_, sending.owned, on, Bool.false_eq_true, or_self, if_false, Bool.not_true, picks]
  exact startWire_starts s p x _

/-! ## The end of a copy (R275) -/

theorem sent_resume (s : State) (p : Nat) :
    ((s.resume p).port p).lastTx = (s.port p).lastTx ∧ ((s.resume p).port p).lastEnd = (s.port p).lastEnd := by
  unfold State.resume
  extract_lets q
  split
  · exact ⟨rfl, rfl⟩
  · split
    · exact ⟨rfl, rfl⟩
    · rw [port_modPort_same, port_fset]
      exact ⟨rfl, rfl⟩

/-- A copy whose bytes have all arrived ends: it is the last frame that the port has sent, at the present time. -/
theorem txFrameEnd_ends {s : State} {p : Nat} {x : TxCopy} (wire : (s.port p).wire = some x) (whole : s.copySent x.copy = true)
    (noCtl : (s.port p).ctlWait = []) :
    goesTo (exec (.txFrameEnd p) s) fun t =>
      (t.port p).lastTx = some { bytes := s.sentBytes x, bad := s.stomped x.copy } ∧ (t.port p).lastEnd = s.time.now := by
  show goesTo (execTxFrameEnd p s) _
  refine goesTo_act ?_
  simp only [wire, whole, Bool.not_true, Bool.false_eq_true, if_false, port_withQueue]
  have counted : CopyLeft s (s.countSent x) := .countSent (.refl s)
  generalize ended : (s.countSent x).modPort p _ = u
  have portEnded : u.port p = { (s.countSent x).port p with
      wire := none, lastTx := some { bytes := s.sentBytes x, bad := s.stomped x.copy }, lastEnd := (s.countSent x).time.now } := by
    rw [← ended, port_modPort_same]
  generalize after : State.movePair _ p = v
  have left : CopyLeft u v := after ▸ .movePair (.copyGone (.traceTx (.leave (.refl u))))
  have waiting : (v.port p).ctlWait = [] := by rw [left.ctlWait, portEnded, counted.ctlWait, noCtl]
  obtain ⟨lastTx, lastEnd⟩ := sent_resume v p
  rw [ctlGo_none waiting, lastTx, lastEnd, left.lastTx, left.lastEnd, portEnded, counted.now]
  exact ⟨rfl, rfl⟩

/-- Settles O18: the copy found first may start and is put on the free wire; and what a copy that ends leaves behind touches neither what its port
has sent nor what waits there. -/
theorem copiesGoOnTheWireAndLeave : Obligations.CopiesGoOnTheWireAndLeave := by
  unfold Obligations.CopiesGoOnTheWireAndLeave
  refine ⟨?express, ?general, fun s p x => txFrameEnd_ends⟩
  case express =>
    rintro s p x ⟨open_, owned, up, near, free, noCtl⟩ first (may : s.mayStart x (s.freeAt p) = true)
    refine txStart_starts ⟨open_, owned, up, near⟩ free noCtl ?_
    unfold State.nextCopyAt
    rw [first, Option.filter_some, if_pos may]
    rfl
  case general =>
    rintro s p x ⟨open_, owned, up, near, free, noCtl⟩ noExpress unheld first
      (may : s.mayStart x (s.freeAt p) = true)
    refine txStart_starts ⟨open_, owned, up, near⟩ free noCtl ?_
    unfold State.nextCopyAt
    rw [noExpress, unheld, first, Option.filter_some, if_pos may]
    rfl

end Sys2Proof.Machine
end

section
/-! PROOFS. Commands for the MAC, NOP, the owner's microcode and program errors (R361, R362, R365, R366, R371, R378), which settle O30. -/

namespace Sys2Proof.Machine

/-! ## PTP_CF and PTP_TS (R498) -/

/-- The kind of a PTP_CF. -/
def cfKind (r : Edit) : Nat := bits (editWord r) 16 15

/-- The first byte that PTP_CF writes, by its routine or at the MAC. -/
def cfFirst (r : Edit) : Nat := if cfKind r = 1 then min (r.l4 + 6) (r.l5 + 8) else r.l5 + 8

/-- The edit after PTP_CF: its command waits for the MAC, and kind 1 has cleared the UDP checksum. -/
def withCf (r : Edit) : Edit :=
  { passedTo r (cfFirst r) with
    head := if cfKind r = 1 then (putHead r (r.l4 + 6) (bytesBE 2 0)).head else r.head
    mac := r.mac ++ [.cf (cfKind r) (r.l5 + 8) r.l4] }

section
variable {lim : Nat} {r : Edit} (mark : r.l5 ≠ 0) (udp : cfKind r ≠ 0 → r.l4 ≠ 0 ∧ r.l4 + 8 ≤ r.head.length)
include udp

theorem length_withCf : (withCf r).head.length = r.head.length := by
  unfold withCf
  dsimp only
  split
  next clears =>
    obtain ⟨-, fits⟩ := udp (by rw [clears]; decide)
    exact putHead_length (by rw [length_bytesBE]; exact fits)
  next => rfl

include mark

theorem runPtpCf_ends (order : r.p ≤ cfFirst r) (fits : r.l5 + 16 ≤ r.head.length) : runPtpCf lim r = ranOk lim (withCf r) 6 0 := by
  have marked : ¬(r.l5 = 0 ∨ (cfKind r ≠ 0 ∧ r.l4 = 0)) := by
    rintro (absent | ⟨kind, absent⟩)
    · exact mark absent
    · exact (udp kind).1 absent
  have read : ¬((!inHead r (r.l5 + 8) 8) = true ∨ (cfKind r ≠ 0 ∧ (!inHead r (r.l4 + 6) 2) = true)) := by
    rintro (outside | ⟨kind, outside⟩)
    · exact outside_of_le (by omega) outside
    · have := (udp kind).2
      exact outside_of_le (by omega) outside
  unfold runPtpCf
  extract_lets kind o
  calc
    _ = atOffset r o _ := if_neg marked
    _ = _ := atOffset_runs order
    _ = ranOk lim _ 6 0 := if_neg read
    _ = ranOk lim (withCf r) 6 0 := by
      unfold withCf
      by_cases clears : cfKind r = 1
      · rw [if_pos (show kind = 1 from clears), if_pos clears]
        rfl
      · rw [if_neg (show kind ≠ 1 from clears), if_neg clears]
        rfl

end

theorem runPtpTs_ends {lim : Nat} {r : Edit} (data : r.word ≤ 15) (present : baseAbsent r (bits (editWord r) 27 25) = false)
    (order : r.p ≤ editOffset r) (fits : bit (editWord r) 16 = false → editOffset r + 10 ≤ r.head.length) :
    runPtpTs lim r = ranOk lim { placed r with mac := r.mac ++ [.ts (bit (editWord r) 16) (editOffset r)] } 2 0 := by
  unfold runPtpTs
  extract_lets two
  rw [stdOp_runs (d := 0) data present order]
  refine if_neg ?_
  rintro ⟨oneStep, outside⟩
  exact outside_of_le (r := placed r) (fits (by simpa using oneStep)) outside

/-! ## Program errors (R366) -/

/-- A program error has dropped the copy of an engine: the engine is free, the error is shown, and counted (R366). -/
def copyDropped (s : State) (c e : Nat) (t : State) : Prop :=
  (t.eng c e).run = none ∧ t.flag F.RWE_ERR.prog_err c = true ∧ countedUp s t F.RWE_CNT.count c 2 1

theorem eng_editFault (s : State) (c d e : Nat) (x : Copy) : (s.editFault c x).eng d e = s.eng d e :=
  (CopyLeft.dropCopy (.refl (((s.unorder x).rweCount c 1).bump F.RWE_PCNT.count x.part 0))).eng d e

/-- A copy that is dropped at its engine leaves that engine's errors as they were. -/
theorem flag_editFault (s : State) (c d : Nat) (x : Copy) : (s.editFault c x).flag F.RWE_ERR.prog_err d = s.flag F.RWE_ERR.prog_err d := by
  have kept : (s.editFault c x).fget F.RWE_ERR.prog_err d 0 = s.fget F.RWE_ERR.prog_err d 0 := by
    refine (Within.dropCopy (.refl _)).fget F.RWE_ERR.prog_err d 0 (by decide) |>.trans ?_
    exact (State.fget_fset_reg _ _ _ _ _ _ (by decide)).trans (State.fget_fset_reg _ _ _ _ _ _ (by decide))
  unfold State.flag
  rw [kept]

/-- It counts as dropped, and not as a program error. -/
theorem fget_editFault (s : State) (c d : Nat) (x : Copy) : (s.editFault c x).fget F.RWE_CNT.count d 2 = s.fget F.RWE_CNT.count d 2 := by
  refine (Within.dropCopy (.refl _)).fget F.RWE_CNT.count d 2 (by decide) |>.trans ?_
  exact (State.fget_fset_reg _ _ _ _ _ _ (by decide)).trans (State.fget_fset_copy _ _ (.inr (by decide)))

section
variable {s : State} {c e : Nat} {r : Edit} (run : (s.eng c e).run = some r) (moving : (s.eng c e).stalledAt = none)
include run moving

theorem abortRun_runs : s.abortRun c e = (s.modEng c e fun g => { g with run := none }).editFault c r.copy := by
  unfold State.abortRun State.endStall
  rw [run, moving]

/-- A program error frees the engine, and leaves it as it was beside. -/
theorem eng_programError (old : Edit) (code addr trap : Nat) :
    (s.programError c e old code addr trap).eng c e = { s.eng c e with run := none } := by
  unfold State.programError
  extract_lets shown w last recorded
  have same : recorded.eng c e = s.eng c e := (CopyLeft.emitBoth (.wr (.fset (.bump (.refl s))))).eng c e
  rw [abortRun_runs (r := r) (by rw [same]; exact run) (by rw [same]; exact moving), eng_editFault, eng_modEng, same]

theorem programError_drops (old : Edit) (code addr trap : Nat) : copyDropped s c e (s.programError c e old code addr trap) := by
  refine ⟨by rw [eng_programError run moving], ?_⟩
  unfold State.programError
  extract_lets shown w last recorded
  have same : recorded.eng c e = s.eng c e := (CopyLeft.emitBoth (.wr (.fset (.bump (.refl s))))).eng c e
  have kept (f : Fld) (i : Nat) (other : f.reg ≠ .RWE_ERR_LAST ∧ f.reg ∉ recordRegs) : recorded.fget f c i = shown.fget f c i :=
    ((emitBoth_sentOnly ..).fget f c i other.2).trans (State.fget_wr_reg _ _ _ _ _ _ fun same => other.1 (ctorIdx_inj same))
  rw [abortRun_runs (r := r) (by rw [same]; exact run) (by rw [same]; exact moving)]
  constructor
  · rw [flag_editFault]
    refine flag_of_fget ((kept F.RWE_ERR.prog_err 0 (by decide)).trans ?_)
    exact State.fget_fset_same _ _ _ _ (by decide)
  · refine countedUp_congr (s.countedUp_bump c 2 1 (by decide)) rfl ?_
    rw [fget_editFault]
    exact (kept F.RWE_CNT.count 2 (by decide)).trans (State.fget_fset_reg _ _ _ _ _ _ (by decide))

/-- A routine that ends at a reserved word is a program error, and its copy leaves the engine (log entry 47). -/
theorem afterRoutine_reserved (calm : (s.eng c e).due = 0) (old x : Edit) :
    copyDropped s c e (s.afterRoutine c e old { code := errReserved, edit := x }) := by
  have drops := programError_drops (s := s.nextFree.nextFree) run moving old (s.freeNat 4) (s.nextFree.freeNat 14) 0
  have free := eng_programError (s := s.nextFree.nextFree) run moving old (s.freeNat 4) (s.nextFree.freeNat 14) 0
  unfold State.afterRoutine
  extract_lets _ _ ended
  have failed : ended = s.nextFree.nextFree.programError c e old (s.freeNat 4) (s.nextFree.freeNat 14) 0 := rfl
  rw [boundary_calm (by rw [failed, free]; exact calm), failed]
  exact drops

end

namespace Running

variable {s : State} {c e : Nat} {r : Edit} (h : Running s c e r)
include h

/-- A standard instruction with a reserved base or operand value is a program error. -/
theorem reserved_drops {op : Nat} {run : Nat → Edit → Ran} (library : s.libraryIn r.bank = true) (reserved : editReserved r = true)
    (present : baseAbsent r (bits (editWord r) 27 25) = false) (passes : s.moverStalls r r.p = false) (opcode : editOp r = op) :
    goesTo (s.editStep c e op run) (copyDropped s c e) := by
  refine h.goesTo_editStep opcode ?_
  rw [stdRan_reserved h.clear library reserved present]
  unfold State.runRoutine
  simp only [progFenced_clear h.clear, passes, Bool.false_eq_true, if_false]
  exact afterRoutine_reserved h.run h.moving h.calm _ _

/-- So is a reserved opcode. -/
theorem editEnd_reserved (low : 0x0F ≤ editOp r) (high : editOp r < 0x80) : goesTo (exec (.editEnd c e) s) (copyDropped s c e) := by
  show goesTo (execEditEnd c e s) _
  refine goesTo_act ?_
  simp only [h.run, h.going, h.moving, progFenced_clear h.clear, low, high, and_self, Bool.false_eq_true, Option.isSome_none, or_self,
    if_false, if_true]
  exact afterRoutine_reserved h.run h.moving h.calm _ _

/-- An owner's routine that ends without an error leaves its edit (R371, R378). -/
theorem ownerOpcode_runs (owner : 0x80 ≤ editOp r) (ok : (s.runOwner c r).code = 0)
    (passes : s.moverStalls r (s.runOwner c r).edit.p = false) :
    goesTo (exec (.ownerOpcode c e) s) (runsOn c e (s.runOwner c r).edit) := by
  show goesTo (execOwnerOpcode c e s) _
  refine goesTo_act ?_
  simp only [h.run, h.going, h.moving, Nat.not_lt.mpr owner, Bool.false_eq_true, Option.isSome_none, or_self, if_false]
  exact h.runRoutine_ends ok passes

/-- Without the library, NOP leaves what its bank's routine leaves. -/
theorem editNop_owner (missing : s.libraryIn r.bank = false) (opcode : editOp r = 0x0E) (ok : (s.runEntry c 0x0E r).code = 0)
    (passes : s.moverStalls r (s.runEntry c 0x0E r).edit.p = false) :
    goesTo (exec (.editNop c e) s) (runsOn c e (s.runEntry c 0x0E r).edit) := by
  refine h.goesTo_editStep opcode ?_
  have unplaced : usesBase r = false := by
    unfold usesBase
    rw [opcode]
    rfl
  rw [stdRan_owner missing unplaced, opcode]
  exact h.runRoutine_ends ok passes

/-- A PTP_TS whose offset lies beyond what the output FIFO takes waits for it (R365). -/
theorem editPtpTs_stalls (library : s.libraryIn r.bank = true) (allowed : editReserved r = false) (small : r.head.length ≤ r.orig + 128)
    (opcode : editOp r = 0x0D) (present : baseAbsent r (bits (editWord r) 27 25) = false) (order : r.p ≤ editOffset r)
    (fits : bit (editWord r) 16 = false → editOffset r + 10 ≤ r.head.length) (full : s.moverStalls r (editOffset r) = true) :
    goesTo (exec (.editPtpTs c e) s) fun t => (t.eng c e).stalledAt = some s.time.cycles ∧
      ∃ x, (t.eng c e).run = some x ∧ x.word = r.word ∧ x.head = r.head ∧ x.mac = r.mac := by
  obtain ⟨a, ran⟩ := stdRan_library (run := runPtpTs) h.clear library allowed
  rw [runPtpTs_ends (word_le_of_editOp (by rw [opcode]; decide)) present order fits, ranOk_ends (le_instrLimit s (by decide)) (by exact small)] at ran
  refine h.goesTo_editStep opcode ?_
  obtain ⟨d, stalled⟩ := h.runRoutine_stalls (ran := s.stdRan c r runPtpTs) (by rw [ran]; exact full)
  exact ⟨congrArg Engine.stalledAt stalled, _, congrArg Engine.run stalled, rfl, rfl, rfl⟩

end Running

/-- Settles O30: each command runs to its end as the effect of R361 or R371 says, and a reserved word ends as a program error. -/
theorem editsForTheMacAndTheOwner : Obligations.EditsForTheMacAndTheOwner := by
  unfold Obligations.EditsForTheMacAndTheOwner
  intro s c e r run going moving calm clear w o kind plain first ran dropped
  have h : Running s c e r := ⟨run, going, moving, calm, clear⟩
  refine ⟨?cf, ?ts, ?nop, ?bank, fun owner => h.ownerOpcode_runs owner, ?reserved, fun low high => h.editEnd_reserved low high⟩
  case cf =>
    rintro ⟨library, allowed, small⟩ opcode mark udp order passes fits
    have same : (withCf r).head.length = r.head.length := length_withCf udp
    exact h.edits library allowed opcode (runPtpCf_ends mark udp order fits) (le_instrLimit s (by decide)) (same ▸ small) passes
      fun _ => ⟨rfl, rfl, same⟩
  case ts =>
    rintro ⟨library, allowed, small⟩ opcode present order fits
    have data : r.word ≤ 15 := word_le_of_editOp (by rw [opcode]; decide)
    exact ⟨fun passes => h.edits library allowed opcode (runPtpTs_ends data present order fits) (le_instrLimit s (by decide)) small passes
      fun _ => ⟨rfl, rfl, rfl⟩, h.editPtpTs_stalls library allowed small opcode present order fits⟩
  case nop =>
    rintro ⟨library, allowed, small⟩ opcode passes
    exact h.edits (x := r) (m := 1) (d := 0) library allowed opcode rfl (le_instrLimit s (by decide)) small passes fun _ => ⟨rfl, rfl, rfl⟩
  case bank => exact fun missing opcode => h.editNop_owner missing opcode
  case reserved =>
    intro library reserved present passes
    have drops {op : Nat} {run : Nat → Edit → Ran} (opcode : editOp r = op) : goesTo (s.editStep c e op run) dropped :=
      h.reserved_drops library reserved present passes opcode
    exact ⟨drops, drops, drops, drops, drops, drops, drops, drops, drops, drops, drops⟩

end Sys2Proof.Machine
end

section
/-! PROOFS. Copies at the rewrite engines (R353–R356, R363, R365): dispatch to an engine's slot, the start of an edit, and the end of its program,
where the copy is handed over or stalls, which settle O31. -/

namespace Sys2Proof.Machine

theorem eng_withQueue (s : State) (q : List Instr) (c e : Nat) : (s.withQueue q).eng c e = s.eng c e := rfl

/-! ## Slots and inputs (R354, R355) -/

/-- A copy given to an engine stands in the slot of its class. -/
theorem eng_toEngine (s : State) (c e : Nat) (x : Copy) :
    (s.toEngine c e x).eng c e = if x.qclass = 7 then { s.eng c e with wait7 := some x } else { s.eng c e with wait := some x } := eng_modEng ..

/-- The slots of the other engines stay. -/
theorem eng_modEng_ne (s : State) {c d e : Nat} (g : Engine → Engine) (other : d ≠ e) : (s.modEng c d g).eng c e = s.eng c e :=
  tabGet_mod_ne _ _ _ (by omega)

theorem eng_toEngine_ne (s : State) {c d e : Nat} (x : Copy) (other : d ≠ e) : (s.toEngine c d x).eng c e = s.eng c e :=
  eng_modEng_ne _ _ other

/-- A dispatched copy leaves the input of its cluster. -/
theorem input_dispatched (s : State) (c e : Nat) (x : Copy) :
    (tabGet {} ((s.fromInput c x).toEngine c e x).clusters c).input = (tabGet {} s.clusters c).input.filter fun y => y.id ≠ x.id := by
  unfold State.toEngine State.modEng State.fromInput
  dsimp only
  rw [tabGet_mod_same, tabGet_mod_same]
  split
  · rfl
  · rfl

theorem rewriteDispatch_express {s : State} {c e : Nat} {x : Copy}
    (first : ((tabGet {} s.clusters c).input.find? fun y => decide (y.qclass = 7)) = some x) (engine : s.engine7 c = some e) :
    goesTo (exec (.rewriteDispatch c) s) fun t =>
      (t.eng c e).wait7 = some x ∧ (tabGet {} t.clusters c).input = (tabGet {} s.clusters c).input.filter fun y => y.id ≠ x.id := by
  have express : x.qclass = 7 := by simpa using List.find?_some first
  show goesTo (execRewriteDispatch c s) _
  refine goesTo_act ?_
  simp only [first, engine, Option.orElse_some]
  refine ⟨?_, input_dispatched s c e x⟩
  exact congrArg Engine.wait7 ((eng_toEngine ..).trans (if_pos express))

theorem rewriteDispatch_general {s : State} {c e : Nat} {x : Copy} {l : List Copy} (input : (tabGet {} s.clusters c).input = x :: l)
    (noExpress : ∀ y ∈ x :: l, y.qclass ≠ 7) (engine : s.engineG c = some e) :
    goesTo (exec (.rewriteDispatch c) s) fun t =>
      (t.eng c e).wait = some x ∧ (tabGet {} t.clusters c).input = (tabGet {} s.clusters c).input.filter fun y => y.id ≠ x.id := by
  have general : x.qclass ≠ 7 := noExpress x (List.mem_cons_self ..)
  have no7 : ((x :: l).find? fun y => decide (y.qclass = 7)) = none := List.find?_eq_none.mpr fun y mem => by simpa using noExpress y mem
  have first : ((x :: l).find? fun y => decide (y.qclass ≠ 7)) = some x := List.find?_cons_of_pos (decide_eq_true general)
  show goesTo (execRewriteDispatch c s) _
  refine goesTo_act ?_
  simp only [input, no7, first, engine, Option.orElse_none]
  refine ⟨?_, (input_dispatched s c e x).trans (by rw [input])⟩
  exact congrArg Engine.wait ((eng_toEngine ..).trans (if_neg general))

/-- Class-7 copies go to an engine that holds no copy, or to one that does not stall. -/
theorem engine7_free {s : State} {c d : Nat} (engine : s.engine7 c = some d) : engineCopies (s.eng c d) = [] ∨ (s.eng c d).stalledAt = none := by
  unfold State.engine7 at engine
  rcases Option.or_eq_some_iff.mp (Option.orElse_eq_or .. ▸ engine) with idle | ⟨-, moving⟩
  · have found := List.find?_some idle
    simp only [Bool.and_eq_true, decide_eq_true_eq] at found
    exact .inl found.2
  · have found := List.find?_some moving
    simp only [Bool.and_eq_true, Option.isNone_iff_eq_none] at found
    exact .inr found.1.2

theorem class7Redispatch_moves {s : State} {c e d at_ : Nat} {x : Copy} (waits : (s.eng c e).wait7 = some x) (express : x.qclass = 7)
    (stalled : (s.eng c e).stalledAt = some at_) (engine : s.engine7 c = some d) :
    goesTo (exec (.class7Redispatch c e) s) fun t => (t.eng c d).wait7 = some x ∧ (t.eng c e).wait7 = none := by
  have other : d ≠ e := by
    rintro rfl
    rcases engine7_free engine with idle | moving
    · simp [engineCopies, waits] at idle
    · exact absurd (stalled.symm.trans moving) (by simp)
  show goesTo (execClass7Redispatch c e s) _
  refine goesTo_act ?_
  simp only [waits, stalled, engine]
  constructor
  · exact congrArg Engine.wait7 ((eng_toEngine ..).trans (if_pos express))
  · exact congrArg Engine.wait7 ((eng_toEngine_ne _ _ other).trans (eng_modEng ..))

/-! ## The start of an edit (R353, R356) -/

theorem rewriteStart_starts {s : State} {c e : Nat} {x : Copy} (idle : (s.eng c e).run = none) (calm : (s.eng c e).due = 0)
    (next : (s.eng c e).wait7 = some x ∨ ((s.eng c e).wait7 = none ∧ (s.eng c e).wait = some x)) :
    goesTo (exec (.rewriteStart c e) s) fun t =>
      ∃ r, (t.eng c e).run = some r ∧ r.copy.id = x.id ∧ r.p = 0 ∧ r.word = 0 ∧ r.ended = false ∧
        r.head = s.bufBytes x.handle 0 (min 256 (s.copyLen x - 4)) := by
  have picked : ((s.eng c e).wait7.orElse fun _ => (s.eng c e).wait) = some x := by
    rcases next with express | ⟨none_, general⟩
    · rw [express]
      rfl
    · rw [none_, general]
      rfl
  show goesTo (execRewriteStart c e s) _
  refine goesTo_act ?_
  simp only [idle, calm, picked, Option.isSome_none, Bool.false_eq_true, zero_ne_one, if_false]
  rw [boundary_calm]
  · exact ⟨_, by rw [eng_withQueue, eng_modEng], rfl, rfl, rfl, rfl, rfl⟩
  · rw [eng_modEng, eng_modEng]
    dsimp only
    split
    · exact calm
    · exact calm

/-! ## The hand-over to the egress FIFO (R363) -/

/-- A copy is handed over: its engine is free and moves, and it stands last in its part of the egress FIFO with the edited head. -/
def handedOver (s t : State) (c e : Nat) (r : Edit) : Prop :=
  (t.eng c e).run = none ∧ (t.eng c e).stalledAt = none ∧
  let x : TxCopy := { copy := r.copy, head := r.head, orig := r.orig, mac := r.mac }
  if r.copy.qclass = 7 then (t.port r.copy.port).fifo7 = (s.port r.copy.port).fifo7 ++ [x]
  else (t.port r.copy.port).fifoG = (s.port r.copy.port).fifoG ++ [x]

theorem eng_endStall (s : State) (c e : Nat) : (s.endStall c e).eng c e = { s.eng c e with stalledAt := none } := by
  unfold State.endStall
  split
  · exact eng_modEng ..
  next moving => rw [← moving]

theorem port_endStall (s : State) (c e p : Nat) : (s.endStall c e).port p = s.port p := by
  unfold State.endStall
  split
  · rfl
  · rfl

theorem state_endStall (s : State) (c e : Nat) : (s.endStall c e).fget F.RWE_ENG.state c e = s.fget F.RWE_ENG.state c e := by
  unfold State.endStall
  split
  next t stalled =>
    show (s.rweCount c 3 (s.time.cycles - t)).fget F.RWE_ENG.state c e = _
    exact State.fget_fset_reg _ _ _ _ _ _ (by decide)
  next => rfl

/-- An engine that is not DRAINING is left in service. -/
theorem drained_serving {s : State} {c e : Nat} (serving : s.fget F.RWE_ENG.state c e ≠ 2) : s.drained c e = s :=
  if_neg fun draining => serving draining.1

theorem handOver_hands {s : State} {c e : Nat} (r : Edit) (calm : (s.eng c e).due = 0) (serving : s.fget F.RWE_ENG.state c e ≠ 2) :
    handedOver s (s.handOver c e r) c e r := by
  unfold State.handOver
  extract_lets x sent unordered entered free
  have engine : free.eng c e = { s.eng c e with run := none, stalledAt := none } := by
    unfold free
    rw [eng_modEng, eng_endStall]
    rfl
  have port : free.port x.port = entered.port x.port := port_endStall ..
  have state : free.fget F.RWE_ENG.state c e = s.fget F.RWE_ENG.state c e := state_endStall ..
  rw [boundary_calm (by rw [engine]; exact calm), drained_serving (by rw [state]; exact serving)]
  refine ⟨by rw [engine], by rw [engine], ?_⟩
  have before : unordered.port x.port = { s.port x.port with
      order7 := (s.port x.port).order7.filter (· ≠ x.id), orderG := (s.port x.port).orderG.filter (· ≠ x.id) } := port_modPort_same ..
  have after : entered.port x.port = if x.qclass = 7 then { unordered.port x.port with fifo7 := (unordered.port x.port).fifo7 ++ [sent] }
      else { unordered.port x.port with fifoG := (unordered.port x.port).fifoG ++ [sent] } := port_modPort_same ..
  show if x.qclass = 7 then (free.port x.port).fifo7 = (s.port x.port).fifo7 ++ [sent]
    else (free.port x.port).fifoG = (s.port x.port).fifoG ++ [sent]
  rw [port, after, before]
  by_cases express : x.qclass = 7
  · rw [if_pos express, if_pos express]
  · rw [if_neg express, if_neg express]

/-! ## The end of a program (R341, R363, R365) -/

theorem shCharge_credits (s : State) (n : Nat) (b : Int) : ∃ x, s.shCharge n b = { s with credits := x } := by
  unfold State.shCharge
  split
  · exact ⟨_, rfl⟩
  · exact ⟨_, rfl⟩

theorem shCopy_credits (s : State) (c : Copy) (b : Int) : ∃ x, s.shCopy c b = { s with credits := x } := by
  unfold State.shCopy
  extract_lets charged
  obtain ⟨x, port⟩ : ∃ x, charged = { s with credits := x } := shCharge_credits ..
  obtain ⟨y, set⟩ := shCharge_credits charged (shSet c.port c.set) b
  obtain ⟨z, cls⟩ := shCharge_credits (charged.shCharge (shSet c.port c.set) b) (shCls c.port c.set c.qclass) b
  split
  · exact ⟨x, port⟩
  · exact ⟨z, by rw [cls, set, port]⟩

/-- The state in which the end of a program is counted, and its edit charged (R341). -/
def State.programCounted (s : State) (c : Nat) (r : Edit) : State :=
  ((s.rweCount c 0).rweCount c 4 (max (4 + r.cycles) (3 + (r.head.length + 31) / 32))).shCopy r.copy ((r.head.length : Int) - r.orig)

/-- An edit whose program has ended waits for all of its head to pass (R363). -/
def State.endedEdit (s : State) (r : Edit) : Edit := { r with ended := true, drained := s.drains r r.head.length, waits := r.head.length }

/-- What lets a copy into the egress FIFO is what stands there and the lanes of its port. -/
theorem fifoNext_congr {s t : State} (ports : ∀ p, t.port p = s.port p) (r : Edit) : t.fifoNext r = s.fifoNext r := by
  unfold State.fifoNext
  rw [ports]

theorem drains_congr {s t : State} (ports : ∀ p, t.port p = s.port p) (recs : ∀ p, t.portRec p = s.portRec p) (r : Edit) (p : Nat) :
    t.drains r p = s.drains r p := by
  have used : t.fifoUsed r.copy.port r.copy.qclass = s.fifoUsed r.copy.port r.copy.qclass := by
    unfold State.fifoUsed State.portLanes
    rw [ports, recs]
  unfold State.drains
  rw [used, fifoNext_congr ports]

theorem mayEnter_congr {s t : State} (ports : ∀ p, t.port p = s.port p) (recs : ∀ p, t.portRec p = s.portRec p) (r : Edit) :
    t.mayEnter r = s.mayEnter r := by
  unfold State.mayEnter
  rw [fifoNext_congr ports, drains_congr ports recs]

/-- What has passed before does not let more pass. -/
theorem drains_drains (s : State) (r : Edit) (p : Nat) : s.drains { r with drained := s.drains r p } p = s.drains r p := by
  have next (x : Nat) : s.fifoNext { r with drained := x } = s.fifoNext r := rfl
  unfold State.drains
  simp only [next]
  split
  · rw [max_assoc, max_self]
  · rfl

theorem mayEnter_endedEdit (s : State) (r : Edit) : s.mayEnter (s.endedEdit r) = s.mayEnter r := by
  have same : s.drains (s.endedEdit r) r.head.length = s.drains r r.head.length := drains_drains s r r.head.length
  show (s.fifoNext r && decide (s.drains (s.endedEdit r) r.head.length = r.head.length)) = _
  rw [same]
  rfl

/-- The state in which an edit whose program has ended stands at its engine. -/
def State.programEnded (s : State) (c e : Nat) (r : Edit) : State :=
  (s.programCounted c r).modEng c e fun g => { g with run := some ((s.programCounted c r).endedEdit r) }

section
variable (s : State) (c e : Nat) (r : Edit)

theorem programCounted_only :
    ∃ x, s.programCounted c r =
      { (s.rweCount c 0).rweCount c 4 (max (4 + r.cycles) (3 + (r.head.length + 31) / 32)) with credits := x } :=
  shCopy_credits ..

theorem port_programCounted (p : Nat) : (s.programCounted c r).port p = s.port p := by
  obtain ⟨x, only⟩ := programCounted_only s c r
  rw [only]
  rfl

theorem time_programCounted : (s.programCounted c r).time = s.time := by
  obtain ⟨x, only⟩ := programCounted_only s c r
  rw [only]
  rfl

theorem eng_programCounted : (s.programCounted c r).eng c e = s.eng c e := by
  obtain ⟨x, only⟩ := programCounted_only s c r
  rw [only]
  rfl

theorem programCounted_within : Within [.RWE_CNT] s (s.programCounted c r) := by
  obtain ⟨x, only⟩ := programCounted_only s c r
  have counted : Within [.RWE_CNT] s ((s.rweCount c 0).rweCount c 4 (max (4 + r.cycles) (3 + (r.head.length + 31) / 32))) :=
    .bump (.bump (.refl s) (by decide)) (by decide)
  rw [only]
  exact counted.beside rfl rfl rfl rfl

theorem eng_programEnded :
    (s.programEnded c e r).eng c e = { s.eng c e with run := some ((s.programCounted c r).endedEdit r) } := by
  unfold State.programEnded
  rw [eng_modEng, eng_programCounted]

/-- The copy enters the egress FIFO after the end of its program where it could before. -/
theorem mayEnter_programEnded : (s.programEnded c e r).mayEnter ((s.programCounted c r).endedEdit r) = s.mayEnter r := by
  have counted : (s.programCounted c r).mayEnter r = s.mayEnter r :=
    mayEnter_congr (port_programCounted s c r) ((programCounted_within s c r).portRec (by decide)) r
  have entered := mayEnter_endedEdit (s.programCounted c r) r
  exact (mayEnter_congr (fun _ => rfl) (fun _ => rfl) _).trans (entered.trans counted)

end

section
variable {s : State} {c e : Nat} {r : Edit} (h : Running s c e r) (opcode : editOp r = 0)
include h opcode

/-- END counts its program, and hands its copy over or stalls. -/
theorem goesTo_editEnd {P : State → Prop}
    (holds : P ((if s.mayEnter r then (s.programEnded c e r).handOver c e ((s.programCounted c r).endedEdit r)
      else ((s.programEnded c e r).modEng c e fun g => { g with stalledAt := some (s.programEnded c e r).time.cycles }).boundary c e).withQueue
        s.pending)) : goesTo (exec (.editEnd c e) s) P := by
  rw [← mayEnter_programEnded s c e r] at holds
  show goesTo (execEditEnd c e s) _
  refine goesTo_act ?_
  simp only [h.run, h.going, h.moving, h.calm, progFenced_clear h.clear, opcode, Bool.false_eq_true, Option.isSome_none, or_self, if_false,
    zero_ne_one, ne_eq, not_true, nonpos_iff_eq_zero, OfNat.ofNat_ne_zero, false_and]
  exact holds

theorem editEnd_hands (serving : s.fget F.RWE_ENG.state c e ≠ 2) (enters : s.mayEnter r = true) :
    goesTo (exec (.editEnd c e) s) fun t => handedOver s t c e r := by
  refine goesTo_editEnd h opcode ?_
  rw [if_pos enters]
  have calm : ((s.programEnded c e r).eng c e).due = 0 := by
    rw [eng_programEnded]
    exact h.calm
  have state : (s.programEnded c e r).fget F.RWE_ENG.state c e = s.fget F.RWE_ENG.state c e :=
    (programCounted_within s c r).fget F.RWE_ENG.state c e (by decide)
  have port (p : Nat) : (s.programEnded c e r).port p = s.port p := port_programCounted s c r p
  obtain ⟨free, moves, stands⟩ := handOver_hands ((s.programCounted c r).endedEdit r) calm (by rw [state]; exact serving)
  rw [port] at stands
  exact ⟨free, moves, stands⟩

theorem editEnd_stalls (waits : s.mayEnter r = false) :
    goesTo (exec (.editEnd c e) s) fun t =>
      (t.eng c e).stalledAt = some s.time.cycles ∧ ∃ x, (t.eng c e).run = some x ∧ x.ended = true ∧ x.head = r.head := by
  refine goesTo_editEnd h opcode ?_
  have time : (s.programEnded c e r).time = s.time := time_programCounted s c r
  rw [waits, if_neg Bool.false_ne_true, time, boundary_calm]
  · rw [eng_withQueue, eng_modEng, eng_programEnded]
    exact ⟨rfl, _, rfl, rfl, rfl⟩
  · rw [eng_modEng, eng_programEnded]
    exact h.calm

end

/-! ## The end of a stall (R365) -/

section
variable {s : State} {c e : Nat} {r : Edit} (run : (s.eng c e).run = some r)
include run

theorem moverStallEnd_hands (ended : r.ended = true) (calm : (s.eng c e).due = 0) (serving : s.fget F.RWE_ENG.state c e ≠ 2)
    (enters : s.mayEnter r = true) : goesTo (exec (.moverStallEnd c e) s) fun t => handedOver s t c e r := by
  show goesTo (execMoverStallEnd c e s) _
  refine goesTo_act ?_
  simp only [run, ended, enters, if_true]
  exact handOver_hands r calm serving

theorem moverStallEnd_goesOn {at_ : Nat} (going : r.ended = false) (stalled : (s.eng c e).stalledAt = some at_)
    (passes : s.moverStalls r r.waits = false) :
    goesTo (exec (.moverStallEnd c e) s) fun t =>
      (t.eng c e).stalledAt = none ∧ ∃ x, (t.eng c e).run = some x ∧ x.word = r.word ∧ x.head = r.head := by
  show goesTo (execMoverStallEnd c e s) _
  refine goesTo_act ?_
  simp only [run, going, stalled, passes, Bool.false_eq_true, Option.isSome_some, Bool.not_false, and_self, if_false, if_true]
  rw [eng_withQueue, eng_modEng, eng_endStall]
  exact ⟨rfl, _, rfl, rfl, rfl⟩

end

/-- Settles O31: each command's effect on the engine that it picks, the hand-over and the stall by the one test that lets a copy into the egress
FIFO. -/
theorem enginesTakeCopiesAndHandThemOver : Obligations.EnginesTakeCopiesAndHandThemOver := by
  unfold Obligations.EnginesTakeCopiesAndHandThemOver
  refine ⟨fun s c e x => rewriteDispatch_express, fun s c e x l => rewriteDispatch_general, fun s c e d at_ x => class7Redispatch_moves,
    fun s c e x => rewriteStart_starts, ?ended, fun s c e r run => moverStallEnd_hands run,
    fun s c e at_ r run => moverStallEnd_goesOn run⟩
  case ended =>
    intro s c e r run going opcode calm moving serving clear
    have h : Running s c e r := ⟨run, going, moving, calm, clear⟩
    exact ⟨editEnd_hands h opcode serving, editEnd_stalls h opcode⟩

end Sys2Proof.Machine
end

section
/-! PROOFS. A logic fault of an engine on BENCH (R380, R382), which refutes O32. -/

namespace Sys2Proof.Machine

/-- After main reset, engine 3 of cluster 2 is on BENCH and yet holds a copy. -/
def benchEngineState : State :=
  let held : Copy :=
    { id := 0, frame := 0, handle := 0, len := 0, part := 0, port := 0, set := 0, qclass := 0, cls := 0, colour := 0, tag := 0, edit := 0 }
  let busy : Engine := { run := some { copy := held, head := [], orig := 0, total := 0 } }
  ({ State.reset with engines := [(2 * 32 + 3, busy)] }).fset F.RWE_ENG.state 2 3 1

/-- Refutes O32: its first clause leaves out FENCED engines alone, and so takes a BENCH one that holds a copy for one in service. Such an engine takes
no copies (R354, R382), and the model fences it on the spot, with no fault left pending for a boundary (R380). -/
theorem not_engineFaultsAndRepairs : ¬ Obligations.EngineFaultsAndRepairs := by
  unfold Obligations.EngineFaultsAndRepairs
  rintro ⟨pending, -⟩
  have claimed := pending benchEngineState 2 3 _ (by decide +kernel) rfl
  refine goesTo_absurd claimed ?_
  show goesTo (execEngineLogicFault 2 3 benchEngineState) _
  refine goesTo_act ?_
  have fenced : ((benchEngineState.engineFault 2 3).eng 2 3).due = 0 := by decide +kernel
  rw [eng_withQueue, fenced]
  rintro ⟨due, -⟩
  exact absurd due zero_ne_one

end Sys2Proof.Machine
end
